-- ==== Sys2Proof/Word.lean ====
section
/-! DEFINITION. The word types of the manual: 32-bit registers (R4), the 64-bit timebase (R41), the 48-bit position
(R36) and the 24-bit cell word. -/

namespace Sys2Proof

/-- A 32-bit register or bus word (R4). -/
abbrev Word := BitVec 32

/-- A timebase value in ns (R41). -/
abbrev Tb := BitVec 64

/-- A 48-bit encoder position (R36). -/
abbrev Pos := BitVec 48

/-- A 24-bit fabric word. -/
abbrev Cell24 := BitVec 24

end Sys2Proof
end

