-- ==== Sys2Proof/Syntax.lean ====
section
/-! DEFINITION. The commands and events of the block: one constructor per row of the table, with the operands the
manual gives the row and what the outside world supplies (levels at pins, words on links, converted codes, measured
results). -/

namespace Sys2Proof

/-- The two access paths of R426. -/
inductive Path where
  | direct | kweave
deriving DecidableEq, Repr

/-- A host access as it reaches the device (R296, R425, R426): an SPI transaction with its instruction and address, a
parallel-port word at an offset of the 64 KiB window, or an access of the management controller. -/
inductive Access where
  | spi (op : BitVec 8) (addr : Word) (word : Nat)
  | parallel (offset : BitVec 16)
  | management (addr : Word)
deriving DecidableEq, Repr

/-- What a calibration measurement found (R144): I_REF against RREF in nA and the ladder in ppm of full scale, both as ratios to
V_BG as it stands (R142); the coefficients of a slice with its residual and spur; the legs of a head, its trim DAC LSBs in nV and
its PGA gain factors in 1/65,536; an offset; or the offset and gain of a converter. -/
inductive CalMeas where
  | ladder (iref : Nat) (levels : List Nat)
  | slice (ok : Bool) (ofs gain apt : Int) (resid spur : Nat)
  | afe (legs : List (Int × Int)) (trim pga : List Nat)
  | offset (z : Int)
  | coef (ofs gain : Int)
deriving DecidableEq, Repr

/-- Who asks a bank (R275): the management controller, memory port `port` of region `n`, the line writer of a head, the
DMA of a monitor converter. -/
inductive Requester where
  | management
  | region (port n : Nat)
  | writer (h : Nat)
  | dma (m : Nat)
deriving DecidableEq, Repr

/-- What the check bits of a stored word show when it is read (R282, R283, R285): correct, one bit wrong, or two, with
the bits by which the stored word differs. -/
inductive MemEcc where
  | clean
  | single
  | double (flip : Nat)
deriving DecidableEq, Repr

/-- What a word of the scrubber RAM or of a table shows when it is read (R131, R334). -/
inductive RamEcc where
  | clean | single | double
deriving DecidableEq, Repr

/-- What the check bits of the four copies of a table entry show when they are read (R131). -/
structure TableEcc where
  pctLive : RamEcc
  pctTarget : RamEcc
  pttLive : RamEcc
  pttTarget : RamEcc
deriving DecidableEq, Repr

/-- No entry shows an error. -/
def TableEcc.clean : TableEcc := ⟨.clean, .clean, .clean, .clean⟩

/-- The voltages at the input balls of a channel at one instant, in µV: AVnnP, AVnnN and HAREFhh of its head (R87). -/
structure Balls where
  p : Int
  n : Int
  ref : Int
deriving DecidableEq, Repr

/-- Whose selector a write of a bus selector addresses (R177): an AX pin, the selectors of a cell, a tap, a comparator. -/
inductive Selector where
  | ax | cell | tap | comparator
deriving DecidableEq, Repr

/-- How a 2-wire transaction ends (R406). -/
inductive TwoWireEnd where
  | done | nack | stuck
deriving DecidableEq, Repr

/-- The commands. -/
inductive Instr where
  | registerWrite (a : Access) (v : Word)
  | encEdgeAccepted (p : Nat) (a b z : Bool) (na nb nz : Nat)
  | encLosBegin (p : Nat)
  | encLosEnd (p : Nat)
  | encStall (p : Nat)
  | encCtrlWrite (pth : Path) (p : Nat) (v : Word)
  | encPositionLoad (pth : Path) (p : Nat) (v : Word)
  | encPosRead (pth : Path) (p : Nat)
  | tbRead (pth : Path)
  | tbLoad (pth : Path) (v : Word)
  | ltgEvaluate (h : Nat)
  | ltgTimerExpiry (h : Nat)
  | ltgDeferredIssue (h : Nat)
  | ltgCoastExpiry (h : Nat)
  | ltgCtrlArm (pth : Path) (h : Nat) (v : Word)
  | ltgCtrlDisarm (pth : Path) (h : Nat) (v : Word)
  | ltgSwt (pth : Path) (h : Nat) (v : Word)
  | lineFire (h : Nat)
  | strobeStart (h : Nat)
  | strobeEnd (h : Nat)
  | capture (src : Nat) (rising : Bool) (ts : Nat)
  | captureRead (pth : Path) (k : Nat)
  | capturePop (pth : Path) (k : Nat) (v : Word)
  | zlkSuperframeSend
  | zlkHeaderReceive (ring : Bool) (chars : List Nat) (at64 : Nat)
  | ringLine (ring : Bool) (j : Nat)
  | ringEcho (ring : Bool) (j : Nat)
  | echoReply (ring : Bool) (j : Nat)
  | ringOffset (ring : Bool) (j : Nat)
  | ringStartMessage (ring : Bool) (j : Nat)
  | zlkInputLost (ring : Bool)
  | zlkLockLost
  | zlkStartTimeout
  | zlkCtrlStart (pth : Path) (v : Word)
  | zlkRposRead (pth : Path)
  | pixelWord (c num : Nat) (k : Int) (sample reset : Balls) (dev : Int)
  | afeScanStart (pth : Path) (v : Word)
  | afeScanStop (pth : Path) (v : Word)
  | afeScandataRead (pth : Path)
  | tableEntryFetch (c : Nat) (err : TableEcc)
  | tableTargetWrite (pth : Path) (pct : Bool) (i : Nat) (v : Word)
  | tableWriteResume (g : Nat)
  | tsyncCopy (pth : Path) (v : Word)
  | tsyncCopyDone (h : Nat) (errs : List (Nat × TableEcc))
  | statsLatchRead (pth : Path) (h : Nat)
  | histogramLatch (pth : Path) (v : Word)
  | histogramRead (pth : Path)
  | lineWriterEnable (pth : Path) (h : Nat) (v : Word)
  | mittenLineResult (g : Nat) (mean : Int) (rms peak : Nat) (gdiff : Int)
  | mittenMaxlnExpiry (g : Nat)
  | sliceRefCalDone (g : Nat) (ok : Bool) (ofs gain apt : Int) (resid spur : Nat)
  | mittenIdleHandover (g : Nat) (mean : Int) (rms peak : Nat)
  | afeCalStep (h : Nat)
  | calTempPoll
  | calContextCheck
  | learnMeasureStart (h : Nat)
  | learnMeasureDone (h : Nat)
  | learnNoLinesTimeout (h : Nat)
  | calItemComplete (kind item : Nat) (m : CalMeas)
  | calStoreDone (ok : Bool)
  | calStoreInterval
  | aswSelectorWrite (pth : Path) (sel : Selector) (i : Nat) (v : Word)
  | abusTrip (b : Nat)
  | abusRelease (pth : Path) (high : Bool) (v : Word)
  | cacConfigWrite (pth : Path) (net : Bool) (n : Nat) (v : Word)
  | cacSettled (n : Nat) (ilim rail : Bool)
  | cacReset (pth : Path) (n : Nat) (v : Word)
  | cacResetEnd (n : Nat)
  | cmpDecision (n : Nat) (vp vn : Int)
  | cmpStart (pth : Path) (n : Nat) (v : Word)
  | cmpClear (pth : Path) (n : Nat) (v : Word)
  | cmpWakeTick (n : Nat) (vp vn : Int)
  | mcvRegularTrigger (m : Nat)
  | mcvInjectedTrigger (m : Nat)
  | mcvGo (pth : Path) (m : Nat) (v : Word)
  | mcvIgo (pth : Path) (m : Nat) (v : Word)
  | mcvEnable (pth : Path) (m : Nat) (v : Word)
  | mcvDelayExpiry (m : Nat) (inj : Bool)
  | mcvConversionDone (m : Nat) (v : Int)
  | mcvIdleExpiry (m : Nat)
  | mcvHousekeeping
  | mcvRidxWrite (pth : Path) (m : Nat) (v : Word)
  | streamLineArrival (h : Nat)
  | fabOutputWord (n p : Nat)
  | pairedLineVerdict (n p : Nat)
  | fabEventOutput (n : Nat)
  | memPortRequest (who : Requester)
  | memRequestPerform (b : Nat) (p0 p1 : Bool) (e0 e1 : MemEcc)
  | writebackPerform (b : Nat)
  | bankHostAccess (a : Access) (wr : Bool) (v : Word) (e : MemEcc)
  | scratchpadHostAccess (a : Access) (wr : Bool) (v : Word) (e : MemEcc)
  | marchStart (pth : Path) (b : Nat) (v : Word)
  | marchStop (pth : Path) (b : Nat) (v : Word)
  | marchDone (b : Nat) (rows : List Nat) (bad : Nat) (col : Bool)
  | snapshotArm (pth : Path) (v : Word)
  | snapshotTake (n : Nat)
  | snapshotResume (pth : Path) (v : Word)
  | snapshotCancel (pth : Path) (v : Word)
  | snapdataRead (pth : Path)
  | regionIsolate (pth : Path) (v : Word)
  | progn
  | cfgClearDone
  | cfgWaitTimeout
  | cfgFifoWrite (pth : Path) (v : Word)
  | cfgWordTimeout
  | imageHeader
  | frameWrite
  | frameRepeat
  | regionBegin
  | regionEnd
  | memInit
  | startupOrder
  | check
  | tag
  | chainNext
  | cfgdoneRise
  | cfgSyncTimeout
  | startupLock
  | pllLockTimeout
  | startupOutrel
  | startupGsrrel
  | startupWen
  | startupAnarel
  | startupDone
  | regionPowerUpDone
  | regionStartupDone (n : Nat)
  | goldenFlashTimeout
  | cfgRetryClear (pth : Path) (v : Word)
  | scrubFrameCheck (flip cwFlip : Nat) (hard : Bool) (ram : RamEcc) (votes : Nat)
  | scrubWatchdogMiss
  | scrubRestart (pth : Path) (v : Word)
  | scrubEnable (pth : Path) (v : Word)
  | scrubInject (pth : Path) (v : Word)
  | porAssert
  | coldStart (hpsel bbramOk : Bool) (refFails pllFails bootFails : Nat)
  | rstnAssert
  | warmStart
  | lockstepMismatch
  | powerFailWarning (src : Nat)
  | pfailRecovery
  | powerStateRequest (pth : Path) (v : Word)
  | powerTransitionDone
  | groupPowerDown (pth : Path) (v : Word)
  | groupPowerUp (pth : Path) (v : Word)
  | groupReloadDone (g : Nat)
  | bankPowerDown (pth : Path) (v : Word)
  | bankPowerUp (pth : Path) (v : Word)
  | laneQuadPower (pth : Path) (v : Word)
  | wakeCapture (k : Nat) (rising : Bool)
  | wakeRingLoss
  | wakeRingLine (head : Nat)
  | wakeHost
  | wakeDone
  | refclkLost
  | pllLockLost (i : Nat)
  | holdoverEnd
  | testenAssert
  | jtagRegacc (dr : BitVec 66) (e : MemEcc)
  | kweaveWordWrite (pth : Path) (v : Word)
  | kweaveWordTimeout
  | kweaveReplyRead (pth : Path)
  | kweaveResync (pth : Path) (v : Word)
  | kweaveFlush (pth : Path) (v : Word)
  | sessionTimeout
  | nop
  | getInfo
  | softReset
  | sessionUnlock
  | sessionLock
  | abort
  | handleQuery
  | handleList
  | keyLoad
  | keyZero
  | echo
  | pwrState
  | pwrDomains
  | pwrStatus
  | cfgProgram
  | cfgPartial
  | cfgGolden
  | cfgStatus
  | calRun
  | calStore
  | calPart
  | calResult
  | calDue
  | regRead (e : List MemEcc)
  | regWrite (e : List MemEcc)
  | regMaskwrite (e : List MemEcc)
  | regReadblock (e : List MemEcc)
  | regWriteblock (e : List MemEcc)
  | ltgArm
  | ltgDisarm
  | ltgPosload
  | ltgSwtrig
  | ltgSnap
  | ltgTbload
  | ltgStatus
  | zlkStart
  | zlkStatus
  | memMarch
  | memFill
  | memFillDone (h : Nat)
  | memStatus
  | evqConfig
  | evqStatus
  | telRead
  | telConfig
  | telCounters
  | eventRecordWrite (src : Nat)
  | evqTailWrite (pth : Path) (v : Word)
  | evqHostsleepWrite (pth : Path) (v : Word)
  | levelRevoke
  | telemetryPeriod
  | gpioCfgWrite (pth : Path) (p : Nat) (v : Word)
  | gpioClaimChange (p : Nat)
  | gpioMaskedWrite (pth : Path) (oe : Bool) (k : Nat) (v : Word)
  | twowireGo (pth : Path) (h : Nat) (v : Word)
  | twowireDone (h : Nat) (how : TwoWireEnd) (nbytes : Nat) (read : List Nat)
  | twowireTimeout (h nbytes : Nat)
  | lanePacketStore (src : Nat)
  | freePacketTimeout (n p : Nat)
  | lanePacketSend (l : Nat)
  | laneFlowBlock (r mask : Nat)
  | laneRxLost (r : Nat)
  | laneEnable (pth : Path) (l : Nat) (v : Word)
  | laneTrainDone (l : Nat)
  | quadLock (q : Nat)
  | wordCellCycle (n pads : Nat) (raw : List (Nat × Nat)) (errs : List (Nat × MemEcc))
  | returnPairIdle (r : Nat)
  | prognRise
  | refclkReturn
  | vbatLoss
  | railSet (ser12 : Nat)
  | temperatureSetTimeout
  | extestInstruction (on_ : Bool)
deriving DecidableEq, Repr

end Sys2Proof
end

