-- ==== Sys2Proof/Decode.lean ====
section
/-! DEFINITION. The words of the table: the manual numbers its commands by name and gives their rows no bits, so no word
spells one. -/

namespace Sys2Proof

/-- The command a word spells: none, for no row of the table has bits (assumption log 2). -/
def decodeTableWord (_nbits _w : Nat) : Option Instr := none

end Sys2Proof
end

