-- ==== Sys2Proof/Machine/Bits.lean ====
section
/-! DEFINITION. Bit fields, two's complement and the rounding rules of R460. -/

namespace Sys2Proof.Machine

/-- Bits `lsb` up, `w` of them. -/
def bitsOf (n lsb w : Nat) : Nat := n / 2 ^ lsb % 2 ^ w

/-- Replace bits `lsb` up, `w` of them. -/
def setBits (n lsb w v : Nat) : Nat :=
  n / 2 ^ (lsb + w) * 2 ^ (lsb + w) + v % 2 ^ w * 2 ^ lsb + n % 2 ^ lsb

/-- Bit `i`. -/
def tbit (n i : Nat) : Bool := decide (n / 2 ^ i % 2 = 1)

/-- A truth value as a bit. -/
def b2n (b : Bool) : Nat := if b then 1 else 0

/-- Set or clear bit `i`. -/
def setBit (n i : Nat) (b : Bool) : Nat := setBits n i 1 (b2n b)

/-- The signed value of a `w`-bit number. -/
def sx (w n : Nat) : Int := if n % 2 ^ w < 2 ^ (w - 1) then (n % 2 ^ w : Nat) else ((n % 2 ^ w : Nat) : Int) - 2 ^ w

/-- A signed value as a `w`-bit number. -/
def ux (w : Nat) (z : Int) : Nat := (z % (2 ^ w : Nat)).toNat

/-- Division rounded to nearest, halves up (R460). -/
def roundDiv (a : Int) (b : Nat) : Int := (2 * a + b) / (2 * b : Nat)

/-- Division toward zero (R460). -/
def tdiv (a b : Int) : Int := Int.tdiv a b

/-- Arithmetic shift right, toward minus infinity (R460). -/
def asr (a : Int) (n : Nat) : Int := a / (2 ^ n : Nat)

/-- Division rounded up, of naturals. -/
def ceilDiv (a b : Nat) : Nat := (a + b - 1) / b

/-- Limit to a range. -/
def clampI (lo hi x : Int) : Int := if x < lo then lo else if hi < x then hi else x

/-- The 16-bit saturation of the pseudocode. -/
def sat16 (x : Int) : Nat := (clampI 0 65535 x).toNat

/-- How many of the low `w` bits are set. -/
def popcount (w n : Nat) : Nat := ((List.range w).filter (fun i => tbit n i)).length

/-- The numbers of the low `w` bits that are set. -/
def setBitsOf (w n : Nat) : List Nat := (List.range w).filter (fun i => tbit n i)

/-- Bits by position, lowest first, as a number. -/
def ofBools : List Bool → Nat
  | [] => 0
  | b :: r => b2n b + 2 * ofBools r

end Sys2Proof.Machine
end

