-- ==== Sys2Proof/Machine/Crc.lean ====
section
/-! DEFINITION. CRC-32C (R363, R264, R300, R301), bit by bit. -/

namespace Sys2Proof.Machine

/-- One bit of the reflected polynomial 0x1EDC6F41. -/
def crcBit (c : Nat) : Nat := if c % 2 = 1 then Nat.xor (c / 2) 0x82F63B78 else c / 2

/-- One byte enters the register. -/
def crcByte (c b : Nat) : Nat :=
  crcBit (crcBit (crcBit (crcBit (crcBit (crcBit (crcBit (crcBit (Nat.xor c (b % 256)))))))))

/-- Bytes enter the register in order. -/
def crcBytes (c : Nat) (l : List Nat) : Nat := l.foldl crcByte c

/-- The `n` bytes of a word, low byte first. -/
def leBytes : Nat → Nat → List Nat
  | 0, _ => []
  | n + 1, v => v % 256 :: leBytes n (v / 256)

/-- CRC-32C of 32-bit words. -/
def crcWords (l : List Nat) : Nat := Nat.xor (crcBytes 0xFFFFFFFF (l.flatMap (leBytes 4))) 0xFFFFFFFF

end Sys2Proof.Machine
end

