-- ==== Sys2Proof/Machine/Aes.lean ====
section
/-! DEFINITION. AES-256 in GCM mode (R312), as the standard that the manual names defines it (log 31): the block cipher, the
key stream of an image body and the tag. -/

namespace Sys2Proof.Machine

/-- Product by x in the field of AES. -/
def aesX (a : Nat) : Nat := if a < 128 then 2 * a else Nat.xor (2 * a - 256) 0x1B

/-- Product in the field of AES, over the low `n` bits of `b`. -/
def aesMul : Nat → Nat → Nat → Nat
  | 0, _, _ => 0
  | n + 1, a, b => Nat.xor (if b % 2 = 1 then a else 0) (aesMul n (aesX a) (b / 2))

/-- `a` to the power `k`. -/
def aesPow (a : Nat) : Nat → Nat
  | 0 => 1
  | k + 1 => aesMul 8 a (aesPow a k)

/-- Rotation of a byte to the left. -/
def rotl8 (x n : Nat) : Nat := (x * 2 ^ n + x / 2 ^ (8 - n)) % 256

/-- The product of `s`, its square, and so on, `k` factors. -/
def aesChain : Nat → Nat → Nat
  | 0, _ => 1
  | k + 1, s => aesMul 8 s (aesChain k (aesMul 8 s s))

/-- The inverse in the field, 0 for 0: the power 254 = 2 + 4 + … + 128. -/
def aesInv (a : Nat) : Nat := aesChain 7 (aesMul 8 a a)

/-- The substitution of a byte: the inverse in the field, then the affine map. -/
def aesSub (a : Nat) : Nat :=
  let b := aesInv a
  Nat.xor (Nat.xor (Nat.xor (Nat.xor (Nat.xor b (rotl8 b 1)) (rotl8 b 2)) (rotl8 b 3)) (rotl8 b 4)) 0x63

/-- The substitution as a table. -/
def aesTable : List Nat := (List.range 256).map aesSub

def aesS (a : Nat) : Nat := aesTable.getD a 0

def xorBytes (a b : List Nat) : List Nat := (a.zip b).map (fun p => Nat.xor p.1 p.2)

/-- The words of the key schedule, newest first; `k` more are to come. -/
def aesSchedule : Nat → Nat → List (List Nat) → List (List Nat)
  | 0, _, l => l
  | k + 1, i, l =>
    let prev := l.headD []
    let t :=
      if i % 8 = 0 then xorBytes ((prev.rotateLeft 1).map aesS) [aesPow 2 (i / 8 - 1), 0, 0, 0]
      else if i % 8 = 4 then prev.map aesS
      else prev
    aesSchedule k (i + 1) (xorBytes (l.getD 7 []) t :: l)

/-- The 32 bytes of a key as words of four. -/
def keyWords : Nat → List Nat → List (List Nat)
  | 0, _ => []
  | n + 1, l => l.take 4 :: keyWords n (l.drop 4)

/-- The fifteen round keys of 16 bytes. -/
def roundKeys (key : List Nat) : List (List Nat) :=
  let w := (aesSchedule 52 8 (keyWords 8 key).reverse).reverse
  (List.range 15).map (fun r => ((List.range 4).map (fun j => w.getD (4 * r + j) [])).flatten)

/-- Rows shift: byte i of column c comes from column c + i. -/
def shiftRows (s : List Nat) : List Nat := (List.range 16).map (fun k => s.getD ((k / 4 + k % 4) % 4 * 4 + k % 4) 0)

/-- One column is mixed. -/
def mixColumn (c : List Nat) : List Nat :=
  (List.range 4).map (fun i =>
    let b (j : Nat) : Nat := c.getD ((i + j) % 4) 0
    Nat.xor (Nat.xor (aesX (b 0)) (Nat.xor (aesX (b 1)) (b 1))) (Nat.xor (b 2) (b 3)))

def mixColumns (s : List Nat) : List Nat := (List.range 4).flatMap (fun c => mixColumn ((s.drop (4 * c)).take 4))

/-- The rounds but the last. -/
def aesRounds (s : List Nat) : List (List Nat) → List Nat
  | [] => s
  | [k] => xorBytes (shiftRows (s.map aesS)) k
  | k :: ks => aesRounds (xorBytes (mixColumns (shiftRows (s.map aesS))) k) ks

/-- The block cipher on 16 bytes. -/
def aesBlock (key block : List Nat) : List Nat :=
  match roundKeys key with
  | [] => block
  | k :: ks => aesRounds (xorBytes block k) ks

/-- The `n` bytes of a number, high byte first. -/
def beBytes (n v : Nat) : List Nat := (leBytes n v).reverse

def fromBe (l : List Nat) : Nat := l.foldl (fun a b => 256 * a + b) 0

/-- Product in the field of GHASH, over `n` bits. -/
def ghashMul : Nat → Nat → Nat → Nat
  | 0, _, _ => 0
  | n + 1, x, v => Nat.xor (if x / 2 ^ n % 2 = 1 then v else 0)
      (ghashMul n x (if v % 2 = 1 then Nat.xor (v / 2) (0xE1 * 2 ^ 120) else v / 2))

/-- Bytes in blocks of 16, zero-padded, as numbers. -/
def gcmBlocks : Nat → List Nat → List Nat
  | 0, _ => []
  | _, [] => []
  | n + 1, l => fromBe ((l.take 16) ++ List.replicate (16 - (l.take 16).length) 0) :: gcmBlocks n (l.drop 16)

/-- The tag of additional data and ciphertext (R312). -/
def gcmTag (key iv aad cipher : List Nat) : List Nat :=
  let h := fromBe (aesBlock key (List.replicate 16 0))
  let l := gcmBlocks (aad.length + 1) aad ++ gcmBlocks (cipher.length + 1) cipher ++
    [8 * aad.length * 2 ^ 64 + 8 * cipher.length]
  let s := l.foldl (fun y b => ghashMul 128 (Nat.xor y b) h) 0
  xorBytes (beBytes 16 s) (aesBlock key (iv ++ beBytes 4 1))

/-- A word of the body, `idx` words after its start, deciphered. -/
def gcmWord (key iv : List Nat) (idx raw : Nat) : Nat :=
  let ks := aesBlock key (iv ++ beBytes 4 ((2 + idx / 4) % 2 ^ 32))
  Nat.xor raw (fromBe ((ks.drop (4 * (idx % 4))).take 4).reverse)

/-- The bytes of 32-bit words (R4). -/
def wordBytes (l : List Nat) : List Nat := l.flatMap (leBytes 4)

end Sys2Proof.Machine
end

