-- ==== Sys2Proof/Machine/Alu.lean ====
section
/-! DEFINITION. The operations of a word cell (R218 to R223), on 24-bit numbers. -/

namespace Sys2Proof.Machine

def m24 : Nat := 2 ^ 24

/-- Signed or unsigned value of a 24-bit word (R220). -/
def val24 (sgn : Bool) (a : Nat) : Int := if sgn then sx 24 a else ((a % m24 : Nat) : Int)

/-- A value as a 24-bit word. -/
def word24 (z : Int) : Nat := ux 24 z

/-- Limit a value to the 24-bit range under SGN, and whether it was limited. -/
def sat24 (sgn : Bool) (z : Int) : Nat × Bool :=
  let lo : Int := if sgn then -8388608 else 0
  let hi : Int := if sgn then 8388607 else 16777215
  (word24 (clampI lo hi z), decide (clampI lo hi z ≠ z))

/-- The condition of CMP (R220). -/
def cond24 (sgn : Bool) (cond a b : Nat) : Bool :=
  let x := val24 sgn a
  let y := val24 sgn b
  match cond with
  | 0 => decide (x = y)
  | 1 => decide (x ≠ y)
  | 2 => decide (x < y)
  | 3 => decide (x ≤ y)
  | 4 => decide (y < x)
  | 5 => decide (y ≤ x)
  | _ => false

/-- A shift left; 0 from 24 on. -/
def shl24 (a n : Nat) : Nat := if 24 ≤ n then 0 else a * 2 ^ n % m24

/-- A shift right; from 24 on the sign fill. -/
def shr24 (sgn : Bool) (a n : Nat) : Nat := word24 (asr (val24 sgn a) n)

/-- The 18 x 18 product, shifted (R220, R223). -/
def mul24 (sgn : Bool) (a b sh : Nat) : Nat :=
  let x : Int := if sgn then sx 18 a else ((a % 2 ^ 18 : Nat) : Int)
  let y : Int := if sgn then sx 18 b else ((b % 2 ^ 18 : Nat) : Int)
  word24 (asr (x * y) sh)

/-- Result with the flag r ≠ 0. -/
def rz (r : Nat) : Nat × Bool := (r, decide (r ≠ 0))

/-- The result and flag of an operation (R220); none for a reserved one. -/
def alu (op : Nat) (sgn : Bool) (sh a b c cin : Nat) : Option (Nat × Bool) :=
  match op with
  | 0 => some (rz a)
  | 1 => some ((a + b + cin) % m24, decide (m24 ≤ a + b + cin))
  | 2 => some ((a + (m24 - 1 - b) + cin) % m24, decide (m24 ≤ a + (m24 - 1 - b) + cin))
  | 3 => some (sat24 sgn (val24 sgn a + val24 sgn b))
  | 4 => some (sat24 sgn (val24 sgn a - val24 sgn b))
  | 5 => some (rz (if val24 sgn a ≤ val24 sgn b then a else b))
  | 6 => some (rz (if val24 sgn a ≤ val24 sgn b then b else a))
  | 7 => some (rz (if a ≤ b then b - a else a - b))
  | 8 => let r := cond24 sgn sh a b; some (b2n r, r)
  | 9 => some (rz (if c % 2 = 1 then b else a))
  | 10 =>
    let lo := if val24 sgn a ≤ val24 sgn b then b else a
    let r := if val24 sgn lo ≤ val24 sgn c then lo else c
    some (r, decide (val24 sgn a < val24 sgn b) || decide (val24 sgn c < val24 sgn a))
  | 11 => some (rz (shl24 a sh))
  | 12 => some (rz (shr24 sgn a sh))
  | 13 => some (rz (shl24 a (b % 32)))
  | 14 => some (rz (shr24 sgn a (b % 32)))
  | 15 => some (rz (Nat.land a b))
  | 16 => some (rz (Nat.lor a b))
  | 17 => some (rz (Nat.xor a b))
  | 18 => some (rz (Nat.land a (m24 - 1 - b)))
  | 19 => some (rz (mul24 sgn a b sh))
  | 20 => some (rz ((c + mul24 sgn a b sh) % m24))
  | _ => none

end Sys2Proof.Machine
end

