-- ==== Sys2Proof/Config.lean ====
section
/-! DEFINITION. What the manual leaves open: one free value, a constant with no body, applied to a counter that the
step reads and advances. A statement that mentions it holds for every value it may have. -/

namespace Sys2Proof

/-- A value the manual does not state, one fresh value per number (assumption log 3). -/
opaque Config.freeValue : Nat → Nat

/-- The temperature a code of a sensor stands for, in 1/16 of a degree (R199: by coefficients fused per sensor, which
the manual does not give; assumption log 3). -/
opaque Config.tempOf (sensor code : Nat) : Int

/-- Settings of the cuff of a pin, as a function of the I/O frame that would hold them: field 0 the mode, 1 CDIV, 2 the
cell, 3 the BITSLIP cell (R241 places them in the I/O frames, R421 gives them no layout; assumption log 3). -/
opaque Config.cuffField (field pin payload : Nat) : Nat

end Sys2Proof
end

