-- ==== Sys2Proof/Machine/Registers.lean ====
section
/-! DEFINITION. The register map of the manual: one `RegKind` per register of the chapters' register tables, its
placement (R423), and one `Fld` per field with its bits, access code, Reset column and stated range. -/

namespace Sys2Proof.Machine

/-- One constructor per register of the register tables, named BLOCK_REGISTER. -/
inductive RegKind where
  | SYS_KWIN | SYS_KWOUT | SYS_KWSTAT | SYS_KWCTRL | SYS_KWCNT | SYS_DEVID | SYS_STATUS | SYS_SERIAL
  | SYS_SERIALH | SYS_FWVER | SYS_ACCERR | SYS_ACCADDR | SYS_NOWNER | SYS_PAGE | PWR_STATE | PWR_REQ
  | PWR_WAKECFG | PWR_WAKESTAT | PWR_DOMEN | PWR_DOMSTAT0 | PWR_DOMSTAT1 | PWR_PFAIL | PWR_RSTCAUSE
  | PWR_STARTERR | CLK_PLLSTAT | CLK_REFSTAT | CFG_STATUS | CFG_TIMEOUT | CFG_WAITTMO | CFG_GOLDADDR
  | CFG_RETRY | CFG_IMAGEID | CFG_BYTES | CFG_FAILPOS | CFG_FAILINFO | CFG_STARTUP | CFG_CHAIN | CFG_FIFOSTAT
  | CFG_FUSE | CFG_FIFO | SCB_CTRL | SCB_GAP | SCB_SWEEP_LIMIT | SCB_STAT | SCB_POS | SCB_SWEEPTIME | SCB_CNT
  | SCB_CNT2 | SCB_SELFCNT | SCB_LASTERR | SCB_RELOADREQ | SCB_INJECT | MEM_BCTRL | MEM_BSTAT | MEM_WGT
  | MEM_ECCCNT | MEM_ERRADDR | MEM_COLLCNT | MEM_ROWMAP0 | MEM_ROWMAP1 | MEM_MARCHRES | MEM_WBCNT
  | MEM_RQDROP | MEM_SPECC | MEM_SPERR | MEM_MCFG | EVQ_HEAD | EVQ_TAIL | EVQ_CTRL | EVQ_SIZE | EVQ_BASE
  | EVQ_LOST | EVQ_STAT | EVQ_CNT | GPIO_CFG | GPIO_PAD | GPIO_MOUT | GPIO_MOE | GPIO_IN | HCP_CTRL
  | HCP_HCKPH | HCP_HCKFREQ | HCP_LEDDLY | HCP_LEDWID | HCP_LEDADV | HCP_CTRSET | HCP_TSTAT | HCP_ELEC
  | HCP_AUX | HCP_TWCFG | HCP_TWCMD | HCP_TWDATA0 | HCP_TWDATA1 | HCP_TWSTAT | ENC_CTRL | ENC_FILT | ENC_STAT
  | ENC_POS | ENC_POSH | ENC_POSSET | ENC_POSSETH | ENC_VEL | ENC_ERRCNT | ENC_CPR | ENC_IDXTOL | ENC_RATEMAX
  | ENC_IDXPOS | ENC_IDXPOSH | ENC_STALL | ENC_CAPCTRL | ENC_CAPTS | ENC_CAPTSH | ENC_CAPPOS | ENC_CAPPOSH
  | ENC_CAPSTAT | LTG_CTRL | LTG_STAT | LTG_PITCH | LTG_PITCHH | LTG_ORIGIN | LTG_ORIGINH | LTG_MINPER
  | LTG_VMIN | LTG_TIMERPER | LTG_REARM | LTG_COAST | LTG_LINE | LTG_TGT | LTG_TGTH | LTG_STRPOS
  | LTG_STRPOSH | LTG_OVRCNT | LTG_EVTCNT | LTG_MODECNT | LTG_CTROFS | LTG_EFFMIN | LTG_TB | LTG_TBH
  | LTG_TBSET | LTG_TBSETH | LTG_TBCTRL | ZLK_CTRL | ZLK_STAT | ZLK_ISLAND | ZLK_TXHEAD | ZLK_POSSRC
  | ZLK_LOOPLAT | ZLK_OFSP | ZLK_OFSR | ZLK_ASYM | ZLK_ALIVE | ZLK_LOCKMASK | ZLK_RPOS | ZLK_RPOSH
  | ZLK_TBERR | ZLK_ERRCNT | ZLK_LINECNT | ZLK_BRKCNT | ZLK_STARTTMO | AFE_CH | AFE_STAT | AFE_PGA | AFE_CLP
  | AFE_CLPWIN | AFE_CLPTGT | AFE_OVRCNT | AFE_LEGCAL | AFE_HTIM | AFE_HNPIX | AFE_HSTAT | AFE_SCANCTRL
  | AFE_SCANDATA | CNV_SOFS | CNV_SGAIN | CNV_SAPT | CNV_SQUAL | CNV_SSTAT | CNV_DBL | CNV_MIT | CNV_MITCNT
  | CNV_MITCFG0 | CNV_MITCFG1 | PCU_HCFG | PCU_ROUTE | PCU_LROUTE | PCU_STWIN | PCU_STLINE | PCU_STMIN
  | PCU_STMAX | PCU_STSUM | PCU_STCNT | PCU_LWCTRL | PCU_LWBASE | PCU_LWIDX | PCU_WIN | PCU_GSTAT
  | PCU_ECCCNT | PCU_DROPCNT | PCU_HSEL | PCU_HDATA | PCU_TSYNC | CAL_CTRL | CAL_STAT | CAL_TRIG_DT
  | CAL_SLEW | CAL_CTX_WIN0 | CAL_CTX_WIN1 | CAL_DARK_MAX | CAL_FLAT_LIM | CAL_DARKCFG | CAL_FLATCFG
  | CAL_AFECFG | CAL_STORECFG | CAL_STOREBASE | CAL_STORESTAT | CAL_STORESEQ | CAL_STALEH | CAL_STALEG
  | CAL_PSEL | CAL_PINFO | CAL_PAGE | CAL_PCTX | CAL_PCTX4 | CAL_PCTX5 | CAL_PCTX6 | CAL_LIVE | CAL_RSTAT
  | CAL_RVAL | CAL_CHQ | CAC_CFG | CAC_NET | CAC_SEL | CAC_STAT | ASW_AX | ASW_MTAP | ASW_TRIP0 | ASW_TRIP1
  | ASW_BREL0 | ASW_BREL1 | ASW_CONFLICT | ASW_CNT | ASW_BSRC | CMP_CFG | CMP_TICK | CMP_THR | CMP_FILT
  | CMP_STAT | CMP_EVCNT | CMP_WIN | CMP_WSTAT0 | CMP_WSTAT1 | CMP_WAKETICK | CMP_OUT0 | CMP_OUT1 | MCV_CTRL
  | MCV_CFG | MCV_MASK0 | MCV_MASK1 | MCV_TRIG | MCV_ITRIG | MCV_INJ | MCV_BUF | MCV_BUFBASE | MCV_WIDX
  | MCV_RIDX | MCV_STAT | MCV_TRIGOVR | MCV_DROPS | MCV_INJRES0 | MCV_INJRES1 | MCV_WMARK | MCV_SYS
  | FAB_RCLK | FAB_SIMAP | FAB_SOMAP | FAB_SIDROP | FAB_SOOVF | FAB_EVCFG | FAB_ACT | FAB_CODESTAT
  | FAB_SNAPCTRL | FAB_SNAPTB | FAB_SNAPTBH | FAB_SNAPSTAT | FAB_SNAPADDR | FAB_SNAPDATA | FAB_SNAPAT
  | FAB_SNAPATH | RGN_STAT | RGN_ISOLATE | RGN_GAUNTLET | RGN_PSTAT | RGN_MMCNT | RGN_SIG | LAN_CTRL
  | LAN_STAT | LAN_FILL | LAN_PEAK | LAN_DROP | LAN_TXCNT | LAN_TRUNC | LAN_QCFG | LAN_QSTAT | LAN_SOMAP
  | LAN_RXCFG | LAN_RXSTAT | TMP_TS | TMP_RAIL0 | TMP_RAIL1 | TMP_RAIL2 | TMP_RAIL3 | TMP_STAT | TMP_LIMIT
  | TMP_MAX
deriving DecidableEq, Repr

/-- Access codes of R6. -/
inductive Acc where | RW | RO | WO | W1C | W1S | RWL
deriving DecidableEq, Repr

/-- A field: its register, least significant bit, width, access code, Reset column, and the values its chapter
admits: `lo` to `hi`, and `also`. -/
structure Fld where
  kind : RegKind
  lsb : Nat
  width : Nat
  acc : Acc
  rst : Nat
  lo : Nat
  hi : Nat
  also : Nat
deriving DecidableEq, Repr

/-- Where a register stands: base, outer stride and count, inner stride and count (R423). -/
structure Place where
  base : Nat
  ostr : Nat
  ocnt : Nat
  istr : Nat
  icnt : Nat
deriving DecidableEq, Repr

def ENC_CTRL_EN : Fld := ⟨.ENC_CTRL, 0, 1, .RW, 0, 0, 1, 0⟩
def ENC_CTRL_MODE : Fld := ⟨.ENC_CTRL, 1, 2, .RW, 0, 0, 3, 0⟩
def ENC_CTRL_INV : Fld := ⟨.ENC_CTRL, 3, 1, .RW, 0, 0, 1, 0⟩
def ENC_CTRL_IDX : Fld := ⟨.ENC_CTRL, 4, 2, .RW, 0, 0, 3, 0⟩
def ENC_CTRL_VWIN : Fld := ⟨.ENC_CTRL, 6, 3, .RW, 3, 0, 7, 0⟩
def ENC_CTRL_VSHIFT : Fld := ⟨.ENC_CTRL, 9, 3, .RW, 2, 0, 7, 0⟩
def ENC_CTRL_TERM : Fld := ⟨.ENC_CTRL, 12, 1, .RW, 1, 0, 1, 0⟩
def ENC_CTRL_LOSEVT : Fld := ⟨.ENC_CTRL, 13, 1, .RW, 1, 0, 1, 0⟩
def ENC_FILT_ABW : Fld := ⟨.ENC_FILT, 0, 6, .RW, 7, 0, 63, 0⟩
def ENC_FILT_ZW : Fld := ⟨.ENC_FILT, 8, 6, .RW, 7, 0, 63, 0⟩
def ENC_STAT_VALID : Fld := ⟨.ENC_STAT, 0, 1, .RO, 0, 0, 1, 0⟩
def ENC_STAT_REV : Fld := ⟨.ENC_STAT, 1, 1, .RO, 0, 0, 1, 0⟩
def ENC_STAT_STALLED : Fld := ⟨.ENC_STAT, 2, 1, .RO, 1, 0, 1, 0⟩
def ENC_STAT_LOS : Fld := ⟨.ENC_STAT, 3, 1, .RO, 0, 0, 1, 0⟩
def ENC_STAT_POSVALID : Fld := ⟨.ENC_STAT, 4, 1, .RO, 0, 0, 1, 0⟩
def ENC_STAT_QERR : Fld := ⟨.ENC_STAT, 8, 1, .W1C, 0, 0, 1, 0⟩
def ENC_STAT_OVSP : Fld := ⟨.ENC_STAT, 9, 1, .W1C, 0, 0, 1, 0⟩
def ENC_STAT_RATE : Fld := ⟨.ENC_STAT, 10, 1, .W1C, 0, 0, 1, 0⟩
def ENC_STAT_IDXERR : Fld := ⟨.ENC_STAT, 11, 1, .W1C, 0, 0, 1, 0⟩
def ENC_STAT_LOSSEEN : Fld := ⟨.ENC_STAT, 12, 1, .W1C, 0, 0, 1, 0⟩
def ENC_STAT_IDXSEEN : Fld := ⟨.ENC_STAT, 13, 1, .W1C, 0, 0, 1, 0⟩
def ENC_POS_POS : Fld := ⟨.ENC_POS, 0, 32, .RO, 0, 0, 4294967295, 0⟩
def ENC_POSH_POSH : Fld := ⟨.ENC_POSH, 0, 16, .RO, 0, 0, 65535, 0⟩
def ENC_POSSET_VAL : Fld := ⟨.ENC_POSSET, 0, 32, .RW, 0, 0, 4294967295, 0⟩
def ENC_POSSETH_VALH : Fld := ⟨.ENC_POSSETH, 0, 16, .RW, 0, 0, 65535, 0⟩
def ENC_POSSETH_LOAD : Fld := ⟨.ENC_POSSETH, 31, 1, .WO, 0, 0, 1, 0⟩
def ENC_VEL_VEL : Fld := ⟨.ENC_VEL, 0, 32, .RO, 0, 0, 4294967295, 0⟩
def ENC_ERRCNT_QERRS : Fld := ⟨.ENC_ERRCNT, 0, 16, .RW, 0, 0, 65535, 0⟩
def ENC_ERRCNT_OVSPS : Fld := ⟨.ENC_ERRCNT, 16, 16, .RW, 0, 0, 65535, 0⟩
def ENC_CPR_CPR : Fld := ⟨.ENC_CPR, 0, 32, .RW, 0, 0, 4294967295, 0⟩
def ENC_IDXTOL_TOL : Fld := ⟨.ENC_IDXTOL, 0, 8, .RW, 1, 0, 255, 0⟩
def ENC_RATEMAX_MAX : Fld := ⟨.ENC_RATEMAX, 0, 32, .RW, 0, 0, 4294967295, 0⟩
def ENC_IDXPOS_IPOS : Fld := ⟨.ENC_IDXPOS, 0, 32, .RO, 0, 0, 4294967295, 0⟩
def ENC_IDXPOSH_IPOSH : Fld := ⟨.ENC_IDXPOSH, 0, 16, .RO, 0, 0, 65535, 0⟩
def ENC_STALL_STALL : Fld := ⟨.ENC_STALL, 0, 24, .RW, 1000000, 1000, 16777215, 1000⟩
def ENC_CAPCTRL_SRC : Fld := ⟨.ENC_CAPCTRL, 0, 8, .RW, 0, 0, 143, 0⟩
def ENC_CAPCTRL_EDGE : Fld := ⟨.ENC_CAPCTRL, 8, 2, .RW, 0, 0, 2, 0⟩
def ENC_CAPCTRL_PSEL : Fld := ⟨.ENC_CAPCTRL, 10, 3, .RW, 0, 0, 7, 0⟩
def ENC_CAPCTRL_EN : Fld := ⟨.ENC_CAPCTRL, 13, 1, .RW, 0, 0, 1, 0⟩
def ENC_CAPCTRL_EVT : Fld := ⟨.ENC_CAPCTRL, 14, 1, .RW, 0, 0, 1, 0⟩
def ENC_CAPCTRL_WAKE : Fld := ⟨.ENC_CAPCTRL, 15, 1, .RW, 0, 0, 1, 0⟩
def ENC_CAPTS_TS : Fld := ⟨.ENC_CAPTS, 0, 32, .RO, 0, 0, 4294967295, 0⟩
def ENC_CAPTSH_TSH : Fld := ⟨.ENC_CAPTSH, 0, 32, .RO, 0, 0, 4294967295, 0⟩
def ENC_CAPPOS_POS : Fld := ⟨.ENC_CAPPOS, 0, 32, .RO, 0, 0, 4294967295, 0⟩
def ENC_CAPPOSH_POSH : Fld := ⟨.ENC_CAPPOSH, 0, 16, .RO, 0, 0, 65535, 0⟩
def ENC_CAPSTAT_FILL : Fld := ⟨.ENC_CAPSTAT, 0, 3, .RO, 0, 0, 7, 0⟩
def ENC_CAPSTAT_POP : Fld := ⟨.ENC_CAPSTAT, 4, 1, .WO, 0, 0, 1, 0⟩
def ENC_CAPSTAT_OVF : Fld := ⟨.ENC_CAPSTAT, 8, 1, .W1C, 0, 0, 1, 0⟩
def LTG_CTRL_ARM : Fld := ⟨.LTG_CTRL, 0, 1, .RW, 0, 0, 1, 0⟩
def LTG_CTRL_SRC : Fld := ⟨.LTG_CTRL, 1, 3, .RW, 0, 0, 5, 0⟩
def LTG_CTRL_ENC : Fld := ⟨.LTG_CTRL, 4, 3, .RW, 0, 0, 7, 0⟩
def LTG_CTRL_REF : Fld := ⟨.LTG_CTRL, 7, 5, .RW, 0, 0, 31, 0⟩
def LTG_CTRL_OVR : Fld := ⟨.LTG_CTRL, 12, 2, .RW, 1, 0, 2, 0⟩
def LTG_CTRL_LOSS : Fld := ⟨.LTG_CTRL, 14, 2, .RW, 0, 0, 1, 0⟩
def LTG_CTRL_SWT : Fld := ⟨.LTG_CTRL, 31, 1, .WO, 0, 0, 1, 0⟩
def LTG_STAT_RUNNING : Fld := ⟨.LTG_STAT, 0, 1, .RO, 0, 0, 1, 0⟩
def LTG_STAT_REVERSE : Fld := ⟨.LTG_STAT, 1, 1, .RO, 0, 0, 1, 0⟩
def LTG_STAT_SLOW : Fld := ⟨.LTG_STAT, 2, 1, .RO, 0, 0, 1, 0⟩
def LTG_STAT_COASTING : Fld := ⟨.LTG_STAT, 3, 1, .RO, 0, 0, 1, 0⟩
def LTG_STAT_HELD : Fld := ⟨.LTG_STAT, 4, 1, .RO, 0, 0, 1, 0⟩
def LTG_STAT_STOPPED : Fld := ⟨.LTG_STAT, 8, 1, .W1C, 0, 0, 1, 0⟩
def LTG_STAT_GAPPEND : Fld := ⟨.LTG_STAT, 9, 1, .RO, 0, 0, 1, 0⟩
def LTG_PITCH_PITCH : Fld := ⟨.LTG_PITCH, 0, 32, .RW, 65536, 0, 4294967295, 0⟩
def LTG_PITCHH_PITCHH : Fld := ⟨.LTG_PITCHH, 0, 16, .RW, 0, 0, 65535, 0⟩
def LTG_ORIGIN_ORG : Fld := ⟨.LTG_ORIGIN, 0, 32, .RW, 0, 0, 4294967295, 0⟩
def LTG_ORIGINH_ORGH : Fld := ⟨.LTG_ORIGINH, 0, 16, .RW, 0, 0, 65535, 0⟩
def LTG_MINPER_MINPER : Fld := ⟨.LTG_MINPER, 0, 24, .RW, 0, 0, 16777215, 0⟩
def LTG_VMIN_VMIN : Fld := ⟨.LTG_VMIN, 0, 32, .RW, 4295, 0, 4294967295, 0⟩
def LTG_TIMERPER_PER : Fld := ⟨.LTG_TIMERPER, 0, 24, .RW, 100000, 1000, 16777215, 1000⟩
def LTG_REARM_HYS : Fld := ⟨.LTG_REARM, 0, 16, .RW, 4, 0, 65535, 0⟩
def LTG_COAST_TIME : Fld := ⟨.LTG_COAST, 0, 24, .RW, 100000, 0, 16777215, 0⟩
def LTG_LINE_LINE : Fld := ⟨.LTG_LINE, 0, 32, .RW, 0, 0, 4294967295, 0⟩
def LTG_TGT_TGT : Fld := ⟨.LTG_TGT, 0, 32, .RO, 0, 0, 4294967295, 0⟩
def LTG_TGTH_TGTH : Fld := ⟨.LTG_TGTH, 0, 16, .RO, 0, 0, 65535, 0⟩
def LTG_STRPOS_SPOS : Fld := ⟨.LTG_STRPOS, 0, 32, .RO, 0, 0, 4294967295, 0⟩
def LTG_STRPOSH_SPOSH : Fld := ⟨.LTG_STRPOSH, 0, 16, .RO, 0, 0, 65535, 0⟩
def LTG_OVRCNT_DROP : Fld := ⟨.LTG_OVRCNT, 0, 16, .RW, 0, 0, 65535, 0⟩
def LTG_OVRCNT_DEFER : Fld := ⟨.LTG_OVRCNT, 16, 16, .RW, 0, 0, 65535, 0⟩
def LTG_EVTCNT_STRETCH : Fld := ⟨.LTG_EVTCNT, 0, 16, .RW, 0, 0, 65535, 0⟩
def LTG_EVTCNT_SKIP : Fld := ⟨.LTG_EVTCNT, 16, 16, .RW, 0, 0, 65535, 0⟩
def LTG_MODECNT_LATE : Fld := ⟨.LTG_MODECNT, 0, 16, .RW, 0, 0, 65535, 0⟩
def LTG_MODECNT_SLOW : Fld := ⟨.LTG_MODECNT, 16, 16, .RW, 0, 0, 65535, 0⟩
def LTG_CTROFS_C : Fld := ⟨.LTG_CTROFS, 0, 24, .RO, 0, 0, 16777215, 0⟩
def LTG_EFFMIN_EFF : Fld := ⟨.LTG_EFFMIN, 0, 24, .RO, 0, 0, 16777215, 0⟩
def LTG_TB_TB : Fld := ⟨.LTG_TB, 0, 32, .RO, 0, 0, 4294967295, 0⟩
def LTG_TBH_TBH : Fld := ⟨.LTG_TBH, 0, 32, .RO, 0, 0, 4294967295, 0⟩
def LTG_TBSET_SET : Fld := ⟨.LTG_TBSET, 0, 32, .RW, 0, 0, 4294967295, 0⟩
def LTG_TBSETH_SETH : Fld := ⟨.LTG_TBSETH, 0, 32, .RW, 0, 0, 4294967295, 0⟩
def LTG_TBCTRL_LOAD : Fld := ⟨.LTG_TBCTRL, 0, 1, .WO, 0, 0, 1, 0⟩
def LTG_TBCTRL_RING : Fld := ⟨.LTG_TBCTRL, 1, 1, .RO, 0, 0, 1, 0⟩
def LTG_TBCTRL_SLEPT : Fld := ⟨.LTG_TBCTRL, 8, 1, .W1C, 0, 0, 1, 0⟩
def ZLK_CTRL_EN : Fld := ⟨.ZLK_CTRL, 0, 1, .RW, 0, 0, 1, 0⟩
def ZLK_CTRL_ROLE : Fld := ⟨.ZLK_CTRL, 1, 2, .RW, 0, 0, 2, 0⟩
def ZLK_CTRL_ID : Fld := ⟨.ZLK_CTRL, 3, 5, .RW, 0, 0, 31, 0⟩
def ZLK_CTRL_TRACK : Fld := ⟨.ZLK_CTRL, 8, 1, .RW, 1, 0, 1, 0⟩
def ZLK_CTRL_AUTOREV : Fld := ⟨.ZLK_CTRL, 9, 1, .RW, 0, 0, 1, 0⟩
def ZLK_CTRL_START : Fld := ⟨.ZLK_CTRL, 31, 1, .WO, 0, 0, 1, 0⟩
def ZLK_STAT_ROLE : Fld := ⟨.ZLK_STAT, 0, 3, .RO, 0, 0, 7, 0⟩
def ZLK_STAT_PHASE : Fld := ⟨.ZLK_STAT, 3, 2, .RO, 0, 0, 3, 0⟩
def ZLK_STAT_ACTIVE : Fld := ⟨.ZLK_STAT, 5, 1, .RO, 0, 0, 1, 0⟩
def ZLK_STAT_PRIOK : Fld := ⟨.ZLK_STAT, 6, 1, .RO, 0, 0, 1, 0⟩
def ZLK_STAT_REVOK : Fld := ⟨.ZLK_STAT, 7, 1, .RO, 0, 0, 1, 0⟩
def ZLK_STAT_LOCKED : Fld := ⟨.ZLK_STAT, 8, 1, .RO, 0, 0, 1, 0⟩
def ZLK_STAT_HOP : Fld := ⟨.ZLK_STAT, 9, 5, .RO, 0, 0, 31, 0⟩
def ZLK_STAT_MASTERID : Fld := ⟨.ZLK_STAT, 14, 5, .RO, 0, 0, 31, 0⟩
def ZLK_STAT_ERR : Fld := ⟨.ZLK_STAT, 19, 4, .RO, 0, 0, 15, 0⟩
def ZLK_STAT_TAKEOVER : Fld := ⟨.ZLK_STAT, 24, 1, .W1C, 0, 0, 1, 0⟩
def ZLK_STAT_ISLANDSEEN : Fld := ⟨.ZLK_STAT, 25, 1, .W1C, 0, 0, 1, 0⟩
def ZLK_STAT_TBSTEP : Fld := ⟨.ZLK_STAT, 26, 1, .W1C, 0, 0, 1, 0⟩
def ZLK_ISLAND_MODE : Fld := ⟨.ZLK_ISLAND, 0, 1, .RW, 0, 0, 1, 0⟩
def ZLK_ISLAND_ENC : Fld := ⟨.ZLK_ISLAND, 1, 3, .RW, 0, 0, 7, 0⟩
def ZLK_TXHEAD_MASK : Fld := ⟨.ZLK_TXHEAD, 0, 24, .RW, 0, 0, 16777215, 0⟩
def ZLK_POSSRC_PORT : Fld := ⟨.ZLK_POSSRC, 0, 3, .RW, 0, 0, 7, 0⟩
def ZLK_POSSRC_EN : Fld := ⟨.ZLK_POSSRC, 3, 1, .RW, 0, 0, 1, 0⟩
def ZLK_LOOPLAT_PRI : Fld := ⟨.ZLK_LOOPLAT, 0, 16, .RO, 0, 0, 65535, 0⟩
def ZLK_LOOPLAT_REV : Fld := ⟨.ZLK_LOOPLAT, 16, 16, .RO, 0, 0, 65535, 0⟩
def ZLK_OFSP_OFS : Fld := ⟨.ZLK_OFSP, 0, 20, .RO, 0, 0, 1048575, 0⟩
def ZLK_OFSR_OFS : Fld := ⟨.ZLK_OFSR, 0, 20, .RO, 0, 0, 1048575, 0⟩
def ZLK_ASYM_PRI : Fld := ⟨.ZLK_ASYM, 0, 8, .RW, 0, 0, 255, 0⟩
def ZLK_ASYM_REV : Fld := ⟨.ZLK_ASYM, 8, 8, .RW, 0, 0, 255, 0⟩
def ZLK_ALIVE_MASK : Fld := ⟨.ZLK_ALIVE, 0, 32, .RO, 0, 0, 4294967295, 0⟩
def ZLK_LOCKMASK_MASK : Fld := ⟨.ZLK_LOCKMASK, 0, 32, .RO, 0, 0, 4294967295, 0⟩
def ZLK_RPOS_POS : Fld := ⟨.ZLK_RPOS, 0, 32, .RO, 0, 0, 4294967295, 0⟩
def ZLK_RPOSH_POSH : Fld := ⟨.ZLK_RPOSH, 0, 32, .RO, 0, 0, 4294967295, 0⟩
def ZLK_TBERR_ERR : Fld := ⟨.ZLK_TBERR, 0, 16, .RO, 0, 0, 65535, 0⟩
def ZLK_ERRCNT_HDR : Fld := ⟨.ZLK_ERRCNT, 0, 16, .RW, 0, 0, 65535, 0⟩
def ZLK_ERRCNT_SLOT : Fld := ⟨.ZLK_ERRCNT, 16, 16, .RW, 0, 0, 65535, 0⟩
def ZLK_LINECNT_LOST : Fld := ⟨.ZLK_LINECNT, 0, 16, .RW, 0, 0, 65535, 0⟩
def ZLK_LINECNT_LATE : Fld := ⟨.ZLK_LINECNT, 16, 16, .RW, 0, 0, 65535, 0⟩
def ZLK_BRKCNT_TAKEOVER : Fld := ⟨.ZLK_BRKCNT, 0, 16, .RW, 0, 0, 65535, 0⟩
def ZLK_BRKCNT_ISLAND : Fld := ⟨.ZLK_BRKCNT, 16, 16, .RW, 0, 0, 65535, 0⟩
def ZLK_STARTTMO_TMO : Fld := ⟨.ZLK_STARTTMO, 0, 24, .RW, 100000, 1000, 16777215, 1000⟩
def AFE_CH_EN : Fld := ⟨.AFE_CH, 0, 1, .RW, 0, 0, 1, 0⟩
def AFE_CH_INMODE : Fld := ⟨.AFE_CH, 1, 1, .RW, 0, 0, 1, 0⟩
def AFE_CH_TERM : Fld := ⟨.AFE_CH, 2, 3, .RW, 0, 0, 3, 0⟩
def AFE_CH_SAMP : Fld := ⟨.AFE_CH, 5, 1, .RW, 0, 0, 1, 0⟩
def AFE_CH_POL : Fld := ⟨.AFE_CH, 6, 1, .RW, 0, 0, 1, 0⟩
def AFE_CH_TRNG : Fld := ⟨.AFE_CH, 7, 1, .RW, 0, 0, 1, 0⟩
def AFE_CH_TRIMEN : Fld := ⟨.AFE_CH, 8, 1, .RW, 0, 0, 1, 0⟩
def AFE_CH_CLPMODE : Fld := ⟨.AFE_CH, 9, 2, .RW, 0, 0, 2, 0⟩
def AFE_CH_FILT : Fld := ⟨.AFE_CH, 11, 2, .RW, 1, 0, 3, 0⟩
def AFE_CH_SKEW : Fld := ⟨.AFE_CH, 13, 4, .RW, 0, 0, 15, 0⟩
def AFE_STAT_CLPRAIL : Fld := ⟨.AFE_STAT, 0, 1, .RO, 0, 0, 1, 0⟩
def AFE_STAT_OVRIN : Fld := ⟨.AFE_STAT, 8, 1, .W1C, 0, 0, 1, 0⟩
def AFE_STAT_OVRTRIM : Fld := ⟨.AFE_STAT, 9, 1, .W1C, 0, 0, 1, 0⟩
def AFE_STAT_OVRCODE : Fld := ⟨.AFE_STAT, 10, 1, .W1C, 0, 0, 1, 0⟩
def AFE_STAT_CLPWINERR : Fld := ⟨.AFE_STAT, 11, 1, .W1C, 0, 0, 1, 0⟩
def AFE_STAT_CLPSAT : Fld := ⟨.AFE_STAT, 12, 1, .W1C, 0, 0, 1, 0⟩
def AFE_PGA_GAIN : Fld := ⟨.AFE_PGA, 0, 8, .RW, 0, 0, 208, 0⟩
def AFE_CLP_VAL : Fld := ⟨.AFE_CLP, 0, 10, .RW, 0, 0, 1023, 0⟩
def AFE_CLPWIN_FIRST : Fld := ⟨.AFE_CLPWIN, 0, 14, .RW, 0, 0, 16383, 0⟩
def AFE_CLPWIN_CNT : Fld := ⟨.AFE_CLPWIN, 16, 3, .RW, 3, 0, 6, 0⟩
def AFE_CLPWIN_STEP : Fld := ⟨.AFE_CLPWIN, 24, 4, .RW, 4, 0, 15, 0⟩
def AFE_CLPTGT_TGT : Fld := ⟨.AFE_CLPTGT, 0, 14, .RW, 512, 0, 16383, 0⟩
def AFE_OVRCNT_PIX : Fld := ⟨.AFE_OVRCNT, 0, 16, .RW, 0, 0, 65535, 0⟩
def AFE_OVRCNT_LINES : Fld := ⟨.AFE_OVRCNT, 16, 16, .RW, 0, 0, 65535, 0⟩
def AFE_LEGCAL_OFS : Fld := ⟨.AFE_LEGCAL, 0, 10, .RO, 0, 0, 1023, 0⟩
def AFE_LEGCAL_GAIN : Fld := ⟨.AFE_LEGCAL, 16, 10, .RO, 0, 0, 1023, 0⟩
def AFE_HTIM_HLEAD : Fld := ⟨.AFE_HTIM, 0, 8, .RW, 16, 2, 255, 2⟩
def AFE_HTIM_RADV : Fld := ⟨.AFE_HTIM, 8, 6, .RW, 16, 0, 63, 0⟩
def AFE_HNPIX_NPIX : Fld := ⟨.AFE_HNPIX, 0, 14, .RW, 1024, 1, 8192, 1⟩
def AFE_HSTAT_PHCHG : Fld := ⟨.AFE_HSTAT, 0, 1, .W1C, 0, 0, 1, 0⟩
def AFE_HSTAT_GRID : Fld := ⟨.AFE_HSTAT, 1, 1, .RO, 0, 0, 1, 0⟩
def AFE_SCANCTRL_CH : Fld := ⟨.AFE_SCANCTRL, 0, 7, .RW, 0, 0, 95, 0⟩
def AFE_SCANCTRL_PIX : Fld := ⟨.AFE_SCANCTRL, 8, 14, .RW, 0, 0, 16383, 0⟩
def AFE_SCANCTRL_START : Fld := ⟨.AFE_SCANCTRL, 24, 1, .WO, 0, 0, 1, 0⟩
def AFE_SCANCTRL_STOP : Fld := ⟨.AFE_SCANCTRL, 25, 1, .WO, 0, 0, 1, 0⟩
def AFE_SCANCTRL_BUSY : Fld := ⟨.AFE_SCANCTRL, 26, 1, .RO, 0, 0, 1, 0⟩
def AFE_SCANCTRL_DONE : Fld := ⟨.AFE_SCANCTRL, 27, 1, .W1C, 0, 0, 1, 0⟩
def AFE_SCANCTRL_ABORT : Fld := ⟨.AFE_SCANCTRL, 28, 1, .W1C, 0, 0, 1, 0⟩
def AFE_SCANDATA_CODE : Fld := ⟨.AFE_SCANDATA, 0, 14, .RO, 0, 0, 16383, 0⟩
def AFE_SCANDATA_IDX : Fld := ⟨.AFE_SCANDATA, 16, 6, .RO, 0, 0, 63, 0⟩
def HCP_CTRL_EN : Fld := ⟨.HCP_CTRL, 0, 1, .RW, 0, 0, 1, 0⟩
def HCP_CTRL_HCKMODE : Fld := ⟨.HCP_CTRL, 1, 1, .RW, 0, 0, 1, 0⟩
def HCP_CTRL_HSPPOL : Fld := ⟨.HCP_CTRL, 2, 1, .RW, 0, 0, 1, 0⟩
def HCP_CTRL_HLEDPOL : Fld := ⟨.HCP_CTRL, 3, 1, .RW, 0, 0, 1, 0⟩
def HCP_CTRL_LEDMODE : Fld := ⟨.HCP_CTRL, 4, 2, .RW, 1, 0, 2, 0⟩
def HCP_HCKPH_ADV : Fld := ⟨.HCP_HCKPH, 0, 6, .RW, 0, 0, 63, 0⟩
def HCP_HCKPH_HIGH : Fld := ⟨.HCP_HCKPH, 8, 6, .RW, 32, 16, 48, 16⟩
def HCP_HCKPH_HSPDLY : Fld := ⟨.HCP_HCKPH, 16, 6, .RW, 0, 0, 63, 0⟩
def HCP_HCKPH_HSPW : Fld := ⟨.HCP_HCKPH, 24, 4, .RW, 1, 1, 15, 1⟩
def HCP_HCKFREQ_FREQ : Fld := ⟨.HCP_HCKFREQ, 0, 32, .RW, 279172874, 4294967, 558345748, 4294967⟩
def HCP_LEDDLY_DLY : Fld := ⟨.HCP_LEDDLY, 0, 20, .RW, 0, 0, 1048575, 0⟩
def HCP_LEDWID_WID : Fld := ⟨.HCP_LEDWID, 0, 20, .RW, 0, 0, 1048575, 0⟩
def HCP_LEDADV_ADV : Fld := ⟨.HCP_LEDADV, 0, 10, .RW, 0, 0, 1000, 0⟩
def HCP_CTRSET_C : Fld := ⟨.HCP_CTRSET, 0, 24, .RW, 0, 0, 16777215, 0⟩
def HCP_TSTAT_BUSY : Fld := ⟨.HCP_TSTAT, 0, 24, .RO, 0, 0, 16777215, 0⟩
def HCP_TSTAT_LEDON : Fld := ⟨.HCP_TSTAT, 24, 1, .RO, 0, 0, 1, 0⟩
def HCP_TSTAT_CLIP : Fld := ⟨.HCP_TSTAT, 25, 1, .W1C, 0, 0, 1, 0⟩
def CNV_SOFS_OFS : Fld := ⟨.CNV_SOFS, 0, 12, .RO, 0, 0, 4095, 0⟩
def CNV_SGAIN_GAIN : Fld := ⟨.CNV_SGAIN, 0, 16, .RO, 0, 0, 65535, 0⟩
def CNV_SAPT_APT : Fld := ⟨.CNV_SAPT, 0, 8, .RO, 0, 0, 255, 0⟩
def CNV_SQUAL_RESID : Fld := ⟨.CNV_SQUAL, 0, 16, .RO, 0, 0, 65535, 0⟩
def CNV_SQUAL_SPUR : Fld := ⟨.CNV_SQUAL, 16, 16, .RO, 0, 0, 65535, 0⟩
def CNV_SSTAT_ACTIVE : Fld := ⟨.CNV_SSTAT, 0, 1, .RO, 0, 0, 1, 0⟩
def CNV_SSTAT_COVERED : Fld := ⟨.CNV_SSTAT, 1, 1, .RO, 0, 0, 1, 0⟩
def CNV_SSTAT_FAILED : Fld := ⟨.CNV_SSTAT, 2, 1, .RO, 0, 0, 1, 0⟩
def CNV_DBL_PAIR : Fld := ⟨.CNV_DBL, 0, 6, .RW, 0, 0, 63, 0⟩
def CNV_MIT_STATE : Fld := ⟨.CNV_MIT, 0, 3, .RO, 0, 0, 7, 0⟩
def CNV_MIT_SLICE : Fld := ⟨.CNV_MIT, 3, 4, .RO, 15, 0, 15, 0⟩
def CNV_MIT_LINES : Fld := ⟨.CNV_MIT, 8, 16, .RO, 0, 0, 65535, 0⟩
def CNV_MITCNT_PASS : Fld := ⟨.CNV_MITCNT, 0, 8, .RO, 0, 0, 255, 0⟩
def CNV_MITCNT_MEAN : Fld := ⟨.CNV_MITCNT, 8, 12, .RO, 0, 0, 4095, 0⟩
def CNV_MITCNT_RMS : Fld := ⟨.CNV_MITCNT, 20, 12, .RO, 0, 0, 4095, 0⟩
def CNV_MITCFG0_EQMEAN : Fld := ⟨.CNV_MITCFG0, 0, 8, .RW, 2, 0, 255, 0⟩
def CNV_MITCFG0_EQRMS : Fld := ⟨.CNV_MITCFG0, 8, 8, .RW, 24, 0, 255, 0⟩
def CNV_MITCFG0_EQPK : Fld := ⟨.CNV_MITCFG0, 16, 8, .RW, 8, 1, 255, 1⟩
def CNV_MITCFG1_EQLINES : Fld := ⟨.CNV_MITCFG1, 0, 8, .RW, 8, 2, 255, 2⟩
def CNV_MITCFG1_IDLE : Fld := ⟨.CNV_MITCFG1, 16, 14, .RW, 100, 20, 10000, 20⟩
def PCU_HCFG_BYPASS : Fld := ⟨.PCU_HCFG, 0, 1, .RW, 0, 0, 1, 0⟩
def PCU_HCFG_BIN : Fld := ⟨.PCU_HCFG, 1, 2, .RW, 0, 0, 2, 0⟩
def PCU_HCFG_STEN : Fld := ⟨.PCU_HCFG, 3, 1, .RW, 1, 0, 1, 0⟩
def PCU_HCFG_STREC : Fld := ⟨.PCU_HCFG, 4, 1, .RW, 0, 0, 1, 0⟩
def PCU_ROUTE_REGION : Fld := ⟨.PCU_ROUTE, 0, 4, .RW, 0, 0, 15, 0⟩
def PCU_ROUTE_EN : Fld := ⟨.PCU_ROUTE, 4, 1, .RW, 0, 0, 1, 0⟩
def PCU_ROUTE_DATA : Fld := ⟨.PCU_ROUTE, 5, 2, .RW, 0, 0, 2, 0⟩
def PCU_LROUTE_LANE : Fld := ⟨.PCU_LROUTE, 0, 4, .RW, 0, 0, 11, 0⟩
def PCU_LROUTE_EN : Fld := ⟨.PCU_LROUTE, 4, 1, .RW, 0, 0, 1, 0⟩
def PCU_LROUTE_DATA : Fld := ⟨.PCU_LROUTE, 5, 2, .RW, 0, 0, 2, 0⟩
def PCU_LROUTE_STATS : Fld := ⟨.PCU_LROUTE, 7, 1, .RW, 0, 0, 1, 0⟩
def PCU_STWIN_FIRST : Fld := ⟨.PCU_STWIN, 0, 15, .RW, 0, 0, 32767, 0⟩
def PCU_STWIN_LAST : Fld := ⟨.PCU_STWIN, 16, 15, .RW, 32767, 0, 32767, 0⟩
def PCU_STLINE_LINE : Fld := ⟨.PCU_STLINE, 0, 32, .RO, 0, 0, 4294967295, 0⟩
def PCU_STMIN_MIN : Fld := ⟨.PCU_STMIN, 0, 16, .RO, 65535, 0, 65535, 0⟩
def PCU_STMAX_MAX : Fld := ⟨.PCU_STMAX, 0, 16, .RO, 0, 0, 65535, 0⟩
def PCU_STSUM_SUM : Fld := ⟨.PCU_STSUM, 0, 32, .RO, 0, 0, 4294967295, 0⟩
def PCU_STCNT_CNT : Fld := ⟨.PCU_STCNT, 0, 16, .RO, 0, 0, 65535, 0⟩
def PCU_LWCTRL_EN : Fld := ⟨.PCU_LWCTRL, 0, 1, .RW, 0, 0, 1, 0⟩
def PCU_LWCTRL_BANK : Fld := ⟨.PCU_LWCTRL, 1, 3, .RW, 0, 0, 7, 0⟩
def PCU_LWCTRL_DATA : Fld := ⟨.PCU_LWCTRL, 4, 2, .RW, 0, 0, 2, 0⟩
def PCU_LWCTRL_DEPTH : Fld := ⟨.PCU_LWCTRL, 8, 14, .RW, 16, 1, 16383, 1⟩
def PCU_LWBASE_BASE : Fld := ⟨.PCU_LWBASE, 6, 14, .RW, 0, 0, 16383, 0⟩
def PCU_LWIDX_SLOT : Fld := ⟨.PCU_LWIDX, 0, 14, .RO, 0, 0, 16383, 0⟩
def PCU_LWIDX_LINE : Fld := ⟨.PCU_LWIDX, 14, 18, .RO, 0, 0, 262143, 0⟩
def PCU_WIN_BASE : Fld := ⟨.PCU_WIN, 0, 14, .RW, 0, 0, 16383, 0⟩
def PCU_WIN_LEN : Fld := ⟨.PCU_WIN, 16, 14, .RW, 1024, 0, 8192, 0⟩
def PCU_GSTAT_STAGED : Fld := ⟨.PCU_GSTAT, 0, 9, .RO, 0, 0, 511, 0⟩
def PCU_GSTAT_STALLS : Fld := ⟨.PCU_GSTAT, 16, 16, .RW, 0, 0, 65535, 0⟩
def PCU_ECCCNT_SBE : Fld := ⟨.PCU_ECCCNT, 0, 16, .RW, 0, 0, 65535, 0⟩
def PCU_ECCCNT_DBE : Fld := ⟨.PCU_ECCCNT, 16, 16, .RW, 0, 0, 65535, 0⟩
def PCU_DROPCNT_STREAM : Fld := ⟨.PCU_DROPCNT, 0, 16, .RW, 0, 0, 65535, 0⟩
def PCU_DROPCNT_WRITER : Fld := ⟨.PCU_DROPCNT, 16, 16, .RW, 0, 0, 65535, 0⟩
def PCU_HSEL_HEAD : Fld := ⟨.PCU_HSEL, 0, 5, .RW, 0, 0, 23, 0⟩
def PCU_HSEL_BIN : Fld := ⟨.PCU_HSEL, 8, 8, .RW, 0, 0, 255, 0⟩
def PCU_HSEL_LATCH : Fld := ⟨.PCU_HSEL, 31, 1, .WO, 0, 0, 1, 0⟩
def PCU_HDATA_BINS : Fld := ⟨.PCU_HDATA, 0, 32, .RO, 0, 0, 4294967295, 0⟩
def PCU_TSYNC_HEADS : Fld := ⟨.PCU_TSYNC, 0, 24, .W1S, 0, 0, 16777215, 0⟩
def CAL_CTRL_TRIG : Fld := ⟨.CAL_CTRL, 0, 1, .RW, 1, 0, 1, 0⟩
def CAL_CTRL_SUSPEND : Fld := ⟨.CAL_CTRL, 1, 1, .RW, 0, 0, 1, 0⟩
def CAL_STAT_BUSY : Fld := ⟨.CAL_STAT, 0, 8, .RO, 0, 0, 255, 0⟩
def CAL_STAT_DUE : Fld := ⟨.CAL_STAT, 8, 8, .RO, 0, 0, 255, 0⟩
def CAL_STAT_STORING : Fld := ⟨.CAL_STAT, 16, 1, .RO, 0, 0, 1, 0⟩
def CAL_STAT_REFMOVED : Fld := ⟨.CAL_STAT, 17, 1, .W1C, 0, 0, 1, 0⟩
def CAL_STAT_STOREFAIL : Fld := ⟨.CAL_STAT, 18, 1, .W1C, 0, 0, 1, 0⟩
def CAL_STAT_NOSTORE : Fld := ⟨.CAL_STAT, 19, 1, .RO, 0, 0, 1, 0⟩
def CAL_STAT_SLEWING : Fld := ⟨.CAL_STAT, 20, 1, .RO, 0, 0, 1, 0⟩
def CAL_TRIG_DT_DT : Fld := ⟨.CAL_TRIG_DT, 0, 10, .RW, 64, 8, 1023, 8⟩
def CAL_SLEW_SL : Fld := ⟨.CAL_SLEW, 0, 8, .RW, 1, 0, 255, 0⟩
def CAL_CTX_WIN0_DT : Fld := ⟨.CAL_CTX_WIN0, 0, 10, .RW, 160, 0, 1023, 0⟩
def CAL_CTX_WIN0_DVANA : Fld := ⟨.CAL_CTX_WIN0, 16, 10, .RW, 50, 0, 1023, 0⟩
def CAL_CTX_WIN1_DACT : Fld := ⟨.CAL_CTX_WIN1, 0, 8, .RW, 64, 0, 255, 0⟩
def CAL_CTX_WIN1_DCH : Fld := ⟨.CAL_CTX_WIN1, 8, 8, .RW, 8, 0, 255, 0⟩
def CAL_CTX_WIN1_DCLK : Fld := ⟨.CAL_CTX_WIN1, 16, 8, .RW, 10, 0, 255, 0⟩
def CAL_CTX_WIN1_DRATE : Fld := ⟨.CAL_CTX_WIN1, 24, 8, .RW, 25, 0, 255, 0⟩
def CAL_DARK_MAX_MEAN : Fld := ⟨.CAL_DARK_MAX, 0, 14, .RW, 2048, 0, 16383, 0⟩
def CAL_DARK_MAX_SPREAD : Fld := ⟨.CAL_DARK_MAX, 16, 14, .RW, 1024, 0, 16383, 0⟩
def CAL_FLAT_LIM_SAT : Fld := ⟨.CAL_FLAT_LIM, 0, 14, .RW, 16000, 0, 16383, 0⟩
def CAL_FLAT_LIM_MIN : Fld := ⟨.CAL_FLAT_LIM, 16, 8, .RW, 32, 1, 255, 1⟩
def CAL_FLAT_LIM_UNIF : Fld := ⟨.CAL_FLAT_LIM, 24, 8, .RW, 40, 1, 100, 1⟩
def CAL_DARKCFG_LINES : Fld := ⟨.CAL_DARKCFG, 0, 10, .RW, 256, 16, 1023, 16⟩
def CAL_DARKCFG_LIGHT : Fld := ⟨.CAL_DARKCFG, 10, 1, .RW, 0, 0, 1, 0⟩
def CAL_DARKCFG_PASSES : Fld := ⟨.CAL_DARKCFG, 11, 1, .RW, 0, 0, 1, 0⟩
def CAL_DARKCFG_TRIMLEARN : Fld := ⟨.CAL_DARKCFG, 12, 1, .RW, 1, 0, 1, 0⟩
def CAL_DARKCFG_TOFS : Fld := ⟨.CAL_DARKCFG, 16, 8, .RW, 8, 0, 255, 0⟩
def CAL_DARKCFG_BLACK : Fld := ⟨.CAL_DARKCFG, 24, 8, .RW, 0, 0, 255, 0⟩
def CAL_FLATCFG_LINES : Fld := ⟨.CAL_FLATCFG, 0, 10, .RW, 256, 16, 1023, 16⟩
def CAL_FLATCFG_MODE : Fld := ⟨.CAL_FLATCFG, 10, 1, .RW, 0, 0, 1, 0⟩
def CAL_FLATCFG_AUTODEF : Fld := ⟨.CAL_FLATCFG, 11, 1, .RW, 0, 0, 1, 0⟩
def CAL_FLATCFG_OUTX : Fld := ⟨.CAL_FLATCFG, 12, 4, .RW, 6, 0, 15, 0⟩
def CAL_FLATCFG_TGT : Fld := ⟨.CAL_FLATCFG, 16, 16, .RW, 32768, 0, 65535, 0⟩
def CAL_AFECFG_BLKTOL : Fld := ⟨.CAL_AFECFG, 0, 8, .RW, 64, 1, 255, 1⟩
def CAL_STORECFG_AUTO : Fld := ⟨.CAL_STORECFG, 0, 1, .RW, 1, 0, 1, 0⟩
def CAL_STORECFG_MININT : Fld := ⟨.CAL_STORECFG, 8, 8, .RW, 60, 1, 255, 1⟩
def CAL_STORECFG_WEARMAX : Fld := ⟨.CAL_STORECFG, 16, 16, .RWL, 100, 1, 1000, 1⟩
def CAL_STOREBASE_BASE : Fld := ⟨.CAL_STOREBASE, 16, 16, .RW, 64, 0, 65535, 0⟩
def CAL_STORESTAT_PAIR : Fld := ⟨.CAL_STORESTAT, 0, 4, .RO, 15, 0, 15, 0⟩
def CAL_STORESTAT_NEXT : Fld := ⟨.CAL_STORESTAT, 4, 4, .RO, 15, 0, 15, 0⟩
def CAL_STORESTAT_VALID : Fld := ⟨.CAL_STORESTAT, 8, 8, .RO, 0, 0, 255, 0⟩
def CAL_STORESTAT_RETIRED : Fld := ⟨.CAL_STORESTAT, 16, 8, .RO, 0, 0, 255, 0⟩
def CAL_STORESEQ_SEQ : Fld := ⟨.CAL_STORESEQ, 0, 32, .RO, 0, 0, 4294967295, 0⟩
def CAL_STALEH_HEAD : Fld := ⟨.CAL_STALEH, 0, 24, .RO, 0, 0, 16777215, 0⟩
def CAL_STALEG_SLICE : Fld := ⟨.CAL_STALEG, 0, 8, .RO, 0, 0, 255, 0⟩
def CAL_STALEG_REF : Fld := ⟨.CAL_STALEG, 8, 1, .RO, 0, 0, 1, 0⟩
def CAL_STALEG_CMP : Fld := ⟨.CAL_STALEG, 9, 1, .RO, 0, 0, 1, 0⟩
def CAL_STALEG_MCV : Fld := ⟨.CAL_STALEG, 10, 1, .RO, 0, 0, 1, 0⟩
def CAL_STALEG_CAC : Fld := ⟨.CAL_STALEG, 11, 1, .RO, 0, 0, 1, 0⟩
def CAL_PSEL_PART : Fld := ⟨.CAL_PSEL, 0, 8, .RW, 0, 0, 255, 0⟩
def CAL_PSEL_HEAD : Fld := ⟨.CAL_PSEL, 8, 5, .RW, 0, 0, 23, 0⟩
def CAL_PINFO_DIST : Fld := ⟨.CAL_PINFO, 0, 16, .RO, 0, 0, 65535, 0⟩
def CAL_PINFO_PSTATE : Fld := ⟨.CAL_PINFO, 16, 3, .RO, 0, 0, 7, 0⟩
def CAL_PAGE_AGE : Fld := ⟨.CAL_PAGE, 0, 32, .RO, 0, 0, 4294967295, 0⟩
def CAL_PCTX_T0 : Fld := ⟨.CAL_PCTX, 0, 16, .RO, 0, 0, 65535, 0⟩
def CAL_PCTX_T1 : Fld := ⟨.CAL_PCTX, 16, 16, .RO, 0, 0, 65535, 0⟩
def CAL_PCTX4_VANA : Fld := ⟨.CAL_PCTX4, 0, 16, .RO, 0, 0, 65535, 0⟩
def CAL_PCTX4_ACT : Fld := ⟨.CAL_PCTX4, 16, 8, .RO, 0, 0, 255, 0⟩
def CAL_PCTX4_CH : Fld := ⟨.CAL_PCTX4, 24, 7, .RO, 0, 0, 127, 0⟩
def CAL_PCTX5_FREQ : Fld := ⟨.CAL_PCTX5, 0, 32, .RO, 0, 0, 4294967295, 0⟩
def CAL_PCTX6_RATE : Fld := ⟨.CAL_PCTX6, 0, 32, .RO, 0, 0, 4294967295, 0⟩
def CAL_LIVE_ACT : Fld := ⟨.CAL_LIVE, 0, 8, .RO, 0, 0, 255, 0⟩
def CAL_LIVE_CH : Fld := ⟨.CAL_LIVE, 8, 7, .RO, 0, 0, 127, 0⟩
def CAL_LIVE_VANA : Fld := ⟨.CAL_LIVE, 16, 16, .RO, 0, 0, 65535, 0⟩
def CAL_RSTAT_HANDLE : Fld := ⟨.CAL_RSTAT, 0, 12, .RO, 0, 0, 4095, 0⟩
def CAL_RSTAT_STATUS : Fld := ⟨.CAL_RSTAT, 12, 8, .RO, 0, 0, 255, 0⟩
def CAL_RSTAT_ITEM : Fld := ⟨.CAL_RSTAT, 20, 8, .RO, 0, 0, 255, 0⟩
def CAL_RSTAT_STAT : Fld := ⟨.CAL_RSTAT, 28, 4, .RO, 0, 0, 15, 0⟩
def CAL_RVAL_VAL : Fld := ⟨.CAL_RVAL, 0, 32, .RO, 0, 0, 4294967295, 0⟩
def CAL_CHQ_TRES : Fld := ⟨.CAL_CHQ, 0, 16, .RO, 0, 0, 65535, 0⟩
def CAL_CHQ_FRES : Fld := ⟨.CAL_CHQ, 16, 16, .RO, 0, 0, 65535, 0⟩
def CAC_CFG_FUNC : Fld := ⟨.CAC_CFG, 0, 4, .RW, 0, 0, 8, 0⟩
def CAC_CFG_REFSEL : Fld := ⟨.CAC_CFG, 4, 1, .RW, 0, 0, 1, 0⟩
def CAC_CFG_PKPOL : Fld := ⟨.CAC_CFG, 5, 1, .RW, 0, 0, 1, 0⟩
def CAC_CFG_RSTSRC : Fld := ⟨.CAC_CFG, 6, 2, .RW, 0, 0, 2, 0⟩
def CAC_CFG_RSTSEL : Fld := ⟨.CAC_CFG, 8, 6, .RW, 0, 0, 63, 0⟩
def CAC_CFG_RST : Fld := ⟨.CAC_CFG, 15, 1, .WO, 0, 0, 1, 0⟩
def CAC_NET_RA : Fld := ⟨.CAC_NET, 0, 6, .RW, 63, 0, 47, 63⟩
def CAC_NET_RB : Fld := ⟨.CAC_NET, 8, 6, .RW, 63, 0, 47, 63⟩
def CAC_NET_CA : Fld := ⟨.CAC_NET, 16, 5, .RW, 31, 0, 31, 0⟩
def CAC_NET_CB : Fld := ⟨.CAC_NET, 24, 5, .RW, 31, 0, 31, 0⟩
def CAC_SEL_PBUS : Fld := ⟨.CAC_SEL, 0, 7, .RW, 127, 0, 63, 127⟩
def CAC_SEL_NBUS : Fld := ⟨.CAC_SEL, 8, 7, .RW, 127, 0, 63, 127⟩
def CAC_SEL_OBUS : Fld := ⟨.CAC_SEL, 16, 7, .RW, 127, 0, 63, 127⟩
def CAC_STAT_OFS : Fld := ⟨.CAC_STAT, 0, 12, .RO, 0, 0, 4095, 0⟩
def CAC_STAT_ILIM : Fld := ⟨.CAC_STAT, 16, 1, .W1C, 0, 0, 1, 0⟩
def CAC_STAT_RAIL : Fld := ⟨.CAC_STAT, 17, 1, .W1C, 0, 0, 1, 0⟩
def ASW_AX_BUS : Fld := ⟨.ASW_AX, 0, 7, .RW, 127, 0, 63, 127⟩
def ASW_AX_DIR : Fld := ⟨.ASW_AX, 8, 1, .RW, 0, 0, 1, 0⟩
def ASW_MTAP_BUS : Fld := ⟨.ASW_MTAP, 0, 7, .RW, 127, 0, 63, 127⟩
def ASW_TRIP0_BUS : Fld := ⟨.ASW_TRIP0, 0, 32, .RO, 0, 0, 4294967295, 0⟩
def ASW_TRIP1_BUS : Fld := ⟨.ASW_TRIP1, 0, 32, .RO, 0, 0, 4294967295, 0⟩
def ASW_BREL0_BUS : Fld := ⟨.ASW_BREL0, 0, 32, .WO, 0, 0, 4294967295, 0⟩
def ASW_BREL1_BUS : Fld := ⟨.ASW_BREL1, 0, 32, .WO, 0, 0, 4294967295, 0⟩
def ASW_CONFLICT_BUS : Fld := ⟨.ASW_CONFLICT, 0, 6, .RO, 0, 0, 63, 0⟩
def ASW_CONFLICT_OWNER : Fld := ⟨.ASW_CONFLICT, 8, 6, .RO, 0, 0, 63, 0⟩
def ASW_CONFLICT_OTHER : Fld := ⟨.ASW_CONFLICT, 16, 6, .RO, 0, 0, 63, 0⟩
def ASW_CONFLICT_CAUSE : Fld := ⟨.ASW_CONFLICT, 24, 2, .RO, 0, 0, 3, 0⟩
def ASW_CNT_REFUSED : Fld := ⟨.ASW_CNT, 0, 16, .RW, 0, 0, 65535, 0⟩
def ASW_CNT_TRIPS : Fld := ⟨.ASW_CNT, 16, 16, .RW, 0, 0, 65535, 0⟩
def ASW_BSRC_SRC : Fld := ⟨.ASW_BSRC, 0, 7, .RO, 127, 0, 127, 0⟩
def CMP_CFG_EN : Fld := ⟨.CMP_CFG, 0, 1, .RW, 0, 0, 1, 0⟩
def CMP_CFG_INP : Fld := ⟨.CMP_CFG, 1, 7, .RW, 127, 0, 71, 127⟩
def CMP_CFG_INN : Fld := ⟨.CMP_CFG, 8, 7, .RW, 127, 0, 63, 127⟩
def CMP_CFG_POL : Fld := ⟨.CMP_CFG, 15, 1, .RW, 0, 0, 1, 0⟩
def CMP_CFG_TSRC : Fld := ⟨.CMP_CFG, 16, 2, .RW, 0, 0, 1, 0⟩
def CMP_CFG_THEAD : Fld := ⟨.CMP_CFG, 18, 5, .RW, 0, 0, 23, 0⟩
def CMP_CFG_LMODE : Fld := ⟨.CMP_CFG, 23, 2, .RW, 0, 0, 2, 0⟩
def CMP_CFG_STARTLVL : Fld := ⟨.CMP_CFG, 25, 1, .RW, 0, 0, 1, 0⟩
def CMP_CFG_WAKE : Fld := ⟨.CMP_CFG, 26, 1, .RW, 0, 0, 1, 0⟩
def CMP_CFG_EVT : Fld := ⟨.CMP_CFG, 28, 3, .RW, 0, 0, 4, 0⟩
def CMP_TICK_TICK : Fld := ⟨.CMP_TICK, 0, 32, .RW, 4294967, 0, 4294967295, 0⟩
def CMP_THR_TH : Fld := ⟨.CMP_THR, 0, 10, .RW, 512, 0, 1023, 0⟩
def CMP_THR_HYS : Fld := ⟨.CMP_THR, 16, 4, .RW, 0, 0, 15, 0⟩
def CMP_FILT_CLASS : Fld := ⟨.CMP_FILT, 0, 2, .RW, 1, 0, 2, 0⟩
def CMP_FILT_MAJ : Fld := ⟨.CMP_FILT, 2, 1, .RW, 0, 0, 1, 0⟩
def CMP_FILT_BMODE : Fld := ⟨.CMP_FILT, 4, 3, .RW, 0, 0, 3, 0⟩
def CMP_FILT_BLK : Fld := ⟨.CMP_FILT, 8, 10, .RW, 0, 0, 1023, 0⟩
def CMP_FILT_EVMIN : Fld := ⟨.CMP_FILT, 24, 8, .RW, 0, 0, 255, 0⟩
def CMP_STAT_OUT : Fld := ⟨.CMP_STAT, 0, 1, .RO, 0, 0, 1, 0⟩
def CMP_STAT_DEC : Fld := ⟨.CMP_STAT, 1, 1, .RO, 0, 0, 1, 0⟩
def CMP_STAT_SETTLED : Fld := ⟨.CMP_STAT, 2, 1, .RO, 0, 0, 1, 0⟩
def CMP_STAT_HELD : Fld := ⟨.CMP_STAT, 3, 1, .RO, 0, 0, 1, 0⟩
def CMP_STAT_CLR : Fld := ⟨.CMP_STAT, 8, 1, .WO, 0, 0, 1, 0⟩
def CMP_STAT_EDGESEEN : Fld := ⟨.CMP_STAT, 9, 1, .W1C, 0, 0, 1, 0⟩
def CMP_EVCNT_EDGES : Fld := ⟨.CMP_EVCNT, 0, 16, .RW, 0, 0, 65535, 0⟩
def CMP_EVCNT_SUPP : Fld := ⟨.CMP_EVCNT, 16, 16, .RW, 0, 0, 65535, 0⟩
def CMP_WIN_WEN : Fld := ⟨.CMP_WIN, 0, 24, .RW, 0, 0, 16777215, 0⟩
def CMP_WSTAT0_W : Fld := ⟨.CMP_WSTAT0, 0, 32, .RO, 4294967295, 0, 4294967295, 0⟩
def CMP_WSTAT1_W : Fld := ⟨.CMP_WSTAT1, 0, 16, .RO, 65535, 0, 65535, 0⟩
def CMP_WAKETICK_PER : Fld := ⟨.CMP_WAKETICK, 0, 10, .RW, 100, 1, 1000, 1⟩
def CMP_OUT0_OUT : Fld := ⟨.CMP_OUT0, 0, 32, .RO, 0, 0, 4294967295, 0⟩
def CMP_OUT1_OUT : Fld := ⟨.CMP_OUT1, 0, 16, .RO, 0, 0, 65535, 0⟩
def MCV_CTRL_EN : Fld := ⟨.MCV_CTRL, 0, 1, .RW, 0, 0, 1, 0⟩
def MCV_CTRL_IEN : Fld := ⟨.MCV_CTRL, 1, 1, .RW, 0, 0, 1, 0⟩
def MCV_CTRL_GO : Fld := ⟨.MCV_CTRL, 8, 1, .WO, 0, 0, 1, 0⟩
def MCV_CTRL_IGO : Fld := ⟨.MCV_CTRL, 9, 1, .WO, 0, 0, 1, 0⟩
def MCV_CTRL_SCANEVT : Fld := ⟨.MCV_CTRL, 16, 1, .RW, 0, 0, 1, 0⟩
def MCV_CTRL_WMEVT : Fld := ⟨.MCV_CTRL, 17, 1, .RW, 0, 0, 1, 0⟩
def MCV_CFG_ACQ : Fld := ⟨.MCV_CFG, 0, 8, .RW, 14, 14, 255, 14⟩
def MCV_CFG_IDLE : Fld := ⟨.MCV_CFG, 8, 8, .RW, 0, 0, 255, 0⟩
def MCV_CFG_OVRMODE : Fld := ⟨.MCV_CFG, 16, 1, .RW, 0, 0, 1, 0⟩
def MCV_MASK0_MASK : Fld := ⟨.MCV_MASK0, 0, 32, .RW, 0, 0, 4294967295, 0⟩
def MCV_MASK1_MASK : Fld := ⟨.MCV_MASK1, 0, 32, .RW, 0, 0, 4294967295, 0⟩
def MCV_TRIG_SRC : Fld := ⟨.MCV_TRIG, 0, 3, .RW, 0, 0, 4, 0⟩
def MCV_TRIG_SEL : Fld := ⟨.MCV_TRIG, 3, 6, .RW, 0, 0, 63, 0⟩
def MCV_TRIG_DLY : Fld := ⟨.MCV_TRIG, 16, 16, .RW, 0, 0, 65535, 0⟩
def MCV_ITRIG_SRC : Fld := ⟨.MCV_ITRIG, 0, 3, .RW, 0, 0, 3, 0⟩
def MCV_ITRIG_SEL : Fld := ⟨.MCV_ITRIG, 3, 6, .RW, 0, 0, 63, 0⟩
def MCV_ITRIG_DLY : Fld := ⟨.MCV_ITRIG, 16, 16, .RW, 0, 0, 65535, 0⟩
/-- `MCV.INJ.CHi` -/
def MCV_INJ_CH (i : Nat) : Fld := ⟨.MCV_INJ, 8 * i + 0, 6, .RW, 0, 0, 63, 0⟩
/-- `MCV.INJ.ENi` -/
def MCV_INJ_EN (i : Nat) : Fld := ⟨.MCV_INJ, 8 * i + 7, 1, .RW, 0, 0, 1, 0⟩
def MCV_BUF_BANK : Fld := ⟨.MCV_BUF, 0, 3, .RW, 0, 0, 7, 0⟩
def MCV_BUF_SIZE : Fld := ⟨.MCV_BUF, 8, 18, .RW, 1024, 16, 131072, 16⟩
def MCV_BUFBASE_BASE : Fld := ⟨.MCV_BUFBASE, 3, 17, .RW, 0, 0, 131071, 0⟩
def MCV_WIDX_WIDX : Fld := ⟨.MCV_WIDX, 0, 17, .RO, 0, 0, 131071, 0⟩
def MCV_RIDX_RIDX : Fld := ⟨.MCV_RIDX, 0, 17, .RW, 0, 0, 131071, 0⟩
def MCV_STAT_SCANBUSY : Fld := ⟨.MCV_STAT, 0, 1, .RO, 0, 0, 1, 0⟩
def MCV_STAT_INJBUSY : Fld := ⟨.MCV_STAT, 1, 1, .RO, 0, 0, 1, 0⟩
def MCV_STAT_INJPEND : Fld := ⟨.MCV_STAT, 2, 1, .RO, 0, 0, 1, 0⟩
def MCV_STAT_PWR : Fld := ⟨.MCV_STAT, 3, 1, .RO, 0, 0, 1, 0⟩
def MCV_STAT_CALBUSY : Fld := ⟨.MCV_STAT, 4, 1, .RO, 0, 0, 1, 0⟩
def MCV_STAT_FULL : Fld := ⟨.MCV_STAT, 5, 1, .W1C, 0, 0, 1, 0⟩
def MCV_STAT_DMAERR : Fld := ⟨.MCV_STAT, 6, 1, .W1C, 0, 0, 1, 0⟩
def MCV_STAT_WM : Fld := ⟨.MCV_STAT, 7, 1, .RO, 0, 0, 1, 0⟩
def MCV_STAT_SCANSEQ : Fld := ⟨.MCV_STAT, 8, 8, .RO, 0, 0, 255, 0⟩
def MCV_STAT_INJSEQ : Fld := ⟨.MCV_STAT, 16, 8, .RO, 0, 0, 255, 0⟩
def MCV_STAT_LAPS : Fld := ⟨.MCV_STAT, 24, 8, .RO, 0, 0, 255, 0⟩
def MCV_TRIGOVR_REG : Fld := ⟨.MCV_TRIGOVR, 0, 16, .RW, 0, 0, 65535, 0⟩
def MCV_TRIGOVR_INJ : Fld := ⟨.MCV_TRIGOVR, 16, 16, .RW, 0, 0, 65535, 0⟩
def MCV_DROPS_FULL : Fld := ⟨.MCV_DROPS, 0, 16, .RW, 0, 0, 65535, 0⟩
def MCV_DROPS_DMA : Fld := ⟨.MCV_DROPS, 16, 16, .RW, 0, 0, 65535, 0⟩
def MCV_INJRES0_R0 : Fld := ⟨.MCV_INJRES0, 0, 16, .RO, 0, 0, 65535, 0⟩
def MCV_INJRES0_R1 : Fld := ⟨.MCV_INJRES0, 16, 16, .RO, 0, 0, 65535, 0⟩
def MCV_INJRES1_R2 : Fld := ⟨.MCV_INJRES1, 0, 16, .RO, 0, 0, 65535, 0⟩
def MCV_INJRES1_R3 : Fld := ⟨.MCV_INJRES1, 16, 16, .RO, 0, 0, 65535, 0⟩
def MCV_WMARK_WMARK : Fld := ⟨.MCV_WMARK, 0, 17, .RW, 512, 0, 131071, 0⟩
def MCV_SYS_CONV : Fld := ⟨.MCV_SYS, 0, 1, .RW, 0, 0, 1, 0⟩
def FAB_RCLK_FSEL : Fld := ⟨.FAB_RCLK, 0, 3, .RO, 0, 0, 7, 0⟩
/-- `FAB.SIMAP.HEADi` -/
def FAB_SIMAP_HEAD (i : Nat) : Fld := ⟨.FAB_SIMAP, 8 * i + 0, 5, .RW, 0, 0, 23, 0⟩
/-- `FAB.SIMAP.ENi` -/
def FAB_SIMAP_EN (i : Nat) : Fld := ⟨.FAB_SIMAP, 8 * i + 7, 1, .RW, 0, 0, 1, 0⟩
/-- `FAB.SOMAP.MSRCi` -/
def FAB_SOMAP_MSRC (i : Nat) : Fld := ⟨.FAB_SOMAP, 4 * i + 0, 4, .RO, 15, 0, 15, 0⟩
def FAB_SOMAP_EDLY : Fld := ⟨.FAB_SOMAP, 16, 6, .RO, 0, 0, 63, 0⟩
def FAB_SIDROP_DROP : Fld := ⟨.FAB_SIDROP, 0, 16, .RW, 0, 0, 65535, 0⟩
def FAB_SIDROP_DISCARD : Fld := ⟨.FAB_SIDROP, 16, 16, .RW, 0, 0, 65535, 0⟩
def FAB_SOOVF_WORDS : Fld := ⟨.FAB_SOOVF, 0, 16, .RW, 0, 0, 65535, 0⟩
def FAB_EVCFG_EN : Fld := ⟨.FAB_EVCFG, 0, 4, .RW, 0, 0, 15, 0⟩
def FAB_EVCFG_SUPP : Fld := ⟨.FAB_EVCFG, 16, 16, .RW, 0, 0, 65535, 0⟩
def FAB_ACT_ACT : Fld := ⟨.FAB_ACT, 0, 8, .RO, 0, 0, 255, 0⟩
def FAB_CODESTAT_REGION : Fld := ⟨.FAB_CODESTAT, 0, 16, .W1C, 0, 0, 65535, 0⟩
def FAB_SNAPCTRL_REGIONS : Fld := ⟨.FAB_SNAPCTRL, 0, 16, .RW, 0, 0, 65535, 0⟩
def FAB_SNAPCTRL_TRIG : Fld := ⟨.FAB_SNAPCTRL, 16, 3, .RW, 0, 0, 3, 0⟩
def FAB_SNAPCTRL_HEAD : Fld := ⟨.FAB_SNAPCTRL, 19, 5, .RW, 0, 0, 23, 0⟩
def FAB_SNAPCTRL_FREEZE : Fld := ⟨.FAB_SNAPCTRL, 24, 1, .RW, 0, 0, 1, 0⟩
def FAB_SNAPCTRL_ARM : Fld := ⟨.FAB_SNAPCTRL, 29, 1, .WO, 0, 0, 1, 0⟩
def FAB_SNAPCTRL_RESUME : Fld := ⟨.FAB_SNAPCTRL, 30, 1, .WO, 0, 0, 1, 0⟩
def FAB_SNAPCTRL_CANCEL : Fld := ⟨.FAB_SNAPCTRL, 31, 1, .WO, 0, 0, 1, 0⟩
def FAB_SNAPTB_TB : Fld := ⟨.FAB_SNAPTB, 0, 32, .RW, 0, 0, 4294967295, 0⟩
def FAB_SNAPTBH_TBH : Fld := ⟨.FAB_SNAPTBH, 0, 32, .RW, 0, 0, 4294967295, 0⟩
def FAB_SNAPSTAT_ARMED : Fld := ⟨.FAB_SNAPSTAT, 0, 1, .RO, 0, 0, 1, 0⟩
def FAB_SNAPSTAT_DONE : Fld := ⟨.FAB_SNAPSTAT, 1, 1, .W1C, 0, 0, 1, 0⟩
def FAB_SNAPSTAT_FROZEN : Fld := ⟨.FAB_SNAPSTAT, 16, 16, .RO, 0, 0, 65535, 0⟩
def FAB_SNAPADDR_TILE : Fld := ⟨.FAB_SNAPADDR, 0, 8, .RW, 0, 0, 255, 0⟩
def FAB_SNAPADDR_CELL : Fld := ⟨.FAB_SNAPADDR, 8, 4, .RW, 0, 0, 15, 0⟩
def FAB_SNAPDATA_R : Fld := ⟨.FAB_SNAPDATA, 0, 24, .RO, 0, 0, 16777215, 0⟩
def FAB_SNAPDATA_F : Fld := ⟨.FAB_SNAPDATA, 24, 1, .RO, 0, 0, 1, 0⟩
def FAB_SNAPDATA_CTX : Fld := ⟨.FAB_SNAPDATA, 25, 2, .RO, 0, 0, 3, 0⟩
def FAB_SNAPDATA_STEP : Fld := ⟨.FAB_SNAPDATA, 27, 3, .RO, 0, 0, 7, 0⟩
def FAB_SNAPAT_TB : Fld := ⟨.FAB_SNAPAT, 0, 32, .RO, 0, 0, 4294967295, 0⟩
def FAB_SNAPATH_TBH : Fld := ⟨.FAB_SNAPATH, 0, 32, .RO, 0, 0, 4294967295, 0⟩
def RGN_STAT_STATE : Fld := ⟨.RGN_STAT, 0, 3, .RO, 0, 0, 7, 0⟩
def RGN_STAT_BRIM : Fld := ⟨.RGN_STAT, 3, 1, .RO, 1, 0, 1, 0⟩
def RGN_STAT_SUSPECT : Fld := ⟨.RGN_STAT, 4, 1, .RO, 0, 0, 1, 0⟩
def RGN_STAT_LOADFAIL : Fld := ⟨.RGN_STAT, 5, 1, .W1C, 0, 0, 1, 0⟩
def RGN_STAT_LOADS : Fld := ⟨.RGN_STAT, 16, 16, .RW, 0, 0, 65535, 0⟩
def RGN_ISOLATE_REGION : Fld := ⟨.RGN_ISOLATE, 0, 16, .RW, 0, 0, 65535, 0⟩
def RGN_GAUNTLET_POLICY : Fld := ⟨.RGN_GAUNTLET, 0, 2, .RW, 0, 0, 2, 0⟩
def RGN_GAUNTLET_MMGAP : Fld := ⟨.RGN_GAUNTLET, 16, 16, .RW, 1000, 1, 65535, 1⟩
def RGN_PSTAT_SUSPA : Fld := ⟨.RGN_PSTAT, 0, 8, .RO, 0, 0, 255, 0⟩
def RGN_PSTAT_SUSPB : Fld := ⟨.RGN_PSTAT, 8, 8, .RO, 0, 0, 255, 0⟩
def RGN_PSTAT_CMPFAULT : Fld := ⟨.RGN_PSTAT, 16, 8, .W1C, 0, 0, 255, 0⟩
def RGN_PSTAT_SILENT : Fld := ⟨.RGN_PSTAT, 24, 8, .RO, 0, 0, 255, 0⟩
def RGN_MMCNT_LINES : Fld := ⟨.RGN_MMCNT, 0, 16, .RW, 0, 0, 65535, 0⟩
def RGN_MMCNT_SUPP : Fld := ⟨.RGN_MMCNT, 16, 16, .RW, 0, 0, 65535, 0⟩
def RGN_SIG_SIG : Fld := ⟨.RGN_SIG, 0, 32, .RO, 0, 0, 4294967295, 0⟩
def MEM_BCTRL_MSTART : Fld := ⟨.MEM_BCTRL, 0, 1, .WO, 0, 0, 1, 0⟩
def MEM_BCTRL_MMODE : Fld := ⟨.MEM_BCTRL, 1, 1, .RW, 1, 0, 1, 0⟩
def MEM_BCTRL_MSTOP : Fld := ⟨.MEM_BCTRL, 2, 1, .WO, 0, 0, 1, 0⟩
def MEM_BSTAT_STATE : Fld := ⟨.MEM_BSTAT, 0, 3, .RO, 0, 0, 7, 0⟩
def MEM_BSTAT_RESULT : Fld := ⟨.MEM_BSTAT, 4, 3, .RO, 0, 0, 7, 0⟩
def MEM_BSTAT_DEGRADED : Fld := ⟨.MEM_BSTAT, 8, 1, .RO, 0, 0, 1, 0⟩
def MEM_BSTAT_SPUSED : Fld := ⟨.MEM_BSTAT, 12, 4, .RO, 0, 0, 15, 0⟩
def MEM_BSTAT_SPRET : Fld := ⟨.MEM_BSTAT, 16, 4, .RO, 0, 0, 15, 0⟩
def MEM_BSTAT_FCOLS : Fld := ⟨.MEM_BSTAT, 20, 5, .RO, 0, 0, 31, 0⟩
def MEM_BSTAT_COLFAULT : Fld := ⟨.MEM_BSTAT, 25, 1, .RO, 0, 0, 1, 0⟩
def MEM_WGT_P0MGT : Fld := ⟨.MEM_WGT, 0, 4, .RW, 2, 1, 15, 1⟩
def MEM_WGT_P0RGN : Fld := ⟨.MEM_WGT, 4, 4, .RW, 4, 1, 15, 1⟩
def MEM_WGT_P1LW : Fld := ⟨.MEM_WGT, 8, 4, .RW, 8, 1, 15, 1⟩
def MEM_WGT_P1MCV : Fld := ⟨.MEM_WGT, 12, 4, .RW, 2, 1, 15, 1⟩
def MEM_WGT_P1RGN : Fld := ⟨.MEM_WGT, 16, 4, .RW, 4, 1, 15, 1⟩
def MEM_ECCCNT_SBE : Fld := ⟨.MEM_ECCCNT, 0, 16, .RW, 0, 0, 65535, 0⟩
def MEM_ECCCNT_DBE : Fld := ⟨.MEM_ECCCNT, 16, 16, .RW, 0, 0, 65535, 0⟩
def MEM_ERRADDR_WORD : Fld := ⟨.MEM_ERRADDR, 0, 17, .RO, 0, 0, 131071, 0⟩
def MEM_ERRADDR_SRC : Fld := ⟨.MEM_ERRADDR, 20, 2, .RO, 0, 0, 3, 0⟩
def MEM_ERRADDR_RPORT : Fld := ⟨.MEM_ERRADDR, 22, 5, .RO, 0, 0, 31, 0⟩
def MEM_ERRADDR_VALID : Fld := ⟨.MEM_ERRADDR, 31, 1, .W1C, 0, 0, 1, 0⟩
def MEM_COLLCNT_RW : Fld := ⟨.MEM_COLLCNT, 0, 16, .RW, 0, 0, 65535, 0⟩
def MEM_COLLCNT_WW : Fld := ⟨.MEM_COLLCNT, 16, 16, .RW, 0, 0, 65535, 0⟩
def MEM_ROWMAP0_ROW0 : Fld := ⟨.MEM_ROWMAP0, 0, 11, .RO, 0, 0, 2047, 0⟩
def MEM_ROWMAP0_ROW1 : Fld := ⟨.MEM_ROWMAP0, 16, 11, .RO, 0, 0, 2047, 0⟩
def MEM_ROWMAP0_V0 : Fld := ⟨.MEM_ROWMAP0, 15, 1, .RO, 0, 0, 1, 0⟩
def MEM_ROWMAP0_V1 : Fld := ⟨.MEM_ROWMAP0, 31, 1, .RO, 0, 0, 1, 0⟩
def MEM_ROWMAP1_ROW2 : Fld := ⟨.MEM_ROWMAP1, 0, 11, .RO, 0, 0, 2047, 0⟩
def MEM_ROWMAP1_ROW3 : Fld := ⟨.MEM_ROWMAP1, 16, 11, .RO, 0, 0, 2047, 0⟩
def MEM_ROWMAP1_V2 : Fld := ⟨.MEM_ROWMAP1, 15, 1, .RO, 0, 0, 1, 0⟩
def MEM_ROWMAP1_V3 : Fld := ⟨.MEM_ROWMAP1, 31, 1, .RO, 0, 0, 1, 0⟩
def MEM_MARCHRES_ROWS : Fld := ⟨.MEM_MARCHRES, 0, 12, .RO, 0, 0, 4095, 0⟩
def MEM_MARCHRES_FIRST : Fld := ⟨.MEM_MARCHRES, 16, 11, .RO, 0, 0, 2047, 0⟩
def MEM_MARCHRES_FIRSTV : Fld := ⟨.MEM_MARCHRES, 31, 1, .RO, 0, 0, 1, 0⟩
def MEM_WBCNT_SKIP : Fld := ⟨.MEM_WBCNT, 0, 16, .RW, 0, 0, 65535, 0⟩
def MEM_RQDROP_MP0 : Fld := ⟨.MEM_RQDROP, 0, 16, .RW, 0, 0, 65535, 0⟩
def MEM_RQDROP_MP1 : Fld := ⟨.MEM_RQDROP, 16, 16, .RW, 0, 0, 65535, 0⟩
def MEM_SPECC_SBE : Fld := ⟨.MEM_SPECC, 0, 16, .RW, 0, 0, 65535, 0⟩
def MEM_SPECC_DBE : Fld := ⟨.MEM_SPECC, 16, 16, .RW, 0, 0, 65535, 0⟩
def MEM_SPERR_TILE : Fld := ⟨.MEM_SPERR, 0, 8, .RO, 0, 0, 255, 0⟩
def MEM_SPERR_WORD : Fld := ⟨.MEM_SPERR, 8, 10, .RO, 0, 0, 1023, 0⟩
def MEM_SPERR_VALID : Fld := ⟨.MEM_SPERR, 31, 1, .W1C, 0, 0, 1, 0⟩
def MEM_MCFG_MARCH_COLD : Fld := ⟨.MEM_MCFG, 0, 1, .RO, 0, 0, 1, 0⟩
def MEM_MCFG_WARM_MARCH : Fld := ⟨.MEM_MCFG, 1, 1, .RO, 0, 0, 1, 0⟩
def CFG_STATUS_STATE : Fld := ⟨.CFG_STATUS, 0, 4, .RO, 0, 0, 15, 0⟩
def CFG_STATUS_GOLDEN : Fld := ⟨.CFG_STATUS, 4, 1, .RO, 0, 0, 1, 0⟩
def CFG_STATUS_ENC : Fld := ⟨.CFG_STATUS, 5, 1, .RO, 0, 0, 1, 0⟩
def CFG_STATUS_KEYSEL : Fld := ⟨.CFG_STATUS, 6, 1, .RO, 0, 0, 1, 0⟩
def CFG_STATUS_PLOAD : Fld := ⟨.CFG_STATUS, 7, 1, .RO, 0, 0, 1, 0⟩
def CFG_STATUS_REASON : Fld := ⟨.CFG_STATUS, 8, 8, .RO, 0, 0, 255, 0⟩
def CFG_STATUS_PREASON : Fld := ⟨.CFG_STATUS, 16, 8, .RO, 0, 0, 255, 0⟩
def CFG_TIMEOUT_MS : Fld := ⟨.CFG_TIMEOUT, 0, 16, .RW, 100, 1, 65535, 1⟩
def CFG_WAITTMO_MS : Fld := ⟨.CFG_WAITTMO, 0, 16, .RW, 1000, 0, 65535, 0⟩
def CFG_GOLDADDR_ADDR : Fld := ⟨.CFG_GOLDADDR, 2, 22, .RW, 0, 0, 4194303, 0⟩
def CFG_RETRY_COUNT : Fld := ⟨.CFG_RETRY, 0, 2, .RO, 0, 0, 3, 0⟩
def CFG_RETRY_CLR : Fld := ⟨.CFG_RETRY, 8, 1, .WO, 0, 0, 1, 0⟩
def CFG_IMAGEID_ID : Fld := ⟨.CFG_IMAGEID, 0, 32, .RO, 0, 0, 4294967295, 0⟩
def CFG_BYTES_BYTES : Fld := ⟨.CFG_BYTES, 0, 32, .RO, 0, 0, 4294967295, 0⟩
def CFG_FAILPOS_POS : Fld := ⟨.CFG_FAILPOS, 0, 32, .RO, 0, 0, 4294967295, 0⟩
def CFG_FAILINFO_FRAME : Fld := ⟨.CFG_FAILINFO, 0, 14, .RO, 0, 0, 16383, 0⟩
def CFG_FAILINFO_REGION : Fld := ⟨.CFG_FAILINFO, 16, 4, .RO, 0, 0, 15, 0⟩
def CFG_FAILINFO_VALID : Fld := ⟨.CFG_FAILINFO, 31, 1, .W1C, 0, 0, 1, 0⟩
def CFG_STARTUP_ORDER : Fld := ⟨.CFG_STARTUP, 0, 24, .RO, 5517840, 0, 16777215, 0⟩
def CFG_STARTUP_NEXT : Fld := ⟨.CFG_STARTUP, 24, 4, .RO, 0, 0, 15, 0⟩
def CFG_CHAIN_DIV : Fld := ⟨.CFG_CHAIN, 0, 4, .RWL, 1, 0, 15, 0⟩
def CFG_CHAIN_FWD : Fld := ⟨.CFG_CHAIN, 8, 1, .RO, 0, 0, 1, 0⟩
def CFG_CHAIN_CHAINERR : Fld := ⟨.CFG_CHAIN, 9, 1, .W1C, 0, 0, 1, 0⟩
def CFG_FIFOSTAT_FREE : Fld := ⟨.CFG_FIFOSTAT, 0, 11, .RO, 1024, 0, 2047, 0⟩
def CFG_FIFOSTAT_OVF : Fld := ⟨.CFG_FIFOSTAT, 15, 1, .W1C, 0, 0, 1, 0⟩
def CFG_FIFOSTAT_DISC : Fld := ⟨.CFG_FIFOSTAT, 16, 16, .RW, 0, 0, 65535, 0⟩
def CFG_FUSE_FORCE_ENC : Fld := ⟨.CFG_FUSE, 0, 1, .RO, 0, 0, 1, 0⟩
def CFG_FUSE_FKEY : Fld := ⟨.CFG_FUSE, 1, 1, .RO, 0, 0, 1, 0⟩
def CFG_FUSE_BKEY : Fld := ⟨.CFG_FUSE, 2, 1, .RO, 0, 0, 1, 0⟩
def CFG_FUSE_BFQUAD : Fld := ⟨.CFG_FUSE, 3, 1, .RO, 0, 0, 1, 0⟩
def CFG_FIFO_WORD : Fld := ⟨.CFG_FIFO, 0, 32, .WO, 0, 0, 4294967295, 0⟩
def SCB_CTRL_EN : Fld := ⟨.SCB_CTRL, 0, 1, .RW, 1, 0, 1, 0⟩
def SCB_CTRL_ESCALATE : Fld := ⟨.SCB_CTRL, 1, 1, .RW, 0, 0, 1, 0⟩
def SCB_CTRL_DBEACT : Fld := ⟨.SCB_CTRL, 2, 1, .RWL, 0, 0, 1, 0⟩
def SCB_CTRL_RESTART : Fld := ⟨.SCB_CTRL, 31, 1, .WO, 0, 0, 1, 0⟩
def SCB_GAP_GAP : Fld := ⟨.SCB_GAP, 0, 16, .RW, 10, 0, 65535, 0⟩
def SCB_SWEEP_LIMIT_MS : Fld := ⟨.SCB_SWEEP_LIMIT, 0, 16, .RWL, 100, 10, 65535, 10⟩
def SCB_STAT_STATE : Fld := ⟨.SCB_STAT, 0, 3, .RO, 0, 0, 7, 0⟩
def SCB_STAT_CLEAN : Fld := ⟨.SCB_STAT, 3, 1, .RO, 0, 0, 1, 0⟩
def SCB_STAT_MISS : Fld := ⟨.SCB_STAT, 8, 1, .W1C, 0, 0, 1, 0⟩
def SCB_STAT_DEVDBE : Fld := ⟨.SCB_STAT, 9, 1, .W1C, 0, 0, 1, 0⟩
def SCB_STAT_SELFERR : Fld := ⟨.SCB_STAT, 10, 1, .W1C, 0, 0, 1, 0⟩
def SCB_POS_FRAME : Fld := ⟨.SCB_POS, 0, 14, .RO, 0, 0, 16383, 0⟩
def SCB_POS_SWEEPS : Fld := ⟨.SCB_POS, 16, 16, .RO, 0, 0, 65535, 0⟩
def SCB_SWEEPTIME_US : Fld := ⟨.SCB_SWEEPTIME, 0, 24, .RO, 0, 0, 16777215, 0⟩
def SCB_CNT_SBE : Fld := ⟨.SCB_CNT, 0, 16, .RW, 0, 0, 65535, 0⟩
def SCB_CNT_UNC : Fld := ⟨.SCB_CNT, 16, 16, .RW, 0, 0, 65535, 0⟩
def SCB_CNT2_CWFIX : Fld := ⟨.SCB_CNT2, 0, 16, .RW, 0, 0, 65535, 0⟩
def SCB_SELFCNT_VOTE : Fld := ⟨.SCB_SELFCNT, 0, 16, .RW, 0, 0, 65535, 0⟩
def SCB_SELFCNT_RAMSBE : Fld := ⟨.SCB_SELFCNT, 16, 8, .RW, 0, 0, 255, 0⟩
def SCB_SELFCNT_MISS : Fld := ⟨.SCB_SELFCNT, 24, 8, .RW, 0, 0, 255, 0⟩
def SCB_LASTERR_FRAME : Fld := ⟨.SCB_LASTERR, 0, 14, .RO, 0, 0, 16383, 0⟩
def SCB_LASTERR_BIT : Fld := ⟨.SCB_LASTERR, 16, 11, .RO, 0, 0, 2047, 0⟩
def SCB_LASTERR_KIND : Fld := ⟨.SCB_LASTERR, 28, 3, .RO, 0, 0, 7, 0⟩
def SCB_LASTERR_VALID : Fld := ⟨.SCB_LASTERR, 31, 1, .W1C, 0, 0, 1, 0⟩
def SCB_RELOADREQ_REGION : Fld := ⟨.SCB_RELOADREQ, 0, 16, .RO, 0, 0, 65535, 0⟩
def SCB_INJECT_FRAME : Fld := ⟨.SCB_INJECT, 0, 14, .RW, 0, 0, 16383, 0⟩
def SCB_INJECT_BIT : Fld := ⟨.SCB_INJECT, 16, 10, .RW, 0, 0, 1023, 0⟩
def SCB_INJECT_GO : Fld := ⟨.SCB_INJECT, 31, 1, .WO, 0, 0, 1, 0⟩
def PWR_STATE_CUR : Fld := ⟨.PWR_STATE, 0, 3, .RO, 0, 0, 7, 0⟩
def PWR_STATE_TGT : Fld := ⟨.PWR_STATE, 4, 3, .RO, 0, 0, 7, 0⟩
def PWR_STATE_BUSY : Fld := ⟨.PWR_STATE, 8, 1, .RO, 0, 0, 1, 0⟩
def PWR_REQ_TGT : Fld := ⟨.PWR_REQ, 0, 3, .RW, 1, 1, 4, 1⟩
def PWR_WAKECFG_CMP : Fld := ⟨.PWR_WAKECFG, 0, 1, .RW, 0, 0, 1, 0⟩
def PWR_WAKECFG_CAP : Fld := ⟨.PWR_WAKECFG, 1, 1, .RW, 0, 0, 1, 0⟩
def PWR_WAKECFG_RLOSS : Fld := ⟨.PWR_WAKECFG, 2, 1, .RW, 0, 0, 1, 0⟩
def PWR_WAKECFG_RLINE : Fld := ⟨.PWR_WAKECFG, 3, 1, .RW, 0, 0, 1, 0⟩
def PWR_WAKECFG_RHEAD : Fld := ⟨.PWR_WAKECFG, 4, 5, .RW, 0, 0, 23, 0⟩
def PWR_WAKECFG_RETURN : Fld := ⟨.PWR_WAKECFG, 12, 2, .RW, 0, 0, 2, 0⟩
def PWR_WAKESTAT_SRC : Fld := ⟨.PWR_WAKESTAT, 0, 6, .W1C, 0, 0, 63, 0⟩
def PWR_WAKESTAT_DUR : Fld := ⟨.PWR_WAKESTAT, 16, 16, .RO, 0, 0, 65535, 0⟩
def PWR_DOMEN_GRP : Fld := ⟨.PWR_DOMEN, 0, 8, .RW, 255, 0, 255, 0⟩
def PWR_DOMEN_MEM : Fld := ⟨.PWR_DOMEN, 8, 8, .RW, 255, 0, 255, 0⟩
def PWR_DOMEN_SER : Fld := ⟨.PWR_DOMEN, 16, 3, .RW, 7, 0, 7, 0⟩
def PWR_DOMSTAT0_ON : Fld := ⟨.PWR_DOMSTAT0, 0, 32, .RO, 0, 0, 4294967295, 0⟩
def PWR_DOMSTAT1_ON : Fld := ⟨.PWR_DOMSTAT1, 0, 18, .RO, 0, 0, 262143, 0⟩
def PWR_PFAIL_VCEN : Fld := ⟨.PWR_PFAIL, 0, 1, .RWL, 1, 0, 1, 0⟩
def PWR_PFAIL_VAEN : Fld := ⟨.PWR_PFAIL, 1, 1, .RWL, 1, 0, 1, 0⟩
def PWR_PFAIL_SRC : Fld := ⟨.PWR_PFAIL, 8, 2, .RO, 0, 0, 3, 0⟩
def PWR_PFAIL_CNT : Fld := ⟨.PWR_PFAIL, 16, 16, .RW, 0, 0, 65535, 0⟩
def PWR_RSTCAUSE_CAUSE : Fld := ⟨.PWR_RSTCAUSE, 0, 4, .RO, 0, 0, 15, 0⟩
def PWR_RSTCAUSE_WARM : Fld := ⟨.PWR_RSTCAUSE, 8, 8, .RW, 0, 0, 255, 0⟩
def PWR_STARTERR_STEP : Fld := ⟨.PWR_STARTERR, 0, 4, .RO, 0, 0, 15, 0⟩
def PWR_STARTERR_REASON : Fld := ⟨.PWR_STARTERR, 4, 4, .RO, 0, 0, 15, 0⟩
def PWR_STARTERR_TRIES : Fld := ⟨.PWR_STARTERR, 8, 2, .RO, 0, 0, 3, 0⟩
def CLK_PLLSTAT_LOCK : Fld := ⟨.CLK_PLLSTAT, 0, 11, .RO, 0, 0, 2047, 0⟩
def CLK_PLLSTAT_LOSS : Fld := ⟨.CLK_PLLSTAT, 16, 11, .W1C, 0, 0, 2047, 0⟩
def CLK_REFSTAT_REFOK : Fld := ⟨.CLK_REFSTAT, 0, 1, .RO, 0, 0, 1, 0⟩
def CLK_REFSTAT_REFLOST : Fld := ⟨.CLK_REFSTAT, 1, 1, .W1C, 0, 0, 1, 0⟩
def CLK_REFSTAT_HOLDOVER : Fld := ⟨.CLK_REFSTAT, 2, 1, .RO, 0, 0, 1, 0⟩
def CLK_REFSTAT_LOSSCNT : Fld := ⟨.CLK_REFSTAT, 8, 8, .RW, 0, 0, 255, 0⟩
def SYS_KWIN_WORD : Fld := ⟨.SYS_KWIN, 0, 32, .WO, 0, 0, 4294967295, 0⟩
def SYS_KWOUT_WORD : Fld := ⟨.SYS_KWOUT, 0, 32, .RO, 0, 0, 4294967295, 0⟩
def SYS_KWSTAT_INFREE : Fld := ⟨.SYS_KWSTAT, 0, 11, .RO, 1024, 0, 2047, 0⟩
def SYS_KWSTAT_OUTWORDS : Fld := ⟨.SYS_KWSTAT, 12, 12, .RO, 0, 0, 4095, 0⟩
def SYS_KWSTAT_READY : Fld := ⟨.SYS_KWSTAT, 24, 1, .RO, 0, 0, 1, 0⟩
def SYS_KWSTAT_SECURE : Fld := ⟨.SYS_KWSTAT, 25, 1, .RO, 0, 0, 1, 0⟩
def SYS_KWSTAT_LOCKOUT : Fld := ⟨.SYS_KWSTAT, 26, 1, .RO, 0, 0, 1, 0⟩
def SYS_KWSTAT_BUSY : Fld := ⟨.SYS_KWSTAT, 27, 1, .RO, 0, 0, 1, 0⟩
def SYS_KWSTAT_OVF : Fld := ⟨.SYS_KWSTAT, 28, 1, .W1C, 0, 0, 1, 0⟩
def SYS_KWSTAT_UNDER : Fld := ⟨.SYS_KWSTAT, 29, 1, .W1C, 0, 0, 1, 0⟩
def SYS_KWCTRL_RESYNC : Fld := ⟨.SYS_KWCTRL, 0, 1, .WO, 0, 0, 1, 0⟩
def SYS_KWCTRL_FLUSH : Fld := ⟨.SYS_KWCTRL, 1, 1, .WO, 0, 0, 1, 0⟩
def SYS_KWCNT_CRC : Fld := ⟨.SYS_KWCNT, 0, 8, .RW, 0, 0, 255, 0⟩
def SYS_KWCNT_TMO : Fld := ⟨.SYS_KWCNT, 8, 8, .RW, 0, 0, 255, 0⟩
def SYS_KWCNT_SYNC : Fld := ⟨.SYS_KWCNT, 16, 8, .RW, 0, 0, 255, 0⟩
def SYS_KWCNT_BADOP : Fld := ⟨.SYS_KWCNT, 24, 8, .RW, 0, 0, 255, 0⟩
def EVQ_HEAD_HEAD : Fld := ⟨.EVQ_HEAD, 0, 13, .RO, 0, 0, 8191, 0⟩
def EVQ_TAIL_TAIL : Fld := ⟨.EVQ_TAIL, 0, 13, .RW, 0, 0, 8191, 0⟩
def EVQ_CTRL_HOSTSLEEP : Fld := ⟨.EVQ_CTRL, 0, 1, .RW, 0, 0, 1, 0⟩
def EVQ_SIZE_SIZE : Fld := ⟨.EVQ_SIZE, 0, 13, .RO, 1024, 0, 8191, 0⟩
def EVQ_BASE_BASE : Fld := ⟨.EVQ_BASE, 0, 32, .RO, 67108864, 0, 4294967295, 0⟩
def EVQ_LOST_LOST : Fld := ⟨.EVQ_LOST, 0, 32, .RO, 0, 0, 4294967295, 0⟩
def EVQ_STAT_FILL : Fld := ⟨.EVQ_STAT, 0, 13, .RO, 0, 0, 8191, 0⟩
def EVQ_STAT_IRQ : Fld := ⟨.EVQ_STAT, 16, 1, .RO, 0, 0, 1, 0⟩
def EVQ_STAT_WAKE : Fld := ⟨.EVQ_STAT, 17, 1, .RO, 0, 0, 1, 0⟩
def EVQ_STAT_SEQ : Fld := ⟨.EVQ_STAT, 24, 8, .RO, 0, 0, 255, 0⟩
def EVQ_CNT_VOIDS : Fld := ⟨.EVQ_CNT, 0, 16, .RW, 0, 0, 65535, 0⟩
def EVQ_CNT_LOSTTOT : Fld := ⟨.EVQ_CNT, 16, 16, .RW, 0, 0, 65535, 0⟩
def GPIO_CFG_MODE : Fld := ⟨.GPIO_CFG, 0, 2, .RW, 0, 0, 1, 0⟩
def GPIO_CFG_FUNC : Fld := ⟨.GPIO_CFG, 2, 3, .RW, 0, 0, 6, 0⟩
def GPIO_CFG_FUNC2 : Fld := ⟨.GPIO_CFG, 5, 3, .RW, 0, 0, 6, 0⟩
def GPIO_CFG_SEL : Fld := ⟨.GPIO_CFG, 8, 6, .RW, 0, 0, 63, 0⟩
def GPIO_CFG_OWN : Fld := ⟨.GPIO_CFG, 16, 2, .RO, 2, 0, 3, 0⟩
def GPIO_CFG_OREG : Fld := ⟨.GPIO_CFG, 20, 4, .RO, 0, 0, 15, 0⟩
def GPIO_PAD_DRV : Fld := ⟨.GPIO_PAD, 0, 2, .RW, 1, 0, 3, 0⟩
def GPIO_PAD_SLEW : Fld := ⟨.GPIO_PAD, 2, 1, .RW, 0, 0, 1, 0⟩
def GPIO_PAD_PULL : Fld := ⟨.GPIO_PAD, 3, 2, .RW, 0, 0, 3, 0⟩
def GPIO_PAD_OD : Fld := ⟨.GPIO_PAD, 5, 1, .RW, 0, 0, 1, 0⟩
def GPIO_PAD_SCHMITT : Fld := ⟨.GPIO_PAD, 6, 1, .RW, 1, 0, 1, 0⟩
def GPIO_PAD_INV : Fld := ⟨.GPIO_PAD, 7, 1, .RW, 0, 0, 1, 0⟩
def GPIO_PAD_SLP : Fld := ⟨.GPIO_PAD, 8, 2, .RW, 0, 0, 3, 0⟩
def GPIO_MOUT_VAL : Fld := ⟨.GPIO_MOUT, 0, 16, .RW, 0, 0, 65535, 0⟩
def GPIO_MOUT_MASK : Fld := ⟨.GPIO_MOUT, 16, 16, .WO, 0, 0, 65535, 0⟩
def GPIO_MOE_VAL : Fld := ⟨.GPIO_MOE, 0, 16, .RW, 0, 0, 65535, 0⟩
def GPIO_MOE_MASK : Fld := ⟨.GPIO_MOE, 16, 16, .WO, 0, 0, 65535, 0⟩
def GPIO_IN_PAD : Fld := ⟨.GPIO_IN, 0, 16, .RO, 0, 0, 65535, 0⟩
def HCP_ELEC_DRV : Fld := ⟨.HCP_ELEC, 0, 2, .RW, 2, 0, 3, 0⟩
def HCP_ELEC_SLEW : Fld := ⟨.HCP_ELEC, 2, 1, .RW, 1, 0, 1, 0⟩
def HCP_ELEC_LVDSSW : Fld := ⟨.HCP_ELEC, 3, 1, .RW, 0, 0, 1, 0⟩
def HCP_AUX_FUNC : Fld := ⟨.HCP_AUX, 0, 3, .RW, 0, 0, 3, 0⟩
def HCP_AUX_OUT : Fld := ⟨.HCP_AUX, 8, 1, .RW, 0, 0, 1, 0⟩
def HCP_AUX_IN : Fld := ⟨.HCP_AUX, 9, 1, .RO, 0, 0, 1, 0⟩
def HCP_TWCFG_EN : Fld := ⟨.HCP_TWCFG, 0, 1, .RW, 0, 0, 1, 0⟩
def HCP_TWCFG_RATE : Fld := ⟨.HCP_TWCFG, 1, 2, .RW, 1, 0, 2, 0⟩
def HCP_TWCFG_GAPONLY : Fld := ⟨.HCP_TWCFG, 3, 1, .RW, 0, 0, 1, 0⟩
def HCP_TWCFG_TMO : Fld := ⟨.HCP_TWCFG, 8, 8, .RW, 100, 1, 255, 1⟩
def HCP_TWCMD_ADDR : Fld := ⟨.HCP_TWCMD, 0, 7, .RW, 0, 0, 127, 0⟩
def HCP_TWCMD_WLEN : Fld := ⟨.HCP_TWCMD, 8, 4, .RW, 0, 0, 8, 0⟩
def HCP_TWCMD_RLEN : Fld := ⟨.HCP_TWCMD, 12, 4, .RW, 0, 0, 8, 0⟩
def HCP_TWCMD_GO : Fld := ⟨.HCP_TWCMD, 31, 1, .WO, 0, 0, 1, 0⟩
def HCP_TWDATA0_D0 : Fld := ⟨.HCP_TWDATA0, 0, 32, .RW, 0, 0, 4294967295, 0⟩
def HCP_TWDATA1_D1 : Fld := ⟨.HCP_TWDATA1, 0, 32, .RW, 0, 0, 4294967295, 0⟩
def HCP_TWSTAT_BUSY : Fld := ⟨.HCP_TWSTAT, 0, 1, .RO, 0, 0, 1, 0⟩
def HCP_TWSTAT_DONE : Fld := ⟨.HCP_TWSTAT, 1, 1, .W1C, 0, 0, 1, 0⟩
def HCP_TWSTAT_NACK : Fld := ⟨.HCP_TWSTAT, 2, 1, .W1C, 0, 0, 1, 0⟩
def HCP_TWSTAT_TIMEOUT : Fld := ⟨.HCP_TWSTAT, 3, 1, .W1C, 0, 0, 1, 0⟩
def HCP_TWSTAT_STUCK : Fld := ⟨.HCP_TWSTAT, 4, 1, .W1C, 0, 0, 1, 0⟩
def HCP_TWSTAT_NBYTES : Fld := ⟨.HCP_TWSTAT, 8, 4, .RO, 0, 0, 15, 0⟩
def LAN_CTRL_EN : Fld := ⟨.LAN_CTRL, 0, 1, .RW, 0, 0, 1, 0⟩
def LAN_CTRL_XOFFEN : Fld := ⟨.LAN_CTRL, 1, 1, .RW, 1, 0, 1, 0⟩
def LAN_STAT_STATE : Fld := ⟨.LAN_STAT, 0, 2, .RO, 0, 0, 3, 0⟩
def LAN_STAT_XOFF : Fld := ⟨.LAN_STAT, 2, 1, .RO, 0, 0, 1, 0⟩
def LAN_STAT_DROPSEEN : Fld := ⟨.LAN_STAT, 3, 1, .W1C, 0, 0, 1, 0⟩
def LAN_FILL_BYTES : Fld := ⟨.LAN_FILL, 0, 17, .RO, 0, 0, 131071, 0⟩
def LAN_PEAK_BYTES : Fld := ⟨.LAN_PEAK, 0, 17, .RW, 0, 0, 131071, 0⟩
def LAN_DROP_FULL : Fld := ⟨.LAN_DROP, 0, 16, .RW, 0, 0, 65535, 0⟩
def LAN_DROP_OFF : Fld := ⟨.LAN_DROP, 16, 16, .RW, 0, 0, 65535, 0⟩
def LAN_TXCNT_PKTS : Fld := ⟨.LAN_TXCNT, 0, 32, .RW, 0, 0, 4294967295, 0⟩
def LAN_TRUNC_TRUNC : Fld := ⟨.LAN_TRUNC, 0, 16, .RW, 0, 0, 65535, 0⟩
def LAN_TRUNC_OVERSIZE : Fld := ⟨.LAN_TRUNC, 16, 16, .RW, 0, 0, 65535, 0⟩
def LAN_QCFG_RATE : Fld := ⟨.LAN_QCFG, 0, 3, .RW, 4, 0, 4, 0⟩
def LAN_QCFG_BOND : Fld := ⟨.LAN_QCFG, 3, 2, .RW, 0, 0, 2, 0⟩
def LAN_QCFG_SWING : Fld := ⟨.LAN_QCFG, 8, 2, .RW, 2, 0, 3, 0⟩
def LAN_QCFG_EMPH : Fld := ⟨.LAN_QCFG, 12, 2, .RW, 1, 0, 3, 0⟩
def LAN_QSTAT_LOCK : Fld := ⟨.LAN_QSTAT, 0, 1, .RO, 0, 0, 1, 0⟩
def LAN_QSTAT_LOSS : Fld := ⟨.LAN_QSTAT, 1, 1, .W1C, 0, 0, 1, 0⟩
/-- `LAN.SOMAP.LANEi` -/
def LAN_SOMAP_LANE (i : Nat) : Fld := ⟨.LAN_SOMAP, 5 * i + 0, 4, .RW, 0, 0, 11, 0⟩
/-- `LAN.SOMAP.ENi` -/
def LAN_SOMAP_EN (i : Nat) : Fld := ⟨.LAN_SOMAP, 5 * i + 4, 1, .RW, 0, 0, 1, 0⟩
def LAN_RXCFG_EN0 : Fld := ⟨.LAN_RXCFG, 0, 1, .RW, 0, 0, 1, 0⟩
def LAN_RXCFG_EN1 : Fld := ⟨.LAN_RXCFG, 1, 1, .RW, 0, 0, 1, 0⟩
def LAN_RXSTAT_VALID0 : Fld := ⟨.LAN_RXSTAT, 0, 1, .RO, 0, 0, 1, 0⟩
def LAN_RXSTAT_VALID1 : Fld := ⟨.LAN_RXSTAT, 1, 1, .RO, 0, 0, 1, 0⟩
def LAN_RXSTAT_LOS0 : Fld := ⟨.LAN_RXSTAT, 2, 1, .W1C, 0, 0, 1, 0⟩
def LAN_RXSTAT_LOS1 : Fld := ⟨.LAN_RXSTAT, 3, 1, .W1C, 0, 0, 1, 0⟩
def LAN_RXSTAT_XOFF : Fld := ⟨.LAN_RXSTAT, 16, 12, .RO, 0, 0, 4095, 0⟩
def SYS_DEVID_STEP : Fld := ⟨.SYS_DEVID, 0, 8, .RO, 33, 0, 255, 0⟩
def SYS_DEVID_PKG : Fld := ⟨.SYS_DEVID, 8, 8, .RO, 1, 0, 255, 0⟩
def SYS_DEVID_PART : Fld := ⟨.SYS_DEVID, 16, 16, .RO, 38404, 0, 65535, 0⟩
def SYS_STATUS_PAIRED : Fld := ⟨.SYS_STATUS, 0, 1, .RO, 0, 0, 1, 0⟩
def SYS_STATUS_CONFIGURED : Fld := ⟨.SYS_STATUS, 1, 1, .RO, 0, 0, 1, 0⟩
def SYS_STATUS_HPSEL : Fld := ⟨.SYS_STATUS, 2, 1, .RO, 0, 0, 1, 0⟩
def SYS_SERIAL_SN : Fld := ⟨.SYS_SERIAL, 0, 32, .RO, 0, 0, 4294967295, 0⟩
def SYS_SERIALH_SNH : Fld := ⟨.SYS_SERIALH, 0, 32, .RO, 0, 0, 4294967295, 0⟩
def SYS_FWVER_MINOR : Fld := ⟨.SYS_FWVER, 0, 16, .RO, 0, 0, 65535, 0⟩
def SYS_FWVER_MAJOR : Fld := ⟨.SYS_FWVER, 16, 16, .RO, 0, 0, 65535, 0⟩
def SYS_ACCERR_COUNT : Fld := ⟨.SYS_ACCERR, 0, 16, .RW, 0, 0, 65535, 0⟩
def SYS_ACCERR_CAUSE : Fld := ⟨.SYS_ACCERR, 16, 4, .RO, 0, 0, 15, 0⟩
def SYS_ACCERR_PATH : Fld := ⟨.SYS_ACCERR, 20, 1, .RO, 0, 0, 1, 0⟩
def SYS_ACCADDR_ADDR : Fld := ⟨.SYS_ACCADDR, 0, 32, .RO, 0, 0, 4294967295, 0⟩
def SYS_NOWNER_COUNT : Fld := ⟨.SYS_NOWNER, 0, 16, .RW, 0, 0, 65535, 0⟩
def SYS_NOWNER_LASTRWL : Fld := ⟨.SYS_NOWNER, 16, 1, .RO, 0, 0, 1, 0⟩
def SYS_PAGE_PAGE : Fld := ⟨.SYS_PAGE, 0, 17, .RW, 0, 0, 131071, 0⟩
def TMP_TS_T : Fld := ⟨.TMP_TS, 0, 16, .RO, 0, 0, 65535, 0⟩
def TMP_TS_VALID : Fld := ⟨.TMP_TS, 16, 1, .RO, 0, 0, 1, 0⟩
def TMP_RAIL0_VCORE : Fld := ⟨.TMP_RAIL0, 0, 16, .RO, 0, 0, 65535, 0⟩
def TMP_RAIL0_VMEM : Fld := ⟨.TMP_RAIL0, 16, 16, .RO, 0, 0, 65535, 0⟩
def TMP_RAIL1_VAUX : Fld := ⟨.TMP_RAIL1, 0, 16, .RO, 0, 0, 65535, 0⟩
def TMP_RAIL1_VANL : Fld := ⟨.TMP_RAIL1, 16, 16, .RO, 0, 0, 65535, 0⟩
def TMP_RAIL2_VANA : Fld := ⟨.TMP_RAIL2, 0, 16, .RO, 0, 0, 65535, 0⟩
def TMP_RAIL2_VBAT : Fld := ⟨.TMP_RAIL2, 16, 16, .RO, 0, 0, 65535, 0⟩
def TMP_RAIL3_VSER09 : Fld := ⟨.TMP_RAIL3, 0, 16, .RO, 0, 0, 65535, 0⟩
def TMP_RAIL3_VSER12 : Fld := ⟨.TMP_RAIL3, 16, 16, .RO, 0, 0, 65535, 0⟩
def TMP_STAT_TSEQ : Fld := ⟨.TMP_STAT, 0, 8, .RO, 0, 0, 255, 0⟩
def TMP_STAT_RSEQ : Fld := ⟨.TMP_STAT, 8, 8, .RO, 0, 0, 255, 0⟩
def TMP_STAT_OVT : Fld := ⟨.TMP_STAT, 16, 1, .W1C, 0, 0, 1, 0⟩
def TMP_STAT_STALE : Fld := ⟨.TMP_STAT, 17, 1, .RO, 0, 0, 1, 0⟩
def TMP_LIMIT_HI : Fld := ⟨.TMP_LIMIT, 0, 16, .RW, 1760, 0, 65535, 0⟩
def TMP_MAX_MAX : Fld := ⟨.TMP_MAX, 0, 16, .RW, 32768, 0, 65535, 0⟩

/-- The placement of every register (R423 and the chapters' offset tables). -/
def RegKind.place : RegKind → Place
  | .SYS_KWIN => ⟨0x00000100, 0x0, 1, 0x0, 1⟩
  | .SYS_KWOUT => ⟨0x00000104, 0x0, 1, 0x0, 1⟩
  | .SYS_KWSTAT => ⟨0x00000108, 0x0, 1, 0x0, 1⟩
  | .SYS_KWCTRL => ⟨0x0000010C, 0x0, 1, 0x0, 1⟩
  | .SYS_KWCNT => ⟨0x00000110, 0x0, 1, 0x0, 1⟩
  | .SYS_DEVID => ⟨0x00000000, 0x0, 1, 0x0, 1⟩
  | .SYS_STATUS => ⟨0x00000004, 0x0, 1, 0x0, 1⟩
  | .SYS_SERIAL => ⟨0x00000008, 0x0, 1, 0x0, 1⟩
  | .SYS_SERIALH => ⟨0x0000000C, 0x0, 1, 0x0, 1⟩
  | .SYS_FWVER => ⟨0x00000010, 0x0, 1, 0x0, 1⟩
  | .SYS_ACCERR => ⟨0x00000014, 0x0, 1, 0x0, 1⟩
  | .SYS_ACCADDR => ⟨0x00000018, 0x0, 1, 0x0, 1⟩
  | .SYS_NOWNER => ⟨0x0000001C, 0x0, 1, 0x0, 1⟩
  | .SYS_PAGE => ⟨0x00000020, 0x0, 1, 0x0, 1⟩
  | .PWR_STATE => ⟨0x00010000, 0x0, 1, 0x0, 1⟩
  | .PWR_REQ => ⟨0x00010004, 0x0, 1, 0x0, 1⟩
  | .PWR_WAKECFG => ⟨0x00010008, 0x0, 1, 0x0, 1⟩
  | .PWR_WAKESTAT => ⟨0x0001000C, 0x0, 1, 0x0, 1⟩
  | .PWR_DOMEN => ⟨0x00010010, 0x0, 1, 0x0, 1⟩
  | .PWR_DOMSTAT0 => ⟨0x00010014, 0x0, 1, 0x0, 1⟩
  | .PWR_DOMSTAT1 => ⟨0x00010018, 0x0, 1, 0x0, 1⟩
  | .PWR_PFAIL => ⟨0x0001001C, 0x0, 1, 0x0, 1⟩
  | .PWR_RSTCAUSE => ⟨0x00010020, 0x0, 1, 0x0, 1⟩
  | .PWR_STARTERR => ⟨0x00010024, 0x0, 1, 0x0, 1⟩
  | .CLK_PLLSTAT => ⟨0x00020000, 0x0, 1, 0x0, 1⟩
  | .CLK_REFSTAT => ⟨0x00020004, 0x0, 1, 0x0, 1⟩
  | .CFG_STATUS => ⟨0x00030000, 0x0, 1, 0x0, 1⟩
  | .CFG_TIMEOUT => ⟨0x00030004, 0x0, 1, 0x0, 1⟩
  | .CFG_WAITTMO => ⟨0x00030008, 0x0, 1, 0x0, 1⟩
  | .CFG_GOLDADDR => ⟨0x0003000C, 0x0, 1, 0x0, 1⟩
  | .CFG_RETRY => ⟨0x00030010, 0x0, 1, 0x0, 1⟩
  | .CFG_IMAGEID => ⟨0x00030014, 0x0, 1, 0x0, 1⟩
  | .CFG_BYTES => ⟨0x0003001C, 0x0, 1, 0x0, 1⟩
  | .CFG_FAILPOS => ⟨0x00030020, 0x0, 1, 0x0, 1⟩
  | .CFG_FAILINFO => ⟨0x00030024, 0x0, 1, 0x0, 1⟩
  | .CFG_STARTUP => ⟨0x00030028, 0x0, 1, 0x0, 1⟩
  | .CFG_CHAIN => ⟨0x0003002C, 0x0, 1, 0x0, 1⟩
  | .CFG_FIFOSTAT => ⟨0x00030030, 0x0, 1, 0x0, 1⟩
  | .CFG_FUSE => ⟨0x00030034, 0x0, 1, 0x0, 1⟩
  | .CFG_FIFO => ⟨0x00030400, 0x0, 1, 0x0, 1⟩
  | .SCB_CTRL => ⟨0x00040000, 0x0, 1, 0x0, 1⟩
  | .SCB_GAP => ⟨0x00040004, 0x0, 1, 0x0, 1⟩
  | .SCB_SWEEP_LIMIT => ⟨0x00040008, 0x0, 1, 0x0, 1⟩
  | .SCB_STAT => ⟨0x0004000C, 0x0, 1, 0x0, 1⟩
  | .SCB_POS => ⟨0x00040010, 0x0, 1, 0x0, 1⟩
  | .SCB_SWEEPTIME => ⟨0x00040014, 0x0, 1, 0x0, 1⟩
  | .SCB_CNT => ⟨0x00040018, 0x0, 1, 0x0, 1⟩
  | .SCB_CNT2 => ⟨0x0004001C, 0x0, 1, 0x0, 1⟩
  | .SCB_SELFCNT => ⟨0x00040020, 0x0, 1, 0x0, 1⟩
  | .SCB_LASTERR => ⟨0x00040024, 0x0, 1, 0x0, 1⟩
  | .SCB_RELOADREQ => ⟨0x00040028, 0x0, 1, 0x0, 1⟩
  | .SCB_INJECT => ⟨0x0004002C, 0x0, 1, 0x0, 1⟩
  | .MEM_BCTRL => ⟨0x00050000, 0x40, 8, 0x0, 1⟩
  | .MEM_BSTAT => ⟨0x00050004, 0x40, 8, 0x0, 1⟩
  | .MEM_WGT => ⟨0x00050008, 0x40, 8, 0x0, 1⟩
  | .MEM_ECCCNT => ⟨0x0005000C, 0x40, 8, 0x0, 1⟩
  | .MEM_ERRADDR => ⟨0x00050010, 0x40, 8, 0x0, 1⟩
  | .MEM_COLLCNT => ⟨0x00050014, 0x40, 8, 0x0, 1⟩
  | .MEM_ROWMAP0 => ⟨0x00050018, 0x40, 8, 0x0, 1⟩
  | .MEM_ROWMAP1 => ⟨0x0005001C, 0x40, 8, 0x0, 1⟩
  | .MEM_MARCHRES => ⟨0x00050020, 0x40, 8, 0x0, 1⟩
  | .MEM_WBCNT => ⟨0x00050024, 0x40, 8, 0x0, 1⟩
  | .MEM_RQDROP => ⟨0x00050200, 0x4, 16, 0x0, 1⟩
  | .MEM_SPECC => ⟨0x00050300, 0x4, 16, 0x0, 1⟩
  | .MEM_SPERR => ⟨0x00050400, 0x0, 1, 0x0, 1⟩
  | .MEM_MCFG => ⟨0x00050404, 0x0, 1, 0x0, 1⟩
  | .EVQ_HEAD => ⟨0x00060000, 0x0, 1, 0x0, 1⟩
  | .EVQ_TAIL => ⟨0x00060004, 0x0, 1, 0x0, 1⟩
  | .EVQ_CTRL => ⟨0x00060008, 0x0, 1, 0x0, 1⟩
  | .EVQ_SIZE => ⟨0x0006000C, 0x0, 1, 0x0, 1⟩
  | .EVQ_BASE => ⟨0x00060010, 0x0, 1, 0x0, 1⟩
  | .EVQ_LOST => ⟨0x00060014, 0x0, 1, 0x0, 1⟩
  | .EVQ_STAT => ⟨0x00060018, 0x0, 1, 0x0, 1⟩
  | .EVQ_CNT => ⟨0x0006001C, 0x0, 1, 0x0, 1⟩
  | .GPIO_CFG => ⟨0x00070000, 0x4, 64, 0x0, 1⟩
  | .GPIO_PAD => ⟨0x00070100, 0x4, 64, 0x0, 1⟩
  | .GPIO_MOUT => ⟨0x00070200, 0x4, 4, 0x0, 1⟩
  | .GPIO_MOE => ⟨0x00070210, 0x4, 4, 0x0, 1⟩
  | .GPIO_IN => ⟨0x00070220, 0x4, 4, 0x0, 1⟩
  | .HCP_CTRL => ⟨0x00080000, 0x40, 24, 0x0, 1⟩
  | .HCP_HCKPH => ⟨0x00080008, 0x40, 24, 0x0, 1⟩
  | .HCP_HCKFREQ => ⟨0x00080004, 0x40, 24, 0x0, 1⟩
  | .HCP_LEDDLY => ⟨0x0008000C, 0x40, 24, 0x0, 1⟩
  | .HCP_LEDWID => ⟨0x00080010, 0x40, 24, 0x0, 1⟩
  | .HCP_LEDADV => ⟨0x00080014, 0x40, 24, 0x0, 1⟩
  | .HCP_CTRSET => ⟨0x00080018, 0x40, 24, 0x0, 1⟩
  | .HCP_TSTAT => ⟨0x0008001C, 0x40, 24, 0x0, 1⟩
  | .HCP_ELEC => ⟨0x00080020, 0x40, 24, 0x0, 1⟩
  | .HCP_AUX => ⟨0x00080024, 0x40, 24, 0x0, 1⟩
  | .HCP_TWCFG => ⟨0x00080028, 0x40, 24, 0x0, 1⟩
  | .HCP_TWCMD => ⟨0x0008002C, 0x40, 24, 0x0, 1⟩
  | .HCP_TWDATA0 => ⟨0x00080030, 0x40, 24, 0x0, 1⟩
  | .HCP_TWDATA1 => ⟨0x00080034, 0x40, 24, 0x0, 1⟩
  | .HCP_TWSTAT => ⟨0x00080038, 0x40, 24, 0x0, 1⟩
  | .ENC_CTRL => ⟨0x00090000, 0x40, 8, 0x0, 1⟩
  | .ENC_FILT => ⟨0x00090004, 0x40, 8, 0x0, 1⟩
  | .ENC_STAT => ⟨0x0009001C, 0x40, 8, 0x0, 1⟩
  | .ENC_POS => ⟨0x00090008, 0x40, 8, 0x0, 1⟩
  | .ENC_POSH => ⟨0x0009000C, 0x40, 8, 0x0, 1⟩
  | .ENC_POSSET => ⟨0x00090010, 0x40, 8, 0x0, 1⟩
  | .ENC_POSSETH => ⟨0x00090014, 0x40, 8, 0x0, 1⟩
  | .ENC_VEL => ⟨0x00090018, 0x40, 8, 0x0, 1⟩
  | .ENC_ERRCNT => ⟨0x00090020, 0x40, 8, 0x0, 1⟩
  | .ENC_CPR => ⟨0x00090024, 0x40, 8, 0x0, 1⟩
  | .ENC_IDXTOL => ⟨0x00090028, 0x40, 8, 0x0, 1⟩
  | .ENC_RATEMAX => ⟨0x0009002C, 0x40, 8, 0x0, 1⟩
  | .ENC_IDXPOS => ⟨0x00090030, 0x40, 8, 0x0, 1⟩
  | .ENC_IDXPOSH => ⟨0x00090034, 0x40, 8, 0x0, 1⟩
  | .ENC_STALL => ⟨0x00090038, 0x40, 8, 0x0, 1⟩
  | .ENC_CAPCTRL => ⟨0x00090800, 0x20, 32, 0x0, 1⟩
  | .ENC_CAPTS => ⟨0x00090804, 0x20, 32, 0x0, 1⟩
  | .ENC_CAPTSH => ⟨0x00090808, 0x20, 32, 0x0, 1⟩
  | .ENC_CAPPOS => ⟨0x0009080C, 0x20, 32, 0x0, 1⟩
  | .ENC_CAPPOSH => ⟨0x00090810, 0x20, 32, 0x0, 1⟩
  | .ENC_CAPSTAT => ⟨0x00090814, 0x20, 32, 0x0, 1⟩
  | .LTG_CTRL => ⟨0x000A0000, 0x80, 24, 0x0, 1⟩
  | .LTG_STAT => ⟨0x000A002C, 0x80, 24, 0x0, 1⟩
  | .LTG_PITCH => ⟨0x000A0004, 0x80, 24, 0x0, 1⟩
  | .LTG_PITCHH => ⟨0x000A0008, 0x80, 24, 0x0, 1⟩
  | .LTG_ORIGIN => ⟨0x000A000C, 0x80, 24, 0x0, 1⟩
  | .LTG_ORIGINH => ⟨0x000A0010, 0x80, 24, 0x0, 1⟩
  | .LTG_MINPER => ⟨0x000A0014, 0x80, 24, 0x0, 1⟩
  | .LTG_VMIN => ⟨0x000A0018, 0x80, 24, 0x0, 1⟩
  | .LTG_TIMERPER => ⟨0x000A001C, 0x80, 24, 0x0, 1⟩
  | .LTG_REARM => ⟨0x000A0020, 0x80, 24, 0x0, 1⟩
  | .LTG_COAST => ⟨0x000A0024, 0x80, 24, 0x0, 1⟩
  | .LTG_LINE => ⟨0x000A0028, 0x80, 24, 0x0, 1⟩
  | .LTG_TGT => ⟨0x000A0030, 0x80, 24, 0x0, 1⟩
  | .LTG_TGTH => ⟨0x000A0034, 0x80, 24, 0x0, 1⟩
  | .LTG_STRPOS => ⟨0x000A0038, 0x80, 24, 0x0, 1⟩
  | .LTG_STRPOSH => ⟨0x000A003C, 0x80, 24, 0x0, 1⟩
  | .LTG_OVRCNT => ⟨0x000A0040, 0x80, 24, 0x0, 1⟩
  | .LTG_EVTCNT => ⟨0x000A0044, 0x80, 24, 0x0, 1⟩
  | .LTG_MODECNT => ⟨0x000A0048, 0x80, 24, 0x0, 1⟩
  | .LTG_CTROFS => ⟨0x000A004C, 0x80, 24, 0x0, 1⟩
  | .LTG_EFFMIN => ⟨0x000A0050, 0x80, 24, 0x0, 1⟩
  | .LTG_TB => ⟨0x000A1000, 0x0, 1, 0x0, 1⟩
  | .LTG_TBH => ⟨0x000A1004, 0x0, 1, 0x0, 1⟩
  | .LTG_TBSET => ⟨0x000A1008, 0x0, 1, 0x0, 1⟩
  | .LTG_TBSETH => ⟨0x000A100C, 0x0, 1, 0x0, 1⟩
  | .LTG_TBCTRL => ⟨0x000A1010, 0x0, 1, 0x0, 1⟩
  | .ZLK_CTRL => ⟨0x000B0000, 0x0, 1, 0x0, 1⟩
  | .ZLK_STAT => ⟨0x000B0004, 0x0, 1, 0x0, 1⟩
  | .ZLK_ISLAND => ⟨0x000B0008, 0x0, 1, 0x0, 1⟩
  | .ZLK_TXHEAD => ⟨0x000B000C, 0x0, 1, 0x0, 1⟩
  | .ZLK_POSSRC => ⟨0x000B0010, 0x0, 1, 0x0, 1⟩
  | .ZLK_LOOPLAT => ⟨0x000B0014, 0x0, 1, 0x0, 1⟩
  | .ZLK_OFSP => ⟨0x000B0018, 0x0, 1, 0x0, 1⟩
  | .ZLK_OFSR => ⟨0x000B001C, 0x0, 1, 0x0, 1⟩
  | .ZLK_ASYM => ⟨0x000B0020, 0x0, 1, 0x0, 1⟩
  | .ZLK_ALIVE => ⟨0x000B0024, 0x0, 1, 0x0, 1⟩
  | .ZLK_LOCKMASK => ⟨0x000B0028, 0x0, 1, 0x0, 1⟩
  | .ZLK_RPOS => ⟨0x000B002C, 0x0, 1, 0x0, 1⟩
  | .ZLK_RPOSH => ⟨0x000B0030, 0x0, 1, 0x0, 1⟩
  | .ZLK_TBERR => ⟨0x000B0034, 0x0, 1, 0x0, 1⟩
  | .ZLK_ERRCNT => ⟨0x000B0038, 0x0, 1, 0x0, 1⟩
  | .ZLK_LINECNT => ⟨0x000B003C, 0x0, 1, 0x0, 1⟩
  | .ZLK_BRKCNT => ⟨0x000B0040, 0x0, 1, 0x0, 1⟩
  | .ZLK_STARTTMO => ⟨0x000B0044, 0x0, 1, 0x0, 1⟩
  | .AFE_CH => ⟨0x000C0000, 0x20, 96, 0x0, 1⟩
  | .AFE_STAT => ⟨0x000C0014, 0x20, 96, 0x0, 1⟩
  | .AFE_PGA => ⟨0x000C0004, 0x20, 96, 0x0, 1⟩
  | .AFE_CLP => ⟨0x000C0008, 0x20, 96, 0x0, 1⟩
  | .AFE_CLPWIN => ⟨0x000C000C, 0x20, 96, 0x0, 1⟩
  | .AFE_CLPTGT => ⟨0x000C0010, 0x20, 96, 0x0, 1⟩
  | .AFE_OVRCNT => ⟨0x000C0018, 0x20, 96, 0x0, 1⟩
  | .AFE_LEGCAL => ⟨0x000C001C, 0x20, 96, 0x0, 1⟩
  | .AFE_HTIM => ⟨0x000C1000, 0x10, 24, 0x0, 1⟩
  | .AFE_HNPIX => ⟨0x000C1004, 0x10, 24, 0x0, 1⟩
  | .AFE_HSTAT => ⟨0x000C1008, 0x10, 24, 0x0, 1⟩
  | .AFE_SCANCTRL => ⟨0x000C1800, 0x0, 1, 0x0, 1⟩
  | .AFE_SCANDATA => ⟨0x000C1804, 0x0, 1, 0x0, 1⟩
  | .CNV_SOFS => ⟨0x000D0000, 0x200, 8, 0x20, 13⟩
  | .CNV_SGAIN => ⟨0x000D0004, 0x200, 8, 0x20, 13⟩
  | .CNV_SAPT => ⟨0x000D0008, 0x200, 8, 0x20, 13⟩
  | .CNV_SQUAL => ⟨0x000D000C, 0x200, 8, 0x20, 13⟩
  | .CNV_SSTAT => ⟨0x000D0010, 0x200, 8, 0x20, 13⟩
  | .CNV_DBL => ⟨0x000D01C0, 0x200, 8, 0x0, 1⟩
  | .CNV_MIT => ⟨0x000D01C4, 0x200, 8, 0x0, 1⟩
  | .CNV_MITCNT => ⟨0x000D01C8, 0x200, 8, 0x0, 1⟩
  | .CNV_MITCFG0 => ⟨0x000D1000, 0x0, 1, 0x0, 1⟩
  | .CNV_MITCFG1 => ⟨0x000D1004, 0x0, 1, 0x0, 1⟩
  | .PCU_HCFG => ⟨0x000E0000, 0x40, 24, 0x0, 1⟩
  | .PCU_ROUTE => ⟨0x000E0004, 0x40, 24, 0x0, 1⟩
  | .PCU_LROUTE => ⟨0x000E0008, 0x40, 24, 0x0, 1⟩
  | .PCU_STWIN => ⟨0x000E000C, 0x40, 24, 0x0, 1⟩
  | .PCU_STLINE => ⟨0x000E0010, 0x40, 24, 0x0, 1⟩
  | .PCU_STMIN => ⟨0x000E0014, 0x40, 24, 0x0, 1⟩
  | .PCU_STMAX => ⟨0x000E0018, 0x40, 24, 0x0, 1⟩
  | .PCU_STSUM => ⟨0x000E001C, 0x40, 24, 0x0, 1⟩
  | .PCU_STCNT => ⟨0x000E0020, 0x40, 24, 0x0, 1⟩
  | .PCU_LWCTRL => ⟨0x000E0024, 0x40, 24, 0x0, 1⟩
  | .PCU_LWBASE => ⟨0x000E0028, 0x40, 24, 0x0, 1⟩
  | .PCU_LWIDX => ⟨0x000E002C, 0x40, 24, 0x0, 1⟩
  | .PCU_WIN => ⟨0x000E0800, 0x4, 96, 0x0, 1⟩
  | .PCU_GSTAT => ⟨0x000E0A00, 0x10, 8, 0x0, 1⟩
  | .PCU_ECCCNT => ⟨0x000E0A04, 0x10, 8, 0x0, 1⟩
  | .PCU_DROPCNT => ⟨0x000E0A08, 0x10, 8, 0x0, 1⟩
  | .PCU_HSEL => ⟨0x000E0C00, 0x0, 1, 0x0, 1⟩
  | .PCU_HDATA => ⟨0x000E0C04, 0x0, 1, 0x0, 1⟩
  | .PCU_TSYNC => ⟨0x000E0C08, 0x0, 1, 0x0, 1⟩
  | .CAL_CTRL => ⟨0x000F0000, 0x0, 1, 0x0, 1⟩
  | .CAL_STAT => ⟨0x000F0004, 0x0, 1, 0x0, 1⟩
  | .CAL_TRIG_DT => ⟨0x000F0008, 0x0, 1, 0x0, 1⟩
  | .CAL_SLEW => ⟨0x000F000C, 0x0, 1, 0x0, 1⟩
  | .CAL_CTX_WIN0 => ⟨0x000F0010, 0x0, 1, 0x0, 1⟩
  | .CAL_CTX_WIN1 => ⟨0x000F0014, 0x0, 1, 0x0, 1⟩
  | .CAL_DARK_MAX => ⟨0x000F0018, 0x0, 1, 0x0, 1⟩
  | .CAL_FLAT_LIM => ⟨0x000F001C, 0x0, 1, 0x0, 1⟩
  | .CAL_DARKCFG => ⟨0x000F0020, 0x0, 1, 0x0, 1⟩
  | .CAL_FLATCFG => ⟨0x000F0024, 0x0, 1, 0x0, 1⟩
  | .CAL_AFECFG => ⟨0x000F0028, 0x0, 1, 0x0, 1⟩
  | .CAL_STORECFG => ⟨0x000F002C, 0x0, 1, 0x0, 1⟩
  | .CAL_STOREBASE => ⟨0x000F0030, 0x0, 1, 0x0, 1⟩
  | .CAL_STORESTAT => ⟨0x000F0034, 0x0, 1, 0x0, 1⟩
  | .CAL_STORESEQ => ⟨0x000F0038, 0x0, 1, 0x0, 1⟩
  | .CAL_STALEH => ⟨0x000F003C, 0x0, 1, 0x0, 1⟩
  | .CAL_STALEG => ⟨0x000F0040, 0x0, 1, 0x0, 1⟩
  | .CAL_PSEL => ⟨0x000F0044, 0x0, 1, 0x0, 1⟩
  | .CAL_PINFO => ⟨0x000F0048, 0x0, 1, 0x0, 1⟩
  | .CAL_PAGE => ⟨0x000F004C, 0x0, 1, 0x0, 1⟩
  | .CAL_PCTX => ⟨0x000F0050, 0x4, 4, 0x0, 1⟩
  | .CAL_PCTX4 => ⟨0x000F0060, 0x0, 1, 0x0, 1⟩
  | .CAL_PCTX5 => ⟨0x000F0064, 0x0, 1, 0x0, 1⟩
  | .CAL_PCTX6 => ⟨0x000F0068, 0x0, 1, 0x0, 1⟩
  | .CAL_LIVE => ⟨0x000F006C, 0x0, 1, 0x0, 1⟩
  | .CAL_RSTAT => ⟨0x000F0100, 0x8, 8, 0x0, 1⟩
  | .CAL_RVAL => ⟨0x000F0104, 0x8, 8, 0x0, 1⟩
  | .CAL_CHQ => ⟨0x000F0200, 0x4, 96, 0x0, 1⟩
  | .CAC_CFG => ⟨0x00100000, 0x10, 32, 0x0, 1⟩
  | .CAC_NET => ⟨0x00100004, 0x10, 32, 0x0, 1⟩
  | .CAC_SEL => ⟨0x00100008, 0x10, 32, 0x0, 1⟩
  | .CAC_STAT => ⟨0x0010000C, 0x10, 32, 0x0, 1⟩
  | .ASW_AX => ⟨0x00110000, 0x4, 32, 0x0, 1⟩
  | .ASW_MTAP => ⟨0x00110100, 0x4, 32, 0x0, 1⟩
  | .ASW_TRIP0 => ⟨0x00110200, 0x0, 1, 0x0, 1⟩
  | .ASW_TRIP1 => ⟨0x00110204, 0x0, 1, 0x0, 1⟩
  | .ASW_BREL0 => ⟨0x00110208, 0x0, 1, 0x0, 1⟩
  | .ASW_BREL1 => ⟨0x0011020C, 0x0, 1, 0x0, 1⟩
  | .ASW_CONFLICT => ⟨0x00110210, 0x0, 1, 0x0, 1⟩
  | .ASW_CNT => ⟨0x00110214, 0x0, 1, 0x0, 1⟩
  | .ASW_BSRC => ⟨0x00110300, 0x4, 64, 0x0, 1⟩
  | .CMP_CFG => ⟨0x00120000, 0x20, 48, 0x0, 1⟩
  | .CMP_TICK => ⟨0x00120004, 0x20, 48, 0x0, 1⟩
  | .CMP_THR => ⟨0x00120008, 0x20, 48, 0x0, 1⟩
  | .CMP_FILT => ⟨0x0012000C, 0x20, 48, 0x0, 1⟩
  | .CMP_STAT => ⟨0x00120010, 0x20, 48, 0x0, 1⟩
  | .CMP_EVCNT => ⟨0x00120014, 0x20, 48, 0x0, 1⟩
  | .CMP_WIN => ⟨0x00121000, 0x0, 1, 0x0, 1⟩
  | .CMP_WSTAT0 => ⟨0x00121004, 0x0, 1, 0x0, 1⟩
  | .CMP_WSTAT1 => ⟨0x00121008, 0x0, 1, 0x0, 1⟩
  | .CMP_WAKETICK => ⟨0x0012100C, 0x0, 1, 0x0, 1⟩
  | .CMP_OUT0 => ⟨0x00121010, 0x0, 1, 0x0, 1⟩
  | .CMP_OUT1 => ⟨0x00121014, 0x0, 1, 0x0, 1⟩
  | .MCV_CTRL => ⟨0x00130000, 0x80, 2, 0x0, 1⟩
  | .MCV_CFG => ⟨0x00130004, 0x80, 2, 0x0, 1⟩
  | .MCV_MASK0 => ⟨0x00130008, 0x80, 2, 0x0, 1⟩
  | .MCV_MASK1 => ⟨0x0013000C, 0x80, 2, 0x0, 1⟩
  | .MCV_TRIG => ⟨0x00130010, 0x80, 2, 0x0, 1⟩
  | .MCV_ITRIG => ⟨0x00130014, 0x80, 2, 0x0, 1⟩
  | .MCV_INJ => ⟨0x00130018, 0x80, 2, 0x0, 1⟩
  | .MCV_BUF => ⟨0x0013001C, 0x80, 2, 0x0, 1⟩
  | .MCV_BUFBASE => ⟨0x00130020, 0x80, 2, 0x0, 1⟩
  | .MCV_WIDX => ⟨0x00130024, 0x80, 2, 0x0, 1⟩
  | .MCV_RIDX => ⟨0x00130028, 0x80, 2, 0x0, 1⟩
  | .MCV_STAT => ⟨0x0013002C, 0x80, 2, 0x0, 1⟩
  | .MCV_TRIGOVR => ⟨0x00130030, 0x80, 2, 0x0, 1⟩
  | .MCV_DROPS => ⟨0x00130034, 0x80, 2, 0x0, 1⟩
  | .MCV_INJRES0 => ⟨0x00130038, 0x80, 2, 0x0, 1⟩
  | .MCV_INJRES1 => ⟨0x0013003C, 0x80, 2, 0x0, 1⟩
  | .MCV_WMARK => ⟨0x00130040, 0x80, 2, 0x0, 1⟩
  | .MCV_SYS => ⟨0x00130100, 0x0, 1, 0x0, 1⟩
  | .FAB_RCLK => ⟨0x00140000, 0x4, 16, 0x0, 1⟩
  | .FAB_SIMAP => ⟨0x00140040, 0x4, 16, 0x0, 1⟩
  | .FAB_SOMAP => ⟨0x00140080, 0x4, 16, 0x0, 1⟩
  | .FAB_SIDROP => ⟨0x001400C0, 0x4, 16, 0x0, 1⟩
  | .FAB_SOOVF => ⟨0x00140100, 0x4, 16, 0x0, 1⟩
  | .FAB_EVCFG => ⟨0x00140140, 0x4, 16, 0x0, 1⟩
  | .FAB_ACT => ⟨0x00140180, 0x4, 16, 0x0, 1⟩
  | .FAB_CODESTAT => ⟨0x001401C0, 0x0, 1, 0x0, 1⟩
  | .FAB_SNAPCTRL => ⟨0x00140200, 0x0, 1, 0x0, 1⟩
  | .FAB_SNAPTB => ⟨0x00140204, 0x0, 1, 0x0, 1⟩
  | .FAB_SNAPTBH => ⟨0x00140208, 0x0, 1, 0x0, 1⟩
  | .FAB_SNAPSTAT => ⟨0x0014020C, 0x0, 1, 0x0, 1⟩
  | .FAB_SNAPADDR => ⟨0x00140210, 0x0, 1, 0x0, 1⟩
  | .FAB_SNAPDATA => ⟨0x00140214, 0x0, 1, 0x0, 1⟩
  | .FAB_SNAPAT => ⟨0x00140218, 0x0, 1, 0x0, 1⟩
  | .FAB_SNAPATH => ⟨0x0014021C, 0x0, 1, 0x0, 1⟩
  | .RGN_STAT => ⟨0x00150000, 0x4, 16, 0x0, 1⟩
  | .RGN_ISOLATE => ⟨0x00150040, 0x0, 1, 0x0, 1⟩
  | .RGN_GAUNTLET => ⟨0x00150044, 0x0, 1, 0x0, 1⟩
  | .RGN_PSTAT => ⟨0x00150048, 0x0, 1, 0x0, 1⟩
  | .RGN_MMCNT => ⟨0x00150080, 0x4, 8, 0x0, 1⟩
  | .RGN_SIG => ⟨0x00150100, 0x4, 32, 0x0, 1⟩
  | .LAN_CTRL => ⟨0x00160000, 0x20, 12, 0x0, 1⟩
  | .LAN_STAT => ⟨0x00160004, 0x20, 12, 0x0, 1⟩
  | .LAN_FILL => ⟨0x00160008, 0x20, 12, 0x0, 1⟩
  | .LAN_PEAK => ⟨0x0016000C, 0x20, 12, 0x0, 1⟩
  | .LAN_DROP => ⟨0x00160010, 0x20, 12, 0x0, 1⟩
  | .LAN_TXCNT => ⟨0x00160014, 0x20, 12, 0x0, 1⟩
  | .LAN_TRUNC => ⟨0x00160018, 0x20, 12, 0x0, 1⟩
  | .LAN_QCFG => ⟨0x00160200, 0x10, 3, 0x0, 1⟩
  | .LAN_QSTAT => ⟨0x00160204, 0x10, 3, 0x0, 1⟩
  | .LAN_SOMAP => ⟨0x00160300, 0x4, 16, 0x0, 1⟩
  | .LAN_RXCFG => ⟨0x00160400, 0x0, 1, 0x0, 1⟩
  | .LAN_RXSTAT => ⟨0x00160404, 0x0, 1, 0x0, 1⟩
  | .TMP_TS => ⟨0x00170000, 0x4, 8, 0x0, 1⟩
  | .TMP_RAIL0 => ⟨0x00170020, 0x0, 1, 0x0, 1⟩
  | .TMP_RAIL1 => ⟨0x00170024, 0x0, 1, 0x0, 1⟩
  | .TMP_RAIL2 => ⟨0x00170028, 0x0, 1, 0x0, 1⟩
  | .TMP_RAIL3 => ⟨0x0017002C, 0x0, 1, 0x0, 1⟩
  | .TMP_STAT => ⟨0x00170030, 0x0, 1, 0x0, 1⟩
  | .TMP_LIMIT => ⟨0x00170034, 0x0, 1, 0x0, 1⟩
  | .TMP_MAX => ⟨0x00170038, 0x0, 1, 0x0, 1⟩

/-- The named fields of every register; bits outside them are reserved (R9). -/
def RegKind.fields : RegKind → List Fld
  | .SYS_KWIN => [SYS_KWIN_WORD]
  | .SYS_KWOUT => [SYS_KWOUT_WORD]
  | .SYS_KWSTAT => [SYS_KWSTAT_INFREE, SYS_KWSTAT_OUTWORDS, SYS_KWSTAT_READY, SYS_KWSTAT_SECURE,
      SYS_KWSTAT_LOCKOUT, SYS_KWSTAT_BUSY, SYS_KWSTAT_OVF, SYS_KWSTAT_UNDER]
  | .SYS_KWCTRL => [SYS_KWCTRL_RESYNC, SYS_KWCTRL_FLUSH]
  | .SYS_KWCNT => [SYS_KWCNT_CRC, SYS_KWCNT_TMO, SYS_KWCNT_SYNC, SYS_KWCNT_BADOP]
  | .SYS_DEVID => [SYS_DEVID_STEP, SYS_DEVID_PKG, SYS_DEVID_PART]
  | .SYS_STATUS => [SYS_STATUS_PAIRED, SYS_STATUS_CONFIGURED, SYS_STATUS_HPSEL]
  | .SYS_SERIAL => [SYS_SERIAL_SN]
  | .SYS_SERIALH => [SYS_SERIALH_SNH]
  | .SYS_FWVER => [SYS_FWVER_MINOR, SYS_FWVER_MAJOR]
  | .SYS_ACCERR => [SYS_ACCERR_COUNT, SYS_ACCERR_CAUSE, SYS_ACCERR_PATH]
  | .SYS_ACCADDR => [SYS_ACCADDR_ADDR]
  | .SYS_NOWNER => [SYS_NOWNER_COUNT, SYS_NOWNER_LASTRWL]
  | .SYS_PAGE => [SYS_PAGE_PAGE]
  | .PWR_STATE => [PWR_STATE_CUR, PWR_STATE_TGT, PWR_STATE_BUSY]
  | .PWR_REQ => [PWR_REQ_TGT]
  | .PWR_WAKECFG => [PWR_WAKECFG_CMP, PWR_WAKECFG_CAP, PWR_WAKECFG_RLOSS, PWR_WAKECFG_RLINE, PWR_WAKECFG_RHEAD,
      PWR_WAKECFG_RETURN]
  | .PWR_WAKESTAT => [PWR_WAKESTAT_SRC, PWR_WAKESTAT_DUR]
  | .PWR_DOMEN => [PWR_DOMEN_GRP, PWR_DOMEN_MEM, PWR_DOMEN_SER]
  | .PWR_DOMSTAT0 => [PWR_DOMSTAT0_ON]
  | .PWR_DOMSTAT1 => [PWR_DOMSTAT1_ON]
  | .PWR_PFAIL => [PWR_PFAIL_VCEN, PWR_PFAIL_VAEN, PWR_PFAIL_SRC, PWR_PFAIL_CNT]
  | .PWR_RSTCAUSE => [PWR_RSTCAUSE_CAUSE, PWR_RSTCAUSE_WARM]
  | .PWR_STARTERR => [PWR_STARTERR_STEP, PWR_STARTERR_REASON, PWR_STARTERR_TRIES]
  | .CLK_PLLSTAT => [CLK_PLLSTAT_LOCK, CLK_PLLSTAT_LOSS]
  | .CLK_REFSTAT => [CLK_REFSTAT_REFOK, CLK_REFSTAT_REFLOST, CLK_REFSTAT_HOLDOVER, CLK_REFSTAT_LOSSCNT]
  | .CFG_STATUS => [CFG_STATUS_STATE, CFG_STATUS_GOLDEN, CFG_STATUS_ENC, CFG_STATUS_KEYSEL, CFG_STATUS_PLOAD,
      CFG_STATUS_REASON, CFG_STATUS_PREASON]
  | .CFG_TIMEOUT => [CFG_TIMEOUT_MS]
  | .CFG_WAITTMO => [CFG_WAITTMO_MS]
  | .CFG_GOLDADDR => [CFG_GOLDADDR_ADDR]
  | .CFG_RETRY => [CFG_RETRY_COUNT, CFG_RETRY_CLR]
  | .CFG_IMAGEID => [CFG_IMAGEID_ID]
  | .CFG_BYTES => [CFG_BYTES_BYTES]
  | .CFG_FAILPOS => [CFG_FAILPOS_POS]
  | .CFG_FAILINFO => [CFG_FAILINFO_FRAME, CFG_FAILINFO_REGION, CFG_FAILINFO_VALID]
  | .CFG_STARTUP => [CFG_STARTUP_ORDER, CFG_STARTUP_NEXT]
  | .CFG_CHAIN => [CFG_CHAIN_DIV, CFG_CHAIN_FWD, CFG_CHAIN_CHAINERR]
  | .CFG_FIFOSTAT => [CFG_FIFOSTAT_FREE, CFG_FIFOSTAT_OVF, CFG_FIFOSTAT_DISC]
  | .CFG_FUSE => [CFG_FUSE_FORCE_ENC, CFG_FUSE_FKEY, CFG_FUSE_BKEY, CFG_FUSE_BFQUAD]
  | .CFG_FIFO => [CFG_FIFO_WORD]
  | .SCB_CTRL => [SCB_CTRL_EN, SCB_CTRL_ESCALATE, SCB_CTRL_DBEACT, SCB_CTRL_RESTART]
  | .SCB_GAP => [SCB_GAP_GAP]
  | .SCB_SWEEP_LIMIT => [SCB_SWEEP_LIMIT_MS]
  | .SCB_STAT => [SCB_STAT_STATE, SCB_STAT_CLEAN, SCB_STAT_MISS, SCB_STAT_DEVDBE, SCB_STAT_SELFERR]
  | .SCB_POS => [SCB_POS_FRAME, SCB_POS_SWEEPS]
  | .SCB_SWEEPTIME => [SCB_SWEEPTIME_US]
  | .SCB_CNT => [SCB_CNT_SBE, SCB_CNT_UNC]
  | .SCB_CNT2 => [SCB_CNT2_CWFIX]
  | .SCB_SELFCNT => [SCB_SELFCNT_VOTE, SCB_SELFCNT_RAMSBE, SCB_SELFCNT_MISS]
  | .SCB_LASTERR => [SCB_LASTERR_FRAME, SCB_LASTERR_BIT, SCB_LASTERR_KIND, SCB_LASTERR_VALID]
  | .SCB_RELOADREQ => [SCB_RELOADREQ_REGION]
  | .SCB_INJECT => [SCB_INJECT_FRAME, SCB_INJECT_BIT, SCB_INJECT_GO]
  | .MEM_BCTRL => [MEM_BCTRL_MSTART, MEM_BCTRL_MMODE, MEM_BCTRL_MSTOP]
  | .MEM_BSTAT => [MEM_BSTAT_STATE, MEM_BSTAT_RESULT, MEM_BSTAT_DEGRADED, MEM_BSTAT_SPUSED, MEM_BSTAT_SPRET,
      MEM_BSTAT_FCOLS, MEM_BSTAT_COLFAULT]
  | .MEM_WGT => [MEM_WGT_P0MGT, MEM_WGT_P0RGN, MEM_WGT_P1LW, MEM_WGT_P1MCV, MEM_WGT_P1RGN]
  | .MEM_ECCCNT => [MEM_ECCCNT_SBE, MEM_ECCCNT_DBE]
  | .MEM_ERRADDR => [MEM_ERRADDR_WORD, MEM_ERRADDR_SRC, MEM_ERRADDR_RPORT, MEM_ERRADDR_VALID]
  | .MEM_COLLCNT => [MEM_COLLCNT_RW, MEM_COLLCNT_WW]
  | .MEM_ROWMAP0 => [MEM_ROWMAP0_ROW0, MEM_ROWMAP0_ROW1, MEM_ROWMAP0_V0, MEM_ROWMAP0_V1]
  | .MEM_ROWMAP1 => [MEM_ROWMAP1_ROW2, MEM_ROWMAP1_ROW3, MEM_ROWMAP1_V2, MEM_ROWMAP1_V3]
  | .MEM_MARCHRES => [MEM_MARCHRES_ROWS, MEM_MARCHRES_FIRST, MEM_MARCHRES_FIRSTV]
  | .MEM_WBCNT => [MEM_WBCNT_SKIP]
  | .MEM_RQDROP => [MEM_RQDROP_MP0, MEM_RQDROP_MP1]
  | .MEM_SPECC => [MEM_SPECC_SBE, MEM_SPECC_DBE]
  | .MEM_SPERR => [MEM_SPERR_TILE, MEM_SPERR_WORD, MEM_SPERR_VALID]
  | .MEM_MCFG => [MEM_MCFG_MARCH_COLD, MEM_MCFG_WARM_MARCH]
  | .EVQ_HEAD => [EVQ_HEAD_HEAD]
  | .EVQ_TAIL => [EVQ_TAIL_TAIL]
  | .EVQ_CTRL => [EVQ_CTRL_HOSTSLEEP]
  | .EVQ_SIZE => [EVQ_SIZE_SIZE]
  | .EVQ_BASE => [EVQ_BASE_BASE]
  | .EVQ_LOST => [EVQ_LOST_LOST]
  | .EVQ_STAT => [EVQ_STAT_FILL, EVQ_STAT_IRQ, EVQ_STAT_WAKE, EVQ_STAT_SEQ]
  | .EVQ_CNT => [EVQ_CNT_VOIDS, EVQ_CNT_LOSTTOT]
  | .GPIO_CFG => [GPIO_CFG_MODE, GPIO_CFG_FUNC, GPIO_CFG_FUNC2, GPIO_CFG_SEL, GPIO_CFG_OWN, GPIO_CFG_OREG]
  | .GPIO_PAD => [GPIO_PAD_DRV, GPIO_PAD_SLEW, GPIO_PAD_PULL, GPIO_PAD_OD, GPIO_PAD_SCHMITT, GPIO_PAD_INV,
      GPIO_PAD_SLP]
  | .GPIO_MOUT => [GPIO_MOUT_VAL, GPIO_MOUT_MASK]
  | .GPIO_MOE => [GPIO_MOE_VAL, GPIO_MOE_MASK]
  | .GPIO_IN => [GPIO_IN_PAD]
  | .HCP_CTRL => [HCP_CTRL_EN, HCP_CTRL_HCKMODE, HCP_CTRL_HSPPOL, HCP_CTRL_HLEDPOL, HCP_CTRL_LEDMODE]
  | .HCP_HCKPH => [HCP_HCKPH_ADV, HCP_HCKPH_HIGH, HCP_HCKPH_HSPDLY, HCP_HCKPH_HSPW]
  | .HCP_HCKFREQ => [HCP_HCKFREQ_FREQ]
  | .HCP_LEDDLY => [HCP_LEDDLY_DLY]
  | .HCP_LEDWID => [HCP_LEDWID_WID]
  | .HCP_LEDADV => [HCP_LEDADV_ADV]
  | .HCP_CTRSET => [HCP_CTRSET_C]
  | .HCP_TSTAT => [HCP_TSTAT_BUSY, HCP_TSTAT_LEDON, HCP_TSTAT_CLIP]
  | .HCP_ELEC => [HCP_ELEC_DRV, HCP_ELEC_SLEW, HCP_ELEC_LVDSSW]
  | .HCP_AUX => [HCP_AUX_FUNC, HCP_AUX_OUT, HCP_AUX_IN]
  | .HCP_TWCFG => [HCP_TWCFG_EN, HCP_TWCFG_RATE, HCP_TWCFG_GAPONLY, HCP_TWCFG_TMO]
  | .HCP_TWCMD => [HCP_TWCMD_ADDR, HCP_TWCMD_WLEN, HCP_TWCMD_RLEN, HCP_TWCMD_GO]
  | .HCP_TWDATA0 => [HCP_TWDATA0_D0]
  | .HCP_TWDATA1 => [HCP_TWDATA1_D1]
  | .HCP_TWSTAT => [HCP_TWSTAT_BUSY, HCP_TWSTAT_DONE, HCP_TWSTAT_NACK, HCP_TWSTAT_TIMEOUT, HCP_TWSTAT_STUCK,
      HCP_TWSTAT_NBYTES]
  | .ENC_CTRL => [ENC_CTRL_EN, ENC_CTRL_MODE, ENC_CTRL_INV, ENC_CTRL_IDX, ENC_CTRL_VWIN, ENC_CTRL_VSHIFT,
      ENC_CTRL_TERM, ENC_CTRL_LOSEVT]
  | .ENC_FILT => [ENC_FILT_ABW, ENC_FILT_ZW]
  | .ENC_STAT => [ENC_STAT_VALID, ENC_STAT_REV, ENC_STAT_STALLED, ENC_STAT_LOS, ENC_STAT_POSVALID,
      ENC_STAT_QERR, ENC_STAT_OVSP, ENC_STAT_RATE, ENC_STAT_IDXERR, ENC_STAT_LOSSEEN, ENC_STAT_IDXSEEN]
  | .ENC_POS => [ENC_POS_POS]
  | .ENC_POSH => [ENC_POSH_POSH]
  | .ENC_POSSET => [ENC_POSSET_VAL]
  | .ENC_POSSETH => [ENC_POSSETH_VALH, ENC_POSSETH_LOAD]
  | .ENC_VEL => [ENC_VEL_VEL]
  | .ENC_ERRCNT => [ENC_ERRCNT_QERRS, ENC_ERRCNT_OVSPS]
  | .ENC_CPR => [ENC_CPR_CPR]
  | .ENC_IDXTOL => [ENC_IDXTOL_TOL]
  | .ENC_RATEMAX => [ENC_RATEMAX_MAX]
  | .ENC_IDXPOS => [ENC_IDXPOS_IPOS]
  | .ENC_IDXPOSH => [ENC_IDXPOSH_IPOSH]
  | .ENC_STALL => [ENC_STALL_STALL]
  | .ENC_CAPCTRL => [ENC_CAPCTRL_SRC, ENC_CAPCTRL_EDGE, ENC_CAPCTRL_PSEL, ENC_CAPCTRL_EN, ENC_CAPCTRL_EVT,
      ENC_CAPCTRL_WAKE]
  | .ENC_CAPTS => [ENC_CAPTS_TS]
  | .ENC_CAPTSH => [ENC_CAPTSH_TSH]
  | .ENC_CAPPOS => [ENC_CAPPOS_POS]
  | .ENC_CAPPOSH => [ENC_CAPPOSH_POSH]
  | .ENC_CAPSTAT => [ENC_CAPSTAT_FILL, ENC_CAPSTAT_POP, ENC_CAPSTAT_OVF]
  | .LTG_CTRL => [LTG_CTRL_ARM, LTG_CTRL_SRC, LTG_CTRL_ENC, LTG_CTRL_REF, LTG_CTRL_OVR, LTG_CTRL_LOSS,
      LTG_CTRL_SWT]
  | .LTG_STAT => [LTG_STAT_RUNNING, LTG_STAT_REVERSE, LTG_STAT_SLOW, LTG_STAT_COASTING, LTG_STAT_HELD,
      LTG_STAT_STOPPED, LTG_STAT_GAPPEND]
  | .LTG_PITCH => [LTG_PITCH_PITCH]
  | .LTG_PITCHH => [LTG_PITCHH_PITCHH]
  | .LTG_ORIGIN => [LTG_ORIGIN_ORG]
  | .LTG_ORIGINH => [LTG_ORIGINH_ORGH]
  | .LTG_MINPER => [LTG_MINPER_MINPER]
  | .LTG_VMIN => [LTG_VMIN_VMIN]
  | .LTG_TIMERPER => [LTG_TIMERPER_PER]
  | .LTG_REARM => [LTG_REARM_HYS]
  | .LTG_COAST => [LTG_COAST_TIME]
  | .LTG_LINE => [LTG_LINE_LINE]
  | .LTG_TGT => [LTG_TGT_TGT]
  | .LTG_TGTH => [LTG_TGTH_TGTH]
  | .LTG_STRPOS => [LTG_STRPOS_SPOS]
  | .LTG_STRPOSH => [LTG_STRPOSH_SPOSH]
  | .LTG_OVRCNT => [LTG_OVRCNT_DROP, LTG_OVRCNT_DEFER]
  | .LTG_EVTCNT => [LTG_EVTCNT_STRETCH, LTG_EVTCNT_SKIP]
  | .LTG_MODECNT => [LTG_MODECNT_LATE, LTG_MODECNT_SLOW]
  | .LTG_CTROFS => [LTG_CTROFS_C]
  | .LTG_EFFMIN => [LTG_EFFMIN_EFF]
  | .LTG_TB => [LTG_TB_TB]
  | .LTG_TBH => [LTG_TBH_TBH]
  | .LTG_TBSET => [LTG_TBSET_SET]
  | .LTG_TBSETH => [LTG_TBSETH_SETH]
  | .LTG_TBCTRL => [LTG_TBCTRL_LOAD, LTG_TBCTRL_RING, LTG_TBCTRL_SLEPT]
  | .ZLK_CTRL => [ZLK_CTRL_EN, ZLK_CTRL_ROLE, ZLK_CTRL_ID, ZLK_CTRL_TRACK, ZLK_CTRL_AUTOREV, ZLK_CTRL_START]
  | .ZLK_STAT => [ZLK_STAT_ROLE, ZLK_STAT_PHASE, ZLK_STAT_ACTIVE, ZLK_STAT_PRIOK, ZLK_STAT_REVOK,
      ZLK_STAT_LOCKED, ZLK_STAT_HOP, ZLK_STAT_MASTERID, ZLK_STAT_ERR, ZLK_STAT_TAKEOVER, ZLK_STAT_ISLANDSEEN,
      ZLK_STAT_TBSTEP]
  | .ZLK_ISLAND => [ZLK_ISLAND_MODE, ZLK_ISLAND_ENC]
  | .ZLK_TXHEAD => [ZLK_TXHEAD_MASK]
  | .ZLK_POSSRC => [ZLK_POSSRC_PORT, ZLK_POSSRC_EN]
  | .ZLK_LOOPLAT => [ZLK_LOOPLAT_PRI, ZLK_LOOPLAT_REV]
  | .ZLK_OFSP => [ZLK_OFSP_OFS]
  | .ZLK_OFSR => [ZLK_OFSR_OFS]
  | .ZLK_ASYM => [ZLK_ASYM_PRI, ZLK_ASYM_REV]
  | .ZLK_ALIVE => [ZLK_ALIVE_MASK]
  | .ZLK_LOCKMASK => [ZLK_LOCKMASK_MASK]
  | .ZLK_RPOS => [ZLK_RPOS_POS]
  | .ZLK_RPOSH => [ZLK_RPOSH_POSH]
  | .ZLK_TBERR => [ZLK_TBERR_ERR]
  | .ZLK_ERRCNT => [ZLK_ERRCNT_HDR, ZLK_ERRCNT_SLOT]
  | .ZLK_LINECNT => [ZLK_LINECNT_LOST, ZLK_LINECNT_LATE]
  | .ZLK_BRKCNT => [ZLK_BRKCNT_TAKEOVER, ZLK_BRKCNT_ISLAND]
  | .ZLK_STARTTMO => [ZLK_STARTTMO_TMO]
  | .AFE_CH => [AFE_CH_EN, AFE_CH_INMODE, AFE_CH_TERM, AFE_CH_SAMP, AFE_CH_POL, AFE_CH_TRNG, AFE_CH_TRIMEN,
      AFE_CH_CLPMODE, AFE_CH_FILT, AFE_CH_SKEW]
  | .AFE_STAT => [AFE_STAT_CLPRAIL, AFE_STAT_OVRIN, AFE_STAT_OVRTRIM, AFE_STAT_OVRCODE, AFE_STAT_CLPWINERR,
      AFE_STAT_CLPSAT]
  | .AFE_PGA => [AFE_PGA_GAIN]
  | .AFE_CLP => [AFE_CLP_VAL]
  | .AFE_CLPWIN => [AFE_CLPWIN_FIRST, AFE_CLPWIN_CNT, AFE_CLPWIN_STEP]
  | .AFE_CLPTGT => [AFE_CLPTGT_TGT]
  | .AFE_OVRCNT => [AFE_OVRCNT_PIX, AFE_OVRCNT_LINES]
  | .AFE_LEGCAL => [AFE_LEGCAL_OFS, AFE_LEGCAL_GAIN]
  | .AFE_HTIM => [AFE_HTIM_HLEAD, AFE_HTIM_RADV]
  | .AFE_HNPIX => [AFE_HNPIX_NPIX]
  | .AFE_HSTAT => [AFE_HSTAT_PHCHG, AFE_HSTAT_GRID]
  | .AFE_SCANCTRL => [AFE_SCANCTRL_CH, AFE_SCANCTRL_PIX, AFE_SCANCTRL_START, AFE_SCANCTRL_STOP,
      AFE_SCANCTRL_BUSY, AFE_SCANCTRL_DONE, AFE_SCANCTRL_ABORT]
  | .AFE_SCANDATA => [AFE_SCANDATA_CODE, AFE_SCANDATA_IDX]
  | .CNV_SOFS => [CNV_SOFS_OFS]
  | .CNV_SGAIN => [CNV_SGAIN_GAIN]
  | .CNV_SAPT => [CNV_SAPT_APT]
  | .CNV_SQUAL => [CNV_SQUAL_RESID, CNV_SQUAL_SPUR]
  | .CNV_SSTAT => [CNV_SSTAT_ACTIVE, CNV_SSTAT_COVERED, CNV_SSTAT_FAILED]
  | .CNV_DBL => [CNV_DBL_PAIR]
  | .CNV_MIT => [CNV_MIT_STATE, CNV_MIT_SLICE, CNV_MIT_LINES]
  | .CNV_MITCNT => [CNV_MITCNT_PASS, CNV_MITCNT_MEAN, CNV_MITCNT_RMS]
  | .CNV_MITCFG0 => [CNV_MITCFG0_EQMEAN, CNV_MITCFG0_EQRMS, CNV_MITCFG0_EQPK]
  | .CNV_MITCFG1 => [CNV_MITCFG1_EQLINES, CNV_MITCFG1_IDLE]
  | .PCU_HCFG => [PCU_HCFG_BYPASS, PCU_HCFG_BIN, PCU_HCFG_STEN, PCU_HCFG_STREC]
  | .PCU_ROUTE => [PCU_ROUTE_REGION, PCU_ROUTE_EN, PCU_ROUTE_DATA]
  | .PCU_LROUTE => [PCU_LROUTE_LANE, PCU_LROUTE_EN, PCU_LROUTE_DATA, PCU_LROUTE_STATS]
  | .PCU_STWIN => [PCU_STWIN_FIRST, PCU_STWIN_LAST]
  | .PCU_STLINE => [PCU_STLINE_LINE]
  | .PCU_STMIN => [PCU_STMIN_MIN]
  | .PCU_STMAX => [PCU_STMAX_MAX]
  | .PCU_STSUM => [PCU_STSUM_SUM]
  | .PCU_STCNT => [PCU_STCNT_CNT]
  | .PCU_LWCTRL => [PCU_LWCTRL_EN, PCU_LWCTRL_BANK, PCU_LWCTRL_DATA, PCU_LWCTRL_DEPTH]
  | .PCU_LWBASE => [PCU_LWBASE_BASE]
  | .PCU_LWIDX => [PCU_LWIDX_SLOT, PCU_LWIDX_LINE]
  | .PCU_WIN => [PCU_WIN_BASE, PCU_WIN_LEN]
  | .PCU_GSTAT => [PCU_GSTAT_STAGED, PCU_GSTAT_STALLS]
  | .PCU_ECCCNT => [PCU_ECCCNT_SBE, PCU_ECCCNT_DBE]
  | .PCU_DROPCNT => [PCU_DROPCNT_STREAM, PCU_DROPCNT_WRITER]
  | .PCU_HSEL => [PCU_HSEL_HEAD, PCU_HSEL_BIN, PCU_HSEL_LATCH]
  | .PCU_HDATA => [PCU_HDATA_BINS]
  | .PCU_TSYNC => [PCU_TSYNC_HEADS]
  | .CAL_CTRL => [CAL_CTRL_TRIG, CAL_CTRL_SUSPEND]
  | .CAL_STAT => [CAL_STAT_BUSY, CAL_STAT_DUE, CAL_STAT_STORING, CAL_STAT_REFMOVED, CAL_STAT_STOREFAIL,
      CAL_STAT_NOSTORE, CAL_STAT_SLEWING]
  | .CAL_TRIG_DT => [CAL_TRIG_DT_DT]
  | .CAL_SLEW => [CAL_SLEW_SL]
  | .CAL_CTX_WIN0 => [CAL_CTX_WIN0_DT, CAL_CTX_WIN0_DVANA]
  | .CAL_CTX_WIN1 => [CAL_CTX_WIN1_DACT, CAL_CTX_WIN1_DCH, CAL_CTX_WIN1_DCLK, CAL_CTX_WIN1_DRATE]
  | .CAL_DARK_MAX => [CAL_DARK_MAX_MEAN, CAL_DARK_MAX_SPREAD]
  | .CAL_FLAT_LIM => [CAL_FLAT_LIM_SAT, CAL_FLAT_LIM_MIN, CAL_FLAT_LIM_UNIF]
  | .CAL_DARKCFG => [CAL_DARKCFG_LINES, CAL_DARKCFG_LIGHT, CAL_DARKCFG_PASSES, CAL_DARKCFG_TRIMLEARN,
      CAL_DARKCFG_TOFS, CAL_DARKCFG_BLACK]
  | .CAL_FLATCFG => [CAL_FLATCFG_LINES, CAL_FLATCFG_MODE, CAL_FLATCFG_AUTODEF, CAL_FLATCFG_OUTX, CAL_FLATCFG_TGT]
  | .CAL_AFECFG => [CAL_AFECFG_BLKTOL]
  | .CAL_STORECFG => [CAL_STORECFG_AUTO, CAL_STORECFG_MININT, CAL_STORECFG_WEARMAX]
  | .CAL_STOREBASE => [CAL_STOREBASE_BASE]
  | .CAL_STORESTAT => [CAL_STORESTAT_PAIR, CAL_STORESTAT_NEXT, CAL_STORESTAT_VALID, CAL_STORESTAT_RETIRED]
  | .CAL_STORESEQ => [CAL_STORESEQ_SEQ]
  | .CAL_STALEH => [CAL_STALEH_HEAD]
  | .CAL_STALEG => [CAL_STALEG_SLICE, CAL_STALEG_REF, CAL_STALEG_CMP, CAL_STALEG_MCV, CAL_STALEG_CAC]
  | .CAL_PSEL => [CAL_PSEL_PART, CAL_PSEL_HEAD]
  | .CAL_PINFO => [CAL_PINFO_DIST, CAL_PINFO_PSTATE]
  | .CAL_PAGE => [CAL_PAGE_AGE]
  | .CAL_PCTX => [CAL_PCTX_T0, CAL_PCTX_T1]
  | .CAL_PCTX4 => [CAL_PCTX4_VANA, CAL_PCTX4_ACT, CAL_PCTX4_CH]
  | .CAL_PCTX5 => [CAL_PCTX5_FREQ]
  | .CAL_PCTX6 => [CAL_PCTX6_RATE]
  | .CAL_LIVE => [CAL_LIVE_ACT, CAL_LIVE_CH, CAL_LIVE_VANA]
  | .CAL_RSTAT => [CAL_RSTAT_HANDLE, CAL_RSTAT_STATUS, CAL_RSTAT_ITEM, CAL_RSTAT_STAT]
  | .CAL_RVAL => [CAL_RVAL_VAL]
  | .CAL_CHQ => [CAL_CHQ_TRES, CAL_CHQ_FRES]
  | .CAC_CFG => [CAC_CFG_FUNC, CAC_CFG_REFSEL, CAC_CFG_PKPOL, CAC_CFG_RSTSRC, CAC_CFG_RSTSEL, CAC_CFG_RST]
  | .CAC_NET => [CAC_NET_RA, CAC_NET_RB, CAC_NET_CA, CAC_NET_CB]
  | .CAC_SEL => [CAC_SEL_PBUS, CAC_SEL_NBUS, CAC_SEL_OBUS]
  | .CAC_STAT => [CAC_STAT_OFS, CAC_STAT_ILIM, CAC_STAT_RAIL]
  | .ASW_AX => [ASW_AX_BUS, ASW_AX_DIR]
  | .ASW_MTAP => [ASW_MTAP_BUS]
  | .ASW_TRIP0 => [ASW_TRIP0_BUS]
  | .ASW_TRIP1 => [ASW_TRIP1_BUS]
  | .ASW_BREL0 => [ASW_BREL0_BUS]
  | .ASW_BREL1 => [ASW_BREL1_BUS]
  | .ASW_CONFLICT => [ASW_CONFLICT_BUS, ASW_CONFLICT_OWNER, ASW_CONFLICT_OTHER, ASW_CONFLICT_CAUSE]
  | .ASW_CNT => [ASW_CNT_REFUSED, ASW_CNT_TRIPS]
  | .ASW_BSRC => [ASW_BSRC_SRC]
  | .CMP_CFG => [CMP_CFG_EN, CMP_CFG_INP, CMP_CFG_INN, CMP_CFG_POL, CMP_CFG_TSRC, CMP_CFG_THEAD, CMP_CFG_LMODE,
      CMP_CFG_STARTLVL, CMP_CFG_WAKE, CMP_CFG_EVT]
  | .CMP_TICK => [CMP_TICK_TICK]
  | .CMP_THR => [CMP_THR_TH, CMP_THR_HYS]
  | .CMP_FILT => [CMP_FILT_CLASS, CMP_FILT_MAJ, CMP_FILT_BMODE, CMP_FILT_BLK, CMP_FILT_EVMIN]
  | .CMP_STAT => [CMP_STAT_OUT, CMP_STAT_DEC, CMP_STAT_SETTLED, CMP_STAT_HELD, CMP_STAT_CLR, CMP_STAT_EDGESEEN]
  | .CMP_EVCNT => [CMP_EVCNT_EDGES, CMP_EVCNT_SUPP]
  | .CMP_WIN => [CMP_WIN_WEN]
  | .CMP_WSTAT0 => [CMP_WSTAT0_W]
  | .CMP_WSTAT1 => [CMP_WSTAT1_W]
  | .CMP_WAKETICK => [CMP_WAKETICK_PER]
  | .CMP_OUT0 => [CMP_OUT0_OUT]
  | .CMP_OUT1 => [CMP_OUT1_OUT]
  | .MCV_CTRL => [MCV_CTRL_EN, MCV_CTRL_IEN, MCV_CTRL_GO, MCV_CTRL_IGO, MCV_CTRL_SCANEVT, MCV_CTRL_WMEVT]
  | .MCV_CFG => [MCV_CFG_ACQ, MCV_CFG_IDLE, MCV_CFG_OVRMODE]
  | .MCV_MASK0 => [MCV_MASK0_MASK]
  | .MCV_MASK1 => [MCV_MASK1_MASK]
  | .MCV_TRIG => [MCV_TRIG_SRC, MCV_TRIG_SEL, MCV_TRIG_DLY]
  | .MCV_ITRIG => [MCV_ITRIG_SRC, MCV_ITRIG_SEL, MCV_ITRIG_DLY]
  | .MCV_INJ => [MCV_INJ_CH 0, MCV_INJ_CH 1, MCV_INJ_CH 2, MCV_INJ_CH 3, MCV_INJ_EN 0, MCV_INJ_EN 1,
      MCV_INJ_EN 2, MCV_INJ_EN 3]
  | .MCV_BUF => [MCV_BUF_BANK, MCV_BUF_SIZE]
  | .MCV_BUFBASE => [MCV_BUFBASE_BASE]
  | .MCV_WIDX => [MCV_WIDX_WIDX]
  | .MCV_RIDX => [MCV_RIDX_RIDX]
  | .MCV_STAT => [MCV_STAT_SCANBUSY, MCV_STAT_INJBUSY, MCV_STAT_INJPEND, MCV_STAT_PWR, MCV_STAT_CALBUSY,
      MCV_STAT_FULL, MCV_STAT_DMAERR, MCV_STAT_WM, MCV_STAT_SCANSEQ, MCV_STAT_INJSEQ, MCV_STAT_LAPS]
  | .MCV_TRIGOVR => [MCV_TRIGOVR_REG, MCV_TRIGOVR_INJ]
  | .MCV_DROPS => [MCV_DROPS_FULL, MCV_DROPS_DMA]
  | .MCV_INJRES0 => [MCV_INJRES0_R0, MCV_INJRES0_R1]
  | .MCV_INJRES1 => [MCV_INJRES1_R2, MCV_INJRES1_R3]
  | .MCV_WMARK => [MCV_WMARK_WMARK]
  | .MCV_SYS => [MCV_SYS_CONV]
  | .FAB_RCLK => [FAB_RCLK_FSEL]
  | .FAB_SIMAP => [FAB_SIMAP_HEAD 0, FAB_SIMAP_HEAD 1, FAB_SIMAP_HEAD 2, FAB_SIMAP_HEAD 3, FAB_SIMAP_EN 0,
      FAB_SIMAP_EN 1, FAB_SIMAP_EN 2, FAB_SIMAP_EN 3]
  | .FAB_SOMAP => [FAB_SOMAP_MSRC 0, FAB_SOMAP_MSRC 1, FAB_SOMAP_MSRC 2, FAB_SOMAP_MSRC 3, FAB_SOMAP_EDLY]
  | .FAB_SIDROP => [FAB_SIDROP_DROP, FAB_SIDROP_DISCARD]
  | .FAB_SOOVF => [FAB_SOOVF_WORDS]
  | .FAB_EVCFG => [FAB_EVCFG_EN, FAB_EVCFG_SUPP]
  | .FAB_ACT => [FAB_ACT_ACT]
  | .FAB_CODESTAT => [FAB_CODESTAT_REGION]
  | .FAB_SNAPCTRL => [FAB_SNAPCTRL_REGIONS, FAB_SNAPCTRL_TRIG, FAB_SNAPCTRL_HEAD, FAB_SNAPCTRL_FREEZE,
      FAB_SNAPCTRL_ARM, FAB_SNAPCTRL_RESUME, FAB_SNAPCTRL_CANCEL]
  | .FAB_SNAPTB => [FAB_SNAPTB_TB]
  | .FAB_SNAPTBH => [FAB_SNAPTBH_TBH]
  | .FAB_SNAPSTAT => [FAB_SNAPSTAT_ARMED, FAB_SNAPSTAT_DONE, FAB_SNAPSTAT_FROZEN]
  | .FAB_SNAPADDR => [FAB_SNAPADDR_TILE, FAB_SNAPADDR_CELL]
  | .FAB_SNAPDATA => [FAB_SNAPDATA_R, FAB_SNAPDATA_F, FAB_SNAPDATA_CTX, FAB_SNAPDATA_STEP]
  | .FAB_SNAPAT => [FAB_SNAPAT_TB]
  | .FAB_SNAPATH => [FAB_SNAPATH_TBH]
  | .RGN_STAT => [RGN_STAT_STATE, RGN_STAT_BRIM, RGN_STAT_SUSPECT, RGN_STAT_LOADFAIL, RGN_STAT_LOADS]
  | .RGN_ISOLATE => [RGN_ISOLATE_REGION]
  | .RGN_GAUNTLET => [RGN_GAUNTLET_POLICY, RGN_GAUNTLET_MMGAP]
  | .RGN_PSTAT => [RGN_PSTAT_SUSPA, RGN_PSTAT_SUSPB, RGN_PSTAT_CMPFAULT, RGN_PSTAT_SILENT]
  | .RGN_MMCNT => [RGN_MMCNT_LINES, RGN_MMCNT_SUPP]
  | .RGN_SIG => [RGN_SIG_SIG]
  | .LAN_CTRL => [LAN_CTRL_EN, LAN_CTRL_XOFFEN]
  | .LAN_STAT => [LAN_STAT_STATE, LAN_STAT_XOFF, LAN_STAT_DROPSEEN]
  | .LAN_FILL => [LAN_FILL_BYTES]
  | .LAN_PEAK => [LAN_PEAK_BYTES]
  | .LAN_DROP => [LAN_DROP_FULL, LAN_DROP_OFF]
  | .LAN_TXCNT => [LAN_TXCNT_PKTS]
  | .LAN_TRUNC => [LAN_TRUNC_TRUNC, LAN_TRUNC_OVERSIZE]
  | .LAN_QCFG => [LAN_QCFG_RATE, LAN_QCFG_BOND, LAN_QCFG_SWING, LAN_QCFG_EMPH]
  | .LAN_QSTAT => [LAN_QSTAT_LOCK, LAN_QSTAT_LOSS]
  | .LAN_SOMAP => [LAN_SOMAP_LANE 0, LAN_SOMAP_LANE 1, LAN_SOMAP_LANE 2, LAN_SOMAP_LANE 3, LAN_SOMAP_EN 0,
      LAN_SOMAP_EN 1, LAN_SOMAP_EN 2, LAN_SOMAP_EN 3]
  | .LAN_RXCFG => [LAN_RXCFG_EN0, LAN_RXCFG_EN1]
  | .LAN_RXSTAT => [LAN_RXSTAT_VALID0, LAN_RXSTAT_VALID1, LAN_RXSTAT_LOS0, LAN_RXSTAT_LOS1, LAN_RXSTAT_XOFF]
  | .TMP_TS => [TMP_TS_T, TMP_TS_VALID]
  | .TMP_RAIL0 => [TMP_RAIL0_VCORE, TMP_RAIL0_VMEM]
  | .TMP_RAIL1 => [TMP_RAIL1_VAUX, TMP_RAIL1_VANL]
  | .TMP_RAIL2 => [TMP_RAIL2_VANA, TMP_RAIL2_VBAT]
  | .TMP_RAIL3 => [TMP_RAIL3_VSER09, TMP_RAIL3_VSER12]
  | .TMP_STAT => [TMP_STAT_TSEQ, TMP_STAT_RSEQ, TMP_STAT_OVT, TMP_STAT_STALE]
  | .TMP_LIMIT => [TMP_LIMIT_HI]
  | .TMP_MAX => [TMP_MAX_MAX]

/-- The registers of block `n` (R423). -/
def blockKinds : Nat → List RegKind
  | 0x00 => [.SYS_KWIN, .SYS_KWOUT, .SYS_KWSTAT, .SYS_KWCTRL, .SYS_KWCNT, .SYS_DEVID, .SYS_STATUS, .SYS_SERIAL,
      .SYS_SERIALH, .SYS_FWVER, .SYS_ACCERR, .SYS_ACCADDR, .SYS_NOWNER, .SYS_PAGE]
  | 0x01 => [.PWR_STATE, .PWR_REQ, .PWR_WAKECFG, .PWR_WAKESTAT, .PWR_DOMEN, .PWR_DOMSTAT0, .PWR_DOMSTAT1,
      .PWR_PFAIL, .PWR_RSTCAUSE, .PWR_STARTERR]
  | 0x02 => [.CLK_PLLSTAT, .CLK_REFSTAT]
  | 0x03 => [.CFG_STATUS, .CFG_TIMEOUT, .CFG_WAITTMO, .CFG_GOLDADDR, .CFG_RETRY, .CFG_IMAGEID, .CFG_BYTES,
      .CFG_FAILPOS, .CFG_FAILINFO, .CFG_STARTUP, .CFG_CHAIN, .CFG_FIFOSTAT, .CFG_FUSE, .CFG_FIFO]
  | 0x04 => [.SCB_CTRL, .SCB_GAP, .SCB_SWEEP_LIMIT, .SCB_STAT, .SCB_POS, .SCB_SWEEPTIME, .SCB_CNT, .SCB_CNT2,
      .SCB_SELFCNT, .SCB_LASTERR, .SCB_RELOADREQ, .SCB_INJECT]
  | 0x05 => [.MEM_BCTRL, .MEM_BSTAT, .MEM_WGT, .MEM_ECCCNT, .MEM_ERRADDR, .MEM_COLLCNT, .MEM_ROWMAP0,
      .MEM_ROWMAP1, .MEM_MARCHRES, .MEM_WBCNT, .MEM_RQDROP, .MEM_SPECC, .MEM_SPERR, .MEM_MCFG]
  | 0x06 => [.EVQ_HEAD, .EVQ_TAIL, .EVQ_CTRL, .EVQ_SIZE, .EVQ_BASE, .EVQ_LOST, .EVQ_STAT, .EVQ_CNT]
  | 0x07 => [.GPIO_CFG, .GPIO_PAD, .GPIO_MOUT, .GPIO_MOE, .GPIO_IN]
  | 0x08 => [.HCP_CTRL, .HCP_HCKPH, .HCP_HCKFREQ, .HCP_LEDDLY, .HCP_LEDWID, .HCP_LEDADV, .HCP_CTRSET,
      .HCP_TSTAT, .HCP_ELEC, .HCP_AUX, .HCP_TWCFG, .HCP_TWCMD, .HCP_TWDATA0, .HCP_TWDATA1, .HCP_TWSTAT]
  | 0x09 => [.ENC_CTRL, .ENC_FILT, .ENC_STAT, .ENC_POS, .ENC_POSH, .ENC_POSSET, .ENC_POSSETH, .ENC_VEL,
      .ENC_ERRCNT, .ENC_CPR, .ENC_IDXTOL, .ENC_RATEMAX, .ENC_IDXPOS, .ENC_IDXPOSH, .ENC_STALL, .ENC_CAPCTRL,
      .ENC_CAPTS, .ENC_CAPTSH, .ENC_CAPPOS, .ENC_CAPPOSH, .ENC_CAPSTAT]
  | 0x0A => [.LTG_CTRL, .LTG_STAT, .LTG_PITCH, .LTG_PITCHH, .LTG_ORIGIN, .LTG_ORIGINH, .LTG_MINPER, .LTG_VMIN,
      .LTG_TIMERPER, .LTG_REARM, .LTG_COAST, .LTG_LINE, .LTG_TGT, .LTG_TGTH, .LTG_STRPOS, .LTG_STRPOSH,
      .LTG_OVRCNT, .LTG_EVTCNT, .LTG_MODECNT, .LTG_CTROFS, .LTG_EFFMIN, .LTG_TB, .LTG_TBH, .LTG_TBSET,
      .LTG_TBSETH, .LTG_TBCTRL]
  | 0x0B => [.ZLK_CTRL, .ZLK_STAT, .ZLK_ISLAND, .ZLK_TXHEAD, .ZLK_POSSRC, .ZLK_LOOPLAT, .ZLK_OFSP, .ZLK_OFSR,
      .ZLK_ASYM, .ZLK_ALIVE, .ZLK_LOCKMASK, .ZLK_RPOS, .ZLK_RPOSH, .ZLK_TBERR, .ZLK_ERRCNT, .ZLK_LINECNT,
      .ZLK_BRKCNT, .ZLK_STARTTMO]
  | 0x0C => [.AFE_CH, .AFE_STAT, .AFE_PGA, .AFE_CLP, .AFE_CLPWIN, .AFE_CLPTGT, .AFE_OVRCNT, .AFE_LEGCAL,
      .AFE_HTIM, .AFE_HNPIX, .AFE_HSTAT, .AFE_SCANCTRL, .AFE_SCANDATA]
  | 0x0D => [.CNV_SOFS, .CNV_SGAIN, .CNV_SAPT, .CNV_SQUAL, .CNV_SSTAT, .CNV_DBL, .CNV_MIT, .CNV_MITCNT,
      .CNV_MITCFG0, .CNV_MITCFG1]
  | 0x0E => [.PCU_HCFG, .PCU_ROUTE, .PCU_LROUTE, .PCU_STWIN, .PCU_STLINE, .PCU_STMIN, .PCU_STMAX, .PCU_STSUM,
      .PCU_STCNT, .PCU_LWCTRL, .PCU_LWBASE, .PCU_LWIDX, .PCU_WIN, .PCU_GSTAT, .PCU_ECCCNT, .PCU_DROPCNT,
      .PCU_HSEL, .PCU_HDATA, .PCU_TSYNC]
  | 0x0F => [.CAL_CTRL, .CAL_STAT, .CAL_TRIG_DT, .CAL_SLEW, .CAL_CTX_WIN0, .CAL_CTX_WIN1, .CAL_DARK_MAX,
      .CAL_FLAT_LIM, .CAL_DARKCFG, .CAL_FLATCFG, .CAL_AFECFG, .CAL_STORECFG, .CAL_STOREBASE, .CAL_STORESTAT,
      .CAL_STORESEQ, .CAL_STALEH, .CAL_STALEG, .CAL_PSEL, .CAL_PINFO, .CAL_PAGE, .CAL_PCTX, .CAL_PCTX4,
      .CAL_PCTX5, .CAL_PCTX6, .CAL_LIVE, .CAL_RSTAT, .CAL_RVAL, .CAL_CHQ]
  | 0x10 => [.CAC_CFG, .CAC_NET, .CAC_SEL, .CAC_STAT]
  | 0x11 => [.ASW_AX, .ASW_MTAP, .ASW_TRIP0, .ASW_TRIP1, .ASW_BREL0, .ASW_BREL1, .ASW_CONFLICT, .ASW_CNT,
      .ASW_BSRC]
  | 0x12 => [.CMP_CFG, .CMP_TICK, .CMP_THR, .CMP_FILT, .CMP_STAT, .CMP_EVCNT, .CMP_WIN, .CMP_WSTAT0,
      .CMP_WSTAT1, .CMP_WAKETICK, .CMP_OUT0, .CMP_OUT1]
  | 0x13 => [.MCV_CTRL, .MCV_CFG, .MCV_MASK0, .MCV_MASK1, .MCV_TRIG, .MCV_ITRIG, .MCV_INJ, .MCV_BUF,
      .MCV_BUFBASE, .MCV_WIDX, .MCV_RIDX, .MCV_STAT, .MCV_TRIGOVR, .MCV_DROPS, .MCV_INJRES0, .MCV_INJRES1,
      .MCV_WMARK, .MCV_SYS]
  | 0x14 => [.FAB_RCLK, .FAB_SIMAP, .FAB_SOMAP, .FAB_SIDROP, .FAB_SOOVF, .FAB_EVCFG, .FAB_ACT, .FAB_CODESTAT,
      .FAB_SNAPCTRL, .FAB_SNAPTB, .FAB_SNAPTBH, .FAB_SNAPSTAT, .FAB_SNAPADDR, .FAB_SNAPDATA, .FAB_SNAPAT,
      .FAB_SNAPATH]
  | 0x15 => [.RGN_STAT, .RGN_ISOLATE, .RGN_GAUNTLET, .RGN_PSTAT, .RGN_MMCNT, .RGN_SIG]
  | 0x16 => [.LAN_CTRL, .LAN_STAT, .LAN_FILL, .LAN_PEAK, .LAN_DROP, .LAN_TXCNT, .LAN_TRUNC, .LAN_QCFG,
      .LAN_QSTAT, .LAN_SOMAP, .LAN_RXCFG, .LAN_RXSTAT]
  | 0x17 => [.TMP_TS, .TMP_RAIL0, .TMP_RAIL1, .TMP_RAIL2, .TMP_RAIL3, .TMP_STAT, .TMP_LIMIT, .TMP_MAX]
  | _ => []

/-- Address of element `i` of a register. -/
def regAddr (k : RegKind) (i : Nat) : Nat :=
  k.place.base + k.place.ostr * (i / k.place.icnt) + k.place.istr * (i % k.place.icnt)

/-- How many elements a register has. -/
def regCount (k : RegKind) : Nat := k.place.ocnt * k.place.icnt

/-- The element of `k` at an address, if the address is one of its places. -/
def regIndexAt (k : RegKind) (a : Nat) : Option Nat :=
  let p := k.place
  let off := a - p.base
  let o := if p.ostr = 0 then 0 else off / p.ostr
  let r := if p.ostr = 0 then off else off % p.ostr
  let j := if p.istr = 0 then 0 else r / p.istr
  let i := o * p.icnt + j
  if p.base ≤ a ∧ o < p.ocnt ∧ j < p.icnt ∧ regAddr k i = a then some i else none

/-- The register an address names, with its element; none for a hole (R5, R423). -/
def decodeAddr (a : Nat) : Option (RegKind × Nat) :=
  (blockKinds (a / 0x10000)).findSome? (fun k => (regIndexAt k a).map (fun i => (k, i)))

/-- Reset column of one field of element `i`; `PCU.WIN[c].BASE` is 1,024 × (c mod 12). -/
def Fld.rstAt (f : Fld) (i : Nat) : Nat :=
  if f = PCU_WIN_BASE then 1024 * (i % 12) else f.rst

/-- Reset value of a whole register. -/
def regReset (k : RegKind) (i : Nat) : BitVec 32 :=
  BitVec.ofNat 32 (k.fields.foldl (fun acc f => acc + f.rstAt i * 2 ^ f.lsb) 0)

/-- Where the value of element `i` of a register is kept. -/
def regKey (k : RegKind) (i : Nat) : Nat := k.ctorIdx * 65536 + i

end Sys2Proof.Machine
end

