-- ==== Sys2Proof/Machine/Tab.lean ====
section
/-! DEFINITION. Finite maps as plain data: keyed entries, keys rising, one entry a key. An unlisted key reads as its
default, and writing the default removes the entry, so equal maps are equal data. -/

namespace Sys2Proof.Machine

/-- A finite map from numbers. -/
abbrev Tab (α : Type) := List (Nat × α)

/-- The entry of a key, if listed. -/
def tfind {α : Type} : Tab α → Nat → Option α
  | [], _ => none
  | (a, x) :: r, k => if a = k then some x else tfind r k

/-- Put an entry before the first larger key. -/
def tinsert {α : Type} : Tab α → Nat → α → Tab α
  | [], k, v => [(k, v)]
  | (a, x) :: r, k, v => if k < a then (k, v) :: (a, x) :: r else (a, x) :: tinsert r k v

/-- Remove a key. -/
def terase {α : Type} (t : Tab α) (k : Nat) : Tab α := t.filter (fun e => decide (e.1 ≠ k))

/-- Read with a default. -/
def tget {α : Type} (t : Tab α) (dflt : α) (k : Nat) : α := (tfind t k).getD dflt

/-- Write with a default: the default is not listed. -/
def tset {α : Type} [DecidableEq α] (t : Tab α) (dflt : α) (k : Nat) (v : α) : Tab α :=
  if v = dflt then terase t k else tinsert (terase t k) k v

/-- The canonical form: keys strictly rising and no entry equal to its default. -/
def tcanon {α : Type} [DecidableEq α] (dflt : α) : Tab α → Bool
  | [] => true
  | (a, x) :: r => decide (x ≠ dflt) && r.all (fun e => decide (a < e.1)) && tcanon dflt r

end Sys2Proof.Machine
end

