-- ==== Sys2Proof/Machine/State.lean ====
section
/-! DEFINITION. The state of the block: everything the manual gives the machine, as plain data, and the state after
reset. Registers live in `Dev.regs` (one sparse map, an unlisted register reading as its Reset column); the structures
hold what the manual describes beside the registers. -/

namespace Sys2Proof.Machine


/-- Record kinds of R385. -/
inductive RecKind where
  | completion | aborted | level | edge | fault | void | overflow | telemetry | mismatch
deriving DecidableEq, Repr

/-- An event record on its way to the queue (R384). -/
structure EvRec where
  kind : RecKind
  source : Nat
  crown : Bool
  more : Bool
  value : Nat
  tb : Nat
deriving DecidableEq, Repr

/-- The four words of a queue slot (R384). -/
structure EvSlot where
  w0 : Nat
  w1 : Nat
  w2 : Nat
  w3 : Nat
deriving DecidableEq, Repr

/-- A LEVEL record the device tracks: its index and its source (R391). -/
structure EvLevel where
  index : Nat
  source : Nat
deriving DecidableEq, Repr

/-- The event queue beside its registers (R387 to R393). -/
structure Evq where
  inFlight : List EvRec
  slots : Tab EvSlot
  tracked : List EvLevel
  revoke : List EvLevel
  hirq : Bool
  hwake : Bool
deriving DecidableEq, Repr

def Evq.reset : Evq := ⟨[], [], [], [], false, false⟩

/-- A count of an encoder port: its timestamp and the position after it (R38). -/
structure Count where
  t : Nat
  p : Int
deriving DecidableEq, Repr

/-- An encoder port beside its registers (R30 to R40). -/
structure EncPort where
  a : Bool
  b : Bool
  z : Bool
  pos : Pos
  hist : List Count
  last8 : List Count
  before : Int
  v : Int
  lastNow : Nat
  zLow : Bool
  indexed : Bool
  indexAt : Int
  lossP : Int
  lossV : Int
  lossT : Nat
deriving DecidableEq, Repr

def EncPort.reset : EncPort := ⟨false, false, false, 0, [], [], 0, 0, 0, true, false, 0, 0, 0, 0⟩

/-- One FIFO entry of a capture unit (R60). -/
structure CapEntry where
  ts : Nat
  pos : Nat
deriving DecidableEq, Repr

/-- An issued line (R13, R52): its number, boundary, header position, marks, and the register values at its commit
point, of which the line-shadowed ones govern the line. -/
structure LineRec where
  num : Nat
  s : Nat
  pos : Int
  gap : Bool
  scan : Option Nat
  snap : Tab Word
deriving DecidableEq, Repr

/-- What a line header takes from its issue (R52): extrapolated position, velocity, instant, and whether a valid port
gave them. -/
structure IssueVals where
  p : Int
  v : Int
  t : Nat
  ok : Bool
deriving DecidableEq, Repr

/-- What a dependent LTG takes from its leader's line (R52, R57). -/
structure Leader where
  iv : IssueVals
  pos : Int
  c : Nat
  ring : Bool
deriving DecidableEq, Repr

/-- A line held under R56 until its event is issued. -/
structure Held where
  num : Nat
  s : Nat
  stretch : Bool
  leader : Option Leader
deriving DecidableEq, Repr

/-- A line-trigger generator beside its registers (R44 to R58). -/
structure Ltg where
  target : Int
  pitch : Nat
  pitchNew : Nat
  sPrev : Option Nat
  nominal : Nat
  held : Option Held
  pHi : Int
  noSkip : Bool
  coastFrom : Nat
  localRun : Bool
  prevSnap : Option (Tab Word)
  issued : List LineRec
deriving DecidableEq, Repr

def Ltg.reset : Ltg := ⟨0, 0x10000, 0x10000, none, 0, none, 0, false, 0, false, none, []⟩

/-- A strobe of a line: begin and end instants (R105). -/
structure Strobe where
  start : Nat
  stop : Nat
deriving DecidableEq, Repr

/-- A run of the HCK of a head (R91): rising edge j stands (64 j - `adv`) / 64 pixel periods after TB `s`, the period is that
of the frequency word `freq`, and HCK is high for `high` / 64 of it. -/
structure HckRun where
  s : Nat
  freq : Nat
  adv : Nat
  high : Nat
deriving DecidableEq, Repr

/-- A head-control port beside its registers (R91, R92, R105, R106): the last line boundary, the HCK that runs, the HSP pulse,
strobes to come, the last one and whether it is active; `dark` tells that the fired line holds HLED inactive (R149); `clock`
is the HCKFREQ in force since the last commit point of the head (R13, R93), at a cold start the register's reset value. The
fired line reads out from `readFrom` to `readTo` (R190), and its usable gap begins at `gapFrom` (R146). -/
structure Hcp where
  grid : Option (Nat × Nat)
  hck : Option HckRun
  hspFrom : Nat
  hspUntil : Nat
  strobes : List Strobe
  led : Option Strobe
  ledOn : Bool
  firedSinceArm : Bool
  dark : Bool
  readFrom : Nat
  readTo : Nat
  gapFrom : Nat
  clock : Nat
deriving DecidableEq, Repr

def Hcp.reset : Hcp := ⟨none, none, 0, 0, [], none, false, false, false, 0, 0, 0, HCP_HCKFREQ_FREQ.rst⟩

/-- The fields of a superframe header (R65). -/
structure RingHdr where
  dir : Nat
  phase : Nat
  rank : Nat
  mid : Nat
  hops : Nat
  sfn : Nat
  tb : Nat
  pos : Nat
  alive : Nat
  lockmask : Nat
  errf : Nat
deriving DecidableEq, Repr

/-- A slot message (R67). -/
inductive RingMsg where
  | idle
  | line (head num fire pos : Nat)
  | echo (target seq ring : Nat)
  | echoReply (id seq turn : Nat)
  | offset (target ring ofs : Nat)
  | start (tb lead : Nat)
deriving DecidableEq, Repr

/-- One ring input: consecutive valid headers, own headers while discovering, when the last valid one came, whether
it was lost and has not become valid again (R68), whether its last header had LOCKMASK equal to ALIVE (R70); the superframe
that passes, its arrival in 1/64 ns of own TB and of device time, the slots whose messages have been taken, and the ECHOes
that wait for an IDLE slot of this ring to be answered, by number and arrival (R67). -/
structure RingIn where
  run : Nat
  own : Nat
  lastNow : Nat
  lost : Bool
  full : Bool
  chars : List Nat
  at64 : Nat
  atDev : Int
  taken : Nat
  replies : List (Nat × Int)
deriving DecidableEq, Repr

/-- One pending or running echo (R71). -/
structure EchoOut where
  id : Nat
  ring : Nat
  seq : Nat
  tx : Nat
deriving DecidableEq, Repr

/-- Echo samples of one member and direction (R71). -/
structure EchoAcc where
  id : Nat
  ring : Nat
  count : Nat
  sum : Int
deriving DecidableEq, Repr

/-- Zoras ring beside its registers (R62 to R85). `out0` and `out1` are the characters of the superframe on ZO0 and ZO1, none
in electrical idle, and `outAt0` and `outAt1` when it left, in 1/64 ns of device time; `plan` and `sof` the slots of the
originator's superframe and the TB of its start. -/
structure Zlk where
  originating : Bool
  sfn : Nat
  pri : RingIn
  rev : RingIn
  startHandle : Option Nat
  startReq : Bool
  startNow : Nat
  errCode : Nat
  rejoin : Bool
  lockRun : Nat
  txLines : List RingMsg
  txMsgs : List RingMsg
  echoIdx : Nat
  echoes : List EchoOut
  accs : List EchoAcc
  out0 : List Nat
  out1 : List Nat
  outAt0 : Int
  outAt1 : Int
  plan : List RingMsg
  sof : Nat
  lastLine : Tab Nat
  recent : Tab (List (Nat × Nat))
  lateSeen : Tab Nat
  lastLinePos : Tab Int
  rpos : Nat
  diff : Option Int
  bothLost : Bool
  fine : Int
  sendNow : Option Nat
  startPend : Bool
  started : Bool
  rxLead : Nat
  abortCode : Nat
deriving DecidableEq, Repr

def RingIn.reset : RingIn := ⟨0, 0, 0, false, false, [], 0, 0, 0, []⟩

def Zlk.reset : Zlk :=
  { originating := false, sfn := 0, pri := .reset, rev := .reset, startHandle := none, startReq := false,
    startNow := 0, errCode := 0, rejoin := false, lockRun := 0, txLines := [], txMsgs := [], echoIdx := 0,
    echoes := [], accs := [], out0 := [], out1 := [], outAt0 := 0, outAt1 := 0, plan := [], sof := 0, lastLine := [],
    recent := [], lateSeen := [], lastLinePos := [], rpos := 0, diff := none, bothLost := false, fine := 0, sendNow := none,
    startPend := false, started := false, rxLead := 0, abortCode := 0 }

/-- The power state of the device (R348, R351, R353, R354). -/
inductive PState where
  | off | held | cold | halted | starting | run | hold | nap | sleep | waking | pfhold
deriving DecidableEq, Repr

/-- What asked for a power transition (R348); `silent` is the return of a wake (R350). -/
inductive PReq where
  | register
  | handle (h : Nat)
  | silent
deriving DecidableEq, Repr

/-- Power beside its registers (R344 to R357): the state; a transition's target with what asked for it; whether the firmware has booted; the keep decision of a warm start; RSTN low; a warm start asked for, with its cause
and when it begins; groups whose reload runs; handles of PWR_DOMAINS packets with the groups each still waits for; when the wake began; when REFCLK came
back; and TESTEN. -/
structure Pwr where
  st : PState
  trans : Option (Nat × PReq)
  booted : Bool
  keep : Bool
  rstn : Bool
  warmReq : Option (Nat × Nat)
  grpBusy : Nat
  domHandles : List (Nat × Nat)
  wakeNow : Nat
  refBack : Option Nat
  testen : Bool
deriving DecidableEq, Repr

def Pwr.reset : Pwr :=
  { st := .cold, trans := none, booted := false, keep := false, rstn := false, warmReq := none,
    grpBusy := 0, domHandles := [], wakeNow := 0, refBack := none, testen := false }

/-- A handle in use (R371, R374). -/
structure Handle where
  num : Nat
  opcode : Nat
  stopping : Bool
  tb : Nat
deriving DecidableEq, Repr

/-- The command mailbox beside its registers (R358 to R383). `owed` tells that the packet being interpreted has its writes made
and is answered when the last of them has been accepted (R18). -/
structure Kw where
  fifo : List (Nat × Nat)
  waiting : List Nat
  part : List Nat
  lastNow : Nat
  partNow : Nat
  owed : Bool
  cur : Option (List Nat)
  pend : List Nat
  out : List Nat
  secure : Bool
  lastPkt : Nat
  fails : Nat
  failNow : Option Nat
  lockout : Bool
  handles : List Handle
  lastHandle : Nat
  replyHandle : Nat
  telPeriod : Nat
  telContent : Nat
  telNext : Nat
deriving DecidableEq, Repr

def Kw.reset : Kw :=
  { fifo := [], waiting := [], part := [], lastNow := 0, partNow := 0, owed := false, cur := none, pend := [], out := [], secure := false,
    lastPkt := 0, fails := 0, failNow := none, lockout := false, handles := [], lastHandle := 0, replyHandle := 0, telPeriod := 0,
    telContent := 0, telNext := 0 }

/-- Slice coefficients (R116). -/
structure Coef where
  ofs : Int
  gain : Int
  apt : Int
deriving DecidableEq, Repr

/-- The mitten of a group beside its registers (R117 to R125): equality reached, new coefficients held aside, those that the
slice had before them, the limits taken at the start of the phase, and a rotation being given up. -/
structure Mitten where
  equal : Bool
  held : Option Coef
  old : Option Coef
  eqMean : Nat
  eqRms : Nat
  eqPk : Nat
  eqLines : Nat
  idleUs : Nat
  giveUp : Bool
deriving DecidableEq, Repr

def Mitten.reset : Mitten := ⟨false, none, none, 2, 24, 8, 8, 100, false⟩

/-- A table write held in the staging buffer or waiting for room (R128): `pct` tells the table, `idx` the entry, `chan` and
`line` the fetch on whose account it is held, `packet` that it is the management controller's. -/
structure TabWrite where
  pct : Bool
  idx : Nat
  chan : Option Nat
  line : Nat
  val : Nat
  packet : Bool
deriving DecidableEq, Repr

/-- The fetch of a line on a channel (R100, R128): the window in force at its commit point, the next entry, whether the PCT is
left out (R135), and the grid: pixel 0 is sampled `lead64` / 64 periods of the frequency word `freq` after TB `s`. -/
structure Fetch where
  line : Nat
  next : Nat
  base : Nat
  len : Nat
  bypass : Bool
  s : Nat
  lead64 : Nat
  freq : Nat
deriving DecidableEq, Repr

/-- A TSYNC copy of a head (R130): the windows as entry ranges, entries copied, and when it began. -/
structure TsyncRun where
  wins : List (Nat × Nat)
  next : Nat
  start : Nat
deriving DecidableEq, Repr

/-- The correction tables (R126 to R131): both copies, entries whose target is uncorrectable, staged and waiting writes, the
fetches in progress on a channel, oldest first, the window of a channel in force while its register is line-shadowed, TSYNC
copies, and by group the lines for which a FAULT has been posted. -/
structure Tables where
  pctT : Tab Nat
  pctL : Tab Nat
  pttT : Tab Nat
  pttL : Tab Nat
  badPct : List Nat
  badPtt : List Nat
  staged : List TabWrite
  waiting : List TabWrite
  fetch : Tab (List Fetch)
  wins : Tab Word
  tsync : Tab (Option TsyncRun)
  faultLine : Tab (List Nat)
deriving DecidableEq, Repr

def Tables.reset : Tables := ⟨[], [], [], [], [], [], [], [], [], [], [], []⟩

/-- A pixel of a line in progress: code x, corrected y, OVR and its PCT entry. -/
structure PixRec where
  x : Nat
  y : Nat
  ovr : Bool
  ent : Nat
deriving DecidableEq, Repr

/-- A line being converted: the PCT entries and trim codes that its fetch took, the pixels corrected, by channel the clamp
window, the flagged pixels and how many pixels have come from -HLEAD on, and its number in a phase scan (R111). -/
structure LineWork where
  line : LineRec
  ents : Tab Nat
  trims : Tab Nat
  came : Tab Nat
  scanJ : Option Nat
  px : Tab PixRec
  clampSum : Tab Nat
  clampCnt : Tab Nat
  ovrSeen : Tab Nat
  stale : Bool
  measured : Bool
  fired : Bool
deriving DecidableEq, Repr

/-- A statistics set (R137). -/
structure StatSet where
  line : Nat
  min : Nat
  max : Nat
  sum : Nat
  cnt : Nat
  hist : Tab Nat
deriving DecidableEq, Repr

def StatSet.reset : StatSet := ⟨0, 0xFFFF, 0, 0, 0, []⟩

/-- A delivered pixel: 16-bit value, flags and channel within the head (R140). -/
structure OutPix where
  val : Nat
  ovr : Bool
  defect : Bool
  edge : Bool
  chan : Nat
deriving DecidableEq, Repr

/-- A finished line on its way to a stream port or a lane (R139, R140). -/
structure LineOut where
  head : Nat
  num : Nat
  s : Nat
  pos : Int
  gap : Bool
  stale : Bool
  region : Option Nat
  lane : Option Nat
  stream : List OutPix
  packet : List OutPix
  laneData : Nat
  stats : StatSet
  streamRec : Bool
  data : Nat
  mask : Nat
  port : Option Nat
  laneStats : Bool
  bin : Nat
  npix : Nat
deriving DecidableEq, Repr

/-- The phase scan beside its registers (R111). -/
structure ScanState where
  results : Tab Nat
  next : Nat
  line : Nat
deriving DecidableEq, Repr

/-- The pixel path beside the registers. `caps` holds what the four hold capacitors of a channel hold and `legs` what its two
legs carry (R94, R99), in µV. -/
structure Pcu where
  tables : Tables
  caps : Tab Int
  legs : Tab Int
  mit : Tab Mitten
  work : Tab (List LineWork)
  stats : Tab StatSet
  hbuf : Tab Nat
  outs : List LineOut
  stride : Tab Nat
  slot : Tab Nat
  scan : ScanState
  lastFire : Tab Nat
  fired : Tab (List Nat)
deriving DecidableEq, Repr

def Pcu.reset : Pcu := ⟨.reset, [], [], [], [], [], [], [], [], [], ⟨[], 0, 0⟩, [], []⟩

/-- The load context of a part (R162). -/
structure Ctx where
  temps : List Int
  vana : Nat
  act : Nat
  ch : Nat
  freqs : List Nat
  rates : List Nat
  setup : List Nat
deriving DecidableEq, Repr

def Ctx.reset : Ctx := ⟨[], 0, 0, 0, [], [], []⟩

/-- A calibration part (R162, R163): 0 EMPTY, 1 VALID, 2 STALE; its distance, and the TB second at which it was taken (R167). -/
structure Part where
  state : Nat
  dist : Nat
  taken : Nat
  ctx : Ctx
deriving DecidableEq, Repr

def Part.reset : Part := ⟨0, 0, 0, .reset⟩

/-- A calibration command in progress (R158): its handle, kind, items left, and the first failing item. -/
structure CalCmd where
  handle : Nat
  kind : Nat
  left : List Nat
  bad : Option (Nat × Nat × Nat × Nat)
  val : Nat
  skipped : Nat
deriving DecidableEq, Repr

/-- A running calibration item: kind, item, whether a command owns it, phase (1: directly on the ladder), AFE steps taken, and
the line boundary before the gap of the last step (R146). -/
structure CalItem where
  kind : Nat
  item : Nat
  cmd : Bool
  phase : Nat
  steps : Nat
  gap : Option Nat
deriving DecidableEq, Repr

/-- A DARK or FLAT learn of a head (R148 to R152). Phases: 0 waiting for the live copy, 1 measuring, 2 waiting for the
second pass, 3 measuring the second pass, 4 waiting for the live trim, 5 last targets wait for a commit point, 6 targets
of the first pass wait for it, 7 trim codes wait for it. `newPct` holds the O of DARK or the G of FLAT, by entry; `newDef` the
entries that FLAT flags. -/
structure Learn where
  head : Nat
  kind : Nat
  phase : Nat
  left : Nat
  sum : Tab Nat
  cnt : Tab Nat
  ovr : Tab Nat
  sumX : Tab Nat
  lastNow : Nat
  cfg : Nat
  newPct : Tab Nat
  newDef : List Nat
  newPtt : Tab Nat
  trimOn : List Nat
  val : Nat
deriving DecidableEq, Repr

/-- A set of the calibration store (R165 to R168): its sequence number, the erase count of its pair, and what was in force when
it was written. -/
structure StorePair where
  seq : Nat
  erases : Nat
  pctT : Tab Nat
  pttT : Tab Nat
  parts : Tab Part
  regs : Tab Word
  ladder : List Nat
  cmpOfs : Tab Int
  cacOfs : Tab Int
  mcvCoef : Tab Coef
  trimLsb : Tab Nat
  pgaF : Tab Nat
deriving DecidableEq, Repr

def StorePair.reset : StorePair := ⟨0, 0, [], [], [], [], [], [], [], [], [], []⟩

/-- A store in progress (R168, R170): the first word of the store in the boot flash, the pair, and the snapshot. -/
structure StoreRun where
  base : Nat
  pair : Nat
  snap : StorePair
  handles : List Nat
  retry : Bool
deriving DecidableEq, Repr

/-- Calibration beside its registers (R142 to R172). `base` is the first word of the calibration store that the last start or store
used (CAL.STOREBASE). -/
structure Cal where
  cmds : List CalCmd
  items : List CalItem
  due : Tab Nat
  retryAt : Tab Nat
  lastTemps : Tab (List Int)
  learns : List Learn
  parts : Tab Part
  ladder : List Nat
  trimLsb : Tab Nat
  pgaF : Tab Nat
  legNew : Tab (Int × Int)
  cmpOfs : Tab Int
  cacOfs : Tab Int
  mcvCoef : Tab Coef
  skipSeen : Nat
  hkAt : Option Nat
  railAt : Option Nat
  store : Option StoreRun
  heldStore : Bool
  heldHandles : List Nat
  base : Nat
  changed : Bool
  lastStore : Nat
  hint : Option Nat
  temps : List Int
  vana : Nat
  act : Nat
  hkCodes : Tab Nat
  ser12 : Nat
  tempsAt : Nat
deriving DecidableEq, Repr

def Cal.reset : Cal :=
  { cmds := [], items := [], due := [], retryAt := [], lastTemps := [], learns := [], parts := [], ladder := [],
    trimLsb := [], pgaF := [], legNew := [], cmpOfs := [], cacOfs := [], mcvCoef := [], skipSeen := 0, hkAt := none, railAt := none, store := none,
    heldStore := false, heldHandles := [], base := CAL_STOREBASE_BASE.rst * 2 ^ 14, changed := false, lastStore := 0, hint := none, temps := [],
    vana := 0, act := 0, hkCodes := [], ser12 := 0, tempsAt := 0 }
/-- A comparator beside its registers (R186 to R194): decisions kept by the filter, newest first; the filter's level; a
hold that has ended; the threshold and hysteresis in force and the writes on their way to the DAC; the last tick and
the last record; the tick accumulator at the device time `since` (R187). -/
structure CmpUnit where
  hist : List Bool
  filt : Bool
  ended : Bool
  th : Nat
  hys : Nat
  thNew : List (Nat × Nat × Nat)
  lastTick : Option Nat
  lastRec : Option Nat
  phase : Nat
  since : Nat
deriving DecidableEq, Repr

def CmpUnit.reset : CmpUnit := ⟨[], false, false, 512, 0, [], none, none, 0, 0⟩

/-- The analogue section beside its registers (R174 to R197): when the switch of an endpoint closes, and the bus it stays on
until 20 ns before; until when the output switch of a cell is open and its reset pulse runs, the offset a cell subtracts, and
whether ANAREL has come; the state a window holds while one of its comparators is calibrated (R193); when SLEEP began. -/
structure Anx where
  closeAt : Tab Nat
  cutBus : Tab Nat
  cacOpen : Tab Nat
  cacRst : Tab Nat
  cacOfs : Tab Int
  released : Bool
  cmp : Tab CmpUnit
  winHeld : Tab Nat
  sleepAt : Nat
deriving DecidableEq, Repr

def Anx.reset : Anx := ⟨[], [], [], [], [], false, [], [], 0⟩

/-- What a conversion of a monitor converter serves (R204, R207, R209). -/
inductive ConvKind where
  | regular | injected | house
deriving DecidableEq, Repr

/-- A conversion of a monitor converter (R201): what it serves, its input, its injected slot, the RST flag, when it ends, in
1/8 ns, and whether the input read ground at the sample instant, once that has come (R200). -/
structure Conv where
  kind : ConvKind
  input : Nat
  slot : Nat
  rst : Bool
  ends : Nat
  disc : Option Bool
deriving DecidableEq, Repr

/-- A trigger on its way to a monitor converter (R203, R205): the first and the last ns of its instant t0, and whether the
converter was powered down then. -/
structure Trig where
  lo : Nat
  hi : Nat
  down : Bool
deriving DecidableEq, Repr

/-- A monitor converter beside its registers (R201 to R212): triggers on their way to the regular scan and the injected sequence;
the ends of delays and of the last conversion are in 1/8 ns. -/
structure Mcv where
  trigs : List Trig
  itrigs : List Trig
  due : Option Nat
  scan : Option (List Nat)
  injDue : Option Nat
  inj : Option (List Nat)
  queued : Bool
  run : Option Conv
  hk : List Nat
  lastEnd : Nat
  calPend : Bool
  restart : Bool
  rstNext : Bool
  dma : List (Nat × Nat × Nat)
deriving DecidableEq, Repr

def Mcv.reset : Mcv :=
  { trigs := [], itrigs := [], due := none, scan := none, injDue := none, inj := none, queued := false, run := none,
    hk := [], lastEnd := 0, calPend := false, restart := false, rstNext := false, dma := [] }

/-- A request to a bank (R273, R278). `id` names the place of a region's read among its returns; `last` tells the last
word of a line writer's line: its head, slot and line. -/
structure MemReq where
  who : Requester
  bank : Nat
  word : Nat
  write : Bool
  data : Nat
  id : Nat
  last : Option (Nat × Nat × Nat)
deriving DecidableEq, Repr

/-- A line that a line writer stores (R141): the words not yet requested. -/
structure LwJob where
  line : Nat
  slot : Nat
  bank : Nat
  word : Nat
  words : List Nat
deriving DecidableEq, Repr

/-- A read of a region port, in request order (R239, R280): whether its data have come, and the data. -/
structure MemRet where
  id : Nat
  ready : Bool
  data : Nat
  sbe : Bool
  dbe : Bool
  drop : Bool
deriving DecidableEq, Repr

/-- A march command (R289): its handle, the banks still marching, and those that ended DEGRADED. -/
structure MarchCmd where
  handle : Nat
  left : List Nat
  degraded : Nat
deriving DecidableEq, Repr

/-- A fill in progress (R377 MEM_FILL). -/
structure FillRun where
  handle : Nat
  bank : Nat
  next : Nat
  left : Nat
  pattern : Nat
  stop : Bool
deriving DecidableEq, Repr

/-- The banks beside their registers (R273 to R294): requests in order of issue, lines being stored, returns to the
regions, write-backs, arbiters, the last FAULT per bank and region, marches and fills, and the words stored with a wrong bit
(1) or two (2), by device address (R282, R283, R285). -/
structure Mem where
  reqs : List MemReq
  jobs : Tab (List LwJob)
  rets : Tab (List MemRet)
  wbq : Tab (List Nat)
  grant : Tab (Nat × Nat)
  faultNow : Tab Nat
  spFaultNow : Tab Nat
  byReg : Tab Nat
  marches : List MarchCmd
  fills : List FillRun
  errs : Tab Nat
deriving DecidableEq, Repr

def Mem.reset : Mem := ⟨[], [], [], [], [], [], [], [], [], [], []⟩

/-- Kinds of words on a stream port (R234). -/
inductive WordKind where
  | sol | data | stat | eol
deriving DecidableEq, Repr

/-- What the trigger path tells of a line on a stream port (R410): head, number, boundary, position, flags. -/
structure LineTag where
  head : Nat
  num : Nat
  s : Nat
  pos : Int
  gap : Bool
  stale : Bool
deriving DecidableEq, Repr

/-- A word or marker of a stream port; the first word of a line-start marker carries its line's tag. -/
structure FabWord where
  kind : WordKind
  val : Nat
  tag : Option LineTag
deriving DecidableEq, Repr

/-- A stream input port (R233 to R236): the words still to be presented, the word presented in the present cycle, and a
drop to be told. -/
structure SiPort where
  words : List FabWord
  now : Option FabWord
  pdrop : Bool
deriving DecidableEq, Repr

def SiPort.reset : SiPort := ⟨[], none, false⟩

/-- How the two halves of a pair differed in a line (R263, R267): not, on its output port, or on another signal. -/
inductive Mismatch where
  | none
  | port
  | other
deriving DecidableEq, Repr

/-- A stream output port (R237, R238): words taken but not yet queued, the queue, EOL words waiting out EDLY, the open
line with its payload so far, whether a word was lost, and when the first word of a FREE packet came (R412). For the compare
stage: the line that is being forwarded, its mismatch, a mark for the next line to open, the marks of the lines forwarded
whole (R263), the signature of the line that is entering the queue, those of the lines that have entered (R264), and the
policy in force for the open line (R266). -/
structure SoPort where
  pend : List FabWord
  queue : List FabWord
  eols : List (Nat × Nat)
  tag : Option LineTag
  words : List Nat
  ovf : Bool
  forwards : Bool
  mism : Mismatch
  markNext : Bool
  marks : List Mismatch
  crc : Nat
  signs : Bool
  sigs : List Nat
  pol : Nat
  firstNow : Nat
  firstTb : Nat
deriving DecidableEq, Repr

def SoPort.reset : SoPort := ⟨[], [], [], none, [], false, false, .none, false, [], 0xFFFFFFFF, false, [], 0, 0, 0⟩

/-- A line or packet that has left an output port (R237, R255, R265), on its way to the lane. -/
structure FabLine where
  region : Nat
  port : Nat
  tag : Option LineTag
  tb : Nat
  words : List Nat
  eol : Nat
  ovf : Bool
  trunc : Bool
  discard : Bool
  mismatch : Bool
  cyc : Mismatch
  sig : Nat
  pol : Nat
  verdict : Bool
deriving DecidableEq, Repr

/-- A memory request that a region has made and that has not reached its crossing (R239). -/
structure MpReq where
  write : Bool
  addr : Nat
  data : Nat
deriving DecidableEq, Repr

/-- What the compare stage of a pair lets through in a cycle (R262, R263): memory requests, cuff outputs, and event outputs
with their R and TB. -/
structure PairOut where
  mps : List (Option MpReq)
  cuffs : List (Nat × Nat)
  evs : List (Nat × Nat × Nat)
deriving DecidableEq, Repr

/-- A cuff of a pin (R241, R242): cycles to the next word, words on their way out with their cycles, the word or level
being sent, received words on their way in with their cycles, the readable word, the raw bits received last, the
boundary shift, a 1 on BITSLIP since the last word, and the instant the present word began to leave. -/
structure Cuff where
  left : Nat
  ser : List (Nat × Nat)
  out : Nat
  des : List (Nat × Nat)
  val : Nat
  prev : Nat
  slip : Nat
  slips : Bool
  since : Nat
deriving DecidableEq, Repr

def Cuff.reset : Cuff := ⟨0, [], 0, [], 0, 0, 0, false, 0⟩

/-- The word-cell fabric beside its registers (R215 to R269). Frames: payload, payload bits that differ from what was
written, check-word bits that differ, and known-bad marks (R328 to R332). Cells: R and F; products in their pipeline;
sequencer step and cycle; delayed control inputs; scratchpad read words; route registers; keepers; crossings. `gsr` and
`wen` tell which regions have passed those steps; `starts` when a region in
STARTING reaches DONE and whether a load brought it there; `brimFrames` the interface frames that govern a clamped brim;
`pairs` what is in the compare stage of a pair. -/
structure Fab where
  frames : Tab Nat
  upset : Tab Nat
  cwUpset : Tab Nat
  knownBad : List Nat
  cells : Tab (Nat × Bool)
  pipe : Tab (Option Nat)
  seq : Tab (Nat × Nat)
  tc : Tab Nat
  spa : Tab Nat
  spb : Tab Nat
  route : Tab Nat
  keep : Tab Nat
  cross : Tab (List Nat)
  brimHold : Tab Nat
  si : Tab SiPort
  so : Tab SoPort
  lines : List FabLine
  lb : List (Nat × Nat × Nat)
  lbNow : Tab Nat
  mpOut : Tab (List MpReq)
  mpNow : Tab (Option MemRet)
  evPend : Tab (List (Nat × Nat))
  evLast : Tab Nat
  actNow : Tab Nat
  gsr : Nat
  wen : Nat
  cuffs : Tab Cuff
  padSync : Tab (Nat × Nat)
  snap : Tab Nat
  snapLeft : Nat
  snapFired : Bool
  mmLast : Tab Nat
  starts : Tab (Nat × Bool)
  brimFrames : Tab Nat
  pairs : Tab (List PairOut)
deriving DecidableEq, Repr

def Fab.reset : Fab :=
  { frames := [], upset := [], cwUpset := [], knownBad := [], cells := [], pipe := [], seq := [], tc := [], spa := [],
    spb := [], route := [], keep := [], cross := [], brimHold := [], si := [], so := [], lines := [], lb := [],
    lbNow := [], mpOut := [], mpNow := [], evPend := [], evLast := [], actNow := [], gsr := 0, wen := 0,
    cuffs := [], padSync := [], snap := [], snapLeft := 0, snapFired := false, mmLast := [], starts := [],
    brimFrames := [], pairs := [] }

/-- The image header in force or being loaded (R300). -/
structure ImgHdr where
  kind : Nat
  enc : Bool
  keysel : Nat
  paired : Bool
  policy : Nat
  donewait : Bool
  chained : Bool
  bodylen : Nat
  id : Nat
deriving DecidableEq, Repr

def ImgHdr.reset : ImgHdr := ⟨0, false, 0, false, 0, false, false, 0, 0⟩

/-- A load in progress (R296 to R326): whether it takes words, a partial or golden one, its handle, header and header
words, the byte offset of the packet at the head of `words`, the words accepted and not yet taken, the body words taken,
the stage of the order of R302, the open section, the sections seen, the regions opened by a partial load and those whose
clock changes, the frames written, the device frames held with their set not yet passed, how many words were accepted,
when the last one came, and until when a region powers up. -/
structure Load where
  isOpen : Bool
  partialLoad : Bool
  golden : Bool
  handle : Option Nat
  hdr : Option ImgHdr
  head : List Nat
  pos : Nat
  words : List Nat
  body : List Nat
  order : Nat
  region : Option Nat
  seen : Nat
  opened : Nat
  clocked : Nat
  wrote : List Nat
  held : List (Nat × Nat)
  setDone : Bool
  verified : Bool
  count : Nat
  lastNow : Nat
  pauseTo : Nat
deriving DecidableEq, Repr

def Load.reset : Load :=
  { isOpen := false, partialLoad := false, golden := false, handle := none, hdr := none, head := [], pos := 0, words := [],
    body := [], order := 0, region := none, seen := 0, opened := 0, clocked := 0, wrote := [], held := [],
    setDone := false, verified := false, count := 0, lastNow := 0, pauseTo := 0 }

/-- The configuration engine beside its registers: the FIFO and words that hold the parallel port, the load, when the
state was entered, PROGN, the two open-drain outputs, the keys, the chained payload (awaited, words left, when the next
one may leave, words that left), the steps recorded for LOCK (R313), since when the start-up step runs, what follows a
clearing (0 WAIT, 1 the golden image, 2 UNCONF) and the words of the boot flash from address 0. -/
structure Cfg where
  fifo : List Nat
  waiting : List Nat
  load : Load
  stateNow : Nat
  progn : Bool
  cfgdonePull : Bool
  cfgerrnPull : Bool
  fuseKey : List Nat
  bbrKey : List Nat
  chainWait : Bool
  chainLeft : Nat
  chainAt : Nat
  out : List Nat
  recorded : List Nat
  starting : Nat
  after : Nat
  flash : Tab Nat
deriving DecidableEq, Repr

def Cfg.reset : Cfg :=
  { fifo := [], waiting := [], load := .reset, stateNow := 0, progn := true, cfgdonePull := true, cfgerrnPull := false,
    fuseKey := [], bbrKey := [], chainWait := false, chainLeft := 0, chainAt := 0, out := [], recorded := [],
    starting := 0, after := 0, flash := [] }

/-- The second-order model of the bandgap over the temperature of die sensor 0 (R142): departure from its nominal value in
parts per 10^9 at 0 °C, per 1/16 °C, and per its square. -/
structure Bandgap where
  c0 : Int
  c1 : Int
  c2 : Int
deriving DecidableEq, Repr

/-- Fuses that the manual names (R31, R142, R291, R300, R312, R320, R368, R404): their values are the device's own. `encDelay` is the
receiver delay of each encoder port in ns. -/
structure Fuses where
  forceEnc : Bool
  fkey : Bool
  bfquad : Bool
  marchCold : Bool
  warmMarch : Bool
  hledpk : Bool
  unlock : Option Nat
  serial : Nat
  fcols : Tab Nat
  ladder : List Nat
  encDelay : Tab Nat
  bandgap : Bandgap
deriving DecidableEq, Repr

def Fuses.reset : Fuses := ⟨false, false, false, false, false, false, none, 0, [], [], [], ⟨0, 0, 0⟩⟩

/-- The scrubber beside its registers (R328 to R340): when the sweep and the watchdog count began, when the last check
began and how long it took, consecutive misses, and whether the sweep has skipped or found something. -/
structure Scb where
  sweepNow : Nat
  wdNow : Option Nat
  lastCheck : Nat
  lastLen : Nat
  misses : Nat
  dirty : Bool
deriving DecidableEq, Repr

def Scb.reset : Scb := ⟨0, none, 0, 0, 0, false⟩


/-- A packet in a lane FIFO (R410, R413): source, TYPE, head, line number, TB, position, flags and payload bytes. -/
structure LanePkt where
  src : Nat
  type : Nat
  head : Nat
  num : Nat
  tb : Nat
  pos : Nat
  flags : Nat
  payload : List Nat
deriving DecidableEq, Repr

/-- A lane (the first one of a bond stands for the bond): stored packets, the blocks of the packet on the wire before
scrambling, as sync header and 64 bits, when its sending began and ends, and since when the lane
trains. -/
structure Lane where
  fifo : List LanePkt
  wire : List (Nat × Nat)
  wireFrom : Nat
  wireTo : Nat
  trainFrom : Nat
deriving DecidableEq, Repr

def Lane.reset : Lane := ⟨[], [], 0, 0, 0⟩

/-- The result lanes beside their registers (R408 to R420). By source and lane: SEQ and whether the next packet does not
carry GAP; the packets built by FREE ports; by return pair: the last FLOW mask, the last valid block and whether the
pair was found lost. -/
structure Lan where
  lanes : Tab Lane
  seq : Tab Nat
  noGap : Tab Bool
  freeNum : Tab Nat
  rxMask : Tab Nat
  rxLast : Tab Nat
  rxLost : Tab Bool
deriving DecidableEq, Repr

def Lan.reset : Lan := ⟨[], [], [], [], [], [], []⟩

/-- A GPIO pin beside its registers (R399, R400): the function that drives, a running switch with the function it goes
to and when it connects, a switch requested meanwhile, and the level the keeper holds. -/
structure Pad where
  func : Nat
  switch : Option (Nat × Nat)
  next : Option Nat
  held : Bool
deriving DecidableEq, Repr

def Pad.reset : Pad := ⟨0, none, none, false⟩

/-- The pins (R315, R397 to R407, R453): whether OUTREL has come, pins in their sleep state, and EXTEST. -/
structure Gpio where
  released : Bool
  asleep : Bool
  extest : Bool
  pads : Tab Pad
deriving DecidableEq, Repr

def Gpio.reset : Gpio := ⟨false, false, false, []⟩


/-- Everything of the device but the working memory and the queue of commands. `sets` tells, by register, the W1C bits that
the device has set at the present instant (R7), and what its counters have counted at it (R428). -/
structure Dev where
  now : Nat
  tb : Tb
  regs : Tab Word
  sets : Tab Nat
  latch : Tab Nat
  rdata : Nat
  free : Nat
  evq : Evq
  enc : Tab EncPort
  cap : Tab (List CapEntry)
  ltg : Tab Ltg
  hcp : Tab Hcp
  zlk : Zlk
  pwr : Pwr
  kw : Kw
  pcu : Pcu
  cal : Cal
  anx : Anx
  mcv : Tab Mcv
  bank : Mem
  fab : Fab
  cfg : Cfg
  fuses : Fuses
  scb : Scb
  lan : Lan
  gpio : Gpio
deriving DecidableEq, Repr

def Dev.reset : Dev :=
  { now := 0, tb := 0, regs := [], sets := [], latch := [], rdata := 0, free := 0, evq := .reset, enc := [], cap := [], ltg := [], hcp := [],
    zlk := .reset, pwr := .reset, kw := .reset, pcu := .reset, cal := .reset, anx := .reset, mcv := [],
    bank := .reset, fab := .reset, cfg := .reset, fuses := .reset, scb := .reset, lan := .reset, gpio := .reset }

/-- Why a step stops: nothing in this model does, so there is no reason to name (log 1). -/
inductive Fault where
  /-- Raised by nobody: no command of this block stops it. Safe. -/
  | none
deriving DecidableEq, Repr

/-- Why a command has no meaning. -/
inductive Refusal where
  /-- An arm of `exec` whose meaning is not written yet. Safe. -/
  | notModelled (mnemonic : String)
deriving DecidableEq, Repr

/-- The machine: the device, the working memory of R273 and R284 as bytes by device address, and the commands that
wait, first in first out. -/
structure State where
  dev : Dev
  mem : List Host.Cell
  pending : List Instr
deriving DecidableEq, Repr

/-- The instant at which PORN has risen and no start-up step has run: every register at its Reset column. -/
def State.reset : State := { dev := .reset, mem := [], pending := [] }

end Sys2Proof.Machine
end

