-- ==== Sys2Proof/Machine/Ops.lean ====
section
/-! DEFINITION. Named operations over the state: registers and fields, counters, free values, event records, access
errors, handles and the working memory. -/

namespace Sys2Proof.Machine

/-- The value a register holds. -/
def rregOf (t : Tab Word) (k : RegKind) (i : Nat) : Word := tget t (regReset k i) (regKey k i)

/-- A field of a register map. -/
def fieldOf (t : Tab Word) (f : Fld) (i : Nat) : Nat := bitsOf (rregOf t f.kind i).toNat f.lsb f.width

/-- The value a register holds. -/
def Dev.rreg (d : Dev) (k : RegKind) (i : Nat) : Word := rregOf d.regs k i

/-- Put a value into a register. -/
def Dev.wreg (d : Dev) (k : RegKind) (i : Nat) (v : Word) : Dev :=
  { d with regs := tset d.regs (regReset k i) (regKey k i) v }

/-- Read a field as a number. -/
def Dev.rf (d : Dev) (f : Fld) (i : Nat) : Nat := fieldOf d.regs f i

/-- Read a signed field. -/
def Dev.rfi (d : Dev) (f : Fld) (i : Nat) : Int := sx f.width (d.rf f i)

/-- A one-bit field is set. -/
def Dev.on (d : Dev) (f : Fld) (i : Nat) : Bool := decide (d.rf f i ≠ 0)

/-- Put a number into a field, as a host write does. -/
def Dev.putF (d : Dev) (f : Fld) (i : Nat) (n : Nat) : Dev :=
  d.wreg f.kind i (BitVec.ofNat 32 (setBits (d.rreg f.kind i).toNat f.lsb f.width n))

/-- Note that the device sets the bits `n` of a field, if it is a W1C one (R7). -/
def noteSet (t : Tab Nat) (f : Fld) (i n : Nat) : Tab Nat :=
  if f.acc = .W1C then
    let k := regKey f.kind i
    tset t 0 k (Nat.lor (tget t 0 k) (n % 2 ^ f.width * 2 ^ f.lsb))
  else t

/-- W1C bits of a field that the device has set at the present instant (R7), or what it has counted in a counter (R428). -/
def Dev.setNow (d : Dev) (f : Fld) (i : Nat) : Nat := bitsOf (tget d.sets 0 (regKey f.kind i)) f.lsb f.width

/-- Put a number into a field, as the device does. A W1C bit that it sets is noted: a flag of one bit whenever 1 is put, of
more bits those that rise. -/
def Dev.wf (d : Dev) (f : Fld) (i : Nat) (n : Nat) : Dev :=
  { d.putF f i n with sets := noteSet d.sets f i (if f.width = 1 then n else n - Nat.land n (d.rf f i)) }

/-- Put a signed number into a field. -/
def Dev.wfi (d : Dev) (f : Fld) (i : Nat) (z : Int) : Dev := d.wf f i (ux f.width z)

/-- Set or clear one bit of a field. -/
def Dev.wbit (d : Dev) (f : Fld) (i b : Nat) (v : Bool) : Dev :=
  { d.putF f i (setBit (d.rf f i) b v) with sets := noteSet d.sets f i (b2n v * 2 ^ b) }

/-- Note that the device counts `n` in a field of access RW, which a host write at the same instant does not lose (R428). -/
def noteInc (t : Tab Nat) (f : Fld) (i n : Nat) : Tab Nat :=
  if f.acc = .RW then
    let k := regKey f.kind i
    tset t 0 k (setBits (tget t 0 k) f.lsb f.width (min (bitsOf (tget t 0 k) f.lsb f.width + n) (2 ^ f.width - 1)))
  else t

/-- Add to a counter field, stopping at its maximum (R428). -/
def Dev.inc (d : Dev) (f : Fld) (i n : Nat) : Dev :=
  let d := d.wf f i (min (d.rf f i + n) (2 ^ f.width - 1))
  { d with sets := noteInc d.sets f i n }

/-- Add to a counter field that wraps (R422). -/
def Dev.incWrap (d : Dev) (f : Fld) (i n : Nat) : Dev :=
  let d := d.wf f i ((d.rf f i + n) % 2 ^ f.width)
  { d with sets := noteInc d.sets f i n }

/-- Put a register back to its Reset column. -/
def Dev.rstReg (d : Dev) (k : RegKind) (i : Nat) : Dev := d.wreg k i (regReset k i)

/-- Put a field back to its Reset column. -/
def Dev.rstFld (d : Dev) (f : Fld) (i : Nat) : Dev := d.wf f i (f.rstAt i)

/-- Apply a state change over a list. -/
def Dev.each {α : Type} (d : Dev) (l : List α) (f : Dev → α → Dev) : Dev := l.foldl f d

/-- A value the manual leaves unstated: another one for every instant, every step of the counter and every `tag` (assumption
log 3). -/
def Dev.freeAt (d : Dev) (tag : Nat) : Nat := Config.freeValue ((d.now * 2 ^ 64 + d.free) * 2 ^ 32 + tag)

/-- The free value of a command that needs only one. -/
def Dev.freeNat (d : Dev) : Nat := d.freeAt 0

/-- The next free value becomes current. -/
def Dev.freeNext (d : Dev) : Dev := { d with free := d.free + 1 }

/-- TB as a number of ns. -/
def Dev.t (d : Dev) : Nat := d.tb.toNat

/-- One latch per path for each latching read (R427). -/
def latchKey (k : RegKind) (i : Nat) (p : Path) : Nat :=
  2 * regKey k i + (match p with | .direct => 0 | .kweave => 1)

def Dev.rlatch (d : Dev) (k : RegKind) (i : Nat) (p : Path) : Nat := tget d.latch 0 (latchKey k i p)

def Dev.wlatch (d : Dev) (k : RegKind) (i : Nat) (p : Path) (v : Nat) : Dev :=
  { d with latch := tset d.latch 0 (latchKey k i p) v }

def Dev.getEnc (d : Dev) (p : Nat) : EncPort := tget d.enc .reset p

def Dev.setEnc (d : Dev) (p : Nat) (e : EncPort) : Dev := { d with enc := tset d.enc .reset p e }

def Dev.getCap (d : Dev) (k : Nat) : List CapEntry := tget d.cap [] k

def Dev.setCap (d : Dev) (k : Nat) (l : List CapEntry) : Dev := { d with cap := tset d.cap [] k l }

def Dev.getLtg (d : Dev) (h : Nat) : Ltg := tget d.ltg .reset h

def Dev.setLtg (d : Dev) (h : Nat) (l : Ltg) : Dev := { d with ltg := tset d.ltg .reset h l }

def Dev.getHcp (d : Dev) (h : Nat) : Hcp := tget d.hcp .reset h

def Dev.setHcp (d : Dev) (h : Nat) (p : Hcp) : Dev := { d with hcp := tset d.hcp .reset h p }

/-! Event records -/

/-- Post a record: it enters the way to the queue. From the start of a warm start until the firmware has rebooted,
and whenever the management controller is off, nothing is posted (R353, R359). -/
def Dev.postRec (d : Dev) (r : EvRec) : Dev :=
  if d.pwr.booted then { d with evq := { d.evq with inFlight := d.evq.inFlight ++ [r] } } else d

/-- Post a record stamped with the present TB. -/
def Dev.post (d : Dev) (k : RecKind) (src value : Nat) : Dev :=
  d.postRec { kind := k, source := src, crown := false, more := false, value := value, tb := d.t }

/-- Post a record stamped with a TB of its own. -/
def Dev.postAt (d : Dev) (k : RecKind) (src value tb : Nat) : Dev :=
  d.postRec { kind := k, source := src, crown := false, more := false, value := value, tb := tb }

/-- The level behind the LEVEL records of a source falls (R391): a record still on its way is written VOID, one in the
queue waits for the critical section. -/
def Dev.levelFall (d : Dev) (src : Nat) : Dev :=
  let voidIt (r : EvRec) : EvRec := if r.kind = .level ∧ r.source = src then { r with kind := .void } else r
  { d with evq := { d.evq with
      inFlight := d.evq.inFlight.map voidIt
      revoke := d.evq.revoke ++ d.evq.tracked.filter (fun l => decide (l.source = src))
      tracked := d.evq.tracked.filter (fun l => decide (l.source ≠ src)) } }

/-- A LEVEL record of the source is on its way or in the queue and tracked. -/
def Dev.levelPending (d : Dev) (src : Nat) : Bool :=
  d.evq.inFlight.any (fun r => decide (r.kind = .level ∧ r.source = src)) ||
    d.evq.tracked.any (fun l => decide (l.source = src))

/-! Access errors (R433) -/

/-- Causes of a refusal: those of `SYS.ACCERR.CAUSE`, and the two counted in `SYS.NOWNER`. -/
inductive Cause where
  | noreg | align | value | state | domain | window | spi | nowner | rwl
deriving DecidableEq, Repr

/-- The code of `SYS.ACCERR.CAUSE`. -/
def Cause.code : Cause → Nat
  | .noreg => 1
  | .align => 2
  | .value => 3
  | .state => 4
  | .domain => 5
  | .window => 6
  | .spi => 7
  | .nowner => 0
  | .rwl => 0

/-- Count a refusal with its cause, path and address. -/
def Dev.countRefusal (d : Dev) (c : Cause) (p : Path) (addr : Nat) : Dev :=
  let d := d.wf SYS_ACCADDR_ADDR 0 addr
  match c with
  | .nowner => (d.inc SYS_NOWNER_COUNT 0 1).wf SYS_NOWNER_LASTRWL 0 0
  | .rwl => (d.inc SYS_NOWNER_COUNT 0 1).wf SYS_NOWNER_LASTRWL 0 1
  | c => ((d.inc SYS_ACCERR_COUNT 0 1).wf SYS_ACCERR_CAUSE 0 c.code).wf SYS_ACCERR_PATH 0
      (match p with | .direct => 0 | .kweave => 1)

/-! Status codes of R366 -/

def stOK : Nat := 0x00
def stACCEPTED : Nat := 0x01
def stBUSY : Nat := 0x02
def stBAD_OPCODE : Nat := 0x03
def stBAD_PARAM : Nat := 0x04
def stBAD_STATE : Nat := 0x05
def stDENIED : Nat := 0x06
def stNO_HANDLE : Nat := 0x07
def stTIMEOUT : Nat := 0x08
def stALREADY_DONE : Nat := 0x09
def stABORTED : Nat := 0x0A
def stCRC_ERR : Nat := 0x0B
def stINPUT_REJECTED : Nat := 0x0C
def stNOT_SECURE : Nat := 0x0D

/-- A refused register write: its cause, the status a packet reply carries, and the least significant bit of the
field (R459). -/
structure Refused where
  cause : Cause
  status : Nat
  lsb : Nat
deriving DecidableEq, Repr

/-! Handles (R371, R372) -/

def Dev.findHandle (d : Dev) (h : Nat) : Option Handle := d.kw.handles.find? (fun e => decide (e.num = h))

/-- The next handle number: after the last one issued, 4,095 wraps to 1, numbers in use are skipped. -/
def nextHandle (used : List Handle) : Nat → Nat → Nat
  | 0, last => if last ≥ 4095 then 1 else last + 1
  | fuel + 1, last =>
    let n := if last ≥ 4095 then 1 else last + 1
    if used.any (fun e => decide (e.num = n)) then nextHandle used fuel n else n

/-- Give a long operation its handle. -/
def Dev.openHandle (d : Dev) (opcode : Nat) : Nat × Dev :=
  let n := nextHandle d.kw.handles 64 d.kw.lastHandle
  (n, { d with kw := { d.kw with
    lastHandle := n, handles := d.kw.handles ++ [⟨n, opcode, false, d.t⟩] } })

/-- The final record of a handle: COMPLETION, or ABORTED when an ABORT won; it frees the handle (R372, R374). -/
def Dev.finish (d : Dev) (h status detail : Nat) : Dev :=
  match d.findHandle h with
  | none => d
  | some e =>
    let st := if e.stopping then stABORTED else status
    let kind : RecKind := if e.stopping then .aborted else .completion
    let d := d.post kind (e.opcode % 0x1000) (h + st * 2 ^ 12 + detail % 0x1000 * 2 ^ 20)
    { d with kw := { d.kw with handles := d.kw.handles.filter (fun x => decide (x.num ≠ h)) } }

/-- The final record of an operation that may have no handle. -/
def Dev.finishOpt (d : Dev) (h : Option Nat) (status detail : Nat) : Dev :=
  match h with
  | none => d
  | some n => d.finish n status detail

/-! Working memory: bytes by device address; an unlisted byte reads 0 (R289, R294: zero-filled before service). -/

/-- The canonical form of the memory. -/
abbrev Memory.wf (m : List Host.Cell) : Bool := tcanon (0 : BitVec 8) m

/-- One byte. -/
def memByte (m : List Host.Cell) (a : Nat) : BitVec 8 := tget m 0 a

/-- Write one byte. -/
def memPut (m : List Host.Cell) (a : Nat) (b : BitVec 8) : List Host.Cell := tset m 0 a b

/-- `n` bytes, little-endian (R4). -/
def memRead (m : List Host.Cell) (a : Nat) : Nat → Nat
  | 0 => 0
  | n + 1 => (memByte m a).toNat + 256 * memRead m (a + 1) n

/-- Write `n` bytes, little-endian (R4). -/
def memWrite (m : List Host.Cell) (a : Nat) : Nat → Nat → List Host.Cell
  | 0, _ => m
  | n + 1, v => memWrite (memPut m a (BitVec.ofNat 8 v)) (a + 1) n (v / 256)

/-- Forget a range: its bytes read 0. -/
def memZero (m : List Host.Cell) (a n : Nat) : List Host.Cell :=
  m.filter (fun e => decide (e.1 < a ∨ a + n ≤ e.1))

/-! Outcomes -/

/-- A command that changes the device only. -/
def State.devStep (s : State) (f : Dev → Dev) : Host.Outcome State Fault Refusal := .next { s with dev := f s.dev }

end Sys2Proof.Machine
end

