-- ==== Sys2Proof/Machine/Domains.lean ====
section
/-! DEFINITION. Power domains: which are on (R26, R344, R345), in which one a register stands, and which accesses
reach a register (R17, R351). -/

namespace Sys2Proof.Machine

/-- Domain `n` is powered and its clock runs in RUN and HOLD (R344, R345). -/
def Dev.domNormal (d : Dev) (n : Nat) : Bool :=
  if n ≤ 6 then true
  else if n ≤ 9 then tbit (d.rf PWR_DOMEN_SER 0) (n - 7)
  else if n ≤ 17 then tbit (d.rf PWR_DOMEN_GRP 0) (n - 10) || tbit d.pwr.grpBusy (n - 10)
  else if n ≤ 25 then tbit (d.rf PWR_DOMEN_GRP 0) (n - 18) || tbit d.pwr.grpBusy (n - 18)
  else if n ≤ 33 then tbit (d.rf PWR_DOMEN_MEM 0) (n - 26)
  else decide (n ≤ 49) && d.on FAB_RCLK_FSEL (n - 34)

/-- Domain `n` is on. -/
def Dev.domOn (d : Dev) (n : Nat) : Bool :=
  match d.pwr.st with
  | .off => decide (n = 1)
  | .cold => decide (n ≤ 1)
  | .halted => decide (n ≤ 1)
  | .pfhold => decide (n ≤ 1)
  | .sleep => decide (n ≤ 1)
  | .nap => decide (n ≤ 6) || (decide (26 ≤ n) && decide (n ≤ 33) && d.domNormal n)
  | .waking => decide (n ≤ 6) || (decide (18 ≤ n) && d.domNormal n)
  | .held => d.domNormal n
  | .starting => d.domNormal n
  | .run => d.domNormal n
  | .hold => d.domNormal n

/-- The domain a register stands in (log 9): that of the unit it belongs to; registers that serve a whole block, and
those that configure a region, stand in an always-powered domain. -/
def regDomain (k : RegKind) (i : Nat) : Nat :=
  match k.place.base / 0x10000 with
  | 0x01 => 0
  | 0x02 => 0
  | 0x03 => 3
  | 0x04 => 3
  | 0x05 =>
    match k with
    | .MEM_RQDROP => 3
    | .MEM_SPECC => 3
    | .MEM_SPERR => 2
    | .MEM_MCFG => 2
    | .MEM_BSTAT => 2
    | _ => 26 + i
  | 0x08 => 4
  | 0x09 => 4
  | 0x0A => 4
  | 0x0B => 4
  | 0x0C =>
    match k with
    | .AFE_HTIM => 10 + i / 3
    | .AFE_HNPIX => 10 + i / 3
    | .AFE_HSTAT => 10 + i / 3
    | .AFE_SCANCTRL => 2
    | .AFE_SCANDATA => 2
    | _ => 10 + i / 12
  | 0x0D =>
    match k with
    | .CNV_MITCFG0 => 2
    | .CNV_MITCFG1 => 2
    | .CNV_DBL => 18 + i
    | .CNV_MIT => 18 + i
    | .CNV_MITCNT => 18 + i
    | _ => 18 + i / 13
  | 0x0E =>
    match k with
    | .PCU_WIN => 18 + i / 12
    | .PCU_GSTAT => 18 + i
    | .PCU_ECCCNT => 18 + i
    | .PCU_DROPCNT => 18 + i
    | .PCU_HSEL => 2
    | .PCU_HDATA => 2
    | .PCU_TSYNC => 2
    | _ => 18 + i / 3
  | 0x10 => 6
  | 0x11 => 6
  | 0x12 => 6
  | 0x13 => 5
  | 0x14 => 3
  | 0x15 => 3
  | 0x16 =>
    match k with
    | .LAN_QCFG => 7 + i
    | .LAN_QSTAT => 7 + i
    | .LAN_SOMAP => 2
    | .LAN_RXCFG => 2
    | .LAN_RXSTAT => 2
    | _ => 7 + i / 4
  | _ => 2

/-- A register can be reached (R17); after a halted start only PWR and CLK can (R351). -/
def Dev.reachable (d : Dev) (k : RegKind) (i : Nat) : Bool := d.domOn (regDomain k i)

/-! Crossings between the domains (R19, R20) -/

/-- The crossings of R20, by what they carry. -/
inductive Crossing where
  | sliceCodes
  | pixels
  | directLines
  | writerRequests
  | tracks
  | portRequests
  | regionLines
  | lineTags
  | comparators
  | events
  | dmaResults
  | accesses
  | frames
  deriving DecidableEq, Repr

/-- How many words a crossing holds (R20). -/
def Crossing.depth : Crossing → Nat
  | .sliceCodes => 8
  | .pixels => 32
  | .directLines => 32
  | .writerRequests => 16
  | .tracks => 8
  | .portRequests => 16
  | .regionLines => 32
  | .lineTags => 4
  | .comparators => 4
  | .events => 16
  | .dmaResults => 16
  | .accesses => 4
  | .frames => 4

/-- A crossing takes 2 or 3 cycles of its destination, which of the two is open (R20). -/
def crossCycles (free : Nat) : Nat := 2 + free % 2

/-- Group `g` of head `h` (R86). -/
def groupOf (h : Nat) : Nat := h / 3

/-- The four channels of a head (R86). -/
def chansOf (h : Nat) : List Nat := [4 * h, 4 * h + 1, 4 * h + 2, 4 * h + 3]

/-- Head of a channel (R86). -/
def headOf (c : Nat) : Nat := c / 4

/-- The group's analogue and converter domains run: RUN or HOLD, and its GRP bit (R26, R345). -/
def Dev.groupOn (d : Dev) (g : Nat) : Bool := d.domOn (10 + g) && d.domOn (18 + g)

end Sys2Proof.Machine
end

