-- ==== Sys2Proof/Machine/Hcp.lean ====
section
/-! DEFINITION. Head timing: the pixel clock, the busy time, the exposure centre and the strobe (R90 to R93, R105 to
R107). The functions take a register map, so that a line can use the values at its commit point. -/

namespace Sys2Proof.Machine

/-- `n` / 64 pixel periods in ns as a fraction: numerator and denominator (R90: T = 2^32 / HCKFREQ ns). -/
def periods64 (t : Tab Word) (h n : Nat) : Nat × Nat := (n * 2 ^ 32, 64 * fieldOf t HCP_HCKFREQ_FREQ h)

/-- `n` / 64 pixel periods of the frequency word `f` after an instant that lies `dt` / 10 ns back have passed. -/
def passed64 (f n dt : Nat) : Bool := decide (n * 2 ^ 26 * 10 ≤ dt * f)

/-- Sample instant G(k) of a channel in 1/64 pixel periods after the line boundary (R91, R96); `j` is the further delay of a
phase scan (R111). -/
def gridOf (t : Tab Word) (c : Nat) (k : Int) (j : Nat) : Nat :=
  (64 * ((fieldOf t AFE_HTIM_HLEAD (headOf c) : Int) + k)).toNat + fieldOf t AFE_CH_SKEW c + j

/-- Reset instant of a pixel in CDS on the same scale (R95). -/
def resetOf (t : Tab Word) (c : Nat) (k : Int) (j : Nat) : Int :=
  (gridOf t c k j : Int) - fieldOf t AFE_HTIM_RADV (headOf c)

/-- `n` / 64 pixel periods in ns, rounded up. -/
def periods64Up (t : Tab Word) (h n : Nat) : Nat := ceilDiv (periods64 t h n).1 (periods64 t h n).2

/-- The enabled channels of a head. -/
def enabledChans (t : Tab Word) (h : Nat) : List Nat :=
  (chansOf h).filter (fun c => decide (fieldOf t AFE_CH_EN c ≠ 0))

/-- Largest SKEW of the head's enabled channels, in 1/64 pixel periods. -/
def skewOf (t : Tab Word) (h : Nat) : Nat := (enabledChans t h).foldl (fun m c => max m (fieldOf t AFE_CH_SKEW c)) 0

/-- Head busy time of R107; `scan` tells whether a phase scan runs on a channel of the head. -/
def busyOf (t : Tab Word) (scan : Bool) (h : Nat) : Nat :=
  let whole := fieldOf t AFE_HTIM_HLEAD h + fieldOf t AFE_HNPIX_NPIX h + (if scan then 1 else 0)
  periods64Up t h (64 * whole + skewOf t h) + 200

/-- From the line boundary to the usable gap, in ns rounded up (R146): G(NPIX - 1) + 2T, when the last leg is released. -/
def gapLeadOf (t : Tab Word) (scan : Bool) (h : Nat) : Nat :=
  let whole := fieldOf t AFE_HTIM_HLEAD h + fieldOf t AFE_HNPIX_NPIX h + 1 + (if scan then 1 else 0)
  periods64Up t h (64 * whole + skewOf t h)

/-- Exposure centre offset C of R105. -/
def centreOf (t : Tab Word) (h : Nat) : Nat :=
  match fieldOf t HCP_CTRL_LEDMODE h with
  | 1 => fieldOf t HCP_LEDDLY_DLY h + fieldOf t HCP_LEDWID_WID h / 2
  | 2 => fieldOf t HCP_CTRSET_C h
  | _ => 0

/-- The strobe of a line at boundary `s` (R105): none outside STROBE mode, with WID 0, or with the port off. -/
def strobeOf (t : Tab Word) (h s : Nat) : Option Strobe :=
  let dly := fieldOf t HCP_LEDDLY_DLY h
  let wid := fieldOf t HCP_LEDWID_WID h
  let adv := fieldOf t HCP_LEDADV_ADV h
  if fieldOf t HCP_CTRL_LEDMODE h = 1 ∧ wid ≠ 0 ∧ fieldOf t HCP_CTRL_EN h ≠ 0 then
    some ⟨s + dly - adv, s + dly + wid - adv⟩
  else none

/-- A phase scan runs on a channel of the head. -/
def Dev.scanOn (d : Dev) (h : Nat) : Bool :=
  d.on AFE_SCANCTRL_BUSY 0 && decide (headOf (d.rf AFE_SCANCTRL_CH 0) = h)

/-- The line-shadowed registers of a head wait for a commit point: its LTG is armed, or an issued line has not fired (R126). -/
def Dev.shadowed (d : Dev) (h : Nat) : Bool := d.on LTG_CTRL_ARM h || !((d.getLtg h).issued.isEmpty)

/-- The line-shadowed values in force for a head (R13, R93): those of its last commit point while another one is to come, the
written ones otherwise (DEDUCED, log 55). -/
def Dev.inForce (d : Dev) (h : Nat) : Tab Word :=
  match (d.getLtg h).prevSnap with
  | some t => if d.shadowed h then t else d.regs
  | none => d.regs

/-- `HCP.TSTAT.BUSY` (R107), from the values in force (R93). -/
def Dev.busy (d : Dev) (h : Nat) : Nat := busyOf (d.inForce h) (d.scanOn h) h

/-- `LTG.CTROFS` (R49, R105). -/
def Dev.centre (d : Dev) (h : Nat) : Nat := centreOf d.regs h

/-- `LTG.EFFMIN` (R55). -/
def Dev.effmin (d : Dev) (h : Nat) : Nat := max (d.rf LTG_MINPER_MINPER h) (d.busy h)

/-! Clock and sync of a head -/

/-- The clock on the grid of a line at boundary `s` (R91). -/
def hckOf (t : Tab Word) (h s : Nat) : HckRun :=
  ⟨s, fieldOf t HCP_HCKFREQ_FREQ h, fieldOf t HCP_HCKPH_ADV h, fieldOf t HCP_HCKPH_HIGH h⟩

/-- HCK runs free from the present instant (R91): on the values written, until a line brings its grid. -/
def Dev.hckFree (d : Dev) (h : Nat) : Dev :=
  d.setHcp h { d.getHcp h with hck := some { hckOf d.regs h d.t with adv := 0 } }

/-- HCK of the ports that are on runs free again after park state (R26, R91, R313). -/
def Dev.headsFree (d : Dev) : Dev :=
  ((List.range 24).filter (fun h => d.on HCP_CTRL_EN h)).foldl (fun d h => d.hckFree h) d

/-- How far a clock is past its edge 0 at TB `t`, in 2^-32 periods. -/
def HckRun.phase (g : HckRun) (t : Nat) : Int := ((t : Int) - (g.s : Int)) * (g.freq : Int) + (g.adv * 2 ^ 26 : Nat)

/-- Rising edge `j` of the old clock stands: it falls at least a period of the new one before that one's edge 0 (R91; the T
meant is that of the new line, log 55). -/
def HckRun.keeps (o : HckRun) (j : Int) (next : Option HckRun) : Bool :=
  match next with
  | none => true
  | some g => decide ((o.s : Int) * (o.freq * g.freq : Nat) + (64 * j - (o.adv : Int)) * (2 ^ 26 * g.freq : Nat) ≤
      (g.s : Int) * (o.freq * g.freq : Nat) - (((g.adv + 64) * 2 ^ 26 * o.freq : Nat) : Int))

/-- The clock in force at TB `t` with the number of its present period and how far that has come, in 2^-32 periods: the grid
of the next line from its edge 0 on, before it the one that runs, without the edges it drops. -/
def hckAt (run next : Option HckRun) (t : Nat) : Option (HckRun × Int × Nat) :=
  let at_ (g : HckRun) : HckRun × Int × Nat := (g, g.phase t / 2 ^ 32, (g.phase t % 2 ^ 32).toNat)
  match next.filter (fun g => decide (0 ≤ g.phase t)) with
  | some g => some (at_ g)
  | none =>
    match run with
    | none => none
    | some o => if 0 ≤ o.phase t ∧ o.keeps (o.phase t / 2 ^ 32) next = true then some (at_ o) else none

/-- HCK and HSP leave their park state (R26, R315): EN is set, and the port is released and clocked. -/
def Dev.headRuns (d : Dev) (h : Nat) : Bool :=
  d.on HCP_CTRL_EN h && d.gpio.released && (decide (d.pwr.st = .run) || decide (d.pwr.st = .hold) ||
    decide (d.pwr.st = .starting))

/-- The HCK of a head at the present instant. -/
def Dev.hckNow (d : Dev) (h : Nat) : Option (HckRun × Int × Nat) :=
  if d.headRuns h then
    hckAt (d.getHcp h).hck ((d.getLtg h).issued.head?.map (fun l => hckOf l.snap h l.s)) d.t
  else none

/-- Level at the HCK ball of a head (R91). -/
def Dev.hckPin (d : Dev) (h : Nat) : Bool :=
  match d.hckNow h with
  | some (g, _, x) => decide (x < g.high * 2 ^ 26)
  | none => false

/-- The HSP pulse of the last line is active (R92). -/
def Dev.hspActive (d : Dev) (h : Nat) : Bool :=
  d.headRuns h && decide ((d.getHcp h).hspFrom ≤ d.t) && decide (d.t < (d.getHcp h).hspUntil)

/-- Level at the HSP ball of a head: active level by HSPPOL, low in park state (R26, R92). -/
def Dev.hspPin (d : Dev) (h : Nat) : Bool := d.headRuns h && (d.hspActive h != d.on HCP_CTRL_HSPPOL h)

/-- HLED of CONT mode is active (R105): from the first line after ARM until ARM clears, but not over a line that holds it
inactive (R149), nor outside RUN (R26). -/
def Dev.contLed (d : Dev) (h : Nat) : Bool :=
  let p := d.getHcp h
  decide (d.rf HCP_CTRL_LEDMODE h = 2) && d.on HCP_CTRL_EN h && d.on LTG_CTRL_ARM h && p.firedSinceArm && !p.dark &&
    decide (d.pwr.st = .run)

/-- `HCP.TSTAT.LEDON` follows the strobe and CONT mode. -/
def Dev.ledShow (d : Dev) (h : Nat) : Dev := d.wf HCP_TSTAT_LEDON h (b2n ((d.getHcp h).ledOn || d.contLed h))

/-- The phase-relevant values of a head (R110). -/
def phaseVals (t : Tab Word) (h : Nat) : List Nat :=
  [fieldOf t AFE_HTIM_HLEAD h, fieldOf t AFE_HTIM_RADV h, fieldOf t HCP_HCKFREQ_FREQ h, fieldOf t HCP_HCKPH_ADV h,
    fieldOf t HCP_HCKPH_HSPDLY h, fieldOf t HCP_HCKPH_HSPW h] ++
  (chansOf h).flatMap (fun c => [fieldOf t AFE_CH_SAMP c, fieldOf t AFE_CH_SKEW c])

/-- End a phase scan without DONE (R111). -/
def Dev.scanEnd (d : Dev) (abort : Bool) : Dev :=
  let d := d.wf AFE_SCANCTRL_BUSY 0 0
  if abort then d.wf AFE_SCANCTRL_ABORT 0 1 else d

/-- Phase-relevant changes at a commit point, judged against the head's previous one (R110, R111). -/
def Dev.phaseCommit (d : Dev) (h num : Nat) (prev : Option (Tab Word)) : Dev :=
  match prev with
  | none => d
  | some t =>
    if phaseVals t h = phaseVals d.regs h then d
    else
      let d := (d.wf AFE_HSTAT_PHCHG h 1).post .edge (0x0A0 + h) num
      if d.scanOn h then d.scanEnd true else d

end Sys2Proof.Machine
end

