-- ==== Sys2Proof/Machine/Enc.lean ====
section
/-! DEFINITION. Encoder ports: decoding, index, position and the velocity estimator (R30 to R40). -/

namespace Sys2Proof.Machine

/-- The signed 48-bit difference of R36. -/
def diff48 (a b : Int) : Int := sx 48 (ux 48 (a - b))

/-- The signed difference of two Q48.16 positions. -/
def diffQ (a b : Int) : Int := sx 64 (ux 64 (a - b))

/-- Level pair as a phase of the forward sequence 00, 10, 11, 01. -/
def quadPhase (a b : Bool) : Nat :=
  match a, b with
  | false, false => 0
  | true, false => 1
  | true, true => 2
  | false, true => 3

/-- What an accepted level change means (R32, R33). -/
inductive EncEdge where
  | nothing | forward | backward | illegal
deriving DecidableEq, Repr

/-- Decode an accepted change of A and B under a mode (R32, R33). -/
def encDecode (mode : Nat) (inv : Bool) (a b a' b' : Bool) : EncEdge :=
  let dir (fwd : Bool) : EncEdge := if fwd != inv then .forward else .backward
  match mode with
  | 0 =>
    match (quadPhase a' b' + 4 - quadPhase a b) % 4 with
    | 0 => .nothing
    | 1 => dir true
    | 3 => dir false
    | _ => .illegal
  | 1 => if a = a' then .nothing else dir (a' != b')
  | 2 => if !a && a' then dir (!b') else .nothing
  | _ => if !a && a' then dir (!b') else .nothing

/-- Position after the last count. -/
def EncPort.pLast (e : EncPort) : Int := e.pos.toInt

/-- Velocity the port reports at `t` (R39). -/
def EncPort.vEff (e : EncPort) (t : Nat) : Int :=
  match e.last8 with
  | [] => e.v
  | c :: _ =>
    if c.t < t then
      let bound : Int := ((2 ^ 32 / (t - c.t) : Nat) : Int)
      if e.v < 0 then -(min (-e.v) bound) else min e.v bound
    else e.v

/-- Position after the latest count at or before `t`, among the last 8 (R39). -/
def EncPort.pAt (e : EncPort) (t : Nat) : Int :=
  match e.last8.find? (fun c => decide (c.t ≤ t)) with
  | some c => c.p
  | none => if e.last8.isEmpty then e.pLast else e.before

/-- Extrapolated position, Q48.16 (R39). -/
def EncPort.pExt (e : EncPort) (t : Nat) : Int :=
  match e.last8 with
  | [] => e.pLast * 65536
  | c :: _ =>
    if c.t < t then e.pLast * 65536 + clampI (-65535) 65535 (asr (e.vEff t * ((t - c.t : Nat) : Int)) 16)
    else e.pAt t * 65536

/-- Move the count and everything the estimator holds by the same amount (R35, R37, R38). The previous index position of
ZEROCHECK stays where it is, so that the next check takes in the jump (DESIGN CHOICE, log 53). -/
def EncPort.shift (e : EncPort) (by_ : Int) : EncPort :=
  let mv (c : Count) : Count := { c with p := c.p + by_ }
  { e with
    pos := BitVec.ofInt 48 (e.pLast + by_), hist := e.hist.map mv, last8 := e.last8.map mv, before := e.before + by_
    lossP := e.lossP + by_ }

/-- The estimator's update at an accepted count (R38): new port, new VALID. -/
def EncPort.estimate (e : EncPort) (revNow revLast valid : Bool) (t : Nat) (p : Int) (vwin vshift : Nat) :
    EncPort × Bool :=
  let turned := revNow != revLast
  let hist0 := if turned then [] else e.hist
  let v0 : Int := if turned then 0 else e.v
  let valid0 := !turned && valid
  let hist := ((⟨t, p⟩ : Count) :: hist0).take 129
  let w := 2 ^ vwin
  match hist[w]? with
  | none => ({ e with hist := hist, v := v0 }, valid0)
  | some c =>
    let raw := tdiv (diff48 p c.p * 2 ^ 32) ((t : Int) - (c.t : Int))
    ({ e with hist := hist, v := if valid0 then v0 + asr (raw - v0) vshift else raw }, true)

/-- Remember a count among the last 8 (R39). -/
def EncPort.remember (e : EncPort) (t : Nat) (p : Int) : EncPort :=
  let l := (⟨t, p⟩ : Count) :: e.last8
  { e with
    last8 := l.take 8
    before := match l[8]? with
      | some c => c.p
      | none => if e.last8.isEmpty then e.pLast else e.before }

/-- `ENC.VEL[p]` at the present instant. -/
def Dev.vel (d : Dev) (p : Nat) : Int := (d.getEnc p).vEff d.t

/-- RATE is set while |`ENC.VEL`| exceeds a RATEMAX that is not 0 (R34). Between counts the velocity only falls, so that this is
asked at a count and at a write of `ENC.RATEMAX` or `ENC.STAT`. -/
def Dev.rateCheck (d : Dev) (p : Nat) : Dev :=
  let max := d.rf ENC_RATEMAX_MAX p
  if max ≠ 0 ∧ max < (d.vel p).natAbs then d.wf ENC_STAT_RATE p 1 else d

/-- Apply one accepted count to a port: position, spacing, estimator and rate flags (R32, R34, R38). -/
def Dev.encCount (d : Dev) (p : Nat) (fwd : Bool) (t : Nat) : Dev :=
  let e := d.getEnc p
  let d :=
    match e.last8 with
    | c :: _ => if t < c.t + 25 then (d.wf ENC_STAT_OVSP p 1).inc ENC_ERRCNT_OVSPS p 1 else d
    | [] => d
  let np : Pos := if fwd then e.pos + 1 else e.pos - 1
  let r := (e.remember t np.toInt).estimate (!fwd) (d.on ENC_STAT_REV p) (d.on ENC_STAT_VALID p) t np.toInt
    (d.rf ENC_CTRL_VWIN p) (d.rf ENC_CTRL_VSHIFT p)
  let e : EncPort := { r.1 with pos := np, lastNow := d.now }
  ((((d.setEnc p e).wf ENC_STAT_VALID p (b2n r.2)).wf ENC_STAT_REV p (b2n (!fwd))).wf ENC_STAT_STALLED p 0).rateCheck p

/-- A stall: history, v and VALID go, STALLED is set (R40). -/
def Dev.encStall (d : Dev) (p : Nat) : Dev :=
  ((d.setEnc p { d.getEnc p with hist := [], v := 0 }).wf ENC_STAT_VALID p 0).wf ENC_STAT_STALLED p 1

/-- Post the LEVEL record of a loss of signal (R30, R394). -/
def Dev.losRecord (d : Dev) (p : Nat) : Dev := d.post .level p ((d.getEnc p).pos.toNat % 2 ^ 32)

/-- A write of `ENC.CTRL` took effect (R30, R36): what setting EN or LOSEVT does. A write that sets both while LOS is live
posts the record too (DESIGN CHOICE, log 53). -/
def Dev.encCtrlDone (d : Dev) (p old : Nat) : Dev :=
  let wasEn := tbit old 0
  let wasEvt := tbit old 13
  let en := d.on ENC_CTRL_EN p
  let evt := d.on ENC_CTRL_LOSEVT p
  let d :=
    if en && !wasEn then
      let d := d.setEnc p { d.getEnc p with hist := [], v := 0, lastNow := d.now, indexed := false }
      let d := d.wf ENC_STAT_VALID p 0
      d.wf ENC_STAT_POSVALID p (b2n (decide (d.rf ENC_CTRL_IDX p ≤ 1)))
    else d
  if en && evt && !(wasEn && wasEvt) && d.on ENC_STAT_LOS p then d.losRecord p else d

end Sys2Proof.Machine
end

