-- ==== Sys2Proof/Machine/Units.lean ====
section
/-! DEFINITION. Small operations on the units that line boundaries, captures and comparator edges reach: triggers of the
monitor converters (R205), resets of the analogue cells (R184) and the end of LINE holds (R192). -/

namespace Sys2Proof.Machine

def Dev.setAnx (d : Dev) (f : Anx → Anx) : Dev := { d with anx := f d.anx }

def Dev.getMcv (d : Dev) (m : Nat) : Mcv := tget d.mcv .reset m

def Dev.setMcv (d : Dev) (m : Nat) (x : Mcv) : Dev := { d with mcv := tset d.mcv .reset m x }

def Dev.getCmp (d : Dev) (n : Nat) : CmpUnit := tget d.anx.cmp .reset n

def Dev.setCmp (d : Dev) (n : Nat) (x : CmpUnit) : Dev := d.setAnx (fun a => { a with cmp := tset a.cmp .reset n x })

/-- Source codes of R205. -/
def mcvLINE : Nat := 1
def mcvCAPTURE : Nat := 2
def mcvCOMPARATOR : Nat := 3

/-- A trigger source of the monitor converters acts (R205): each enabled scan or sequence that selects it has a trigger on its
way, with an instant t0 from TB `ts` to `slack` ns later (R203). -/
def Dev.mcvTrigger (d : Dev) (src sel ts slack : Nat) : Dev :=
  (List.range 2).foldl (fun d m =>
    let x := d.getMcv m
    let lo := d.now - (d.t - ts)
    let trig : Trig := ⟨lo, lo + slack, !(d.on MCV_STAT_PWR m)⟩
    let r := d.on MCV_CTRL_EN m && decide (d.rf MCV_TRIG_SRC m = src) && decide (d.rf MCV_TRIG_SEL m = sel)
    let j := d.on MCV_CTRL_IEN m && decide (d.rf MCV_ITRIG_SRC m = src) && decide (d.rf MCV_ITRIG_SEL m = sel)
    if r || j then d.setMcv m { x with
      trigs := if r then x.trigs ++ [trig] else x.trigs, itrigs := if j then x.itrigs ++ [trig] else x.itrigs }
    else d) d

/-- A reset reaches cell `n` (R184): a pulse of 200 ns from now, if the cell is INTEG or PKHOLD. -/
def Dev.cacReset (d : Dev) (n : Nat) : Dev :=
  if d.rf CAC_CFG_FUNC n = 5 ∨ d.rf CAC_CFG_FUNC n = 8 then
    d.setAnx (fun a => { a with cacRst := tset a.cacRst 0 n (d.now + 200) })
  else d

/-- A reset source reaches every cell that selects it (R184): 1 a line boundary, 2 a rising comparator. -/
def Dev.cacResets (d : Dev) (src sel : Nat) : Dev :=
  ((List.range 32).filter (fun n => decide (d.rf CAC_CFG_RSTSRC n = src) && decide (d.rf CAC_CFG_RSTSEL n = sel))).foldl
    (fun d n => d.cacReset n) d

/-- The comparator whose INP, TSRC, TICK, THEAD, FILT and LMODE serve comparator `n` (R193). -/
def Dev.cmpBase (d : Dev) (n : Nat) : Nat :=
  if n % 2 = 1 ∧ tbit (d.rf CMP_WIN_WEN 0) (n / 2) = true then n - 1 else n

/-- The LINE holds of comparators of head `h` end (R192). -/
def Dev.cmpLineEnd (d : Dev) (h : Nat) : Dev :=
  ((List.range 48).filter (fun n =>
    decide (d.rf CMP_CFG_LMODE (d.cmpBase n) = 2) && decide (d.rf CMP_CFG_THEAD (d.cmpBase n) = h) &&
      d.on CMP_STAT_OUT n)).foldl (fun d n => d.setCmp n { d.getCmp n with ended := true }) d

/-- The next edge of the 100 MHz control clock of PD_ANX, now or later (R176). -/
def Dev.anxEdge (d : Dev) : Nat := ceilDiv d.now 10 * 10

/-- The closing instant of a switch moved now: break-before-make on the control clock (R176). -/
def Dev.switchAt (d : Dev) : Nat := d.anxEdge + 20

/-- A bus is isolated (R179). -/
def Dev.isolated (d : Dev) (b : Nat) : Bool :=
  if b < 32 then tbit (d.rf ASW_TRIP0_BUS 0) b else tbit (d.rf ASW_TRIP1_BUS 0) (b - 32)

/-- The bus a source endpoint names, if it is a source of one (R174, R177). -/
def Dev.sourceBus (d : Dev) (e : Nat) : Option Nat :=
  let b := if e < 32 then d.rf ASW_AX_BUS e else d.rf CAC_SEL_OBUS (e - 32)
  if 64 ≤ b ∨ (e < 32 ∧ d.on ASW_AX_DIR e = true) then none else some b

/-- The source endpoints that name a bus (R177). -/
def Dev.busSources (d : Dev) (b : Nat) : List Nat :=
  (List.range 64).filter (fun e => decide (d.sourceBus e = some b))

/-- The cell uses its input (R181): P or N. -/
def Dev.cacUses (d : Dev) (n : Nat) (p : Bool) : Bool :=
  let f := d.rf CAC_CFG_FUNC n
  if p then decide (f = 1 ∨ f = 2 ∨ f = 4 ∨ f = 6 ∨ f = 8) else decide (f = 3 ∨ f = 4 ∨ f = 5 ∨ f = 7)

/-- The bus that the selector of an endpoint names, 127 where the endpoint is open all the same. Endpoints: AX pin 0, cell output
32, P input 64, N input 96, comparator INP 128, INN 176, tap 224. A cell that is OFF opens its output, and an input that its
function does not use (R181, R183); a paired comparator has INP from its partner (R193). -/
def Dev.endBus (d : Dev) (e : Nat) : Nat :=
  if e < 32 then d.rf ASW_AX_BUS e
  else if e < 64 then (if d.rf CAC_CFG_FUNC (e - 32) = 0 then 127 else d.rf CAC_SEL_OBUS (e - 32))
  else if e < 96 then (if d.cacUses (e - 64) true then d.rf CAC_SEL_PBUS (e - 64) else 127)
  else if e < 128 then (if d.cacUses (e - 96) false then d.rf CAC_SEL_NBUS (e - 96) else 127)
  else if e < 176 then d.rf CMP_CFG_INP (d.cmpBase (e - 128))
  else if e < 224 then d.rf CMP_CFG_INN (e - 176)
  else d.rf ASW_MTAP_BUS (e - 224)

/-- The bus onto which the switch of an endpoint is closed now, 127 for none (R175, R176, R179, R183): after a move the old switch
stands until the control edge, and the new one closes 20 ns after it. -/
def Dev.switchBus (d : Dev) (e : Nat) : Nat :=
  let till := tget d.anx.closeAt 0 e
  let b := if d.now + 20 < till then tget d.anx.cutBus 127 e else if d.now < till then 127 else d.endBus e
  let settling := decide (32 ≤ e ∧ e < 64) && decide (d.now < tget d.anx.cacOpen 0 (e - 32))
  if d.anx.released = false ∨ 64 ≤ b ∨ d.isolated b = true ∨ settling = true then 127 else b

/-- The switch of an endpoint is closed now. -/
def Dev.switchClosed (d : Dev) (e : Nat) : Bool := decide (d.switchBus e ≠ 127)

/-- The switch of endpoint `e` moves away from bus `old` (R176). -/
def Dev.moveSwitch (d : Dev) (e old : Nat) : Dev :=
  d.setAnx (fun a => { a with closeAt := tset a.closeAt 0 e d.switchAt, cutBus := tset a.cutBus 127 e old })

/-- The switch of endpoint `e` moves if a write has changed what it is selected for; `o` is the device before the write. -/
def Dev.moveIf (o d : Dev) (e : Nat) : Dev := if o.endBus e = d.endBus e then d else d.moveSwitch e (o.switchBus e)

/-- A cell is in use: enabled, with an ABUS switch closed (R147). -/
def Dev.cacInUse (d : Dev) (n : Nat) : Bool :=
  decide (d.rf CAC_CFG_FUNC n ≠ 0) && (d.switchClosed (64 + n) || d.switchClosed (96 + n) || d.switchClosed (32 + n))

end Sys2Proof.Machine
end

