-- ==== Sys2Proof/Machine/CalBase.lean ====
section
/-! DEFINITION. Calibration bookkeeping: items, commands, results, parts and load contexts (R144, R154, R155, R157,
R158, R162 to R164). -/

namespace Sys2Proof.Machine

def Dev.setPcu (d : Dev) (f : Pcu → Pcu) : Dev := { d with pcu := f d.pcu }

def Dev.setCal (d : Dev) (f : Cal → Cal) : Dev := { d with cal := f d.cal }

def Dev.getMit (d : Dev) (g : Nat) : Mitten := tget d.pcu.mit .reset g

def Dev.setMit (d : Dev) (g : Nat) (m : Mitten) : Dev := d.setPcu (fun p => { p with mit := tset p.mit .reset g m })

/-- Part number of an item (R162). Kinds: 0 REF, 1 SLICE, 2 AFE, 3 DARK, 4 FLAT, 5 CMP, 6 MCV, 7 CAC. -/
def partOf (kind item : Nat) : Nat :=
  match kind with
  | 0 => 0
  | 1 => 1 + item / 13
  | 2 => 16 + item
  | 3 => 48 + item
  | 4 => 80 + item
  | 5 => 9
  | 6 => 10
  | _ => 11

/-- `CAL.RSTAT.ITEM` of an item. -/
def itemCode (kind item : Nat) : Nat :=
  if kind = 1 then
    let g := item / 13
    let s := item % 13
    if s < 8 then 8 * g + s else 64 + 5 * g + s - 8
  else item

def partExists (n : Nat) : Bool :=
  decide (n ≤ 11) || decide (16 ≤ n ∧ n < 40) || decide (48 ≤ n ∧ n < 72) || decide (80 ≤ n ∧ n < 104)

/-- All part numbers. -/
def partList : List Nat := (List.range 104).filter partExists

def Dev.getPart (d : Dev) (n : Nat) : Part := tget d.cal.parts .reset n

def Dev.setPart (d : Dev) (n : Nat) (p : Part) : Dev := d.setCal (fun c => { c with parts := tset c.parts .reset n p })

/-- Enabled channels of the device. -/
def Dev.enabledCount (d : Dev) : Nat := ((List.range 96).filter (fun c => d.on AFE_CH_EN c)).length

/-- Lines the head fired in the last second (R162). -/
def Dev.rate (d : Dev) (h : Nat) : Nat :=
  ((tget d.pcu.fired [] h).filter (fun n => decide (d.now < n + 1000000000))).length

/-- Setup of a head (R162): windows, PGA, TRNG, TRIMEN, CLPTGT, INMODE, SAMP of its channels, and BYPASS. -/
def Dev.setupOf (d : Dev) (h : Nat) : List Nat :=
  d.rf PCU_HCFG_BYPASS h :: (chansOf h).flatMap (fun c =>
    [(d.rreg .PCU_WIN c).toNat, d.rf AFE_PGA_GAIN c, d.rf AFE_CH_TRNG c, d.rf AFE_CH_TRIMEN c, d.rf AFE_CLPTGT_TGT c,
      d.rf AFE_CH_INMODE c, d.rf AFE_CH_SAMP c])

/-- The heads whose clock, rate or setup a part compares (R162). -/
def partHeads (n : Nat) : List Nat :=
  if 1 ≤ n ∧ n ≤ 8 then [3 * (n - 1), 3 * (n - 1) + 1, 3 * (n - 1) + 2]
  else if 16 ≤ n ∧ n < 40 then [n - 16]
  else if 48 ≤ n ∧ n < 72 then [n - 48]
  else if 80 ≤ n then [n - 80]
  else []

/-- The live load context, as a part records it (R162). -/
def Dev.ctxOf (d : Dev) (n : Nat) : Ctx :=
  { temps := d.cal.temps, vana := d.cal.vana, act := d.cal.act, ch := d.enabledCount
    freqs := (partHeads n).map (fun h => d.rf HCP_HCKFREQ_FREQ h)
    rates := (partHeads n).map d.rate
    setup := if 48 ≤ n then (partHeads n).flatMap d.setupOf else [] }

/-- A part is taken: VALID with the present context; a STALE part becomes valid again with an EDGE record (R163). -/
def Dev.takePart (d : Dev) (n : Nat) : Dev :=
  let was := (d.getPart n).state
  let d := d.setPart n ⟨1, 0, d.t / 1000000000, d.ctxOf n⟩
  if was = 2 then d.post .edge 0x0E0 n else d

/-- A value scaled and compared as in R163; a component whose window is 0 is skipped. -/
def distOf (a b : Int) (win : Nat) : Nat := if win = 0 then 0 else (a - b).natAbs * 256 / win

/-- Distance of a part from the live context (R163). -/
def Dev.distance (d : Dev) (n : Nat) : Nat :=
  let p := (d.getPart n).ctx
  let c := d.ctxOf n
  let t := ((c.temps.zip p.temps).map (fun x => distOf x.1 x.2 (d.rf CAL_CTX_WIN0_DT 0))).foldl max 0
  let v := distOf c.vana p.vana (d.rf CAL_CTX_WIN0_DVANA 0)
  let full := decide (1 ≤ n ∧ n ≤ 8) || decide (16 ≤ n)
  let a := if full then distOf c.act p.act (d.rf CAL_CTX_WIN1_DACT 0) else 0
  let h := if full then distOf c.ch p.ch (d.rf CAL_CTX_WIN1_DCH 0) else 0
  let dclk := d.rf CAL_CTX_WIN1_DCLK 0
  let heads := partHeads n
  let f := if dclk = 0 then 0 else
    ((heads.zip (c.freqs.zip p.freqs)).map (fun x =>
      if (1 ≤ n ∧ n ≤ 8) ∧ (enabledChans d.regs x.1).isEmpty = true then 0
      else (((x.2.1 : Int) - (x.2.2 : Int)).natAbs * 1024 * 256) / (x.2.2 * dclk))).foldl max 0
  let drate := d.rf CAL_CTX_WIN1_DRATE 0
  let r := if drate = 0 ∨ n < 16 then 0 else
    ((c.rates.zip p.rates).map (fun x =>
      if x.1 = 0 ∨ x.2 = 0 then 0 else (((x.1 : Int) - (x.2 : Int)).natAbs * 100 * 256) / (x.2 * drate))).foldl max 0
  let m := [t, v, a, h, f, r].foldl max 0
  if c.setup = p.setup then min m 65535 else 65535

/-- The context check of one part (R163). -/
def Dev.checkPart (d : Dev) (n : Nat) : Dev :=
  let p := d.getPart n
  if p.state = 0 then d
  else
    let dist := d.distance n
    let st := if 256 < dist then 2 else if dist ≤ 192 then 1 else p.state
    let d := d.setPart n { p with dist := dist, state := st }
    if st = p.state then d else d.post .edge 0x0E0 (n + (if st = 2 then 256 else 0))

/-- The distance of parts at the moment at which they come into use (R163). -/
def Dev.checkParts (d : Dev) (l : List Nat) : Dev := l.foldl (fun d n => d.checkPart n) d

/-- A part is STALE or EMPTY. -/
def Dev.partStale (d : Dev) (n : Nat) : Bool := decide ((d.getPart n).state ≠ 1)

/-- Lines of the head carry STALE_CAL for its parts (R164). -/
def Dev.headStale (d : Dev) (h : Nat) : Bool :=
  d.partStale 0 || d.partStale (1 + groupOf h) || d.partStale (16 + h) || d.partStale (48 + h) || d.partStale (80 + h)

def Dev.isDue (d : Dev) (kind item : Nat) : Bool := tbit (tget d.cal.due 0 kind) item

def Dev.setDue (d : Dev) (kind item : Nat) (b : Bool) : Dev :=
  d.setCal (fun c => { c with due := tset c.due 0 kind (setBit (tget c.due 0 kind) item b) })

/-- Where the due bookkeeping of an item stands. -/
def itemKey (kind item : Nat) : Nat := kind * 256 + item

/-- The result registers of a kind (R154, R155, R157, R158). -/
def Dev.setResult (d : Dev) (kind handle status item stat val : Nat) : Dev :=
  (((d.wf CAL_RSTAT_HANDLE kind handle).wf CAL_RSTAT_STATUS kind status).wf CAL_RSTAT_ITEM kind item).wf CAL_RSTAT_STAT
    kind stat |>.wf CAL_RVAL_VAL kind val

/-- The first failing item in item order (R158). -/
def worseItem (bad : Option (Nat × Nat × Nat × Nat)) (item status stat val : Nat) : Option (Nat × Nat × Nat × Nat) :=
  if status = stOK then bad
  else match bad with
    | none => some (item, status, stat, val)
    | some b => if item < b.1 then some (item, status, stat, val) else some b

/-- A command whose items are all finished: its results and its final record (R158, R372). -/
def Dev.closeCmd (d : Dev) (c : CalCmd) : Dev :=
  match c.bad with
  | none => (d.setResult c.kind c.handle stOK 0 0 (if c.skipped = 0 then c.val else c.skipped)).finish c.handle stOK 0
  | some (item, status, stat, val) =>
    (d.setResult c.kind c.handle status (itemCode c.kind item) stat val).finish c.handle status
      (itemCode c.kind item + stat * 256)

/-- The command that names an item. Start-up calibration is a command without a handle: handle 0 (R352). -/
def Dev.cmdOf (d : Dev) (kind item : Nat) : Option CalCmd :=
  d.cal.cmds.find? (fun c => decide (c.kind = kind) && c.left.contains item)

/-- A command loses an item that has ended. -/
def Dev.cmdEnds (d : Dev) (c : CalCmd) (item status stat val skip : Nat) : Dev :=
  let c' : CalCmd := { c with
    left := c.left.filter (fun x => decide (x ≠ item)), bad := worseItem c.bad item status stat val
    val := if status = stOK ∧ skip = 0 then val else c.val
    skipped := Nat.lor c.skipped skip }
  let d := d.setCal (fun k => { k with
    cmds := k.cmds.filterMap (fun x => if x = c then (if c'.left.isEmpty then none else some c') else some x) })
  if c'.left.isEmpty then d.closeCmd c' else d

/-- An item that is not due any more: it has completed with OK at the present temperatures (R157). -/
def Dev.itemDone (d : Dev) (kind item : Nat) : Dev :=
  (d.setDue kind item false).setCal (fun c => { c with
    lastTemps := tset c.lastTemps [] (itemKey kind item) c.temps
    skipSeen := if kind = 7 then setBit c.skipSeen item false else c.skipSeen })

/-- A calibration item ends: for its command, or for the temperature run (R154, R157, R158). An item of start-up
calibration that fails stays due (R352). -/
def Dev.itemEnds (d : Dev) (kind item status stat val : Nat) : Dev :=
  let d := d.setCal (fun c => { c with
    items := c.items.filter (fun x => decide (¬ (x.kind = kind ∧ x.item = item))) })
  let d := if status = stOK then (d.itemDone kind item).setCal (fun c => { c with changed := true }) else d
  match d.cmdOf kind item with
  | some c =>
    let d := if c.handle = 0 ∧ status ≠ stOK then d.setDue kind item true else d
    d.cmdEnds c item status stat val 0
  | none =>
    let d := d.setResult kind 0 status (if status = stOK then 0 else itemCode kind item) stat val
    if status = stOK then d
    else
      let d := d.setCal (fun c => { c with retryAt := tset c.retryAt 0 (itemKey kind item) (d.now + 10000000000) })
      d.post .fault 0x0E2 (partOf kind item)

/-- An item is skipped: a FAILED slice, which completes at once with OK, or a cell in use, whose item stays due; RVAL reports it
(R145, R147). -/
def Dev.itemSkipped (d : Dev) (kind item : Nat) : Dev :=
  let d := if kind = 1 then d.itemDone 1 item
    else (d.setDue kind item true).setCal (fun c => { c with skipSeen := setBit c.skipSeen item true })
  match d.cmdOf kind item with
  | some c => d.cmdEnds c item stOK 0 0 (if kind = 1 then 2 ^ (item % 13) else 2 ^ item)
  | none => d.setResult kind 0 stOK 0 0 (if kind = 1 then 2 ^ (item % 13) else d.cal.skipSeen)

/-- The item runs. -/
def Dev.itemRuns (d : Dev) (kind item : Nat) : Bool :=
  d.cal.items.any (fun x => decide (x.kind = kind ∧ x.item = item))

/-- An item starts. -/
def Dev.addItem (d : Dev) (kind item : Nat) : Dev :=
  d.setCal (fun c => { c with items := c.items ++ [⟨kind, item, false, 0, 0, none⟩] })

def Dev.learnOf (d : Dev) (h : Nat) : Option Learn := d.cal.learns.find? (fun l => decide (l.head = h))

def Dev.setLearn (d : Dev) (l : Learn) : Dev :=
  d.setCal (fun c => { c with learns := c.learns.map (fun x => if x.head = l.head then l else x) })

/-- A learn ends and leaves the old targets in force, or has written its results (R148). -/
def Dev.learnEnds (d : Dev) (l : Learn) (status stat val : Nat) : Dev :=
  (d.setCal (fun c => { c with learns := c.learns.filter (fun x => decide (x.head ≠ l.head)) })).itemEnds l.kind l.head
    status stat val

/-- An automatic store is asked for (R170). -/
def Dev.wantStore (d : Dev) : Dev :=
  if d.on CAL_STORECFG_AUTO 0 then d.setCal (fun c => { c with heldStore := true }) else d

end Sys2Proof.Machine
end

