-- ==== Sys2Proof/Machine/Cnv.lean ====
section
/-! DEFINITION. Converter slices and the mitten: coefficients, equality, handovers, failures (R113 to R125). -/

namespace Sys2Proof.Machine

/-- Register index of slice g.s. -/
def sliceIdx (g s : Nat) : Nat := 13 * g + s

/-- The code of R116: the value kept for the compare and the code passed on. -/
def sliceX16 (raw : Nat) (ofs gain : Int) : Int := asr (((raw : Int) * 16 - ofs) * (262144 + gain) + 131072) 18

def sliceCode (raw : Nat) (ofs gain : Int) : Nat := (clampI 0 16383 (asr (sliceX16 raw ofs gain + 8) 4)).toNat

/-- A channel is doubled in a register map (R114). -/
def doubledOf (t : Tab Word) (c : Nat) : Bool := tbit (fieldOf t CNV_DBL_PAIR (c / 12)) (c % 12 / 2) && decide (c % 2 = 0)

/-- The working slice that converts pixel `k` of channel `c` (R113, R114). -/
def sliceOf (t : Tab Word) (c : Nat) (k : Int) : Nat :=
  if doubledOf t c then c % 12 + (if k % 2 = 0 then 0 else 1) else c % 12

/-- The converter that delivers it: the slice, or the mitten in its place. -/
def converterOf (t : Tab Word) (c : Nat) (k : Int) : Nat :=
  let s := sliceOf t c k
  if fieldOf t CNV_SSTAT_COVERED (sliceIdx (c / 12) s) ≠ 0 then 12 else s

/-- The channel a slice serves: the even channel of a doubled pair (R114). -/
def channelOfSlice (t : Tab Word) (g s : Nat) : Nat :=
  let c := 12 * g + s
  if s % 2 = 1 ∧ doubledOf t (c - 1) = true then c - 1 else c

def coefOfs (t : Tab Word) (i : Nat) : Int := sx 12 (fieldOf t CNV_SOFS_OFS i)

def coefGain (t : Tab Word) (i : Nat) : Int := sx 16 (fieldOf t CNV_SGAIN_GAIN i)

/-- Put coefficients into force. -/
def Dev.setCoef (d : Dev) (i : Nat) (c : Coef) : Dev :=
  ((d.wfi CNV_SOFS_OFS i c.ofs).wfi CNV_SGAIN_GAIN i c.gain).wfi CNV_SAPT_APT i c.apt

/-- The registers of the mitten state (R117). -/
def Dev.mitState (d : Dev) (g : Nat) : Nat := d.rf CNV_MIT_STATE g

def Dev.mitSlice (d : Dev) (g : Nat) : Nat := d.rf CNV_MIT_SLICE g

/-- A phase begins: the limits in force are taken (MITCFG takes effect at the next phase). -/
def Dev.mitPhase (d : Dev) (g st s : Nat) : Dev :=
  let m := d.getMit g
  let d := d.setMit g { m with
    equal := false, eqMean := d.rf CNV_MITCFG0_EQMEAN 0, eqRms := d.rf CNV_MITCFG0_EQRMS 0
    eqPk := d.rf CNV_MITCFG0_EQPK 0, eqLines := d.rf CNV_MITCFG1_EQLINES 0, idleUs := d.rf CNV_MITCFG1_IDLE 0 }
  (((d.wf CNV_MIT_STATE g st).wf CNV_MIT_SLICE g s).wf CNV_MIT_LINES g 0).wf CNV_MITCNT_PASS g 0

/-- The mitten returns to IDLE. -/
def Dev.mitIdle (d : Dev) (g : Nat) : Dev :=
  (d.setMit g { d.getMit g with held := none, old := none, giveUp := false }).mitPhase g 0 15

/-- The coefficients in force of a converter. -/
def Dev.coefNow (d : Dev) (i : Nat) : Coef := ⟨coefOfs d.regs i, coefGain d.regs i, d.rfi CNV_SAPT_APT i⟩

/-- A slice that has been given new coefficients takes its old ones back (R124). -/
def Dev.coefBack (d : Dev) (g s : Nat) : Dev :=
  match (d.getMit g).old with
  | some c => (d.setCoef (sliceIdx g s) c).setMit g { d.getMit g with old := none }
  | none => d

/-- Slice s delivers, or the mitten in its place. -/
def Dev.deliverBy (d : Dev) (g s : Nat) (mitten : Bool) : Dev := d.wf CNV_SSTAT_COVERED (sliceIdx g s) (b2n mitten)

/-- A converter delivers (R113, R114, R117): a slice for its enabled channel unless the mitten covers it, the mitten while
it delivers in the place of a slice. -/
def Dev.delivers (d : Dev) (i : Nat) : Bool :=
  let g := i / 13
  let s := i % 13
  if s = 12 then decide (2 ≤ d.mitState g ∧ d.mitState g ≤ 4)
  else !(d.on CNV_SSTAT_COVERED i) && d.on AFE_CH_EN (channelOfSlice d.regs g s)

/-- A rotation starts on a slice (R121, R145). -/
def Dev.rotationStart (d : Dev) (g s : Nat) : Dev := d.mitPhase g 1 s

/-- A slice is declared failed (R125). -/
def Dev.sliceFails (d : Dev) (g s : Nat) : Dev :=
  let d := d.wf CNV_SSTAT_FAILED (sliceIdx g s) 1
  let d := d.post .fault (0x0C0 + g) s
  if d.mitState g = 4 then d.wantStore
  else
    (((d.deliverBy g s true).setMit g { d.getMit g with held := none }).mitPhase g 4 s).wantStore

/-- The head of the slice the mitten works on. -/
def Dev.mitHead (d : Dev) (g : Nat) : Nat := headOf (channelOfSlice d.regs g (d.mitSlice g))

/-- Values of a channel whose change restarts the pass count (R119). -/
def eqVals (t : Tab Word) (c : Nat) : List Nat :=
  [fieldOf t AFE_PGA_GAIN c, fieldOf t AFE_CH_FILT c, fieldOf t AFE_CH_TRNG c, fieldOf t AFE_CH_TRIMEN c]

/-- A handover takes place (R120, R121): SHADOW to COVER, or RETURN to IDLE with the slice's calibration complete. -/
def Dev.handover (d : Dev) (g num : Nat) : Dev :=
  let s := d.mitSlice g
  match d.mitState g with
  | 1 => (d.deliverBy g s true).mitPhase g 2 s
  | 3 =>
    let up := (d.getMit g).giveUp
    let d := (d.deliverBy g s false).mitIdle g
    if up then d.itemEnds 1 (sliceIdx g s) stABORTED 0 0
    else (d.takePart (1 + g)).itemEnds 1 (sliceIdx g s) stOK 0 num
  | _ => d

/-- Between COVER and RETURN: the slice is reconnected with its new coefficients (R121). -/
def Dev.reconnect (d : Dev) (g : Nat) : Dev :=
  let s := d.mitSlice g
  match (d.getMit g).held with
  | none => d
  | some c =>
    let old := d.coefNow (sliceIdx g s)
    ((d.setCoef (sliceIdx g s) c).setMit g { d.getMit g with held := none, old := some old }).mitPhase g 3 s

/-- The mitten at a commit point of the head (R119, R120, R121). -/
def Dev.mitCommit (d : Dev) (h num : Nat) (prev : Option (Tab Word)) : Dev :=
  let g := groupOf h
  if d.mitState g = 0 ∨ d.mitState g = 4 ∨ d.mitHead g ≠ h then d
  else
    let c := channelOfSlice d.regs g (d.mitSlice g)
    let changed := match prev with
      | none => false
      | some t => decide (phaseVals t h ≠ phaseVals d.regs h ∨ eqVals t c ≠ eqVals d.regs c)
    if d.mitState g = 2 then d.reconnect g
    else if changed then (d.setMit g { d.getMit g with equal := false }).wf CNV_MITCNT_PASS g 0
    else if (d.getMit g).equal then d.handover g num
    else d

/-- The tests of R118 on one line or set; mean and rms in 1/16 LSB, peak in 1/16 LSB. -/
def Mitten.passes (m : Mitten) (mean : Int) (rms peak : Nat) : Bool :=
  decide (mean.natAbs ≤ m.eqMean) && decide (rms ≤ m.eqRms) && decide (peak ≤ 16 * m.eqPk)

/-- The firmware brings the converters together after a line (R118): wholly in SHADOW, in small steps in RETURN. -/
def Dev.mitAdjust (d : Dev) (g : Nat) (mean gdiff : Int) : Dev :=
  let i := sliceIdx g 12
  let ofs := coefOfs d.regs i
  let gain := coefGain d.regs i
  let put (o g : Int) : Dev :=
    (d.wfi CNV_SOFS_OFS i (clampI (-2048) 2047 o)).wfi CNV_SGAIN_GAIN i (clampI (-32768) 32767 g)
  if d.mitState g = 1 then put (ofs + mean) (gain - gdiff)
  else put (ofs + clampI (-1) 1 mean) (gain - clampI (-4) 4 gdiff)

/-- The comparison of a fired line (R118): the counts, the equality, and the adjustment. -/
def Dev.mitLine (d : Dev) (g : Nat) (mean : Int) (rms peak : Nat) (gdiff : Int) : Dev :=
  if d.mitState g = 1 ∨ d.mitState g = 3 then
    let m := d.getMit g
    let pass := m.passes mean rms peak
    let n := if pass then min (d.rf CNV_MITCNT_PASS g + 1) 255 else 0
    let d := ((d.wf CNV_MITCNT_PASS g n).wfi CNV_MITCNT_MEAN g (clampI (-2048) 2047 mean)).wf CNV_MITCNT_RMS g
      (min rms 4095)
    (d.setMit g { m with equal := pass && (m.equal || decide (m.eqLines ≤ n)) }).mitAdjust g mean gdiff
  else d

/-- The head fires no line: not armed, in HOLD, or idle for `us` µs; a line that has been committed ends it (R123). -/
def Dev.headIdle (d : Dev) (h us : Nat) : Bool :=
  (d.getLtg h).issued.isEmpty &&
    (!(d.on LTG_CTRL_ARM h) || decide (d.pwr.st ≠ .run) || decide (tget d.pcu.lastFire 0 h + 1000 * us ≤ d.now))

/-- The idle handover applies to the slice that the mitten works on (R123): its head fires no line, or its channel is
disabled (R124). -/
def Dev.mitQuiet (d : Dev) (g : Nat) : Bool :=
  let c := channelOfSlice d.regs g (d.mitSlice g)
  d.headIdle (headOf c) (d.getMit g).idleUs || decide (fieldOf (d.inForce (headOf c)) AFE_CH_EN c = 0)

/-- An idle handover (R123): one passing set suffices. -/
def Dev.mitIdleSet (d : Dev) (g : Nat) (mean : Int) (rms peak : Nat) : Dev :=
  let m := d.getMit g
  if d.mitQuiet g = false then d
  else if d.mitState g = 2 then d.reconnect g
  else if d.mitState g = 1 ∨ d.mitState g = 3 then
    if m.passes mean rms peak then d.handover g 0 else d
  else d

/-- A phase reached MAXLN fired lines without equality (R122). -/
def Dev.mitMaxln (d : Dev) (g : Nat) : Dev :=
  if d.rf CNV_MIT_LINES g < 4096 ∨ (d.getMit g).equal = true then d
  else
    let s := d.mitSlice g
    match d.mitState g with
    | 1 => (d.mitIdle g).itemEnds 1 (sliceIdx g s) stTIMEOUT 9 0
    | 3 => (d.sliceFails g s).itemEnds 1 (sliceIdx g s) stBAD_STATE 10 0
    | _ => d

/-- The covered slice's reference calibration ends (R121, R122). -/
def Dev.sliceRefDone (d : Dev) (g : Nat) (ok : Bool) (c : Coef) (resid spur : Nat) : Dev :=
  if d.mitState g ≠ 2 then d
  else
    let s := d.mitSlice g
    if ok then
      ((d.setMit g { d.getMit g with held := some c }).wf CNV_SQUAL_RESID (sliceIdx g s) resid).wf CNV_SQUAL_SPUR
        (sliceIdx g s) spur
    else (d.sliceFails g s).itemEnds 1 (sliceIdx g s) stBAD_STATE 10 0

/-- A rotation is given up (R124, R159, R375): in SHADOW the slice still delivers; otherwise it takes its place back
with its old coefficients at an idle handover. -/
def Dev.rotationGiveUp (d : Dev) (g : Nat) : Dev :=
  let s := d.mitSlice g
  match d.mitState g with
  | 1 => (d.mitIdle g).itemEnds 1 (sliceIdx g s) stABORTED 0 0
  | 2 => (d.setMit g { d.getMit g with held := none, giveUp := true }).mitPhase g 3 s
  | 3 => (d.coefBack g s).setMit g { (d.coefBack g s).getMit g with giveUp := true }
  | _ => d

/-- A rotation is abandoned at once, without a record: a reset (R124, R353). The slice has its coefficients of the set in
force. -/
def Dev.rotationDrop (d : Dev) (g : Nat) : Dev :=
  match d.mitState g with
  | 0 => d
  | 4 => d
  | _ => ((d.coefBack g (d.mitSlice g)).deliverBy g (d.mitSlice g) false).mitIdle g

/-- The mitten of the group is in SHADOW, COVER or RETURN on a slice of a pair (R114). -/
def Dev.mitOnPair (d : Dev) (g p : Nat) : Bool :=
  decide (1 ≤ d.mitState g ∧ d.mitState g ≤ 3) && decide (d.mitSlice g / 2 = p)

/-- The mitten of the group is in SHADOW, COVER or RETURN (R345). -/
def Dev.mitBusy (d : Dev) (g : Nat) : Bool := decide (1 ≤ d.mitState g ∧ d.mitState g ≤ 3)

end Sys2Proof.Machine
end

