-- ==== Sys2Proof/Machine/Tables.lean ====
section
/-! DEFINITION. Correction tables: windows, the fetch and its slew, staging, TSYNC (R100, R126 to R132). -/

namespace Sys2Proof.Machine

def Dev.setTab (d : Dev) (f : Tables → Tables) : Dev := d.setPcu (fun p => { p with tables := f p.tables })

/-- The neutral PCT entry: gain 8,192, offset 0, no flags (R126). -/
def neutralPct : Nat := 8192 * 2 ^ 18

def pctGain (e : Nat) : Nat := bitsOf e 18 14

def pctOfs (e : Nat) : Int := sx 12 (bitsOf e 6 12)

def pctFlag (e i : Nat) : Bool := tbit e i

def pctEntry (gain : Nat) (ofs : Int) (low : Nat) : Nat := gain * 2 ^ 18 + ux 12 ofs * 2 ^ 6 + low % 64

/-- Table index of pool entry `j` of group `g` (R126). -/
def tabIdx (g j : Nat) : Nat := 12288 * g + j

def Dev.pctTarget (d : Dev) (i : Nat) : Nat := tget d.pcu.tables.pctT neutralPct i

def Dev.pctLive (d : Dev) (i : Nat) : Nat := tget d.pcu.tables.pctL neutralPct i

def Dev.pttTarget (d : Dev) (i : Nat) : Nat := tget d.pcu.tables.pttT 0 i

def Dev.pttLive (d : Dev) (i : Nat) : Nat := tget d.pcu.tables.pttL 0 i

/-- The step of R129: `sl` 0 means no limit. -/
def slewStep (a b : Int) (sl : Nat) : Int := if sl = 0 then b else a + clampI (-(sl : Int)) sl (b - a)

/-- One fetch of a PCT entry (R129). -/
def slewPct (live target sl : Nat) : Nat :=
  pctEntry (slewStep (pctGain live) (pctGain target) sl).toNat (slewStep (pctOfs live) (pctOfs target) sl) (target % 64)

/-- One fetch of a PTT code (R129). -/
def slewPtt (live target sl : Nat) : Nat := ux 8 (slewStep (sx 8 live) (sx 8 target) sl)

/-- The target of an entry is written: an uncorrectable one is good again (R131). -/
def Dev.putTarget (d : Dev) (pct : Bool) (i v : Nat) : Dev :=
  d.setTab (fun t =>
    if pct then { t with pctT := tset t.pctT neutralPct i v, badPct := t.badPct.filter (fun x => decide (x ≠ i)) }
    else { t with pttT := tset t.pttT 0 i (v % 256), badPtt := t.badPtt.filter (fun x => decide (x ≠ i)) })

/-! TSYNC copies (R130) -/

/-- Entry `n` of some windows, in window order. -/
def winEntry : List (Nat × Nat) → Nat → Option Nat
  | [], _ => none
  | (base, len) :: r, n => if n < len then some (base + n) else winEntry r (n - len)

/-- Entries of some windows. -/
def winTotal (l : List (Nat × Nat)) : Nat := (l.map (fun w => w.2)).foldl (· + ·) 0

/-- The copy takes its next entry; an uncorrectable target leaves the live entry (R131). -/
def Dev.tsyncEntry (d : Dev) (h : Nat) (r : TsyncRun) : Dev :=
  match winEntry r.wins r.next with
  | none => d
  | some j =>
    let i := tabIdx (groupOf h) j
    d.setTab (fun t => { t with
      pctL := if t.badPct.contains i then t.pctL else tset t.pctL neutralPct i (tget t.pctT neutralPct i)
      pttL := if t.badPtt.contains i then t.pttL else tset t.pttL 0 i (tget t.pttT 0 i)
      tsync := tset t.tsync none h (some { r with next := r.next + 1 }) })

/-- The copy takes `n` entries. -/
def Dev.tsyncTake (d : Dev) (h : Nat) : Nat → Dev
  | 0 => d
  | n + 1 =>
    match tget d.pcu.tables.tsync none h with
    | none => d
    | some r => (d.tsyncEntry h r).tsyncTake h n

/-- Every copy that runs has reached its entry of the present instant: 16 µs per 8,192 entries. -/
def Dev.tsyncCatch (d : Dev) : Dev :=
  d.pcu.tables.tsync.foldl (fun d e => match e.2 with
    | none => d
    | some r => d.tsyncTake e.1 (min (winTotal r.wins) ((d.now - r.start) * 8192 / 16000) - r.next)) d

/-! Errors (R131) -/

/-- Corrected and uncorrectable errors are counted for the group. -/
def Dev.eccCount (d : Dev) (g : Nat) (e : RamEcc) : Dev :=
  match e with
  | .clean => d
  | .single => d.inc PCU_ECCCNT_SBE g 1
  | .double => d.inc PCU_ECCCNT_DBE g 1

/-- One FAULT record per group and line for uncorrectable errors: the lines that have one are kept while a fetch of the
group goes on. -/
def Dev.tableFault (d : Dev) (g h num j : Nat) : Dev :=
  let key := num * 32 + h + 1
  let told := tget d.pcu.tables.faultLine [] g
  if told.contains key then d
  else (d.setTab (fun t => { t with faultLine := tset t.faultLine [] g ((key :: told).take 16) })).post .fault (0x0C8 + g) j

/-- A target entry is uncorrectable until it is written. -/
def Dev.targetBad (d : Dev) (pct : Bool) (i : Nat) : Dev :=
  d.setTab (fun t => if pct then { t with badPct := i :: t.badPct } else { t with badPtt := i :: t.badPtt })

/-! Host writes (R127, R128) -/

/-- A host write of a target enters: one PCT entry, or the four PTT entries of a word (R127). -/
def Dev.enterTarget (d : Dev) (w : TabWrite) : Dev :=
  let d := d.tsyncCatch
  if w.pct then d.putTarget true w.idx w.val
  else (List.range 4).foldl (fun d n => d.putTarget false (w.idx + n) (w.val / 2 ^ (8 * n) % 256)) d

/-- The window of a channel in force (R126): the written one, or while it is line-shadowed that of the last commit point or
of the arming. -/
def Dev.winOf (d : Dev) (c : Nat) : Word :=
  if d.shadowed (headOf c) then (tfind d.pcu.tables.wins c).getD (d.rreg .PCU_WIN c) else d.rreg .PCU_WIN c

/-- First entry and length of the window in force. -/
def Dev.winRange (d : Dev) (c : Nat) : Nat × Nat :=
  let w := (d.winOf c).toNat
  (bitsOf w PCU_WIN_BASE.lsb PCU_WIN_BASE.width, bitsOf w PCU_WIN_LEN.lsb PCU_WIN_LEN.width)

/-- The written windows of a head come into force (R13, R126). -/
def Dev.winTake (d : Dev) (h : Nat) : Dev :=
  d.setTab (fun t => { t with
    wins := (chansOf h).foldl (fun m c => tinsert (terase m c) c (d.rreg .PCU_WIN c)) t.wins })

def Dev.fetchesOf (d : Dev) (c : Nat) : List Fetch := tget d.pcu.tables.fetch [] c

def Dev.setFetches (d : Dev) (c : Nat) (l : List Fetch) : Dev :=
  d.setTab (fun t => { t with fetch := tset t.fetch [] c l })

/-- The fetch has begun and has not passed entry `j` of its pool (R128). -/
def Fetch.holds (f : Fetch) (j : Nat) : Bool := decide (f.base + f.next ≤ j) && decide (j < f.base + f.len)

/-- The channel and line on whose account a write to entry `i` is held: the latest fetch that has not passed it (R128). -/
def Dev.heldBy (d : Dev) (i : Nat) : Option (Nat × Nat) :=
  ((List.range 12).map (fun n => 12 * (i / 12288) + n)).findSome? (fun c =>
    ((d.fetchesOf c).reverse.find? (fun f => f.holds (i % 12288))).map (fun f => (c, f.line)))

/-- A PTT word is held when any of its entries is. -/
def Dev.heldWrite (d : Dev) (pct : Bool) (i : Nat) : Option (Nat × Nat) :=
  if pct then d.heldBy i else (List.range 4).findSome? (fun n => d.heldBy (i + n))

/-- Writes held in the staging buffer of a group. -/
def Dev.stagedOf (d : Dev) (g : Nat) : List TabWrite :=
  d.pcu.tables.staged.filter (fun w => decide (w.idx / 12288 = g))

/-- An accepted write of a path. -/
def TabWrite.of (pct : Bool) (i v : Nat) (packet : Bool) : TabWrite := ⟨pct, i, none, 0, v, packet⟩

/-- A host write to a target entry that has a place (R128): applied, or held. One that is applied comes after those of the
same target that are still held, which are dropped. -/
def Dev.tableAccept (d : Dev) (w : TabWrite) : Dev :=
  match d.heldWrite w.pct w.idx with
  | none =>
    (d.setTab (fun t => { t with
      staged := t.staged.filter (fun x => !(decide (x.pct = w.pct) && decide (x.idx = w.idx))) })).enterTarget w
  | some (c, n) => d.setTab (fun t => { t with staged := t.staged ++ [{ w with chan := some c, line := n }] })

/-- A host write to entry `i` must wait for a place: it is to be held and the buffer is full. -/
def Dev.tableFull (d : Dev) (pct : Bool) (i : Nat) : Bool :=
  (d.heldWrite pct i).isSome && decide (256 ≤ (d.stagedOf (i / 12288)).length)

/-- A write of the same sender to the group waits: those behind it wait too, in order (R18). -/
def Dev.tableBehind (d : Dev) (w : TabWrite) : Bool :=
  d.pcu.tables.waiting.any (fun x => decide (x.idx / 12288 = w.idx / 12288) && decide (x.packet = w.packet))

/-- A host write to a target entry (R128): applied, held, or made to wait and counted as a stall. -/
def Dev.tableWrite (d : Dev) (pct : Bool) (i v : Nat) (packet : Bool) : Dev :=
  let w : TabWrite := .of pct i v packet
  if d.tableFull pct i || d.tableBehind w then
    (d.setTab (fun t => { t with waiting := t.waiting ++ [w] })).inc PCU_GSTAT_STALLS (i / 12288) 1
  else d.tableAccept w

/-- The first waiting write of a group proceeds if there is a place for it (R128): it is treated as if it had just arrived. -/
def Dev.tableResume (d : Dev) (g : Nat) : Dev :=
  match d.pcu.tables.waiting.find? (fun w => decide (w.idx / 12288 = g)) with
  | none => d
  | some w =>
    if d.tableFull w.pct w.idx then d
    else (d.setTab (fun t => { t with waiting := t.waiting.erase w })).tableAccept w

/-- A PCT entry with more than one of its replacement bits set is refused (R132). -/
def pctWriteBad (v : Nat) : Bool := decide (1 < popcount 3 (v % 8))

/-- The last staged write of a target entry that satisfies `p`. -/
def Dev.stagedFor (d : Dev) (pct : Bool) (i : Nat) (p : TabWrite → Bool) : Option Nat :=
  (d.pcu.tables.staged.reverse.find? (fun w => p w && decide (w.pct = pct) && decide (w.idx ≤ i) &&
    decide (i < w.idx + (if pct then 1 else 4)))).map (fun w => if pct then w.val else w.val / 2 ^ (8 * (i - w.idx)) % 256)

/-- A read of a target entry: the staged value as soon as the write is held (R128); all ones after a double-bit error
until it is written (R131). -/
def Dev.readPctTarget (d : Dev) (i : Nat) : Nat :=
  match d.stagedFor true i (fun _ => true) with
  | some v => v
  | none => if d.pcu.tables.badPct.contains i then 0xFFFFFFFF else d.pctTarget i

def Dev.readPttTarget (d : Dev) (i : Nat) : Nat :=
  match d.stagedFor false i (fun _ => true) with
  | some v => v
  | none => if d.pcu.tables.badPtt.contains i then 0xFF else d.pttTarget i

/-- What the check bits of an entry show to a host access. -/
def MemEcc.toRam : MemEcc → RamEcc
  | .clean => .clean
  | .single => .single
  | .double _ => .double

/-- What a host read finds in an entry (R131): an error is counted; an uncorrectable target reads all ones from then on, an
uncorrectable live entry is rewritten from its target. -/
def Dev.readErr (d : Dev) (pct live : Bool) (i : Nat) (e : RamEcc) : Dev :=
  let g := i / 12288
  let d := d.eccCount g e
  if e = .double then
    let d := d.tableFault g 31 (d.now % 2 ^ 32) (i % 12288)
    if live = false then d.targetBad pct i
    else if pct then
      d.setTab (fun t => if t.badPct.contains i then t else { t with pctL := tset t.pctL neutralPct i (tget t.pctT neutralPct i) })
    else d.setTab (fun t => if t.badPtt.contains i then t else { t with pttL := tset t.pttL 0 i (tget t.pttT 0 i) })
  else d

/-- Four PTT entries as a word (R127). -/
def pttWord (f : Nat → Nat) (i : Nat) : Nat := f i + f (i + 1) * 2 ^ 8 + f (i + 2) * 2 ^ 16 + f (i + 3) * 2 ^ 24

/-- A host read of a table window: what it returns and what it leaves. The word returned for an uncorrectable live entry is a
free value. -/
def Dev.readTable (d : Dev) (pct live : Bool) (i : Nat) (e : MemEcc) : Nat × Dev :=
  let d := (d.tsyncCatch).readErr pct live i (MemEcc.toRam e)
  if live = true ∧ MemEcc.toRam e = .double then (d.freeNat % 2 ^ 32, d.freeNext)
  else if pct then (if live then d.pctLive i else d.readPctTarget i, d)
  else (pttWord (if live then d.pttLive else d.readPttTarget) i, d)

/-! The fetch of a line (R100, R128, R129) -/

/-- The fetch of a line begins on every enabled channel of the head (R100, R129). -/
def Dev.fetchStart (d : Dev) (h num s : Nat) : Dev :=
  (enabledChans d.regs h).foldl (fun d c =>
    let len := d.rf PCU_WIN_LEN c
    if len = 0 then d
    else d.setFetches c (d.fetchesOf c ++ [⟨num, 0, d.rf PCU_WIN_BASE c, len, d.on PCU_HCFG_BYPASS h, s,
      gridOf d.regs c 0 0, d.rf HCP_HCKFREQ_FREQ h⟩])) d

/-- What stays of the staged writes when those that satisfy `mine` enter: not the ones of the same target before them. -/
def stagedRest (mine : TabWrite → Bool) : List TabWrite → List TabWrite
  | [] => []
  | w :: r =>
    if mine w || r.any (fun x => mine x && decide (x.pct = w.pct) && decide (x.idx = w.idx)) then stagedRest mine r
    else w :: stagedRest mine r

/-- The fetch of a line has ended for a channel, or is given up: its held writes enter the target (R128). -/
def Dev.fetchEnd (d : Dev) (c line : Nat) : Dev :=
  let mine (w : TabWrite) : Bool := decide (w.chan = some c) && decide (w.line = line)
  let l := d.pcu.tables.staged.filter mine
  let d := d.setFetches c ((d.fetchesOf c).filter (fun f => decide (f.line ≠ line)))
  let d := d.setTab (fun t => { t with staged := stagedRest mine t.staged })
  l.foldl (fun d w => d.enterTarget w) d

/-- The next entry of a fetch may be fetched (R100): the first 16 from the commit point on, entry k at G(k - 16). -/
def Fetch.due (f : Fetch) (t : Nat) : Bool :=
  decide (f.next < 16) || (decide (f.s ≤ t) && passed64 f.freq (f.lead64 + 64 * (f.next - 16)) (10 * (t - f.s)))

/-- The target of an entry as in force at the commit point of a line (R128, R129): a write held for an earlier line of the
channel counts. -/
def Dev.targetFor (d : Dev) (pct : Bool) (i c line : Nat) : Nat :=
  let before := (d.fetchesOf c).takeWhile (fun f => decide (f.line ≠ line))
  let seen (w : TabWrite) : Bool := decide (w.chan = some c) && before.any (fun f => decide (f.line = w.line))
  (d.stagedFor pct i seen).getD (if pct then d.pctTarget i else d.pttTarget i)

/-- Key of pixel `k` of the `c`-th channel of a head. -/
def pixKey (c : Nat) (k : Nat) : Nat := c % 4 * 16384 + k

def Dev.workOf (d : Dev) (h : Nat) : List LineWork := tget d.pcu.work [] h

def Dev.setWork (d : Dev) (h : Nat) (l : List LineWork) : Dev :=
  d.setPcu (fun p => { p with work := tset p.work [] h l })

/-- Change the line `num` of a head that is being converted. -/
def Dev.updWork (d : Dev) (h num : Nat) (f : LineWork → LineWork) : Dev :=
  d.setWork h ((d.workOf h).map (fun w => if w.line.num = num then f w else w))

/-- The fetch takes the next entry for its line (R129, R131, R135). -/
def Dev.fetchOne (d : Dev) (c : Nat) (f : Fetch) (e : TableEcc) : Dev :=
  let g := c / 12
  let h := headOf c
  let j := f.base + f.next
  let i := tabIdx g j
  let sl := d.rf CAL_SLEW_SL 0
  let read := if f.bypass then [e.pttLive, e.pttTarget] else [e.pctLive, e.pctTarget, e.pttLive, e.pttTarget]
  let d := (read.foldl (fun d x => d.eccCount g x) d.tsyncCatch)
  let d := if read.contains .double then d.tableFault g h f.line j else d
  let d := if f.bypass = false ∧ e.pctTarget = .double then d.targetBad true i else d
  let d := if e.pttTarget = .double then d.targetBad false i else d
  let pt := d.targetFor true i c f.line
  let tt := d.targetFor false i c f.line
  let pct :=
    if f.bypass ∨ d.pcu.tables.badPct.contains i = true then d.pctLive i
    else if e.pctLive = .double then pt
    else slewPct (d.pctLive i) pt sl
  let ptt :=
    if d.pcu.tables.badPtt.contains i then d.pttLive i
    else if e.pttLive = .double then tt
    else slewPtt (d.pttLive i) tt sl
  let lost := (!f.bypass && decide (e.pctLive = .double)) || decide (e.pttLive = .double)
  let d := d.setTab (fun t => { t with pctL := tset t.pctL neutralPct i pct, pttL := tset t.pttL 0 i ptt })
  let d := d.setFetches c ((d.fetchesOf c).map (fun x => if x.line = f.line then { f with next := f.next + 1 } else x))
  let d := d.updWork h f.line (fun w => { w with
    ents := tset w.ents neutralPct (pixKey c f.next) (if lost then neutralPct else pct)
    trims := tset w.trims 0 (pixKey c f.next) (if lost then 0 else ptt) })
  if f.next + 1 < f.len then d else d.fetchEnd c f.line

/-- The fetch path takes the next entry that is due on a channel, of the oldest line first (R100). -/
def Dev.fetchEntry (d : Dev) (c : Nat) (e : TableEcc) : Dev :=
  match (d.fetchesOf c).find? (fun f => f.due d.t) with
  | none => d
  | some f => d.fetchOne c f e

/-- A fetch never runs late (R100): entries that are to be there for pixel `k` of a line and have not been fetched are
fetched. -/
def Dev.fetchUpTo (d : Dev) (c line : Nat) : Nat → Dev
  | 0 => d
  | n + 1 =>
    match (d.fetchesOf c).find? (fun f => decide (f.line = line)) with
    | none => d
    | some f => (d.fetchOne c f .clean).fetchUpTo c line n

/-- The fetches of a line that does not fire are given up on every channel of the head. -/
def Dev.fetchDrop (d : Dev) (h line : Nat) : Dev :=
  (chansOf h).foldl (fun d c => if (d.fetchesOf c).any (fun f => decide (f.line = line)) then d.fetchEnd c line else d) d

/-- A TSYNC copy starts with the windows in force (R130); four empty windows take no time. -/
def Dev.tsyncStart (d : Dev) (h : Nat) : Dev :=
  let wins := (chansOf h).map (fun c => d.winRange c)
  if winTotal wins = 0 then d.wbit PCU_TSYNC_HEADS 0 h false
  else
    (d.wbit PCU_TSYNC_HEADS 0 h true).setTab (fun t => { t with tsync := tset t.tsync none h (some ⟨wins, 0, d.now⟩) })

/-- Errors that a copy meets in targets it has not copied yet (R131). -/
def Dev.tsyncErrs (d : Dev) (h : Nat) (r : TsyncRun) (errs : List (Nat × TableEcc)) : Dev :=
  errs.foldl (fun d x =>
    let i := tabIdx (groupOf h) x.1
    let there := (List.range (winTotal r.wins - r.next)).any (fun n => decide (winEntry r.wins (r.next + n) = some x.1))
    if there then
      let d := (d.eccCount (groupOf h) x.2.pctTarget).eccCount (groupOf h) x.2.pttTarget
      let d := if x.2.pctTarget = .double then d.targetBad true i else d
      let d := if x.2.pttTarget = .double then d.targetBad false i else d
      if x.2.pctTarget = .double ∨ x.2.pttTarget = .double then d.tableFault (groupOf h) h (d.rf LTG_LINE_LINE h) x.1 else d
    else d) d

/-- The copy reaches its last entry (R130). -/
def Dev.tsyncDone (d : Dev) (h : Nat) (errs : List (Nat × TableEcc)) : Dev :=
  match tget d.pcu.tables.tsync none h with
  | none => d
  | some r =>
    if d.now < r.start + ceilDiv (winTotal r.wins * 16000) 8192 then d
    else
      let d := (d.tsyncErrs h r errs).tsyncTake h (winTotal r.wins - r.next)
      (d.wbit PCU_TSYNC_HEADS 0 h false).setTab (fun t => { t with tsync := tset t.tsync none h none })

/-- The live copy equals the target for every entry that the fetch of the head reaches (R148, R160). -/
def Dev.headSettled (d : Dev) (h : Nat) : Bool :=
  let bypass := d.on PCU_HCFG_BYPASS h
  (enabledChans d.regs h).all (fun c =>
    (List.range (d.rf PCU_WIN_LEN c)).all (fun k =>
      let i := tabIdx (c / 12) (d.rf PCU_WIN_BASE c + k)
      (bypass || decide (d.pctLive i = d.pctTarget i)) && decide (d.pttLive i = d.pttTarget i)))

end Sys2Proof.Machine
end

