-- ==== Sys2Proof/Machine/Pixel.lean ====
section
/-! DEFINITION. The pixel path: codes, correction, replacement, binning, clamp, statistics, the line writer and the
delivery of a finished line (R97, R98, R104, R111, R116, R133 to R141). -/

namespace Sys2Proof.Machine

/-- Corrected pixel (R133). -/
def correct (x ent : Nat) : Nat := sat16 (asr (((x : Int) * 4 - pctOfs ent) * (pctGain ent : Int)) 13)

/-- `d` counts for the rounding of the clamp step: 15 |err| 10^(-gain/160) / 64 is at least d - 1/2, or exceeds it when
`strict`; both sides are raised to the 160th power, so the comparison is exact. -/
def clampReach (err gain d : Nat) (strict : Bool) : Bool :=
  let a := ((2 * d - 1) * 32) ^ 160 * 10 ^ gain
  let b := (15 * err) ^ 160
  if strict then decide (a < b) else decide (a ≤ b)

/-- The clamp step of R97, limited to STEP: round(err x 15 / (64 g)) with g = 10^(GAIN / 160), halves up. -/
def clampStep (err : Int) (gain step : Nat) : Int :=
  let strict := decide (err < 0)
  let n := ((List.range step).filter (fun i => clampReach err.natAbs gain (i + 1) strict)).length
  if err < 0 then -(n : Int) else n

/-- The clamp update after the last window pixel of a line (R97, R98); the line-shadowed values are the line's. -/
def Dev.clampUpdate (d : Dev) (c : Nat) (t : Tab Word) (sum cnt : Nat) : Dev :=
  let first := sx 14 (fieldOf t AFE_CLPWIN_FIRST c)
  let n := fieldOf t AFE_CLPWIN_CNT c
  let h := headOf c
  if fieldOf t AFE_CH_CLPMODE c ≠ 1 ∨ (d.on AFE_SCANCTRL_BUSY 0 = true ∧ d.rf AFE_SCANCTRL_CH 0 = c) then d
  else if first < -(fieldOf t AFE_HTIM_HLEAD h : Int) ∨ (fieldOf t AFE_HNPIX_NPIX h : Int) < first + 2 ^ n ∨
      cnt ≠ 2 ^ n then
    d.wf AFE_STAT_CLPWINERR c 1
  else
    let mean : Int := (sum / 2 ^ n : Nat)
    let err := mean - (fieldOf t AFE_CLPTGT_TGT c : Int)
    let st := clampStep err (fieldOf t AFE_PGA_GAIN c) (fieldOf t AFE_CLPWIN_STEP c)
    let val := d.rfi AFE_CLP_VAL c - st
    let lim := clampI (-512) 511 val
    let d := (d.wfi AFE_CLP_VAL c lim).wf AFE_STAT_CLPRAIL c (b2n (decide (val < -512 ∨ 511 < val)))
    if val = lim then d else d.wf AFE_STAT_CLPSAT c 1

/-- The clamp value sits at an end of its range (R97). -/
def Dev.clampAtEnd (d : Dev) (c : Nat) : Bool := decide (d.rfi AFE_CLP_VAL c = -512 ∨ d.rfi AFE_CLP_VAL c = 511)

/-- The AFE input check on a fired line (R153): the clamp window mean of a channel. -/
def Dev.afeBlack (d : Dev) (c : Nat) (t : Tab Word) (sum cnt : Nat) : Dev :=
  let h := headOf c
  if d.itemRuns 2 h = false ∨ cnt = 0 then d
  else
    let off := ((sum : Int) - (fieldOf t AFE_CLPTGT_TGT c * cnt : Nat)).natAbs
    if d.rf CAL_AFECFG_BLKTOL 0 * cnt < off ∨ d.on AFE_STAT_CLPRAIL c = true then
      d.itemEnds 2 h stINPUT_REJECTED 6 (off / cnt)
    else d

/-- Corrected value of a neighbour, if it exists. -/
def LineWork.yAt (w : LineWork) (c k : Nat) : Option PixRec := tfind w.px (pixKey c k)

/-- Mean of two values, halves up. -/
def mean2 (a b : Nat) : Nat := (a + b + 1) / 2

/-- A pixel after replacement (R134): value, OVR and whether it was replaced. -/
def LineWork.replaced (w : LineWork) (c k : Nat) (p : PixRec) : PixRec × Bool :=
  let l := if k = 0 then none else w.yAt c (k - 1)
  let r := w.yAt c (k + 1)
  let one (q : Option PixRec) : PixRec × Bool := match q with
    | some q => ({ p with y := q.y, ovr := q.ovr }, true)
    | none => (p, false)
  if pctFlag p.ent 0 then one (if l.isSome then l else r)
  else if pctFlag p.ent 1 then one (if r.isSome then r else l)
  else if pctFlag p.ent 2 then
    match l, r with
    | some a, some b => ({ p with y := mean2 a.y b.y, ovr := a.ovr || b.ovr }, true)
    | some a, none => one (some a)
    | none, some b => one (some b)
    | none, none => (p, false)
  else (p, false)

/-- The delivered pixels of a channel, unbinned. -/
def LineWork.channelOut (w : LineWork) (c npix : Nat) (bypass : Bool) : List OutPix :=
  (List.range npix).filterMap (fun k =>
    match w.yAt c k with
    | none => none
    | some p =>
      if bypass then some ⟨p.x, p.ovr, false, false, c % 4⟩
      else
        let q := w.replaced c k p
        some ⟨q.1.y, q.1.ovr, pctFlag p.ent 3 || q.2, pctFlag p.ent 4, c % 4⟩)

/-- Raw codes of a channel with the flags of the pixels. -/
def LineWork.channelRaw (w : LineWork) (c npix : Nat) : List OutPix :=
  (List.range npix).filterMap (fun k =>
    match w.yAt c k with
    | none => none
    | some p => some ⟨p.x, p.ovr, pctFlag p.ent 3, pctFlag p.ent 4, c % 4⟩)

/-- Bin a channel's pixels by `n` (R136): means rounded half up, flags by or; `fuel` bounds the list. -/
def binPixels (n : Nat) : Nat → List OutPix → List OutPix
  | 0, _ => []
  | _ + 1, [] => []
  | fuel + 1, l =>
    let m := l.take n
    let sum := (m.map (fun p => p.val)).foldl (· + ·) 0
    { val := (2 * sum + m.length) / (2 * m.length), ovr := m.any (fun p => p.ovr), defect := m.any (fun p => p.defect)
      edge := m.any (fun p => p.edge), chan := (m.head?.map (fun p => p.chan)).getD 0 } ::
      binPixels n fuel (l.drop n)

/-- The binning factor of a code (R136). -/
def binFactor (b : Nat) : Nat := if b = 1 then 2 else if b = 2 then 4 else 1

/-- The pixels a DATA selection delivers, channel by channel (R139, R140). -/
def LineWork.dataOut (w : LineWork) (h sel : Nat) : List OutPix :=
  let t := w.line.snap
  let npix := fieldOf t AFE_HNPIX_NPIX h
  let bypass := decide (fieldOf t PCU_HCFG_BYPASS h ≠ 0)
  let bin := binFactor (fieldOf t PCU_HCFG_BIN h)
  (enabledChans t h).flatMap (fun c =>
    if bypass then w.channelOut c npix true
    else match sel with
      | 1 => w.channelRaw c npix
      | 2 => let l := w.channelOut c npix false; binPixels bin l.length l
      | _ => w.channelOut c npix false)

/-- The statistics set of a line (R137). -/
def Dev.lineStats (d : Dev) (h : Nat) (w : LineWork) : StatSet :=
  let t := w.line.snap
  let npix := fieldOf t AFE_HNPIX_NPIX h
  let bypass := decide (fieldOf t PCU_HCFG_BYPASS h ≠ 0)
  let lo := d.rf PCU_STWIN_FIRST h
  let hi := d.rf PCU_STWIN_LAST h
  let add (s : StatSet) (y : Nat) : StatSet :=
    { s with
      min := min s.min y, max := max s.max y, sum := s.sum + y, cnt := s.cnt + 1
      hist := tset s.hist 0 (y / 256) (tget s.hist 0 (y / 256) + 1) }
  (enabledChans t h).foldl (fun s c =>
    ((w.channelOut c npix bypass).zip (List.range npix)).foldl (fun s p =>
      let i := c % 4 * npix + p.2
      if lo ≤ i ∧ i ≤ hi ∧ p.1.defect = false ∧ p.1.edge = false then
        add s (if bypass then p.1.val * 4 else p.1.val)
      else s) s)
    { StatSet.reset with line := w.line.num }

/-- Sums of a measured line for the head's learn (R150, R152). -/
def Dev.learnAdd (d : Dev) (h : Nat) (w : LineWork) : Dev :=
  match d.learnOf h with
  | none => d
  | some l =>
    if w.measured then
      d.setLearn (w.px.foldl (fun (l : Learn) e =>
        { l with
          sum := tset l.sum 0 e.1 (tget l.sum 0 e.1 + (if l.kind = 3 then e.2.x else e.2.y))
          sumX := tset l.sumX 0 e.1 (tget l.sumX 0 e.1 + e.2.x)
          cnt := tset l.cnt 0 e.1 (tget l.cnt 0 e.1 + 1)
          ovr := tset l.ovr 0 e.1 (tget l.ovr 0 e.1 + b2n e.2.ovr) }) l)
    else d

/-- Four pixels to a word, little-endian, the last word padded with 0 (R141, R273). -/
def packPixels : List OutPix → List Nat
  | [] => []
  | [a] => [a.val]
  | [a, b] => [a.val + b.val * 2 ^ 16]
  | [a, b, c] => [a.val + b.val * 2 ^ 16 + c.val * 2 ^ 32]
  | a :: b :: c :: e :: r => (a.val + b.val * 2 ^ 16 + c.val * 2 ^ 32 + e.val * 2 ^ 48) :: packPixels r

/-- The line writer starts on a line, or drops it whole (R141): the words wait for their requests (R278). -/
def Dev.lineWriterStore (d : Dev) (h : Nat) (w : LineWork) : Dev :=
  if d.on PCU_LWCTRL_EN h then
    let px := w.dataOut h (d.rf PCU_LWCTRL_DATA h)
    let stride := tget d.pcu.stride 0 h
    if 2 * px.length ≤ stride then
      let slot := tget d.pcu.slot 0 h
      let job : LwJob := ⟨w.line.num, slot, d.rf PCU_LWCTRL_BANK h, 8 * d.rf PCU_LWBASE_BASE h + slot * (stride / 8),
        packPixels px⟩
      let d := d.setPcu (fun p => { p with slot := tset p.slot 0 h ((slot + 1) % max 1 (d.rf PCU_LWCTRL_DEPTH h)) })
      { d with bank := { d.bank with jobs := tset d.bank.jobs [] h (tget d.bank.jobs [] h ++ [job]) } }
    else d.inc PCU_DROPCNT_WRITER (groupOf h) 1
  else d

/-- Bytes of a line as a line writer stores it (R141): binned pixels where it takes them, and the last of a channel counts
whole (R136). -/
def lineBytes (t : Tab Word) (h : Nat) : Nat :=
  let binned := decide (fieldOf t PCU_LWCTRL_DATA h = 2) && decide (fieldOf t PCU_HCFG_BYPASS h = 0)
  let f := if binned then binFactor (fieldOf t PCU_HCFG_BIN h) else 1
  (enabledChans t h).length * ceilDiv (fieldOf t AFE_HNPIX_NPIX h) f * 2

/-- The stride a line writer takes when EN is written 1 (R141). -/
def lineStride (t : Tab Word) (h : Nat) : Nat := ceilDiv (lineBytes t h) 64 * 64

/-- Every pixel of every enabled channel of the line has come: only pixels of the line are kept, one entry each. -/
def LineWork.complete (w : LineWork) (h : Nat) : Bool :=
  let t := w.line.snap
  decide (w.px.length = (enabledChans t h).length * fieldOf t AFE_HNPIX_NPIX h)

/-- What a finished line carries to its routes (R139, R140). -/
def Dev.lineOut (d : Dev) (h : Nat) (w : LineWork) (st : StatSet) : LineOut :=
  let t := w.line.snap
  let sel := fieldOf t PCU_ROUTE_DATA h
  let lsel := fieldOf t PCU_LROUTE_DATA h
  { head := h, num := w.line.num, s := w.line.s, pos := w.line.pos, gap := w.line.gap, stale := w.stale
    region := if fieldOf t PCU_ROUTE_EN h ≠ 0 then some (fieldOf t PCU_ROUTE_REGION h) else none
    lane := if fieldOf t PCU_LROUTE_EN h ≠ 0 then some (fieldOf t PCU_LROUTE_LANE h) else none
    stream := if fieldOf t PCU_ROUTE_EN h ≠ 0 then w.dataOut h sel else []
    packet := if fieldOf t PCU_LROUTE_EN h ≠ 0 then w.dataOut h lsel else []
    laneData := lsel, stats := st, streamRec := d.on PCU_HCFG_STREC h, data := sel
    mask := (enabledChans t h).foldl (fun n c => setBit n (c % 4) true) 0
    port := (List.range 4).find? (fun p => decide (fieldOf t (FAB_SIMAP_EN p) (fieldOf t PCU_ROUTE_REGION h) ≠ 0) &&
      decide (fieldOf t (FAB_SIMAP_HEAD p) (fieldOf t PCU_ROUTE_REGION h) = h))
    laneStats := decide (fieldOf t PCU_LROUTE_STATS h ≠ 0), bin := fieldOf t PCU_HCFG_BIN h
    npix := fieldOf t AFE_HNPIX_NPIX h }

/-- The last pixel of a line has been corrected (R137, R139, R141, R150). -/
def Dev.lineFinish (d : Dev) (h : Nat) (w : LineWork) : Dev :=
  let d := d.setWork h ((d.workOf h).filter (fun x => decide (x.line.num ≠ w.line.num)))
  let d := d.learnAdd h w
  let st := if d.on PCU_HCFG_STEN h then d.lineStats h w else { StatSet.reset with line := w.line.num }
  let d := if d.on PCU_HCFG_STEN h then d.setPcu (fun p => { p with stats := tset p.stats .reset h st }) else d
  let o := d.lineOut h w st
  let d := if o.region.isSome || o.lane.isSome then d.setPcu (fun p => { p with outs := p.outs ++ [o] }) else d
  d.lineWriterStore h w

/-- The scan takes the code of its pixel in line `j` (R111). -/
def Dev.scanTake (d : Dev) (j x : Nat) : Dev :=
  d.setPcu (fun p => { p with scan := { p.scan with results := tset p.scan.results 0 j x } })

/-- Line 63 of the scan has passed (R111). -/
def Dev.scanLineEnds (d : Dev) (w : LineWork) : Dev :=
  if w.scanJ = some 63 ∧ d.on AFE_SCANCTRL_BUSY 0 = true then (d.wf AFE_SCANCTRL_BUSY 0 0).wf AFE_SCANCTRL_DONE 0 1 else d

/-- A committed line of the scan fires: it is the next of its 64 (R111). -/
def Dev.scanLineFires (d : Dev) (h num : Nat) : Dev :=
  let j := d.pcu.scan.line
  if d.scanOn h = true ∧ j < 64 ∧ (d.workOf h).any (fun w => decide (w.line.num = num) && w.line.scan.isSome) = true then
    (d.setPcu (fun p => { p with scan := { p.scan with line := j + 1 } })).updWork h num (fun w => { w with scanJ := some j })
  else d

/-! The analogue chain: ball voltages to converter code, in µV (R87, R94, R97, R99, R102, R104) -/

/-- v_in of R87. -/
def vIn (t : Tab Word) (c : Nat) (b : Balls) : Int := b.p - (if fieldOf t AFE_CH_INMODE c = 0 then b.ref else b.n)

/-- The sign s of R87. -/
def signOf (t : Tab Word) (c : Nat) : Int := if fieldOf t AFE_CH_POL c = 0 then 1 else -1

/-- v_clp of R97. -/
def vClamp (t : Tab Word) (c : Nat) : Int := sx 10 (fieldOf t AFE_CLP_VAL c) * 625

/-- CDS is set (R94). -/
def cdsOn (t : Tab Word) (c : Nat) : Bool := decide (fieldOf t AFE_CH_SAMP c ≠ 0)

/-- What a hold capacitor keeps from G(k) on (R94): the sample with the clamp voltage, which in SH adds before it (R97), or in
CDS the difference of the sample and the reset level. -/
def heldOf (t : Tab Word) (c : Nat) (sample reset : Balls) : Int :=
  if cdsOn t c then signOf t c * (vIn t c sample - vIn t c reset) else signOf t c * vIn t c sample + vClamp t c

/-- v_h of R99: in CDS the clamp adds at the leg (R97). -/
def vLeg (t : Tab Word) (c : Nat) (held : Int) (trim : Nat) : Int :=
  held + (if cdsOn t c then vClamp t c else 0) - sx 8 trim * (if fieldOf t AFE_CH_TRNG c = 0 then 500 else 2000)

/-- The PGA takes `v` µV to `n` steps of the converter at least, by the rounding of R102: g v is n - 1/2 steps of 9375/64 µV
or more, or exceeds them when `strict`. Both sides are raised to the 160th power, so the comparison is exact. -/
def codeReach (v gain n : Nat) (strict : Bool) : Bool :=
  let a := ((2 * n - 1) * 9375) ^ 160
  let b := (128 * v) ^ 160 * 10 ^ gain
  if strict then decide (a < b) else decide (a ≤ b)

/-- Largest number of steps reached, found bit by bit. -/
def codeSteps (v gain : Nat) (strict : Bool) : Nat → Nat → Nat
  | 0, n => n
  | b + 1, n => codeSteps v gain strict b (if codeReach v gain (n + 2 ^ b) strict then n + 2 ^ b else n)

/-- The converter code of R102, halves rounded up. -/
def pgaCode (tgt gain : Nat) (v : Int) : Nat :=
  let n := codeSteps v.natAbs gain (decide (v < 0)) 15 0
  (clampI 0 16383 ((tgt : Int) + (if v < 0 then -(n : Int) else n))).toNat

/-- Input overrange at one instant (R104). -/
def ovrInput (t : Tab Word) (c : Nat) (b : Balls) : Bool :=
  if fieldOf t AFE_CH_INMODE c = 0 then decide (b.p < 200000 ∨ 2700000 < b.p) else decide (1250000 < (vIn t c b).natAbs)

/-- PGA input overrange (R104). -/
def ovrTrim (v : Int) : Bool := decide (v < -350000 ∨ 2450000 < v)

/-- A flagged pixel in the AFE (R104). -/
def Dev.ovrCount (d : Dev) (c : Nat) (inp trim code first : Bool) : Dev :=
  let d := if inp then d.wf AFE_STAT_OVRIN c 1 else d
  let d := if trim then d.wf AFE_STAT_OVRTRIM c 1 else d
  let d := if code then d.wf AFE_STAT_OVRCODE c 1 else d
  let d := d.inc AFE_OVRCNT_PIX c 1
  if first then d.inc AFE_OVRCNT_LINES c 1 else d

/-- The trim code of a pixel (R98, R99, R100, R111): none for lead pixels and beyond the window, with TRIMEN clear, and while a
phase scan runs on the channel. -/
def Dev.trimOf (d : Dev) (w : LineWork) (c : Nat) (k : Int) : Nat :=
  let t := w.line.snap
  let scanned := w.scanJ.isSome && decide (d.rf AFE_SCANCTRL_CH 0 = c)
  if k < 0 ∨ (fieldOf t PCU_WIN_LEN c : Int) ≤ k ∨ fieldOf t AFE_CH_TRIMEN c = 0 ∨ scanned = true then 0
  else tget w.trims 0 (pixKey c k.toNat)

/-- The further delay of a pixel's instants in a phase scan (R111). -/
def Dev.scanDelay (d : Dev) (w : LineWork) (c : Nat) : Nat :=
  match w.scanJ with
  | some j => if d.rf AFE_SCANCTRL_CH 0 = c then j else 0
  | none => 0

/-- The sample stage and the leg of a pixel (R94, R99): capacitor k mod 4 holds, leg k mod 2 takes the held value and loads
its trim code. -/
def Dev.sampleStage (d : Dev) (c : Nat) (k held v : Int) : Dev :=
  d.setPcu (fun p => { p with
    caps := tset p.caps 0 (4 * c + (k % 4).toNat) held, legs := tset p.legs 0 (2 * c + (k % 2).toNat) v })

/-- A pixel's code can have crossed (R15): 30.8 ns of conversion and 2.5 ns of crossing have passed since G(k). -/
def Dev.pixelDue (d : Dev) (w : LineWork) (c : Nat) (k : Int) : Bool :=
  let t := w.line.snap
  decide (w.line.s ≤ d.t) && decide (333 ≤ 10 * (d.t - w.line.s)) &&
    passed64 (fieldOf t HCP_HCKFREQ_FREQ (headOf c)) (gridOf t c k (d.scanDelay w c)) (10 * (d.t - w.line.s) - 333)

/-- The clamp window of a line takes the code of a pixel in it (R97, R98); after its last pixel, or the line's, the clamp and
the input check of an AFE calibration follow. -/
def Dev.clampPixel (d : Dev) (w : LineWork) (c : Nat) (k : Int) (x : Nat) : Dev × LineWork :=
  let t := w.line.snap
  let npix := fieldOf t AFE_HNPIX_NPIX (headOf c)
  let first := sx 14 (fieldOf t AFE_CLPWIN_FIRST c)
  let n := 2 ^ fieldOf t AFE_CLPWIN_CNT c
  let w := if first ≤ k ∧ k < first + n then { w with
      clampSum := tset w.clampSum 0 c (tget w.clampSum 0 c + x), clampCnt := tset w.clampCnt 0 c (tget w.clampCnt 0 c + 1) }
    else w
  let lastWin := decide (k = first + n - 1) ||
    (decide (k = (npix : Int) - 1) && decide (tget w.clampCnt 0 c ≠ n))
  (if lastWin then (d.clampUpdate c t (tget w.clampSum 0 c) (tget w.clampCnt 0 c)).afeBlack c t (tget w.clampSum 0 c)
      (tget w.clampCnt 0 c) else d, w)

/-- A converted pixel of a fired line reaches the PCU (R94, R97 to R104, R111, R116, R133). `sample` and `reset` are what stood
at the balls at G(k) and at the reset instant of CDS; `dev` is by how many codes the delivering converter departs from the
code of R102. Pixels of a channel come in order, each once. -/
def Dev.pixelWord (d : Dev) (c num : Nat) (k : Int) (sample reset : Balls) (dev : Int) : Dev :=
  let h := headOf c
  match (d.workOf h).find? (fun w => decide (w.line.num = num) && w.fired) with
  | none => d
  | some w =>
    let t := w.line.snap
    let npix := fieldOf t AFE_HNPIX_NPIX h
    let pos := (k + fieldOf t AFE_HTIM_HLEAD h).toNat
    if fieldOf t AFE_CH_EN c = 0 ∨ k < -(fieldOf t AFE_HTIM_HLEAD h : Int) ∨ (npix : Int) ≤ k ∨ pos < tget w.came 0 c ∨
        d.pixelDue w c k = false then d
    else
      let d := match (d.fetchesOf c).find? (fun f => decide (f.line = num)) with
        | some f => d.fetchUpTo c num (min f.len (k + 1).toNat - f.next)
        | none => d
      match (d.workOf h).find? (fun w => decide (w.line.num = num) && w.fired) with
      | none => d
      | some w =>
        let held := heldOf t c sample reset
        let v := vLeg t c held (d.trimOf w c k)
        let d := d.sampleStage c k held v
        let raw := (clampI 0 16383 ((pgaCode (fieldOf t AFE_CLPTGT_TGT c) (fieldOf t AFE_PGA_GAIN c) v : Int) + dev)).toNat
        let i := sliceIdx (c / 12) (converterOf t c k)
        let x := sliceCode raw (coefOfs t i) (coefGain t i)
        let r := d.clampPixel { w with came := tset w.came 0 c (pos + 1) } c k x
        let d := r.1
        let w := r.2
        let d := match w.scanJ with
          | some j => if d.on AFE_SCANCTRL_BUSY 0 && decide (d.rf AFE_SCANCTRL_CH 0 = c) &&
              decide (d.rfi AFE_SCANCTRL_PIX 0 = k) then d.scanTake j x else d
          | none => d
        if k < 0 then d.updWork h num (fun _ => w)
        else
          let inp := ovrInput t c sample || (cdsOn t c && ovrInput t c reset)
          let trim := ovrTrim v
          let code := decide (raw = 0 ∨ raw = 16383)
          let ovr := inp || trim || code
          let d := if ovr then d.ovrCount c inp trim code (decide (tget w.ovrSeen 0 c = 0)) else d
          let key := pixKey c k.toNat
          let ent := if k.toNat < fieldOf t PCU_WIN_LEN c then tget w.ents neutralPct key else neutralPct
          let bypass := decide (fieldOf t PCU_HCFG_BYPASS h ≠ 0)
          let rec_ : PixRec := ⟨x, if bypass then 4 * x else correct x ent, ovr, if bypass then neutralPct else ent⟩
          let w : LineWork := { w with
            px := tinsert (terase w.px key) key rec_, ovrSeen := if ovr then tset w.ovrSeen 0 c 1 else w.ovrSeen }
          let d := d.updWork h num (fun _ => w)
          if w.complete h then (d.lineFinish h w).scanLineEnds w else d

/-- A statistics read latches the last completed set for the path (R138, R427). -/
def Dev.statsLatch (d : Dev) (h : Nat) (p : Path) : Nat × Dev :=
  let st := tget d.pcu.stats .reset h
  (st.line, (((d.wlatch .PCU_STMIN h p (st.min + 1)).wlatch .PCU_STMAX h p st.max).wlatch .PCU_STSUM h p
    (st.sum % 2 ^ 32)).wlatch .PCU_STCNT h p (st.cnt % 2 ^ 16))

/-- The histogram of the last completed line of a head enters the read buffer (R138). -/
def Dev.histLatch (d : Dev) (h : Nat) : Dev :=
  d.setPcu (fun p => { p with hbuf := (tget p.stats .reset h).hist })

/-- A read of `PCU.HDATA` (R138): two bins, and BIN advances by 2, wrapping after 254. -/
def Dev.histRead (d : Dev) : Nat × Dev :=
  let b := d.rf PCU_HSEL_BIN 0 / 2 * 2
  let v (i : Nat) : Nat := tget d.pcu.hbuf 0 i % 65536
  (v b + v (b + 1) * 65536, d.wf PCU_HSEL_BIN 0 ((b + 2) % 256))

/-- A read of `AFE.SCANDATA` (R111): one result, and the index advances; while BUSY it returns 0. -/
def Dev.scanRead (d : Dev) : Nat × Dev :=
  if d.on AFE_SCANCTRL_BUSY 0 then (0, d)
  else
    let j := d.pcu.scan.next
    (tget d.pcu.scan.results 0 j + j * 65536,
      d.setPcu (fun p => { p with scan := { p.scan with next := (j + 1) % 64 } }))

/-- A phase scan starts (R111). -/
def Dev.scanStart (d : Dev) : Dev :=
  ((d.setPcu (fun p => { p with scan := ⟨[], 0, 0⟩ })).wf AFE_SCANCTRL_BUSY 0 1).wf AFE_SCANCTRL_DONE 0 0

/-- A phase scan may start (R111): none runs, the channel exists and is enabled, PIX is on the line. -/
def Dev.scanOk (d : Dev) (ch : Nat) (pix : Int) : Bool :=
  let h := headOf ch
  !(d.on AFE_SCANCTRL_BUSY 0) && decide (ch < 96) && d.on AFE_CH_EN ch &&
    decide (-(d.rf AFE_HTIM_HLEAD h : Int) ≤ pix) && decide (pix < d.rf AFE_HNPIX_NPIX h)

end Sys2Proof.Machine
end

