-- ==== Sys2Proof/Machine/Learn.lean ====
section
/-! DEFINITION. DARK and FLAT learning (R148 to R154, R161). Mean codes are kept in 1/16 code; codes per trim code and
PGA factors in 1/65,536. -/

namespace Sys2Proof.Machine

/-- Largest `r` with r x r at most `n`, by halving steps. -/
def isqrtGo (n : Nat) : Nat → Nat → Nat
  | 0, r => r
  | b + 1, r => if (r + 2 ^ b) * (r + 2 ^ b) ≤ n then isqrtGo n b (r + 2 ^ b) else isqrtGo n b r

def isqrt (n : Nat) : Nat := isqrtGo n 64 0

/-- The pixels a learn covers: channel, pixel, table entry (R150: k from 0 to LEN - 1 of the enabled channels). -/
def Dev.learnPix (d : Dev) (h : Nat) : List (Nat × Nat × Nat) :=
  (enabledChans d.regs h).flatMap (fun c =>
    (List.range (min (d.rf PCU_WIN_LEN c) (d.rf AFE_HNPIX_NPIX h))).map (fun k =>
      (c, k, tabIdx (c / 12) (d.rf PCU_WIN_BASE c + k))))

/-- Mean of a pixel in 1/16, rounded. -/
def mean16 (sum cnt : Nat) : Int := if cnt = 0 then 0 else roundDiv ((16 * sum : Nat) : Int) cnt

/-- DARK result of one pixel: trim code, predicted dark code in 1/2^20, offset before and after its limit (R150). -/
structure DarkPix where
  trim : Int
  dp : Int
  o : Int
  lim : Int
deriving DecidableEq, Repr

def darkPixel (d16 : Int) (cpt : Nat) (t0 dt : Int) (learn : Bool) (black gain : Nat) : DarkPix :=
  let t1 := if learn ∧ cpt ≠ 0 then clampI (-128) 127 (t0 + roundDiv ((d16 - 16 * dt) * 4096) cpt) else t0
  let dp := d16 * 65536 - (t1 - t0) * cpt * 16
  let o := roundDiv dp (2 ^ 18) - roundDiv ((16 * black * 8192 : Nat) : Int) gain
  ⟨t1, dp, o, clampI (-2048) 2047 o⟩

/-- Trim limited, or offset limited (R150). -/
def DarkPix.clipped (p : DarkPix) (d16 : Int) (cpt : Nat) (t0 dt : Int) (learn : Bool) : Bool :=
  decide (p.o ≠ p.lim) ||
    (learn && decide (cpt ≠ 0) && decide (p.trim ≠ t0 + roundDiv ((d16 - 16 * dt) * 4096) cpt))

/-- Sum of a list of integers. -/
def sumI (l : List Int) : Int := l.foldl (· + ·) 0

/-- Rms about the mean, times `scale`, rounded down. -/
def rmsOf (l : List Int) (scale : Nat) : Nat :=
  let n : Int := l.length
  let s := sumI l
  let q := sumI (l.map (fun x => x * x))
  if n = 0 then 0 else isqrt ((q * n - s * s) * (scale * scale : Nat) / (n * n)).toNat

/-- Nominal PGA gain factor 10^(GAIN / 160) in 1/65,536 (R102), found bit by bit; both sides are raised to the 160th power. -/
def nominalGainGo (gain : Nat) : Nat → Nat → Nat
  | 0, n => n
  | b + 1, n => nominalGainGo gain b (if (n + 2 ^ b) ^ 160 ≤ 65536 ^ 160 * 10 ^ gain then n + 2 ^ b else n)

def nominalGain (gain : Nat) : Nat := nominalGainGo gain 21 0

/-- Trim DAC LSB of a channel in nV: of its AFE part, or nominal while there is none (R99, R144, log 56). -/
def Dev.trimLsbOf (d : Dev) (c : Nat) : Nat :=
  let v := tget d.cal.trimLsb 0 c
  if v = 0 then (if d.rf AFE_CH_TRNG c = 0 then 500000 else 2000000) else v

/-- PGA gain factor of a channel in 1/65,536: of its AFE part, or nominal while there is none (R102, R144, log 56). -/
def Dev.pgaOf (d : Dev) (c : Nat) : Nat :=
  let v := tget d.cal.pgaF 0 c
  if v = 0 then nominalGain (d.rf AFE_PGA_GAIN c) else v

/-- Codes per trim code in 1/65,536 (R150): trim LSB x PGA gain factor / 146.484375 µV. -/
def Dev.cptOf (d : Dev) (c : Nat) : Nat := (roundDiv ((d.trimLsbOf c * d.pgaOf c * 64 : Nat) : Int) 9375000).toNat

/-- The DARK input checks (R153): failing statistic and value. -/
def Dev.darkCheck (d : Dev) (l : Learn) (pix : List (Nat × Nat × Nat)) : Option (Nat × Nat) :=
  let ds := pix.map (fun p => mean16 (tget l.sum 0 (pixKey p.1 p.2.1)) (tget l.cnt 0 (pixKey p.1 p.2.1)))
  let rel := pix.map (fun p =>
    mean16 (tget l.sum 0 (pixKey p.1 p.2.1)) (tget l.cnt 0 (pixKey p.1 p.2.1)) - 16 * (d.rf AFE_CLPTGT_TGT p.1 : Int))
  let n := pix.length
  let mean := if n = 0 then 0 else sumI rel / n
  let rms16 := rmsOf ds 1
  if 16 * (d.rf CAL_DARK_MAX_MEAN 0 : Int) < mean then some (1, (roundDiv mean 16).toNat)
  else if 16 * d.rf CAL_DARK_MAX_SPREAD 0 < rms16 then some (2, (rms16 + 8) / 16)
  else none

/-- The results of one DARK measurement: new O and PTT codes by entry, and how many pixels were limited. -/
def Dev.darkResults (d : Dev) (l : Learn) (pix : List (Nat × Nat × Nat)) (second : Bool) :
    Tab Nat × Tab Nat × Nat × List (Nat × Int) :=
  let cfg := l.cfg
  let trimLearn := tbit cfg 12 && !second
  let tofs := bitsOf cfg 16 8
  let black := bitsOf cfg 24 8
  pix.foldl (fun acc p =>
    let c := p.1
    let i := p.2.2
    let key := pixKey c p.2.1
    let d16 := mean16 (tget l.sum 0 key) (tget l.cnt 0 key)
    let t0 := if d.on AFE_CH_TRIMEN c then sx 8 (d.pttLive i) else 0
    let dt : Int := d.rf AFE_CLPTGT_TGT c + tofs
    let g := pctGain (d.pctTarget i)
    let r := darkPixel d16 (d.cptOf c) t0 dt trimLearn black g
    -- a target gain of 0 leaves the BLACK term without a stated value (log 24)
    let o := if g = 0 ∧ black ≠ 0 then clampI (-2048) 2047 (d.freeAt i : Int) else r.lim
    (tinsert (terase acc.1 i) i (ux 12 o), tinsert (terase acc.2.1 i) i (ux 8 r.trim),
      acc.2.2.1 + b2n (r.clipped d16 (d.cptOf c) t0 dt trimLearn), acc.2.2.2 ++ [(c, r.dp)])) ([], [], 0, [])

/-- TRES of the head's channels (R161): rms of dp about its mean in uV at the input. -/
def Dev.putTres (d : Dev) (h : Nat) (dps : List (Nat × Int)) : Dev :=
  (enabledChans d.regs h).foldl (fun d c =>
    let l := (dps.filter (fun x => decide (x.1 = c))).map (fun x => x.2 / 4096)
    -- dp in 1/256 code; 146.484375 uV = 9375 / 64
    d.wf CAL_CHQ_TRES c (min 65535 (rmsOf l 16 * 9375 * 65536 / (16 * 256 * 64 * d.pgaOf c)))) d

/-- Pixels included in FLAT: neither DEF nor EDGE in the target (R152). -/
def Dev.flatIncluded (d : Dev) (i : Nat) : Bool := !(pctFlag (d.pctTarget i) 3) && !(pctFlag (d.pctTarget i) 4)

/-- FLAT checks (R153): failing statistic and value, and the pixels outside UNIF. -/
def Dev.flatCheck (d : Dev) (l : Learn) (pix : List (Nat × Nat × Nat)) (lines : Nat) : Option (Nat × Nat) × Nat :=
  let inc := pix.filter (fun p => d.flatIncluded p.2.2)
  let n := inc.length
  let x (p : Nat × Nat × Nat) : Nat := tget l.sumX 0 (pixKey p.1 p.2.1)
  let y (p : Nat × Nat × Nat) : Nat := tget l.sum 0 (pixKey p.1 p.2.1)
  let sat := d.rf CAL_FLAT_LIM_SAT 0
  let bad := inc.find? (fun p => decide (sat * lines ≤ x p) || decide (lines < 2 * tget l.ovr 0 (pixKey p.1 p.2.1)))
  let sx_ := (inc.map x).foldl (· + ·) 0
  let sy := (inc.map y).foldl (· + ·) 0
  let unif := d.rf CAL_FLAT_LIM_UNIF 0
  let out := (inc.filter (fun p => decide (unif * sy < ((n * y p : Nat) - (sy : Nat) : Int).natAbs * 100))).length
  let r :=
    match bad with
    | some p => some (3, x p / max 1 lines)
    | none =>
      if sx_ < 64 * d.rf CAL_FLAT_LIM_MIN 0 * n * lines then some (4, sx_ / max 1 (n * lines))
      else if 2 ^ bitsOf l.cfg 12 4 ≤ out then some (5, out)
      else none
  (r, out)

/-- FLAT results (R152): new G by entry, the entries to be flagged, and per channel the residuals behind FRES. -/
def Dev.flatResults (d : Dev) (l : Learn) (pix : List (Nat × Nat × Nat)) (lines : Nat) :
    Tab Nat × List Nat × List (Nat × Int) :=
  let inc := pix.filter (fun p => d.flatIncluded p.2.2)
  let y (p : Nat × Nat × Nat) : Nat := tget l.sum 0 (pixKey p.1 p.2.1)
  let fixed := tbit l.cfg 10
  let refN := if fixed then bitsOf l.cfg 16 16 * lines else (inc.map y).foldl (· + ·) 0
  let refD := if fixed then 1 else max 1 inc.length
  -- reference and pixel sums are both over `lines` lines: ref = refN / refD, y = y p
  pix.foldl (fun acc p =>
    let i := p.2.2
    let e := d.pctTarget i
    let g := pctGain e
    let yk := y p
    let low := decide (2 * yk * refD < refN)
    let g1 := if yk = 0 then 0 else (roundDiv ((g * refN : Nat) : Int) (refD * yk)).toNat
    let out := low || decide (g1 < 4096 ∨ 16383 < g1)
    let res : Int := if g = 0 ∨ refN = 0 then 0 else
      roundDiv ((yk * (if out then g else g1) * refD * 1000000 : Nat) : Int) (g * refN) - 1000000
    (if out then acc.1 else tinsert (terase acc.1 i) i g1, if out ∧ tbit l.cfg 11 = true then acc.2.1 ++ [i] else acc.2.1,
      if d.flatIncluded i then acc.2.2 ++ [(p.1, res)] else acc.2.2)) ([], [], [])

/-- FRES of the head's channels (R161), 0.01 % rms. -/
def Dev.putFres (d : Dev) (h : Nat) (res : List (Nat × Int)) : Dev :=
  (enabledChans d.regs h).foldl (fun d c =>
    let l := (res.filter (fun x => decide (x.1 = c))).map (fun x => x.2)
    let n := max 1 l.length
    d.wf CAL_CHQ_FRES c (min 65535 (isqrt (sumI (l.map (fun x => x * x)) / n).toNat / 100))) d

/-- The live PTT of these channels equals the target (R151). -/
def Dev.pttSettled (d : Dev) (chans : List Nat) : Bool :=
  chans.all (fun c => (List.range (d.rf PCU_WIN_LEN c)).all (fun k =>
    let i := tabIdx (c / 12) (d.rf PCU_WIN_BASE c + k)
    decide (d.pttLive i = d.pttTarget i)))

/-- Begin (or go on) measuring once the live copy equals the target; after the trim of channels whose TRIMEN was 0, once their
live PTT does (R148, R150, R151). -/
def Dev.learnStart (d : Dev) (h : Nat) : Dev :=
  match d.learnOf h with
  | none => d
  | some l =>
    let fresh (ph : Nat) : Learn :=
      { l with phase := ph, left := bitsOf l.cfg 0 10, sum := [], cnt := [], ovr := [], sumX := [], lastNow := d.now }
    match l.phase with
    | 0 => if d.headSettled h then d.setLearn (fresh 1) else d
    | 2 => if d.headSettled h then d.setLearn (fresh 3) else d
    | 4 => if d.pttSettled l.trimOn then d.setLearn { l with phase := 5 } else d
    | _ => d

/-- Measured lines of the learn are still being converted. -/
def Dev.learnBusy (d : Dev) (h : Nat) : Bool := (d.workOf h).any (fun w => w.measured)

/-- LINES measured lines are complete (R150 to R154). -/
def Dev.learnDone (d : Dev) (h : Nat) : Dev :=
  match d.learnOf h with
  | none => d
  | some l =>
    if (l.phase ≠ 1 ∧ l.phase ≠ 3) ∨ l.left ≠ 0 ∨ d.learnBusy h = true then d
    else
      let pix := d.learnPix h
      let lines := bitsOf l.cfg 0 10
      if l.kind = 3 then
        match if l.phase = 1 then d.darkCheck l pix else none with
        | some (stat, val) => d.learnEnds l stINPUT_REJECTED stat val
        | none =>
          let r := d.darkResults l pix (decide (l.phase = 3))
          let d := (d.putTres h r.2.2.2).freeNext
          let off := (enabledChans d.regs h).filter (fun c => !(d.on AFE_CH_TRIMEN c))
          let trimFirst := tbit l.cfg 12 && decide (l.phase = 1) && !off.isEmpty
          let two := tbit l.cfg 11 && decide (l.phase = 1)
          let next := if trimFirst then 7 else if two then 6 else 5
          d.setLearn { l with
            phase := next, newPct := r.1, newDef := [], newPtt := if l.phase = 1 ∧ tbit l.cfg 12 = true then r.2.1 else []
            trimOn := if trimFirst then off else [], val := r.2.2.1 }
      else
        let ck := d.flatCheck l pix lines
        match ck.1 with
        | some (stat, val) => d.learnEnds l stINPUT_REJECTED stat val
        | none =>
          let r := d.flatResults l pix lines
          (d.putFres h r.2.2).setLearn { l with
            phase := 5, newPct := r.1, newDef := r.2.1, newPtt := [], trimOn := [], val := ck.2 }

/-- Put computed PTT targets into the table. -/
def Dev.putTrims (d : Dev) (l : Tab Nat) : Dev := l.foldl (fun d e => d.putTarget false e.1 e.2) d

/-- Put computed fields into the PCT targets: O of DARK, or G and the flags of FLAT. The other fields stand as they are (R159). -/
def Dev.putFields (d : Dev) (l : Learn) : Dev :=
  let d := l.newPct.foldl (fun d e =>
    let was := d.pctTarget e.1
    d.putTarget true e.1 (if l.kind = 3 then pctEntry (pctGain was) (sx 12 e.2) (was % 64)
      else pctEntry e.2 (pctOfs was) (was % 64))) d
  -- DEF and RAVG, which excludes the other two replacements (R132, R152)
  l.newDef.foldl (fun d i => d.putTarget true i (setBit (setBit (setBit (setBit (d.pctTarget i) 3 true) 2 true) 0 false) 1 false)) d

/-- The entries of channels of the head. -/
def Dev.entriesOf (d : Dev) (h : Nat) (chans : List Nat) : List Nat :=
  ((d.learnPix h).filter (fun p => chans.contains p.1)).map (fun p => p.2.2)

/-- The learn of a head at a commit point (R148, R151): computed targets become visible; a finished learn completes. -/
def Dev.learnCommit (d : Dev) (h : Nat) : Dev :=
  match d.learnOf h with
  | none => d
  | some l =>
    match l.phase with
    | 7 =>
      let first := d.entriesOf h l.trimOn
      (d.putTrims (l.newPtt.filter (fun e => first.contains e.1))).setLearn { l with
        phase := 4, newPtt := l.newPtt.filter (fun e => !(first.contains e.1)) }
    | 6 => ((d.putTrims l.newPtt).putFields l).setLearn { l with phase := 2 }
    | 5 =>
      let d := (d.putTrims l.newPtt).putFields l
      let d := l.trimOn.foldl (fun d c => d.wf AFE_CH_TRIMEN c 1) d
      if l.kind = 3 ∧ l.trimOn ≠ [] ∧ tbit l.cfg 11 = true then d.setLearn { l with phase := 2, trimOn := [] }
      else ((d.takePart (partOf l.kind h)).learnEnds l stOK 0 l.val).wantStore
    | _ => d

/-- The head fires no line for 1 s while the learn waits or measures (R148). -/
def Dev.learnTimeout (d : Dev) (h : Nat) : Dev :=
  match d.learnOf h with
  | none => d
  | some l =>
    if max l.lastNow (tget d.pcu.lastFire 0 h) + 1000000000 ≤ d.now then d.learnEnds l stTIMEOUT 8 0 else d

end Sys2Proof.Machine
end

