-- ==== Sys2Proof/Machine/RingBits.lean ====
section
/-! DEFINITION. Zoras superframes as characters (R65, R67): a data character is 0 to 255, a control character 256 more
than its code. The header and the slots with their CRC-32C, what a repeater changes, and the slots of the originator. -/

namespace Sys2Proof.Machine

/-- K28.5, the first character of a superframe. -/
def kSof : Nat := 0x1BC

/-- K28.1, the first character of a slot. -/
def kSlot : Nat := 0x13C

/-- Bytes, low one first, as a number. -/
def leNat : List Nat → Nat
  | [] => 0
  | b :: r => b % 256 + 256 * leNat r

/-- CRC-32C of characters. -/
def crcChars (l : List Nat) : Nat := Nat.xor (crcBytes 0xFFFFFFFF l) 0xFFFFFFFF

/-- A control character, its body, and the CRC-32C of the body (R65, R67). -/
def framed (k : Nat) (body : List Nat) : List Nat := k :: body ++ leBytes 4 (crcChars body)

/-- The body of a received part of `n` characters, if its control character and its CRC are right. -/
def bodyOf (k n : Nat) (l : List Nat) : Option (List Nat) :=
  let body := (l.drop 1).take (n - 5)
  if l.length = n ∧ l.headD 0 = k ∧ (l.drop 1).all (fun c => decide (c < 256)) ∧ leNat (l.drop (n - 4)) = crcChars body then
    some body
  else none

/-- Characters 1 to 27 of a header (R65). -/
def RingHdr.body (h : RingHdr) : List Nat :=
  [0x10 + h.dir % 2 * 8 + h.phase % 4 * 2, h.rank % 4 * 64 + h.mid % 32, h.hops % 256, h.sfn % 256] ++ leBytes 6 h.tb ++
    leBytes 8 h.pos ++ leBytes 4 h.alive ++ leBytes 4 h.lockmask ++ [h.errf % 16]

/-- The 32 characters of a header. -/
def RingHdr.chars (h : RingHdr) : List Nat := framed kSof h.body

/-- The fields that characters 1 to 27 carry. -/
def hdrOfBody (b : List Nat) : RingHdr :=
  let c (n : Nat) : Nat := b.getD n 0
  { dir := c 0 / 8 % 2, phase := c 0 / 2 % 4, rank := c 1 / 64 % 4, mid := c 1 % 32, hops := c 2, sfn := c 3
    tb := leNat ((b.drop 4).take 6), pos := leNat ((b.drop 10).take 8), alive := leNat ((b.drop 18).take 4)
    lockmask := leNat ((b.drop 22).take 4), errf := c 26 % 16 }

/-- The header of a superframe whose CRC is right. -/
def hdrOf (l : List Nat) : Option RingHdr := (bodyOf kSof 32 (l.take 32)).map hdrOfBody

/-- Characters 1 to 23 of a slot (R67). -/
def RingMsg.body : RingMsg → List Nat
  | .idle => List.replicate 23 0
  | .line head num fire pos => [1, head % 32] ++ leBytes 4 num ++ leBytes 8 fire ++ leBytes 8 pos ++ [0]
  | .echo target seq ring => [2, target % 32, seq % 256, ring % 2] ++ List.replicate 19 0
  | .echoReply id seq turn => [3, id % 32, seq % 256] ++ leBytes 4 turn ++ List.replicate 16 0
  | .offset target ring ofs => [4, target % 32, ring % 2] ++ leBytes 4 ofs ++ List.replicate 16 0
  | .start tb lead => 5 :: leBytes 8 tb ++ leBytes 4 lead ++ List.replicate 10 0

/-- The 28 characters of a slot. -/
def RingMsg.chars (m : RingMsg) : List Nat := framed kSlot m.body

/-- The message that characters 1 to 23 carry; none under a reserved TYPE. -/
def msgOfBody (b : List Nat) : Option RingMsg :=
  let c (n : Nat) : Nat := b.getD n 0
  match c 0 with
  | 0 => some .idle
  | 1 => some (.line (c 1 % 32) (leNat ((b.drop 2).take 4)) (leNat ((b.drop 6).take 8)) (leNat ((b.drop 14).take 8)))
  | 2 => some (.echo (c 1 % 32) (c 2) (c 3 % 2))
  | 3 => some (.echoReply (c 1 % 32) (c 2) (leNat ((b.drop 3).take 4)))
  | 4 => some (.offset (c 1 % 32) (c 2 % 2) (leNat ((b.drop 3).take 4)))
  | 5 => some (.start (leNat ((b.drop 1).take 8)) (leNat ((b.drop 9).take 4)))
  | _ => none

/-- The message of a slot; none where the slot is ignored and counted (R67). -/
def msgOf (l : List Nat) : Option RingMsg := (bodyOf kSlot 28 l).bind msgOfBody

/-- Slot `j` of a superframe. -/
def slotOf (l : List Nat) (j : Nat) : List Nat := (l.drop (32 + 28 * j)).take 28

/-- The eight slots of a superframe. -/
def slotsOf (l : List Nat) : List (List Nat) := (List.range 8).map (slotOf l)

/-- What a repeater makes of a header with a right CRC (R66): one more hop, its own bits and error code, and a new CRC. -/
def repeatHdr (l : List Nat) (alive lock err : Nat) : List Nat :=
  let b := (l.drop 1).take 27
  let h := hdrOfBody b
  framed kSof (b.take 2 ++ [(h.hops + 1) % 256] ++ (b.drop 3).take 15 ++ leBytes 4 (Nat.lor h.alive alive) ++
    leBytes 4 (Nat.lor h.lockmask lock) ++ [Nat.lor (b.getD 26 0) err])

/-- A header with a wrong CRC goes on with the CRC bits inverted (R66). -/
def invertCrc (l : List Nat) : List Nat :=
  l.take 28 ++ ((l.drop 28).take 4).map (fun c => c / 256 * 256 + (255 - c % 256))

/-- The start of slot `j` after the start of its superframe, in ns (R67). -/
def slotStart (j : Nat) : Nat := 128 + 112 * j

/-- Replies of a member fill the first IDLE slots that have not begun by `now64`, each with its turnaround: from the K28.1 of
its ECHO at ZI to its own at ZO, 48 ns after the slot's (R63, R67). `at_` is the arrival of the superframe in 1/64 ns; what
finds no slot stays. -/
def fillReplies (id : Nat) (at_ now64 : Int) : Nat → List (List Nat) → List (Nat × Int) → List (List Nat) × List (Nat × Int)
  | _, [], q => ([], q)
  | j, s :: r, q =>
    let start := at_ + 64 * slotStart j
    match q with
    | [] => (s :: r, [])
    | (seq, rx) :: q' =>
      if msgOf s = some .idle ∧ now64 ≤ start then
        let x := fillReplies id at_ now64 (j + 1) r q'
        (RingMsg.chars (.echoReply id seq (start + 64 * 48 - rx).toNat) :: x.1, x.2)
      else
        let x := fillReplies id at_ now64 (j + 1) r q
        (s :: x.1, x.2)

/-! The originator's superframe -/

/-- A LINE message. -/
def RingMsg.isLine : RingMsg → Bool
  | .line _ _ _ _ => true
  | _ => false

/-- A message as it leaves in a slot that starts at TB `t`: START carries that instant and LEAD (R67). -/
def RingMsg.stamp (m : RingMsg) (t lead : Nat) : RingMsg :=
  match m with
  | .start _ _ => .start t lead
  | m => m

/-- The instants of the echoes among the slots of the superframe; an echo that was never answered gives way to a later one
of its number (R75). -/
def stampEchoes (sof : Nat) (l : List EchoOut) (plan : List RingMsg) : List EchoOut :=
  (plan.zip (List.range 8)).foldl (fun l x =>
    match x.1 with
    | .echo id seq ring => l.filter (fun e => decide (e.seq ≠ seq)) ++ [⟨id, ring, seq, 64 * (sof + slotStart x.2)⟩]
    | _ => l) l

/-- The slots of the running superframe are as planned on both rings. -/
def Zlk.emitPlan (z : Zlk) (lead : Nat) (plan : List RingMsg) : Zlk :=
  let chars := (plan.zip (List.range 8)).flatMap (fun x => (x.1.stamp (z.sof + slotStart x.2) lead).chars)
  { z with
    plan := plan, out0 := z.out0.take 32 ++ chars, out1 := z.out1.take 32 ++ chars
    echoes := stampEchoes z.sof z.echoes plan }

/-- The slots of the running superframe that have not begun are filled anew (R76): waiting LINE messages first, in order of
issue, then the other messages that stood there; what finds no slot waits for the next superframe. -/
def Zlk.replan (z : Zlk) (now lead : Nat) : Zlk :=
  match z.sendNow with
  | none => z
  | some n =>
    if n + 1024 ≤ now ∨ z.originating = false then z
    else
      let begun := ((List.range 8).filter (fun j => decide (n + slotStart j ≤ now))).length
      let open_ := (z.plan.drop begun).filter (fun m => decide (m ≠ RingMsg.idle))
      let lines := open_.filter (fun m => m.isLine) ++ z.txLines
      let others := open_.filter (fun m => !m.isLine)
      let room := 8 - begun
      let placed := (lines ++ others).take room
      { z with txLines := lines.drop room, txMsgs := others.drop (room - lines.length) ++ z.txMsgs }.emitPlan lead
        (z.plan.take begun ++ placed ++ List.replicate (room - placed.length) RingMsg.idle)

end Sys2Proof.Machine
end

