-- ==== Sys2Proof/Machine/Commit.lean ====
section
/-! DEFINITION. What happens at a commit point in the units behind the trigger: mitten, calibration settings, leg
corrections, learned targets and the fetch (R13, R120, R129, R148, R159, R160). -/

namespace Sys2Proof.Machine

/-- Settings whose committed change ends or restarts a learn or an AFE run (R159). -/
def calVals (t : Tab Word) (h : Nat) : List Nat :=
  phaseVals t h ++ [fieldOf t PCU_HCFG_BYPASS h] ++ (chansOf h).flatMap (fun c =>
    eqVals t c ++ [fieldOf t AFE_CH_INMODE c, fieldOf t AFE_CLPTGT_TGT c, (rregOf t .PCU_WIN c).toNat])

/-- Such a change commits (R159): a commanded run completes BAD_STATE with CHANGED, a temperature run restarts. -/
def Dev.calChanged (d : Dev) (h : Nat) (prev : Option (Tab Word)) : Dev :=
  match prev with
  | none => d
  | some t =>
    if calVals t h = calVals d.regs h then d
    else
      let d := match d.learnOf h with
        | none => d
        | some l => d.learnEnds l stBAD_STATE 7 0
      if d.itemRuns 2 h then
        if d.cal.items.any (fun x => decide (x.kind = 2 ∧ x.item = h) && x.cmd) then d.itemEnds 2 h stBAD_STATE 7 0
        else d.setCal (fun c => { c with
          items := c.items.map (fun x => if x.kind = 2 ∧ x.item = h then { x with steps := 0 } else x) })
      else d

/-- Leg corrections move toward their new values by at most SL per commit point (R160). -/
def Dev.legCommit (d : Dev) (h : Nat) : Dev :=
  let sl := d.rf CAL_SLEW_SL 0
  (chansOf h).foldl (fun d c =>
    match tfind d.cal.legNew c with
    | none => d
    | some (o, g) =>
      let o' := slewStep (d.rfi AFE_LEGCAL_OFS c) o sl
      let g' := slewStep (d.rfi AFE_LEGCAL_GAIN c) g sl
      let d := (d.wfi AFE_LEGCAL_OFS c o').wfi AFE_LEGCAL_GAIN c g'
      if o' = o ∧ g' = g then d.setCal (fun k => { k with legNew := terase k.legNew c }) else d) d

/-- The commit point of a line in the units behind the trigger. -/
def Dev.atCommit (d : Dev) (h num s : Nat) (prev : Option (Tab Word)) : Dev :=
  ((((d.mitCommit h num prev).calChanged h prev).legCommit h).learnCommit h).fetchStart h num s

/-- The line is one the head's learn measures. -/
def Dev.learnLine (d : Dev) (h : Nat) : Bool :=
  match d.learnOf h with
  | none => false
  | some l => decide (l.phase = 1 ∨ l.phase = 3) && decide (l.left ≠ 0)

/-- The strobe of the line is held inactive (R149 SUPPRESS). -/
def Dev.darkLine (d : Dev) (h : Nat) : Bool :=
  match (d.workOf h).getLast?, d.learnOf h with
  | some w, some l => w.measured && decide (l.kind = 3) && !(tbit l.cfg 10)
  | _, _ => false

/-- The committed line enters the work of its head; a learn counts it (R148, R164). -/
def Dev.lineBegins (d : Dev) (h : Nat) (line : LineRec) : Dev :=
  let m := d.learnLine h
  let w : LineWork := {
    line := line, ents := [], trims := [], came := [], scanJ := none, px := [], clampSum := [], clampCnt := [], ovrSeen := []
    stale := d.headStale h || m || d.scanOn h, measured := m, fired := false }
  let d := d.setWork h (d.workOf h ++ [w])
  match d.learnOf h with
  | some l => if m then d.setLearn { l with left := l.left - 1 } else d
  | none => d

end Sys2Proof.Machine
end

