-- ==== Sys2Proof/Machine/Ltg.lean ====
section
/-! DEFINITION. Line-trigger generators: grid, issue, overrun, reversal, loss, dependents and power states (R44 to
R58), and the strobes and ring messages that an issue produces. -/

namespace Sys2Proof.Machine

/-- LEAD (R14, R44, R64). -/
def Dev.lead (d : Dev) : Nat :=
  if d.rf ZLK_STAT_ROLE 0 = 1 then 2000 + max (d.rf ZLK_LOOPLAT_PRI 0) (d.rf ZLK_LOOPLAT_REV 0) else 2000

/-- The source an LTG works from: RING becomes ENCODER while the device continues locally (R81). -/
def Dev.ltgSrc (d : Dev) (h : Nat) : Nat :=
  let src := d.rf LTG_CTRL_SRC h
  if src = 3 ∧ (d.getLtg h).localRun = true then 0 else src

/-- The encoder port of an LTG (R44, R52, R81). -/
def Dev.ltgPort (d : Dev) (h : Nat) : Nat :=
  if d.rf LTG_CTRL_SRC h = 3 then d.rf ZLK_ISLAND_ENC 0 else d.rf LTG_CTRL_ENC h

/-- How an LTG may issue: its head fires, it only sends ring messages, or it only consumes numbers (R58, R83, R357). -/
inductive IMode where
  | fire | ring | none
deriving DecidableEq, Repr

def Dev.imode (d : Dev) (h : Nat) : IMode :=
  let tx := tbit (d.rf ZLK_TXHEAD_MASK 0) h
  let master := d.rf ZLK_STAT_ROLE 0 = 1
  let leaving := match d.pwr.trans with
    | some (t, _) => decide (t ≠ 1)
    | none => false
  match d.pwr.st with
  | .run =>
    if leaving = true ∨ d.on CLK_REFSTAT_HOLDOVER 0 = true then (if master ∧ tx = true then .ring else .none)
    else if master ∧ d.zlk.bothLost = true ∧ d.rf ZLK_ISLAND_MODE 0 = 0 then (if tx then .ring else .none)
    else .fire
  | .hold => if master ∧ tx = true then .ring else .none
  | .nap => if master ∧ tx = true then .ring else .none
  | _ => .none

/-- The velocity and position an LTG works from: the port's, or while coasting the frozen velocity extrapolated without
the one-count clamp (R54). -/
def Dev.ltgVP (d : Dev) (h : Nat) : Int × Int :=
  let e := d.getEnc (d.ltgPort h)
  if d.on LTG_STAT_COASTING h then
    (e.lossV, e.lossP * 65536 + asr (e.lossV * ((d.t : Int) - (e.lossT : Int))) 16)
  else (e.vEff d.t, e.pExt d.t)

/-- The issue values of a line of an LTG that issues its own lines (R52). -/
def Dev.issueVals (d : Dev) (h : Nat) : IssueVals :=
  let m := d.ltgPort h
  let vp := d.ltgVP h
  let ok := decide (d.ltgSrc h = 0) || (d.on ENC_CTRL_EN m && d.on ENC_STAT_POSVALID m)
  { p := vp.2, v := vp.1, t := d.t, ok := ok }

/-- The position predicted at issue for the actual centre (R52). -/
def IssueVals.at (iv : IssueVals) (s c : Nat) : Int :=
  if iv.ok then iv.p + asr (iv.v * ((s : Int) + (c : Int) - (iv.t : Int))) 16 else 0

/-- The header position of a line that follows a leader (R52). -/
def Leader.at (l : Leader) (s c : Nat) : Int :=
  if l.ring = true ∨ l.c = c then l.pos else l.iv.at s c

def Dev.setGap (d : Dev) (h : Nat) : Dev := d.wf LTG_STAT_GAPPEND h 1

/-- The commit point of a line that the head will fire (R13): the new pitch commits, phase changes are judged, the
units behind the trigger commit, and the line waits for its boundary with the register values of this instant. -/
def Dev.commitLine (d : Dev) (h num s : Nat) (pos : Int) (gap : Bool) : Dev :=
  let l := d.getLtg h
  let d := d.phaseCommit h num l.prevSnap
  let d := (d.atCommit h num s l.prevSnap).winTake h
  let scan := if d.scanOn h then some (d.rf AFE_SCANDATA_IDX 0) else none
  let line : LineRec := ⟨num, s, pos, gap || d.on LTG_STAT_GAPPEND h, scan, d.regs⟩
  let d := d.setLtg h { d.getLtg h with
    pitch := l.pitchNew, sPrev := some s, prevSnap := some d.regs, issued := l.issued ++ [line] }
  let d := (d.setHcp h { d.getHcp h with clock := d.rf HCP_HCKFREQ_FREQ h }).wf LTG_STAT_GAPPEND h 0
  let d := d.lineBegins h line
  match if d.darkLine h then none else strobeOf d.regs h s with
  | none => d
  | some st => d.setHcp h { d.getHcp h with strobes := (d.getHcp h).strobes ++ [st] }

/-- A line issued for the ring only (R58, R83): the head does not fire, and its next fired line carries GAP. Its issue is a
commit point all the same (R13): line-shadowed values come into force and phase changes are judged (R110). -/
def Dev.commitRing (d : Dev) (h num s : Nat) : Dev :=
  let l := d.getLtg h
  let d := (((d.phaseCommit h num l.prevSnap).calChanged h l.prevSnap).legCommit h).winTake h
  let d := d.setLtg h { d.getLtg h with pitch := l.pitchNew, sPrev := some s, prevSnap := some d.regs }
  (d.setHcp h { d.getHcp h with clock := d.rf HCP_HCKFREQ_FREQ h }).setGap h

/-- LEAD as START carries it (R64). -/
def Dev.ringLead (d : Dev) : Nat := 2000 + max (d.rf ZLK_LOOPLAT_PRI 0) (d.rf ZLK_LOOPLAT_REV 0)

/-- The master queues a LINE message: it goes into the next free slot, of the superframe that is leaving if one of its slots
has not begun (R76, R77). -/
def Dev.queueLine (d : Dev) (h num s : Nat) (pos : Int) : Dev :=
  if d.rf ZLK_STAT_ROLE 0 = 1 ∧ tbit (d.rf ZLK_TXHEAD_MASK 0) h = true then
    { d with zlk := ({ d.zlk with txLines := d.zlk.txLines ++ [.line h num s (ux 64 pos)] } : Zlk).replan d.now d.ringLead }
  else d

/-- Armed heads that follow head `h` (R44 GANG). -/
def Dev.followers (d : Dev) (h : Nat) : List Nat :=
  (List.range 24).filter (fun g =>
    decide (g ≠ h) && d.on LTG_CTRL_ARM g && decide (d.rf LTG_CTRL_SRC g = 5) && decide (d.rf LTG_CTRL_REF g = h))

/-- A line that is dropped: counted, and the next fired line carries GAP (R56). -/
def Dev.dropLine (d : Dev) (h : Nat) : Dev := (d.inc LTG_OVRCNT_DROP h 1).setGap h

/-- A held line of a dependent LTG whose event is due: its number, boundary, and what its own followers take. -/
def Dev.dueHeld (d : Dev) (g : Nat) : Option (Nat × Nat × Leader) :=
  match (d.getLtg g).held with
  | none => none
  | some x => if x.s ≤ d.t + d.lead then
      x.leader.map (fun ld => (x.num, x.s, { ld with pos := ld.at x.s (d.centre g), c := d.centre g })) else none

/-- The held line is taken. -/
def Dev.heldTaken (d : Dev) (g : Nat) : Dev :=
  (d.setLtg g { d.getLtg g with held := none }).wf LTG_STAT_HELD g 0

/-- The number after `n`. -/
def nextNum (n : Nat) : Nat := (n + 1) % 2 ^ 32

/-- The number before `n`. -/
def prevNum (n : Nat) : Nat := (n + 0xFFFFFFFF) % 2 ^ 32

/-- What a dependent LTG is told of a line of its leader: number, boundary, whether the leader fires it, GAP, and what the
header takes. -/
structure GangTask where
  head : Nat
  num : Nat
  s : Nat
  fires : Bool
  gap : Bool
  leader : Leader
deriving DecidableEq, Repr

/-- What the followers of a head are told of one of its lines. -/
def Dev.tell (d : Dev) (h num s : Nat) (fires gap : Bool) (ld : Leader) : List GangTask :=
  (d.followers h).map (fun g => ⟨g, num, s, fires, gap, ld⟩)

/-- The event of a line of head `h` is issued: the head's own commit point and the ring message, and what its followers
are told. -/
def Dev.emitOne (d : Dev) (h num s : Nat) (pos : Int) (gap : Bool) (ld : Leader) : Dev × List GangTask :=
  let m := d.imode h
  let d := match m with
    | .fire => d.commitLine h num s pos gap
    | .ring => d.commitRing h num s
    | .none => d.setGap h
  let d := if m = .none then d else d.queueLine h num s pos
  (d, d.tell h num s (decide (m = .fire)) gap ld)

/-- A held line whose instant has come is issued first. -/
def Dev.emitDue (d : Dev) (g : Nat) : Dev × List GangTask :=
  match d.dueHeld g with
  | some (n, sh, lh) => (d.heldTaken g).emitOne g n sh lh.pos (d.on LTG_STAT_GAPPEND g) lh
  | none => (d, [])

/-- A dependent LTG takes the boundary and number of its leader and applies its own overrun policy (R57, R58). -/
def Dev.followOne (d : Dev) (x : GangTask) : Dev × List GangTask :=
  let g := x.head
  let d := d.wf LTG_LINE_LINE g (nextNum x.num)
  if x.fires = false ∨ d.imode g ≠ .fire then
    let d := d.setGap g
    let d := if d.imode g = .ring then d.queueLine g x.num x.s (x.leader.at x.s (d.centre g)) else d
    (d, d.tell g x.num x.s false x.gap x.leader)
  else
    let l := d.getLtg g
    let due := match l.sPrev with
      | some sp => sp + d.effmin g
      | none => 0
    if l.held.isSome then (d.dropLine g, [])
    else if x.s < due then
      if d.rf LTG_CTRL_OVR g = 0 then (d.dropLine g, [])
      else
        let d := (d.inc LTG_OVRCNT_DEFER g 1).wf LTG_STAT_HELD g 1
        let d := if x.gap then d.setGap g else d
        (d.setLtg g { d.getLtg g with held := some ⟨x.num, due, false, some x.leader⟩ }, [])
    else
      let c := d.centre g
      let pos := x.leader.at x.s c
      d.emitOne g x.num x.s pos x.gap { x.leader with pos := pos, c := c }

/-- The dependent LTGs take what they are told, leaders before followers; `fuel` bounds the walk. -/
def Dev.gang : Nat → Dev → List GangTask → Dev
  | 0, d, _ => d
  | _ + 1, d, [] => d
  | fuel + 1, d, x :: rest =>
    let a := d.emitDue x.head
    let b := a.1.followOne x
    Dev.gang fuel b.1 (a.2 ++ b.2 ++ rest)

/-- Enough for 24 heads, each with a held line. -/
def ganFuel : Nat := 600

/-- The event of a line is issued, with all that depends on it. -/
def Dev.emit (d : Dev) (h num s : Nat) (pos : Int) (gap : Bool) (ld : Leader) : Dev :=
  let a := d.emitOne h num s pos gap ld
  a.1.gang ganFuel a.2

/-- Issue a line of an LTG that is its own source. -/
def Dev.issueOwn (d : Dev) (h num s : Nat) (pos : Int) (iv : IssueVals) : Dev :=
  d.emit h num s pos (d.on LTG_STAT_GAPPEND h) ⟨iv, pos, d.centre h, false⟩

/-- The event of a held line is issued: LEAD before its boundary (R56). -/
def Dev.releaseHeld (d : Dev) (h : Nat) : Dev :=
  let l := d.getLtg h
  match l.held with
  | none => d
  | some x =>
    let d := (d.setLtg h { l with held := none }).wf LTG_STAT_HELD h 0
    let c := d.centre h
    match x.leader with
    | some ld =>
      let pos := ld.at x.s c
      d.emit h x.num x.s pos (d.on LTG_STAT_GAPPEND h) { ld with pos := pos, c := c }
    | none =>
      let iv := d.issueVals h
      let pos := iv.at x.s c
      let d := d.issueOwn h x.num x.s pos iv
      if x.stretch then
        let d := (d.wf LTG_STRPOS_SPOS h (ux 48 pos)).wf LTG_STRPOSH_SPOSH h (ux 48 pos / 2 ^ 32)
        let l := d.getLtg h
        (d.setLtg h { l with target := pos + l.pitch }).inc LTG_EVTCNT_STRETCH h 1
      else d

/-- The LTG counts as moving backwards or waiting to re-arm (R53). -/
def Dev.ltgBack (d : Dev) (h : Nat) : Bool := d.on LTG_STAT_REVERSE h || d.on ENC_STAT_REV (d.ltgPort h)

/-- A reversal keeps the LTG from issuing (R53): it works from an encoder that moves backwards, or waits to re-arm. -/
def Dev.revBars (d : Dev) (h : Nat) : Bool :=
  decide (d.ltgSrc h = 0) && !(d.on LTG_STAT_COASTING h) && d.ltgBack h

/-- Issue the event of a held line if its instant has come. A held line has not been issued, so that it waits through a
reversal (R53; log 53). -/
def Dev.tryHeld (d : Dev) (h : Nat) : Dev :=
  match (d.getLtg h).held with
  | some x => if x.s ≤ d.t + d.lead ∧ d.revBars h = false then d.releaseHeld h else d
  | none => d

/-- A deferred line whose instant has come is issued after its target has moved on: a pitch that commits with it places
the next target (R47). -/
def Dev.heldDue (d : Dev) (h : Nat) : Dev :=
  match (d.getLtg h).held with
  | none => d
  | some x =>
    let old := (d.getLtg h).pitch
    let d := d.tryHeld h
    let l := d.getLtg h
    if x.stretch = true ∨ x.leader.isSome = true ∨ d.ltgSrc h ≠ 0 then d
    else d.setLtg h { l with target := l.target - old + l.pitch }

/-- A line of an LTG that is its own source falls due with boundary `s` (R56, R58): it takes its number, and is issued,
dropped, deferred or stretched. A held line whose instant has come is issued first. -/
def Dev.lineDue (d : Dev) (h s : Nat) (pos : Int) (iv : IssueVals) : Dev :=
  let d := d.tryHeld h
  let num := d.rf LTG_LINE_LINE h
  let d := d.wf LTG_LINE_LINE h (nextNum num)
  if d.imode h = .none then
    (d.setGap h).gang ganFuel (d.tell h num s false false ⟨iv, pos, d.centre h, false⟩)
  else
    let l := d.getLtg h
    let due := match l.sPrev with
      | some sp => sp + d.effmin h
      | none => 0
    if l.held.isSome then d.dropLine h
    else if s < due then
      match d.rf LTG_CTRL_OVR h with
      | 0 => d.dropLine h
      | ovr =>
        let stretch := decide (ovr = 2) && decide (d.ltgSrc h = 0)
        let d := if stretch then d else (d.inc LTG_OVRCNT_DEFER h 1).wf LTG_STAT_HELD h 1
        (d.setLtg h { d.getLtg h with held := some ⟨num, due, stretch, none⟩ }).tryHeld h
    else d.issueOwn h num s pos iv

/-- The next target moves on by the pitch in force, unless a stretched line re-bases the grid (R47, R56). -/
def Dev.nextTarget (d : Dev) (h : Nat) (before : Int) (strBefore : Nat) : Dev :=
  let l := d.getLtg h
  let waiting := match l.held with
    | some x => x.stretch
    | none => false
  if waiting = true ∨ d.rf LTG_EVTCNT_STRETCH h ≠ strBefore ∨ l.target ≠ before then d
  else d.setLtg h { l with target := l.target + l.pitch }

/-- A stretched line waits: the grid has no next target until it is issued. -/
def Ltg.stretchHeld (l : Ltg) : Bool :=
  match l.held with
  | some x => x.stretch
  | none => false

/-- One target falls due: the line, then the grid. -/
def Dev.targetDue (d : Dev) (h s : Nat) (pos : Int) (iv : IssueVals) : Dev :=
  let tgt := (d.getLtg h).target
  let before := d.rf LTG_EVTCNT_STRETCH h
  (d.lineDue h s pos iv).nextTarget h tgt before

/-- The predictive rule applies (R50, R54). While it coasts, an LTG issues also if it was waiting to re-arm after a reversal
(DESIGN CHOICE, log 53). -/
def Dev.predictive (d : Dev) (h : Nat) : Bool :=
  let v := (d.ltgVP h).1
  if d.on LTG_STAT_COASTING h then decide (0 < v)
  else !(d.ltgBack h) && d.on ENC_STAT_VALID (d.ltgPort h) && decide (0 < v) &&
    decide ((d.rf LTG_VMIN_VMIN h : Int) ≤ v)

/-- One evaluation of R50. -/
def Dev.ltgEvaluate (d : Dev) (h : Nat) : Dev :=
  let d := d.heldDue h
  if d.on LTG_CTRL_ARM h = false ∨ d.ltgSrc h ≠ 0 ∨ d.t % 8 ≠ 0 ∨ (d.getLtg h).stretchHeld = true then d
  else if d.predictive h then
    let d := d.wf LTG_STAT_SLOW h 0
    let vp := d.ltgVP h
    let tgt := (d.getLtg h).target
    let tc : Int := (d.t : Int) + roundDiv (diffQ tgt vp.2 * 65536) vp.1.toNat
    let s0 : Int := tc - d.centre h
    let lead := d.lead
    if s0 - d.t ≤ (lead : Int) + 16 then
      let late := decide (s0 < (d.t : Int) + lead)
      let s := if late then d.t + lead else s0.toNat
      let iv := d.issueVals h
      let pos := if late then iv.at s (d.centre h) else tgt
      let d := if late then d.inc LTG_MODECNT_LATE h 1 else d
      d.targetDue h s pos iv
    else d
  else if d.on LTG_STAT_COASTING h = true ∨ d.ltgBack h = true then d
  else d.wf LTG_STAT_SLOW h 1

/-- Count-edge issues at a forward count: one line per target reached (R51). In HOLD and NAP the targets passed are counted
like those of issued lines (DESIGN CHOICE, log 53). -/
def Dev.countEdge (d : Dev) (h : Nat) : Nat → Dev
  | 0 => d
  | n + 1 =>
    let l := d.getLtg h
    if l.stretchHeld = true ∨ diffQ ((d.getEnc (d.ltgPort h)).pLast * 65536) l.target < 0 then d
    else
      let s := d.t + d.lead
      let iv := d.issueVals h
      let before := d.rf LTG_EVTCNT_STRETCH h
      let d := (d.inc LTG_MODECNT_SLOW h 1).targetDue h s (iv.at s (d.centre h)) iv
      if d.rf LTG_EVTCNT_STRETCH h ≠ before then d else d.countEdge h n

/-- The smallest grid point strictly ahead of `p` on the grid `o` + k × `pitch`. -/
def gridAhead (o p : Int) (pitch : Nat) : Int := p + diffQ o p % (pitch : Int) +
  (if diffQ o p % (pitch : Int) = 0 then (pitch : Int) else 0)

/-- Re-arm after a reversal (R53): the next target is the smallest point of the continued grid beyond P_rearm. A line still
held is issued from now on, its boundary LEAD away at the least (log 53). -/
def Dev.rearm (d : Dev) (h : Nat) : Dev :=
  let l := d.getLtg h
  let pre := l.pHi + (d.rf LTG_REARM_HYS h : Int) * 65536
  let gap := diffQ pre l.target
  let k : Nat := if gap < 0 then 0 else (gap / (l.pitch : Int)).toNat + 1
  let held := l.held.map (fun x => { x with s := max x.s (d.t + d.lead) })
  let d := (d.setLtg h { l with target := l.target + (k : Int) * l.pitch, noSkip := false, held := held }).wf LTG_STAT_REVERSE h 0
  if k = 0 ∨ l.noSkip = true then d
  else ((d.wf LTG_LINE_LINE h ((d.rf LTG_LINE_LINE h + k) % 2 ^ 32)).inc LTG_EVTCNT_SKIP h k).setGap h

/-- What a count of its port does to an armed ENCODER LTG (R51, R53); `pBefore` is the position before the count. A reversal
before the LTG has re-armed keeps the P_hi of the first one (DESIGN CHOICE, log 53). The smaller of the pitch in force and
the one that waits bounds the targets that one count reaches (R47). -/
def Dev.ltgCount (d : Dev) (h : Nat) (fwd : Bool) (pBefore : Int) : Dev :=
  let m := d.ltgPort h
  if d.on LTG_STAT_COASTING h then d
  else if fwd = false then
    if d.on LTG_STAT_REVERSE h then d
    else ((d.setLtg h { d.getLtg h with pHi := pBefore * 65536, noSkip := false }).wf LTG_STAT_REVERSE h 1).wf LTG_STAT_SLOW h 0
  else
    let d :=
      if d.on LTG_STAT_REVERSE h = true ∧ d.on ENC_STAT_VALID m = true ∧
          0 ≤ diffQ ((d.getEnc m).pLast * 65536) ((d.getLtg h).pHi + (d.rf LTG_REARM_HYS h : Int) * 65536) then
        d.rearm h
      else d
    if d.on LTG_STAT_REVERSE h = true ∨ d.predictive h = true then d
    else
      let d := d.heldDue h
      let l := d.getLtg h
      let past := diffQ ((d.getEnc m).pLast * 65536) l.target
      let n := if past < 0 then 0 else (past / (min l.pitch l.pitchNew : Nat)).toNat + 1
      (d.wf LTG_STAT_SLOW h 1).countEdge h n

/-- Armed LTGs working from encoder port `p` (R35, R37, R54). -/
def Dev.ltgsOn (d : Dev) (p : Nat) : List Nat :=
  (List.range 24).filter (fun h =>
    d.on LTG_CTRL_ARM h && decide (d.ltgSrc h = 0) && decide (d.ltgPort h = p))

/-- A zeroing moves the schedules of the armed LTGs of the port (R35): also the re-base position of an LTG that has never
stretched a line (DESIGN CHOICE, log 53). -/
def Dev.ltgShift (d : Dev) (h : Nat) (by_ : Int) : Dev :=
  let l := d.getLtg h
  let d := d.setLtg h { l with target := l.target + by_ * 65536, pHi := l.pHi + by_ * 65536 }
  let sp := d.rf LTG_STRPOS_SPOS h + d.rf LTG_STRPOSH_SPOSH h * 2 ^ 32
  let sp := ux 48 (sx 48 sp + by_ * 65536)
  (d.wf LTG_STRPOS_SPOS h sp).wf LTG_STRPOSH_SPOSH h (sp / 2 ^ 32)

/-- A held line whose event is not issued is cancelled (R54). -/
def Dev.cancelHeld (d : Dev) (h : Nat) : Dev :=
  if (d.getLtg h).held.isSome then ((d.setLtg h { d.getLtg h with held := none }).dropLine h).wf LTG_STAT_HELD h 0 else d

/-- LTG `g` follows the LTG of head `h`, directly or through others; `fuel` bounds the chain. -/
def Dev.follows (d : Dev) (h : Nat) : Nat → Nat → Bool
  | 0, _ => false
  | fuel + 1, g => d.on LTG_CTRL_ARM g && decide (d.rf LTG_CTRL_SRC g = 5) && decide (d.rf LTG_CTRL_REF g ≠ g) &&
      (decide (d.rf LTG_CTRL_REF g = h) || d.follows h fuel (d.rf LTG_CTRL_REF g))

/-- ARM goes to 0 (R54). -/
def Dev.disarm (d : Dev) (h : Nat) : Dev :=
  let d := (d.wf LTG_CTRL_ARM h 0).cancelHeld h
  let d := (d.setHcp h { d.getHcp h with firedSinceArm := false }).ledShow h
  ((d.wf LTG_STAT_HELD h 0).wf LTG_STAT_COASTING h 0).wf LTG_STAT_SLOW h 0

/-- The STOP outcome of a loss (R54). The LTGs that follow issue nothing further: what they hold is cancelled too. The record
carries the number before the next one, also where that line was held, dropped or cancelled (DESIGN CHOICE, log 53). -/
def Dev.ltgStop (d : Dev) (h : Nat) : Dev :=
  let last := prevNum (d.rf LTG_LINE_LINE h)
  let d := d.each ((List.range 24).filter (fun g => d.follows h 24 g)) (fun d g => d.cancelHeld g)
  ((d.disarm h).wf LTG_STAT_STOPPED h 1).post .edge (0x010 + h) last

/-- LOS begins on the port of an armed ENCODER LTG (R54). -/
def Dev.ltgLoss (d : Dev) (h : Nat) : Dev :=
  if d.rf LTG_CTRL_LOSS h = 1 then
    (d.setLtg h { d.getLtg h with coastFrom := d.now }).wf LTG_STAT_COASTING h 1
  else d.ltgStop h

/-- A TSYNC copy of the head runs (R130). -/
def Dev.tsyncOn (d : Dev) (h : Nat) : Bool := tbit (d.rf PCU_TSYNC_HEADS 0) h

/-- ARM may be set (R48, R130). -/
def Dev.armOk (d : Dev) (h src port : Nat) : Bool :=
  !(d.tsyncOn h) && (decide (src ≠ 0) || d.on ENC_STAT_POSVALID port)

/-- ARM is set: the first target, reversal state or nominal boundary (R44, R46, R48). -/
def Dev.arm (d : Dev) (h : Nat) : Dev :=
  let d := d.wf LTG_CTRL_ARM h 1
  let l := d.getLtg h
  let l : Ltg := { l with pitch := l.pitchNew, held := none, noSkip := false, localRun := false }
  let d := (d.setHcp h { d.getHcp h with firedSinceArm := false }).winTake h
  match d.rf LTG_CTRL_SRC h with
  | 0 =>
    let m := d.rf LTG_CTRL_ENC h
    let p := (d.getEnc m).pExt d.t
    let o := sx 48 (d.rf LTG_ORIGIN_ORG h + d.rf LTG_ORIGINH_ORGH h * 2 ^ 32)
    let rev := d.on ENC_STAT_REV m
    let d := d.setLtg h { l with target := gridAhead o p l.pitch, pHi := p, noSkip := rev }
    d.wf LTG_STAT_REVERSE h (b2n rev)
  | 1 => (d.setLtg h { l with nominal := d.t + d.lead }).wf LTG_STAT_REVERSE h 0
  | _ => (d.setLtg h l).wf LTG_STAT_REVERSE h 0

/-- A TIMER LTG reaches the issue instant of its next nominal boundary (R44, R58). -/
def Dev.timerExpiry (d : Dev) (h : Nat) : Dev :=
  let l := d.getLtg h
  if d.on LTG_CTRL_ARM h = false ∨ d.ltgSrc h ≠ 1 ∨ d.t + d.lead < l.nominal then d
  else
    let iv := d.issueVals h
    let s := l.nominal
    let d := d.setLtg h { l with nominal := s + d.rf LTG_TIMERPER_PER h }
    d.lineDue h s (iv.at s (d.centre h)) iv

/-- One software line request (R44): S is the present instant plus LEAD. -/
def Dev.softLine (d : Dev) (h : Nat) : Dev :=
  if d.on LTG_CTRL_ARM h = true ∧ d.rf LTG_CTRL_SRC h = 4 then
    let iv := d.issueVals h
    let s := d.t + d.lead
    d.lineDue h s (iv.at s (d.centre h)) iv
  else d

/-- A capture of unit `u` triggers the armed CAPTURE LTGs that name it (R44). -/
def Dev.captureLines (d : Dev) (u ts : Nat) : Dev :=
  ((List.range 24).filter (fun h =>
    d.on LTG_CTRL_ARM h && decide (d.rf LTG_CTRL_SRC h = 2) && decide (d.rf LTG_CTRL_REF h = u))).foldl
    (fun d h =>
      let iv := d.issueVals h
      let s := ts + d.lead
      d.lineDue h s (iv.at s (d.centre h)) iv) d

/-- A line of the ring reaches an armed RING LTG (R57, R78). -/
def Dev.ringLineDue (d : Dev) (h num fire : Nat) (pos : Int) : Dev :=
  let d := d.setLtg h { d.getLtg h with localRun := false }
  let iv : IssueVals := ⟨0, 0, d.t, false⟩
  d.gang ganFuel [⟨h, num, fire, true, d.on LTG_STAT_GAPPEND h, ⟨iv, pos, d.centre h, true⟩⟩]

/-! Captures (R59, R60) -/

/-- A capture unit takes an edge at `ts` (R60). -/
def Dev.captureTake (d : Dev) (k ts : Nat) : Dev :=
  let pos := ux 48 ((d.getEnc (d.rf ENC_CAPCTRL_PSEL k)).pExt ts / 65536)
  let l := d.getCap k
  let d :=
    if 4 ≤ l.length then d.wf ENC_CAPSTAT_OVF k 1
    else
      let d := d.setCap k (l ++ [⟨ts, pos⟩])
      let d := if d.on ENC_CAPCTRL_EVT k then d.postAt .edge (0x040 + k) (pos % 2 ^ 32) ts else d
      d.mcvTrigger mcvCAPTURE k ts 20
  d.captureLines k ts

/-- The edge selection admits this edge (R59). -/
def Dev.captureSel (d : Dev) (k : Nat) (rising : Bool) : Bool :=
  match d.rf ENC_CAPCTRL_EDGE k with
  | 0 => rising
  | 1 => !rising
  | _ => true

/-- An edge of source `src` reaches every enabled unit that selects it. -/
def Dev.captureEdge (d : Dev) (src : Nat) (rising : Bool) (ts : Nat) : Dev :=
  ((List.range 32).filter (fun k => decide (d.rf ENC_CAPCTRL_SRC k = src) && d.on ENC_CAPCTRL_EN k &&
    d.captureSel k rising)).foldl (fun d k => d.captureTake k ts) d

/-- Pop the oldest entry (R60). -/
def Dev.capturePop (d : Dev) (k : Nat) : Dev := d.setCap k ((d.getCap k).drop 1)

/-- A read of `ENC.CAPTS` latches the oldest entry for the path (R60, R427). -/
def Dev.captureRead (d : Dev) (k : Nat) (p : Path) : Nat × Dev :=
  let e : CapEntry := (d.getCap k).headD ⟨0, 0⟩
  (e.ts % 2 ^ 32,
    ((d.wlatch .ENC_CAPTSH k p (e.ts / 2 ^ 32)).wlatch .ENC_CAPPOS k p (e.pos % 2 ^ 32)).wlatch .ENC_CAPPOSH k p
      (e.pos / 2 ^ 32))

/-! Encoder events that reach the LTGs -/

/-- An index recognised at a forward count (R35). Under ZERO and ZEROCHECK the first index after EN sets POSVALID also where
LOS has come before it (R36 names both; DESIGN CHOICE, log 53). -/
def Dev.encIndex (d : Dev) (p : Nat) : Dev :=
  let mode := d.rf ENC_CTRL_IDX p
  let e := d.getEnc p
  let d := d.setEnc p { e with zLow := false }
  if mode = 0 then d
  else
    let first := decide (2 ≤ mode) && !e.indexed
    let by_ : Int := if first then -e.pLast else 0
    let d := if first then
        let d := d.setEnc p { (d.getEnc p).shift by_ with indexed := true }
        let d := d.wf ENC_STAT_POSVALID p 1
        d.each (d.ltgsOn p) (fun d h => d.ltgShift h by_)
      else d
    let pos := (d.getEnc p).pLast
    let d := ((d.wf ENC_IDXPOS_IPOS p (ux 48 pos)).wf ENC_IDXPOSH_IPOSH p (ux 48 pos / 2 ^ 32)).wf ENC_STAT_IDXSEEN p 1
    let cpr : Int := d.rf ENC_CPR_CPR p
    let off := diff48 pos e.indexAt - cpr
    let bad := mode = 3 ∧ first = false ∧ cpr ≠ 0 ∧
      ((d.rf ENC_IDXTOL_TOL p : Int) < off ∨ (d.rf ENC_IDXTOL_TOL p : Int) < -off)
    let d := if bad then d.wf ENC_STAT_IDXERR p 1 else d
    d.setEnc p { d.getEnc p with indexAt := pos }

/-- The level of a line after a sample that makes it `n` samples stable (R31): it is accepted after FILT + 1 of them. -/
def accepted (old new : Bool) (n filt : Nat) : Bool := if filt + 1 ≤ n then new else old

/-- When a level first appeared at the ball (R31), from the sample that makes it `n` samples stable: less those samples and
the receiver delay of the fuses. -/
def Dev.edgeTime (d : Dev) (p n : Nat) : Nat := d.t + 1 - n - tget d.fuses.encDelay 0 p

/-- The receivers of a port have shown these levels for so many 1 GHz samples up to the present one (R31): the filters
accept or go on waiting. -/
def Dev.encSample (d : Dev) (p : Nat) (a b z : Bool) (na nb nz : Nat) : (Bool × Bool × Bool) × Nat × Nat :=
  let e := d.getEnc p
  let ab := d.rf ENC_FILT_ABW p
  let zw := d.rf ENC_FILT_ZW p
  let a' := accepted e.a a na ab
  let b' := accepted e.b b nb ab
  ((a', b', accepted e.z z nz zw), d.edgeTime p (if a' != e.a then na else nb), d.edgeTime p nz)

/-- An accepted level change of a port: a change of A or B first at the ball at TB `t`, of Z at `tz` (R31 to R35, R38, R51,
R53). -/
def Dev.encEdge (d : Dev) (p : Nat) (a b z : Bool) (t tz : Nat) : Dev :=
  let e := d.getEnc p
  let d := d.setEnc p { e with a := a, b := b, z := z, zLow := e.zLow || !z }
  let d :=
    if d.on ENC_CTRL_EN p then
      match encDecode (d.rf ENC_CTRL_MODE p) (d.on ENC_CTRL_INV p) e.a e.b a b with
      | .nothing => d
      | .illegal => (d.wf ENC_STAT_QERR p 1).inc ENC_ERRCNT_QERRS p 1
      | .forward =>
        let idx := z && e.zLow
        let d := d.encCount p true t
        let d := if idx then d.encIndex p else d
        d.each (d.ltgsOn p) (fun d h => d.ltgCount h true e.pLast)
      | .backward =>
        let d := d.encCount p false t
        d.each (d.ltgsOn p) (fun d h => d.ltgCount h false e.pLast)
    else d
  if e.z != z then d.captureEdge (112 + p) z tz else d

/-- LOS begins (R30, R36, R54). -/
def Dev.losBegin (d : Dev) (p : Nat) : Dev :=
  if d.on ENC_STAT_LOS p then d
  else
    let e := d.getEnc p
    let d := d.setEnc p { e with lossP := e.pLast, lossV := e.vEff d.t, lossT := match e.last8 with
      | c :: _ => c.t
      | [] => d.t }
    let d := ((d.wf ENC_STAT_LOS p 1).wf ENC_STAT_LOSSEEN p 1).wf ENC_STAT_POSVALID p 0
    let d := if d.on ENC_CTRL_EN p && d.on ENC_CTRL_LOSEVT p then d.losRecord p else d
    d.each (d.ltgsOn p) (fun d h => d.ltgLoss h)

/-- LOS ends (R30, R54, R391). -/
def Dev.losEnd (d : Dev) (p : Nat) : Dev :=
  if d.on ENC_STAT_LOS p then
    let d := (d.wf ENC_STAT_LOS p 0).levelFall p
    d.each ((d.ltgsOn p).filter (fun h => d.on LTG_STAT_COASTING h)) (fun d h => d.ltgStop h)
  else d

/-- A position load may be made (R37): no armed ENCODER LTG uses the port. -/
def Dev.posLoadOk (d : Dev) (p : Nat) : Bool :=
  !((List.range 24).any (fun h => d.on LTG_CTRL_ARM h && decide (d.rf LTG_CTRL_SRC h = 0) &&
    decide (d.rf LTG_CTRL_ENC h = p)))

/-- Load a position (R37, R38). -/
def Dev.posLoad (d : Dev) (p pos : Nat) : Dev :=
  let e := d.getEnc p
  (d.setEnc p (e.shift (sx 48 pos - e.pLast))).wf ENC_STAT_POSVALID p 1

/-- TB may be loaded (R43): standalone, and no LTG armed. -/
def Dev.tbLoadOk (d : Dev) : Bool :=
  decide (d.rf ZLK_STAT_ROLE 0 = 0) && !((List.range 24).any (fun h => d.on LTG_CTRL_ARM h))

end Sys2Proof.Machine
end

