-- ==== Sys2Proof/Machine/Zlk.lean ====
section
/-! DEFINITION. Zoras ring: superframes, election, echo measurement, timebase lock, line events, breaks and islands
(R62 to R85). Times marked 64 are in 1/64 ns. -/

namespace Sys2Proof.Machine

def Dev.setZ (d : Dev) (f : Zlk → Zlk) : Dev := { d with zlk := f d.zlk }

/-- `ZLK.STAT` as records carry it (R394). -/
def Dev.zstat (d : Dev) : Nat := (d.rreg .ZLK_STAT 0).toNat

def Dev.zrole (d : Dev) : Nat := d.rf ZLK_STAT_ROLE 0

/-- Own bit of ALIVE and LOCKMASK. -/
def Dev.zbit (d : Dev) : Nat := 2 ^ d.rf ZLK_CTRL_ID 0

/-- Bitwise or of two masks. -/
def orMask (a b : Nat) : Nat := a ||| b

def Dev.ringIn (d : Dev) (ring : Bool) : RingIn := if ring then d.zlk.rev else d.zlk.pri

def Dev.setRingIn (d : Dev) (ring : Bool) (r : RingIn) : Dev :=
  d.setZ (fun z => if ring then { z with rev := r } else { z with pri := r })

/-- The valid bit of an input (R68). -/
def inputOk (ring : Bool) : Fld := if ring then ZLK_STAT_REVOK else ZLK_STAT_PRIOK

/-- A ring start or rejoin ends: its handle completes, or the record of a direct request is posted (R70, R72). -/
def Dev.startEnds (d : Dev) (status : Nat) : Dev :=
  let h := d.zlk.startHandle
  let req := d.zlk.startReq
  let d := d.setZ (fun z => { z with startHandle := none, startReq := false, rejoin := false })
  let d := d.finishOpt h status (d.rf ZLK_STAT_ERR 0 + d.rf ZLK_STAT_ROLE 0 * 16)
  if req then d.post .edge 0x030 d.zstat else d

/-- A failed start (R72): standalone with EN still 1, the code in ERR. DISCOVER timing out is the TIMEOUT of R366; the
status of the other codes is not stated and is a free value (log 20). An originator's next superframe carries the code in
ERRF and is its last one, so that every device learns of it; a device that has found DUP_ID or TOO_MANY goes on writing it
into the headers that it repeats (log 54). -/
def Dev.startFails (d : Dev) (code : Nat) (timeout : Bool) : Dev :=
  let st := if timeout then stTIMEOUT else d.freeNat % 256
  let d := if timeout then d else d.freeNext
  let d := d.setZ (fun z => { z with abortCode := if z.originating then code else 0 })
  let d := (d.wf ZLK_STAT_ROLE 0 0).wf ZLK_STAT_ERR 0 code
  d.startEnds st

/-- A completed start (R70): the role, and ROLE_CONFLICT for a yielding MASTER (R72). -/
def Dev.startCompletes (d : Dev) : Dev :=
  let role := if d.zlk.originating then 1 else 2
  let d := (d.wf ZLK_STAT_ROLE 0 role).wf ZLK_STAT_ERR 0 (if d.zlk.errCode = 6 then 6 else 0)
  let d := d.setZ (fun z => { z with errCode := 0 })
  d.startEnds stOK

/-- A start or rejoin is requested (R70, R84). -/
def Dev.startRequest (d : Dev) (h : Option Nat) : Dev :=
  let d := d.setZ (fun z => { z with
    startHandle := h, startReq := h.isNone, startNow := d.now, errCode := 0, rejoin := true, started := false, startPend := false
    pri := { z.pri with own := 0, full := false }, rev := { z.rev with own := 0, full := false } })
  match d.zrole with
  | 1 => d.setZ (fun z => { z with echoIdx := 0, accs := [], echoes := [] })
  | 0 =>
    let d := ((d.wf ZLK_STAT_ROLE 0 4).wf ZLK_STAT_PHASE 0 0).wf ZLK_STAT_ERR 0 0
    d.setZ (fun z => { z with
      originating := decide (d.rf ZLK_CTRL_ROLE 0 ≠ 2), rejoin := false, sfn := 0, sendNow := none, echoIdx := 0
      accs := [], echoes := [], lockRun := 0, txLines := [], txMsgs := [], abortCode := 0
      lastLine := [], recent := [], lateSeen := [] })
  | _ => (d.wf ZLK_STAT_ROLE 0 4).wf ZLK_STAT_ERR 0 0

/-- A start runs. -/
def Dev.startRuns (d : Dev) : Bool := d.zlk.startReq || d.zlk.startHandle.isSome

/-- The device leaves the ring: EN cleared, or a start aborted (R69, R375). Its ZO outputs send electrical idle. -/
def Dev.ringLeave (d : Dev) : Dev :=
  (d.setZ (fun z => { z with
    originating := false, startHandle := none, startReq := false, rejoin := false, errCode := 0, abortCode := 0
    out0 := [], out1 := [], plan := [], sendNow := none, lastLine := [], recent := [], lateSeen := []
    pri := { z.pri with chars := [], replies := [] }, rev := { z.rev with chars := [], replies := [] } })).wf
    ZLK_STAT_ROLE 0 0

/-! Sending -/

/-- Members the master measures: all of ALIVE at a start, those not locked at a rejoin (R71, R84). -/
def Dev.measured (d : Dev) : List Nat :=
  (setBitsOf 32 (d.rf ZLK_ALIVE_MASK 0)).filter (fun i =>
    decide (i ≠ d.rf ZLK_CTRL_ID 0) && (!d.zlk.rejoin || !(tbit (d.rf ZLK_LOCKMASK_MASK 0) i)))

/-- The echo of index `k`: member and reply ring, both directions of each member in turn (R71). -/
def echoAt (l : List Nat) (k : Nat) : Option EchoOut :=
  if l.isEmpty then none
  else
    match l[k % (2 * l.length) / 2]? with
    | none => none
    | some id => some ⟨id, k % 2, k % 256, 0⟩

/-- The offset messages of the finished samples: the mean of each (R71). -/
def offsetMsgs (l : List EchoAcc) : List RingMsg :=
  l.map (fun a => .offset a.id a.ring (ux 20 (tdiv a.sum a.count)))

/-- Every echo of MEASURE has had its reply (R71), or is so old that no loop within R64 still brings one (log 54). -/
def Dev.samplesIn (d : Dev) : Bool := d.zlk.echoes.all (fun e => decide (e.tx + 64 * 18048 ≤ 64 * d.t))

/-- The originator's header at this instant (R65). -/
def Dev.headerNow (d : Dev) (errf : Nat) (dir : Nat) : RingHdr :=
  { dir := dir, phase := d.rf ZLK_STAT_PHASE 0, rank := d.rf ZLK_CTRL_ROLE 0 % 2, mid := d.rf ZLK_CTRL_ID 0, hops := 0
    sfn := d.zlk.sfn, tb := d.t % 2 ^ 48
    pos := if d.on ZLK_POSSRC_EN 0 then ux 64 ((d.getEnc (d.rf ZLK_POSSRC_PORT 0)).pExt d.t) else 0
    alive := d.zbit, lockmask := d.zbit, errf := errf }

/-- The slots of a new superframe (R67, R71, R75, R76): waiting LINE messages, then the others, and IDLE slots. -/
def Dev.superframeOut (d : Dev) (errf : Nat) (msgs : List RingMsg) : Dev :=
  let lines := d.zlk.txLines
  let all := lines ++ msgs
  let plan := all.take 8 ++ List.replicate (8 - all.length) .idle
  d.setZ (fun z => ({ z with
    out0 := (d.headerNow errf 0).chars, out1 := (d.headerNow errf 1).chars, outAt0 := 64 * d.now, outAt1 := 64 * d.now
    sof := d.t, sfn := (z.sfn + 1) % 256, sendNow := some d.now, txLines := lines.drop 8
    txMsgs := msgs.drop (8 - lines.length) } : Zlk).emitPlan d.ringLead plan)

/-- The originator sends one superframe on both rings (R65, R67, R71, R75, R76). MEASURE puts one ECHO a superframe before the
other messages; when the replies of its 16 rounds are in, the OFFSETs go out, and in a later superframe START. -/
def Dev.superframe (d : Dev) : Dev :=
  let z := d.zlk
  if z.abortCode ≠ 0 then
    (d.superframeOut z.abortCode []).setZ (fun z => { z with originating := false, abortCode := 0 })
  else
    let phase := d.rf ZLK_STAT_PHASE 0
    let mem := d.measured
    let measuring := decide (phase = 1) || z.rejoin
    let rounds := decide (32 * mem.length ≤ z.echoIdx)
    let finished := measuring && rounds && d.samplesIn
    let start := z.startPend && z.txMsgs.isEmpty
    let msgs := if finished then z.txMsgs ++ offsetMsgs z.accs else if start then [.start 0 0] else z.txMsgs
    let sendEcho := (measuring && !rounds) ||
      (decide (phase = 2) && !z.rejoin && decide (d.zrole = 1) && d.on ZLK_CTRL_TRACK 0)
    let echo := if sendEcho && decide (z.txLines.length < 8) then echoAt mem z.echoIdx else none
    let echoMsg : List RingMsg := match echo with
      | some e => [.echo e.id e.seq e.ring]
      | none => []
    let d := d.setZ (fun z => { z with
      echoIdx := if finished then 0 else if echo.isSome then z.echoIdx + 1 else z.echoIdx
      accs := if finished then [] else z.accs, echoes := if finished then [] else z.echoes
      rejoin := z.rejoin && !finished, startPend := finished || (z.startPend && !start) })
    let d := d.superframeOut (d.rf ZLK_STAT_ERR 0) (echoMsg ++ msgs)
    if finished then d.wf ZLK_STAT_PHASE 0 2 else d

/-- The instant of the next superframe has come (R65). -/
def Dev.superframeDue (d : Dev) : Bool :=
  match d.zlk.sendNow with
  | none => true
  | some n => decide (n + 1024 ≤ d.now)

/-! Receiving headers -/

/-- The 64-bit value nearest to `own` with the given low 48 bits (R65). -/
def rebuildTb (own low : Nat) : Int :=
  (own : Int) + sx 48 (ux 48 ((low : Int) - (own : Int)))

/-- Move TB by whole and fractional ns (R73). -/
def Dev.tbAdd64 (d : Dev) (x : Int) : Dev :=
  let n := d.zlk.fine + x
  { d with tb := d.tb + BitVec.ofInt 64 (n / 64), zlk := { d.zlk with fine := n % 64 } }

/-- Steering and lock of a member at a valid header of its active ring (R73, R74). -/
def Dev.steer (d : Dev) (ring : Bool) (hdr : RingHdr) (at64 : Nat) : Dev :=
  let ofs : Int := if ring then d.rf ZLK_OFSR_OFS 0 else d.rf ZLK_OFSP_OFS 0
  let asym := if ring then d.rfi ZLK_ASYM_REV 0 else d.rfi ZLK_ASYM_PRI 0
  let res := rebuildTb (at64 / 64) hdr.tb * 64 + ofs + asym - (at64 : Int)
  let d := d.wfi ZLK_TBERR_ERR 0 (clampI (-32768) 32767 res)
  let big := decide (64000 < res) || decide (res < -64000)
  let d := if big then (d.tbAdd64 res).wf ZLK_STAT_TBSTEP 0 1 else d.tbAdd64 (clampI (-64) 64 res)
  if res ≤ 64 ∧ -64 ≤ res then
    let n := d.zlk.lockRun + 1
    let d := d.setZ (fun z => { z with lockRun := min n 16 })
    if 16 ≤ n then d.wf ZLK_STAT_LOCKED 0 1 else d
  else (d.setZ (fun z => { z with lockRun := 0 })).wf ZLK_STAT_LOCKED 0 0

/-- A candidate yields to the header (R70): a higher rank, or the same rank with a lower ID. -/
def yieldsTo (rank id : Nat) (hdr : RingHdr) : Bool :=
  decide (rank < hdr.rank) || (decide (rank = hdr.rank) && decide (hdr.mid < id))

/-- What a header shows to be wrong with a start that runs here (R72): DUP_ID where another device has set the own bit of
ALIVE, TOO_MANY where more than 31 repeaters have been passed; 0 where nothing is. -/
def Dev.startFault (d : Dev) (own : Bool) (hdr : RingHdr) : Nat :=
  if d.startRuns = false then 0
  else if own = false ∧ tbit hdr.alive (d.rf ZLK_CTRL_ID 0) = true then 2
  else if 31 < hdr.hops then 3
  else 0

/-- Election and completion at a valid header during a start (R70, R72). -/
def Dev.electAt (d : Dev) (ring : Bool) (hdr : RingHdr) (fault : Nat) : Dev :=
  let id := d.rf ZLK_CTRL_ID 0
  let rank := d.rf ZLK_CTRL_ROLE 0 % 2
  let r := d.ringIn ring
  if fault ≠ 0 then d.startFails fault false
  else if d.zlk.originating then
    if hdr.mid = id ∧ hdr.rank = rank then
      let d := d.setRingIn ring { r with own := r.own + 1, full := decide (hdr.lockmask = hdr.alive) }
      if hdr.errf ≠ 0 then d.startFails hdr.errf false
      else if d.rf ZLK_LOOPLAT_PRI 0 > 16000 ∨ d.rf ZLK_LOOPLAT_REV 0 > 16000 then d.startFails 4 false
      else if d.rf ZLK_STAT_PHASE 0 = 0 ∧ 64 ≤ d.zlk.pri.own ∧ 64 ≤ d.zlk.rev.own then
        (d.wf ZLK_STAT_PHASE 0 1).wf ZLK_STAT_MASTERID 0 id
      else if d.rf ZLK_STAT_PHASE 0 = 2 ∧ d.zlk.pri.full = true ∧ d.zlk.rev.full = true then d.startCompletes
      else d
    else
      let d := d.setRingIn ring { r with own := 0 }
      if d.rf ZLK_STAT_PHASE 0 = 0 ∧ yieldsTo rank id hdr = true then
        d.setZ (fun z => { z with originating := false, errCode := if d.rf ZLK_CTRL_ROLE 0 = 1 then 6 else 0 })
      else d
  else
    let d := d.setRingIn ring { r with full := decide (hdr.phase = 2 ∧ hdr.lockmask = hdr.alive) }
    let d := d.wf ZLK_STAT_PHASE 0 hdr.phase
    if hdr.errf ≠ 0 then d.startFails hdr.errf false
    else if hdr.phase = 2 ∧ d.on ZLK_STAT_LOCKED 0 = true ∧ d.zlk.pri.full = true ∧ d.zlk.rev.full = true then
      d.startCompletes
    else d

/-- An arrival in own TB, in 1/64 ns, as device time. -/
def Dev.devTime (d : Dev) (at64 : Nat) : Int := 64 * d.now + (at64 : Int) - 64 * d.t

/-- A superframe goes on along the repeat path (R63, R66, R67): `hdr` is the header as it leaves, the slots pass unchanged but
for replies in IDLE slots, everything 48 ns after its arrival. -/
def Dev.repeatOut (d : Dev) (ring : Bool) (hdr chars : List Nat) (at_ : Int) : Dev :=
  let r := d.ringIn ring
  let x := fillReplies (d.rf ZLK_CTRL_ID 0) at_ (64 * d.now) 0 (slotsOf chars) r.replies
  let out := hdr ++ x.1.flatten
  (d.setRingIn ring { r with replies := x.2 }).setZ (fun z =>
    if ring then { z with out1 := out, outAt1 := at_ + 64 * 48 } else { z with out0 := out, outAt0 := at_ + 64 * 48 })

/-- A superframe enters: its messages can be taken, and slots to be ignored are counted (R67). -/
def Dev.superframeIn (d : Dev) (ring : Bool) (chars : List Nat) (at64 : Nat) : Dev :=
  let bad := ((slotsOf chars).filter (fun s => (msgOf s).isNone)).length
  (d.setRingIn ring { d.ringIn ring with chars := chars, at64 := at64, atDev := d.devTime at64, taken := 0 }).inc
    ZLK_ERRCNT_SLOT 0 bad

/-- The bits of a device that repeats a header (R65, R66, R72). -/
def Dev.repeated (d : Dev) (chars : List Nat) : List Nat :=
  repeatHdr chars d.zbit (if d.on ZLK_STAT_LOCKED 0 then d.zbit else 0)
    (if d.zlk.errCode = 2 ∨ d.zlk.errCode = 3 then d.zlk.errCode else 0)

/-- What a valid header says to the device: input, latency, masks, timebase, position, return, start (R64 to R74, R80, R82). -/
def Dev.headerTaken (d : Dev) (ring : Bool) (hdr : RingHdr) (chars : List Nat) (at64 : Nat) : Dev :=
  let r := d.ringIn ring
  let run := r.run + 1
  let back := !r.lost || decide (64 ≤ run)
  let d := d.setRingIn ring { r with run := run, lastNow := d.now, lost := !back }
  let d := if back then (d.wf (inputOk ring) 0 1).setZ (fun z => { z with bothLost := false }) else d
  let own := d.zlk.originating && decide (hdr.mid = d.rf ZLK_CTRL_ID 0)
  let fault := d.startFault own hdr
  let d := if fault ≠ 0 ∧ own = false then d.setZ (fun z => { z with errCode := fault }) else d
  let d := if d.zlk.originating then d else d.repeatOut ring (d.repeated chars) chars (d.devTime at64)
  -- loop latency at the originator (R64)
  let d :=
    if own then
      let lat := (at64 / 64) - (rebuildTb (at64 / 64) hdr.tb).toNat
      if ring then d.wf ZLK_LOOPLAT_REV 0 lat else d.wf ZLK_LOOPLAT_PRI 0 lat
    else d
  let active := d.on ZLK_STAT_ACTIVE 0
  let d :=
    if ring = active then (d.wf ZLK_ALIVE_MASK 0 hdr.alive).wf ZLK_LOCKMASK_MASK 0 hdr.lockmask else d
  let d := if ring = false then d.wf ZLK_STAT_HOP 0 (if own then 0 else (hdr.hops + 1) % 32) else d
  let d := if d.zlk.originating then d else d.wf ZLK_STAT_MASTERID 0 hdr.mid
  -- timebase of a member, from START on (R70, R73), its position and the local difference (R82)
  let follows := !d.zlk.originating && (decide (d.zrole = 2) || decide (d.zrole = 4))
  let d := if follows && decide (ring = active) && decide (hdr.phase = 2) && (decide (d.zrole = 2) || d.zlk.started) then
    d.steer ring hdr at64 else d
  let d := if follows && decide (ring = active) then
      (d.setZ (fun z => { z with rpos := hdr.pos })).wf ZLK_STAT_PHASE 0 hdr.phase
    else d
  let d := if follows && d.on ZLK_ISLAND_MODE 0 && d.on ZLK_STAT_LOCKED 0 then
      d.setZ (fun z => { z with
        diff := some (diffQ (sx 64 hdr.pos) ((d.getEnc (d.rf ZLK_ISLAND_ENC 0)).pExt (at64 / 64))) })
    else d
  -- automatic return (R80)
  let d :=
    if ring = false ∧ d.zrole = 2 ∧ d.on ZLK_STAT_ACTIVE 0 = true ∧ d.on ZLK_CTRL_AUTOREV 0 = true ∧ 1024 ≤ run then
      let d := d.wf ZLK_STAT_ACTIVE 0 0
      d.post .edge 0x030 d.zstat
    else d
  if d.startRuns then d.electAt ring hdr fault else d

/-- A superframe with a wrong header CRC (R66): counted, and repeated with the CRC inverted; its slots stand for themselves. -/
def Dev.headerBad (d : Dev) (ring : Bool) (chars : List Nat) (at64 : Nat) : Dev :=
  let d := d.inc ZLK_ERRCNT_HDR 0 1
  let d := d.setRingIn ring { d.ringIn ring with run := 0, own := 0 }
  if d.zlk.originating then d else d.repeatOut ring (invertCrc chars) chars (d.devTime at64)

/-- A superframe arrives at an input at own TB `at64` / 64 (R65 to R74, R80, R82). -/
def Dev.headerReceive (d : Dev) (ring : Bool) (chars : List Nat) (at64 : Nat) : Dev :=
  if d.on ZLK_CTRL_EN 0 = false then d
  else
    let d := d.superframeIn ring chars at64
    match hdrOf chars with
    | none => d.headerBad ring chars at64
    | some hdr => d.headerTaken ring hdr chars at64

/-! Messages -/

/-- The message of slot `j` of the superframe that passes an input, if it has not been taken (R67). -/
def Dev.slotMsg (d : Dev) (ring : Bool) (j : Nat) : Option RingMsg :=
  let r := d.ringIn ring
  if d.on ZLK_CTRL_EN 0 = false ∨ tbit r.taken j = true ∨ 8 ≤ j then none else msgOf (slotOf r.chars j)

/-- The message of a slot has been taken. -/
def Dev.slotDone (d : Dev) (ring : Bool) (j : Nat) : Dev :=
  d.setRingIn ring { d.ringIn ring with taken := setBit (d.ringIn ring).taken j true }

/-- When the K28.1 of a slot came, in 1/64 ns of device time. -/
def Dev.slotDev (d : Dev) (ring : Bool) (j : Nat) : Int := (d.ringIn ring).atDev + 64 * slotStart j

/-- A member receives an ECHO addressed to it and replies on the named ring (R67), in the first IDLE slot that passes; the
copy that arrives on that ring itself is not the one measured. -/
def Dev.echoReceive (d : Dev) (ring : Bool) (j target seq reply : Nat) : Dev :=
  if d.zlk.originating = false ∧ target = d.rf ZLK_CTRL_ID 0 ∧ reply ≠ b2n ring then
    let on_ := decide (reply = 1)
    let q := (d.ringIn on_).replies ++ [(seq, d.slotDev ring j)]
    let d := d.setRingIn on_ { d.ringIn on_ with replies := q }
    let out := if on_ then d.zlk.out1 else d.zlk.out0
    if out.isEmpty then d
    else
      let x := fillReplies target ((d.ringIn on_).atDev) (64 * d.now) 0 (slotsOf out) q
      let out := out.take 32 ++ x.1.flatten
      (d.setRingIn on_ { d.ringIn on_ with replies := x.2 }).setZ (fun z =>
        if on_ then { z with out1 := out } else { z with out0 := out })
  else d

/-- The accumulator of a member and direction with one more sample. -/
def addSample (l : List EchoAcc) (id ring : Nat) (x : Int) : List EchoAcc :=
  match l with
  | [] => [⟨id, ring, 1, x⟩]
  | a :: r => if a.id = id ∧ a.ring = ring then { a with count := a.count + 1, sum := a.sum + x } :: r
    else a :: addSample r id ring x

/-- The master receives an ECHO_REPLY at `rx64` (R71, R75): one sample; with the sixteenth sample of background
tracking the mean goes out as OFFSET. The echo that left on one ring measures that ring's offset. -/
def Dev.echoReply (d : Dev) (id seq turn rx64 : Nat) : Dev :=
  match d.zlk.echoes.find? (fun e => decide (e.id = id ∧ e.seq = seq)) with
  | none => d
  | some e =>
    let d := d.setZ (fun z => { z with echoes := z.echoes.filter (fun x => decide (x ≠ e)) })
    let sample := tdiv ((rx64 : Int) - (e.tx : Int) - (turn : Int)) 2
    let ring := 1 - e.ring
    let accs := addSample d.zlk.accs id ring sample
    let d := d.setZ (fun z => { z with accs := accs })
    if d.startRuns && decide (d.rf ZLK_LOOPLAT_PRI 0 > 16000 ∨ d.rf ZLK_LOOPLAT_REV 0 > 16000) then
      d.startFails 4 false
    else if d.zlk.rejoin = false ∧ d.rf ZLK_STAT_PHASE 0 = 2 ∧ d.zrole = 1 then
      let done := accs.filter (fun a => decide (16 ≤ a.count))
      d.setZ (fun z => { z with
        accs := accs.filter (fun a => decide (a.count < 16)), txMsgs := z.txMsgs ++ offsetMsgs done })
    else d

/-- An OFFSET message addressed to this device (R71). -/
def Dev.offsetReceive (d : Dev) (target ring ofs : Nat) : Dev :=
  if target = d.rf ZLK_CTRL_ID 0 then
    if ring = 0 then d.wf ZLK_OFSP_OFS 0 ofs else d.wf ZLK_OFSR_OFS 0 ofs
  else d

/-- A START message whose K28.1 came at device time `at_` (R70): TB from it plus the offset of the active ring and the time
since, then locking begins. LEAD is kept as it came. -/
def Dev.startReceive (d : Dev) (tb lead : Nat) (at_ : Int) : Dev :=
  let d := d.setZ (fun z => { z with rxLead := lead })
  if d.zlk.originating = false ∧ d.zrole = 4 then
    let ofs := if d.on ZLK_STAT_ACTIVE 0 then d.rf ZLK_OFSR_OFS 0 else d.rf ZLK_OFSP_OFS 0
    let t64 : Int := (64 * tb + ofs : Nat) + (64 * (d.now : Int) - at_)
    let d := { d with tb := BitVec.ofInt 64 (t64 / 64), zlk := { d.zlk with fine := t64 % 64, lockRun := 0, started := true } }
    (d.wf ZLK_STAT_PHASE 0 2).wf ZLK_STAT_LOCKED 0 0
  else d

/-- Armed LTGs that follow a master head (R78). -/
def Dev.ringFollowers (d : Dev) (head : Nat) : List Nat :=
  (List.range 24).filter (fun h =>
    d.on LTG_CTRL_ARM h && decide (d.rf LTG_CTRL_SRC h = 3) && decide (d.rf LTG_CTRL_REF h = head))

/-- How many numbers lie between two line numbers. -/
def linesBetween (last num : Nat) : Nat := (num + (0xFFFFFFFF - last)) % 2 ^ 32

/-- A member takes LINE messages: once it is a member, or while it rejoins from the instant it is LOCKED (R78, R84). -/
def Dev.takesLines (d : Dev) : Bool :=
  decide (d.zrole = 2) || (decide (d.zrole = 4) && d.zlk.started && d.on ZLK_STAT_LOCKED 0)

/-- The number with which the next one of a head is compared: an accepted number a little behind the last one is a copy that
came late, any other one is where the master now counts (log 54). -/
def lastAfter (last : Option Nat) (num : Nat) : Nat :=
  match last with
  | none => num
  | some l => if linesBetween num l < 16 then l else num

/-- A member accepts the first valid copy of a LINE message; a second copy, which comes within the 16,000 ns of a loop (R64),
is told by its head and number (R78, R84). -/
def Dev.lineReceive (d : Dev) (head num fire pos : Nat) : Dev :=
  let seen := (tget d.zlk.recent [] head).filter (fun e => decide (d.now < e.2 + 16384))
  if d.takesLines = false ∨ seen.any (fun e => decide (e.1 = num)) = true then d
  else
    let last := tget d.zlk.lastLine 0 head
    let last? : Option Nat := if last = 0 then none else some (last - 1)
    let skipped := match last? with
      | none => 0
      | some l => if linesBetween l num < 2 ^ 31 then linesBetween l num else 0
    let d := d.setZ (fun z => { z with
      recent := tset z.recent [] head (seen ++ [(num, d.now)]), lastLine := tset z.lastLine 0 head (lastAfter last? num + 1)
      lastLinePos := tset z.lastLinePos 0 head (sx 64 pos) })
    let hs := d.ringFollowers head
    let d := if skipped ≠ 0 then d.each hs (fun d h => d.setGap h) else d
    let d := d.inc ZLK_LINECNT_LOST 0 skipped
    let d := d.each (hs.filter (fun h => (d.getLtg h).localRun)) (fun d h => d.setGap h)
    if fire < d.t + 200 ∨ d.on ZLK_STAT_LOCKED 0 = false then
      (d.inc ZLK_LINECNT_LATE 0 1).each hs (fun d h => (d.wf LTG_LINE_LINE h (nextNum num)).setGap h)
    else d.each hs (fun d h => d.ringLineDue h num fire (sx 64 pos))

/-! Breaks (R68, R79 to R83) -/

/-- A SRC RING LTG continues locally (R81, R82). -/
def Dev.goLocal (d : Dev) (h : Nat) (diff : Int) : Dev :=
  let l := d.getLtg h
  let pos := tget d.zlk.lastLinePos 0 (d.rf LTG_CTRL_REF h)
  d.setLtg h { l with localRun := true, pitch := l.pitchNew, target := pos - diff + l.pitchNew }

/-- Both inputs of a member are lost (R81). RING LTGs that stop carry GAP on the line with which they resume (R84). -/
def Dev.island (d : Dev) : Dev :=
  let d := ((d.wf ZLK_STAT_ROLE 0 3).wf ZLK_STAT_ISLANDSEEN 0 1).inc ZLK_BRKCNT_ISLAND 0 1
  let d := d.post .fault 0x030 d.zstat
  let hs := (List.range 24).filter (fun h => d.on LTG_CTRL_ARM h && decide (d.rf LTG_CTRL_SRC h = 3))
  match d.zlk.diff with
  | some x =>
    if d.on ZLK_ISLAND_MODE 0 && d.on ENC_STAT_POSVALID (d.rf ZLK_ISLAND_ENC 0) then d.each hs (fun d h => d.goLocal h x)
    else d.each hs (fun d h => d.setGap h)
  | none => d.each hs (fun d h => d.setGap h)

/-- Four superframe periods without a valid header (R68): takeover, island, or the master's record. A master that loses both
inputs keeps its role (R83), although R25 counts a former master with both rings broken as islanded (DESIGN CHOICE, log 54).
A start past DISCOVER fails where both inputs fall silent (log 54). -/
def Dev.inputLost (d : Dev) (ring : Bool) : Dev :=
  let r := d.ringIn ring
  if d.on (inputOk ring) 0 = false ∨ d.now < r.lastNow + 4096 then d
  else
    let d := (d.setRingIn ring { r with run := 0, own := 0, lost := true }).wf (inputOk ring) 0 0
    let other := d.on (inputOk (!ring)) 0
    match d.zrole with
    | 1 =>
      if other then d.post .edge 0x030 d.zstat
      else
        let d := d.setZ (fun z => { z with bothLost := true })
        d.post .fault 0x030 d.zstat
    | 2 =>
      if other = false then d.island
      else if d.on ZLK_STAT_ACTIVE 0 = ring then
        let d := ((d.wf ZLK_STAT_ACTIVE 0 (b2n (!ring))).wf ZLK_STAT_TAKEOVER 0 1).inc ZLK_BRKCNT_TAKEOVER 0 1
        d.post .edge 0x030 d.zstat
      else d
    | 4 =>
      if other = false ∧ d.startRuns = true ∧ d.zlk.originating = false ∧ d.rf ZLK_STAT_PHASE 0 ≠ 0 then d.startFails 1 false
      else d
    | _ => d

/-- Eight superframes without a valid header on the active ring (R74). -/
def Dev.lockLost (d : Dev) : Dev :=
  let r := d.ringIn (d.on ZLK_STAT_ACTIVE 0)
  if d.on ZLK_STAT_LOCKED 0 = true ∧ r.lastNow + 8192 ≤ d.now then
    (d.setZ (fun z => { z with lockRun := 0 })).wf ZLK_STAT_LOCKED 0 0
  else d

/-- DISCOVER has not finished within STARTTMO (R72): NO_LOOP when exactly one ring closed, else NO_MASTER. -/
def Dev.startTimeout (d : Dev) : Dev :=
  if d.zrole = 4 ∧ d.rf ZLK_STAT_PHASE 0 = 0 ∧ d.startRuns = true ∧
      d.zlk.startNow + 1000 * d.rf ZLK_STARTTMO_TMO 0 ≤ d.now then
    let p := decide (64 ≤ d.zlk.pri.own)
    let r := decide (64 ≤ d.zlk.rev.own)
    if d.zlk.originating && (p != r) then d.startFails 5 false else d.startFails 1 true
  else d

end Sys2Proof.Machine
end

