-- ==== Sys2Proof/Machine/Head.lean ====
section
/-! DEFINITION. Line boundaries and strobes: what happens when TB reaches S (R91, R92, R105, R106), and the line pulses
of comparators, cells, captures and converters. -/

namespace Sys2Proof.Machine

/-- End of the HSP pulse of a line at boundary `s` (R92). -/
def hspEnd (t : Tab Word) (h s : Nat) : Nat :=
  s + periods64Up t h (fieldOf t HCP_HCKPH_HSPDLY h + 64 * fieldOf t HCP_HCKPH_HSPW h)

/-- A member that is not LOCKED fires no line (R74). -/
def Dev.lineBarred (d : Dev) : Bool := decide (d.rf ZLK_STAT_ROLE 0 = 2) && !(d.on ZLK_STAT_LOCKED 0)

/-- A line that is not fired for want of lock is counted as a late line, a line of the ring once for all the heads that
follow it (R74, R78); a GANG head adds nothing to its leader's line. -/
def Dev.countUnfired (d : Dev) (h num : Nat) : Dev :=
  if d.rf LTG_CTRL_SRC h = 5 then d
  else if d.rf LTG_CTRL_SRC h = 3 then
    let m := d.rf LTG_CTRL_REF h
    if tget d.zlk.lateSeen 0 m = num + 1 then d
    else (d.setZ (fun z => { z with lateSeen := tset z.lateSeen 0 m (num + 1) })).inc ZLK_LINECNT_LATE 0 1
  else d.inc ZLK_LINECNT_LATE 0 1

/-- The line leaves the work of its head unfired (R74): its strobe does not begin, the next fired line carries GAP, and a learn
measures another one in its place (R148). -/
def Dev.lineUnfired (d : Dev) (h : Nat) (l : LineRec) : Dev :=
  let p := d.getHcp h
  let d := d.setHcp h { p with strobes := p.strobes.filter (fun x => decide (some x ≠ strobeOf l.snap h l.s)) }
  let d := match d.learnOf h with
    | some r => if (d.workOf h).any (fun w => decide (w.line.num = l.num) && w.measured) then
        d.setLearn { r with left := r.left + 1 } else d
    | none => d
  (((d.setWork h ((d.workOf h).filter (fun w => decide (w.line.num ≠ l.num)))).fetchDrop h l.num).countUnfired h l.num).setGap h

/-- Start of the HSP pulse of a line at boundary `s` (R92). -/
def hspStart (t : Tab Word) (h s : Nat) : Nat := s + periods64Up t h (fieldOf t HCP_HCKPH_HSPDLY h)

/-- What a line boundary does in the head's own port: HSP, the grid and the strobe of CONT mode (R91, R92, R105); `dark` tells
that the line holds HLED inactive (R149). A port with EN at 0 is in park state. -/
def Dev.headFires (d : Dev) (h : Nat) (l : LineRec) (dark : Bool) : Dev :=
  let first := gridOf l.snap (4 * h) 0 0
  let last := periods64 l.snap h (first + 64 * fieldOf l.snap AFE_HNPIX_NPIX h)
  let p := { d.getHcp h with
    firedSinceArm := true, dark := dark, readFrom := l.s + periods64Up l.snap h first, readTo := l.s + last.1 / last.2
    gapFrom := l.s + gapLeadOf l.snap (d.scanOn h) h }
  if d.on HCP_CTRL_EN h = false then d.setHcp h p
  else
    ((d.setHcp h { p with
      grid := some (l.s, l.num), hck := some (hckOf l.snap h l.s), hspFrom := hspStart l.snap h l.s
      hspUntil := hspEnd l.snap h l.s }).wf AFE_HSTAT_GRID h 1).ledShow h

/-- The line is one that a DARK learn measures with the strobe suppressed (R149). -/
def Dev.firesDark (d : Dev) (h num : Nat) : Bool :=
  match d.learnOf h with
  | some l => decide (l.kind = 3) && !(tbit l.cfg 10) &&
      (d.workOf h).any (fun w => decide (w.line.num = num) && w.measured)
  | none => false

/-- Records of the fired line for rates and idle times (R123, R162); the mitten of the group counts it (R122). -/
def Dev.countFired (d : Dev) (h : Nat) : Dev :=
  let d := d.setPcu (fun p => { p with
    lastFire := tset p.lastFire 0 h d.now
    fired := tset p.fired [] h ((tget p.fired [] h).filter (fun n => decide (d.now < n + 1000000000)) ++ [d.now]) })
  let g := groupOf h
  if d.mitBusy g = true ∧ d.mitHead g = h then d.inc CNV_MIT_LINES g 1 else d

/-- LB pulses reach each region that runs 2 or 3 region cycles after the boundary (R240); a pair has the pulses of its half A. -/
def Dev.lbPulse (d : Dev) (h : Nat) : Dev :=
  let rs := (List.range 16).filter (fun n => tbit d.fab.wen n && d.domOn (34 + n) &&
    !(tbit (d.rf FAB_SNAPSTAT_FROZEN 0) n) && (!(d.on SYS_STATUS_PAIRED 0) || decide (n < 8)))
  ({ d with fab := { d.fab with lb := rs.map (fun n => (n, h, crossCycles (d.freeAt n))) ++ d.fab.lb } }).freeNext

/-- TB reaches the boundary of the oldest issued line of the head (R91). -/
def Dev.lineFire (d : Dev) (h : Nat) : Dev :=
  let g := d.getLtg h
  match g.issued with
  | [] => d
  | l :: rest =>
    if d.t < l.s then d
    else
      let d := d.setLtg h { g with issued := rest }
      if d.lineBarred then d.lineUnfired h l
      else
        let d := (d.updWork h l.num (fun w => { w with fired := true })).scanLineFires h l.num
        let d := ((d.headFires h l (d.firesDark h l.num)).countFired h).lbPulse h
        let d := ((d.captureEdge (120 + h) true l.s).cmpLineEnd h).cacResets 1 h
        let d := d.mcvTrigger mcvLINE h l.s 0
        match (d.workOf h).find? (fun w => decide (w.line.num = l.num)) with
        | some w => if (enabledChans l.snap h).isEmpty then d.lineFinish h w else d
        | none => d

/-- A scheduled strobe begins, and clips one still active (R105, R106). -/
def Dev.strobeStart (d : Dev) (h : Nat) : Dev :=
  let p := d.getHcp h
  match p.strobes with
  | [] => d
  | x :: rest =>
    if d.t < x.start then d
    else
      if d.on HCP_CTRL_EN h = false then d.setHcp h { p with strobes := rest }
      else
      let d := if p.ledOn then d.wf HCP_TSTAT_CLIP h 1 else d
      (d.setHcp h { p with strobes := rest, led := some x, ledOn := true }).ledShow h

/-- The strobe reaches its end (R105). -/
def Dev.strobeEnd (d : Dev) (h : Nat) : Dev :=
  let p := d.getHcp h
  match p.led with
  | none => d
  | some x =>
    if p.ledOn = false ∨ d.t < x.stop then d
    else (d.setHcp h { p with ledOn := false }).ledShow h

end Sys2Proof.Machine
end

