-- ==== Sys2Proof/Machine/Anx.lean ====
section
/-! DEFINITION. The analogue section: switch matrix, cells and comparators (R174 to R197). Voltages are integers in
1/4 µV, in which a threshold step is 9,375 and a hysteresis step 16,000 (R186). -/

namespace Sys2Proof.Machine

/-! Switch matrix -/

/-- The bus a new selector setting of a source endpoint would give a second source (R177): bus and owner. -/
def Dev.busConflict (d : Dev) (e : Nat) (b : Nat) (source : Bool) : Option (Nat × Nat) :=
  if source = true ∧ b < 64 then
    match (d.busSources b).filter (fun x => decide (x ≠ e)) with
    | [] => none
    | o :: _ => some (b, o)
  else none

/-- A write refused under R177 is recorded. -/
def Dev.recordConflict (d : Dev) (b owner other : Nat) : Dev :=
  ((((d.inc ASW_CNT_REFUSED 0 1).wf ASW_CONFLICT_BUS 0 b).wf ASW_CONFLICT_OWNER 0 owner).wf ASW_CONFLICT_OTHER 0
    other).wf ASW_CONFLICT_CAUSE 0 1

/-- Set or clear the TRIP bit of a bus. -/
def Dev.setTrip (d : Dev) (b : Nat) (v : Bool) : Dev :=
  if b < 32 then d.wbit ASW_TRIP0_BUS 0 b v else d.wbit ASW_TRIP1_BUS 0 (b - 32) v

/-- The bus detector trips and the matrix isolates the bus (R179). -/
def Dev.abusTrip (d : Dev) (b : Nat) : Dev :=
  if d.isolated b = true ∨ d.domOn 6 = false then d
  else
    let d := (d.setTrip b true).inc ASW_CNT_TRIPS 0 1
    ((((d.wf ASW_CONFLICT_BUS 0 b).wf ASW_CONFLICT_OWNER 0 0).wf ASW_CONFLICT_OTHER 0 0).wf ASW_CONFLICT_CAUSE 0 2).post
      .fault 0x0F0 b

/-! Comparators -/

/-- A comparator starts up (R189). -/
def Dev.cmpStart (d : Dev) (n : Nat) : Dev :=
  let up := d.on CMP_CFG_STARTLVL n
  let d := (d.wf CMP_STAT_OUT n (b2n up)).wf CMP_STAT_SETTLED n 0
  let d := d.setCmp n { d.getCmp n with hist := [], filt := up, ended := false, lastTick := none }
  if up then d else d.levelFall (0x060 + n)

/-- Every comparator of which `which` holds starts up, enabled or not (R175, R189, R196). -/
def Dev.cmpStarts (d : Dev) (which : Nat → Bool) : Dev :=
  ((List.range 48).filter which).foldl (fun d n => d.cmpStart n) d

/-! Ticks (R187) -/

/-- HCK of a head runs (R187). -/
def Dev.hckRuns (d : Dev) (h : Nat) : Bool := d.headRuns h

/-- The phase accumulator of comparator `n` (R187): 32 bits at 1 GHz, from where it stood when TICK was last written. -/
def Dev.cmpAcc (d : Dev) (n : Nat) : Nat :=
  ((d.getCmp n).phase + d.rf CMP_TICK_TICK n * (d.now - (d.getCmp n).since)) % 2 ^ 32

/-- TICK is written: the accumulator goes on from where it stands (`o` is the device before the write). -/
def Dev.cmpRetick (o d : Dev) (n : Nat) : Dev := d.setCmp n { d.getCmp n with phase := o.cmpAcc n, since := d.now }

/-- An ACC tick falls in the last ns: the accumulator has wrapped. -/
def Dev.accTick (d : Dev) (n : Nat) : Bool :=
  decide ((d.getCmp n).since < d.now) && decide (d.cmpAcc n < d.rf CMP_TICK_TICK n)

/-- An HCK tick falls in the last ns (R187): PH / 64 of a period after an edge of the clock in force whose number, from hck(0) of
the line on, is a multiple of DIV + 1. -/
def Dev.hckTick (d : Dev) (n : Nat) : Bool :=
  match d.hckNow (d.rf CMP_CFG_THEAD n) with
  | none => false
  | some (g, j, x) =>
    let tick := d.rf CMP_TICK_TICK n
    let p : Int := j * 2 ^ 32 + (x : Int) - (bitsOf tick 0 6 * 2 ^ 26 : Nat)
    let m := p / 2 ^ 32
    decide ((p - g.freq) / 2 ^ 32 < m) && decide (0 ≤ m) && decide (m % (bitsOf tick 8 8 + 1 : Nat) = 0)

/-- A tick of comparator `n` falls in the last ns (R187, R193); in SLEEP the crown ticks every WAKETICK µs (R195). -/
def Dev.cmpTicks (d : Dev) (n : Nat) : Bool :=
  let b := d.cmpBase n
  if d.pwr.st = .sleep ∨ d.pwr.st = .waking then
    decide (d.anx.sleepAt < d.now) && decide ((d.now - d.anx.sleepAt) % (1000 * d.rf CMP_WAKETICK_PER 0) = 0)
  else if d.rf CMP_CFG_TSRC b = 0 then d.accTick b
  else d.hckTick b

/-- OUT holds and no decision is taken (R188). -/
def Dev.cmpHeld (d : Dev) (n : Nat) : Bool :=
  let b := d.cmpBase n
  let inp := d.rf CMP_CFG_INP b
  let inn := d.rf CMP_CFG_INN n
  decide (inp = 127) || !(d.on CMP_CFG_EN n) || (decide (inp < 64) && d.isolated inp) ||
    (decide (inn < 64) && d.isolated inn) || d.itemRuns 5 n ||
    (decide (d.pwr.st ≠ .sleep ∧ d.pwr.st ≠ .waking) &&
      (if d.rf CMP_CFG_TSRC b = 1 then !(d.hckRuns (d.rf CMP_CFG_THEAD b)) else decide (d.rf CMP_TICK_TICK b = 0)))

/-- The threshold writes whose 500 ns have passed come into force (R186). -/
def CmpUnit.settle (x : CmpUnit) (now : Nat) : CmpUnit :=
  x.thNew.foldl (fun x e => if e.1 ≤ now then { x with th := e.2.1, hys := e.2.2, thNew := x.thNew.erase e } else x) x

/-- The comparison of R186, less the threshold offset of CMP calibration (R144, R160): none inside the hysteresis band. `vn`
counts only when INN names a bus. -/
def Dev.cmpCompare (d : Dev) (n : Nat) (vp vn : Int) : Option Bool :=
  let x := d.getCmp n
  let thr : Int := if d.rf CMP_CFG_INN n = 127 then ((x.th * 9375 : Nat) : Int) else vn
  let diff := vp - thr - tget d.cal.cmpOfs 0 n
  let half : Int := if x.hys = 0 then 4000 else ((8000 * x.hys : Nat) : Int)
  let inv := d.on CMP_CFG_POL n != decide (d.cmpBase n ≠ n)
  if half < diff then some (!inv)
  else if diff < -half then some inv
  else none

/-- Number of decisions of the majority filter (R191). -/
def Dev.cmpN (d : Dev) (n : Nat) : Nat := if d.on CMP_FILT_MAJ (d.cmpBase n) then 9 else 5

/-- The tick falls in blanked time (R190); crown ticks are never blanked. -/
def Dev.cmpBlanked (d : Dev) (n : Nat) : Bool :=
  let b := d.cmpBase n
  let h := d.rf CMP_CFG_THEAD b
  let bl := d.rf CMP_FILT_BLK b * 10
  let p := d.getHcp h
  let t := d.t
  let active := p.ledOn
  let sinceStart := match p.led with
    | some x => t - x.start
    | none => bl
  let sinceEnd := match p.led with
    | some x => if t < x.stop ∨ active = true then bl else t - x.stop
    | none => bl
  if d.rf CMP_FILT_CLASS b ≠ 0 ∨ d.pwr.st = .sleep then false
  else match d.rf CMP_FILT_BMODE b with
    | 0 => decide (sinceStart < bl) || decide (sinceEnd < bl)
    | 1 => !active || decide (sinceStart < bl)
    | 2 => active || decide (sinceEnd < bl)
    | _ => decide (p.readTo = 0 ∨ t < p.readFrom ∨ p.readTo < t)

/-- A record of a comparator, subject to EVMIN (R194). -/
def Dev.cmpPost (d : Dev) (n : Nat) (kind : RecKind) (crown : Bool) : Dev :=
  let x := d.getCmp n
  let close := match x.lastRec with
    | some r => decide (d.now < r + 1000 * d.rf CMP_FILT_EVMIN (d.cmpBase n))
    | none => false
  if close then d.inc CMP_EVCNT_SUPP n 1
  else
    (d.setCmp n { x with lastRec := some d.now }).postRec
      { kind := kind, source := 0x060 + n, crown := crown, more := false, value := d.rf CMP_STAT_OUT n, tb := d.t }

/-- OUT changes to `v` by an edge (R188, R192, R194): counts, captures, cell resets, triggers and records. A capture carries
the TB of the tick: the 1 ns that R21 and R59 leave uncertain is taken as 0 (DESIGN CHOICE, log 53). -/
def Dev.cmpEdge (d : Dev) (n : Nat) (v : Bool) : Dev :=
  let d := ((d.wf CMP_STAT_OUT n (b2n v)).wf CMP_STAT_EDGESEEN n 1).inc CMP_EVCNT_EDGES n 1
  let d := d.setCmp n { d.getCmp n with ended := false }
  if d.pwr.st = .sleep then d
  else
    let d := d.captureEdge n v d.t
    let d := if v then (d.cacResets 2 n).mcvTrigger mcvCOMPARATOR n d.t 20 else d.levelFall (0x060 + n)
    match d.rf CMP_CFG_EVT n with
    | 1 => if v then d.cmpPost n .edge false else d
    | 2 => if v then d else d.cmpPost n .edge false
    | 3 => d.cmpPost n .edge false
    | 4 => if v then d.cmpPost n .level false else d
    | _ => d

/-- OUT takes the filter's level after the latch (R192); `hold` keeps a blanked output that no ended hold releases. -/
def Dev.cmpLatch (d : Dev) (n : Nat) (blanked : Bool) : Dev :=
  let x := d.getCmp n
  let out := d.on CMP_STAT_OUT n
  let held := out && decide (d.rf CMP_CFG_LMODE (d.cmpBase n) ≠ 0) && !x.ended
  if held = true ∨ (blanked = true ∧ x.ended = false) then d
  else
    let d := d.setCmp n { x with ended := false }
    if x.filt = out then d else d.cmpEdge n x.filt

/-- The first decision outside the band settles the comparator (R189): no edge, but a LEVEL record whose OUT falls is voided
(R194). -/
def Dev.cmpSettle (d : Dev) (n : Nat) (v : Bool) : Dev :=
  let d := if v then d else d.levelFall (0x060 + n)
  let d := d.setCmp n { d.getCmp n with hist := List.replicate (d.cmpN n) v, filt := v, ended := false }
  let d := (d.wf CMP_STAT_OUT n (b2n v)).wf CMP_STAT_SETTLED n 1
  if v = true ∧ d.rf CMP_CFG_EVT n = 4 then d.cmpPost n .level false else d

/-- A taken decision passes the filter (R190, R191). -/
def Dev.cmpFilter (d : Dev) (n : Nat) (v : Bool) : Dev :=
  let x := d.getCmp n
  if d.rf CMP_FILT_CLASS (d.cmpBase n) = 1 then
    let k := d.cmpN n
    let hist := (v :: x.hist).take k
    let ones := (hist.filter (fun b => b)).length
    d.setCmp n { x with hist := hist, filt := if hist.length < k then x.filt else decide (k < 2 * ones) }
  else d.setCmp n { x with filt := v }

/-- A change of MAJ clears the history (R191): OUT holds until N new decisions. -/
def Dev.cmpForget (d : Dev) (n : Nat) : Dev := d.setCmp n { d.getCmp n with hist := [] }

/-- A comparator decides at a tick (R186 to R192); until it has settled, a blanked tick does nothing (R189). -/
def Dev.cmpTick (d : Dev) (n : Nat) (vp vn : Int) : Dev :=
  let x := (d.getCmp n).settle d.now
  let early := match x.lastTick with
    | some l => decide (d.now < l + 15)
    | none => false
  if d.cmpHeld n = true ∨ early = true then d
  else
    let d := d.setCmp n { x with lastTick := some d.now }
    let r := d.cmpCompare n vp vn
    let v := r.getD (d.on CMP_STAT_DEC n)
    if d.cmpBlanked n then (if d.on CMP_STAT_SETTLED n then d.cmpLatch n true else d)
    else if d.on CMP_STAT_SETTLED n then ((d.wf CMP_STAT_DEC n (b2n v)).cmpFilter n v).cmpLatch n false
    else match r with
      | none => d
      | some v => (d.wf CMP_STAT_DEC n (b2n v)).cmpSettle n v

/-- Comparators run (R175, R195): from ANAREL on, outside SLEEP. -/
def Dev.cmpOn (d : Dev) : Bool := d.anx.released && d.domOn 6

/-- A comparator decision in the running device, at one of its ticks (R187). -/
def Dev.cmpDecision (d : Dev) (n : Nat) (vp vn : Int) : Dev :=
  if d.cmpOn = true ∧ d.cmpTicks n = true then d.cmpTick n vp vn else d

/-- CLR ends a STICKY or LINE hold at the next tick (R192). -/
def Dev.cmpClear (d : Dev) (n : Nat) : Dev :=
  if d.on CMP_STAT_OUT n = true ∧ d.rf CMP_CFG_LMODE (d.cmpBase n) ≠ 0 then
    d.setCmp n { d.getCmp n with ended := true }
  else d

/-- State of window `w` as its comparators now stand (R193); a window that is not set shows UNSETTLED. -/
def Dev.winLive (d : Dev) (w : Nat) : Nat :=
  if tbit (d.rf CMP_WIN_WEN 0) w = false ∨ d.on CMP_STAT_SETTLED (2 * w) = false ∨
      d.on CMP_STAT_SETTLED (2 * w + 1) = false then 3
  else if d.on CMP_STAT_OUT (2 * w) then 1
  else if d.on CMP_STAT_OUT (2 * w + 1) then 2
  else 0

/-- State of window `w` (R193): it holds while one of its comparators is under calibration. -/
def Dev.winState (d : Dev) (w : Nat) : Nat :=
  if d.itemRuns 5 (2 * w) = true ∨ d.itemRuns 5 (2 * w + 1) = true then tget d.anx.winHeld 3 w else d.winLive w

/-- A window takes its state along into the calibration of one of its comparators (R193). -/
def Dev.winHold (d : Dev) (w : Nat) : Dev :=
  let v := d.winState w
  d.setAnx (fun a => { a with winHeld := tset a.winHeld 3 w v })

/-- A bus is released (R180): its switches close, and every comparator on it restarts. -/
def Dev.busRelease (d : Dev) (b : Nat) : Dev :=
  let d := d.setTrip b false
  let d := ((List.range 256).filter (fun e => decide (d.endBus e = b))).foldl (fun d e => d.moveSwitch e 127) d
  d.cmpStarts (fun n => decide (d.rf CMP_CFG_INP (d.cmpBase n) = b) || decide (d.rf CMP_CFG_INN n = b))

/-! Cells -/

/-- A network update of a cell (R183, R185): from the next control edge its output switch is open for 1 µs, and the measured
offset is taken. -/
def Dev.cacUpdate (d : Dev) (n : Nat) : Dev :=
  d.setAnx (fun a => { a with
    cacOpen := tset a.cacOpen 0 n (d.anxEdge + 1000), cacOfs := tset a.cacOfs 0 n (d.rfi CAC_STAT_OFS n) })

/-- The network has settled and the output switch closes, or the output of a settled cell reaches a limit later (R183). -/
def Dev.cacSettled (d : Dev) (n : Nat) (ilim rail : Bool) : Dev :=
  let u := tget d.anx.cacOpen 0 n
  if d.now < u then d
  else
    let d := d.setAnx (fun a => { a with cacOpen := tset a.cacOpen 0 n 0 })
    if d.rf CAC_CFG_FUNC n = 0 then d
    else
      let d := if ilim then d.wf CAC_STAT_ILIM n 1 else d
      if rail then d.wf CAC_STAT_RAIL n 1 else d

/-- The reset pulse of a cell ends (R184). -/
def Dev.cacResetEnd (d : Dev) (n : Nat) : Dev :=
  let u := tget d.anx.cacRst 0 n
  if u = 0 ∨ d.now < u then d else d.setAnx (fun a => { a with cacRst := tset a.cacRst 0 n 0 })

/-- ANAREL connects the analogue section (R175, R189, R200). -/
def Dev.anxRelease (d : Dev) : Dev :=
  (d.setAnx (fun a => { a with released := true })).cmpStarts (fun _ => true)

end Sys2Proof.Machine
end

