-- ==== Sys2Proof/Machine/Mcv.lean ====
section
/-! DEFINITION. The monitor converters (R198 to R214). Instants inside a converter are kept in 1/8 ns, in which a clock
of 64 MHz is 125. -/

namespace Sys2Proof.Machine

/-- The inputs of the regular scan, ascending (R204). -/
def Dev.mcvMask (d : Dev) (m : Nat) : List Nat :=
  setBitsOf 32 (d.rf MCV_MASK0_MASK m) ++ (setBitsOf 32 (d.rf MCV_MASK1_MASK m)).map (fun i => 32 + i)

/-- The enabled injected slots, in slot order (R207). -/
def Dev.mcvSlots (d : Dev) (m : Nat) : List Nat := (List.range 4).filter (fun i => d.on (MCV_INJ_EN i) m)

/-- A conversion runs or is queued, or a trigger of the converter waits (R202). -/
def Mcv.active (x : Mcv) : Bool :=
  !x.trigs.isEmpty || !x.itrigs.isEmpty || x.run.isSome || x.due.isSome || x.scan.isSome || x.injDue.isSome || x.inj.isSome || !x.hk.isEmpty

/-- PWR follows R202; with IDLE 0 the converter powers down as soon as nothing is active. -/
def Dev.mcvPower (d : Dev) (m : Nat) : Dev :=
  let x := d.getMcv m
  if x.active then d.wf MCV_STAT_PWR m 1
  else if x.lastEnd + 8000 * d.rf MCV_CFG_IDLE m ≤ 8 * d.now then d.wf MCV_STAT_PWR m 0
  else d

/-- The converter is powered down. -/
def Dev.mcvDown (d : Dev) (m : Nat) : Bool := !(d.on MCV_STAT_PWR m)

/-- When a trigger at t0 reaches PD_MCV (R203), all in 1/8 ns: 2 to 3 clocks later. -/
def Dev.mcvArrival (d : Dev) (t0 : Nat) : Nat := t0 + 250 + d.freeNat % 126

/-- When the first acquisition of a triggered sequence may begin (R203), in 1/8 ns. -/
def mcvDue (arrival dly : Nat) (down : Bool) : Nat := if down = true ∧ dly < 160 then arrival + 20000 else arrival + 125 * dly

/-- The input reads ground and is marked DISC (R198, R200, R210): before ANAREL, or a tap whose switch is open. -/
def Dev.mcvDisc (d : Dev) (m input : Nat) : Bool :=
  if input < 32 then !d.anx.released
  else if input < 48 then false
  else !(d.switchClosed (224 + 16 * m + (input - 48)))

/-- The sample instant of a conversion, in 1/8 ns: 18 clocks before its end (R201). -/
def Conv.sample (c : Conv) : Nat := c.ends - 2250

/-- The sample instant of the running conversion comes: whether its input reads ground stands from here (R200). -/
def Dev.mcvSample (d : Dev) (m : Nat) : Dev :=
  match (d.getMcv m).run with
  | none => d
  | some c =>
    if c.disc = none ∧ c.sample ≤ 8 * d.now then
      d.setMcv m { d.getMcv m with run := some { c with disc := some (d.mcvDisc m c.input) } }
    else d

/-- A conversion starts at `ready` (1/8 ns), but not before the last one has ended (R201, R202): with the converter's own start-up
when it is powered down. -/
def Dev.mcvConvert (d : Dev) (m ready : Nat) (k : ConvKind) (input slot : Nat) (rst : Bool) : Dev :=
  let start := max ready (d.getMcv m).lastEnd + (if d.mcvDown m then 20000 else 0)
  (d.setMcv m { d.getMcv m with
    run := some ⟨k, input, slot, rst, start + 125 * (d.rf MCV_CFG_ACQ m + 18), none⟩ }).wf MCV_STAT_PWR m 1

/-- The converter takes the conversion that comes next (R208, R209): injected, housekeeping, regular. -/
def Dev.mcvPick (d : Dev) (m ready : Nat) : Dev :=
  let x := d.getMcv m
  if x.run.isSome = true ∨ d.on MCV_STAT_CALBUSY m = true then d
  else
    match x.injDue, x.inj with
    | none, some (i :: _) => d.mcvConvert m ready .injected (d.rf (MCV_INJ_CH i) m) i false
    | _, _ =>
      match x.hk with
      | i :: _ => d.mcvConvert m ready .house i 0 false
      | [] =>
        match x.due, x.scan with
        | none, some (i :: _) => d.mcvConvert m ready .regular i 0 x.rstNext
        | _, _ => d.mcvPower m

/-- Calibration of a converter begins once everything accepted before it is done (R210): a scan is abandoned, and housekeeping goes
on on the other converter (R209). -/
def Dev.mcvCalBegin (d : Dev) (m : Nat) : Dev :=
  let x := d.getMcv m
  let d := d.setMcv m { x with
    calPend := false, hk := [], due := none, scan := none, restart := x.restart || x.scan.isSome }
  let d := ((d.wf MCV_STAT_SCANBUSY m 0).wf MCV_STAT_CALBUSY m 1).mcvPower m
  let y := d.getMcv (1 - m)
  (d.setMcv (1 - m) { y with hk := y.hk ++ x.hk }).mcvPick (1 - m) (8 * d.now)

/-- The converter goes on from `ready` (1/8 ns): with calibration, or with the next conversion. -/
def Dev.mcvNext (d : Dev) (m ready : Nat) : Dev :=
  let x := d.getMcv m
  if x.run = none ∧ d.on MCV_STAT_CALBUSY m = false ∧ x.calPend = true ∧ x.inj = none ∧ x.queued = false then d.mcvCalBegin m
  else d.mcvPick m ready

/-- A regular trigger with its instant t0 (1/8 ns) is accepted, or ignored and counted (R205, R206). -/
def Dev.mcvRegular (d : Dev) (m t0 : Nat) (down : Bool) : Dev :=
  if d.on MCV_CTRL_EN m = false ∨ d.domOn 5 = false then d
  else if d.on MCV_STAT_SCANBUSY m = true ∨ d.on MCV_STAT_CALBUSY m = true then d.inc MCV_TRIGOVR_REG m 1
  else
    let x := d.getMcv m
    let due := mcvDue (d.mcvArrival t0) (d.rf MCV_TRIG_DLY m) down
    (((d.setMcv m { x with due := some due, scan := some (d.mcvMask m), rstNext := false }).wf MCV_STAT_SCANBUSY m
      1).wf MCV_STAT_PWR m 1).freeNext

/-- An injected trigger is accepted, and its delay runs from `arrival` (1/8 ns; R207, R208). With no slot enabled it converts
nothing. -/
def Dev.mcvInjAccept (d : Dev) (m arrival : Nat) (down : Bool) : Dev :=
  let x := d.getMcv m
  if (d.mcvSlots m).isEmpty then (d.setMcv m { x with queued := false }).wf MCV_STAT_INJPEND m 0
  else
  let due := mcvDue arrival (d.rf MCV_ITRIG_DLY m) down
  ((d.setMcv m { x with injDue := some due, inj := some (d.mcvSlots m), queued := false }).wf MCV_STAT_INJBUSY m
    1).wf MCV_STAT_INJPEND m 0 |>.wf MCV_STAT_PWR m 1

/-- An injected trigger with its instant t0 (1/8 ns) is accepted, queued, or ignored and counted (R208, R210). -/
def Dev.mcvInjected (d : Dev) (m t0 : Nat) (down : Bool) : Dev :=
  let x := d.getMcv m
  if d.on MCV_CTRL_IEN m = false ∨ d.domOn 5 = false then d
  else if x.inj.isSome = true ∨ d.on MCV_STAT_CALBUSY m = true then
    if x.queued then d.inc MCV_TRIGOVR_INJ m 1
    else (d.setMcv m { x with queued := true }).wf MCV_STAT_INJPEND m 1
  else (d.mcvInjAccept m (d.mcvArrival t0) down).freeNext

/-- The instant of a trigger that arrives now, in 1/8 ns (R205). -/
def Trig.at (x : Trig) (now : Nat) : Nat := 8 * max x.lo (min now x.hi)

/-- A trigger on its way arrives (R205). -/
def Dev.mcvTrigArrive (d : Dev) (m : Nat) (inj : Bool) : Dev :=
  let x := d.getMcv m
  if inj then
    match x.itrigs with
    | [] => d
    | r :: rest => (d.setMcv m { x with itrigs := rest }).mcvInjected m (r.at d.now) r.down
  else
    match x.trigs with
    | [] => d
    | r :: rest => (d.setMcv m { x with trigs := rest }).mcvRegular m (r.at d.now) r.down

/-- GO and IGO (R205): ignored while the source is not SOFTWARE. -/
def Dev.mcvSoft (d : Dev) (m : Nat) (go igo : Bool) : Dev :=
  let down := d.mcvDown m
  let d := if go = true ∧ d.rf MCV_TRIG_SRC m = 0 then d.mcvRegular m (8 * d.now) down else d
  if igo = true ∧ d.rf MCV_ITRIG_SRC m = 0 then d.mcvInjected m (8 * d.now) down else d

/-- EN changed (R204, R205, R206, R210): CONT starts at EN, after a running calibration at its end; clearing EN ends a scan at its
running conversion. -/
def Dev.mcvEnable (d : Dev) (m : Nat) (was now : Bool) : Dev :=
  if was = false ∧ now = true then
    if d.rf MCV_TRIG_SRC m ≠ 4 ∨ d.on MCV_STAT_CALBUSY m = true then d
    else if d.on MCV_STAT_SCANBUSY m then
      d.setMcv m { d.getMcv m with trigs := (d.getMcv m).trigs ++ [⟨d.now, d.now, false⟩] }
    else d.mcvRegular m (8 * d.now) (d.mcvDown m)
  else if was = true ∧ now = false then
    let x := d.getMcv m
    let regRun : Bool := match x.run with
      | some c => decide (c.kind = .regular)
      | none => false
    let d := d.setMcv m { x with due := none, scan := none, restart := false }
    if regRun then d else (d.wf MCV_STAT_SCANBUSY m 0).mcvPower m
  else d

/-- IEN cleared (R210): a queued trigger is discarded. -/
def Dev.mcvInjDisable (d : Dev) (m : Nat) (was now : Bool) : Dev :=
  if was = true ∧ now = false then
    ((d.setMcv m { d.getMcv m with queued := false }).wf MCV_STAT_INJPEND m 0).mcvNext m (8 * d.now)
  else d

/-- A delay ends (R203); an injected sequence that is due no later than the scan goes first (R210). -/
def Dev.mcvDelay (d : Dev) (m : Nat) (inj : Bool) : Dev :=
  let x := d.getMcv m
  match if inj then x.injDue else x.due with
  | none => d
  | some t =>
    if 8 * d.now < t then d
    else if inj then (d.setMcv m { x with injDue := none }).mcvNext m t
    else
      let first := match x.injDue with
        | some i => decide (i ≤ t)
        | none => false
      (d.setMcv m { x with due := none, injDue := if first then none else x.injDue }).mcvNext m t

/-- Fill of the buffer (R212). -/
def Dev.mcvFill (d : Dev) (m : Nat) : Nat :=
  let size := d.rf MCV_BUF_SIZE m
  (d.rf MCV_WIDX_WIDX m + size - d.rf MCV_RIDX_RIDX m) % max size 1

/-- WM and its record follow the fill (R212). -/
def Dev.mcvWm (d : Dev) (m : Nat) : Dev :=
  let was := d.on MCV_STAT_WM m
  let now := decide (d.rf MCV_WMARK_WMARK m ≤ d.mcvFill m)
  let d := d.wf MCV_STAT_WM m (b2n now)
  if was = false ∧ now = true ∧ d.on MCV_CTRL_WMEVT m = true ∧ d.rf MCV_CFG_OVRMODE m = 0 then
    d.post .level (0x0D0 + m) (d.mcvFill m)
  else if was = true ∧ now = false then d.levelFall (0x0D0 + m)
  else d

/-- Entries of a converter that its crossing holds (R211). -/
def Dev.mcvCrossing (d : Dev) (m : Nat) : Nat :=
  (d.getMcv m).dma.length + (d.bank.reqs.filter (fun r => decide (r.who = .dma m))).length

/-- An entry goes to the buffer (R211, R212). -/
def Dev.mcvEntry (d : Dev) (m data : Nat) : Dev :=
  let size := max (d.rf MCV_BUF_SIZE m) 1
  let w := d.rf MCV_WIDX_WIDX m
  if d.rf MCV_CFG_OVRMODE m = 0 ∧ (w + 1) % size = d.rf MCV_RIDX_RIDX m then
    (d.inc MCV_DROPS_FULL m 1).wf MCV_STAT_FULL m 1
  else if Crossing.dmaResults.depth ≤ d.mcvCrossing m then (d.inc MCV_DROPS_DMA m 1).wf MCV_STAT_DMAERR m 1
  else
    let x := d.getMcv m
    let d := d.setMcv m { x with dma := x.dma ++ [(d.rf MCV_BUF_BANK m, d.rf MCV_BUFBASE_BASE m + w, data)] }
    let w' := (w + 1) % size
    let d := d.wf MCV_WIDX_WIDX m w'
    let d := if w' = 0 ∧ d.rf MCV_CFG_OVRMODE m = 1 then
        d.wf MCV_STAT_LAPS m ((d.rf MCV_STAT_LAPS m + 1) % 256) else d
    d.mcvWm m

/-- The buffer word of a result (R211); the TB of the sample instant is within 16 ns. -/
def Dev.mcvWord (d : Dev) (c : Conv) (code seq : Nat) (disc : Bool) : Nat :=
  let ago := d.now + 281 - c.ends / 8
  let tb := (d.t + 2 ^ 32 + d.freeNat % 33 - 16 - ago) % 2 ^ 32
  let ovr := decide (code = 0 ∨ code = 65535)
  code + c.input * 2 ^ 16 + b2n (decide (c.kind = .injected)) * 2 ^ 22 + b2n ovr * 2 ^ 23 + b2n disc * 2 ^ 24 +
    b2n c.rst * 2 ^ 25 + seq % 32 * 2 ^ 27 + tb * 2 ^ 32

/-- An abandoned scan, or the one CONT keeps running, restarts after calibration (R210). -/
def Dev.mcvRestart (d : Dev) (m : Nat) : Dev :=
  let x := d.getMcv m
  if x.restart = true ∧ x.inj = none ∧ x.calPend = false ∧ d.on MCV_STAT_CALBUSY m = false then
    (d.setMcv m { x with restart := false, due := none, scan := some (d.mcvMask m), rstNext := true }).wf
      MCV_STAT_SCANBUSY m 1
  else d

/-- A scan conversion has ended at `at_` (1/8 ns): the scan goes on, ends, or was abandoned (R204, R205, R210). -/
def Dev.mcvScanNext (d : Dev) (m at_ : Nat) : Dev :=
  let x := d.getMcv m
  match x.scan with
  | none => d.wf MCV_STAT_SCANBUSY m 0
  | some l =>
    if l.tail ≠ [] then d.setMcv m { x with scan := some l.tail, rstNext := false }
    else
      let d := ((d.setMcv m { x with scan := none, rstNext := false }).wf MCV_STAT_SCANSEQ m
        ((d.rf MCV_STAT_SCANSEQ m + 1) % 256)).wf MCV_STAT_SCANBUSY m 0
      let d := if d.on MCV_CTRL_SCANEVT m then
          d.post .edge (0x0D0 + m) (d.rf MCV_WIDX_WIDX m + d.rf MCV_STAT_SCANSEQ m * 2 ^ 24) else d
      if d.rf MCV_TRIG_SRC m = 4 then d.mcvRegular m at_ false else d

/-- An injected conversion has ended at `at_` (1/8 ns); a queued trigger is accepted at that instant, and its delay runs from there
(R207, R208). -/
def Dev.mcvInjNext (d : Dev) (m slot code at_ : Nat) : Dev :=
  let d := if slot < 2 then d.wreg .MCV_INJRES0 m (BitVec.ofNat 32 (setBits (d.rreg .MCV_INJRES0 m).toNat (16 * slot) 16 code))
    else d.wreg .MCV_INJRES1 m (BitVec.ofNat 32 (setBits (d.rreg .MCV_INJRES1 m).toNat (16 * (slot - 2)) 16 code))
  let x := d.getMcv m
  match x.inj with
  | some (_ :: i :: l) => d.setMcv m { x with inj := some (i :: l) }
  | _ =>
    let d := ((d.setMcv m { x with inj := none }).wf MCV_STAT_INJSEQ m ((d.rf MCV_STAT_INJSEQ m + 1) % 256)).wf
      MCV_STAT_INJBUSY m 0
    (if x.queued then d.mcvInjAccept m at_ false else d).mcvRestart m

/-- A temperature set is written into the TMP block (R434). -/
def Dev.tempSet (d : Dev) : Dev :=
  let temps := (List.range 8).map (fun i => Config.tempOf i (tget d.cal.hkCodes 0 (32 + i)))
  let vana := (tget d.cal.hkCodes 0 45 * 5 + 32) / 64
  let d := (List.range 8).foldl (fun d i =>
    let t := temps.getD i 0
    let d := (d.wfi TMP_TS_T i t).wf TMP_TS_VALID i 1
    let d := if d.rfi TMP_LIMIT_HI 0 < t then d.wf TMP_STAT_OVT 0 1 else d
    if d.rfi TMP_MAX_MAX 0 < t then d.wfi TMP_MAX_MAX 0 t else d) d
  let d := ((d.wf TMP_RAIL2_VANA 0 vana).wf TMP_STAT_TSEQ 0 ((d.rf TMP_STAT_TSEQ 0 + 1) % 256)).wf TMP_STAT_STALE 0 0
  { d with cal := { d.cal with temps := temps, vana := vana, tempsAt := d.now } }

/-- A rail set is written into the TMP block (R198, R434), in mV. -/
def Dev.railSet (d : Dev) : Dev :=
  let mv (i : Nat) : Nat := (tget d.cal.hkCodes 0 i * 5 + 64) / 128
  let mv2 (i : Nat) : Nat := (tget d.cal.hkCodes 0 i * 5 + 32) / 64
  (((((((d.wf TMP_RAIL0_VCORE 0 (mv 40)).wf TMP_RAIL0_VMEM 0 (mv 41)).wf TMP_RAIL3_VSER09 0 (mv 42)).wf TMP_RAIL1_VAUX 0
    (mv2 43)).wf TMP_RAIL1_VANL 0 (mv2 44)).wf TMP_RAIL2_VBAT 0 (mv2 46)).wf TMP_RAIL3_VSER12 0 (10 * d.cal.ser12)).wf
    TMP_STAT_RSEQ 0 ((d.rf TMP_STAT_RSEQ 0 + 1) % 256)

/-- A housekeeping result goes to the firmware (R209); the last of a set lets it write the set (R434). -/
def Dev.mcvHouseNext (d : Dev) (m input code : Nat) : Dev :=
  let x := d.getMcv m
  let d := d.setMcv m { x with hk := x.hk.tail }
  let d := { d with cal := { d.cal with hkCodes := tset d.cal.hkCodes 0 input code } }
  if input = 45 then d.tempSet else if input = 46 then d.railSet else d

/-- The code of an input of `v` / 4 µV (R199), less the offset and with the gain of MCV calibration (R144, R160): floor of V over
39.0625 µV, limited. -/
def Dev.mcvCode (d : Dev) (m : Nat) (v : Int) : Nat :=
  let k := tget d.cal.mcvCoef ⟨0, 0, 0⟩ m
  (clampI 0 65535 (4 * (v - k.ofs) * (262144 + k.gain) / (625 * 262144))).toNat

/-- A conversion ends (R199, R201); `v` is what stood at its input at the sample instant, in 1/4 µV. -/
def Dev.mcvDone (d : Dev) (m : Nat) (v : Int) : Dev :=
  let x := d.getMcv m
  match x.run with
  | none => d
  | some c =>
    if 8 * d.now < c.ends then d
    else
      let disc := c.disc.getD (d.mcvDisc m c.input)
      let code := if disc then 0 else d.mcvCode m v
      let d := d.setMcv m { x with run := none, lastEnd := c.ends }
      let d := match c.kind with
        | .regular => ((d.mcvEntry m (d.mcvWord c code (d.rf MCV_STAT_SCANSEQ m) disc)).freeNext).mcvScanNext m c.ends
        | .injected =>
          ((d.mcvEntry m (d.mcvWord c code (d.rf MCV_STAT_INJSEQ m) disc)).freeNext).mcvInjNext m c.slot code c.ends
        | .house => d.mcvHouseNext m c.input code
      d.mcvNext m c.ends

/-- The powered hold ends (R202). -/
def Dev.mcvIdle (d : Dev) (m : Nat) : Dev :=
  if (d.getMcv m).active = true then d else d.mcvPower m

/-- The converter that serves housekeeping (R209). -/
def Dev.mcvHouseOn (d : Dev) : Nat :=
  let m := 1 - d.rf MCV_SYS_CONV 0
  if d.on MCV_STAT_CALBUSY m then 1 - m else m

/-- Housekeeping conversions become due (R209, R434). -/
def Dev.mcvHouse (d : Dev) (inputs : List Nat) : Dev :=
  if d.domOn 5 = false ∨ d.pwr.booted = false then d
  else
    let m := d.mcvHouseOn
    let x := d.getMcv m
    (d.setMcv m { x with hk := x.hk ++ inputs }).mcvNext m (8 * d.now)

/-- `period` ns have passed since the instant, if there was one. -/
def Dev.passedSince (d : Dev) (last : Option Nat) (period : Nat) : Bool :=
  match last with
  | some n => decide (n + period ≤ d.now)
  | none => true

/-- The housekeeping inputs are due every 100 ms (R209). -/
def Dev.mcvHouseDue (d : Dev) (inputs : List Nat) : Dev :=
  if d.passedSince d.cal.hkAt 100000000 then
    (d.mcvHouse inputs).setCal (fun c => { c with hkAt := if d.domOn 5 && d.pwr.booted then some d.now else c.hkAt })
  else d

/-- Calibration of a converter is asked for (R210): a scan is abandoned at the end of its running conversion. -/
def Dev.mcvCalAsk (d : Dev) (m : Nat) : Dev :=
  let x := d.getMcv m
  let regRun : Bool := match x.run with
    | some c => decide (c.kind = .regular)
    | none => false
  let d := d.setMcv m { x with
    calPend := true, due := none, scan := none, restart := x.restart || d.on MCV_STAT_SCANBUSY m }
  let d := if regRun then d else d.wf MCV_STAT_SCANBUSY m 0
  d.mcvNext m (8 * d.now)

/-- Calibration of a converter ends (R210): a queued injected sequence first, then the regular scan restarts if it was abandoned or
SRC is CONT. -/
def Dev.mcvCalEnd (d : Dev) (m : Nat) : Dev :=
  let x := d.getMcv m
  let d := (d.wf MCV_STAT_CALBUSY m 0).setMcv m { x with
    restart := x.restart || (d.on MCV_CTRL_EN m && decide (d.rf MCV_TRIG_SRC m = 4)) }
  let d := if x.queued then d.mcvInjAccept m (8 * d.now) (d.mcvDown m) else d
  (d.mcvRestart m).mcvNext m (8 * d.now)

/-- The host writes RIDX (R212). -/
def Dev.mcvRidx (d : Dev) (m n : Nat) : Dev := (d.wf MCV_RIDX_RIDX m n).mcvWm m

/-- What a power-down of the converters leaves (R214): nothing runs or waits, the indices read 0, and a watermark record that the
host has not passed is voided (R212). -/
def Dev.mcvOff (d : Dev) (m : Nat) : Dev :=
  let d := d.setMcv m .reset
  let d := [MCV_STAT_SCANBUSY, MCV_STAT_INJBUSY, MCV_STAT_INJPEND, MCV_STAT_PWR, MCV_STAT_CALBUSY,
    MCV_STAT_LAPS].foldl (fun d f => d.wf f m 0) d
  ((d.wf MCV_WIDX_WIDX m 0).wf MCV_RIDX_RIDX m 0).mcvWm m

/-- What a warm start leaves (R214). -/
def Dev.mcvWarm (d : Dev) (m : Nat) : Dev :=
  let d := d.mcvOff m
  let d := [MCV_CTRL_EN, MCV_CTRL_IEN, MCV_STAT_FULL, MCV_STAT_DMAERR, MCV_STAT_SCANSEQ, MCV_STAT_INJSEQ].foldl
    (fun d f => d.wf f m 0) d
  (d.wreg .MCV_TRIGOVR m 0).wreg .MCV_DROPS m 0

end Sys2Proof.Machine
end

