-- ==== Sys2Proof/Machine/Store.lean ====
section
/-! DEFINITION. The calibration store in the boot flash, word by word (R165 to R169): slots, headers, bodies, part records and
commit words. The sizes of the data within a part record are this model's (log 57). -/

namespace Sys2Proof.Machine

/-- An erased word of the boot flash. -/
def erasedWord : Nat := 2 ^ 32 - 1

/-- A word of the boot flash. -/
def Dev.flashWord (d : Dev) (a : Nat) : Nat := tget d.cfg.flash erasedWord a

/-- `n` words of a map from its key `a`; the map lists no key below `a`. -/
def wordsFrom : Nat → Tab Nat → Nat → List Nat
  | 0, _, _ => []
  | n + 1, [], a => erasedWord :: wordsFrom n [] (a + 1)
  | n + 1, (k, v) :: r, a => if k = a then v :: wordsFrom n r (a + 1) else erasedWord :: wordsFrom n ((k, v) :: r) (a + 1)

/-- `n` words of the boot flash from word `a`. -/
def flashSpan (f : Tab Nat) (a n : Nat) : List Nat := wordsFrom n (f.filter (fun e => decide (a ≤ e.1))) a

/-- The words of a list that are not erased, with their places from `a` on. -/
def listedFrom (a : Nat) : List Nat → Tab Nat
  | [] => []
  | w :: r => if w = erasedWord then listedFrom (a + 1) r else (a, w) :: listedFrom (a + 1) r

/-- The `n` words from `a` become those of a list, the rest of them erased. -/
def flashPut (f : Tab Nat) (a n : Nat) (ws : List Nat) : Tab Nat :=
  f.filter (fun e => decide (e.1 < a)) ++ listedFrom a (ws.take n) ++ f.filter (fun e => decide (a + n ≤ e.1))

/-! Slots and headers (R165, R166) -/

/-- First word of the store: `CAL.STOREBASE` is bits [31:16] of a byte address. -/
def Dev.storeBase (d : Dev) : Nat := d.rf CAL_STOREBASE_BASE 0 * 2 ^ 14

/-- Words of a slot of 256 KiB. -/
def slotWords : Nat := 2 ^ 16

/-- First word of slot (p, s). -/
def slotAt (base p s : Nat) : Nat := base + (2 * p + s) * slotWords

/-- Place of the commit word in a slot: byte 0x3_FFFC. -/
def commitAt : Nat := slotWords - 1

/-- First words of the part records of slot A, and of the body of either slot: bytes 0x3_C040 and 0x40. -/
def recordsAt : Nat := 0xF010

def bodyAt : Nat := 16

/-- Magic word of a slot. -/
def storeMagic : Nat := 0x4C414357

/-- The 64-byte header of slot (p, s) of a set with this body. -/
def slotHeader (serial p s seq erases : Nat) (body : List Nat) : List Nat :=
  let h := [storeMagic, 1 + s * 2 ^ 16 + p * 2 ^ 24, seq, erases, serial % 2 ^ 32, serial / 2 ^ 32 % 2 ^ 32, 4 * body.length,
    crcWords body] ++ List.replicate 7 0
  h ++ [crcWords h]

/-- The commit word of a sequence number. -/
def commitWord (seq : Nat) : Nat := Nat.xor seq 0x3C5AC35A

/-- The header of a slot can be read: its magic and its CRC are right. -/
def headerGood (f : Tab Nat) (a : Nat) : Bool :=
  decide (tget f erasedWord a = storeMagic) && decide (crcWords (flashSpan f a 15) = tget f erasedWord (a + 15))

/-- What makes slot (p, s) valid with this sequence number (R168). -/
def slotValid (f : Tab Nat) (serial base p s seq : Nat) : Bool :=
  let a := slotAt base p s
  let w (i : Nat) : Nat := tget f erasedWord (a + i)
  headerGood f a && decide (w 1 = 1 + s * 2 ^ 16 + p * 2 ^ 24) && decide (w 2 = seq) && decide (w 4 + w 5 * 2 ^ 32 = serial) &&
    decide (w 6 % 4 = 0 ∧ w 6 ≤ 4 * (commitAt - bodyAt)) && decide (w commitAt = commitWord seq) &&
    decide (crcWords (flashSpan f (a + bodyAt) (w 6 / 4)) = w 7)

/-- Sequence number of a pair as slot A tells it. -/
def pairSeq (f : Tab Nat) (base p : Nat) : Nat := tget f erasedWord (slotAt base p 0 + 2)

/-- A pair is valid: both of its slots are, with the same sequence number (R168). -/
def pairValid (f : Tab Nat) (serial base p : Nat) : Bool :=
  slotValid f serial base p 0 (pairSeq f base p) && slotValid f serial base p 1 (pairSeq f base p)

/-- The slot of a pair whose header tells its erase count: slot A, or slot B where that of A cannot be read. -/
def pairHeader (f : Tab Nat) (base p : Nat) : Option Nat :=
  if headerGood f (slotAt base p 0) then some (slotAt base p 0)
  else if headerGood f (slotAt base p 1) then some (slotAt base p 1)
  else none

/-- Highest value of a header word found in the store. -/
def highestOf (f : Tab Nat) (base i : Nat) : Nat :=
  (List.range 16).foldl (fun m k =>
    let a := slotAt base (k / 2) (k % 2)
    if headerGood f a then max m (tget f erasedWord (a + i)) else m) 0

/-- A pair's erase count: the highest one found where its header cannot be read (R169). -/
def erasesOf (f : Tab Nat) (base p : Nat) : Nat :=
  match pairHeader f base p with
  | some a => tget f erasedWord (a + 3)
  | none => highestOf f base 3

/-! Part records (R167) -/

/-- An integer as a word, and back. -/
def intWord (z : Int) : Nat := ux 32 z

/-- A record: its ID and length, and its data. -/
def recordOf (id : Nat) (data : List Nat) : List Nat := (id + 4 * data.length * 2 ^ 16) :: data

/-- The TB second that marks the context of an EMPTY part. -/
def emptySecond : Nat := erasedWord

/-- The 32-byte context of a part: `CAL.PCTX0` to `CAL.PCTX6` and the TB second at which it was taken. -/
def ctxWords (p : Part) : List Nat :=
  let c := p.ctx
  (List.range 4).map (fun j => ux 16 (c.temps.getD (2 * j) 0) + ux 16 (c.temps.getD (2 * j + 1) 0) * 2 ^ 16) ++
    [c.vana % 2 ^ 16 + c.act % 2 ^ 8 * 2 ^ 16 + c.ch % 2 ^ 7 * 2 ^ 24, c.freqs.getD 0 0 % 2 ^ 32, c.rates.getD 0 0 % 2 ^ 32,
      if p.state = 0 then emptySecond else p.taken % 2 ^ 32]

/-- The part that a context and the words behind it tell: `more` are clock and rate of further heads, `setup` the setup. -/
def partOfWords (l : List Nat) (heads : Nat) (more setup : List Nat) : Part :=
  let w (i : Nat) : Nat := l.getD i 0
  if w 7 = emptySecond then .reset
  else
    let all := [w 5, w 6] ++ more
    { state := 1, dist := 0, taken := w 7
      ctx := {
        temps := (List.range 4).flatMap (fun j => [sx 16 (w j), sx 16 (w j / 2 ^ 16)])
        vana := w 4 % 2 ^ 16, act := w 4 / 2 ^ 16 % 2 ^ 8, ch := w 4 / 2 ^ 24 % 2 ^ 7
        freqs := (List.range heads).map (fun i => all.getD (2 * i) 0)
        rates := (List.range heads).map (fun i => all.getD (2 * i + 1) 0), setup := setup } }

def StorePair.part (x : StorePair) (n : Nat) : Part := tget x.parts .reset n

/-- Words of a register of the set. -/
def StorePair.reg (x : StorePair) (k : RegKind) (i : Nat) : Nat := (rregOf x.regs k i).toNat

/-- SLICE record of group g: g, 13 x (OFS, GAIN, APT), FAILED mask, quality; clock and rate of its other heads. -/
def sliceRecord (x : StorePair) (g : Nat) : List Nat :=
  let p := x.part (1 + g)
  let failed := (List.range 13).foldl (fun m s => setBit m s (decide (fieldOf x.regs CNV_SSTAT_FAILED (sliceIdx g s) = 1))) 0
  if p.state = 0 ∧ failed = 0 then []
  else recordOf 2 (ctxWords p ++ [g] ++
    (List.range 13).flatMap (fun s =>
      [x.reg .CNV_SOFS (sliceIdx g s), x.reg .CNV_SGAIN (sliceIdx g s), x.reg .CNV_SAPT (sliceIdx g s)]) ++ [failed] ++
    (List.range 13).map (fun s => x.reg .CNV_SQUAL (sliceIdx g s)) ++
    [p.ctx.freqs.getD 1 0, p.ctx.rates.getD 1 0, p.ctx.freqs.getD 2 0, p.ctx.rates.getD 2 0].map (fun v => v % 2 ^ 32))

/-- AFE record of head h: h, 4 x (LEGCAL, trim LSB, PGA factor). -/
def afeRecord (x : StorePair) (h : Nat) : List Nat :=
  if (x.part (16 + h)).state = 0 then []
  else recordOf 3 (ctxWords (x.part (16 + h)) ++ [h] ++
    (chansOf h).flatMap (fun c => [x.reg .AFE_LEGCAL c, tget x.trimLsb 0 c, tget x.pgaF 0 c]))

/-- DARK or FLAT record of head h: h, setup, TRES or FRES of 4 channels. -/
def learnRecord (x : StorePair) (dark : Bool) (h : Nat) : List Nat :=
  let p := x.part ((if dark then 48 else 80) + h)
  if p.state = 0 then []
  else recordOf (if dark then 4 else 5) (ctxWords p ++ [h] ++ p.ctx.setup ++
    (chansOf h).map (fun c => fieldOf x.regs (if dark then CAL_CHQ_TRES else CAL_CHQ_FRES) c))

/-- The part records of a set, ended by a record with ID 0. -/
def partRecords (x : StorePair) : List Nat :=
  (if (x.part 0).state = 0 then [] else recordOf 1 (ctxWords (x.part 0) ++ x.ladder)) ++
    (List.range 8).flatMap (sliceRecord x) ++ (List.range 24).flatMap (afeRecord x) ++
    (List.range 24).flatMap (learnRecord x true) ++ (List.range 24).flatMap (learnRecord x false) ++
    (if (x.part 9).state = 0 then [] else
      recordOf 6 (ctxWords (x.part 9) ++ (List.range 48).map (fun n => intWord (tget x.cmpOfs 0 n)))) ++
    (if (x.part 10).state = 0 then [] else
      recordOf 7 (ctxWords (x.part 10) ++ (List.range 2).flatMap (fun m =>
        [intWord (tget x.mcvCoef ⟨0, 0, 0⟩ m).ofs, intWord (tget x.mcvCoef ⟨0, 0, 0⟩ m).gain]))) ++
    (if (x.part 11).state = 0 then [] else
      recordOf 8 (ctxWords (x.part 11) ++ (List.range 32).map (fun n => intWord (tget x.cacOfs 0 n)))) ++
    recordOf 9 ((List.range 8).flatMap (fun b => [x.reg .MEM_ROWMAP0 b, x.reg .MEM_ROWMAP1 b])) ++ [0]

/-- The body of slot s (R167). -/
def slotBody (x : StorePair) (s : Nat) : List Nat :=
  if s = 0 then (List.range 61440).map (fun i => tget x.pctT neutralPct i) ++ partRecords x
  else (List.range 36864).map (fun i => tget x.pctT neutralPct (61440 + i)) ++
    (List.range 24576).map (fun i => (List.range 4).foldl (fun w j => w + tget x.pttT 0 (4 * i + j) * 2 ^ (8 * j)) 0)

/-! Writing a set (R168) -/

/-- Both slots of a pair are erased. -/
def erasePair (f : Tab Nat) (base p : Nat) : Tab Nat := flashPut f (slotAt base p 0) (2 * slotWords) []

/-- A set is written to its erased pair: both bodies, both headers, the commit word of slot A, that of slot B. -/
def writePair (f : Tab Nat) (serial base p : Nat) (x : StorePair) : Tab Nat :=
  let put (f : Tab Nat) (s i : Nat) (l : List Nat) : Tab Nat := flashPut f (slotAt base p s + i) l.length l
  let a := slotBody x 0
  let b := slotBody x 1
  let f := put (put f 0 bodyAt a) 1 bodyAt b
  let f := put (put f 0 0 (slotHeader serial p 0 x.seq x.erases a)) 1 0 (slotHeader serial p 1 x.seq x.erases b)
  put (put f 0 commitAt [commitWord x.seq]) 1 commitAt [commitWord x.seq]

/-! Reading a set (R171) -/

/-- The records of a list of words, to the one with ID 0; `fuel` bounds the list. -/
def recordsOf : Nat → List Nat → List (Nat × List Nat)
  | 0, _ => []
  | _ + 1, [] => []
  | fuel + 1, w :: r =>
    if w % 2 ^ 16 = 0 then []
    else
      let n := (w / 2 ^ 16 + 3) / 4
      (w % 2 ^ 16, r.take n) :: recordsOf fuel (r.drop n)

/-- Set a register of a set. -/
def StorePair.putReg (x : StorePair) (k : RegKind) (i v : Nat) : StorePair :=
  { x with regs := tset x.regs (regReset k i) (regKey k i) (BitVec.ofNat 32 v) }

def StorePair.putPart (x : StorePair) (n : Nat) (p : Part) : StorePair := { x with parts := tset x.parts .reset n p }

/-- Put a field of a register of a set. -/
def StorePair.putField (x : StorePair) (f : Fld) (i v : Nat) : StorePair :=
  x.putReg f.kind i (setBits (x.reg f.kind i) f.lsb f.width v)

/-- What one record says; records of other IDs are ignored. -/
def StorePair.takeRecord (x : StorePair) (id : Nat) (l : List Nat) : StorePair :=
  let w (i : Nat) : Nat := l.getD i 0
  let n := w 8
  match id with
  | 1 => { x.putPart 0 (partOfWords l 0 [] []) with ladder := (l.drop 8).take 16 }
  | 2 =>
    let x := x.putPart (1 + n) (partOfWords l 3 ((l.drop 62).take 4) [])
    (List.range 13).foldl (fun x s =>
      (((x.putReg .CNV_SOFS (sliceIdx n s) (w (9 + 3 * s))).putReg .CNV_SGAIN (sliceIdx n s) (w (10 + 3 * s))).putReg
        .CNV_SAPT (sliceIdx n s) (w (11 + 3 * s))).putField CNV_SSTAT_FAILED (sliceIdx n s) (b2n (tbit (w 48) s)) |>.putReg
        .CNV_SQUAL (sliceIdx n s) (w (49 + s))) x
  | 3 =>
    let x := x.putPart (16 + n) (partOfWords l 1 [] [])
    (chansOf n).foldl (fun x c =>
      let i := 9 + 3 * (c % 4)
      { x.putReg .AFE_LEGCAL c (w i) with
        trimLsb := tset x.trimLsb 0 c (w (i + 1)), pgaF := tset x.pgaF 0 c (w (i + 2)) }) x
  | 4 =>
    let k := l.length - 13
    (chansOf n).foldl (fun x c => x.putField CAL_CHQ_TRES c (w (9 + k + c % 4)))
      (x.putPart (48 + n) (partOfWords l 1 [] ((l.drop 9).take k)))
  | 5 =>
    let k := l.length - 13
    (chansOf n).foldl (fun x c => x.putField CAL_CHQ_FRES c (w (9 + k + c % 4)))
      (x.putPart (80 + n) (partOfWords l 1 [] ((l.drop 9).take k)))
  | 6 =>
    { x.putPart 9 (partOfWords l 0 [] []) with
      cmpOfs := (List.range 48).foldl (fun t i => tset t 0 i (sx 32 (w (8 + i)))) [] }
  | 7 =>
    { x.putPart 10 (partOfWords l 0 [] []) with
      mcvCoef := (List.range 2).foldl (fun t m => tset t ⟨0, 0, 0⟩ m ⟨sx 32 (w (8 + 2 * m)), sx 32 (w (9 + 2 * m)), 0⟩) [] }
  | 8 =>
    { x.putPart 11 (partOfWords l 0 [] []) with
      cacOfs := (List.range 32).foldl (fun t i => tset t 0 i (sx 32 (w (8 + i)))) [] }
  | 9 => (List.range 8).foldl (fun x b => (x.putReg .MEM_ROWMAP0 b (w (2 * b))).putReg .MEM_ROWMAP1 b (w (2 * b + 1))) x
  | _ => x

/-- The words of a list that differ from `dflt`, by place from `a` on. -/
def tabFrom (dflt a : Nat) : List Nat → Tab Nat
  | [] => []
  | w :: r => if w = dflt then tabFrom dflt (a + 1) r else (a, w) :: tabFrom dflt (a + 1) r

/-- The set that a valid pair holds. -/
def readPair (f : Tab Nat) (base p : Nat) : StorePair :=
  let a := slotAt base p 0
  let b := slotAt base p 1
  let body (s : Nat) : List Nat := flashSpan f (s + bodyAt) (min (tget f erasedWord (s + 6) / 4) (commitAt - bodyAt))
  let la := body a
  let lb := body b
  let ptt := (lb.drop 36864).flatMap (leBytes 4)
  let x : StorePair := { StorePair.reset with
    seq := tget f erasedWord (a + 2), erases := tget f erasedWord (a + 3)
    pctT := tabFrom neutralPct 0 (la.take 61440 ++ lb.take 36864), pttT := tabFrom 0 0 ptt }
  (recordsOf la.length (la.drop 61440)).foldl (fun x r => x.takeRecord r.1 r.2) x

end Sys2Proof.Machine
end

