-- ==== Sys2Proof/Machine/Cal.lean ====
section
/-! DEFINITION. The calibration scheduler and store (R142 to R147, R156 to R160, R163 to R172). How long a measurement
takes is not modelled: its end is an event, and it waits for what the manual makes it wait for. -/

namespace Sys2Proof.Machine

/-! What may start -/

/-- Temperature-triggered items may start (R156, R157). -/
def Dev.calTempOn (d : Dev) : Bool :=
  d.on CAL_CTRL_TRIG 0 && !(d.on CAL_CTRL_SUSPEND 0) && (decide (d.pwr.st = .run) || decide (d.pwr.st = .hold))

/-- NAP or SLEEP has been requested (R159). -/
def Dev.goingDown (d : Dev) : Bool :=
  match d.pwr.trans with
  | some (tgt, _) => decide (3 ≤ tgt)
  | none => false

/-- Items may start at all: in RUN and HOLD, and during a start, but not on the way to NAP or SLEEP (R157, R159, R352). -/
def Dev.calOn (d : Dev) : Bool :=
  (decide (d.pwr.st = .run) || decide (d.pwr.st = .hold) || decide (d.pwr.st = .starting)) && !d.goingDown

/-- An item is asked for: named by a command, or due by temperature (R157, R158). -/
def Dev.calWanted (d : Dev) (kind item : Nat) : Bool :=
  !(d.itemRuns kind item) && ((d.cmdOf kind item).isSome ||
    (d.calTempOn && d.isDue kind item && decide (tget d.cal.retryAt 0 (itemKey kind item) ≤ d.now)))

/-- A group's mitten is in COVER. -/
def Dev.inCover (d : Dev) (g : Nat) : Bool := decide (d.mitState g = 2)

/-- An item of a kind runs. -/
def Dev.kindRuns (d : Dev) (kind : Nat) : Bool := d.cal.items.any (fun x => decide (x.kind = kind))

/-- REF may start (R157): nothing runs that takes the ladder values. -/
def Dev.refFree (d : Dev) : Bool :=
  !((List.range 8).any (fun g => d.inCover g)) && !(d.kindRuns 5) && !(d.kindRuns 6) && !(d.kindRuns 7) &&
    !(d.cal.items.any (fun x => decide (x.kind = 1 ∧ x.phase = 1)))

/-- A SLICE item of the group runs. -/
def Dev.sliceRuns (d : Dev) (g : Nat) : Bool := d.cal.items.any (fun x => decide (x.kind = 1 ∧ x.item / 13 = g))

/-- Start the item with a phase: 1 directly on the ladder. -/
def Dev.addItemAt (d : Dev) (kind item phase : Nat) : Dev :=
  let c := d.cmdOf kind item
  d.setCal (fun k => { k with items := k.items ++ [⟨kind, item, c.isSome, phase, 0, none⟩] })

/-- The item is one of start-up calibration: its command has no handle (R352). -/
def Dev.startupItem (d : Dev) (kind item : Nat) : Bool :=
  match d.cmdOf kind item with
  | some c => decide (c.handle = 0)
  | none => false

/-- Head whose lines a slice's item waits for. -/
def Dev.sliceHead (d : Dev) (g s : Nat) : Nat := headOf (channelOfSlice d.regs g (if s = 12 then d.mitSlice g else s))

/-- A SLICE item starts, waits, is skipped or is turned away (R145, R125). -/
def Dev.sliceStart (d : Dev) (i : Nat) : Dev :=
  let g := i / 13
  let s := i % 13
  if d.sliceRuns g = true ∨ d.groupOn g = false then d
  else if d.on CNV_SSTAT_FAILED i then d.itemSkipped 1 i
  else if d.mitState g = 4 then
    if d.headIdle (d.sliceHead g s) (d.rf CNV_MITCFG1_IDLE 0) then d.addItemAt 1 i 1 else d.itemEnds 1 i stBAD_STATE 0 0
  else if d.mitState g ≠ 0 then d
  else if s = 12 ∨ d.startupItem 1 i = true then d.addItemAt 1 i 1
  else (d.rotationStart g s).addItemAt 1 i 0

/-- An AFE item starts: a due one after the group's due slices and after a learn of the head (R157, R159). -/
def Dev.afeStart (d : Dev) (h : Nat) : Dev :=
  let g := groupOf h
  let slices := (List.range 13).any (fun s => d.calWanted 1 (13 * g + s))
  if d.groupOn g = false then d
  else if (d.cmdOf 2 h).isSome then d.addItemAt 2 h 0
  else if slices = true ∨ d.sliceRuns g = true ∨ (d.learnOf h).isSome = true then d
  else d.addItemAt 2 h 0

/-- A CMP, MCV or CAC item starts, one of a kind at a time; a cell in use is skipped, and a temperature run reports it once
(R147, R157). -/
def Dev.unitStart (d : Dev) (kind item : Nat) : Dev :=
  if kind = 7 ∧ d.cacInUse item = true then
    if (d.cmdOf 7 item).isSome = true ∨ tbit d.cal.skipSeen item = false then d.itemSkipped 7 item else d
  else if d.kindRuns kind then d
  else if kind = 6 then (d.addItemAt 6 item 0).mcvCalAsk item
  else (if kind = 5 then d.winHold (item / 2) else d).addItemAt kind item 0

/-- The scheduler starts what may start, in the order of R157. -/
def Dev.calStarts (d : Dev) : Dev :=
  if d.calOn = false ∨ d.itemRuns 0 0 = true then d
  else if d.calWanted 0 0 then
    if d.refFree then d.addItemAt 0 0 0 else d
  else
    let go (kind n : Nat) (f : Dev → Nat → Dev) (d : Dev) : Dev :=
      (List.range n).foldl (fun d i => if d.calWanted kind i then f d i else d) d
    let d := go 1 104 Dev.sliceStart d
    let d := go 2 24 Dev.afeStart d
    let d := go 5 48 (fun d i => d.unitStart 5 i) d
    let d := go 6 2 (fun d i => d.unitStart 6 i) d
    go 7 32 (fun d i => d.unitStart 7 i) d

/-! The store (R168 to R172) -/

/-- A pair is retired: its erase count has reached the limit (R169). -/
def Dev.pairRetired (d : Dev) (p : Nat) : Bool :=
  let n := match d.cal.store with
    | some r => if r.pair = p then r.snap.erases else erasesOf d.cfg.flash d.storeBase p
    | none => erasesOf d.cfg.flash d.storeBase p
  decide (1000 * d.rf CAL_STORECFG_WEARMAX 0 ≤ n)

/-- The pair a store chooses (R169), `but` excepted. -/
def Dev.choosePair (d : Dev) (but : Option Nat) : Option Nat :=
  let ok := (List.range 8).filter (fun p =>
    !(d.pairRetired p) && decide (d.rf CAL_STORESTAT_PAIR 0 ≠ p) && decide (but ≠ some p))
  ok.foldl (fun b p => match b with
    | none => some p
    | some q => if erasesOf d.cfg.flash d.storeBase p < erasesOf d.cfg.flash d.storeBase q then some p else some q) none

/-- `CAL.STORESTAT.NEXT` and RETIRED follow the choice (R169). -/
def Dev.storeNext (d : Dev) : Dev :=
  let retired := (List.range 8).foldl (fun n p => setBit n p (d.pairRetired p)) 0
  (d.wf CAL_STORESTAT_NEXT 0 ((d.choosePair none).getD 15)).wf CAL_STORESTAT_RETIRED 0 retired

/-- Registers a set holds beside the parts (R165, R167): slices, legs, quality figures. -/
def storedRegs : List (RegKind × Nat) :=
  [(.CNV_SOFS, 104), (.CNV_SGAIN, 104), (.CNV_SAPT, 104), (.CNV_SQUAL, 104), (.CNV_SSTAT, 104), (.AFE_LEGCAL, 96),
    (.CAL_CHQ, 96), (.MEM_ROWMAP0, 8), (.MEM_ROWMAP1, 8)]

/-- The listed registers of a map. -/
def pickRegs (t : Tab Word) (l : List (RegKind × Nat)) : Tab Word :=
  t.filter (fun e => l.any (fun x => decide (e.1 / 65536 = x.1.ctorIdx)))

/-- Leg corrections at their new values. -/
def Dev.legsDone (d : Dev) : Dev :=
  d.cal.legNew.foldl (fun d e => (d.wfi AFE_LEGCAL_OFS e.1 e.2.1).wfi AFE_LEGCAL_GAIN e.1 e.2.2) d

/-- The set in force, as a store snapshots it (R168). -/
def Dev.storeSnap (d : Dev) (seq erases : Nat) : StorePair :=
  { seq := seq, erases := erases
    pctT := d.pcu.tables.pctT, pttT := d.pcu.tables.pttT, parts := d.cal.parts, regs := pickRegs d.legsDone.regs storedRegs
    ladder := d.cal.ladder, cmpOfs := d.cal.cmpOfs, cacOfs := d.cal.cacOfs, mcvCoef := d.cal.mcvCoef
    trimLsb := d.cal.trimLsb, pgaF := d.cal.pgaF }

/-- Writing begins on pair `p` (R168, R169): both slots are erased. -/
def Dev.storeBegin (d : Dev) (p : Nat) (handles : List Nat) (retry : Bool) : Dev :=
  let base := d.storeBase
  let n := (erasesOf d.cfg.flash base p + 1) % 2 ^ 32
  let snap := d.storeSnap ((highestOf d.cfg.flash base 2 + 1) % 2 ^ 32) n
  let d := { d with cfg := { d.cfg with flash := erasePair d.cfg.flash base p } }
  let d := (d.setCal (fun c => { c with store := some ⟨base, p, snap, handles, retry⟩ })).wbit CAL_STORESTAT_VALID 0 p false
  let d := if d.pairRetired p then d.post .edge 0x0E3 p else d
  d.storeNext

/-- Detail of a store that could not be written: no pair, and the statistic STORE_FAIL (R155, R172, log 57). -/
def storeFailDetail : Nat := 15 + 12 * 256

/-- A store cannot be written (R172): it completes BAD_STATE with STORE_FAIL. -/
def Dev.storeFails (d : Dev) (handles : List Nat) : Dev :=
  let d := (d.setCal (fun c => { c with store := none, lastStore := d.now })).wf CAL_STAT_STOREFAIL 0 1
  d.each handles (fun d h => d.finish h stBAD_STATE storeFailDetail)

/-- A store starts (R168, R170): for the handles that asked. -/
def Dev.storeStart (d : Dev) (handles : List Nat) : Dev :=
  let d := d.setCal (fun c => { c with heldStore := false, heldHandles := [], changed := false })
  match d.choosePair none with
  | none => d.storeFails handles
  | some p => d.storeBegin p handles false

/-- Held requests start one further store (R170). -/
def Dev.storePump (d : Dev) : Dev :=
  if d.cal.store.isNone = true ∧ (d.cal.heldStore = true ∨ d.cal.heldHandles ≠ []) ∧ d.pwr.booted = true then
    d.storeStart d.cal.heldHandles
  else d

/-- A request for a store (R170). -/
def Dev.storeAsk (d : Dev) (h : Option Nat) : Dev :=
  (d.setCal (fun c => match h with
    | none => { c with heldStore := true }
    | some n => { c with heldHandles := c.heldHandles ++ [n] })).storePump

/-- A store has been written and read back (R168), or has failed (R172). -/
def Dev.storeDone (d : Dev) (ok : Bool) : Dev :=
  match d.cal.store with
  | none => d
  | some r =>
    if ok then
      let d := { d with cfg := { d.cfg with flash := writePair d.cfg.flash d.fuses.serial r.base r.pair r.snap } }
      let d := d.setCal (fun c => { c with store := none, hint := some r.pair, base := r.base, lastStore := d.now })
      let d := ((d.wf CAL_STORESTAT_PAIR 0 r.pair).wbit CAL_STORESTAT_VALID 0 r.pair true).wf CAL_STORESEQ_SEQ 0 r.snap.seq
      d.storeNext.each r.handles (fun d h => d.finish h stOK r.pair)
    else
      let d := d.post .fault 0x0E3 r.pair
      if r.retry then (d.storeFails r.handles).storeNext
      else match d.choosePair (some r.pair) with
        | none => d.storeFails r.handles
        | some p => d.storeBegin p r.handles true

/-- A store is abandoned (R172, R375): the pair in force stays valid. -/
def Dev.storeDrop (d : Dev) : Dev :=
  d.setCal (fun c => { c with store := none, heldStore := false, heldHandles := [] })

/-- MININT passes (R170). -/
def Dev.storeInterval (d : Dev) : Dev :=
  if d.on CAL_STORECFG_AUTO 0 = true ∧ d.cal.changed = true ∧ d.cal.store.isNone = true ∧ d.pwr.booted = true ∧
      d.cal.lastStore + 60000000000 * d.rf CAL_STORECFG_MININT 0 ≤ d.now then
    d.storeStart d.cal.heldHandles
  else d

/-- The scan of the store at a start (R171): the set in force, and its registers. `p` is none when no pair is valid. -/
def Dev.storeScan (d : Dev) : Option Nat × Dev :=
  let f := d.cfg.flash
  let ok := (List.range 8).filter (fun p => pairValid f d.fuses.serial d.storeBase p)
  let best := ok.foldl (fun b p => match b with
    | none => some p
    | some q => if pairSeq f d.storeBase q < pairSeq f d.storeBase p then some p else some q) none
  let mask := ok.foldl (fun n p => setBit n p true) 0
  let d := (d.setCal (fun c => { c with base := d.storeBase })).wf CAL_STORESTAT_VALID 0 mask
  match best with
  | none => (none, (((d.wf CAL_STORESTAT_PAIR 0 15).wf CAL_STORESEQ_SEQ 0 0).wf CAL_STAT_NOSTORE 0 1).storeNext)
  | some p =>
    let d := ((d.wf CAL_STORESTAT_PAIR 0 p).wf CAL_STORESEQ_SEQ 0 (pairSeq f d.storeBase p)).wf
      CAL_STAT_NOSTORE 0 0
    (some p, (d.setCal (fun c => { c with hint := some p })).storeNext)

/-! The scheduler as a whole -/

/-- What the firmware does next: held stores, then items. -/
def Dev.calPump (d : Dev) : Dev := d.storePump.calStarts

/-- A sensor has moved by more than DT since the item last completed with OK (R157). -/
def Dev.calMoved (d : Dev) (kind item : Nat) : Bool :=
  (d.cal.temps.zip (tget d.cal.lastTemps [] (itemKey kind item))).any (fun x =>
    decide (d.rf CAL_TRIG_DT_DT 0 < (x.1 - x.2).natAbs))

/-- The items of the kinds that temperature triggers. -/
def tempItems : List (Nat × Nat) :=
  [(0, 0)] ++ (List.range 104).map (fun i => (1, i)) ++ (List.range 24).map (fun i => (2, i)) ++
    (List.range 48).map (fun i => (5, i)) ++ (List.range 2).map (fun i => (6, i)) ++ (List.range 32).map (fun i => (7, i))

/-- The items that become due every 100 ms (R157). -/
def Dev.calPoll (d : Dev) : Dev :=
  if d.pwr.booted = false ∨ d.domOn 3 = false then d
  else
    let d := if d.on CAL_CTRL_TRIG 0 then
        tempItems.foldl (fun d x =>
          if d.calMoved x.1 x.2 = true ∨ d.partStale (partOf x.1 x.2) = true then d.setDue x.1 x.2 true else d) d
      else d
    d.calPump

/-- Every item of the kinds REF reaches becomes due (R143). -/
def Dev.allDue (d : Dev) : Dev :=
  tempItems.foldl (fun d x => if x.1 = 0 then d else d.setDue x.1 x.2 true) d

/-- Departure of V_BG from its nominal value at the temperature of die sensor 0, in parts per 10^9: the fused model (R142). -/
def Dev.bandgap (d : Dev) : Int :=
  let t := d.cal.temps.getD 0 0
  d.fuses.bandgap.c0 + d.fuses.bandgap.c1 * t + d.fuses.bandgap.c2 * t * t

/-- A ratio to V_BG as it stands, as a ratio to its temperature-corrected value (R142). -/
def Dev.corrected (d : Dev) (raw : Nat) : Nat := (roundDiv ((raw : Int) * (1000000000 + d.bandgap)) 1000000000).toNat

/-- REF ends (R142, R143): I_REF is checked against ±2 % of 100 µA; the corrected ladder, its largest move in ppm of full scale,
and what follows from it. -/
def Dev.refEnds (d : Dev) (iref : Nat) (raw : List Nat) : Dev :=
  let old := d.cal.ladder
  let i := d.corrected iref
  if 98000 ≤ i ∧ i ≤ 102000 then
    let levels := raw.map d.corrected
    let move := (levels.zip old).foldl (fun m x => max m ((x.1 : Int) - (x.2 : Int)).natAbs) 0
    let d := d.setCal (fun c => { c with ladder := levels })
    let d := (d.takePart 0).itemEnds 0 0 stOK 0 move
    if move ≤ 50 then d
    else if d.on CAL_CTRL_TRIG 0 then d.allDue
    else (d.wf CAL_STAT_REFMOVED 0 1).post .edge 0x0E1 move
  else
    let d := if old.isEmpty then
        (d.setCal (fun c => { c with ladder := d.fuses.ladder })).setPart 0 { d.getPart 0 with state := 2 }
      else d
    (d.post .fault 0x0E1 0).itemEnds 0 0 stBAD_STATE 11 0

/-- AFE ends (R144, R160): the new leg corrections slew in; the trim DAC LSB and the PGA gain factor of each channel are kept. -/
def Dev.afeEnds (d : Dev) (h : Nat) (legs : List (Int × Int)) (trim pga : List Nat) : Dev :=
  let d := (chansOf h).foldl (fun d c =>
    let i := c % 4
    d.setCal (fun k => { k with
      legNew := tinsert (terase k.legNew c) c (legs.getD i (0, 0))
      trimLsb := tset k.trimLsb 0 c (trim.getD i 0), pgaF := tset k.pgaF 0 c (pga.getD i 0) })) d
  (d.takePart (16 + h)).itemEnds 2 h stOK 0 0

/-- A SLICE item directly on the ladder ends (R145, R125). -/
def Dev.sliceDirect (d : Dev) (i : Nat) (ok : Bool) (c : Coef) (resid spur : Nat) : Dev :=
  if ok then
    let d := ((d.setCoef i c).wf CNV_SQUAL_RESID i resid).wf CNV_SQUAL_SPUR i spur
    (d.takePart (1 + i / 13)).itemEnds 1 i stOK 0 0
  else (d.sliceFails (i / 13) (i % 13)).itemEnds 1 i stBAD_STATE 10 0

/-- The running item. -/
def Dev.itemAt (d : Dev) (kind item : Nat) : Option CalItem :=
  d.cal.items.find? (fun x => decide (x.kind = kind ∧ x.item = item))

/-- A measurement of a running item ends, and its values come into use (R144, R158, R160). -/
def Dev.itemMeasured (d : Dev) (kind item : Nat) (m : CalMeas) : Dev :=
  match d.itemAt kind item with
  | none => d
  | some x =>
    match kind, m with
    | 0, .ladder i l => d.refEnds i l
    | 1, .slice ok ofs gain apt resid spur =>
      if x.phase = 1 then d.sliceDirect item ok ⟨ofs, gain, apt⟩ resid spur else d
    | 2, .afe legs trim pga => if 64 ≤ x.steps then d.afeEnds item legs trim pga else d
    | 5, .offset z =>
      ((d.setCal (fun c => { c with cmpOfs := tset c.cmpOfs 0 item z })).takePart 9).itemEnds 5 item stOK 0 0
    | 6, .coef o g =>
      if d.on MCV_STAT_CALBUSY item then
        (((d.setCal (fun c => { c with mcvCoef := tset c.mcvCoef ⟨0, 0, 0⟩ item ⟨o, g, 0⟩ })).takePart 10).itemEnds 6 item
          stOK 0 0).mcvCalEnd item
      else d
    | 7, .offset z =>
      (((d.setCal (fun c => { c with cacOfs := tset c.cacOfs 0 item z })).wfi CAC_STAT_OFS item z).takePart 11).itemEnds 7
        item stOK 0 0
    | _, _ => d

/-- The line triggers of a head are stopped (R146): it is not armed, or the device is not in RUN, and no issued line waits. -/
def Dev.trigStopped (d : Dev) (h : Nat) : Bool :=
  (d.getLtg h).issued.isEmpty && (!(d.on LTG_CTRL_ARM h) || decide (d.pwr.st ≠ .run))

/-- The ladder of a group is free for AFE steps (R146): no COVER, no slice taken directly, no REF. -/
def Dev.ladderFree (d : Dev) (g : Nat) : Bool :=
  !(d.inCover g) && !(d.itemRuns 0 0) && !(d.cal.items.any (fun x => decide (x.kind = 1 ∧ x.item / 13 = g ∧ x.phase = 1)))

/-- A step ends inside the usable gap (R146): 1,500 ns of the gap have passed, and the next line, if one is issued, is 200 ns
away at least. -/
def Dev.inGap (d : Dev) (h : Nat) : Bool :=
  decide ((d.getHcp h).gapFrom + 1500 ≤ d.t) &&
    (match (d.getLtg h).issued with
      | [] => true
      | l :: _ => decide (d.t + 200 ≤ l.s))

/-- One AFE step ends: one in each usable gap of a line, or back to back while the triggers are stopped (R146). -/
def Dev.afeStep (d : Dev) (h : Nat) : Dev :=
  match d.itemAt 2 h with
  | none => d
  | some x =>
    let line := (d.getHcp h).gapFrom
    if x.steps < 64 ∧ d.ladderFree (groupOf h) = true ∧
        ((d.trigStopped h = true ∧ line ≤ d.t) ∨ (d.inGap h = true ∧ x.gap ≠ some line)) then
      d.setCal (fun c => { c with
        items := c.items.map (fun y => if y.kind = 2 ∧ y.item = h then { y with steps := y.steps + 1, gap := some line } else y) })
    else d

/-- The activity figures of the last second (R245): per region, and of the fabric. -/
def Dev.activity (d : Dev) : Dev :=
  let d' := (List.range 16).foldl (fun d n =>
    d.wf FAB_ACT_ACT n (min 255 (roundDiv ((255 * tget d.fab.actNow 0 n : Nat) : Int) 128000000000).toNat)) d
  let sum := (List.range 16).foldl (fun m n => m + tget d.fab.actNow 0 n) 0
  { d' with
    cal := { d'.cal with act := min 255 (roundDiv ((255 * sum : Nat) : Int) 2048000000000).toNat }
    fab := { d'.fab with actNow := [] } }

/-- The distance of each part is computed (R163): every second, and at once on a return to RUN (R28). -/
def Dev.contextCheck (d : Dev) : Dev :=
  if d.pwr.booted = false ∨ d.domOn 3 = false then d else partList.foldl (fun d n => d.checkPart n) d

/-- A second has passed: the activity figures of that second (R162, R245), then the distances (R163). -/
def Dev.secondPasses (d : Dev) : Dev :=
  if d.pwr.booted = false ∨ d.domOn 3 = false then d else d.activity.contextCheck

/-- An item that runs is stopped and nothing of it is written (R159); a rotation is handed back (R124). -/
def Dev.itemStops (d : Dev) (x : CalItem) : Dev :=
  match x.kind with
  | 1 => if x.phase = 1 then d.itemEnds 1 x.item stABORTED 0 0 else d.rotationGiveUp (x.item / 13)
  | 6 =>
    let d := d.itemEnds 6 x.item stABORTED 0 0
    if d.on MCV_STAT_CALBUSY x.item then d.mcvCalEnd x.item
    else (d.setMcv x.item { d.getMcv x.item with calPend := false }).mcvRestart x.item |>.mcvNext x.item (8 * d.now)
  | k => d.itemEnds k x.item stABORTED 0 0

/-- NAP or SLEEP requested (R124, R159): running items are abandoned and complete ABORTED, and so do the items of commands that
have not begun. -/
def Dev.calAbandon (d : Dev) : Dev :=
  let d := d.cal.learns.foldl (fun d l => d.learnEnds l stABORTED 0 0) d
  let d := d.cal.items.foldl (fun d x => d.itemStops x) d
  d.cal.cmds.foldl (fun d c => (c.left.filter (fun i => !(d.itemRuns c.kind i))).foldl (fun d i =>
    match d.cmdOf c.kind i with
    | some c => d.cmdEnds c i stABORTED 0 0 0
    | none => d) d) d

/-- A calibration command is stopped by ABORT (R375): what has not started is dropped. -/
def Dev.calAbort (d : Dev) (h : Nat) : Dev :=
  match d.cal.cmds.find? (fun c => decide (c.handle = h)) with
  | none => d
  | some c =>
    let live := c.left.filter (fun i => d.itemRuns c.kind i || (decide (c.kind = 3 ∨ c.kind = 4) && (d.learnOf i).isSome))
    let c' : CalCmd := { c with left := live }
    let d := d.setCal (fun k => { k with
      cmds := if live.isEmpty then k.cmds.filter (fun x => decide (x ≠ c)) else k.cmds.map (fun x => if x = c then c' else x) })
    if live.isEmpty then d.closeCmd c'
    else
      let d := d.cal.learns.foldl (fun d l => if c.kind = l.kind ∧ l.head ∈ live then d.learnEnds l stABORTED 0 0 else d) d
      d.cal.items.foldl (fun d x => if x.kind = c.kind ∧ x.item ∈ live then d.itemStops x else d) d

/-- A warm start or a power-fail warning: running items are abandoned without a record (R159). -/
def Dev.calDrop (d : Dev) : Dev :=
  let d := (List.range 8).foldl (fun d g => d.rotationDrop g) d
  (d.setCal (fun c => { c with cmds := [], items := [], learns := [] })).storeDrop

/-! A command (R148, R158, R159) -/

/-- Number of items of a kind (R144). -/
def kindItems (kind : Nat) : Nat :=
  match kind with
  | 0 => 1
  | 1 => 104
  | 2 => 24
  | 3 => 24
  | 4 => 24
  | 5 => 48
  | 6 => 2
  | _ => 32

/-- Another command of the kind names one of the items, or a learn runs on a named head (R159). -/
def Dev.calClash (d : Dev) (kind : Nat) (items : List Nat) : Bool :=
  d.cal.cmds.any (fun c => decide (c.kind = kind ∧ c.handle ≠ 0) && c.left.any (fun i => items.contains i)) ||
    (decide (2 ≤ kind ∧ kind ≤ 4) && items.any (fun h => (d.learnOf h).isSome))

/-- A commanded AFE of a head whose usable gap is always too short while its LTG is armed (R146): the period of a TIMER
LTG tells, its own or that of the leader of a GANG head. -/
def Dev.gapShort (d : Dev) (h : Nat) : Bool :=
  let m := if d.ltgSrc h = 5 then d.rf LTG_CTRL_REF h else h
  d.on LTG_CTRL_ARM h && decide (d.ltgSrc m = 1) &&
    decide (d.rf LTG_TIMERPER_PER m < gapLeadOf (d.inForce h) (d.scanOn h) h + 1700)

/-- The group whose converters and AFE an item needs. -/
def itemGroup (kind item : Nat) : Option Nat :=
  if kind = 1 then some (item / 13) else if 2 ≤ kind ∧ kind ≤ 4 then some (item / 3) else none

/-- A command may not name the item in the present state (R28 notes c and f, R146, R148, R345). -/
def Dev.itemBarred (d : Dev) (kind item : Nat) : Bool :=
  (match itemGroup kind item with
    | some g => !(d.groupOn g)
    | none => false) ||
    ((decide (kind = 3) || decide (kind = 4)) && (d.on PCU_HCFG_BYPASS item || (enabledChans d.regs item).isEmpty)) ||
    (decide (kind = 2) && d.gapShort item)

/-- Why a command of a kind on these items is refused in the present state: its status and the item (R28, R146, R148,
R159). -/
def Dev.calRefusal (d : Dev) (kind : Nat) (items : List Nat) : Option (Nat × Nat) :=
  match items.find? (fun i => d.itemBarred kind i) with
  | some i => some (stBAD_STATE, i)
  | none => (items.find? (fun i => d.calClash kind [i])).map (fun i => (stBUSY, i))

/-- A DARK or FLAT starts on a head (R148). -/
def Dev.learnOpen (d : Dev) (kind h : Nat) : Dev :=
  d.setCal (fun c => { c with learns := c.learns ++ [
    { head := h, kind := kind, phase := 0, left := 0, sum := [], cnt := [], ovr := [], sumX := [], lastNow := d.now
      cfg := (d.rreg (if kind = 3 then RegKind.CAL_DARKCFG else RegKind.CAL_FLATCFG) 0).toNat
      newPct := [], newDef := [], newPtt := [], trimOn := [], val := 0 }] })

/-- A command is accepted with its handle (R158); items running by temperature are taken over (R159). -/
def Dev.calCommand (d : Dev) (handle kind : Nat) (items : List Nat) : Dev :=
  let d := d.setCal (fun c => { c with
    cmds := c.cmds ++ [⟨handle, kind, items, none, 0, 0⟩]
    items := c.items.map (fun x => if x.kind = kind ∧ x.item ∈ items then { x with cmd := true } else x) })
  let d := if kind = 3 ∨ kind = 4 then items.foldl (fun d h => d.learnOpen kind h) d else d
  d.calPump

end Sys2Proof.Machine
end

