-- ==== Sys2Proof/Machine/MemBank.lean ====
section
/-! DEFINITION. The working memory: bank requests, arbitration, check bits, host accesses, marches, repair and fills
(R273 to R295), and the host access to scratchpads (R286). -/

namespace Sys2Proof.Machine

def Dev.setBank (d : Dev) (f : Mem → Mem) : Dev := { d with bank := f d.bank }

/-- Device address of a word of a bank (R274). -/
def bankAddr (b w : Nat) : Nat := 0x02000000 + b * 0x100000 + 8 * w

/-- Device address of a word of a tile scratchpad (R286). -/
def spAddr (t w : Nat) : Nat := 0x03000000 + t * 0x1000 + 4 * w

/-- States of `MEM.BSTAT.STATE`. -/
def bsREADY : Nat := 0
def bsMARCHD : Nat := 1
def bsMARCHP : Nat := 2
def bsOFF : Nat := 4

/-- State of a bank; a bank whose domain is off reads OFF (R345). -/
def Dev.bankState (d : Dev) (b : Nat) : Nat := if d.domOn (26 + b) then d.rf MEM_BSTAT_STATE b else bsOFF

/-- The bank serves its requesters: powered, and not under a destructive march (R289). -/
def Dev.bankServes (d : Dev) (b : Nat) : Bool :=
  decide (b < 8) && (decide (d.bankState b = bsREADY) || decide (d.bankState b = bsMARCHP))

/-! Requests (R278) -/

/-- Where the returns of a region's memory port are kept. -/
def portKey (port n : Nat) : Nat := 2 * n + port

/-- Requests of a requester that hold a credit (R278). -/
def Dev.creditsUsed (d : Dev) (who : Requester) : Nat :=
  let out := (d.bank.reqs.filter (fun r => decide (r.who = who) && r.write)).length
  match who with
  | .region p n => out + ((tget d.bank.rets [] (portKey p n)).filter (fun r => !r.drop)).length
  | _ => out

/-- The next place among the returns of a port. -/
def nextId (l : List MemRet) : Nat := match l.getLast? with
  | none => 0
  | some r => r.id + 1

def Dev.addReq (d : Dev) (r : MemReq) : Dev := d.setBank (fun m => { m with reqs := m.reqs ++ [r] })

/-- A region memory port issues the request its cells made (R239, R278, R289). The data of a read issued after the region's
brim has clamped are discarded (R256). -/
def Dev.regionRequest (d : Dev) (p n : Nat) : Dev :=
  let k := portKey p n
  match tget d.fab.mpOut [] k with
  | [] => d
  | q :: rest =>
    let d := { d with fab := { d.fab with mpOut := tset d.fab.mpOut [] k rest } }
    let b := q.addr / 2 ^ 17 % 8
    let l := tget d.bank.rets [] k
    if d.creditsUsed (.region p n) < Crossing.portRequests.depth ∧ d.bankServes b = true then
      let ghost := !(tbit d.fab.wen n)
      let d := if q.write || ghost then d else d.setBank (fun m => { m with
        rets := tset m.rets [] k (l ++ [⟨nextId l, false, 0, false, false, false⟩]) })
      d.addReq ⟨.region p n, b, q.addr % 2 ^ 17, q.write, q.data, nextId l + (if ghost then 2 ^ 32 else 0), none⟩
    else
      let d := if p = 0 then d.inc MEM_RQDROP_MP0 n 1 else d.inc MEM_RQDROP_MP1 n 1
      if q.write then d
      else d.setBank (fun m => { m with rets := tset m.rets [] k (l ++ [⟨nextId l, true, 0, false, false, true⟩]) })

/-- A line writer issues its next word, or drops the rest of the line (R141, R278). -/
def Dev.writerRequest (d : Dev) (h : Nat) : Dev :=
  match tget d.bank.jobs [] h with
  | [] => d
  | j :: rest =>
    let put (l : List LwJob) (d : Dev) : Dev := d.setBank (fun m => { m with jobs := tset m.jobs [] h l })
    match j.words with
    | [] => (put rest d).wf PCU_LWIDX_SLOT h j.slot |>.wf PCU_LWIDX_LINE h (j.line % 2 ^ 18)
    | w :: ws =>
      if d.creditsUsed (.writer h) < Crossing.writerRequests.depth ∧ d.bankServes j.bank = true then
        let d := d.addReq ⟨.writer h, j.bank, j.word, true, w, 0, if ws.isEmpty then some (h, j.slot, j.line) else none⟩
        if ws.isEmpty then put rest d else put ({ j with word := j.word + 1, words := ws } :: rest) d
      else (put rest d).inc PCU_DROPCNT_WRITER (groupOf h) 1

/-- The DMA of a converter issues its next entry; while the bank does not serve, it waits in the crossing, and the entry that finds
16 there is lost (R211, R278). -/
def Dev.dmaRequest (d : Dev) (m : Nat) : Dev :=
  let x := d.getMcv m
  match x.dma with
  | [] => d
  | (b, w, v) :: rest =>
    if d.creditsUsed (.dma m) < Crossing.dmaResults.depth ∧ d.bankServes b = true then
      (d.setMcv m { x with dma := rest }).addReq ⟨.dma m, b, w, true, v, 0, none⟩
    else d

/-- The management controller asks for the next word of a fill (R377). -/
def Dev.fillRequest (d : Dev) : Dev :=
  match d.bank.fills.find? (fun f => decide (f.left ≠ 0) && !f.stop) with
  | none => d
  | some f =>
    let d := d.setBank (fun m => { m with
      fills := m.fills.map (fun x => if x.handle = f.handle then { f with next := f.next + 1, left := f.left - 1 } else x) })
    d.addReq ⟨.management, f.bank, f.next, true, f.pattern, 0, none⟩

/-- A requester issues what it has to ask (R278); in NAP the regions and line writers issue nothing (R294). -/
def Dev.memRequest (d : Dev) (who : Requester) : Dev :=
  match who with
  | .management => d.fillRequest
  | .region p n => if p < 2 ∧ n < 16 ∧ d.domOn (34 + n) = true then d.regionRequest p n else d
  | .writer h => if d.domOn (18 + groupOf h) then d.writerRequest h else d
  | .dma m => d.dmaRequest m

/-! Arbitration (R275, R276) -/

/-- Place of a requester in the order of its port. -/
def reqPlace : Requester → Nat
  | .management => 0
  | .region 0 n => 1 + n
  | .region _ n => 26 + n
  | .writer h => h
  | .dma m => 24 + m

/-- The port a requester is wired to. -/
def reqPort : Requester → Nat
  | .management => 0
  | .region 0 _ => 0
  | .region _ _ => 1
  | .writer _ => 1
  | .dma _ => 1

/-- Weight of a requester on a bank. -/
def Dev.weight (d : Dev) (b : Nat) : Requester → Nat
  | .management => d.rf MEM_WGT_P0MGT b
  | .region 0 _ => d.rf MEM_WGT_P0RGN b
  | .region _ _ => d.rf MEM_WGT_P1RGN b
  | .writer _ => d.rf MEM_WGT_P1LW b
  | .dma _ => d.rf MEM_WGT_P1MCV b

/-- The oldest request of each requester that is pending on a port of a bank, in the port's order. -/
def Dev.pendingOn (d : Dev) (b p : Nat) : List MemReq :=
  let on := d.bank.reqs.filter (fun r => decide (r.bank = b) && decide (reqPort r.who = p))
  (List.range 42).filterMap (fun i => on.find? (fun r => decide (reqPlace r.who = i)))

/-- The request a port grants: the requester in turn up to its weight, else the next one in the order (R276). -/
def Dev.grantOf (d : Dev) (b p : Nat) : Option (MemReq × Nat × Nat) :=
  let g := tget d.bank.grant (0, 0) (2 * b + p)
  let l := d.pendingOn b p
  match l.find? (fun r => decide (reqPlace r.who = g.1) && decide (g.2 < d.weight b r.who)) with
  | some r => some (r, g.1, g.2 + 1)
  | none =>
    match (l.filter (fun r => decide (g.1 < reqPlace r.who)) ++ l).head? with
    | none => none
    | some r => some (r, reqPlace r.who, 1)

/-- The request leaves the list, and the arbiter moves. -/
def Dev.granted (d : Dev) (b p : Nat) (g : MemReq × Nat × Nat) : Dev :=
  d.setBank (fun m => { m with reqs := m.reqs.erase g.1, grant := tset m.grant (0, 0) (2 * b + p) g.2 })

/-! Check bits (R282, R283) -/

/-- A double-bit error is counted, recorded and reported at most once per millisecond (R283). -/
def Dev.doubleError (d : Dev) (b w src rport : Nat) : Dev :=
  let d := (((d.inc MEM_ECCCNT_DBE b 1).wf MEM_ERRADDR_WORD b w).wf MEM_ERRADDR_SRC b src).wf MEM_ERRADDR_RPORT b rport
  let d := d.wf MEM_ERRADDR_VALID b 1
  let last := tget d.bank.faultNow 0 b
  if last ≠ 0 ∧ d.now < last + 1000000 then d
  else (d.setBank (fun m => { m with faultNow := tset m.faultNow 0 b (max d.now 1) })).post .fault (0x120 + b)
    (d.rreg .MEM_ERRADDR b).toNat

/-- A single-bit error is corrected in the data, counted, and its word queued for write-back (R282). -/
def Dev.singleError (d : Dev) (b w : Nat) : Dev :=
  let d := d.inc MEM_ECCCNT_SBE b 1
  let q := tget d.bank.wbq [] b
  if q.length < 4 then d.setBank (fun m => { m with wbq := tset m.wbq [] b (q ++ [w]) }) else d.inc MEM_WBCNT_SKIP b 1

/-- What a word shows: what the row says of it, or an error that it has held since an earlier read. -/
def eccJoined (e : MemEcc) (held : Nat) : MemEcc :=
  match e, held with
  | .clean, 0 => .clean
  | .clean, 1 => .single
  | .clean, _ => .double 0
  | .single, 2 => .double 0
  | e, _ => e

/-- How many bits of a word are wrong. -/
def eccWrong : MemEcc → Nat
  | .clean => 0
  | .single => 1
  | .double _ => 2

/-- The word at a device address is stored with so many wrong bits. -/
def Dev.setErr (d : Dev) (a n : Nat) : Dev := d.setBank (fun m => { m with errs := tset m.errs 0 a n })

/-- What a word at a device address shows to a read (R282, R283, R285). -/
def Dev.shown (d : Dev) (a : Nat) (e : MemEcc) : MemEcc := eccJoined e (tget d.bank.errs 0 a)

/-- What a read of a word finds: the state after it, and the data delivered. -/
def State.readWord (s : State) (b w : Nat) (e : MemEcc) (src rport : Nat) : State × Nat :=
  let v := memRead s.mem (bankAddr b w) 8
  let ecc := s.dev.shown (bankAddr b w) e
  let s := { s with dev := s.dev.setErr (bankAddr b w) (eccWrong ecc) }
  match ecc with
  | .clean => (s, v)
  | .single => ({ s with dev := s.dev.singleError b w }, v)
  | .double flip =>
    let v' := Nat.xor v (flip % 2 ^ 64)
    ({ s with dev := s.dev.doubleError b w src rport, mem := memWrite s.mem (bankAddr b w) 8 v' }, v')

/-- A whole word is written: fresh check bits, and a pending write-back of it is cancelled (R282). -/
def State.writeWord (s : State) (b w v : Nat) : State :=
  { s with
    dev := (s.dev.setErr (bankAddr b w) 0).setBank (fun m => { m with
      wbq := tset m.wbq [] b ((tget m.wbq [] b).filter (fun x => decide (x ≠ w))) })
    mem := memWrite s.mem (bankAddr b w) 8 v }

/-- A region's read is filled with its data (R280). -/
def Dev.fillReturn (d : Dev) (k id data : Nat) (ecc : MemEcc) : Dev :=
  let f (r : MemRet) : MemRet :=
    if r.id = id ∧ r.drop = false then
      { r with ready := true, data := data, sbe := decide (ecc = .single)
               dbe := match ecc with
                 | .double _ => true
                 | _ => false }
    else r
  d.setBank (fun m => { m with rets := tset m.rets [] k ((tget m.rets [] k).map f) })

/-- A granted read is performed. -/
def State.performRead (s : State) (r : MemReq) (ecc : MemEcc) : State :=
  match r.who with
  | .region p n =>
    let x := s.readWord r.bank r.word ecc 1 (2 * n + p)
    { x.1 with dev := x.1.dev.fillReturn (portKey p n) r.id x.2 (s.dev.shown (bankAddr r.bank r.word) ecc) }
  | _ => (s.readWord r.bank r.word ecc 0 0).1

/-- A granted write is performed; a line writer's last word completes its line (R141). -/
def State.performWrite (s : State) (r : MemReq) : State :=
  let s := s.writeWord r.bank r.word r.data
  match r.last with
  | none => s
  | some (h, slot, line) =>
    { s with dev := (s.dev.wf PCU_LWIDX_SLOT h slot).wf PCU_LWIDX_LINE h (line % 2 ^ 18) }

/-- The collision counters of R281. -/
def Dev.collide (d : Dev) (b : Nat) (r0 r1 : MemReq) : Dev :=
  if r0.word ≠ r1.word then d
  else if r0.write = true ∧ r1.write = true then d.inc MEM_COLLCNT_WW b 1
  else if r0.write = true ∨ r1.write = true then d.inc MEM_COLLCNT_RW b 1
  else d

/-- The requests granted in a cycle are performed: the reads see the words before the writes, and of two writes to one
word port 1's is in force (R281). -/
def State.performTwo (s : State) (q0 q1 : Option MemReq) (e0 e1 : MemEcc) : State :=
  let rd (s : State) (q : Option MemReq) (e : MemEcc) : State := match q with
    | some r => if r.write then s else s.performRead r e
    | none => s
  let wr (s : State) (q : Option MemReq) : State := match q with
    | some r => if r.write then s.performWrite r else s
    | none => s
  wr (wr (rd (rd s q0 e0) q1 e1) q0) q1

/-- A granted request of a region to a bank under a destructive march is lost, or answered with DROP (R289). -/
def Dev.performDropped (d : Dev) (g : Option (MemReq × Nat × Nat)) : Dev :=
  match g with
  | none => d
  | some (r, _) =>
    match r.who with
    | .region p n =>
      let d := if p = 0 then d.inc MEM_RQDROP_MP0 n 1 else d.inc MEM_RQDROP_MP1 n 1
      let f (x : MemRet) : MemRet := if x.id = r.id ∧ r.write = false then { x with ready := true, drop := true } else x
      d.setBank (fun m => { m with
        reqs := m.reqs.erase r
        rets := tset m.rets [] (portKey p n) ((tget m.rets [] (portKey p n)).map f) })
    | _ => d

/-- One cycle of a bank (R273, R276, R281): `p0` and `p1` tell which ports act, `e0` and `e1` what their reads find. -/
def State.bankCycle (s : State) (b : Nat) (p0 p1 : Bool) (e0 e1 : MemEcc) : State :=
  if b < 8 ∧ s.dev.bankState b = bsMARCHD then
    let d := s.dev.performDropped (if p0 then s.dev.grantOf b 0 else none)
    { s with dev := d.performDropped (if p1 then d.grantOf b 1 else none) }
  else if s.dev.bankServes b = false then s
  else
    let g0 := if p0 then s.dev.grantOf b 0 else none
    let d := match g0 with
      | some g => s.dev.granted b 0 g
      | none => s.dev
    let g1 := if p1 then d.grantOf b 1 else none
    let d := match g1 with
      | some g => d.granted b 1 g
      | none => d
    let d := match g0, g1 with
      | some a, some c => d.collide b a.1 c.1
      | _, _ => d
    State.performTwo { s with dev := d } (g0.map (fun g => g.1)) (g1.map (fun g => g.1)) e0 e1

/-- A queued corrected word is written back in a port 1 cycle in which no requester is granted (R282). -/
def Dev.writeback (d : Dev) (b : Nat) : Dev :=
  match tget d.bank.wbq [] b with
  | [] => d
  | w :: rest =>
    if d.bankServes b = true ∧ d.pendingOn b 1 = [] then
      (d.setErr (bankAddr b w) 0).setBank (fun m => { m with wbq := tset m.wbq [] b rest })
    else d

/-! Host accesses (R274, R286, R289) -/

/-- The data a read returns to the host or to a packet. -/
def Dev.setRdata (d : Dev) (v : Nat) : Dev := { d with rdata := v % 2 ^ 32 }

/-- A refused access: counted, and a read returns 0. -/
def Dev.refuseAccess (d : Dev) (c : Cause) (p : Path) (addr : Nat) : Dev := (d.countRefusal c p addr).setRdata 0

/-- A half word of a bank is written by read-modify-write (R274). -/
def State.bankHalfWrite (s : State) (b w half v : Nat) (ecc : MemEcc) : State :=
  let x := s.readWord b w ecc 0 0
  let old := match s.dev.shown (bankAddr b w) ecc with
    | .double _ => 0
    | _ => x.2
  x.1.writeWord b w (setBits old (32 * half) 32 v)

/-- A host access to a bank window (R274, R283, R289). -/
def State.bankAccess (s : State) (p : Path) (addr : Nat) (write : Bool) (v : Nat) (ecc : MemEcc) : State :=
  let b := (addr - 0x02000000) / 0x100000 % 8
  let w := addr % 0x100000 / 8
  let half := addr % 8 / 4
  if s.dev.domOn (26 + b) = false then { s with dev := s.dev.refuseAccess .domain p addr }
  else if s.dev.bankServes b = false then { s with dev := s.dev.refuseAccess .state p addr }
  else if write then s.bankHalfWrite b w half v ecc
  else
    let x := s.readWord b w ecc 0 0
    { x.1 with dev := x.1.dev.setRdata (bitsOf x.2 (32 * half) 32) }

/-- Region of a tile (R215). -/
def tileRegion (t : Nat) : Nat := 4 * (t / 16 / 4) + t % 16 / 4

/-- Region states of R250. -/
def rsOFF : Nat := 0
def rsRUNNING : Nat := 1
def rsLOADING : Nat := 2
def rsSTARTING : Nat := 3
def rsEMPTY : Nat := 4
def rsISOLATED : Nat := 5

def Dev.rgnState (d : Dev) (n : Nat) : Nat := d.rf RGN_STAT_STATE n

/-- A region is frozen by a snapshot (R247). -/
def Dev.frozen (d : Dev) (n : Nat) : Bool := tbit (d.rf FAB_SNAPSTAT_FROZEN 0) n

/-- The region's scratchpads may be reached by the host (R286): ISOLATED, frozen, or clock-gated in NAP. -/
def Dev.spOpen (d : Dev) (n : Nat) : Bool :=
  decide (d.rgnState n = rsISOLATED) ||
    (decide (d.rgnState n = rsRUNNING) && (d.frozen n || decide (d.pwr.st = .nap)))

/-- The region's domain has power, clock-gated in NAP or not (R286). -/
def Dev.spPowered (d : Dev) (n : Nat) : Bool := d.domOn (34 + n) || (decide (d.pwr.st = .nap) && d.domNormal (34 + n))

/-- A check error of a scratchpad word (R285). -/
def Dev.spError (d : Dev) (t w : Nat) (ecc : MemEcc) : Dev :=
  let n := tileRegion t
  match ecc with
  | .clean => d
  | .single => d.inc MEM_SPECC_SBE n 1
  | .double _ =>
    let d := (((d.inc MEM_SPECC_DBE n 1).wf MEM_SPERR_TILE 0 t).wf MEM_SPERR_WORD 0 w).wf MEM_SPERR_VALID 0 1
    let last := tget d.bank.spFaultNow 0 n
    if last ≠ 0 ∧ d.now < last + 1000000 then d
    else (d.setBank (fun m => { m with spFaultNow := tset m.spFaultNow 0 n (max d.now 1) })).post .fault (0x130 + n)
      (d.rreg .MEM_SPERR 0).toNat

/-- A scratchpad word is read (R285). -/
def State.spRead (s : State) (t w : Nat) (e : MemEcc) : State × Nat :=
  let v := memRead s.mem (spAddr t w) 3
  let ecc := s.dev.shown (spAddr t w) e
  let s := { s with dev := s.dev.setErr (spAddr t w) (eccWrong ecc) }
  match ecc with
  | .double flip =>
    let v' := Nat.xor v (flip % 2 ^ 24)
    ({ s with dev := s.dev.spError t w ecc, mem := memWrite s.mem (spAddr t w) 3 v' }, v')
  | _ => ({ s with dev := s.dev.spError t w ecc }, v)

/-- A scratchpad word is written, with fresh check bits (R285). -/
def State.spWrite (s : State) (t w v : Nat) : State :=
  { s with dev := s.dev.setErr (spAddr t w) 0, mem := memWrite s.mem (spAddr t w) 3 v }

/-- A host access to a scratchpad (R17, R256, R286). -/
def State.spAccess (s : State) (p : Path) (addr : Nat) (write : Bool) (v : Nat) (ecc : MemEcc) : State :=
  let t := (addr - 0x03000000) / 0x1000 % 256
  let w := addr % 0x1000 / 4
  let n := tileRegion t
  if s.dev.spPowered n = false then { s with dev := s.dev.refuseAccess .domain p addr }
  else if s.dev.spOpen n = false then { s with dev := s.dev.refuseAccess .state p addr }
  else if write then s.spWrite t w v
  else
    let x := s.spRead t w ecc
    { x.1 with dev := x.1.dev.setRdata x.2 }

/-! Marches and repair (R288 to R293) -/

/-- The words of a stretch of `n` bytes take valid check bits. -/
def Dev.errsClear (d : Dev) (a n : Nat) : Dev :=
  d.setBank (fun m => { m with errs := m.errs.filter (fun e => decide (e.1 < a) || decide (a + n ≤ e.1)) })

/-- A stretch of memory becomes 0 with valid check bits (R288, R290, R294). -/
def State.zeroed (s : State) (a n : Nat) : State := { s with dev := s.dev.errsClear a n, mem := memZero s.mem a n }

/-- A bank's contents become 0 (R288, R290, R294). -/
def State.bankZero (s : State) (b : Nat) : State := s.zeroed (bankAddr b 0) 0x100000

/-- All memory loses its contents, and reads 0 with valid check bits from the next power-up on (R287, R294). -/
def State.memLost (s : State) : State := { s with dev := s.dev.setBank (fun m => { m with errs := [] }), mem := [] }

/-- An enabled line writer or an enabled MCV buffer names the bank (R289, R345). -/
def Dev.bankNamed (d : Dev) (b : Nat) : Bool :=
  (List.range 24).any (fun h => d.on PCU_LWCTRL_EN h && decide (d.rf PCU_LWCTRL_BANK h = b)) ||
    (List.range 2).any (fun m => (d.on MCV_CTRL_EN m || d.on MCV_CTRL_IEN m) && decide (d.rf MCV_BUF_BANK m = b))

/-- Why a commanded march on a bank is refused (R289, R290). -/
def Dev.marchRefusal (d : Dev) (b mode : Nat) : Option Nat :=
  if d.bankState b = bsMARCHD ∨ d.bankState b = bsMARCHP then some stBUSY
  else if d.bankServes b = false then some stBAD_STATE
  else if mode = 0 ∧ (d.bankNamed b = true ∨ (d.pwr.st ≠ .run ∧ d.pwr.st ≠ .hold)) then some stBAD_STATE
  else none

/-- A march starts (R288, R290); `byReg` tells a start through the register. -/
def Dev.marchStart (d : Dev) (b mode : Nat) (byReg : Bool) : Dev :=
  let d := d.setBank (fun m => { m with byReg := tset m.byReg 0 b (b2n byReg) })
  d.wf MEM_BSTAT_STATE b (if mode = 0 then bsMARCHD else bsMARCHP)

/-- A march on a bank is over (R290): the bank is READY, its register start or its command is told. -/
def Dev.marchOver (d : Dev) (b result : Nat) : Dev :=
  let d := (d.wf MEM_BSTAT_STATE b bsREADY).wf MEM_BSTAT_RESULT b result
  let d := if tget d.bank.byReg 0 b = 1 then
      (d.setBank (fun m => { m with byReg := tset m.byReg 0 b 0 })).post .edge (0x128 + b) (d.rreg .MEM_BSTAT b).toNat
    else d
  match d.bank.marches.find? (fun c => c.left.contains b) with
  | none => d
  | some c =>
    let c' : MarchCmd := { c with
      left := c.left.filter (fun x => decide (x ≠ b))
      degraded := if result = 3 then setBit c.degraded b true else c.degraded }
    if c'.left.isEmpty then
      (d.setBank (fun m => { m with marches := m.marches.filter (fun x => decide (x.handle ≠ c.handle)) })).finish c.handle
        stOK c'.degraded
    else d.setBank (fun m => { m with marches := m.marches.map (fun x => if x.handle = c.handle then c' else x) })

/-- A running march stops after the word in progress (R290): a destructive one leaves the bank 0. -/
def State.marchStop (s : State) (b : Nat) : State :=
  let st := s.dev.bankState b
  if st = bsMARCHD then State.bankZero { s with dev := s.dev.marchOver b 4 } b
  else if st = bsMARCHP then { s with dev := s.dev.marchOver b 4 }
  else s

/-- The row a spare replaces, if mapped (R292). -/
def Dev.spareRow (d : Dev) (b i : Nat) : Option Nat :=
  let r := if i < 2 then d.rreg .MEM_ROWMAP0 b else d.rreg .MEM_ROWMAP1 b
  let half := bitsOf r.toNat (16 * (i % 2)) 16
  if tbit half 15 then some (half % 2048) else none

/-- Map spare `i` to a row, or unmap it; each change posts an EDGE record and leads to a store (R292). -/
def Dev.mapSpare (d : Dev) (b i : Nat) (row : Option Nat) : Dev :=
  let k := if i < 2 then RegKind.MEM_ROWMAP0 else RegKind.MEM_ROWMAP1
  let v := match row with
    | some r => r % 2048 + 0x8000
    | none => 0
  let d := d.wreg k b (BitVec.ofNat 32 (setBits (d.rreg k b).toNat (16 * (i % 2)) 16 v))
  (d.wbit MEM_BSTAT_SPUSED b i row.isSome).post .edge (0x128 + b) (d.rreg .MEM_BSTAT b).toNat |>.wantStore

/-- Find a working spare for a failing row (R293): spares that fail their own march are retired. -/
def Dev.repairRow (fuel : Nat) (d : Dev) (b row bad : Nat) : Bool × Dev :=
  match fuel with
  | 0 => (false, d)
  | fuel + 1 =>
    match (List.range 4).find? (fun i => !(tbit (d.rf MEM_BSTAT_SPUSED b) i) && !(tbit (d.rf MEM_BSTAT_SPRET b) i)) with
    | none => (false, d)
    | some i =>
      if tbit bad i then Dev.repairRow fuel (d.wbit MEM_BSTAT_SPRET b i true) b row bad
      else (true, d.mapSpare b i (some row))

/-- A failing row that a spare already replaces retires that spare (R293). -/
def Dev.dropSpare (d : Dev) (b row : Nat) : Dev :=
  match (List.range 4).find? (fun i => decide (d.spareRow b i = some row)) with
  | none => d
  | some i => (d.mapSpare b i none).wbit MEM_BSTAT_SPRET b i true

/-- Handle every failing row (R293); the rows left unrepaired. -/
def Dev.repairRows (d : Dev) (b bad : Nat) : List Nat → List Nat × Dev
  | [] => ([], d)
  | row :: rest =>
    let x := Dev.repairRow 4 (d.dropSpare b row) b row bad
    let y := Dev.repairRows x.2 b bad rest
    (if x.1 then y.1 else row :: y.1, y.2)

/-- A march ends (R293): `rows` failed, ascending; `bad` tells which spare rows fail their march; `col` that one bit
failed in more than 4 rows. -/
def State.marchDone (s : State) (b : Nat) (rows : List Nat) (bad : Nat) (col : Bool) : State :=
  let st := s.dev.bankState b
  if st ≠ bsMARCHD ∧ st ≠ bsMARCHP then s
  else
    let x := s.dev.repairRows b bad rows
    let left := x.1
    let d := (x.2.wf MEM_MARCHRES_ROWS b (min rows.length 4095)).wf MEM_BSTAT_COLFAULT b (b2n col)
    let d := match left with
      | [] => (d.wf MEM_MARCHRES_FIRST b 0).wf MEM_MARCHRES_FIRSTV b 0
      | r :: _ => (d.wf MEM_MARCHRES_FIRST b r).wf MEM_MARCHRES_FIRSTV b 1
    let result := if left ≠ [] ∨ col = true then 3 else if rows = [] then 1 else 2
    let d := d.wf MEM_BSTAT_DEGRADED b (b2n (decide (result = 3)))
    let d := d.marchOver b result
    let d := if result = 3 then d.post .fault (0x128 + b) (d.rreg .MEM_BSTAT b).toNat else d
    let s := { s with dev := d }
    if st = bsMARCHD then s.bankZero b else s

/-! Fills (R377) -/

/-- A fill whose words have all been performed, or that was stopped, ends. -/
def Dev.fillDone (d : Dev) (h : Nat) : Dev :=
  match d.bank.fills.find? (fun f => decide (f.handle = h)) with
  | none => d
  | some f =>
    if (f.left = 0 ∨ f.stop = true) ∧ d.bank.reqs.all (fun r => decide (r.who ≠ .management)) = true then
      (d.setBank (fun m => { m with fills := m.fills.filter (fun x => decide (x.handle ≠ h)) })).finish h stOK 0
    else d

/-! Power (R294, R345) -/

/-- Requests, lines, returns and marches are lost; credits are restored (R294). -/
def Dev.bankFlush (d : Dev) : Dev :=
  let d := d.setBank (fun m => { m with
    reqs := [], jobs := [], rets := [], wbq := [], grant := [], byReg := [], marches := [], fills := [] })
  (List.range 8).foldl (fun d b =>
    if d.rf MEM_BSTAT_STATE b = bsMARCHD ∨ d.rf MEM_BSTAT_STATE b = bsMARCHP then d.wf MEM_BSTAT_STATE b bsREADY else d) d

/-- Counters and W1C flags clear at a warm start (R295). -/
def Dev.bankWarm (d : Dev) : Dev :=
  let d := (List.range 8).foldl (fun d b =>
    (((d.wreg .MEM_ECCCNT b 0).wreg .MEM_COLLCNT b 0).wreg .MEM_WBCNT b 0).wf MEM_ERRADDR_VALID b 0) d.bankFlush
  let d := (List.range 16).foldl (fun d n => (d.wreg .MEM_RQDROP n 0).wreg .MEM_SPECC n 0) d
  d.wf MEM_SPERR_VALID 0 0

end Sys2Proof.Machine
end

