-- ==== Sys2Proof/Machine/Frames.lean ====
section
/-! DEFINITION. Configuration frames: addresses, layouts and check words (R304 to R307), as the cells and ports of the
fabric read them. -/

namespace Sys2Proof.Machine

/-- Address of frame `f` of tile index `t` of region `n` (R305). -/
def tileFrameAddr (n t f : Nat) : Nat := 640 * n + 39 * t + f

/-- Address of interface frame `f` of region `n` (R305). -/
def ifFrameAddr (n f : Nat) : Nat := 640 * n + 624 + f

def frameCount : Nat := 11008

/-- What configuration memory holds of a region frame: as written, with the upset bits changed. -/
def Dev.frame (d : Dev) (a : Nat) : Nat := Nat.xor (tget d.fab.frames 0 a) (tget d.fab.upset 0 a)

/-- Region and tile index of a tile (R215). -/
def tileIndex (t : Nat) : Nat := 4 * (t / 16 % 4) + t % 4

/-- The tile of a region's tile index. -/
def tileOf (n i : Nat) : Nat := 16 * (4 * (n / 4) + i / 4) + 4 * (n % 4) + i % 4

/-- Bits of a frame of a tile. -/
def Dev.tf (d : Dev) (t f lsb w : Nat) : Nat :=
  bitsOf (d.frame (tileFrameAddr (tileRegion t) (tileIndex t) f)) lsb w

/-- Bits of an interface frame of a region. -/
def Dev.ifBits (d : Dev) (n f lsb w : Nat) : Nat := bitsOf (d.frame (ifFrameAddr n f)) lsb w

/-- The instruction of cell `i`, context `c` (R306): a 3,072-bit field across frames 0 to 2. -/
def Dev.cellInstr (d : Dev) (t i c : Nat) : Nat :=
  let b := 48 * (4 * i + c)
  let j := b / 1024
  let lo := d.tf t j (b % 1024) 48
  if b % 1024 + 48 ≤ 1024 then lo
  else
    let k := 1024 - b % 1024
    lo % 2 ^ k + d.tf t (j + 1) 0 (48 - k) * 2 ^ k

/-- The positions that carry payload bits in the check code: the positive integers that are no powers of two, from 3 to
1,035 (R304). -/
def checkPos : List Nat := ((List.range 1036).filter (fun n => decide (2 < n) && decide (¬ 2 ^ Nat.log2 n = n)))

/-- Number of bits set. -/
def parityOf : Nat → Nat → Nat
  | 0, _ => 0
  | k + 1, n => (n % 2 + parityOf k (n / 2)) % 2

/-- The check word of a payload (R304). -/
def checkWord (payload : Nat) : Nat :=
  let c := (checkPos.foldl (fun (acc : Nat × Nat) v => (acc.1 / 2, if acc.1 % 2 = 1 then Nat.xor acc.2 v else acc.2))
    (payload, 0)).2
  c + (parityOf 1024 payload + parityOf 11 c) % 2 * 2 ^ 11

/-! Interface declarations (R307) -/

/-- Settings of output port `p`: word cell, two valid cells, marker source. -/
def Dev.soWsel (d : Dev) (n p : Nat) : Nat := d.ifBits n 0 (32 + 32 * p) 8
def Dev.soV1 (d : Dev) (n p : Nat) : Nat := d.ifBits n 0 (40 + 32 * p) 8
def Dev.soV2 (d : Dev) (n p : Nat) : Nat := d.ifBits n 0 (48 + 32 * p) 8
def Dev.soMsrc (d : Dev) (n p : Nat) : Nat := d.ifBits n 0 (56 + 32 * p) 4
def Dev.ifEdly (d : Dev) (n : Nat) : Nat := d.ifBits n 0 3 6

/-- Cell `j` of memory port `m`: 0 address, 1 request, 2 write, 3 to 5 data. -/
def Dev.mpCell (d : Dev) (n m j : Nat) : Nat := d.ifBits n 0 (160 + 48 * m + 8 * j) 8

/-- Cell of event output `e`. -/
def Dev.evCell (d : Dev) (n e : Nat) : Nat := d.ifBits n 0 (256 + 8 * e) 8

/-- Bits of an interface frame as it stood when the brim of the region clamped (R251). -/
def Dev.brimBits (d : Dev) (n f lsb w : Nat) : Nat := bitsOf (tget d.fab.brimFrames 0 (ifFrameAddr n f)) lsb w

/-- Brim code of the cuff output of pin `q`. -/
def Dev.cuffBrim (d : Dev) (n q : Nat) : Nat := d.brimBits n 0 (288 + 2 * q) 2

/-- Entry of track (t, d, k) that governs a clamped brim. -/
def Dev.brimEntry (d : Dev) (n t dir k : Nat) : Nat :=
  let b := 4 * (40 * (4 * t + dir) + k)
  d.brimBits n (1 + b / 1024) (b % 1024) 4

/-- Entry of track (t, d, k) in frames 1 to 10. -/
def Dev.trackEntry (d : Dev) (n t dir k : Nat) : Nat :=
  let b := 4 * (40 * (4 * t + dir) + k)
  d.ifBits n (1 + b / 1024) (b % 1024) 4

/-! Region clocks (R216) -/

def Dev.fsel (d : Dev) (n : Nat) : Nat := d.rf FAB_RCLK_FSEL n

/-- Period of a region clock in 1/2 ns. -/
def period2 (fsel : Nat) : Nat :=
  match fsel with
  | 1 => 4
  | 2 => 5
  | 3 => 6
  | 4 => 8
  | 5 => 10
  | 6 => 16
  | _ => 0

/-- The fabric mode is paired (R23). -/
def Dev.paired (d : Dev) : Bool := d.on SYS_STATUS_PAIRED 0

/-- The brim of a region clamps (R252). -/
def Dev.brim (d : Dev) (n : Nat) : Bool := d.on RGN_STAT_BRIM n

/-- The clock of a region moves its sequencers, tracks and crossings: the cells are out of reset (R243, R244). -/
def Dev.clocked (d : Dev) (n : Nat) : Bool :=
  tbit d.fab.gsr n && decide (d.fsel n ≠ 0) && d.domOn (34 + n) && !(d.frozen n)

/-- Region cells execute and their clock runs: WEN has come, the domain is on and nothing freezes it (R243, R244). -/
def Dev.cellsRun (d : Dev) (n : Nat) : Bool :=
  tbit d.fab.wen n && decide (d.fsel n ≠ 0) && d.domOn (34 + n) && !(d.frozen n)

end Sys2Proof.Machine
end

