-- ==== Sys2Proof/Machine/Cells.lean ====
section
/-! DEFINITION. Routing, tile inputs, sequencers and cells of the fabric (R217 to R231). -/

namespace Sys2Proof.Machine

def Dev.setFab (d : Dev) (f : Fab → Fab) : Dev := { d with fab := f d.fab }

/-- R and F of cell `i` of tile `t`. -/
def Dev.cell (d : Dev) (t i : Nat) : Nat × Bool := tget d.fab.cells (0, false) (16 * t + i)

/-- R and F of a cell of region `n` named as 16 x tile index + i (R237). -/
def Dev.rcell (d : Dev) (n c : Nat) : Nat × Bool := d.cell (tileOf n (c / 16)) (c % 16)

/-! Tracks (R228 to R230). Word tracks are numbered 0 to 15 (length 1) and 16 to 23 (length 4), control tracks 24 to 39,
as R306 does; edges 0 N, 1 E, 2 S, 3 W. -/

/-- Key of a track leaving an edge of a tile. -/
def trackKey (t dir k : Nat) : Nat := 40 * (4 * t + dir) + k

/-- The opposite edge. -/
def opposite (dir : Nat) : Nat := (dir + 2) % 4

/-- The tile `len` away in a direction, if it exists. -/
def tileAway (t dir len : Nat) : Option Nat :=
  let y := t / 16
  let x := t % 16
  match dir with
  | 0 => if len ≤ y then some (t - 16 * len) else none
  | 1 => if x + len < 16 then some (t + len) else none
  | 2 => if y + len < 16 then some (t + 16 * len) else none
  | _ => if len ≤ x then some (t - len) else none

/-- Length of a track. -/
def trackLen (k : Nat) : Nat := if 16 ≤ k ∧ k < 24 then 4 else 1

/-- Select code of the driver of a track (R306: stored inverted). -/
def Dev.trackCode (d : Dev) (t dir k : Nat) : Nat := 31 - d.tf t 4 (5 * (40 * dir + k)) 5

/-- The arriving length-4 track of a direction has its route register (R306). -/
def Dev.hasRouteReg (d : Dev) (t dir k : Nat) : Bool :=
  decide (16 ≤ k ∧ k < 24) && decide (d.tf t 4 (800 + 8 * dir + (k - 16)) 1 = 1)

/-- What reaches the near end of an arriving track: what the neighbour drives, or the crossing at a region border. -/
def Dev.arrivingEnd (d : Dev) (drv : Nat → Nat → Nat → Nat) (t dir k : Nat) : Nat :=
  match tileAway t dir (trackLen k) with
  | none => 0
  | some s =>
    if tileRegion s ≠ tileRegion t then (tget d.fab.cross [] (trackKey t dir k)).headD 0 else drv s (opposite dir) k

/-- What arrives at a tile on track `k` from direction `dir`; `drv` gives what a tile drives in the same region. -/
def Dev.arriving (d : Dev) (drv : Nat → Nat → Nat → Nat) (t dir k : Nat) : Nat :=
  if d.hasRouteReg t dir k then tget d.fab.route 0 (trackKey t dir k) else d.arrivingEnd drv t dir k

/-- The region whose ports serve region `n`: in paired mode both halves see the ports of half A (R233, R262). -/
def Dev.inRgn (d : Dev) (n : Nat) : Nat := if d.paired then n % 8 else n

/-- Select code of TI `k` and TC `k` (R306: stored inverted), and the delay of TC `k`. -/
def Dev.tiCode (d : Dev) (t k : Nat) : Nat := 255 - d.tf t 5 (8 * k) 8
def Dev.tcCode (d : Dev) (t k : Nat) : Nat := 255 - d.tf t 5 (11 * k + 64) 8
def Dev.tcDly (d : Dev) (t k : Nat) : Nat := d.tf t 5 (11 * k + 72) 3

def Dev.siPort (d : Dev) (n p : Nat) : SiPort := tget d.fab.si .reset (4 * d.inRgn n + p)

/-- The word a stream input port presents in the present cycle (R234). -/
def Dev.siWord (d : Dev) (n p : Nat) : Nat := match (d.siPort n p).now with
  | none => 0
  | some w => w.val

/-- Signal `s` of a stream input port (R234). -/
def Dev.siSignal (d : Dev) (n p s : Nat) : Bool := match (d.siPort n p).now with
  | none => false
  | some w => match w.kind with
    | .data => decide (s < 4) && decide (bitsOf w.val 19 2 = s)
    | .sol => decide (s = 4)
    | .eol => decide (s = 5)
    | .stat => decide (s = 6)

/-- What a memory port presents in the present cycle. -/
def Dev.mpRead (d : Dev) (n m : Nat) : Option MemRet := tget d.fab.mpNow none (portKey m (d.inRgn n))

/-- A read word of a memory port (R280). -/
def Dev.mpWord (d : Dev) (n m j : Nat) : Nat := match d.mpRead n m with
  | none => 0
  | some r => match j with
    | 0 => bitsOf r.data 0 24
    | 1 => bitsOf r.data 24 24
    | _ => bitsOf r.data 48 16 + b2n r.sbe * 2 ^ 16 + b2n r.dbe * 2 ^ 17 + b2n r.drop * 2 ^ 18

/-- The pin belongs to the region (R398, R402). -/
def Dev.pinOwned (d : Dev) (n q : Nat) : Bool := decide (d.rf GPIO_CFG_OWN q = 3) && decide (d.rf GPIO_CFG_OREG q = d.inRgn n)

def Dev.cuff (d : Dev) (q : Nat) : Cuff := tget d.fab.cuffs .reset q

/-- A control source beyond the tracks and the tile's own flags (R225). -/
def Dev.tcHard (d : Dev) (n code : Nat) : Bool :=
  if code < 108 then d.siSignal n ((code - 80) / 7) ((code - 80) % 7)
  else if code < 132 then tbit (tget d.fab.lbNow 0 (d.inRgn n)) (code - 108)
  else if code < 180 then d.on CMP_STAT_OUT (code - 132)
  else if code < 244 then d.pinOwned n (code - 180) && tbit (tget d.fab.padSync (0, 0) (d.inRgn n)).2 (code - 180)
  else if code = 244 then true
  else if code < 247 then (d.mpRead n (code - 245)).isSome
  else false

/-- A control input before its delay stages (R225). -/
def Dev.tcRaw (d : Dev) (drv : Nat → Nat → Nat → Nat) (t k : Nat) : Bool :=
  let c := d.tcCode t k
  if c < 64 then decide (d.arriving drv t (c / 16) (24 + c % 16) % 2 = 1)
  else if c < 80 then (d.cell t (c - 64)).2
  else d.tcHard (tileRegion t) c

/-- A control input (R225): delayed by its stages. -/
def Dev.tcIn (d : Dev) (drv : Nat → Nat → Nat → Nat) (t k : Nat) : Bool :=
  match d.tcDly t k with
  | 0 => d.tcRaw drv t k
  | n + 1 => tbit (tget d.fab.tc 0 (4 * t + k)) n

/-- What the driver of a track gives (R228, R229): an out-of-range code leaves the keeper. -/
def Dev.driverVal (d : Dev) (drv : Nat → Nat → Nat → Nat) (t dir k : Nat) : Nat :=
  let c := d.trackCode t dir k
  if c < 16 then
    if k < 24 then (d.cell t c).1 else b2n (d.cell t c).2
  else if c < 20 then
    d.arriving drv t (c - 16) (if k < 16 then k else if k < 24 then k - 16 else k)
  else if c < 24 then
    if k < 16 then d.arriving drv t (c - 20) (16 + k % 8)
    else if k < 24 then d.arriving drv t (c - 20) k
    else b2n (d.tcIn drv t (c - 20))
  else if c = 31 then 0
  else tget d.fab.keep 0 (trackKey t dir k)

/-- What a tile drives onto a track; a combinational loop has no stated value (R231, R232). -/
def Dev.trackVal (d : Dev) : Nat → Nat → Nat → Nat → Nat
  | 0, t, dir, k => d.freeAt (trackKey t dir k) % (if k < 24 then 2 ^ 24 else 2)
  | fuel + 1, t, dir, k => d.driverVal (d.trackVal fuel) t dir k

/-- Longest path followed through multiplexers. -/
def hops : Nat := 64

def Dev.tc (d : Dev) (t k : Nat) : Bool := d.tcIn (d.trackVal hops) t k

/-- A word input of a tile (R225, R229). -/
def Dev.ti (d : Dev) (t k : Nat) : Nat :=
  let n := tileRegion t
  let c := d.tiCode t k
  if c < 64 then d.arriving (d.trackVal hops) t (c / 16) (c % 16)
  else if c < 96 then d.arriving (d.trackVal hops) t ((c - 64) / 8) (16 + (c - 64) % 8)
  else if c < 104 then
    let w := d.siWord n ((c - 96) / 2)
    if c % 2 = 0 then w else w % 2 ^ 16
  else if c < 110 then d.mpWord n ((c - 104) / 3) ((c - 104) % 3)
  else if c < 174 then if d.pinOwned n (c - 110) then (d.cuff (c - 110)).val else 0
  else if c = 255 then 0
  else tget d.fab.keep 0 (2 ^ 16 + 8 * t + k)

/-! Sequencer (R226) -/

def Dev.seqAt (d : Dev) (t : Nat) : Nat × Nat := tget d.fab.seq (0, 0) t

/-- The context of a tile in the present cycle. -/
def Dev.ctx (d : Dev) (t : Nat) : Nat :=
  match d.tf t 3 400 2 with
  | 0 => d.tf t 3 402 2
  | 1 => d.tf t 3 (8 * (d.seqAt t).1 + 414) 2
  | 2 => 2 * b2n (d.tc t 3) + b2n (d.tc t 2)
  | _ => 0

/-- The sequencer after the cycle. -/
def Dev.seqNext (d : Dev) (t : Nat) : Nat × Nat :=
  if d.tf t 3 400 2 ≠ 1 then d.seqAt t
  else if d.tc t 0 then (0, 0)
  else
    let s := d.seqAt t
    if s.2 < d.tf t 3 (8 * s.1 + 408) 6 then (s.1, s.2 + 1)
    else if s.1 < d.tf t 3 404 3 then (s.1 + 1, 0)
    else (0, 0)

/-! Cells (R217 to R224) -/

/-- An operand (R219). -/
def Dev.operand (d : Dev) (t ins sel : Nat) : Nat :=
  if 16 ≤ sel then (d.cell t (sel - 16)).1
  else if 4 ≤ sel ∧ sel ≤ 11 then d.ti t (sel - 4)
  else match sel with
    | 1 =>
      let k := bitsOf ins 33 15
      if tbit ins 23 then word24 (sx 15 k) else k
    | 2 => tget d.fab.spa 0 t
    | 3 => tget d.fab.spb 0 t
    | 12 => (List.range 4).foldl (fun n k => n + b2n (d.tc t k) * 2 ^ k) 0
    | _ => 0

/-- The carry into cell `i` and, along a chain, out of the cells south of it (R221). A neighbour that adds nothing has no
stated carry. -/
def Dev.carryOut (d : Dev) (t ctx : Nat) : Nat → Nat → Nat
  | 0, _ => 0
  | fuel + 1, i =>
    let ins := d.cellInstr t i ctx
    let cin := match bitsOf ins 21 2 with
      | 0 => 0
      | 1 => 1
      | 2 => if i % 4 = 0 then 0 else d.carryOut t ctx fuel (i - 1)
      | _ => b2n (d.tc t 1)
    let op := bitsOf ins 0 6
    if op = 1 ∨ op = 2 then
      match alu op (tbit ins 23) 0 (d.operand t ins (bitsOf ins 6 5)) (d.operand t ins (bitsOf ins 11 5)) 0 cin with
      | some r => b2n r.2
      | none => 0
    else d.freeAt (2 ^ 17 + 16 * t + i) % 2

/-- Carry in of a cell (R218, R221). -/
def Dev.carryIn (d : Dev) (t ctx i : Nat) : Nat :=
  match bitsOf (d.cellInstr t i ctx) 21 2 with
  | 0 => 0
  | 1 => 1
  | 2 => if i % 4 = 0 then 0 else d.carryOut t ctx 4 (i - 1)
  | _ => b2n (d.tc t 1)

/-- The write enable of a cell (R222). -/
def Dev.cellWe (d : Dev) (t i ins : Nat) : Bool :=
  match bitsOf ins 29 3 with
  | 0 => true
  | 1 => false
  | 6 => (d.cell t i).2
  | 7 => !(d.tc t 0)
  | k => d.tc t (k - 2)

/-- What a cell computes in the cycle: result, flag and write enable; a reserved operation holds (R224). -/
def Dev.cellCompute (d : Dev) (t ctx i : Nat) : Option (Nat × Bool) × Bool :=
  let ins := d.cellInstr t i ctx
  let r := alu (bitsOf ins 0 6) (tbit ins 23) (bitsOf ins 24 5) (d.operand t ins (bitsOf ins 6 5))
    (d.operand t ins (bitsOf ins 11 5)) (d.operand t ins (bitsOf ins 16 5)) (d.carryIn t ctx i)
  (r, r.isSome && d.cellWe t i ins)

/-- The instruction pipelines its product (R223). -/
def pipelined (ins : Nat) : Bool := tbit ins 32 && (decide (bitsOf ins 0 6 = 19) || decide (bitsOf ins 0 6 = 20))

/-- A cell after the edge, and its product in the pipeline: none, or the result to be written at the next edge. A
product that arrives at the edge at which the cell writes another result leaves R with no stated value. -/
def Dev.cellEdge (d : Dev) (t ctx i : Nat) : (Nat × Bool) × Option Nat :=
  let ins := d.cellInstr t i ctx
  let c := d.cellCompute t ctx i
  let old := d.cell t i
  let due := tget d.fab.pipe none (16 * t + i)
  let starts := pipelined ins && c.2
  let now := if c.2 = true ∧ pipelined ins = false then c.1 else none
  if tbit d.fab.wen (tileRegion t) = false then (old, none)
  else
  let next := match now, due with
    | none, none => old
    | some r, none => r
    | none, some r => rz r
    | some _, some _ =>
      let v := d.freeAt (2 ^ 18 + 16 * t + i) % m24
      rz v
  (next, if starts then c.1.map (fun r => r.1) else none)

/-! Scratchpad ports (R227, R284) -/

/-- Address of scratchpad port A, and address, data and enable of port B. -/
def Dev.spAaddr (d : Dev) (t : Nat) : Nat := (d.cell t (d.tf t 3 472 4)).1 % 1024
def Dev.spBaddr (d : Dev) (t : Nat) : Nat := (d.cell t (d.tf t 3 476 4)).1 % 1024
def Dev.spBdata (d : Dev) (t : Nat) : Nat := (d.cell t (d.tf t 3 480 4)).1
def Dev.spBwe (d : Dev) (t : Nat) : Bool := decide (d.tf t 3 488 1 = 1) && (d.cell t (d.tf t 3 484 4)).2

/-! Out-of-range codes (R229) -/

/-- A select code of a track driver is out of range. -/
def trackCodeBad (c : Nat) : Bool := decide (24 ≤ c) && decide (c ≤ 30)

/-- A select code of a tile input is out of range. -/
def tiCodeBad (c : Nat) : Bool := decide (174 ≤ c) && decide (c ≤ 254)

/-- A tile decodes an out-of-range select code. -/
def Dev.badCode (d : Dev) (t : Nat) : Bool :=
  decide (d.tf t 3 400 2 = 3) ||
    (List.range 160).any (fun j => trackCodeBad (d.trackCode t (j / 40) (j % 40))) ||
    (List.range 8).any (fun k => tiCodeBad (d.tiCode t k)) ||
    (List.range 4).any (fun k => let c := d.tcCode t k; decide (247 ≤ c ∧ c ≤ 254))

/-- The keepers of a tile take the last values driven where a change of its frames leaves no source (R229): `b` is the device
before the change. -/
def Dev.keepTile (b d : Dev) (t : Nat) : Dev :=
  d.setFab (fun f =>
    let f := (List.range 160).foldl (fun f j =>
      if trackCodeBad (d.trackCode t (j / 40) (j % 40)) && !(trackCodeBad (b.trackCode t (j / 40) (j % 40))) then
        { f with keep := tset f.keep 0 (trackKey t (j / 40) (j % 40)) (b.trackVal hops t (j / 40) (j % 40)) }
      else f) f
    (List.range 8).foldl (fun f k =>
      if tiCodeBad (d.tiCode t k) && !(tiCodeBad (b.tiCode t k)) then
        { f with keep := tset f.keep 0 (2 ^ 16 + 8 * t + k) (b.ti t k) }
      else f) f)

/-- The brim value of a track (R251): `v` is the last value delivered. -/
def brimVal (code v : Nat) (word : Bool) : Nat :=
  match code with
  | 0 => 0
  | 1 => if word then m24 - 1 else 1
  | _ => v

/-- What a border track delivers to the crossing at an edge of the destination region (R230, R251). -/
def Dev.borderVal (d : Dev) (t dir k s : Nat) : Nat :=
  let n := tileRegion s
  let code := (if d.brim n then d.brimEntry n (tileIndex s) (opposite dir) k else d.trackEntry n (tileIndex s) (opposite dir) k) % 4
  if d.fsel n = 0 then 0
  else if d.brim n = true ∨ d.brim (tileRegion t) = true then
    brimVal code (tget d.fab.brimHold 0 (trackKey t dir k)) (decide (k < 24))
  else d.trackVal hops s (opposite dir) k

/-- The border tracks that arrive at region `n`: destination tile, direction, track, source tile. -/
def borderTracks (n : Nat) : List (Nat × Nat × Nat × Nat) :=
  ((List.range 16).map (fun i => tileOf n i)).flatMap (fun t =>
    (List.range 4).flatMap (fun dir => (List.range 40).filterMap (fun k =>
      match tileAway t dir (trackLen k) with
      | none => none
      | some s => if tileRegion s = n then none else some (t, dir, k, s))))

/-- The crossings of a region take a value each; the one they show is 2 or 3 edges old (R230). -/
def Dev.crossEdge (d : Dev) (n : Nat) : Fab :=
  (borderTracks n).foldl (fun f x =>
    let key := trackKey x.1 x.2.1 x.2.2.1
    let v := d.borderVal x.1 x.2.1 x.2.2.1 x.2.2.2
    let old := tget d.fab.cross [] key
    let hist := (v :: old.tail).take 3
    let lat := crossCycles (d.freeAt (2 ^ 19 + key))
    let l := hist.getD (lat - 1) 0 :: hist
    { f with
      cross := tset f.cross [] key (if l.all (fun z => decide (z = 0)) then [] else l)
      brimHold := tset f.brimHold 0 key v }) d.fab

end Sys2Proof.Machine
end

