-- ==== Sys2Proof/Machine/Stream.lean ====
section
/-! DEFINITION. The ports of a region (R233 to R240): stream ports, output queues and the framer behind them, memory
ports, events, line-boundary pulses and cuffs, and one edge of a region clock (R217). -/

namespace Sys2Proof.Machine

def Dev.setSi (d : Dev) (n p : Nat) (x : SiPort) : Dev :=
  d.setFab (fun f => { f with si := tset f.si .reset (4 * d.inRgn n + p) x })

def Dev.soPort (d : Dev) (n p : Nat) : SoPort := tget d.fab.so .reset (4 * n + p)

def Dev.setSo (d : Dev) (n p : Nat) (x : SoPort) : Dev := d.setFab (fun f => { f with so := tset f.so .reset (4 * n + p) x })

/-! Lines into a region (R233 to R236, R255) -/

/-- Pixels per channel of a delivered line (R234 SOL3). -/
def LineOut.perChannel (o : LineOut) : Nat := if o.data = 2 then ceilDiv o.npix (if o.bin = 1 then 2 else if o.bin = 2 then 4 else 1) else o.npix

/-- The words of the line-start marker (R234). -/
def solWords (o : LineOut) (pdrop : Bool) : List FabWord :=
  let tag : LineTag := ⟨o.head, o.num, o.s, o.pos, o.gap || pdrop, o.stale⟩
  [⟨.sol, o.head + o.data * 2 ^ 5 + b2n o.gap * 2 ^ 7 + b2n o.stale * 2 ^ 8 + b2n pdrop * 2 ^ 9 + o.mask * 2 ^ 10,
      some tag⟩,
    ⟨.sol, o.num % 2 ^ 24, none⟩, ⟨.sol, o.num / 2 ^ 24 % 2 ^ 8, none⟩, ⟨.sol, o.perChannel % 2 ^ 14, none⟩]

/-- A DATA word (R140). -/
def dataWord (p : OutPix) : FabWord :=
  ⟨.data, p.val % 2 ^ 16 + b2n p.ovr * 2 ^ 16 + b2n p.defect * 2 ^ 17 + b2n p.edge * 2 ^ 18 + p.chan * 2 ^ 19, none⟩

/-- The statistics record (R140). -/
def statWords (s : StatSet) : List FabWord :=
  ([s.min, s.max, s.sum % 2 ^ 24, s.sum / 2 ^ 24 % 2 ^ 8, s.cnt, 0, 0] ++ (List.range 256).map (fun i => tget s.hist 0 i)).map
    (fun v => ⟨.stat, v, none⟩)

/-- A line as it arrives at a port (R234). -/
def lineWords (o : LineOut) (pdrop : Bool) : List FabWord :=
  solWords o pdrop ++ o.stream.map dataWord ++ (if o.streamRec then statWords o.stats else []) ++
    [⟨.eol, b2n (o.stream.any (fun p => p.ovr)) + b2n o.streamRec * 2, none⟩]

/-- A region is under reconfiguration (R250). -/
def Dev.reconfig (d : Dev) (n : Nat) : Bool :=
  decide (d.rgnState n = rsLOADING) || decide (d.rgnState n = rsSTARTING) || decide (d.rgnState n = rsEMPTY)

/-- A DISCARD marker for each output port fed by the input port (R255). -/
def Dev.discardMarkers (d : Dev) (n p : Nat) (o : LineOut) : Dev :=
  let tag : LineTag := ⟨o.head, o.num, o.s, o.pos, o.gap, o.stale⟩
  (List.range 4).foldl (fun d q =>
    if d.soMsrc n q = p then
      d.setFab (fun f => { f with lines := f.lines ++
        [{ region := n, port := q, tag := some tag, tb := o.s, words := [], eol := 0, ovf := false, trunc := false
           discard := true, mismatch := false, cyc := .none, sig := 0, pol := 0, verdict := true }] })
    else d) d

/-- The crossing into a port is full: the region has not taken its words (R20, R22). A line goes in as one step, so the words of
the lines before it are what fills it (log 60, DESIGN CHOICE). -/
def SiPort.full (x : SiPort) : Bool := decide (Crossing.pixels.depth ≤ x.words.length)

/-- A line meets its port (R22, R236, R255). -/
def Dev.lineArrives (d : Dev) (n p : Nat) (o : LineOut) : Dev :=
  let halves := if d.paired then [n, n + 8] else [n]
  let x := d.siPort n p
  if d.reconfig n then
    let d := halves.foldl (fun d m => d.inc FAB_SIDROP_DISCARD m 1) d
    ((d.setSi n p { x with pdrop := true }).inc PCU_DROPCNT_STREAM (groupOf o.head) 1).discardMarkers n p o
  else if d.cellsRun n && !x.full then d.setSi n p { x with words := x.words ++ lineWords o x.pdrop, pdrop := false }
  else
    let d := halves.foldl (fun d m => d.inc FAB_SIDROP_DROP m 1) d
    (d.setSi n p { x with pdrop := true }).inc PCU_DROPCNT_STREAM (groupOf o.head) 1

/-- The part of a finished line that goes to a stream port has been told; the lane part may remain. -/
def Dev.takeStream (d : Dev) (o : LineOut) : Dev :=
  d.setPcu (fun p => { p with outs := p.outs.filterMap (fun x =>
    if x = o then (if x.lane.isSome then some { x with region := none } else none) else some x) })

/-- The oldest finished line of a head reaches its region (R233, R236). -/
def Dev.streamArrival (d : Dev) (h : Nat) : Dev :=
  match d.pcu.outs.find? (fun o => decide (o.head = h) && o.region.isSome) with
  | none => d
  | some o =>
    let d := d.takeStream o
    match o.region, o.port with
    | some n, some p => d.lineArrives n p o
    | _, _ => d.inc PCU_DROPCNT_STREAM (groupOf h) 1

/-! Output ports (R237, R238, R412) -/

/-- The words that a port takes in the present cycle, in the order of R238: SOL, DATA, EOL. -/
def Dev.soTakes (d : Dev) (n p : Nat) : List FabWord × List (Nat × Nat) :=
  let m := d.soMsrc n p
  let now := if m < 4 then (d.siPort n m).now else none
  let sol : List FabWord := match now with
    | some w => if w.kind = .sol then [w] else []
    | none => []
  let data := if tbit d.fab.wen n && (d.rcell n (d.soV1 n p)).2 && (d.rcell n (d.soV2 n p)).2 then
      [(⟨.data, (d.rcell n (d.soWsel n p)).1, none⟩ : FabWord)] else []
  let x := d.soPort n p
  let timers : List (Nat × Nat) := match now with
    | some w => if w.kind = .eol then x.eols ++ [(d.ifEdly n, w.val)] else x.eols
    | none => x.eols
  let eol := (timers.filter (fun e => decide (e.1 = 0))).map (fun e => (⟨.eol, e.2, none⟩ : FabWord))
  (sol ++ data ++ eol, (timers.filter (fun e => decide (e.1 ≠ 0))).map (fun e => (e.1 - 1, e.2)))

/-- A line or packet is complete at a port and goes on to the lane, or waits for its verdict (R265). -/
def Dev.closeLine (d : Dev) (n p eol : Nat) (trunc : Bool) : Dev :=
  let x := d.soPort n p
  let line : FabLine :=
    { region := n, port := p, tag := x.tag, tb := (match x.tag with
        | some t => t.s
        | none => x.firstTb)
      words := x.words, eol := eol, ovf := tbit eol 2, trunc := trunc, discard := false, mismatch := false
      cyc := x.marks.headD x.mism, sig := Nat.xor (x.sigs.headD x.crc) 0xFFFFFFFF, pol := x.pol, verdict := !d.paired }
  (d.setFab (fun f => { f with lines := f.lines ++ [line] })).setSo n p
    { x with tag := none, words := [], marks := x.marks.tail, sigs := x.sigs.tail, firstNow := 0, firstTb := 0 }

/-- A word leaves the queue for the framer (R238, R412). -/
def Dev.soDrain (d : Dev) (n p : Nat) : Dev :=
  let x := d.soPort n p
  match x.queue with
  | [] => d
  | w :: rest =>
    let d := d.setSo n p { x with queue := rest }
    let x := d.soPort n p
    match w.kind with
    | .sol =>
      if w.tag.isSome then
        let d := if x.tag.isSome then d.closeLine n p 4 false else d
        d.setSo n p { d.soPort n p with tag := w.tag, words := [], pol := d.rf RGN_GAUNTLET_POLICY 0 }
      else d
    | .data =>
      if d.soMsrc n p = 15 then
        let first := x.words.isEmpty
        let d := d.setSo n p { x with
          words := x.words ++ [w.val], firstNow := if first then d.now else x.firstNow, firstTb := if first then d.t else x.firstTb }
        if 1024 ≤ x.words.length + 1 then d.closeLine n p 0 false else d
      else if x.tag.isSome then d.setSo n p { x with words := x.words ++ [w.val] }
      else d
    | .eol => if x.tag.isSome then d.closeLine n p w.val false else d
    | .stat => d

/-- A taken word or marker enters the queue, or is lost (R238); the signature follows it in paired mode (R264). -/
def Dev.soEnqueue (d : Dev) (n p : Nat) : Dev :=
  let x := d.soPort n p
  match x.pend with
  | [] => d
  | w :: rest =>
    if 8 ≤ x.queue.length then (d.setSo n p { x with pend := rest, ovf := true }).inc FAB_SOOVF_WORDS n 1
    else
      let v := if w.kind = .eol then setBit w.val 2 x.ovf else w.val
      let crc := crcBytes (if w.tag.isSome then 0xFFFFFFFF else x.crc) (leBytes 3 v)
      d.setSo n p { x with
        pend := rest, queue := x.queue ++ [{ w with val := v }], ovf := if w.kind = .eol then false else x.ovf
        crc := crc, signs := w.tag.isSome || (x.signs && decide (w.kind ≠ .eol))
        sigs := x.sigs ++ (if w.tag.isSome then (if x.signs then [x.crc] else []) else if w.kind = .eol then [crc] else []) }

/-- A FREE packet closes 10 us after its first word (R412). -/
def Dev.freeTimeout (d : Dev) (n p : Nat) : Dev :=
  let x := d.soPort n p
  if d.soMsrc n p = 15 ∧ x.words ≠ [] ∧ x.firstNow + 10000 ≤ d.now then d.closeLine n p 0 false else d

/-! Memory ports (R239) and events (R240) -/

/-- The request a memory port makes in the present cycle. -/
def Dev.mpSignal (d : Dev) (n m : Nat) : Option MpReq :=
  if tbit d.fab.wen n && (d.rcell n (d.mpCell n m 1)).2 then
    some { write := (d.rcell n (d.mpCell n m 2)).2, addr := (d.rcell n (d.mpCell n m 0)).1 % 2 ^ 20
           data := (d.rcell n (d.mpCell n m 3)).1 + (d.rcell n (d.mpCell n m 4)).1 * 2 ^ 24 +
             (d.rcell n (d.mpCell n m 5)).1 % 2 ^ 16 * 2 ^ 48 }
  else none

def Dev.pushReq (d : Dev) (n m : Nat) (q : MpReq) : Dev :=
  d.setFab (fun f => { f with mpOut := tset f.mpOut [] (portKey m n) (tget f.mpOut [] (portKey m n) ++ [q]) })

/-- The read data of a memory port that come into the next cycle. -/
def Dev.mpAdvance (d : Dev) (n m : Nat) : Dev :=
  let k := portKey m n
  match tget d.bank.rets [] k with
  | [] => d.setFab (fun f => { f with mpNow := tset f.mpNow none k none })
  | r :: rest =>
    if r.ready then
      (d.setBank (fun b => { b with rets := tset b.rets [] k rest })).setFab (fun f => { f with
        mpNow := tset f.mpNow none k (some r) })
    else d.setFab (fun f => { f with mpNow := tset f.mpNow none k none })

/-- An event of output `e` at TB `tb` waits to be posted. -/
def Dev.pushEvent (d : Dev) (n e r tb : Nat) : Dev :=
  if tbit (d.rf FAB_EVCFG_EN n) e then
    d.setFab (fun f => { f with evPend := tset f.evPend [] n (tget f.evPend [] n ++ [(e + r * 256, tb)]) })
  else d

/-- The oldest event of a region is posted, or withheld within 1 us of the previous one of its output (R240). -/
def Dev.eventOutput (d : Dev) (n : Nat) : Dev :=
  match tget d.fab.evPend [] n with
  | [] => d
  | (v, tb) :: rest =>
    let k := 4 * n + v % 4
    let last := tget d.fab.evLast 0 k
    let d := d.setFab (fun f => { f with evPend := tset f.evPend [] n rest })
    if last ≠ 0 ∧ tb < last - 1 + 1000 then d.inc FAB_EVCFG_SUPP n 1
    else (d.setFab (fun f => { f with evLast := tset f.evLast 0 k (tb + 1) })).postAt .edge (0x100 + n) v tb

/-! Cuffs (R241, R242) -/

/-- The frame that would hold the settings of the cuff of a pin. -/
def cuffFrame (q : Nat) : Nat := 10752 + q

/-- Mode of the cuff of a pin: 0 BYPASS, 1 to 3 SER2, SER4, SER8, 4 to 6 DES2, DES4, DES8. -/
def Dev.cuffMode (d : Dev) (q : Nat) : Nat := Config.cuffField 0 q (d.frame (cuffFrame q)) % 7

def Dev.cuffDiv (d : Dev) (q : Nat) : Nat := Config.cuffField 1 q (d.frame (cuffFrame q)) % 16 + 1

def Dev.cuffCell (d : Dev) (q : Nat) : Nat := Config.cuffField 2 q (d.frame (cuffFrame q)) % 256

def Dev.cuffSlip (d : Dev) (q : Nat) : Nat := Config.cuffField 3 q (d.frame (cuffFrame q)) % 256

/-- Bits of a SER or DES mode. -/
def cuffBits (mode : Nat) : Nat := 2 ^ ((mode - 1) % 3 + 1)

/-- What the cuff of a pin puts out in the present cycle, before the brim: a level, or the word a SER cuff takes. -/
def Dev.cuffSignal (d : Dev) (n q : Nat) : Nat :=
  let m := d.cuffMode q
  let c := d.rcell n (d.cuffCell q)
  if m = 0 then b2n c.2 else if m < 4 then c.1 % 2 ^ cuffBits m else 0

/-- The value of a clamped cuff output (R251). -/
def Dev.cuffBrimVal (d : Dev) (n q v : Nat) : Nat :=
  match d.cuffBrim n q with
  | 0 => 0
  | 1 => if d.cuffMode q = 0 then 1 else 2 ^ cuffBits (d.cuffMode q) - 1
  | _ => v

/-- Words on their way move on by a cycle; those that arrive are taken in turn. -/
def shiftDue (l : List (Nat × Nat)) (v : Nat) : List (Nat × Nat) × Nat :=
  ((l.filter (fun e => decide (1 < e.1))).map (fun e => (e.1 - 1, e.2)),
    ((l.filter (fun e => decide (e.1 ≤ 1))).getLast?.map (fun e => e.2)).getD v)

/-- The cuff of a pin at an edge of its region: `sig` is what the region puts out, `raw` the bits a DES cuff has received
since its last word. -/
def Dev.cuffEdge (d : Dev) (n q sig raw : Nat) : Dev :=
  let m := d.cuffMode q
  let c := d.cuff q
  let div := d.cuffDiv q
  let des := shiftDue c.des c.val
  let ser := shiftDue c.ser c.out
  let w := cuffBits m
  let word := c.ser.any (fun e => decide (e.1 ≤ 1))
  let slips := c.slips || ((d.rcell n (d.cuffSlip q)).2 && tbit d.fab.wen n)
  let c := { c with
    des := des.1, val := des.2, ser := ser.1, out := if m = 0 then sig else ser.2, slips := slips
    since := if word then d.now else c.since }
  let c :=
    if c.left ≠ 0 then { c with left := c.left - 1 }
    else if m = 0 then c
    else if m < 4 then { c with left := div - 1, ser := c.ser ++ [(2 * div, sig)] }
    else
      let slip := if slips then (c.slip + 1) % w else c.slip
      let word := (c.prev + raw % 2 ^ w * 2 ^ w) / 2 ^ c.slip % 2 ^ w
      { c with left := div - 1, prev := raw % 2 ^ w, slip := slip, slips := false, des := c.des ++ [(2 * div + 2, word)] }
  d.setFab (fun f => { f with cuffs := tset f.cuffs .reset q c })

/-- The level a cuff sends now (R241, R242): in SER modes the bits of its word, bit 0 first, in equal parts of the `CDIV`
cycles of the word. -/
def Dev.cuffLevel (d : Dev) (n q : Nat) : Bool :=
  let c := d.cuff q
  let m := d.cuffMode q
  if m = 0 ∨ 4 ≤ m then tbit c.out 0
  else
    let w := cuffBits m
    tbit c.out (min (w - 1) (2 * (d.now - c.since) * w / max 1 (d.cuffDiv q * period2 (d.fsel n))))

/-- The cuffs of a region whose cells go into reset send 0, and words on their way are gone (R242, R243); behind a clamped brim
the brim gives what they send (R251). -/
def Dev.cuffsReset (d : Dev) (n : Nat) : Dev :=
  d.setFab (fun f => (List.range 64).foldl (fun f q =>
    if d.pinOwned n q then
      let c := d.cuff q
      { f with cuffs := tset f.cuffs .reset q { c with ser := [], out := if d.brim n then c.out else 0 } }
    else f) f)

/-! One edge of a region clock -/

/-- Scratchpad reads and the write of a tile at an edge (R227, R284, R285). -/
def State.spEdge (s : State) (d : Dev) (t : Nat) (errs : List (Nat × MemEcc)) : State :=
  let ecc (port : Nat) : MemEcc := ((errs.find? (fun e => decide (e.1 = 2 * t + port))).map (fun e => e.2)).getD .clean
  let we := d.spBwe t && tbit d.fab.wen (tileRegion t)
  let s := if we then s.spWrite t (d.spBaddr t) (d.spBdata t) else s
  let a := s.spRead t (d.spAaddr t) (ecc 0)
  let b := if we then (a.1, d.spBdata t) else a.1.spRead t (d.spBaddr t) (ecc 1)
  { b.1 with dev := b.1.dev.setFab (fun f => { f with spa := tset f.spa 0 t a.2, spb := tset f.spb 0 t b.2 }) }

/-- The cells, sequencer and delayed inputs of a tile after an edge. `d` is the device before the edge. -/
def tileEdge (d : Dev) (t : Nat) (f : Fab) : Fab :=
  let ctx := d.ctx t
  let f := (List.range 16).foldl (fun f i =>
    let x := d.cellEdge t ctx i
    { f with cells := tset f.cells (0, false) (16 * t + i) x.1, pipe := tset f.pipe none (16 * t + i) x.2 }) f
  let f := { f with seq := tset f.seq (0, 0) t (d.seqNext t) }
  (List.range 4).foldl (fun f k =>
    { f with tc := tset f.tc 0 (4 * t + k) ((2 * tget f.tc 0 (4 * t + k) + b2n (d.tcRaw (d.trackVal hops) t k)) % 128) }) f

/-- The route registers of a tile after an edge (R228). -/
def routeEdge (d : Dev) (t : Nat) (f : Fab) : Fab :=
  (List.range 4).foldl (fun f dir => (List.range 8).foldl (fun f j =>
    let k := 16 + j
    if d.hasRouteReg t dir k then
      { f with route := tset f.route 0 (trackKey t dir k) (d.arrivingEnd (d.trackVal hops) t dir k) }
    else f) f) f

/-- Active cells of a region in the present cycle (R245). -/
def Dev.activeCells (d : Dev) (n : Nat) : Nat :=
  if tbit d.fab.wen n = false then 0
  else
  ((List.range 256).filter (fun c => let t := tileOf n (c / 16); (d.cellCompute t (d.ctx t) (c % 16)).2)).length

/-- The fabric of region `n` after an edge of its clock: cells, crossings and activity. -/
def Dev.regionFab (d : Dev) (n : Nat) : Fab :=
  let tiles := (List.range 16).map (fun i => tileOf n i)
  let f := d.crossEdge n
  let f := tiles.foldl (fun f t => routeEdge d t (tileEdge d t f)) f
  { f with actNow := tset f.actNow 0 n (tget f.actNow 0 n + d.activeCells n) }

/-! Pins owned by a region (R398, R400) -/

def Dev.pad (d : Dev) (p : Nat) : Pad := tget d.gpio.pads .reset p

/-- A switch whose second edge has come is over; one requested meanwhile starts at the next edge. -/
def Pad.settle (x : Pad) (now : Nat) : Pad :=
  match x.switch with
  | none => x
  | some (dst, at_) =>
    if now < at_ then x
    else
      match x.next with
      | none => { x with func := dst, switch := none }
      | some n =>
        if n = dst then { x with func := dst, switch := none, next := none }
        else if now < at_ + 30 then { x with func := dst, switch := some (n, at_ + 30), next := none }
        else { x with func := n, switch := none, next := none }

/-- The function that stands at a pin now: none while a switch runs. -/
def Dev.padFunc (d : Dev) (p : Nat) : Option Nat :=
  let x := (d.pad p).settle d.now
  if x.switch.isSome then none else some x.func

/-- The region has the input side of a pin: the pin is released, and FAB is the function that stands at it (R398, R400). -/
def Dev.pinInput (d : Dev) (n q : Nat) : Bool :=
  d.pinOwned n q && d.gpio.released && !d.gpio.asleep && !d.gpio.extest && decide (d.padFunc q = some 2)

/-- What a region sees of its pins: `pads` are the levels at the balls, inverted under INV; a pin whose input side it has not reads
its idle level 0. -/
def Dev.pinsSeen (d : Dev) (n pads : Nat) : Nat :=
  (List.range 64).foldl (fun m q => setBit m q (d.pinInput n q && (tbit pads q != d.on GPIO_PAD_INV q))) 0

/-- The ports that give the region its inputs move on (R234, R239, R240). -/
def Dev.inputsEdge (d : Dev) (n pads : Nat) : Dev :=
  let d := (List.range 4).foldl (fun d p =>
    let x := d.siPort n p
    d.setSi n p { x with now := x.words.head?, words := x.words.tail }) d
  let d := (d.mpAdvance n 0).mpAdvance n 1
  let due := d.fab.lb.filter (fun e => decide (e.1 = n) && decide (e.2.2 ≤ 1))
  d.setFab (fun f => { f with
    lb := (f.lb.filter (fun e => decide (e.1 ≠ n) || decide (1 < e.2.2))).map (fun e =>
      if e.1 = n then (e.1, e.2.1, e.2.2 - 1) else e)
    lbNow := tset f.lbNow 0 n (due.foldl (fun m e => setBit m e.2.1 true) 0)
    padSync := tset f.padSync (0, 0) n (d.pinsSeen n pads, (tget f.padSync (0, 0) n).1) })

/-- What a region puts out in a cycle, toward the hard blocks (R262). -/
structure Signals where
  takes : List (List FabWord)
  mps : List (Option MpReq)
  cuffs : List (Nat × Nat)
deriving DecidableEq, Repr

/-- Pins whose cuff the region owns. -/
def Dev.ownPins (d : Dev) (n : Nat) : List Nat := (List.range 64).filter (fun q => d.pinOwned n q)

def Dev.signals (d : Dev) (n : Nat) : Signals :=
  { takes := (List.range 4).map (fun p => (d.soTakes n p).1), mps := [d.mpSignal n 0, d.mpSignal n 1]
    cuffs := (d.ownPins n).map (fun q => (q, d.cuffSignal n q)) }

/-- How the halves of a pair differ in a cycle, for an output port (R263): on the port itself, or on another signal, which marks
the next line to open where no line is open on any port of the pair. -/
structure Differs where
  now : Mismatch
  next : Bool
deriving DecidableEq, Repr

/-- A word that a port forwards opens or ends a line of the compare stage. -/
def SoPort.follows (x : SoPort) (m : Mismatch) (w : FabWord) : SoPort :=
  let worse (a : Mismatch) : Mismatch := if a = .none then m else a
  if w.tag.isSome then { x with forwards := true, mism := worse (if x.markNext then .other else .none), markNext := false }
  else if w.kind = .eol ∧ x.forwards = true then { x with forwards := false, mism := .none, marks := x.marks ++ [x.mism] }
  else x

/-- The words taken in a cycle join the port, marked as the compare stage finds (R263). -/
def SoPort.takes (x : SoPort) (ws : List FabWord) (eols : List (Nat × Nat)) (f : Differs) : SoPort :=
  let x := if x.forwards = true ∧ x.mism = .none then { x with mism := f.now } else x
  let x := ws.foldl (fun x w => x.follows f.now w) { x with pend := x.pend ++ ws, eols := eols }
  { x with markNext := x.markNext || f.next }

/-- The words taken join the port, and a word drains to the framer (R238). -/
def Dev.portsEdge (before d : Dev) (n : Nat) (f : Nat → Differs) : Dev :=
  (List.range 4).foldl (fun d p =>
    let x := before.soTakes n p
    (d.setSo n p ((d.soPort n p).takes (if before.brim n then [] else x.1) x.2 (f p))).soDrain n p) d

/-- Rising event outputs after an edge (R240): the output and R. -/
def Dev.eventsEdge (before after : Dev) (n : Nat) : List (Nat × Nat) :=
  if after.brim n then []
  else (List.range 4).filterMap (fun e =>
    let c := after.rcell n (after.evCell n e)
    if c.2 && !(before.rcell n (before.evCell n e)).2 then some (e, c.1) else none)

/-- Memory requests of a region go to their crossings, unless its brim clamps. -/
def Dev.requestsEdge (d : Dev) (n : Nat) (l : List (Option MpReq)) : Dev :=
  if d.brim n then d
  else (List.range 2).foldl (fun d m => match l.getD m none with
    | some q => d.pushReq n m q
    | none => d) d

/-- The raw bits that a DES cuff of a pin has received. -/
def rawOf (raw : List (Nat × Nat)) (q : Nat) : Nat := ((raw.find? (fun e => decide (e.1 = q))).map (fun e => e.2)).getD 0

/-- The bits that a DES cuff takes of those at its ball: inverted under INV, 0 where the region has not the input side of the pin. -/
def Dev.rawSeen (d : Dev) (n q raw : Nat) : Nat :=
  let w := 2 ^ cuffBits (d.cuffMode q)
  if d.pinInput n q then (if d.on GPIO_PAD_INV q then w - 1 - raw % w else raw) else 0

/-- The cuffs of a region at an edge; clamped outputs give their brim value. -/
def Dev.cuffsEdge (d : Dev) (n : Nat) (l raw : List (Nat × Nat)) : Dev :=
  l.foldl (fun d e =>
    let v := if d.brim n then d.cuffBrimVal n e.1 (d.cuff e.1).out else e.2
    d.cuffEdge n e.1 v (d.rawSeen n e.1 (rawOf raw e.1))) d

/-- Event output 0 of the lowest named region fires an EVENT snapshot (R246). -/
def Dev.snapEvent (d : Dev) (n : Nat) (evs : List (Nat × Nat)) : Dev :=
  if d.on FAB_SNAPSTAT_ARMED 0 = true ∧ d.rf FAB_SNAPCTRL_TRIG 0 = 3 ∧
      (setBitsOf 16 (d.rf FAB_SNAPCTRL_REGIONS 0)).head? = some n ∧ evs.any (fun e => decide (e.1 = 0)) = true then
    d.setFab (fun f => { f with snapFired := true })
  else d

/-- The cells and scratchpads of a region at an edge. -/
def State.cellsEdge (s : State) (n : Nat) (errs : List (Nat × MemEcc)) : State :=
  let d := s.dev
  let s := { s with dev := { d with fab := d.regionFab n } }
  (List.range 16).foldl (fun s i => s.spEdge d (tileOf n i) errs) s

/-- An edge of a region in standard mode. -/
def State.regionEdge (s : State) (n pads : Nat) (raw : List (Nat × Nat)) (errs : List (Nat × MemEcc)) : State :=
  let b := s.dev
  let sg := b.signals n
  let s := s.cellsEdge n errs
  let evs := Dev.eventsEdge b s.dev n
  let d := Dev.portsEdge b s.dev n (fun _ => ⟨.none, false⟩)
  let d := (d.requestsEdge n sg.mps).cuffsEdge n sg.cuffs raw
  let d := evs.foldl (fun d e => d.pushEvent n e.1 e.2 d.t) d
  { s with dev := ((d.snapEvent n evs).inputsEdge n pads) }

/-! Paired mode (R262 to R269) -/

/-- Compare runs for a pair: both regions RUNNING, unfrozen and clocked (R269). -/
def Dev.comparing (d : Dev) (n : Nat) : Bool :=
  decide (d.rgnState n = rsRUNNING) && decide (d.rgnState (n + 8) = rsRUNNING) && !(d.brim n) && !(d.brim (n + 8)) &&
    d.cellsRun n && d.cellsRun (n + 8)

/-- The half that drives under a policy: 0 A, 1 B, none (R262). -/
def Dev.drivingBy (d : Dev) (n pol : Nat) : Option Nat :=
  match d.on RGN_STAT_SUSPECT n, d.on RGN_STAT_SUSPECT (n + 8) with
  | true, true => none
  | true, false => some 1
  | false, true => some 0
  | false, false => if pol = 2 then some 1 else some 0

/-- The half that drives under the policy in force. -/
def Dev.driving (d : Dev) (n : Nat) : Option Nat := d.drivingBy n (d.rf RGN_GAUNTLET_POLICY 0)

/-- What the stage finds in a cycle for output port `p` of pair `n` (R263). -/
def Dev.differs (d : Dev) (n : Nat) (a b : Signals) (evDiff : Bool) (p : Nat) : Differs :=
  let opens (q : Nat) : Bool := (d.soPort n q).forwards || (a.takes.getD q []).any (fun w => w.tag.isSome)
  let other := decide (a.mps ≠ b.mps) || decide (a.cuffs ≠ b.cuffs) || evDiff
  ⟨if a.takes.getD p [] ≠ b.takes.getD p [] then .port else if other then .other else .none,
    other && !((List.range 4).any opens)⟩

/-- What the stage lets through in a cycle (R262, R263): `b` is the device before the edge, `d` after it. -/
def Dev.pairOut (b d : Dev) (n : Nat) (sa sb : Signals) (ea eb : List (Nat × Nat)) : PairOut :=
  let silent := decide (b.rf RGN_GAUNTLET_POLICY 0 = 0)
  let drv := b.driving n
  let pick {α : Type} (x y : List α) : List α := match drv with
    | some 0 => x
    | some _ => y
    | none => []
  let evs := pick ea eb
  let evs := if silent then evs.filter (fun e => ea.contains e && eb.contains e) else evs
  let clamp (q : Nat) : Nat := b.cuffBrimVal n q (b.cuff q).out
  { mps := pick sa.mps sb.mps, evs := evs.map (fun e => (e.1, e.2, d.t))
    cuffs := sa.cuffs.map (fun e =>
      let vb := rawOf sb.cuffs e.1
      (e.1, if silent = true ∧ e.2 ≠ vb then clamp e.1
        else match drv with
          | some 0 => e.2
          | some _ => vb
          | none => clamp e.1)) }

/-- An edge of a pair (R262, R263): both halves move, and what the driving half puts out reaches the hard blocks 2 cycles
later. -/
def State.pairEdge (s : State) (n pads : Nat) (raw : List (Nat × Nat)) (errs : List (Nat × MemEcc)) : State :=
  let b := s.dev
  let sa := b.signals n
  let sb := b.signals (n + 8)
  let s := (s.cellsEdge n errs).cellsEdge (n + 8) errs
  let ea := Dev.eventsEdge b s.dev n
  let eb := Dev.eventsEdge b s.dev (n + 8)
  let on := b.comparing n
  let f (p : Nat) : Differs := if on then b.differs n sa sb (decide (ea ≠ eb)) p else ⟨.none, false⟩
  let d := Dev.portsEdge b (Dev.portsEdge b s.dev n f) (n + 8) f
  let out : PairOut := if on then b.pairOut s.dev n sa sb ea eb else ⟨[], sa.cuffs, []⟩
  let l := tget d.fab.pairs [] n ++ [out]
  let d := d.setFab (fun f => { f with pairs := tset f.pairs [] n (if l.length ≤ 2 then l else l.tail) })
  let x : PairOut := if l.length ≤ 2 then ⟨[], sa.cuffs.map (fun e => (e.1, 0)), []⟩ else l.headD out
  let d := (d.requestsEdge n x.mps).cuffsEdge n x.cuffs raw
  let d := x.evs.foldl (fun d e => d.pushEvent n e.1 e.2.1 e.2.2) d
  { s with dev := ((d.snapEvent n ea).inputsEdge n pads) }

/-- One edge of the clock of region `n` (R217, R243, R262). -/
def State.wordCellCycle (s : State) (n pads : Nat) (raw : List (Nat × Nat)) (errs : List (Nat × MemEcc)) : State :=
  if s.dev.paired then
    if n < 8 ∧ s.dev.clocked n = true ∧ s.dev.clocked (n + 8) = true then
      let s := s.pairEdge n pads raw errs
      { s with dev := { s.dev with free := s.dev.free + 2 ^ 20 } }
    else s
  else if s.dev.clocked n then
    let s := s.regionEdge n pads raw errs
    { s with dev := { s.dev with free := s.dev.free + 2 ^ 20 } }
  else s

/-- Count a mismatched line of a pair and post its record, subject to MMGAP (R267). -/
def Dev.mismatch (d : Dev) (n p cause num : Nat) : Dev :=
  let d := d.inc RGN_MMCNT_LINES n 1
  let last := tget d.fab.mmLast 0 n
  if last ≠ 0 ∧ d.now < last - 1 + 1000 * d.rf RGN_GAUNTLET_MMGAP 0 then d.inc RGN_MMCNT_SUPP n 1
  else (d.setFab (fun f => { f with mmLast := tset f.mmLast 0 n (d.now + 1) })).post .mismatch (0x110 + n)
    (p + cause * 16 + num % 2 ^ 24 * 256)

/-- The verdict of the oldest line of a port of pair `n` (R264, R265). -/
def Dev.verdict (d : Dev) (n p : Nat) : Dev :=
  let pick (m : Nat) : Option FabLine :=
    d.fab.lines.find? (fun l => decide (l.region = m) && decide (l.port = p) && !l.verdict)
  match pick n, pick (n + 8) with
  | some a, some b =>
    let num := match a.tag with
      | some t => t.num
      | none => 0
    let rest := (d.fab.lines.erase a).erase b
    let d := (d.setFab (fun f => { f with lines := rest })).wf RGN_SIG_SIG (4 * n + p) a.sig
    let sigDiff := decide (a.sig ≠ b.sig)
    let cyc := decide (a.cyc ≠ .none) || decide (b.cyc ≠ .none)
    let q := if cyc = true ∧ a.cyc ≠ .port ∧ b.cyc ≠ .port then 15 else p
    let d := if sigDiff = true ∧ cyc = false then
        (d.wbit RGN_PSTAT_CMPFAULT 0 n true).post .fault (0x110 + n) 15 else d
    let out (l : FabLine) (d : Dev) : Dev := d.setFab (fun f => { f with lines := f.lines ++ [{ l with region := n, verdict := true }] })
    let marker : FabLine := { a with words := [], eol := 0, mismatch := true }
    match d.drivingBy n a.pol with
    | none => (d.mismatch n q 3 num) |> out marker
    | some half =>
      let l := if half = 0 then a else b
      if cyc = false ∧ sigDiff = false then out l d
      else
        let d := d.mismatch n q (if cyc then 1 else 2) num
        if a.pol = 0 then out marker d else out { l with mismatch := true } d
  | _, _ => d

end Sys2Proof.Machine
end

