-- ==== Sys2Proof/Machine/Region.lean ====
section
/-! DEFINITION. Regions: reset, brim, start-up, isolation and suspicion (R243, R250 to R260, R268, R272), frame writes,
and snapshots (R246 to R248). -/

namespace Sys2Proof.Machine

/-! Frames -/

/-- A frame is written: payload and check words are good and a known-bad mark is gone (R304, R328, R332). -/
def Dev.putFrame (d : Dev) (a v : Nat) : Dev :=
  d.setFab (fun f => { f with
    frames := tset f.frames 0 a v, upset := tset f.upset 0 a 0, cwUpset := tset f.cwUpset 0 a 0
    knownBad := f.knownBad.filter (fun x => decide (x ≠ a)) })

/-- A frame address belongs to region `n`. -/
def inRegionFrames (n a : Nat) : Bool := decide (640 * n ≤ a) && decide (a < 640 * n + 640)

/-- The frames of a region take the cleared content (R303). -/
def Dev.clearRegionFrames (d : Dev) (n : Nat) : Dev :=
  d.setFab (fun f => { f with
    frames := f.frames.filter (fun e => !(inRegionFrames n e.1)), upset := f.upset.filter (fun e => !(inRegionFrames n e.1))
    cwUpset := f.cwUpset.filter (fun e => !(inRegionFrames n e.1))
    knownBad := f.knownBad.filter (fun a => !(inRegionFrames n a)) })

/-- The frames of a tile take the cleared content. -/
def Dev.regionBad (d : Dev) (n : Nat) : Bool := d.fab.knownBad.any (inRegionFrames n)

/-- An out-of-range select code decoded in a tile sets its region's bit (R229). -/
def Dev.codeCheck (d : Dev) (t : Nat) : Dev := if d.badCode t then d.wbit FAB_CODESTAT_REGION 0 (tileRegion t) true else d

/-! Reset and brim -/

/-- The region and, in paired mode, the other half of its pair. -/
def Dev.halves (d : Dev) (n : Nat) : List Nat := if d.paired then [n % 8, n % 8 + 8] else [n]

/-- Words of an output port go on to the framer. -/
def Dev.soFlush (d : Dev) (n p : Nat) : Nat → Dev
  | 0 => d
  | k + 1 => ((d.soEnqueue n p).soDrain n p).soFlush n p k

/-- What an output port holds goes to the framer; an open line is closed, with its end marker where that had come, and
TRUNCATED where its words were still arriving (R254). -/
def Dev.soClose (d : Dev) (n p : Nat) : Dev :=
  let x := d.soPort n p
  let d := d.soFlush n p (x.pend.length + x.queue.length)
  let x := d.soPort n p
  let eols := x.eols
  let d := d.setSo n p { x with eols := [] }
  if x.tag.isSome then
    match eols with
    | [] => d.closeLine n p 0 true
    | e :: _ => d.closeLine n p e.2 false
  else d

/-- The compare stage forgets the lines of a port whose cells go into reset (R269). -/
def Dev.soForget (d : Dev) (n p : Nat) : Dev :=
  d.setSo n p { d.soPort n p with
    forwards := false, mism := .none, markNext := false, marks := [], signs := false, sigs := [] }

/-- A key of a map over tiles of region `n`, `k` entries a tile. -/
def ofRegion (n k key : Nat) : Bool := decide (tileRegion (key / k) = n)

/-- The cells of a region go into reset (R243, R254, R260): R and F are 0, sequencers at step 0, a freeze ends, reads on
their way are discarded (R256), and lines that are arriving are cut off. Scratchpads keep their contents. -/
def Dev.regionReset (d : Dev) (n : Nat) : Dev :=
  let d := ((List.range 4).foldl (fun d p => (d.soClose n p).soForget n p) d).cuffsReset n
  let d := if d.inRgn n = n then (List.range 4).foldl (fun d p =>
      let x := d.siPort n p
      d.setSi n p { x with words := [], now := none }) d else d
  let ghost (r : MemReq) : MemReq := match r.who with
    | .region _ k => if k = n ∧ r.write = false then { r with id := r.id + 2 ^ 32 } else r
    | _ => r
  let d := d.setBank (fun m => { m with
    reqs := m.reqs.map ghost, rets := tset (tset m.rets [] (portKey 0 n) []) [] (portKey 1 n) [] })
  let d := d.setFab (fun f => { f with
    cells := f.cells.filter (fun e => !(ofRegion n 16 e.1)), pipe := f.pipe.filter (fun e => !(ofRegion n 16 e.1))
    seq := f.seq.filter (fun e => !(ofRegion n 1 e.1)), tc := f.tc.filter (fun e => !(ofRegion n 4 e.1))
    spa := f.spa.filter (fun e => !(ofRegion n 1 e.1)), spb := f.spb.filter (fun e => !(ofRegion n 1 e.1))
    route := f.route.filter (fun e => !(ofRegion n 160 e.1)), pairs := tset f.pairs [] (n % 8) []
    mpNow := tset (tset f.mpNow none (portKey 0 n) none) none (portKey 1 n) none
    gsr := setBit f.gsr n false, wen := setBit f.wen n false, lb := f.lb.filter (fun e => decide (e.1 ≠ n)) })
  d.wbit FAB_SNAPSTAT_FROZEN 0 n false

/-- What the cuffs of a region send at the clamp stays for the brim value HOLD (R251): a SER cuff repeats the last level. -/
def Dev.cuffsHold (d : Dev) (n : Nat) : Dev :=
  d.setFab (fun f => (List.range 64).foldl (fun f q =>
    if d.pinOwned n q = true ∧ d.cuffMode q ≠ 0 ∧ d.cuffMode q < 4 then
      { f with cuffs := tset f.cuffs .reset q { d.cuff q with
        ser := [], out := if d.cuffLevel n q then 2 ^ cuffBits (d.cuffMode q) - 1 else 0 } }
    else f) f)

/-- The brim of a region clamps (R251, R252): the interface frames of the image that runs govern it. -/
def Dev.clampBrim (d : Dev) (n : Nat) : Dev :=
  if d.brim n then d
  else
    let d := d.cuffsHold n
    let d := (List.range 11).foldl (fun d f =>
      d.setFab (fun b => { b with brimFrames := tset b.brimFrames 0 (ifFrameAddr n f) (d.frame (ifFrameAddr n f)) })) d
    d.wf RGN_STAT_BRIM n 1

def Dev.setRgn (d : Dev) (n st : Nat) : Dev := d.wf RGN_STAT_STATE n st

/-! Suspicion in paired mode (R262, R268) -/

/-- `RGN.PSTAT` shows the suspects of pair `n` and whether a half drives. -/
def Dev.pstat (d : Dev) (n : Nat) : Dev :=
  let a := d.on RGN_STAT_SUSPECT n
  let b := d.on RGN_STAT_SUSPECT (n + 8)
  ((d.wbit RGN_PSTAT_SUSPA 0 n a).wbit RGN_PSTAT_SUSPB 0 n b).wbit RGN_PSTAT_SILENT 0 n (a && b)

/-- Region `m` becomes or ceases to be suspect. -/
def Dev.setSuspect (d : Dev) (m : Nat) (v : Bool) : Dev := (d.wf RGN_STAT_SUSPECT m (b2n v)).pstat (m % 8)

/-! Start-up of a region (R243) -/

/-- GSRREL (R243): the cells take INIT and INITF, the sequencers start at step 0. -/
def Dev.gsrRelease (d : Dev) (n : Nat) : Dev :=
  let init (f : Fab) (t : Nat) : Fab := (List.range 16).foldl (fun f i =>
    { f with cells := tset f.cells (0, false) (16 * t + i) (d.tf t 3 (25 * i) 24, decide (d.tf t 3 (25 * i + 24) 1 = 1)) }) f
  d.setFab (fun f =>
    let g := ((List.range 16).map (fun i => tileOf n i)).foldl init f
    { g with seq := g.seq.filter (fun e => !(ofRegion n 1 e.1)), gsr := setBit g.gsr n true })

/-- WEN (R243): the cells execute. -/
def Dev.wenRelease (d : Dev) (n : Nat) : Dev := d.setFab (fun f => { f with wen := setBit f.wen n true })

/-- The brim releases (R252): reload requests and suspicion end where no known-bad frame of the region is left (R268,
R332). -/
def Dev.releaseBrim (d : Dev) (n : Nat) : Dev :=
  let d := d.wf RGN_STAT_BRIM n 0
  if d.regionBad n then d else (d.wbit SCB_RELOADREQ_REGION 0 n false).setSuspect n false

/-- A region that has been started runs, or stays isolated where its bit of `RGN.ISOLATE` is set (R260, R332). -/
def Dev.regionRuns (d : Dev) (n : Nat) : Dev :=
  if tbit (d.rf RGN_ISOLATE_REGION 0) n then (d.regionReset n).setRgn n rsISOLATED
  else (d.setRgn n rsRUNNING).releaseBrim n

/-- A region goes to STARTING; it reaches DONE after `ns`. -/
def Dev.regionStarts (d : Dev) (n ns : Nat) (load : Bool) : Dev :=
  (d.setRgn n rsSTARTING).setFab (fun f => { f with starts := tset f.starts (0, false) n (d.now + ns, load) })

/-- A region clock that is OFF powers the region down (R216, R254): cells and scratchpads are lost. -/
def State.regionOff (s : State) (n : Nat) : State :=
  ((List.range 16).map (fun i => tileOf n i)).foldl (fun s t => s.zeroed (spAddr t 0) 0x1000)
    { s with dev := ((s.dev.regionReset n).wf FAB_RCLK_FSEL n 0).setRgn n rsOFF }

/-- One region in STARTING reaches DONE (R254). -/
def Dev.regionStarted (d : Dev) (n : Nat) : Dev :=
  let x := tget d.fab.starts (0, false) n
  let d := d.setFab (fun f => { f with starts := tset f.starts (0, false) n (0, false) })
  let d := ((d.gsrRelease n).wenRelease n).regionRuns n
  if x.2 then d.inc RGN_STAT_LOADS n 1 else d

/-- A region, or a pair, reaches DONE of its start-up (R254, R260, R269). -/
def Dev.startupDone (d : Dev) (n : Nat) : Dev :=
  if d.rgnState n = rsSTARTING ∧ (tget d.fab.starts (0, false) n).1 ≤ d.now then
    (d.halves n).foldl (fun d m => d.regionStarted m) d
  else d

/-! Isolation (R260, R272) -/

/-- A region is isolated. -/
def Dev.isolate (d : Dev) (n : Nat) : Dev := (((d.wbit RGN_ISOLATE_REGION 0 n true).clampBrim n).regionReset n).setRgn n rsISOLATED

/-- An isolated region is started again. -/
def Dev.unisolate (d : Dev) (n : Nat) : Dev := (d.wbit RGN_ISOLATE_REGION 0 n false).regionStarts n 1000 false

/-- A change of the region's bit is refused (R272). -/
def Dev.isolateRefused (d : Dev) (n : Nat) : Bool := d.reconfig n || decide (d.rgnState n = rsOFF)

/-- The bits a write asks for; in paired mode the halves of a pair go together (R260). -/
def Dev.isolateWanted (d : Dev) (v : Nat) : Nat :=
  let old := d.rf RGN_ISOLATE_REGION 0
  if d.paired then
    (List.range 8).foldl (fun w n =>
      let b := if tbit v n ≠ tbit old n then tbit v n else tbit v (n + 8)
      setBit (setBit w n b) (n + 8) b) 0
  else v % 2 ^ 16

/-- The bits that a write changes. -/
def Dev.isolateChanges (d : Dev) (v : Nat) : List Nat :=
  (List.range 16).filter (fun n => decide (tbit (d.isolateWanted v) n ≠ tbit (d.rf RGN_ISOLATE_REGION 0) n))

/-- Some bit of the write is refused. -/
def Dev.isolateAnyRefused (d : Dev) (v : Nat) : Bool := (d.isolateChanges v).any (fun n => d.isolateRefused n)

/-- The bits that are not refused take effect. -/
def Dev.isolateWrite (d : Dev) (v : Nat) : Dev :=
  let want := d.isolateWanted v
  ((d.isolateChanges v).filter (fun n => !(d.isolateRefused n))).foldl (fun d n =>
    if tbit want n then d.isolate n else d.unisolate n) d

/-! Snapshots (R246 to R248) -/

/-- A region that a snapshot skips: under reconfiguration, or without a clock. -/
def Dev.snapSkips (d : Dev) (n : Nat) : Bool := d.reconfig n || decide (d.fsel n = 0)

/-- When every region of the armed snapshot has been copied or skipped, it is complete. -/
def Dev.snapSettle (d : Dev) : Dev :=
  if d.on FAB_SNAPSTAT_ARMED 0 then
    let left := (setBitsOf 16 d.fab.snapLeft).filter (fun n => !(d.snapSkips n))
    let d := d.setFab (fun f => { f with snapLeft := left.foldl (fun m n => setBit m n true) 0 })
    if left.isEmpty then (d.wf FAB_SNAPSTAT_ARMED 0 0).wf FAB_SNAPSTAT_DONE 0 1 else d
  else d

/-- A snapshot is armed: the buffer is overwritten. -/
def Dev.snapArm (d : Dev) : Dev :=
  let d := d.setFab (fun f => { f with snap := [], snapLeft := d.rf FAB_SNAPCTRL_REGIONS 0, snapFired := false })
  ((d.wf FAB_SNAPSTAT_ARMED 0 1).wf FAB_SNAPSTAT_DONE 0 0).snapSettle

/-- Why arming is refused (R247). -/
def freezeRefused (d : Dev) (regions : Nat) : Bool :=
  (d.paired && (List.range 8).any (fun n => decide (tbit regions n ≠ tbit regions (n + 8)))) ||
    (setBitsOf 16 regions).any (fun n => d.reconfig n)

def Dev.snapCancel (d : Dev) : Dev :=
  (d.setFab (fun f => { f with snapLeft := 0, snapFired := false })).wf FAB_SNAPSTAT_ARMED 0 0

def Dev.snapResume (d : Dev) : Dev := d.wf FAB_SNAPSTAT_FROZEN 0 0

/-- The trigger of the armed snapshot is met at an edge of region `n`. -/
def Dev.snapTriggered (d : Dev) (n : Nat) : Bool :=
  match d.rf FAB_SNAPCTRL_TRIG 0 with
  | 0 => true
  | 1 => decide (d.rf FAB_SNAPTB_TB 0 + d.rf FAB_SNAPTBH_TBH 0 * 2 ^ 32 ≤ d.t)
  | 2 => tbit (tget d.fab.lbNow 0 (d.inRgn n)) (d.rf FAB_SNAPCTRL_HEAD 0)
  | 3 => d.fab.snapFired
  | _ => false

/-- The entries of a region. -/
def Dev.snapCopy (d : Dev) (n : Nat) : Dev :=
  let put (f : Fab) (t : Nat) : Fab := (List.range 16).foldl (fun f i =>
    let c := d.cell t i
    { f with snap := tset f.snap 0 (16 * t + i) (c.1 + b2n c.2 * 2 ^ 24 + d.ctx t * 2 ^ 25 + (d.seqAt t).1 * 2 ^ 27) }) f
  d.setFab (fun f =>
    let g := ((List.range 16).map (fun i => tileOf n i)).foldl put f
    { g with snapLeft := setBit g.snapLeft n false })

/-- Region `n` has an edge of its clock: powered, clocked and not frozen. -/
def Dev.edgesCome (d : Dev) (n : Nat) : Bool := decide (d.fsel n ≠ 0) && d.domOn (34 + n) && !(d.frozen n)

/-- A region takes the snapshot at its edge (R246, R247). -/
def Dev.snapTake (d : Dev) (n : Nat) : Dev :=
  let d := d.snapSettle
  if d.on FAB_SNAPSTAT_ARMED 0 = true ∧ tbit d.fab.snapLeft n = true ∧ d.edgesCome n = true ∧ d.snapTriggered n = true then
    let lowest := (setBitsOf n (d.rf FAB_SNAPCTRL_REGIONS 0)).all (fun m => d.snapSkips m)
    let e := d.snapCopy n
    let e := if lowest then (e.wf FAB_SNAPAT_TB 0 (d.t % 2 ^ 32)).wf FAB_SNAPATH_TBH 0 (d.t / 2 ^ 32) else e
    let e := if d.on FAB_SNAPCTRL_FREEZE 0 then e.wbit FAB_SNAPSTAT_FROZEN 0 n true else e
    e.snapSettle
  else d

/-- The entry that `FAB.SNAPADDR` names. -/
def Dev.snapEntry (d : Dev) : Nat := tget d.fab.snap 0 (16 * d.rf FAB_SNAPADDR_TILE 0 + d.rf FAB_SNAPADDR_CELL 0)

/-- The address moves to the next cell. -/
def Dev.snapAdvance (d : Dev) : Dev :=
  let k := (16 * d.rf FAB_SNAPADDR_TILE 0 + d.rf FAB_SNAPADDR_CELL 0 + 1) % 4096
  (d.wf FAB_SNAPADDR_TILE 0 (k / 16)).wf FAB_SNAPADDR_CELL 0 (k % 16)

end Sys2Proof.Machine
end

