-- ==== Sys2Proof/Machine/Lanes.lean ====
section
/-! DEFINITION. The result lanes (R408 to R420): packets, FIFOs, sending, flow control and lane states. -/

namespace Sys2Proof.Machine

def Dev.setLan (d : Dev) (f : Lan → Lan) : Dev := { d with lan := f d.lan }

def Dev.lane (d : Dev) (l : Nat) : Lane := tget d.lan.lanes .reset l

def Dev.setLane (d : Dev) (l : Nat) (x : Lane) : Dev := d.setLan (fun a => { a with lanes := tset a.lanes .reset l x })

/-- States of `LAN.STAT.STATE` (R420). -/
def lsOFF : Nat := 0
def lsIDLE : Nat := 1
def lsTRAIN : Nat := 2
def lsRUN : Nat := 3

/-! Bonds (R419) -/

/-- Lanes of a bond of the quad. -/
def bondSize (bond : Nat) : Nat := if bond = 1 then 2 else if bond = 2 then 4 else 1

/-- The number of lanes in the bond of lane `l`. -/
def Dev.bondOf (d : Dev) (l : Nat) : Nat := bondSize (d.rf LAN_QCFG_BOND (l / 4))

/-- The first lane of a bond. -/
def Dev.bondFirst (d : Dev) (l : Nat) : Nat := l / d.bondOf l * d.bondOf l

/-- Bytes of the FIFO of a bond. -/
def Dev.fifoSize (d : Dev) (l : Nat) : Nat := 65536 * d.bondOf l

/-- Bytes a packet takes in the FIFO (R410). -/
def LanePkt.bytes (p : LanePkt) : Nat := 40 + ceilDiv p.payload.length 8 * 8

def Lane.fill (x : Lane) : Nat := x.fifo.foldl (fun n p => n + p.bytes) 0

/-- `LAN.FILL` and `LAN.PEAK` follow the FIFO. -/
def Dev.showFill (d : Dev) (l : Nat) : Dev :=
  let n := min (d.lane l).fill (2 ^ 17 - 1)
  let d := d.wf LAN_FILL_BYTES l n
  if d.rf LAN_PEAK_BYTES l < n then d.wf LAN_PEAK_BYTES l n else d

/-! Packets (R412 to R416) -/

/-- The bits of a position, Q48.16. -/
def posBits (p : Int) : Nat := ux 64 p

/-- How far a line number lies behind `last`. -/
def numBack (last num : Nat) : Nat := (last + (2 ^ 32 - num % 2 ^ 32)) % 2 ^ 32

/-- A line lies among the last 256 of its head (R412). -/
def Dev.tagKept (d : Dev) (h num : Nat) : Bool :=
  decide (numBack (prevNum (d.rf LTG_LINE_LINE h)) num < 256)

/-- Flags of header word 3. -/
def pktFlags (gap trunc discard mismatch ovr stale ovf stats : Bool) : Nat :=
  b2n gap + b2n trunc * 2 + b2n discard * 4 + b2n mismatch * 8 + b2n ovr * 16 + b2n stale * 32 + b2n ovf * 64 +
    b2n stats * 128

/-- The statistics payload (R415). -/
def statBytes (s : StatSet) : List Nat :=
  leBytes 2 s.min ++ leBytes 2 s.max ++ leBytes 4 s.sum ++ leBytes 2 s.cnt ++ List.replicate 6 0 ++
    (List.range 256).flatMap (fun i => leBytes 2 (tget s.hist 0 i))

/-- The packet of a head's line on its direct stream (R412, R414, R415). -/
def LineOut.pkt (o : LineOut) (d : Dev) : LanePkt :=
  { src := 64 + o.head, type := o.laneData, head := o.head, num := o.num, tb := o.s
    pos := if d.tagKept o.head o.num then posBits o.pos else 0
    flags := pktFlags o.gap false false false (o.packet.any (fun p => p.ovr)) o.stale false o.laneStats
    payload := o.packet.flatMap (fun p => leBytes 2 p.val) ++ (if o.laneStats then statBytes o.stats else []) }

/-- The packet of a line or packet of a fabric port (R412, R414, R415). -/
def FabLine.pkt (x : FabLine) (d : Dev) : LanePkt :=
  let src := 4 * x.region + x.port
  let body := x.words.flatMap (leBytes 4)
  match x.tag with
  | none =>
    { src := src, type := 5, head := 31, num := tget d.lan.freeNum 0 src, tb := x.tb, pos := 0
      flags := pktFlags false x.trunc false x.mismatch false false x.ovf false, payload := body }
  | some t =>
    { src := src, type := 4, head := t.head, num := t.num, tb := x.tb
      pos := if d.tagKept t.head t.num then posBits t.pos else 0
      flags := pktFlags t.gap x.trunc x.discard x.mismatch (tbit x.eol 0) t.stale x.ovf false, payload := body }

/-- The header words of a packet (R413). -/
def LanePkt.header (p : LanePkt) (id seq : Nat) : List Nat :=
  [1 + p.type * 2 ^ 4 + id % 32 * 2 ^ 8 + p.head * 2 ^ 13 + p.src * 2 ^ 18 + p.num % 2 ^ 32 * 2 ^ 32, p.tb % 2 ^ 64, p.pos,
    p.flags + seq * 2 ^ 16 + p.payload.length * 2 ^ 32]

/-- Bytes in groups of eight, zero-padded, as 64-bit values. -/
def packBytes : Nat → List Nat → List Nat
  | 0, _ => []
  | _, [] => []
  | n + 1, l => (((l.take 8).foldr (fun b acc => b + 256 * acc) 0)) :: packBytes n (l.drop 8)

/-- The blocks of a packet on lane `l` (R409, R413, R416); `trunc` tells the end marker. -/
def LanePkt.blocks (p : LanePkt) (l id seq : Nat) (trunc : Bool) : List (Nat × Nat) :=
  let hdr := p.header id seq
  let crc := Nat.xor (crcBytes 0xFFFFFFFF (hdr.flatMap (leBytes 8) ++ p.payload)) 0xFFFFFFFF
  [(2, 0x53 + l % 16 * 2 ^ 8)] ++ hdr.map (fun w => (1, w)) ++
    (packBytes (p.payload.length + 1) p.payload).map (fun w => (1, w)) ++ [(2, 0x5D + b2n trunc * 2 ^ 8 + crc * 2 ^ 32)]

/-! Storing (R410, R411) -/

/-- Where SEQ and GAP of a source on a lane are kept. -/
def srcKey (l src : Nat) : Nat := 128 * l + src

/-- A packet of the source was dropped: the next one carries GAP. -/
def Dev.packetDropped (d : Dev) (l src : Nat) : Dev :=
  (d.setLan (fun a => { a with noGap := tset a.noGap false (srcKey l src) false })).wf LAN_STAT_DROPSEEN l 1

/-- A packet whose end has come is stored, or dropped whole (R411). -/
def Dev.storePacket (d : Dev) (l : Nat) (p : LanePkt) : Dev :=
  let l := d.bondFirst l
  let x := d.lane l
  if d.rf LAN_STAT_STATE l ≠ lsRUN then (d.inc LAN_DROP_OFF l 1).packetDropped l p.src
  else if 32768 < p.payload.length then (d.inc LAN_TRUNC_OVERSIZE l 1).packetDropped l p.src
  else if d.fifoSize l < x.fill + p.bytes then (d.inc LAN_DROP_FULL l 1).packetDropped l p.src
  else
    let gap := !(tget d.lan.noGap false (srcKey l p.src))
    let p := { p with flags := setBit p.flags 0 (gap || tbit p.flags 0) }
    let d := d.setLane l { x with fifo := x.fifo ++ [p] }
    (d.setLan (fun a => { a with noGap := tset a.noGap false (srcKey l p.src) true })).showFill l

/-- The packet of a FREE port is counted (R412). -/
def Dev.freeCounted (d : Dev) (x : FabLine) : Dev :=
  match x.tag with
  | some _ => d
  | none =>
    let src := 4 * x.region + x.port
    d.setLan (fun a => { a with freeNum := tset a.freeNum 0 src ((tget a.freeNum 0 src + 1) % 2 ^ 32) })

/-- The oldest packet of a fabric port meets its lane; a port that no lane takes loses it. -/
def Dev.portStore (d : Dev) (src : Nat) : Dev :=
  match d.fab.lines.find? (fun x => decide (4 * x.region + x.port = src) && x.verdict) with
  | none => d
  | some x =>
    let p := x.pkt d
    let d := (d.setFab (fun f => { f with lines := f.lines.erase x })).freeCounted x
    if d.on (LAN_SOMAP_EN (src % 4)) (src / 4) then d.storePacket (d.rf (LAN_SOMAP_LANE (src % 4)) (src / 4)) p else d

/-- The lane part of a finished line has been told; the stream part may remain. -/
def Dev.takeLane (d : Dev) (o : LineOut) : Dev :=
  d.setPcu (fun p => { p with outs := p.outs.filterMap (fun x =>
    if x = o then (if x.region.isSome then some { x with lane := none } else none) else some x) })

/-- The oldest line of a head on its direct stream meets its lane. -/
def Dev.headStore (d : Dev) (h : Nat) : Dev :=
  match d.pcu.outs.find? (fun o => decide (o.head = h) && o.lane.isSome) with
  | none => d
  | some o =>
    let p := o.pkt d
    match o.lane with
    | some l => (d.takeLane o).storePacket l p
    | none => d

/-- A framed packet's end comes, of source `src` (R410). -/
def Dev.packetStore (d : Dev) (src : Nat) : Dev := if src < 64 then d.portStore src else d.headStore (src - 64)

/-! Sending (R410, R413, R418) -/

/-- Rate of a lane in units of 12.5 Mb/s (R408). -/
def laneRate (code : Nat) : Nat :=
  match code with
  | 0 => 250
  | 1 => 400
  | 2 => 500
  | 3 => 825
  | _ => 1000

/-- The rate of the quad of lane `l`. -/
def Dev.rateOf (d : Dev) (l : Nat) : Nat := laneRate (d.rf LAN_QCFG_RATE (l / 4))

/-- Block positions that lane `l` has passed at `at_` since its training began: a block takes 66 bits. -/
def Dev.blockPos (d : Dev) (l at_ : Nat) : Nat := (at_ - (d.lane l).trainFrom) * d.rateOf l / 5280

/-- Block positions that lie between ALIGN blocks (R419). -/
def alignEvery : Nat := 16384

/-- A block position of a bond carries ALIGN: the last of every 16,384 (R419). -/
def alignHere (m pos : Nat) : Bool := decide (1 < m) && decide (pos % alignEvery = alignEvery - 1)

/-- The time that `n` blocks take from now on the lanes of a bond, in ns, rounded up: the ALIGN block that may fall among them
included, as no packet spans two. -/
def Dev.blockTime (d : Dev) (l n : Nat) : Nat :=
  let own := ceilDiv n (d.bondOf l)
  let pos := d.blockPos l d.now
  let aligns := if d.bondOf l = 1 then 0 else (pos + own) / alignEvery - pos / alignEvery
  ceilDiv ((own + aligns) * 66 * 80) (d.rateOf l)

/-- The blocks of one lane of a bond of `m`, the `i`th, from block position `pos` on (R419): block k of the stream leaves on lane
k mod m; `n` positions. -/
def laneShare (m i lane : Nat) : Nat → Nat → List (Nat × Nat) → List (Nat × Nat)
  | 0, _, _ => []
  | n + 1, pos, bs =>
    if alignHere m pos then (2, 0x72 + lane % 16 * 2 ^ 8 + pos / alignEvery % 2 ^ 16 * 2 ^ 16) :: laneShare m i lane n (pos + 1) bs
    else bs.getD i (2, 0x4B) :: laneShare m i lane n (pos + 1) (bs.drop m)

/-- The blocks that lane `l` carries of the packet on the wire of its bond, before the scrambler (R409, R419). -/
def Dev.laneBlocks (d : Dev) (l : Nat) : List (Nat × Nat) :=
  let f := d.bondFirst l
  let m := d.bondOf l
  let x := d.lane f
  let pos := d.blockPos f x.wireFrom
  let own := ceilDiv x.wire.length m
  let aligns := if m = 1 then 0 else (pos + own) / alignEvery - pos / alignEvery
  laneShare m (l - f) l (own + aligns) pos x.wire

/-- One bit through the scrambler x^58 + x^39 + 1 (R409): `st` holds the last 58 bits sent, the newest in bit 0. -/
def scrambleBit (st : Nat) (b : Bool) : Bool × Nat :=
  let o := (b != tbit st 38) != tbit st 57
  (o, (2 * st + b2n o) % 2 ^ 58)

/-- The 64 bits of a block, the least significant first. -/
def scrambleWord (st w : Nat) : Nat × Nat :=
  (List.range 64).foldl (fun (x : Nat × Nat) i => let r := scrambleBit x.2 (tbit w i); (setBit x.1 i r.1, r.2)) (0, st)

/-- Blocks after the scrambler: the sync headers pass unscrambled. -/
def scramble : Nat → List (Nat × Nat) → List (Nat × Nat)
  | _, [] => []
  | st, b :: r => let x := scrambleWord st b.2; (b.1, x.1) :: scramble x.2 r

/-- What lane `l` sends of the packet on the wire: sync headers and scrambled bits. What the scrambler held when the packet began
depends on the state it started from, which no rule gives: a free value. -/
def Dev.laneSends (d : Dev) (l : Nat) : List (Nat × Nat) :=
  scramble (Config.freeValue (((d.lane (d.bondFirst l)).wireFrom * 2 ^ 64 + l) * 2 ^ 32 + 2 ^ 22) % 2 ^ 58) (d.laneBlocks l)

/-- XOFF holds a lane (R418). -/
def Dev.xoffHolds (d : Dev) (l : Nat) : Bool := d.on LAN_STAT_XOFF l && d.on LAN_CTRL_XOFFEN l

/-- A lane starts to send the oldest eligible packet, unless one is on the wire or XOFF holds it. -/
def Dev.packetSend (d : Dev) (l : Nat) : Dev :=
  let x := d.lane l
  match x.fifo with
  | [] => d
  | p :: rest =>
    if d.rf LAN_STAT_STATE l ≠ lsRUN ∨ d.on LAN_CTRL_EN l = false ∨ d.xoffHolds l = true ∨ d.now < x.wireTo then d
    else
      let k := srcKey l p.src
      let seq := tget d.lan.seq 0 k
      let b := p.blocks l (d.rf ZLK_CTRL_ID 0) seq false
      let d := d.setLane l { x with
        fifo := rest, wire := b, wireFrom := d.now, wireTo := d.now + d.blockTime l b.length }
      let d := d.setLan (fun a => { a with seq := tset a.seq 0 k ((seq + 1) % 2 ^ 16) })
      let d := d.incWrap LAN_TXCNT_PKTS l 1
      (if tbit p.flags 1 then d.inc LAN_TRUNC_TRUNC l 1 else d).showFill l

/-! Cutting and emptying -/

/-- The packet on the wire ends at a block boundary with a TRUNCATED end marker, whose CRC is over the bytes sent
(R353, R354, R416). -/
def Dev.laneTruncate (d : Dev) (l : Nat) : Dev :=
  let x := d.lane l
  if x.wireTo ≤ d.now then d
  else
    let sent := x.wire.take (x.wire.length * (d.now - x.wireFrom) / (x.wireTo - x.wireFrom))
    let bytes := (sent.filter (fun b => decide (b.1 = 1))).flatMap (fun b => leBytes 8 b.2)
    let crc := Nat.xor (crcBytes 0xFFFFFFFF bytes) 0xFFFFFFFF
    (d.setLane l { x with
      wire := sent ++ [(2, 0x5D + 2 ^ 8 + crc * 2 ^ 32)], wireTo := d.now }).inc LAN_TRUNC_TRUNC l 1

/-- The packet on the wire stops without an end (R347). -/
def Dev.laneCut (d : Dev) (l : Nat) : Dev :=
  let x := d.lane l
  if x.wireTo ≤ d.now then d
  else d.setLane l { x with
    wire := x.wire.take (x.wire.length * (d.now - x.wireFrom) / (x.wireTo - x.wireFrom)), wireTo := d.now }

/-- The stored packets of a lane are lost; `count` tells whether they count as dropped (R315, R420). -/
def Dev.laneEmpty (d : Dev) (l : Nat) (count : Bool) : Dev :=
  let x := d.lane l
  let d := x.fifo.foldl (fun d p => if count then (d.inc LAN_DROP_FULL l 1).packetDropped l p.src else d) d
  (d.setLane l { (d.lane l) with fifo := [] }).showFill l

/-- Every source of every lane carries GAP on its next packet. -/
def Dev.gapAll (d : Dev) : Dev := d.setLan (fun a => { a with noGap := [] })

/-! States (R420) -/

/-- A lane's quad has power and its PLL is locked. -/
def Dev.laneReady (d : Dev) (l : Nat) : Bool := d.on LAN_CTRL_EN l && d.on LAN_QSTAT_LOCK (l / 4)

/-- A disabled lane lets the packet on its wire complete (R420). -/
def Dev.laneEnding (d : Dev) (l : Nat) : Bool :=
  decide (d.rf LAN_STAT_STATE l = lsRUN) && !(d.on LAN_CTRL_EN l) && d.on LAN_QSTAT_LOCK (l / 4) && decide (d.now < (d.lane l).wireTo)

/-- The state of a lane follows its quad, OUTREL and EN: a lane that may send trains first. -/
def Dev.laneSettle (d : Dev) (l : Nat) : Dev :=
  let st := d.rf LAN_STAT_STATE l
  if d.gpio.released = false ∨ d.domOn (7 + l / 4) = false then d.wf LAN_STAT_STATE l lsOFF
  else if d.laneEnding l then d
  else if d.laneReady l = false then d.wf LAN_STAT_STATE l lsIDLE
  else if st = lsTRAIN ∨ st = lsRUN then d
  else (d.setLane l { (d.lane l) with trainFrom := d.now }).wf LAN_STAT_STATE l lsTRAIN

def Dev.lanesSettle (d : Dev) : Dev := (List.range 12).foldl (fun d l => d.laneSettle l) d

/-- Traffic of the lanes at the start of a full load and at a warm start (R315, R353). -/
def Dev.lanesStop (d : Dev) : Dev :=
  ((List.range 12).foldl (fun d l => (d.laneTruncate l).laneEmpty l false) d).gapAll

/-- A write of `LAN.CTRL`: clearing EN lets the packet on the wire complete; then the FIFO contents are dropped. -/
def Dev.laneEnable (d : Dev) (l : Nat) (was : Bool) : Dev :=
  let d := if was = true ∧ d.on LAN_CTRL_EN l = false ∧ d.laneEnding l = false then d.laneEmpty l true else d
  d.laneSettle l

/-- The packet of a disabled lane has completed: what its FIFO holds is dropped and counted, and the lane is idle (R420). -/
def Dev.laneEnds (d : Dev) (l : Nat) : Dev :=
  if d.rf LAN_STAT_STATE l = lsRUN ∧ d.on LAN_CTRL_EN l = false ∧ (d.lane l).wireTo ≤ d.now then
    (d.laneEmpty l true).laneSettle l
  else d

/-- 4,096 IDLE blocks have been sent: the lane runs. -/
def Dev.laneTrained (d : Dev) (l : Nat) : Dev :=
  if d.rf LAN_STAT_STATE l = lsTRAIN ∧ (d.lane l).trainFrom + ceilDiv (4096 * 66 * 80) (laneRate (d.rf LAN_QCFG_RATE (l / 4))) ≤ d.now then
    d.wf LAN_STAT_STATE l lsRUN
  else d

/-- The PLL of a quad locks. -/
def Dev.quadLock (d : Dev) (q : Nat) : Dev :=
  if d.domOn (7 + q) then ((d.wf LAN_QSTAT_LOCK q 1).wbit CLK_PLLSTAT_LOCK 0 (7 + q) true).lanesSettle else d

/-- A quad loses power: its lanes are in electrical idle and what they held is dropped. -/
def Dev.quadOff (d : Dev) (q : Nat) : Dev :=
  let ls := (List.range 4).map (fun i => 4 * q + i)
  let d := ls.foldl (fun d l => (d.laneCut l).laneEmpty l true) d
  let d := (d.wf LAN_QSTAT_LOCK q 0).wbit CLK_PLLSTAT_LOCK 0 (7 + q) false
  ls.foldl (fun d l => d.wf LAN_STAT_STATE l lsOFF) d

/-! Return pairs (R417) -/

/-- A pair is enabled. -/
def Dev.pairOn (d : Dev) (r : Nat) : Bool := if r = 0 then d.on LAN_RXCFG_EN0 0 else d.on LAN_RXCFG_EN1 0

def Dev.pairValid (d : Dev) (r : Nat) : Bool := if r = 0 then d.on LAN_RXSTAT_VALID0 0 else d.on LAN_RXSTAT_VALID1 0

def Dev.setPairValid (d : Dev) (r : Nat) (v : Bool) : Dev :=
  if r = 0 then d.wf LAN_RXSTAT_VALID0 0 (b2n v) else d.wf LAN_RXSTAT_VALID1 0 (b2n v)

/-- The XOFF mask: the OR over the valid enabled pairs. -/
def Dev.xoffMask (d : Dev) : Nat :=
  [0, 1].foldl (fun m r => if d.pairOn r = true ∧ d.pairValid r = true then Nat.lor m (tget d.lan.rxMask 0 r % 2 ^ 12) else m) 0

def Dev.showXoff (d : Dev) : Dev :=
  let m := d.xoffMask
  (List.range 12).foldl (fun d l => d.wf LAN_STAT_XOFF l (b2n (tbit m l))) (d.wf LAN_RXSTAT_XOFF 0 m)

/-- A block with a correct sync header arrives on a pair: IDLE, or FLOW with its mask. -/
def Dev.pairBlock (d : Dev) (r : Nat) (mask : Option Nat) : Dev :=
  if d.pairOn r = true ∧ d.domOn 7 = true then
    let d := d.setLan (fun a => { a with
      rxLast := tset a.rxLast 0 r d.now, rxLost := tset a.rxLost false r false
      rxMask := match mask with
        | some m => tset a.rxMask 0 r (m % 2 ^ 12)
        | none => a.rxMask })
    (d.setPairValid r true).showXoff
  else d

/-- A pair has delivered no valid block for 1 us. -/
def Dev.pairLost (d : Dev) (r : Nat) : Dev :=
  if d.pairOn r = true ∧ tget d.lan.rxLost false r = false ∧ tget d.lan.rxLast 0 r + 1000 ≤ d.now then
    let d := (d.setLan (fun a => { a with rxLost := tset a.rxLost false r true })).setPairValid r false
    (if r = 0 then d.wf LAN_RXSTAT_LOS0 0 1 else d.wf LAN_RXSTAT_LOS1 0 1).showXoff
  else d

/-- A write of `LAN.RXCFG`: a pair that becomes enabled has 1 us to deliver a block, and has no mask; a disabled pair is not
valid. -/
def Dev.pairsConfigured (d : Dev) (was : Nat → Bool) : Dev :=
  ([0, 1].foldl (fun d r =>
    if d.pairOn r = was r then d
    else
      let d := d.setLan (fun a => { a with
        rxLast := tset a.rxLast 0 r d.now, rxLost := tset a.rxLost false r false, rxMask := tset a.rxMask 0 r 0 })
      d.setPairValid r false) d).showXoff

/-! Refusals (R411, R419) -/

/-- The lane is the first of its bond. -/
def firstOfBond (bond l : Nat) : Bool := decide (l % bondSize bond = 0)

/-- A lane that is not the first of the bond is named by a source. -/
def Dev.laneNamed (d : Dev) (l : Nat) : Bool :=
  (List.range 24).any (fun h => d.on PCU_LROUTE_EN h && decide (d.rf PCU_LROUTE_LANE h = l)) ||
    (List.range 16).any (fun n => (List.range 4).any (fun p =>
      d.on (LAN_SOMAP_EN p) n && decide (d.rf (LAN_SOMAP_LANE p) n = l)))

/-- The bond would join a lane that is already named (R419). -/
def Dev.bondRefused (d : Dev) (q bond : Nat) : Bool :=
  (List.range 4).any (fun i => !(firstOfBond bond i) && d.laneNamed (4 * q + i))

end Sys2Proof.Machine
end

