-- ==== Sys2Proof/Machine/Gpio.lean ====
section
/-! DEFINITION. GPIO pins: functions, claims, switching, levels, masked writes and ownership (R397 to R403), the auxiliary
pin and the 2-wire bus of a head-control port (R404 to R407). -/

namespace Sys2Proof.Machine

def Dev.setGpio (d : Dev) (f : Gpio → Gpio) : Dev := { d with gpio := f d.gpio }

def Dev.setPad (d : Dev) (p : Nat) (x : Pad) : Dev := d.setGpio (fun g => { g with pads := tset g.pads .reset p x })

/-- A function with the unit it names: SEL matters for LINE, STROBE, CMP and TBPULSE. -/
def padCode (func sel : Nat) : Nat := if 3 ≤ func then func + 8 * sel else func

/-- Bit of a pin in `GPIO.MOUT` and `GPIO.MOE`. -/
def Dev.mout (d : Dev) (p : Nat) : Bool := tbit (d.rf GPIO_MOUT_VAL (p / 16)) (p % 16)
def Dev.moe (d : Dev) (p : Nat) : Bool := tbit (d.rf GPIO_MOE_VAL (p / 16)) (p % 16)

/-- The claim of a function is active (R398). -/
def Dev.padClaim (d : Dev) (p code : Nat) : Bool :=
  let sel := code / 8
  match code % 8 with
  | 1 => d.moe p
  | 2 =>
    let n := d.rf GPIO_CFG_OREG p
    decide (d.rgnState n = rsRUNNING) && !(d.brim n)
  | 3 => decide (sel < 24) && d.on HCP_CTRL_EN sel
  | 4 => decide (sel < 24) && d.on HCP_CTRL_EN sel
  | 5 => decide (sel < 48) && d.on CMP_CFG_EN sel
  | 6 => true
  | _ => false

/-- The function that should drive a pin (R399). -/
def Dev.padWanted (d : Dev) (p : Nat) : Nat :=
  let sel := d.rf GPIO_CFG_SEL p
  let a := padCode (d.rf GPIO_CFG_FUNC p) sel
  if d.rf GPIO_CFG_MODE p = 0 then a
  else
    let b := padCode (d.rf GPIO_CFG_FUNC2 p) sel
    if d.padClaim p a then a else if d.padClaim p b then b else 0

/-- The level a function drives, or none where its driver is off (R398). -/
def Dev.padDrive (d : Dev) (p code : Nat) : Option Bool :=
  let sel := code / 8
  match code % 8 with
  | 1 => if d.moe p then some (d.mout p) else none
  | 2 =>
    let n := d.rf GPIO_CFG_OREG p
    some (if d.brim n then tbit (d.cuffBrimVal n p (d.cuff p).out) 0 else d.cuffLevel n p)
  | 3 =>
    let last := (d.getHcp sel).grid
    some (match last with
      | some g => decide (g.1 ≤ d.t) && decide (d.t < g.1 + 100)
      | none => false)
  | 4 => some (d.getHcp sel).ledOn
  | 5 => some (d.on CMP_STAT_OUT sel)
  | 6 => some (decide (d.t % (2 ^ sel * 1024) < 100))
  | _ => none

/-! Switching (R400) -/

/-- The pad-clock edge at or after the present instant. -/
def padEdge (now : Nat) : Nat := ceilDiv now 10 * 10

/-- The level the device puts on a pin, or none where its driver is off (R315, R399, R400, R403). -/
def Dev.padLevel (d : Dev) (p : Nat) : Option Bool :=
  let x := (d.pad p).settle d.now
  if d.gpio.extest then none
  else if d.gpio.asleep then
    match d.rf GPIO_PAD_SLP p with
    | 1 => some x.held
    | 2 => some false
    | 3 => some true
    | _ => none
  else if d.gpio.released = false then none
  else if x.switch.isSome then some x.held
  else d.padDrive p x.func

/-- The level the keeper would hold from now. -/
def Dev.padHeld (d : Dev) (p : Nat) : Bool := (d.padLevel p).getD (d.pad p).held

/-- A pin is switched to a function (R400). -/
def Dev.padSwitch (d : Dev) (p dst : Nat) : Dev :=
  let x := (d.pad p).settle d.now
  if x.switch.isSome then d.setPad p { x with next := some dst }
  else if x.func = dst then d.setPad p x
  else d.setPad p { x with switch := some (dst, padEdge d.now + 20), next := none, held := d.padHeld p }

/-- The settings or claims of a pin may have changed (R399). -/
def Dev.padUpdate (d : Dev) (p : Nat) : Dev := if d.gpio.released then d.padSwitch p (d.padWanted p) else d

/-- OUTREL: owned pins take their functions (R313). -/
def Dev.padsRelease (d : Dev) : Dev :=
  let d := d.setGpio (fun g => { g with released := true })
  (List.range 64).foldl (fun d p => d.setPad p ⟨d.padWanted p, none, none, false⟩) d

/-- The pins take the pre-release state (R315). -/
def Dev.padsPark (d : Dev) : Dev := d.setGpio (fun g => { g with released := false, pads := [] })

/-- The pins take their sleep state (R403). -/
def Dev.padsSleep (d : Dev) : Dev :=
  let held (d : Dev) (p : Nat) : Dev :=
    let h := d.padHeld p
    d.setPad p { (d.pad p).settle d.now with held := h, switch := none, next := none }
  ((List.range 64).foldl held d).setGpio (fun g => { g with asleep := true })

/-- Every pin returns to its function through a switch (R403, R453). -/
def Dev.padsReturn (d : Dev) : Dev :=
  let asleep := d.gpio.asleep
  let back (d : Dev) (p : Nat) : Dev :=
    let x := d.pad p
    let held := match asleep, d.rf GPIO_PAD_SLP p with
      | true, 2 => false
      | true, 3 => true
      | _, _ => x.held
    d.setPad p { x with switch := some (d.padWanted p, padEdge d.now + 20), next := none, held := held }
  (List.range 64).foldl back (d.setGpio (fun g => { g with asleep := false, extest := false }))

/-- Level at the ball of a pin: what the device drives, inverted under INV; a free value where its driver is off, as that of an
open-drain output is at its high level. -/
def Dev.padBall (d : Dev) (p : Nat) : Bool :=
  let outside := decide (d.freeAt (2 ^ 20 + p) % 2 = 1)
  match d.padLevel p with
  | some b => if d.on GPIO_PAD_OD p = true ∧ b ≠ d.on GPIO_PAD_INV p then outside else b != d.on GPIO_PAD_INV p
  | none => outside

/-- Pad levels of a bank as `GPIO.IN` returns them, through the input, which INV inverts as well. -/
def Dev.padIn (d : Dev) (k : Nat) : Nat :=
  (List.range 16).foldl (fun m i => setBit m i (d.padBall (16 * k + i) != d.on GPIO_PAD_INV (16 * k + i))) 0

/-! Ownership and masked writes (R401, R402) -/

/-- Who writes. -/
def Dev.pinWritable (d : Dev) (pth : Path) (p : Nat) : Bool :=
  match d.rf GPIO_CFG_OWN p with
  | 2 => true
  | 1 => decide (pth = .kweave) && d.kw.secure
  | _ => false

/-- The masked pins that the writer does not own. -/
def Dev.pinsDenied (d : Dev) (pth : Path) (k mask : Nat) : List Nat :=
  (setBitsOf 16 mask).filter (fun i => !(d.pinWritable pth (16 * k + i)))

/-- The masked bits of the pins the writer owns change (R401). -/
def Dev.maskedWrite (d : Dev) (pth : Path) (f : Fld) (k v : Nat) : Dev :=
  let bits := (setBitsOf 16 (v / 2 ^ 16)).filter (fun i => d.pinWritable pth (16 * k + i))
  let d := d.wf f k (bits.foldl (fun m i => setBit m i (tbit v i)) (d.rf f k))
  if f.kind = .GPIO_MOE then bits.foldl (fun d i => if d.rf GPIO_CFG_MODE (16 * k + i) = 1 then d.padUpdate (16 * k + i) else d) d
  else d

/-- Why a write of the function of a pin is refused (R398): reserved SEL, and the rules of FAB. -/
def Dev.gpioCfgRefused (d : Dev) (p func func2 sel : Nat) : Option Refused :=
  let owned := decide (d.rf GPIO_CFG_OWN p = 3)
  let range (f : Nat) : Bool :=
    ((decide (f = 3) || decide (f = 4)) && decide (24 ≤ sel)) || (decide (f = 5) && decide (48 ≤ sel)) ||
      (decide (f = 6) && decide (32 ≤ sel))
  if func2 = 2 then some ⟨.value, stBAD_PARAM, 5⟩
  else if func = 2 ∧ owned = false then some ⟨.state, stBAD_STATE, 2⟩
  else if owned = true ∧ func ≠ 2 then some ⟨.state, stBAD_STATE, 2⟩
  else if range func = true ∨ range func2 = true then some ⟨.state, stBAD_STATE, 8⟩
  else none

/-! Auxiliary pin and 2-wire bus (R405, R406) -/

/-- Level of the auxiliary pin of head `h` (R405); a free value where the device does not drive it, as before OUTREL, or where it is
half of the LVDS pair of HCK (R404). -/
def Dev.auxLevel (d : Dev) (h : Nat) : Bool :=
  let g := (d.getHcp h).grid
  match if d.gpio.released = true ∧ d.on HCP_CTRL_HCKMODE h = false then d.rf HCP_AUX_FUNC h else 0 with
  | 1 => d.on HCP_AUX_OUT h
  | 2 => d.hspPin h
  | 3 => match g with
    | some x => decide (x.1 ≤ d.t) && decide (d.t < x.1 + d.busy h)
    | none => false
  | _ => decide (d.freeAt (2 ^ 21 + h) % 2 = 1)

/-- Level at the HLED ball of a head: active level by HLEDPOL (R105), and before OUTREL what fuse HLEDPK says (R404). -/
def Dev.hledPin (d : Dev) (h : Nat) : Bool :=
  if d.gpio.released then d.on HCP_TSTAT_LEDON h != d.on HCP_CTRL_HLEDPOL h else d.fuses.hledpk

/-- A GO is refused (R406). -/
def Dev.twRefused (d : Dev) (h wlen rlen : Nat) : Option Refused :=
  if (d.pwr.st ≠ .run ∧ d.pwr.st ≠ .hold) ∨ d.on HCP_CTRL_EN h = false then
    some ⟨.state, stBAD_STATE, 31⟩
  else if d.on HCP_TWSTAT_BUSY h then some ⟨.state, stBAD_STATE, 31⟩
  else if wlen = 0 ∧ rlen = 0 then some ⟨.state, stBAD_STATE, 31⟩
  else none

/-- A transaction starts. -/
def Dev.twGo (d : Dev) (h : Nat) : Dev := (d.wf HCP_TWSTAT_BUSY h 1).wf HCP_TWSTAT_NBYTES h 0

/-- The master holds the clock of the bus of head `h` low: with GAPONLY from S of a line to the end of its read-out (R407). -/
def Dev.twHeld (d : Dev) (h : Nat) : Bool :=
  d.on HCP_TWCFG_GAPONLY h && match (d.getHcp h).grid with
    | some g => decide (g.1 ≤ d.t) && decide (d.t < (d.getHcp h).readTo)
    | none => false

/-- How a transaction ends (R406), which it cannot do while the clock is held low: 0 DONE, 1 NACK, 2 STUCK, 3 TIMEOUT, with the bytes transferred and those read, byte 0
first. -/
def Dev.twEnd (d : Dev) (h how nbytes : Nat) (read : List Nat) : Dev :=
  if d.on HCP_TWSTAT_BUSY h = true ∧ d.twHeld h = false then
    let d := (d.wf HCP_TWSTAT_BUSY h 0).wf HCP_TWSTAT_NBYTES h nbytes
    let put (d : Dev) (x : Nat × Nat) : Dev :=
      if x.1 < 4 then d.wreg .HCP_TWDATA0 h (BitVec.ofNat 32 (setBits (d.rreg .HCP_TWDATA0 h).toNat (8 * x.1) 8 x.2))
      else d.wreg .HCP_TWDATA1 h (BitVec.ofNat 32 (setBits (d.rreg .HCP_TWDATA1 h).toNat (8 * (x.1 - 4)) 8 x.2))
    let d := ((List.range 8).zip (read.take (d.rf HCP_TWCMD_RLEN h))).foldl put d
    match how with
    | 0 => d.wf HCP_TWSTAT_DONE h 1
    | 1 => d.wf HCP_TWSTAT_NACK h 1
    | 2 => d.wf HCP_TWSTAT_STUCK h 1
    | _ => d.wf HCP_TWSTAT_TIMEOUT h 1
  else d

end Sys2Proof.Machine
end

