-- ==== Sys2Proof/Machine/Image.lean ====
section
/-! DEFINITION. What an image holds and what the image checker asks of it: header, packet forms, frame codes, interface
declarations and the set of device frames (R300 to R310, R421). -/

namespace Sys2Proof.Machine

/-- Reasons of R318. -/
def rnHEADER : Nat := 1
def rnDEVICE : Nat := 2
def rnPLAIN : Nat := 3
def rnNO_KEY : Nat := 4
def rnFORMAT : Nat := 5
def rnFRAME_ADDR : Nat := 6
def rnFRAME_CHECK : Nat := 7
def rnFRAME_CODE : Nat := 8
def rnBUS_CONFLICT : Nat := 9
def rnMODE_CONFLICT : Nat := 10
def rnCHECK_FAIL : Nat := 11
def rnTAG_FAIL : Nat := 12
def rnTIMEOUT : Nat := 13
def rnOVERFLOW : Nat := 14
def rnPLL_LOCK : Nat := 15
def rnNO_IMAGE : Nat := 16
def rnNO_GOLDEN : Nat := 17
def rnFLASH : Nat := 18
def rnORDER : Nat := 19
def rnCHAIN_WAIT : Nat := 20
def rnABORTED : Nat := 21

/-- The status with which the handle of a load completes (R318). -/
def reasonStatus (r : Nat) : Nat :=
  if r = 0 then stOK
  else if r = rnCHECK_FAIL ∨ r = rnTAG_FAIL then stCRC_ERR
  else if r = rnTIMEOUT then stTIMEOUT
  else if r = rnABORTED then stABORTED
  else stBAD_PARAM

/-! Header (R300) -/

/-- The header that sixteen words hold. -/
def parseHeader (w : List Nat) : ImgHdr :=
  let f := w.getD 3 0
  { kind := bitsOf (w.getD 2 0) 24 8, enc := tbit f 0, keysel := bitsOf f 1 1, paired := tbit f 2, policy := bitsOf f 3 2
    donewait := tbit f 5, chained := tbit f 6, bodylen := w.getD 4 0, id := w.getD 5 0 }

/-- Why a header is refused by itself; `step` is the stepping of the device, `golden` tells a golden image. -/
def headerFault (w : List Nat) (step : Nat) (golden : Bool) : Option Nat :=
  let h := parseHeader w
  if w.getD 0 0 ≠ 0x57494D47 then some (if golden then rnNO_GOLDEN else rnHEADER)
  else if w.getD 1 0 ≠ 0x00100001 ∨ w.getD 15 0 ≠ crcWords (w.take 15) ∨ 1 < h.kind ∨ w.getD 3 0 / 2 ^ 7 ≠ 0 ∨ h.policy = 3 ∨
      (w.drop 9).take 6 ≠ [0, 0, 0, 0, 0, 0] ∨ h.bodylen % 4 ≠ 0 then some rnHEADER
  else if bitsOf (w.getD 2 0) 0 16 ≠ 0x9604 ∨ step < bitsOf (w.getD 2 0) 16 8 then some rnDEVICE
  else none

/-! Packets (R301) -/

/-- The value of payload words, word 0 lowest. -/
def fromWords (l : List Nat) : Nat := l.foldr (fun w acc => w + 2 ^ 32 * acc) 0

/-- Frame `k` of a list of frame words: payload and word 32. -/
def frameAt (l : List Nat) (k : Nat) : Nat × Nat := (fromWords ((l.drop (33 * k)).take 32), l.getD (33 * k + 32) 0)

/-- The LEN of a packet fits its type; `w1` is its second word, if it has come. -/
def lenFits (type len : Nat) (w1 : Option Nat) : Bool :=
  match type with
  | 0x01 => decide (1 ≤ len) && decide ((len - 1) % 33 = 0) && (match w1 with
      | some w => decide (w < 2 ^ 14)
      | none => true)
  | 0x02 => match w1 with
      | some w => decide (w < 2 ^ 14) && decide (1 ≤ w ∧ w ≤ 11008) && decide (len = 34 + w)
      | none => decide (35 ≤ len ∧ len ≤ 34 + 11008)
  | 0x03 => decide (len = 529) && (match w1 with
      | some w => decide (w < 16)
      | none => true)
  | 0x04 => decide (len = 0)
  | 0x05 => match w1 with
      | some w => decide (w < 2 ^ 29) && decide (1 ≤ bitsOf w 18 11 ∧ bitsOf w 18 11 ≤ 1024) && decide (len = 1 + bitsOf w 18 11)
      | none => decide (2 ≤ len ∧ len ≤ 1025)
  | 0x06 => decide (len = 1)
  | 0x07 => decide (len = 1)
  | 0x09 => decide (len = 4)
  | _ => false

/-- The order of R302: stages 0 start, 1 after STARTUP_ORDER, 2 device frames, 3 in a section, 4 after a section. -/
def orderFits (type stage : Nat) (isPartial enc last : Bool) : Bool :=
  match type with
  | 0x01 => decide (stage = 3) || (!isPartial && decide (stage ≤ 2))
  | 0x02 => decide (stage = 3) || (!isPartial && decide (stage ≤ 2))
  | 0x03 => decide (stage ≠ 3)
  | 0x04 => decide (stage = 3)
  | 0x05 => decide (stage = 3)
  | 0x06 => decide (stage = 0)
  | 0x07 => decide (stage ≠ 3) && !enc && last
  | 0x09 => decide (stage ≠ 3) && enc && last
  | _ => false

/-- The codes of a STARTUP_ORDER packet (R313): each once, DONE at step 5. -/
def orderCodes (w : Nat) : List Nat := (List.range 6).map (fun k => bitsOf w (4 * k) 4)

def orderGood (w : Nat) : Bool :=
  decide (w < 2 ^ 24) && (List.range 6).all (fun c => (orderCodes w).contains c) && decide (bitsOf w 20 4 = 5)

/-! Tile frames (R224, R229, R306, R310) -/

/-- The fields of an instruction that lie in frame `j`, for the checks: OP, the three operand codes and CIN. -/
def instrFields (j payload : Nat) : List (Nat × Nat × Nat) :=
  (List.range 64).flatMap (fun q =>
    let base := 48 * q
    [(0, 0, 6), (1, 6, 5), (1, 11, 5), (1, 16, 5), (2, 21, 2)].filterMap (fun x =>
      let b := base + x.2.1
      if b / 1024 = j ∧ (b + x.2.2 - 1) / 1024 = j then some (x.1, q / 4, bitsOf payload (b % 1024) x.2.2) else none))

/-- A reserved operation or operand code, or CHAIN in row 0 (R221, R224). -/
def instrCodeBad (x : Nat × Nat × Nat) : Bool :=
  match x.1 with
  | 0 => decide (21 ≤ x.2.2)
  | 1 => decide (13 ≤ x.2.2 ∧ x.2.2 ≤ 15)
  | _ => decide (x.2.2 = 2) && decide (x.2.1 % 4 = 0)

/-- A track that leaves tile `t` of region `n` crosses the border of the region. -/
def crossesBorder (n t dir k : Nat) : Bool :=
  match tileAway (tileOf n t) dir (trackLen k) with
  | some s => decide (tileRegion s ≠ n)
  | none => false

/-- Reserved or out-of-range codes of tile frame `f` of tile index `t` of region `n`. -/
def Dev.tileFrameBad (d : Dev) (n t f payload : Nat) : Bool :=
  if f ≤ 2 then (instrFields f payload).any instrCodeBad
  else if f = 3 then
    decide (bitsOf payload 400 2 = 3) || tbit payload 407 || decide (payload / 2 ^ 489 ≠ 0)
  else if f = 4 then
    decide (payload / 2 ^ 832 ≠ 0) || (List.range 160).any (fun x =>
      let c := 31 - bitsOf payload (5 * x) 5
      decide (24 ≤ c ∧ c ≤ 30) ||
        (decide (c ≠ 31) && crossesBorder n t (x / 40) (x % 40) && !(tbit (d.trackEntry n t (x / 40) (x % 40)) 2)))
  else if f = 5 then
    decide (payload / 2 ^ 108 ≠ 0) ||
      (List.range 8).any (fun k => let c := 255 - bitsOf payload (8 * k) 8; decide (174 ≤ c ∧ c ≤ 254)) ||
      (List.range 4).any (fun k => let c := 255 - bitsOf payload (11 * k + 64) 8; decide (247 ≤ c ∧ c ≤ 254))
  else decide (payload ≠ 0)

/-! Rates (R235, R242) -/

/-- Head `h` is carried by a port of region `n` (R233). -/
def carries (t : Tab Word) (n h : Nat) : Bool :=
  decide (fieldOf t PCU_ROUTE_EN h ≠ 0) && decide (fieldOf t PCU_ROUTE_REGION h = n) &&
    (List.range 4).any (fun p => decide (fieldOf t (FAB_SIMAP_EN p) n ≠ 0) && decide (fieldOf t (FAB_SIMAP_HEAD p) n = h))

/-- The bin factor of a head's stream. -/
def streamBin (t : Tab Word) (h : Nat) : Nat :=
  if fieldOf t PCU_ROUTE_DATA h = 2 then binFactor (fieldOf t PCU_HCFG_BIN h) else 1

/-- The peak word rate of a head exceeds a clock of `fsel` (R235). -/
def rateOver (t : Tab Word) (h fsel : Nat) : Bool :=
  decide (fsel ≠ 0) &&
    decide (2 * streamBin t h * 2 ^ 32 < (enabledChans t h).length * fieldOf t HCP_HCKFREQ_FREQ h * period2 fsel)

/-- Some head carried by region `n` would be too fast for the clock. -/
def rateBad (t : Tab Word) (n fsel : Nat) : Bool := (List.range 24).any (fun h => carries t n h && rateOver t h fsel)

/-- The bit rate of a cuff of the region exceeds 1 Gb/s at the clock (R242). -/
def Dev.cuffRateBad (d : Dev) (t : Tab Word) (n fsel : Nat) : Bool :=
  (List.range 64).any (fun q =>
    decide (fieldOf t GPIO_CFG_OWN q = 3) && decide (fieldOf t GPIO_CFG_OREG q = n) && decide (d.cuffMode q ≠ 0) &&
      decide (fsel ≠ 0) && decide (d.cuffDiv q * period2 fsel < 2 * cuffBits (d.cuffMode q)))

/-! Interface frames (R307, R310) -/

/-- Frame 0 of the interface: reserved bits, FSEL 7, MSRC 4 to 14, brim code 3. -/
def ifFrame0Bad (p : Nat) : Bool :=
  decide (bitsOf p 0 3 = 7) || decide (bitsOf p 9 23 ≠ 0) || decide (p / 2 ^ 416 ≠ 0) ||
    (List.range 4).any (fun i =>
      decide (4 ≤ bitsOf p (56 + 32 * i) 4 ∧ bitsOf p (56 + 32 * i) 4 ≤ 14) || decide (bitsOf p (60 + 32 * i) 4 ≠ 0)) ||
    (List.range 64).any (fun q => decide (bitsOf p (288 + 2 * q) 2 = 3))

/-- An entry of frames 1 to 10: a non-border track must have 0, brim code 3 and bit 3 are reserved. -/
def trackEntryBad (n e v : Nat) : Bool :=
  (!(crossesBorder n (e / 160) (e / 40 % 4) (e % 40)) && decide (v ≠ 0)) || decide (v % 4 = 3) || tbit v 3

/-- Interface frame `k` of the sixteen breaks a rule of R307 or R310. -/
def ifFrameBad (n : Nat) (l : List Nat) (k : Nat) : Bool :=
  if k = 0 then ifFrame0Bad (l.getD 0 0)
  else if k ≤ 10 then
    (List.range 256).any (fun x => trackEntryBad n (256 * (k - 1) + x) (bitsOf (l.getD k 0) (4 * x) 4))
  else decide (l.getD k 0 ≠ 0)

/-- Entry of a track in a list of interface frames. -/
def ifEntry (l : List Nat) (t dir k : Nat) : Nat :=
  let b := 4 * (40 * (4 * t + dir) + k)
  bitsOf (l.getD (1 + b / 1024) 0) (b % 1024) 4

/-- What paired mode forbids of a region's declarations (R261). -/
def pairedBad (n : Nat) (l : List Nat) : Bool :=
  decide (8 ≤ n) || (List.range 4).any (fun i => decide (bitsOf (l.getD 0 0) (56 + 32 * i) 4 = 15)) ||
    (decide (4 ≤ n) && (List.range 16).any (fun t => (List.range 40).any (fun k =>
      crossesBorder n t 2 k && tbit (ifEntry l t 2 k) 2)))

/-! Device frames (R308, R421) -/

/-- Base of the registers of a device frame: block, and the frame within it. -/
def frameBase (a : Nat) : Option Nat :=
  if 10240 ≤ a ∧ a < 10368 then some (0x00100000 + 0x80 * (a - 10240))
  else if 10368 ≤ a ∧ a < 10496 then some (0x00110000 + 0x80 * (a - 10368))
  else if 10496 ≤ a ∧ a < 10624 then some (0x00120000 + 0x80 * (a - 10496))
  else if 10752 ≤ a ∧ a < 10816 then some (0x00070000 + 0x80 * (a - 10752))
  else if 10816 ≤ a ∧ a < 10880 then some (0x00080000 + 0x80 * (a - 10816))
  else if 10880 ≤ a ∧ a < 10944 then some (0x00160000 + 0x80 * (a - 10880))
  else none

/-- Registers some of whose fields device frames hold. -/
def heldKinds : List RegKind :=
  [.CAC_CFG, .CAC_NET, .CAC_SEL, .ASW_AX, .ASW_MTAP, .CMP_CFG, .CMP_TICK, .CMP_THR, .CMP_FILT, .CMP_WIN, .CMP_WAKETICK,
    .GPIO_CFG, .GPIO_PAD, .HCP_ELEC, .HCP_AUX, .HCP_TWCFG, .LAN_QCFG, .LAN_SOMAP, .LAN_RXCFG]

/-- The fields of a register that device frames hold. -/
def heldFields (k : RegKind) : List Fld :=
  match k with
  | .GPIO_CFG => k.fields
  | .HCP_AUX => [HCP_AUX_FUNC]
  | _ => if heldKinds.contains k then k.fields.filter (fun f => decide (f.acc = .RW)) else []

/-- The device frame that holds an address, if one can. -/
def frameOfAddr (addr : Nat) : Option Nat :=
  let off := addr % 0x10000 / 0x80
  match addr / 0x10000 with
  | 0x10 => if off < 128 then some (10240 + off) else none
  | 0x11 => if off < 128 then some (10368 + off) else none
  | 0x12 => if off < 128 then some (10496 + off) else none
  | 0x07 => if off < 64 then some (10752 + off) else none
  | 0x08 => if off < 64 then some (10816 + off) else none
  | 0x16 => if off < 64 then some (10880 + off) else none
  | _ => none

/-- The register that word `w` of a device frame holds, with its element. -/
def frameReg (a w : Nat) : Option (RegKind × Nat) := (frameBase a).bind (fun b => decodeAddr (b + 4 * w))

/-- The bits that a device frame may hold at a word. -/
def heldMask (a w : Nat) : Nat :=
  match frameReg a w with
  | some (k, _) => (heldFields k).foldl (fun m f => m + (2 ^ f.width - 1) * 2 ^ f.lsb) 0
  | none => 0

/-- A frame of the set has a bit where it must be 0: I/O frames below 10,944 also carry cuff settings, whose layout the
manual does not give (log 32). -/
def strayBits (x : Nat × Nat) : Bool :=
  (decide (x.1 < 10624) || decide (10944 ≤ x.1)) && (List.range 32).any (fun w =>
    let v := bitsOf x.2 (32 * w) 32
    decide (Nat.land v (heldMask x.1 w) ≠ v))

/-- One word of a device frame is written into its register. -/
def frameWordTo (t : Tab Word) (a w v : Nat) : Tab Word :=
  match frameReg a w with
  | none => t
  | some (k, i) =>
    (heldFields k).foldl (fun t f =>
      let x := Nat.xor (bitsOf v f.lsb f.width) (f.rstAt i)
      tset t (regReset k i) (regKey k i) (BitVec.ofNat 32 (setBits (rregOf t k i).toNat f.lsb f.width x))) t

/-- A device frame is written into the registers it holds. -/
def frameTo (t : Tab Word) (x : Nat × Nat) : Tab Word :=
  (List.range 32).foldl (fun t w => let v := bitsOf x.2 (32 * w) 32; if v = 0 then t else frameWordTo t x.1 w v) t

/-- Every held field takes its reset value: what cleared device frames give. -/
def heldReset (t : Tab Word) : Tab Word :=
  heldKinds.foldl (fun t k => (List.range (regCount k)).foldl (fun t i =>
    (heldFields k).foldl (fun t f =>
      tset t (regReset k i) (regKey k i) (BitVec.ofNat 32 (setBits (rregOf t k i).toNat f.lsb f.width (f.rstAt i)))) t) t) t

/-- The registers as a set of device frames gives them. -/
def withFrames (t : Tab Word) (l : List (Nat × Nat)) : Tab Word := l.foldl frameTo (heldReset t)

/-- A held field has a value outside its range. -/
def heldRangeBad (t : Tab Word) : Bool :=
  heldKinds.any (fun k => (List.range (regCount k)).any (fun i => (heldFields k).any (fun f =>
    let v := fieldOf t f i
    (decide (v < f.lo) && decide (v ≠ f.also)) || (decide (f.hi < v) && decide (v ≠ f.also)))))

/-- What the check of the whole set finds (R310): codes, then bus ownership (R177). -/
def Dev.setFault (d : Dev) (l : List (Nat × Nat)) : Option Nat :=
  let t := withFrames d.regs l
  let e : Dev := { d with regs := t }
  if l.any strayBits = true ∨ heldRangeBad t = true then some rnFRAME_CODE
  else if (List.range 64).any (fun b => decide (1 < (e.busSources b).length)) then some rnBUS_CONFLICT
  else none

end Sys2Proof.Machine
end

