-- ==== Sys2Proof/Machine/Cfg.lean ====
section
/-! DEFINITION. The configuration engine: the FIFO, full, golden and partial loads, failures, the daisy chain and the
start-up steps (R296 to R327, R253 to R259). -/

namespace Sys2Proof.Machine

def Dev.setCfg (d : Dev) (f : Cfg → Cfg) : Dev := { d with cfg := f d.cfg }

def Dev.setLoad (d : Dev) (f : Load → Load) : Dev := d.setCfg (fun c => { c with load := f c.load })

/-- A change of the device alone. -/
def State.onDev (s : State) (f : Dev → Dev) : State := { s with dev := f s.dev }

/-- States of `CFG.STATUS.STATE` (R314). -/
def csUNCONF : Nat := 0
def csCLEAR : Nat := 1
def csWAIT : Nat := 2
def csLOAD : Nat := 3
def csSYNC : Nat := 4
def csSTARTUP : Nat := 5
def csDONE : Nat := 6
def csFAILED : Nat := 7

def Dev.cfgState (d : Dev) : Nat := d.rf CFG_STATUS_STATE 0

def Dev.setCfgState (d : Dev) (st : Nat) : Dev :=
  (d.wf CFG_STATUS_STATE 0 st).setCfg (fun c => { c with stateNow := d.now })

/-- RWL fields are locked (R8): from the DONE of a load or start until the next load or start begins; a warm start that
has begun and not gone on yet has unlocked them. -/
def Dev.rwlLocked (d : Dev) : Bool := decide (d.cfgState = csDONE) && decide (d.pwr.st ≠ .held)

/-! The pre-release state (R315) -/

/-- Head-control ports go to park state: HSP and HLED inactive. -/
def Dev.headsPark (d : Dev) : Dev :=
  (List.range 24).foldl (fun d h =>
    (d.setHcp h { d.getHcp h with hck := none, hspFrom := 0, hspUntil := 0, strobes := [], led := none, ledOn := false }).wf
      HCP_TSTAT_LEDON h 0) d

/-- Pins, ports, lanes and the analogue connections take the pre-release state; the comparators are held under their power-up rule
(R175). -/
def Dev.preRelease (d : Dev) : Dev :=
  (((d.lanesStop.padsPark).headsPark.setAnx (fun a => { a with released := false })).cmpStarts (fun _ => true)).lanesSettle

/-- The comparators take thresholds and hysteresis as their registers now hold them. -/
def Dev.anxTake (d : Dev) : Dev :=
  (List.range 48).foldl (fun d n =>
    d.setCmp n { d.getCmp n with th := d.rf CMP_THR_TH n, hys := d.rf CMP_THR_HYS n, thNew := [] }) d

/-- Configuration memory is cleared (R303, R314): no frame, every held field and region setting at its reset value, every
region OFF behind its brim, known-bad marks gone. -/
def State.clearConfig (s : State) : State :=
  let s := (List.range 16).foldl (fun s n => (s.onDev (fun d => d.clampBrim n)).regionOff n) s
  s.onDev (fun d =>
    let d := d.setFab (fun f => { f with frames := [], upset := [], cwUpset := [], knownBad := [], starts := [] })
    let d := { d with regs := heldReset d.regs }
    let d := (List.range 16).foldl (fun d n => d.rstReg .FAB_SOMAP n) d
    (((d.anxTake).wf SCB_STAT_DEVDBE 0 0).wf SCB_STAT_SELFERR 0 0).snapSettle)

/-! Failures and ends (R314, R317 to R319, R323) -/

/-- Where a failure was found. -/
def Dev.failAt (d : Dev) (frame : Option Nat) : Dev :=
  let d := d.wf CFG_FAILPOS_POS 0 d.cfg.load.pos
  match frame with
  | some a => ((d.wf CFG_FAILINFO_FRAME 0 a).wf CFG_FAILINFO_REGION 0 (d.cfg.load.region.getD 0)).wf CFG_FAILINFO_VALID 0 1
  | none => d.wf CFG_FAILINFO_VALID 0 0

/-- The load is over: the engine takes no further word of it. Words of a chained payload stay. -/
def Dev.loadOver (d : Dev) : Dev :=
  let d := d.setCfg (fun c => { c with fifo := if c.chainLeft = 0 then [] else c.fifo, load := .reset })
  d.wf CFG_FIFOSTAT_FREE 0 (1024 - min 1024 d.cfg.fifo.length)

/-- A full load fails (R314, R316 to R319). -/
def State.fullFails (s : State) (reason : Nat) (frame : Option Nat) : State :=
  let l := s.dev.cfg.load
  let d := (s.dev.failAt frame).wf CFG_STATUS_REASON 0 reason
  let d := d.post .fault 0x140 reason
  let rerun := decide (d.cfgState = csSTARTUP) && l.hdr.isNone
  let d := if l.golden || rerun then d else d.wf CFG_RETRY_COUNT 0 (min 3 (d.rf CFG_RETRY_COUNT 0 + 1))
  let d := (d.finishOpt l.handle (reasonStatus reason) reason).loadOver
  let after := if l.golden then 2 else if d.rf CFG_RETRY_COUNT 0 = 3 then 1 else 0
  let d := (d.setCfgState csFAILED).setCfg (fun c => { c with
    cfgerrnPull := true, cfgdonePull := true, after := after, recorded := [] })
  State.clearConfig { s with dev := d.preRelease.wf SYS_STATUS_PAIRED 0 0 }

/-- A region of a failed partial load goes to EMPTY (R258). -/
def Dev.regionEmpty (d : Dev) (n : Nat) : Dev :=
  (((d.clearRegionFrames n).regionReset n).setRgn n rsEMPTY).wf RGN_STAT_LOADFAIL n 1

/-- A partial load fails or is abandoned (R258, R311, R322, R323). -/
def Dev.partialFails (d : Dev) (reason status : Nat) (frame : Option Nat) : Dev :=
  let l := d.cfg.load
  let d := (d.failAt frame).wf CFG_STATUS_PREASON 0 reason
  let d := (setBitsOf 16 l.opened).foldl (fun d n => d.regionEmpty n) d
  let d := if l.opened = 0 then d else d.post .fault 0x118 l.opened
  (d.finishOpt l.handle status reason).loadOver.wf CFG_STATUS_PLOAD 0 0

/-- The load in progress fails. -/
def State.loadFails (s : State) (reason : Nat) (frame : Option Nat) : State :=
  if s.dev.cfg.load.partialLoad then s.onDev (fun d => d.partialFails reason (reasonStatus reason) frame)
  else s.fullFails reason frame

/-! Starting (R314 to R317, R336) -/

/-- The load in progress is abandoned, with its forwarding: it does not count as failed. -/
def Dev.loadAbandon (d : Dev) : Dev :=
  let l := d.cfg.load
  let d := (d.wf CFG_CHAIN_FWD 0 0).setCfg (fun c => { c with
    chainWait := false, chainLeft := 0, waiting := [], recorded := [] })
  if l.partialLoad then d.partialFails rnABORTED stABORTED none
  else (d.finishOpt l.handle stABORTED rnABORTED).loadOver

/-- A full load starts at CLEAR; `golden` tells what follows the clearing. -/
def State.fullStart (s : State) (handle : Option Nat) (golden : Bool) : State :=
  let d := s.dev.loadAbandon.preRelease
  let d := (d.wf SCB_STAT_STATE 0 3).wf SCB_STAT_CLEAN 0 0
  let d := ((d.wf SYS_STATUS_CONFIGURED 0 0).wf CFG_STATUS_GOLDEN 0 0).wf CFG_STARTUP_NEXT 0 0
  let d := ((d.wf SYS_STATUS_PAIRED 0 0).wf CFG_STATUS_ENC 0 0).wf CFG_STATUS_KEYSEL 0 0
  let d := (d.setCfgState csCLEAR).setCfg (fun c => { c with cfgdonePull := true, after := b2n golden })
  let d := d.setLoad (fun l => { l with handle := handle })
  State.clearConfig { s with dev := { d with scb := { d.scb with wdNow := none } } }

/-- PROGN is recognised low. -/
def State.progn (s : State) : State :=
  (s.fullStart none false).onDev (fun d => d.setCfg (fun c => { c with progn := false }))

/-- PROGN rises: the 441 us of the clearing run from here. -/
def Dev.prognRise (d : Dev) : Dev := d.setCfg (fun c => { c with progn := true, stateNow := d.now })

/-- `n` words of the golden image from its word `k`. -/
def Dev.goldenWords (d : Dev) (k n : Nat) : List Nat := (List.range n).map (fun i => d.flashWord (d.rf CFG_GOLDADDR_ADDR 0 + k + i))

/-- The golden load begins (R316, R317, R320): its header words are read. -/
def Dev.goldenStart (d : Dev) : Dev :=
  let h := d.cfg.load.handle
  let d := ((d.setCfgState csLOAD).wf CFG_STATUS_GOLDEN 0 1).post .edge 0x140 0
  let d := d.setCfg (fun c => { c with cfgerrnPull := false })
  let w := d.goldenWords 0 16
  (d.wf CFG_BYTES_BYTES 0 64).setLoad (fun _ => { Load.reset with
    isOpen := true, golden := true, handle := h, words := w, count := 16, lastNow := d.now })

/-- The host may push an image. -/
def Dev.waitStart (d : Dev) : Dev :=
  let h := d.cfg.load.handle
  (d.setCfgState csWAIT).setLoad (fun _ => { Load.reset with isOpen := true, handle := h, lastNow := d.now })

/-- Configuration memory has been cleared, 441 us after PROGN rose or the state was entered (R314). -/
def Dev.clearDone (d : Dev) : Dev :=
  if (d.cfgState = csCLEAR ∨ d.cfgState = csFAILED) ∧ d.cfg.progn = true ∧ d.cfg.stateNow + 441000 ≤ d.now then
    match d.cfg.after with
    | 0 => d.waitStart
    | 1 => d.goldenStart
    | _ => (d.setCfgState csUNCONF).wf CFG_STATUS_GOLDEN 0 1
  else d

/-- No word within `CFG.WAITTMO`: the golden image (R314). -/
def Dev.waitTimeout (d : Dev) : Dev :=
  if d.cfgState = csWAIT ∧ d.rf CFG_WAITTMO_MS 0 ≠ 0 ∧ d.cfg.stateNow + 1000000 * d.rf CFG_WAITTMO_MS 0 ≤ d.now then
    (d.wf CFG_STATUS_REASON 0 rnNO_IMAGE).goldenStart
  else d

/-! Words (R297 to R299, R312) -/

/-- The words of the body. -/
def ImgHdr.bodyWords (h : ImgHdr) : Nat := h.bodylen / 4

/-- The key a header names; empty where it is not there. -/
def Dev.imageKey (d : Dev) (h : ImgHdr) : List Nat := if h.keysel = 0 then d.cfg.fuseKey else d.cfg.bbrKey

/-- The IV bytes of the header in force. -/
def Load.iv (l : Load) : List Nat := wordBytes ((l.head.drop 6).take 3)

/-- Word `i` from the head of the words not yet taken, deciphered where the image is encrypted; the TAG packet is in
plain. -/
def Dev.imageWord (d : Dev) (i : Nat) : Option Nat :=
  let l := d.cfg.load
  match l.words[i]? with
  | none => none
  | some raw =>
    match l.hdr with
    | none => some raw
    | some h =>
      let idx := (l.pos - 64) / 4 + i
      some (if h.enc = true ∧ idx + 5 < h.bodyWords then gcmWord (d.imageKey h) l.iv idx raw else raw)

/-- The packet at the head: type, LEN, and its words after word 0 if all have come. -/
def Dev.packet (d : Dev) : Option (Nat × Nat × Option (List Nat)) :=
  match d.imageWord 0 with
  | none => none
  | some w =>
    let len := w / 256
    some (w % 256, len, if len < d.cfg.load.words.length then
      some ((List.range len).filterMap (fun i => d.imageWord (1 + i))) else none)

/-- The bytes of the body end where the load stands. -/
def Dev.bodyEnd (d : Dev) : Nat := match d.cfg.load.hdr with
  | none => 0
  | some h => 64 + h.bodylen

/-- What is wrong with the packet at the head as far as it has come (R301, R302). -/
def Dev.packetFault (d : Dev) : Option Nat :=
  let l := d.cfg.load
  match l.hdr with
  | none => none
  | some h =>
    if l.verified then none
    else if d.bodyEnd ≤ l.pos then some rnFORMAT
    else
      match d.packet with
      | none => none
      | some (type, len, _) =>
        let next := l.pos + 4 * (1 + len)
        if orderFits type l.order l.partialLoad h.enc (decide (next = d.bodyEnd)) = false then some rnFORMAT
        else if lenFits type len (d.imageWord 1) = false ∨ d.bodyEnd < next then some rnFORMAT
        else none

/-- A packet that cannot be taken fails the load as soon as it shows. -/
def State.packetScan (s : State) : State :=
  if s.dev.cfg.load.isOpen then
    match s.dev.packetFault with
    | some r => s.loadFails r none
    | none => s
  else s

/-- The words of the image that the load takes. -/
def Load.whole (l : Load) : Option Nat := l.hdr.map (fun h => 16 + h.bodyWords)

/-- The engine drains the FIFO (R298), except while a region powers up and while it forwards. Words past the body are
discarded, save those of a chained payload (R302). -/
def State.drain (s : State) : State :=
  let d := s.dev
  let l := d.cfg.load
  if l.pauseTo ≠ 0 ∨ d.cfg.chainLeft ≠ 0 then s
  else
    let d := d.setLoad (fun l => { l with words := l.words ++ d.cfg.fifo })
    let d := (d.setCfg (fun c => { c with fifo := [] })).wf CFG_FIFOSTAT_FREE 0 1024
    State.packetScan { s with dev := d }

/-- A word goes to the chained payload: only CHAIN_NEXT opens it, other words are discarded. CFDO first sends the instruction WRITE
and the address of the next device's `CFG.FIFO`, 40 clocks of CFCK (R296, R324). -/
def Dev.chainWord (d : Dev) (w : Nat) : Dev :=
  if w % 256 = 8 then
    if w / 256 = 0 then d.setCfg (fun c => { c with chainWait := false })
    else (d.wf CFG_CHAIN_FWD 0 1).setCfg (fun c => { c with
      chainWait := false, chainLeft := w / 256, chainAt := d.now + 400 * (d.rf CFG_CHAIN_DIV 0 + 1), out := c.out ++ [0x02, 0x00030400] })
  else d.inc CFG_FIFOSTAT_DISC 0 1

/-- A word enters the FIFO. -/
def Dev.fifoPut (d : Dev) (w : Nat) : Dev :=
  let d := d.setCfg (fun c => { c with fifo := c.fifo ++ [w] })
  d.wf CFG_FIFOSTAT_FREE 0 (1024 - min 1024 d.cfg.fifo.length)

/-- A word of the load is accepted. -/
def State.acceptWord (s : State) (w : Nat) : State :=
  let d := s.dev
  let first := decide (d.cfg.load.count = 0)
  let d := if first then d.wf CFG_BYTES_BYTES 0 0 else d
  let d := if first = true ∧ d.cfgState = csWAIT then
      (d.setCfgState csLOAD).setCfg (fun c => { c with cfgerrnPull := false })
    else d
  let d := (d.wf CFG_BYTES_BYTES 0 (d.rf CFG_BYTES_BYTES 0 + 4)).setLoad (fun l => { l with count := l.count + 1, lastNow := d.now })
  State.drain { s with dev := d.fifoPut w }

/-- The load takes words: open, host-pushed, and its body not yet complete. -/
def Dev.loadTakes (d : Dev) : Bool :=
  let l := d.cfg.load
  l.isOpen && !l.golden && !l.verified && (match l.whole with
    | some n => decide (l.count < n)
    | none => true)

/-- A word meets a full FIFO on the SPI port (R297, R325). -/
def State.fifoOverflow (s : State) : State :=
  let d := s.dev.wf CFG_FIFOSTAT_OVF 0 1
  let fwd := decide (d.cfg.chainLeft ≠ 0)
  let d := if fwd then
      ((d.wf CFG_CHAIN_CHAINERR 0 1).wf CFG_CHAIN_FWD 0 0).setCfg (fun c => { c with chainLeft := 0, fifo := [] })
    else d
  if d.cfg.load.isOpen = true ∧ d.cfg.load.verified = false ∧ d.cfg.load.golden = false then
    State.loadFails { s with dev := d } rnOVERFLOW none
  else { s with dev := d }

/-- An image word is written to `CFG.FIFO` (R297, R324). -/
def State.cfgWord (s : State) (w : Nat) : State :=
  let d := s.dev
  if d.cfg.chainLeft ≠ 0 ∨ (d.loadTakes = true ∧ d.cfg.chainWait = false) then
    if 1024 ≤ d.cfg.fifo.length then
      if d.on SYS_STATUS_HPSEL 0 then s.onDev (fun d => d.setCfg (fun c => { c with waiting := c.waiting ++ [w] }))
      else s.fifoOverflow
    else if d.cfg.chainLeft ≠ 0 then s.onDev (fun d => d.fifoPut w)
    else s.acceptWord w
  else if d.cfg.chainWait then s.onDev (fun d => d.chainWord w)
  else s.onDev (fun d => d.inc CFG_FIFOSTAT_DISC 0 1)

/-- Words that held the parallel port enter as room comes. -/
def State.waitingWords (s : State) : State :=
  match s.dev.cfg.waiting with
  | [] => s
  | w :: rest =>
    if s.dev.cfg.fifo.length < 1024 then (s.onDev (fun d => d.setCfg (fun c => { c with waiting := rest }))).cfgWord w else s

/-- A gap between words exceeds `CFG.TIMEOUT` (R299, R322). -/
def State.wordTimeout (s : State) : State :=
  let d := s.dev
  let l := d.cfg.load
  if l.isOpen = true ∧ l.golden = false ∧ l.verified = false ∧ d.cfgState ≠ csWAIT ∧ d.loadTakes = true ∧
      l.lastNow + 1000000 * d.rf CFG_TIMEOUT_MS 0 < d.now then s.loadFails rnTIMEOUT none
  else s

/-- A payload word leaves over CFGTHRU (R324, R325): 32 clocks of CFCK each. -/
def State.chainNext (s : State) : State :=
  let d := s.dev
  match d.cfg.fifo with
  | [] => s
  | w :: rest =>
    if d.cfg.chainLeft = 0 ∨ d.now < d.cfg.chainAt then s
    else
      let left := d.cfg.chainLeft - 1
      let d := d.setCfg (fun c => { c with
        fifo := rest, out := c.out ++ [w], chainLeft := left, chainAt := max c.chainAt d.now + 320 * (d.rf CFG_CHAIN_DIV 0 + 1) })
      let d := d.wf CFG_FIFOSTAT_FREE 0 (1024 - min 1024 rest.length)
      State.waitingWords { s with dev := if left = 0 then d.wf CFG_CHAIN_FWD 0 0 else d }

/-! Header (R300, R312, R320, R322) -/

/-- Why the header of the load in progress is refused. -/
def Dev.headerRefused (d : Dev) (w : List Nat) : Option Nat :=
  let l := d.cfg.load
  let h := parseHeader w
  match headerFault w (d.rf SYS_DEVID_STEP 0) l.golden with
  | some r => some r
  | none =>
    if h.kind ≠ b2n l.partialLoad ∨ (l.partialLoad = true ∧ h.chained = true) then some rnFORMAT
    else if l.partialLoad = true ∧ h.paired ≠ d.paired then some rnMODE_CONFLICT
    else if h.enc = false ∧ d.fuses.forceEnc = true then some rnPLAIN
    else if h.enc = true ∧ d.imageKey h = [] then some rnNO_KEY
    else none

/-- `CFG.STATUS` tells how the image of a full load is encrypted, from its header on. -/
def Dev.showsKey (d : Dev) (w : List Nat) : Dev :=
  if d.cfg.load.partialLoad = true ∨ (headerFault w (d.rf SYS_DEVID_STEP 0) d.cfg.load.golden).isSome = true then d
  else (d.wf CFG_STATUS_ENC 0 (b2n (parseHeader w).enc)).wf CFG_STATUS_KEYSEL 0 (parseHeader w).keysel

/-- What a full image sets at its header: mode and policy (R23, R156, R266). -/
def Dev.headerSets (d : Dev) (h : ImgHdr) : Dev :=
  let d := (d.wf SYS_STATUS_PAIRED 0 (b2n h.paired)).wf RGN_GAUNTLET_POLICY 0 (if h.paired then h.policy else 0)
  if h.paired then d.wf CAL_CTRL_TRIG 0 0 else d

/-- The sixteen header words are taken. -/
def State.imageHeader (s : State) : State :=
  let d := s.dev
  let l := d.cfg.load
  if l.isOpen = false ∨ l.hdr ≠ none ∨ l.words.length < 16 then s
  else
    let w := l.words.take 16
    let d := d.showsKey w
    match d.headerRefused w with
    | some r => State.loadFails { s with dev := d } r none
    | none =>
      let h := parseHeader w
      let h := if l.golden then { h with donewait := false, chained := false } else h
      let d := if l.partialLoad then d else d.headerSets h
      let rest := l.words.drop 16
      let rest := if l.golden then d.goldenWords 16 h.bodyWords else rest
      let d := if l.golden then d.wf CFG_BYTES_BYTES 0 (64 + h.bodylen) else d.inc CFG_FIFOSTAT_DISC 0 (rest.length - h.bodyWords)
      State.packetScan { s with dev := d.setLoad (fun l => { l with
        hdr := some h, head := w, pos := 64, words := rest.take h.bodyWords, count := min l.count (16 + h.bodyWords) }) }

/-! Packets -/

/-- The packet at the head has been taken. -/
def State.packetTaken (s : State) (len : Nat) : State :=
  (s.onDev (fun d => d.setLoad (fun l => { l with
    body := l.body ++ l.words.take (1 + len), words := l.words.drop (1 + len), pos := l.pos + 4 * (1 + len) }))).packetScan

/-- The words of a complete packet of a type at the head of an open load. -/
def Dev.packetOf (d : Dev) (type : Nat) : Option (List Nat) :=
  let l := d.cfg.load
  if l.isOpen = true ∧ l.verified = false ∧ l.hdr ≠ none ∧ l.pauseTo = 0 then
    match d.packet with
    | some (t, _, some ws) => if t = type ∧ d.packetFault = none then some ws else none
    | _ => none
  else none

/-- STARTUP_ORDER (R313). -/
def State.startupOrder (s : State) : State :=
  match s.dev.packetOf 6 with
  | none => s
  | some ws =>
    let w := ws.headD 0
    if orderGood w = false then s.loadFails rnORDER none
    else
      let d := if s.dev.cfg.load.partialLoad then s.dev else s.dev.wf CFG_STARTUP_ORDER 0 w
      State.packetTaken { s with dev := d.setLoad (fun l => { l with order := 1 }) } 1

/-- What stops one frame at an address (R305, R310). -/
def Dev.frameFault (d : Dev) (a : Nat) (f : Nat × Nat) : Option Nat :=
  let l := d.cfg.load
  let dev := decide (10240 ≤ a)
  if 11008 ≤ a ∨ (10624 ≤ a ∧ a < 10752) then some rnFRAME_ADDR
  else if dev = true then
    if l.partialLoad = true ∨ l.region.isSome = true then some rnFRAME_ADDR
    else if 2 ^ 16 ≤ f.2 then some rnFORMAT
    else if checkWord f.1 ≠ f.2 then some rnFRAME_CHECK
    else none
  else
    let n := a / 640
    if d.paired = true ∧ 8 ≤ n then some rnMODE_CONFLICT
    else if l.region ≠ some n ∨ 624 ≤ a % 640 then some rnFRAME_ADDR
    else if 2 ^ 16 ≤ f.2 then some rnFORMAT
    else if checkWord f.1 ≠ f.2 then some rnFRAME_CHECK
    else if d.tileFrameBad n (a % 640 / 39) (a % 640 % 39) f.1 then some rnFRAME_CODE
    else none

/-- A frame that has passed its checks: a device frame is held, a tile frame is written, in paired mode to both halves. -/
def Dev.frameTake (d : Dev) (a v : Nat) : Dev :=
  if 10240 ≤ a then d.setLoad (fun l => { l with held := l.held.filter (fun e => decide (e.1 ≠ a)) ++ [(a, v)] })
  else
    let d := d.putFrame a v
    let d := if d.paired then d.putFrame (a + 640 * 8) v else d
    d.setLoad (fun l => { l with wrote := if l.partialLoad then a :: l.wrote else l.wrote })

/-- Frames are checked and taken one by one; the first that fails ends the load (R310, R311). -/
def framesTake (s : State) : List (Nat × (Nat × Nat)) → State × Bool
  | [] => (s, true)
  | (a, f) :: rest =>
    match s.dev.frameFault a f with
    | some r => (s.loadFails r (some a), false)
    | none => framesTake (s.onDev (fun d => d.frameTake a f.1)) rest

/-- The packet of frames has been taken, if every frame passed. -/
def framesDone (x : State × Bool) (len : Nat) : State :=
  if x.2 then
    (x.1.onDev (fun d => d.setLoad (fun l => { l with order := if l.order < 2 then 2 else l.order }))).packetTaken len
  else x.1

/-- FRAME_WRITE (R301): consecutive frames. -/
def State.frameWrite (s : State) : State :=
  match s.dev.packetOf 1 with
  | none => s
  | some ws =>
    let body := ws.drop 1
    framesDone (framesTake s ((List.range (body.length / 33)).map (fun k => (ws.headD 0 + k, frameAt body k)))) ws.length

/-- FRAME_REPEAT (R301): one frame at each of m addresses. -/
def State.frameRepeat (s : State) : State :=
  match s.dev.packetOf 2 with
  | none => s
  | some ws =>
    let f := frameAt (ws.drop 1) 0
    let addrs := ws.drop 34
    if addrs.any (fun a => decide (2 ^ 14 ≤ a)) then s.loadFails rnFORMAT none
    else framesDone (framesTake s (addrs.map (fun a => (a, f)))) ws.length

/-- The set of held device frames is checked and written once (R310): the registers take what they hold. -/
def State.setCheck (s : State) : State × Bool :=
  let l := s.dev.cfg.load
  if l.setDone = true ∨ l.partialLoad = true then (s, true)
  else
    match s.dev.setFault l.held with
    | some r => (s.loadFails r none, false)
    | none =>
      let d := { s.dev with regs := withFrames s.dev.regs l.held }
      let d := l.held.foldl (fun d e => d.putFrame e.1 e.2) d
      ({ s with dev := d.anxTake.setLoad (fun l => { l with setDone := true, held := [] }) }, true)

/-- What stops a REGION_BEGIN (R253, R261, R310): a reason and the interface frame it was found in, if it was one; the
frames' check words come first. -/
def Dev.beginFault (d : Dev) (n : Nat) (fr : List (Nat × Nat)) : Option (Nat × Option Nat) :=
  let l := fr.map (fun f => f.1)
  let fsel := bitsOf (l.getD 0 0) 0 3
  if tbit d.cfg.load.seen n then some (rnFORMAT, none)
  else if fr.any (fun f => decide (2 ^ 16 ≤ f.2)) then some (rnFORMAT, none)
  else
    match fr.findIdx? (fun f => decide (checkWord f.1 ≠ f.2)) with
    | some k => some (rnFRAME_CHECK, some (ifFrameAddr n k))
    | none =>
      if d.paired = true ∧ pairedBad n l = true then some (rnMODE_CONFLICT, none)
      else
        match (List.range 16).find? (fun k => ifFrameBad n l k) with
        | some k => some (rnFRAME_CODE, some (ifFrameAddr n k))
        | none =>
          if rateBad d.regs n fsel = true ∨ d.cuffRateBad d.regs n fsel = true then some (rnMODE_CONFLICT, none)
          else none

/-- A region opened by a partial load goes to LOADING behind its brim (R254). -/
def Dev.regionLoading (d : Dev) (n : Nat) : Dev :=
  let d := ((d.clampBrim n).regionReset n).setRgn n rsLOADING
  (d.setFab (fun f => { f with starts := tset f.starts (0, false) n (0, false) })).snapSettle

/-- The declarations of a region are written: interface frames, output port sources and the clock; a clock that comes from
OFF powers the region, and frames wait for 20 us. -/
def Dev.regionDeclare (d : Dev) (n : Nat) (l : List Nat) : Dev :=
  let d := ((List.range 16).zip l).foldl (fun d x => d.putFrame (ifFrameAddr n x.1) x.2) d
  let f0 := l.getD 0 0
  let d := (List.range 4).foldl (fun d p => d.wf (FAB_SOMAP_MSRC p) n (bitsOf f0 (56 + 32 * p) 4)) d
  let d := d.wf FAB_SOMAP_EDLY n (bitsOf f0 3 6)
  let new := bitsOf f0 0 3
  let old := d.fsel n
  let d := if new = old then d else d.setLoad (fun l => { l with clocked := setBit l.clocked n true })
  if new = 0 then d
  else
    let d := d.wf FAB_RCLK_FSEL n new
    if old = 0 then d.setLoad (fun l => { l with pauseTo := d.now + 20000 }) else d

/-- REGION_BEGIN (R253, R254, R301). -/
def State.regionBegin (s : State) : State :=
  match s.dev.packetOf 3 with
  | none => s
  | some ws =>
    let n := ws.headD 0 % 16
    let fr := (List.range 16).map (fun k => frameAt (ws.drop 1) k)
    let x := s.setCheck
    if x.2 = false then x.1
    else
      let d := x.1.dev
      if d.cfg.load.partialLoad = true ∧ d.pwr.st ≠ .run ∧ d.pwr.st ≠ .hold then
        x.1.onDev (fun d => d.partialFails rnABORTED stBAD_STATE none)
      else
        match d.beginFault n fr with
        | some (r, a) => State.loadFails { x.1 with dev := d.setLoad (fun l => { l with region := some n }) } r a
        | none =>
          let hs := d.halves n
          let d := if d.cfg.load.partialLoad then
              hs.foldl (fun d m => (d.regionLoading m).setLoad (fun l => { l with opened := setBit l.opened m true })) d
            else d
          let d := hs.foldl (fun d m => d.regionDeclare m (fr.map (fun f => f.1))) d
          State.packetTaken { x.1 with dev := d.setLoad (fun l => { l with
            region := some n, seen := setBit l.seen n true, order := 3 }) } 529

/-- The 20 us of a region's power-up are over (R254): frame writing may begin. -/
def State.regionPowerUp (s : State) : State :=
  let l := s.dev.cfg.load
  if l.pauseTo ≠ 0 ∧ l.pauseTo ≤ s.dev.now then
    ((s.onDev (fun d => d.setLoad (fun l => { l with pauseTo := 0 }))).drain).waitingWords
  else s

/-- REGION_END (R302). -/
def State.regionEnd (s : State) : State :=
  match s.dev.packetOf 4 with
  | none => s
  | some _ => (s.onDev (fun d => d.setLoad (fun l => { l with region := none, order := 4 }))).packetTaken 0

/-- MEM_INIT (R309). -/
def State.memInit (s : State) : State :=
  match s.dev.packetOf 5 with
  | none => s
  | some ws =>
    let w := ws.headD 0
    let t := w % 256
    let first := bitsOf w 8 10
    let data := ws.drop 1
    if data.any (fun v => decide (2 ^ 24 ≤ v)) then s.loadFails rnFORMAT none
    else if s.dev.cfg.load.region ≠ some (tileRegion t) ∨ 1024 < first + data.length then s.loadFails rnFRAME_ADDR none
    else
      let put (t : Nat) (s : State) : State :=
        ((List.range data.length).zip data).foldl (fun s x => s.spWrite t (first + x.1) x.2) s
      let s := put t s
      let s := if s.dev.paired then put (tileOf (tileRegion t + 8) (tileIndex t)) s else s
      s.packetTaken ws.length

/-! The end of the body (R302, R312, R314, R254) -/

/-- A region of a verified partial load goes on to its start-up, or OFF (R254, R303). -/
def State.regionVerified (s : State) (n : Nat) : State :=
  let d := s.dev
  let l := d.cfg.load
  let base := if d.paired then n % 8 else n
  let blank := (List.range 624).filter (fun f => !(l.wrote.contains (640 * base + f)) && decide (tget d.fab.frames 0 (640 * n + f) ≠ 0 ∨ tget d.fab.upset 0 (640 * n + f) ≠ 0))
  let d := blank.foldl (fun d f => d.putFrame (640 * n + f) 0) d
  let d := d.setFab (fun x => { x with knownBad := x.knownBad.filter (fun a => !(inRegionFrames n a)) })
  let fsel := d.ifBits n 0 0 3
  if fsel = 0 then State.regionOff { s with dev := d } n
  else { s with dev := (d.wf FAB_RCLK_FSEL n fsel).regionStarts n (if tbit l.clocked n then 11000 else 1000) true }

/-- A partial load whose regions have all reached DONE is complete. -/
def Dev.partialSettle (d : Dev) : Dev :=
  let l := d.cfg.load
  if l.partialLoad = true ∧ l.verified = true ∧
      (setBitsOf 16 l.opened).all (fun n => decide (d.rgnState n ≠ rsSTARTING)) = true then
    ((d.wf CFG_STATUS_PREASON 0 0).finishOpt l.handle stOK 0).loadOver.wf CFG_STATUS_PLOAD 0 0
  else d

/-- CFGDONE is released. -/
def Dev.releaseDone (d : Dev) : Dev := d.setCfg (fun c => { c with cfgdonePull := false })

/-- The start-up order begins (R313). -/
def Dev.startupBegins (d : Dev) : Dev :=
  ((d.setCfgState csSTARTUP).wf CFG_STARTUP_NEXT 0 0).setCfg (fun c => { c with starting := d.now, recorded := [] })

/-- The image has verified (R312, R314). -/
def State.verified (s : State) (h : ImgHdr) : State :=
  let s := s.onDev (fun d => d.setLoad (fun l => { l with isOpen := false, verified := true }))
  if s.dev.cfg.load.partialLoad then
    ((setBitsOf 16 s.dev.cfg.load.opened).foldl (fun s n => s.regionVerified n) s).onDev (fun d => d.partialSettle)
  else
    s.onDev (fun d => if h.donewait then d.releaseDone.setCfgState csSYNC else d.startupBegins)

/-- The end packet has come: the set is checked if no section did so, and `good` tells whether the image verifies. A
chained payload is forwarded whatever the result (R324). -/
def State.imageEnds (s : State) (good : Bool) (reason len : Nat) : State :=
  let x := s.setCheck
  if x.2 = false then x.1
  else
    match x.1.dev.cfg.load.hdr with
    | none => x.1
    | some h =>
      let s := x.1.onDev (fun d => d.setCfg (fun c => { c with chainWait := h.chained }))
      if good = false then s.loadFails reason none
      else
        let s := s.onDev (fun d => d.setLoad (fun l => { l with
          body := l.body ++ l.words.take (1 + len), words := [], pos := l.pos + 4 * (1 + len) }))
        s.verified h

/-- CHECK (R301, R312). -/
def State.check (s : State) : State :=
  match s.dev.packetOf 7 with
  | none => s
  | some ws => s.imageEnds (decide (ws.headD 0 = crcWords s.dev.cfg.load.body)) rnCHECK_FAIL 1

/-- TAG (R312). -/
def State.tag (s : State) : State :=
  match s.dev.packetOf 9, s.dev.cfg.load.hdr with
  | some ws, some h =>
    let l := s.dev.cfg.load
    let t := gcmTag (s.dev.imageKey h) l.iv (wordBytes l.head) (wordBytes l.body)
    s.imageEnds (decide (wordBytes ws = t)) rnTAG_FAIL 4
  | _, _ => s

/-! Chain waiting and start-up (R313, R314, R326) -/

/-- The CFGDONE net goes high. -/
def Dev.cfgdoneRise (d : Dev) : Dev := if d.cfgState = csSYNC then d.startupBegins else d

/-- CFGDONE stays low for `CFG.TIMEOUT`. -/
def State.syncTimeout (s : State) : State :=
  if s.dev.cfgState = csSYNC ∧ s.dev.cfg.stateNow + 1000000 * s.dev.rf CFG_TIMEOUT_MS 0 ≤ s.dev.now then
    s.fullFails rnCHAIN_WAIT none
  else s

/-- Every PLL that runs reports lock; the PLL of a quad without power is not asked. -/
def Dev.pllsLocked (d : Dev) : Bool :=
  (List.range 11).all (fun i => tbit (d.rf CLK_PLLSTAT_LOCK 0) i || (decide (7 ≤ i ∧ i ≤ 9) && !(d.domOn i)))

/-- The step that `CFG.STARTUP.NEXT` names is `code`, and its 200 ns are over. -/
def Dev.stepDue (d : Dev) (code : Nat) : Bool :=
  let k := d.rf CFG_STARTUP_NEXT 0
  decide (d.cfgState = csSTARTUP) && decide (k < 6) && decide (bitsOf (d.rf CFG_STARTUP_ORDER 0) (4 * k) 4 = code) &&
    (decide (code = 0) || decide (d.cfg.starting + 200 ≤ d.now))

/-- The next step begins. -/
def Dev.stepDone (d : Dev) : Dev :=
  (d.wf CFG_STARTUP_NEXT 0 (d.rf CFG_STARTUP_NEXT 0 + 1)).setCfg (fun c => { c with starting := d.now })

/-- LOCK has completed. -/
def Dev.lockDone (d : Dev) : Bool :=
  (List.range (d.rf CFG_STARTUP_NEXT 0)).any (fun k => decide (bitsOf (d.rf CFG_STARTUP_ORDER 0) (4 * k) 4 = 0))

/-- The regions that a start-up starts: those with a clock, but for an EMPTY one, which only a load starts (R258). -/
def Dev.clockedRegions (d : Dev) : List Nat :=
  (List.range 16).filter (fun n => decide (d.fsel n ≠ 0) && decide (d.rgnState n ≠ rsEMPTY))

/-- A step that acts on the fabric. -/
def Dev.fabricStep (d : Dev) (code : Nat) : Dev :=
  if code = 2 then d.clockedRegions.foldl (fun d n => d.gsrRelease n) d
  else d.clockedRegions.foldl (fun d n => d.wenRelease n) d

/-- GSRREL or WEN: it acts, or before LOCK is recorded and acts at LOCK. -/
def Dev.fabricStepRow (d : Dev) (code : Nat) : Dev :=
  if d.stepDue code then
    (if d.lockDone then d.fabricStep code else d.setCfg (fun c => { c with recorded := c.recorded ++ [code] })).stepDone
  else d

/-- LOCK. -/
def Dev.stepLock (d : Dev) : Dev :=
  if d.stepDue 0 = true ∧ d.pllsLocked = true then
    (d.cfg.recorded.foldl (fun d c => d.fabricStep c) d).stepDone.setCfg (fun c => { c with recorded := [] })
  else d

/-- LOCK lasts over 1 ms. -/
def State.pllTimeout (s : State) : State :=
  if s.dev.stepDue 0 = true ∧ s.dev.pllsLocked = false ∧ s.dev.cfg.starting + 1000000 < s.dev.now then
    s.fullFails rnPLL_LOCK none
  else s

/-- OUTREL: pins, head-control ports and lanes leave the pre-release state. -/
def Dev.stepOutrel (d : Dev) : Dev := if d.stepDue 1 then d.padsRelease.headsFree.lanesSettle.stepDone else d

/-- ANAREL: the analogue section connects. -/
def Dev.stepAnarel (d : Dev) : Dev := if d.stepDue 4 then d.anxRelease.stepDone else d

/-- Regions leave their start-up at DONE of the device: those with a clock run, the others are OFF. -/
def Dev.regionsDone (d : Dev) : Dev :=
  (List.range 16).foldl (fun d n =>
    if d.rgnState n = rsEMPTY then d
    else if d.fsel n ≠ 0 then d.regionRuns n
    else ((d.setRgn n rsOFF).wbit SCB_RELOADREQ_REGION 0 n false).setSuspect n false) d

/-- The scrubber starts a sweep at frame 0. -/
def Dev.sweepStart (d : Dev) : Dev :=
  let d := (d.wf SCB_POS_FRAME 0 0).wf SCB_STAT_STATE 0 (d.rf SCB_CTRL_EN 0)
  { d with scb := { d.scb with sweepNow := d.now, lastCheck := 0, lastLen := 0, dirty := false } }

/-- DONE (R313, R314, R316 to R319, R338). -/
def Dev.stepDoneRow (d : Dev) : Dev :=
  if d.stepDue 5 then
    let l := d.cfg.load
    let d := (d.stepDone.releaseDone.setCfgState csDONE).wf SYS_STATUS_CONFIGURED 0 1
    let d := match l.hdr with
      | some h => d.wf CFG_IMAGEID_ID 0 h.id
      | none => d
    let d := if l.hdr.isSome = true ∧ l.golden = false then d.wf CFG_RETRY_COUNT 0 0 else d
    let d := (d.finishOpt l.handle stOK 0).loadOver
    let d := d.regionsDone.sweepStart
    { d with scb := { d.scb with wdNow := none } }
  else d

/-- The boot flash has been busy for 100 ms in a golden load (R320). -/
def State.flashTimeout (s : State) : State :=
  let l := s.dev.cfg.load
  if l.golden = true ∧ l.isOpen = true ∧ l.lastNow + 100000000 ≤ s.dev.now then s.fullFails rnFLASH none else s

/-! Partial loads opened by the host (R322, R323) -/

/-- Why a partial load is refused. -/
def Dev.partialRefused (d : Dev) : Option Nat :=
  if (d.pwr.st ≠ .run ∧ d.pwr.st ≠ .hold) ∨ d.cfgState ≠ csDONE then some stBAD_STATE
  else if d.cfg.load.isOpen = true ∨ d.on CFG_STATUS_PLOAD 0 = true then some stBUSY
  else none

def Dev.partialOpen (d : Dev) (h : Nat) : Dev :=
  (d.wf CFG_STATUS_PLOAD 0 1).setLoad (fun _ => { Load.reset with
    isOpen := true, partialLoad := true, handle := some h, lastNow := d.now })

/-- An ABORT of the handle of a load (R323, R374, R375): the handle is already marked stopping. A full load goes through
CLEAR to WAIT, with REASON ABORTED. -/
def State.loadAbort (s : State) (h : Nat) : State :=
  if s.dev.cfg.load.handle = some h then
    if s.dev.cfg.load.partialLoad then s.onDev (fun d => d.partialFails rnABORTED stABORTED none)
    else (s.fullStart none false).onDev (fun d => d.wf CFG_STATUS_REASON 0 rnABORTED)
  else s

end Sys2Proof.Machine
end

