-- ==== Sys2Proof/Machine/Evq.lean ====
section
/-! DEFINITION. The event queue (R384 to R393) and telemetry reports (R396). -/

namespace Sys2Proof.Machine

def Dev.setEvq (d : Dev) (f : Evq → Evq) : Dev := { d with evq := f d.evq }

/-- Code of a record kind (R385). -/
def RecKind.code : RecKind → Nat
  | .completion => 1
  | .aborted => 2
  | .level => 3
  | .edge => 4
  | .fault => 5
  | .void => 6
  | .overflow => 7
  | .telemetry => 8
  | .mismatch => 9

def Dev.evqSize (d : Dev) : Nat := d.rf EVQ_SIZE_SIZE 0

/-- Records from TAIL to HEAD (R388). -/
def Dev.evqFill (d : Dev) : Nat :=
  (d.rf EVQ_HEAD_HEAD 0 + 2 * d.evqSize - d.rf EVQ_TAIL_TAIL 0) % (2 * d.evqSize)

/-- The firmware serves the queue: booted, and its domain powered. -/
def Dev.evqServes (d : Dev) : Bool := d.pwr.booted && d.domOn 2

/-- HIRQN follows the fill (R392). -/
def Dev.evqPins (d : Dev) : Dev :=
  let n := d.evqFill
  let d := d.setEvq (fun q => { q with hirq := decide (n ≠ 0) })
  ((d.wf EVQ_STAT_FILL 0 n).wf EVQ_STAT_IRQ 0 (b2n (decide (n ≠ 0)))).wf EVQ_STAT_WAKE 0 (b2n d.evq.hwake)

/-- The words of a record (R384). -/
def EvRec.slot (r : EvRec) (seq : Nat) : EvSlot :=
  { w0 := r.kind.code * 2 ^ 24 + r.source % 2 ^ 12 * 2 ^ 12 + b2n r.more * 2 ^ 9 + b2n r.crown * 2 ^ 8 + seq
    w1 := r.value % 2 ^ 32, w2 := r.tb % 2 ^ 32, w3 := r.tb / 2 ^ 32 % 2 ^ 32 }

/-- Slot `s` of the queue. -/
def Dev.evSlot (d : Dev) (s : Nat) : EvSlot := tget d.evq.slots ⟨0, 0, 0, 0⟩ s

def Dev.setEvSlot (d : Dev) (s : Nat) (x : EvSlot) : Dev :=
  d.setEvq (fun q => { q with slots := tset q.slots ⟨0, 0, 0, 0⟩ s x })

/-- A record is written at HEAD, which advances (R386, R389); HWAKE rouses a sleeping host (R392). -/
def Dev.recWrite (d : Dev) (r : EvRec) : Dev :=
  let head := d.rf EVQ_HEAD_HEAD 0
  let seq := d.rf EVQ_STAT_SEQ 0
  let d := d.setEvSlot (head % d.evqSize) (r.slot seq)
  let d := if r.kind = .level then d.setEvq (fun q => { q with tracked := q.tracked ++ [⟨head, r.source⟩] }) else d
  let d := if r.kind = .void then d.inc EVQ_CNT_VOIDS 0 1 else d
  let d := (d.wf EVQ_HEAD_HEAD 0 ((head + 1) % (2 * d.evqSize))).wf EVQ_STAT_SEQ 0 ((seq + 1) % 256)
  (if d.on EVQ_CTRL_HOSTSLEEP 0 then d.setEvq (fun q => { q with hwake := true }) else d).evqPins

/-- Records are lost (R393). -/
def Dev.recLost (d : Dev) (n : Nat) : Dev := (d.inc EVQ_LOST_LOST 0 n).inc EVQ_CNT_LOSTTOT 0 n

/-- The OVERFLOW record is written as soon as a slot is free while LOST is not 0. -/
def Dev.overflowWrite (d : Dev) : Dev :=
  if d.evqServes = true ∧ d.rf EVQ_LOST_LOST 0 ≠ 0 ∧ d.evqFill < d.evqSize then
    let n := d.rf EVQ_LOST_LOST 0
    (d.wf EVQ_LOST_LOST 0 0).recWrite
      { kind := .overflow, source := 0x180, crown := false, more := false, value := n, tb := d.t }
  else d

/-- The final record of a handle waits while words of its ACCEPTED reply are outside the reply FIFO (R372). -/
def Dev.replyFirst (d : Dev) (r : EvRec) : Bool :=
  (decide (r.kind = .completion) || decide (r.kind = .aborted)) && !(d.kw.pend.isEmpty) &&
    decide (r.value % 0x1000 = d.kw.replyHandle)

/-- The oldest record of a source that is on its way reaches the queue: written, or lost when it is full. -/
def Dev.recordArrives (d : Dev) (src : Nat) : Dev :=
  if d.evqServes then
    match d.evq.inFlight.find? (fun r => decide (r.source = src) && !(d.replyFirst r)) with
    | none => d
    | some r =>
      let d := (d.setEvq (fun q => { q with inFlight := q.inFlight.erase r })).overflowWrite
      if d.evqFill < d.evqSize then d.recWrite r else d.recLost 1
  else d

/-- Why a TAIL write is refused (R390). -/
def Dev.tailRefused (d : Dev) (t : Nat) : Bool :=
  decide (2 * d.evqSize ≤ t) || decide (d.evqFill < (t + 2 * d.evqSize - d.rf EVQ_TAIL_TAIL 0) % (2 * d.evqSize))

/-- The host has released records. -/
def Dev.tailWritten (d : Dev) : Dev := d.evqPins.overflowWrite

/-- A write of `EVQ.CTRL.HOSTSLEEP` (R392). -/
def Dev.hostSleep (d : Dev) : Dev :=
  let v := d.on EVQ_CTRL_HOSTSLEEP 0
  (d.setEvq (fun q => { q with hwake := v && (q.hwake || decide (d.evqFill ≠ 0)) })).evqPins

/-- The host has passed the record at index `i` (R388). -/
def Dev.passed (d : Dev) (i : Nat) : Bool :=
  decide ((d.rf EVQ_TAIL_TAIL 0 + 4 * d.evqSize - i - 1) % (2 * d.evqSize) < d.evqSize - d.evqFill) ||
    decide (d.evqFill = 0)

/-- The critical section for the oldest fallen level (R391). -/
def Dev.levelRevoke (d : Dev) : Dev :=
  if d.evqServes then
    match d.evq.revoke with
    | [] => d
    | l :: rest =>
      let d := d.setEvq (fun q => { q with revoke := rest })
      if d.passed l.index then d
      else
        let s := l.index % d.evqSize
        let x := d.evSlot s
        (d.setEvSlot s { x with w0 := setBits x.w0 24 8 6 }).inc EVQ_CNT_VOIDS 0 1
  else d

/-! Telemetry (R396) -/

/-- The items of a report: source and value. -/
def Dev.telItems (d : Dev) : List (Nat × Nat) :=
  let c := d.kw.telContent
  (if tbit c 0 then (List.range 4).map (fun i => (0x190 + i, d.rf TMP_TS_T (2 * i) + d.rf TMP_TS_T (2 * i + 1) * 2 ^ 16)) else []) ++
  (if tbit c 1 then
    [(0x194, (d.rreg .TMP_RAIL0 0).toNat), (0x195, (d.rreg .TMP_RAIL1 0).toNat), (0x196, (d.rreg .TMP_RAIL2 0).toNat),
      (0x197, (d.rreg .TMP_RAIL3 0).toNat)] else []) ++
  (if tbit c 2 then [(0x198, d.cal.act % 2 ^ 8 + d.enabledCount % 2 ^ 7 * 2 ^ 8)] else []) ++
  (if tbit c 3 then
    [(0x199, (d.rreg .SYS_ACCERR 0).toNat), (0x19A, (d.rreg .SYS_NOWNER 0).toNat), (0x19B, (d.rreg .SYS_KWCNT 0).toNat)] else [])

/-- The records of a report: one TB, MORE on every one but the last. -/
def telRecords (tb : Nat) : List (Nat × Nat) → List EvRec
  | [] => []
  | [x] => [⟨.telemetry, x.1, false, false, x.2, tb⟩]
  | x :: y :: r => ⟨.telemetry, x.1, false, true, x.2, tb⟩ :: telRecords tb (y :: r)

/-- The telemetry period elapses: a report is written whole, or lost. -/
def Dev.telPeriod (d : Dev) : Dev :=
  if d.kw.telPeriod ≠ 0 ∧ d.kw.telNext ≤ d.now then
    let d := { d with kw := { d.kw with telNext := d.kw.telNext + d.kw.telPeriod } }
    if d.pwr.booted = true ∧ (d.pwr.st = .run ∨ d.pwr.st = .hold ∨ d.pwr.st = .nap) then
      let l := telRecords d.t d.telItems
      let d := d.overflowWrite
      if d.evqFill + l.length ≤ d.evqSize then l.foldl (fun d r => d.recWrite r) d else d.recLost l.length
    else d
  else d

/-! Configuration and power (R392, R393) -/

/-- EVQ_CONFIG: accepted only while the queue is empty. -/
def Dev.evqConfig (d : Dev) (size : Nat) : Dev :=
  let d := ((d.wf EVQ_SIZE_SIZE 0 size).wf EVQ_HEAD_HEAD 0 0).wf EVQ_TAIL_TAIL 0 0
  (d.setEvq (fun q => { q with tracked := [], revoke := [] })).evqPins

/-- Records not yet written are lost when a warm start begins (R353, R393). -/
def Dev.evqWarm (d : Dev) : Dev :=
  let n := d.evq.inFlight.length
  (d.setEvq (fun q => { q with inFlight := [] })).recLost n

/-- A power-fail warning empties the queue (R354, R392): every slot reads 0 after recovery. -/
def Dev.evqPfail (d : Dev) : Dev :=
  let d := (d.wf EVQ_HEAD_HEAD 0 0).wf EVQ_TAIL_TAIL 0 0
  (d.setEvq (fun q => { q with inFlight := [], slots := [], tracked := [], revoke := [], hwake := false })).evqPins

/-- A word of the event window (R387). -/
def Dev.evqWord (d : Dev) (off : Nat) : Nat :=
  if off / 16 < d.evqSize then
    let x := d.evSlot (off / 16)
    match off % 16 / 4 with
    | 0 => x.w0
    | 1 => x.w1
    | 2 => x.w2
    | _ => x.w3
  else 0

end Sys2Proof.Machine
end

