-- ==== Sys2Proof/Machine/Scrub.lean ====
section
/-! DEFINITION. The scrubber (R328 to R343). A frame is compared with its golden check word through the bits in which it
differs from what was written, which the code allows because it is linear (R328). -/

namespace Sys2Proof.Machine

def Dev.setScb (d : Dev) (f : Scb → Scb) : Dev := { d with scb := f d.scb }

/-! Frames and upsets -/

/-- Address is in the frame list (R328). -/
def frameListed (a : Nat) : Bool := decide (a < 10624) || (decide (10752 ≤ a) && decide (a < 11008))

/-- The other frame of the RAM word that holds the golden check word of a frame (R328): pairs in ascending order. -/
def frameMate (a : Nat) : Nat := if a % 2 = 0 then a + 1 else a - 1

/-- What follows a changed bit of a register that a device frame holds: thresholds, switches and pins act on it at once
(R331). -/
def Dev.heldActs (o d : Dev) (k : RegKind) (i : Nat) : Dev :=
  let move (d : Dev) (e : Nat) : Dev := d.moveSwitch e (o.switchBus e)
  match k with
  | .CMP_THR => d.setCmp i { d.getCmp i with th := d.rf CMP_THR_TH i, hys := d.rf CMP_THR_HYS i, thNew := [] }
  | .ASW_AX => move d i
  | .ASW_MTAP => move d (224 + i)
  | .CAC_SEL => move (move (move d (32 + i)) (64 + i)) (96 + i)
  | .CAC_CFG => d.cacUpdate i
  | .CAC_NET => d.cacUpdate i
  | .CMP_CFG => move (move d (128 + i)) (176 + i)
  | .CMP_TICK => o.cmpRetick d i
  | .GPIO_CFG => d.padUpdate i
  | _ => d

/-- Payload bit `b` of a device frame is inverted in the register that holds it. -/
def Dev.flipHeld (d : Dev) (a b : Nat) : Dev :=
  if tbit (heldMask a (b / 32)) (b % 32) then
    match frameReg a (b / 32) with
    | some (k, i) => d.heldActs (d.wreg k i (d.rreg k i ^^^ BitVec.ofNat 32 (2 ^ (b % 32)))) k i
    | none => d
  else d

/-- The payload bits of a mask are inverted in a frame, check words staying as they are. -/
def Dev.flipBits (d : Dev) (a mask : Nat) : Dev :=
  if mask = 0 then d
  else
    let b := d
    let d := d.setFab (fun f => { f with upset := tset f.upset 0 a (Nat.xor (tget f.upset 0 a) (mask % 2 ^ 1024)) })
    if 10240 ≤ a then (setBitsOf 1024 mask).foldl (fun d b => d.flipHeld a b) d
    else
      let n := a / 640
      let f := a % 640 % 39
      if a % 640 < 624 ∧ (f = 3 ∨ f = 4 ∨ f = 5) then
        let t := tileOf n (a % 640 / 39)
        (b.keepTile d t).codeCheck t
      else d

/-- Bits of the stored check word are inverted. -/
def Dev.flipCheck (d : Dev) (a mask : Nat) : Dev :=
  d.setFab (fun f => { f with cwUpset := tset f.cwUpset 0 a (Nat.xor (tget f.cwUpset 0 a) (mask % 2 ^ 16)) })

def Dev.upsetOf (d : Dev) (a : Nat) : Nat := tget d.fab.upset 0 a

/-! Classification (R330) -/

/-- Kinds of R330. -/
def kdCLEAN : Nat := 0
def kdSINGLE : Nat := 1
def kdCHECKWORD : Nat := 2
def kdDOUBLE : Nat := 3
def kdMULTI : Nat := 4
def kdHARD : Nat := 5
def kdRAM : Nat := 6

/-- Hamming sum of a payload (R304). -/
def hammingSum (payload : Nat) : Nat := checkWord payload % 2 ^ 11

/-- The payload bit whose position in the code is `s`. -/
def bitAtPos (s : Nat) : Option Nat := checkPos.findIdx? (fun v => decide (v = s))

/-- Kind and payload bit of a frame that differs from its golden check word by payload bits `u`; `cw` are the bits by which
that word differs from the one it is compared with, and `cs` tells that the stored word agrees. -/
def frameKind (u cw : Nat) (cs : Bool) : Nat × Nat :=
  let s := Nat.xor (hammingSum u) (cw % 2 ^ 11)
  let q := (parityOf 1024 u + parityOf 11 cw + cw / 2 ^ 11) % 2
  if s = 0 ∧ q = 0 then (if cs then kdCLEAN else kdCHECKWORD, 0)
  else if q = 0 then (kdDOUBLE, 0)
  else match bitAtPos s with
    | some b => (kdSINGLE, b)
    | none => (kdMULTI, 0)

/-- `SCB.LASTERR` (R330). -/
def Dev.lastErr (d : Dev) (a kind bit : Nat) : Dev :=
  (((d.wf SCB_LASTERR_FRAME 0 a).wf SCB_LASTERR_BIT 0 bit).wf SCB_LASTERR_KIND 0 kind).wf SCB_LASTERR_VALID 0 1

/-- The value of a FAULT record of a frame (R332). -/
def faultValue (a kind : Nat) : Nat :=
  a + kind * 2 ^ 16 + (if 10240 ≤ a then 15 else a / 640) * 2 ^ 20 + b2n (decide (10240 ≤ a)) * 2 ^ 24

/-- A frame that cannot be corrected (R332, R268, R336). -/
def Dev.uncorrectable (d : Dev) (a kind : Nat) : Dev :=
  let d := (d.setFab (fun f => { f with knownBad := a :: f.knownBad })).lastErr a kind 0
  let d := ((d.inc SCB_CNT_UNC 0 1).wf SCB_STAT_CLEAN 0 0).setScb (fun s => { s with dirty := true })
  let d := d.post .fault 0x141 (faultValue a kind)
  if 10240 ≤ a then d.wf SCB_STAT_DEVDBE 0 1
  else
    let m := a / 640
    if d.paired then (d.setSuspect m true).post .fault (0x110 + m % 8) m
    else
      let d := d.wbit SCB_RELOADREQ_REGION 0 m true
      if d.rf SCB_CTRL_DBEACT 0 = 1 then
        (if tbit (d.rf RGN_ISOLATE_REGION 0) m ∨ d.isolateRefused m = true then d.wbit RGN_ISOLATE_REGION 0 m true else d.isolate m)
      else d

/-- A payload bit is corrected and the frame written with the golden check word; `hard` tells that the read afterwards
still differs, which ends HARD. -/
def Dev.correct (d : Dev) (a b : Nat) (hard : Bool) : Dev :=
  if hard then d.uncorrectable a kdHARD
  else
    let d := (d.flipBits a (2 ^ b)).setFab (fun f => { f with cwUpset := tset f.cwUpset 0 a 0 })
    (d.inc SCB_CNT_SBE 0 1).lastErr a kdSINGLE b

/-- The check of one frame against its golden word: the state and how long the check takes (R330, R331). -/
def Dev.checkFrame (d : Dev) (a : Nat) (hard : Bool) : Dev × Nat :=
  let cw := tget d.fab.cwUpset 0 a
  let k := frameKind (d.upsetOf a) 0 (decide (cw = 0))
  if k.1 = kdCLEAN then (d, 120)
  else if k.1 = kdCHECKWORD then
    (((d.setFab (fun f => { f with cwUpset := tset f.cwUpset 0 a 0 })).inc SCB_CNT2_CWFIX 0 1).lastErr a kdCHECKWORD 0, 240)
  else if k.1 = kdSINGLE then (d.correct a k.2 hard, 360)
  else (d.uncorrectable a k.1, 120)

/-! The scrubber RAM (R334) -/

/-- The golden word of a frame is rebuilt from what the frame now holds. -/
def Dev.rebuildGolden (d : Dev) (a : Nat) : Dev :=
  (d.setFab (fun f => { f with
    frames := if 10240 ≤ a ∧ a < 10752 then f.frames else tset f.frames 0 a (Nat.xor (tget f.frames 0 a) (tget f.upset 0 a))
    upset := tset f.upset 0 a 0, cwUpset := tset f.cwUpset 0 a 0 })).wf SCB_STAT_SELFERR 0 1

/-- A frame whose golden word is lost is checked against its stored check word. -/
def Dev.checkStored (d : Dev) (a : Nat) (hard : Bool) : Dev :=
  if d.fab.knownBad.contains a = true ∨ frameListed a = false then d
  else
    let k := frameKind (d.upsetOf a) (tget d.fab.cwUpset 0 a) true
    if k.1 = kdCLEAN ∨ (k.1 = kdSINGLE ∧ hard = false) then
      let d := if k.1 = kdSINGLE then (d.flipBits a (2 ^ k.2)).inc SCB_CNT_SBE 0 1 else d
      let d := ((d.rebuildGolden a).lastErr a kdRAM 0).inc SCB_CNT_UNC 0 1
      ((d.wf SCB_STAT_CLEAN 0 0).setScb (fun s => { s with dirty := true })).post .fault 0x141 (faultValue a kdRAM)
    else d.uncorrectable a kdRAM

/-! The sweep (R329, R336 to R338) -/

/-- A listed frame that the sweep passes over. -/
def Dev.framePassed (d : Dev) (a : Nat) : Bool :=
  d.fab.knownBad.contains a ||
    (decide (a < 10240) && (decide (d.rgnState (a / 640) = rsLOADING) || decide (d.rgnState (a / 640) = rsSTARTING)))

/-- The next frame to be checked at or after an address. -/
def Dev.nextFrame (d : Dev) : Nat → Nat → Option Nat
  | 0, _ => none
  | fuel + 1, a =>
    if 11008 ≤ a then none
    else if frameListed a = true ∧ d.framePassed a = false then some a
    else d.nextFrame fuel (a + 1)

/-- The sweep passes frames over from an address up to the next one it checks. -/
def Dev.passFrames (d : Dev) (a : Nat) : Dev :=
  let next := d.nextFrame 11009 a
  let till := next.getD 11008
  let skipped := d.fab.knownBad.any (fun x => decide (a ≤ x ∧ x < till)) ||
    (List.range 16).any (fun n => (decide (d.rgnState n = rsLOADING) || decide (d.rgnState n = rsSTARTING)) &&
      decide (a < 640 * n + 640 ∧ 640 * n < till))
  let d := if skipped then d.setScb (fun s => { s with dirty := true }) else d
  d.wf SCB_POS_FRAME 0 (next.getD 0)

/-- The watchdog is armed (R335). -/
def Dev.watchdogArmed (d : Dev) : Bool :=
  d.on SCB_CTRL_EN 0 && decide (d.cfgState = csDONE) &&
    (decide (d.pwr.st = .run) || decide (d.pwr.st = .hold) || decide (d.pwr.st = .nap))

/-- The sweep ends, `len` after now (R329, R335, R336). -/
def Dev.sweepEnds (d : Dev) (len : Nat) : Dev :=
  let len := if len = 0 ∨ d.rf SCB_STAT_STATE 0 = 2 then len else max (100 * d.rf SCB_GAP_GAP 0) len
  let d := d.wf SCB_POS_SWEEPS 0 (d.rf SCB_POS_SWEEPS 0 + 1)
  let d := d.wf SCB_SWEEPTIME_US 0 (min (2 ^ 24 - 1) ((d.now + len - d.scb.sweepNow) / 1000))
  let d := if d.scb.dirty = false ∧ d.fab.knownBad = [] then d.wf SCB_STAT_CLEAN 0 1 else d
  let d := ((d.wf SCB_POS_FRAME 0 0).wf SCB_STAT_STATE 0 (d.rf SCB_CTRL_EN 0)).setScb (fun s => { s with
    sweepNow := d.now + len, misses := 0, dirty := false })
  if d.watchdogArmed then d.setScb (fun s => { s with wdNow := some d.now }) else d

/-- Least spacing of the check that is due from the previous one (R331, R337). -/
def Dev.scrubGap (d : Dev) : Nat :=
  if d.scb.lastLen = 0 then 0
  else if d.rf SCB_STAT_STATE 0 = 2 then d.scb.lastLen
  else max (100 * d.rf SCB_GAP_GAP 0) d.scb.lastLen

/-- The scrubber checks: sweeping, powered, and the spacing is over. -/
def Dev.scrubDue (d : Dev) : Bool :=
  (decide (d.rf SCB_STAT_STATE 0 = 1) || decide (d.rf SCB_STAT_STATE 0 = 2)) && d.domOn 3 &&
    decide (d.scb.lastCheck + d.scrubGap ≤ d.now)

/-- The frame at the sweep position is checked (R329 to R334). `flip` and `cwFlip` are the bits that have been upset in it
and its stored check word since it was last looked at, `hard` tells that a read after a correction differs, `ram` the state
of the scrubber RAM word, and `votes` how many control copies were outvoted. -/
def Dev.scrubCheck (d : Dev) (flip cwFlip : Nat) (hard : Bool) (ram : RamEcc) (votes : Nat) : Dev :=
  let d := d.inc SCB_SELFCNT_VOTE 0 votes
  if d.scrubDue = false then d
  else
    let d := d.passFrames (d.rf SCB_POS_FRAME 0)
    match d.nextFrame 11009 (d.rf SCB_POS_FRAME 0) with
    | none => d.sweepEnds 0
    | some a =>
      let d := (d.flipBits a flip).flipCheck a cwFlip
      let d := if ram = .single then d.inc SCB_SELFCNT_RAMSBE 0 1 else d
      let x := if ram = .double then ((d.checkStored a hard).checkStored (frameMate a) false, 360) else d.checkFrame a hard
      let d := x.1.setScb (fun s => { s with lastCheck := d.now, lastLen := x.2 })
      match d.nextFrame 11009 (a + 1) with
      | none => (d.passFrames (a + 1)).sweepEnds x.2
      | some _ => d.passFrames (a + 1)

/-- The sweep restarts at frame 0. -/
def Dev.scrubRestart (d : Dev) : Dev :=
  if d.rf SCB_STAT_STATE 0 = 1 ∨ d.rf SCB_STAT_STATE 0 = 2 then
    (d.wf SCB_POS_FRAME 0 0).setScb (fun s => { s with sweepNow := d.now, dirty := false })
  else d

/-- A write of `SCB.CTRL.EN` (R335, R336, R338). -/
def Dev.scrubEnable (d : Dev) (en : Bool) : Dev :=
  let was := d.on SCB_CTRL_EN 0
  let d := d.wf SCB_CTRL_EN 0 (b2n en)
  if en = was then d
  else if en = true then
    let d := if d.rf SCB_STAT_STATE 0 = 0 ∧ d.cfgState = csDONE then d.sweepStart else d
    if d.watchdogArmed then d.setScb (fun s => { s with wdNow := some d.now }) else d
  else
    let d := (d.wf SCB_STAT_CLEAN 0 0).setScb (fun s => { s with wdNow := none })
    if d.rf SCB_STAT_STATE 0 = 1 then d.wf SCB_STAT_STATE 0 0 else d

/-- The watchdog starts or stops counting with what arms it (R335). -/
def Dev.watchdogSettle (d : Dev) : Dev :=
  if d.watchdogArmed = (decide (d.scb.wdNow ≠ none)) then d
  else d.setScb (fun s => { s with wdNow := if d.watchdogArmed then some d.now else none })

/-- `SCB.SWEEP_LIMIT` passes without a pulse (R335): the state, and whether a warm start is requested. -/
def Dev.scrubMiss (d : Dev) : Dev × Bool :=
  match d.scb.wdNow with
  | none => (d, false)
  | some w =>
    if d.watchdogArmed = false ∨ d.now < w + 1000000 * d.rf SCB_SWEEP_LIMIT_MS 0 then (d, false)
    else
      let n := d.scb.misses + 1
      let d := ((d.sweepStart.wf SCB_STAT_MISS 0 1).inc SCB_SELFCNT_MISS 0 1).wf SCB_STAT_CLEAN 0 0
      let d := d.setScb (fun s => { s with wdNow := some d.now, misses := n })
      let d := d.post (if n = 1 then .edge else .fault) 0x141 (d.rf SCB_SELFCNT_MISS 0)
      (d, decide (n = 2) && d.on SCB_CTRL_ESCALATE 0)

/-! Register rules (R337, R339, R340) -/

/-- `SCB.GAP` and `SCB.SWEEP_LIMIT` do not fit (R337). -/
def sweepTooLong (gap limit : Nat) : Bool := decide (limit * 1000000 < 2 * (10880 * max 120 (100 * gap)))

/-- Why an injection is refused (R340). -/
def Dev.injectRefused (d : Dev) (pth : Path) (frame : Nat) : Option Refused :=
  if frameListed frame = false then some ⟨.value, stBAD_PARAM, 0⟩
  else if pth = .direct then some ⟨.state, stNOT_SECURE, 0⟩
  else if d.kw.secure = false then some ⟨.state, stNOT_SECURE, 0⟩
  else if d.cfgState ≠ csDONE then some ⟨.state, stBAD_STATE, 0⟩
  else none

/-- One payload bit of a frame is flipped (R340). -/
def Dev.scrubInject (d : Dev) : Dev := d.flipBits (d.rf SCB_INJECT_FRAME 0) (2 ^ d.rf SCB_INJECT_BIT 0)

end Sys2Proof.Machine
end

