-- ==== Sys2Proof/Machine/Power.lean ====
section
/-! DEFINITION. Power, start-up, warm start, sleep and power loss (R344 to R357), and what each leaves of the state
(R171, R429 to R431). -/

namespace Sys2Proof.Machine

def Dev.setPwr (d : Dev) (f : Pwr → Pwr) : Dev := { d with pwr := f d.pwr }

def Dev.setKw (d : Dev) (f : Kw → Kw) : Dev := { d with kw := f d.kw }

/-! Classes of fields (R429, R431) -/

/-- Every register. -/
def allKinds : List RegKind := (List.range 24).flatMap blockKinds

/-- The register that a key of the map belongs to. -/
def kindOfKey (key : Nat) : Option RegKind := allKinds.find? (fun k => decide (k.ctorIdx = key / 65536))

/-- Number of the block of a register (R424). -/
def blockOf (k : RegKind) : Nat := k.place.base / 0x10000

/-- The counters of access RW. -/
def counterKinds : List RegKind :=
  [.AFE_OVRCNT, .ASW_CNT, .CMP_EVCNT, .ENC_ERRCNT, .EVQ_CNT, .FAB_SIDROP, .FAB_SOOVF, .LAN_DROP, .LAN_TRUNC, .LAN_TXCNT,
    .LAN_PEAK, .LTG_EVTCNT, .LTG_MODECNT, .LTG_OVRCNT, .MCV_DROPS, .MCV_TRIGOVR, .MEM_COLLCNT, .MEM_ECCCNT, .MEM_RQDROP,
    .MEM_SPECC, .MEM_WBCNT, .PCU_DROPCNT, .PCU_ECCCNT, .PCU_GSTAT, .RGN_MMCNT, .SCB_CNT, .SCB_CNT2, .SCB_SELFCNT,
    .SYS_ACCERR, .SYS_NOWNER, .SYS_KWCNT, .ZLK_BRKCNT, .ZLK_ERRCNT, .ZLK_LINECNT]

/-- RO status, W1C flags and counters: what a power-up of the domain returns to reset (R431). -/
def volatileField (f : Fld) : Bool :=
  decide (f.acc = .RO) || decide (f.acc = .W1C) || counterKinds.contains f.kind || decide (f = FAB_EVCFG_SUPP) ||
    decide (f = RGN_STAT_LOADS) || decide (f = CFG_FIFOSTAT_DISC)

/-- Some fields of the listed registers return to their reset values. -/
def rstFields (t : Tab Word) (want : Fld → Nat → Bool) : Tab Word :=
  t.filterMap (fun e =>
    match kindOfKey e.1 with
    | none => some e
    | some k =>
      let i := e.1 % 65536
      let v := k.fields.foldl (fun v f => if want f i then setBits v f.lsb f.width (f.rstAt i) else v) e.2.toNat
      let w := BitVec.ofNat 32 v
      if w = regReset k i then none else some (e.1, w))

def Dev.rstWhere (d : Dev) (want : Fld → Nat → Bool) : Dev := { d with regs := rstFields d.regs want }

/-- RO fields that describe what is retained over SLEEP (log 40): the crown, the configuration memory and what it holds,
the event queue, the ring's place, identity, isolated buses. -/
def keptOverSleep (d : Dev) (f : Fld) (i : Nat) : Bool :=
  (match blockOf f.kind with
   | 0x01 => true
   | 0x02 => true
   | 0x03 => true
   | 0x06 => true
   | 0x0B => decide (f.acc = .RO)
   | 0x12 => d.on CMP_CFG_EN i && d.on CMP_CFG_WAKE i
   | _ => false) ||
  [RegKind.SYS_DEVID, .SYS_STATUS, .SYS_SERIAL, .SYS_SERIALH, .SYS_FWVER, .SCB_RELOADREQ, .FAB_RCLK, .FAB_SOMAP, .RGN_PSTAT,
    .MEM_MCFG, .GPIO_CFG, .ASW_TRIP0, .ASW_TRIP1, .ASW_CONFLICT].contains f.kind ||
  [LTG_TBCTRL_SLEPT, SCB_STAT_DEVDBE, SCB_STAT_SELFERR, RGN_STAT_STATE, RGN_STAT_BRIM, RGN_STAT_SUSPECT, MEM_BSTAT_FCOLS,
    CAC_STAT_OFS].contains f

/-- RO fields of the group domains that NAP retains: coefficients, where the mitten stands, the last statistics sets (R26,
R138, R344). -/
def keptOverNap (f : Fld) : Bool :=
  [RegKind.PCU_STLINE, .PCU_STMIN, .PCU_STMAX, .PCU_STSUM, .PCU_STCNT, .AFE_LEGCAL, .CNV_SOFS, .CNV_SGAIN, .CNV_SAPT, .CNV_SQUAL, .CNV_SSTAT, .CNV_MIT].contains f.kind

/-! The set in force comes back (R171, R345) -/

/-- Entries of a table that belong to group `g`, or that do not. -/
def groupEntries {α : Type} (t : Tab α) (g : Nat) (isIn : Bool) : Tab α :=
  t.filter (fun e => decide (e.1 / 12288 = g) == isIn)

/-- Put the entries of a group of one map in place of those of another. -/
def replaceGroup (t from_ : Tab Nat) (g : Nat) : Tab Nat :=
  (groupEntries from_ g true).foldl (fun t e => tinsert t e.1 e.2) (groupEntries t g false)

/-- The registers of group `g` that a set holds: slices, legs, quality figures. -/
def groupRegs (g : Nat) : List (RegKind × Nat) :=
  (List.range 13).flatMap (fun s => [(RegKind.CNV_SOFS, sliceIdx g s), (.CNV_SGAIN, sliceIdx g s), (.CNV_SAPT, sliceIdx g s),
    (.CNV_SQUAL, sliceIdx g s)]) ++
  (List.range 12).flatMap (fun c => [(RegKind.AFE_LEGCAL, 12 * g + c), (.CAL_CHQ, 12 * g + c)])

/-- Failed slices of a group take their mitten as spare (R125, R171). -/
def Dev.sparesApply (d : Dev) (g : Nat) (x : StorePair) : Dev :=
  let d := (List.range 13).foldl (fun d s => d.rstReg .CNV_SSTAT (sliceIdx g s)) d
  let d := (d.setMit g { d.getMit g with equal := false }).mitIdle g
  ((List.range 13).filter (fun s => decide (fieldOf x.regs CNV_SSTAT_FAILED (sliceIdx g s) = 1))).foldl (fun d s =>
    let d := d.wf CNV_SSTAT_FAILED (sliceIdx g s) 1
    if d.mitState g = 4 then d else (d.deliverBy g s true).mitPhase g 4 s) d

/-- The tables, slice coefficients, leg corrections and parts of a group come from a set; the distance of parts that come into
use is computed (R163). -/
def Dev.loadGroup (d : Dev) (x : StorePair) (g : Nat) : Dev :=
  let d := d.setTab (fun t => { t with
    pctT := replaceGroup t.pctT x.pctT g, pctL := replaceGroup t.pctL x.pctT g
    pttT := replaceGroup t.pttT x.pttT g, pttL := replaceGroup t.pttL x.pttT g
    badPct := t.badPct.filter (fun i => decide (i / 12288 ≠ g)), badPtt := t.badPtt.filter (fun i => decide (i / 12288 ≠ g))
    staged := t.staged.filter (fun w => decide (w.idx / 12288 ≠ g))
    waiting := t.waiting.filter (fun w => decide (w.idx / 12288 ≠ g)) })
  let d := (groupRegs g).foldl (fun d r => d.wreg r.1 r.2 (rregOf x.regs r.1 r.2)) d
  let parts := [1 + g] ++ [0, 1, 2].flatMap (fun j => [16 + 3 * g + j, 48 + 3 * g + j, 80 + 3 * g + j])
  ((parts.foldl (fun d n => d.setPart n (tget x.parts .reset n)) d).sparesApply g x).checkParts parts

/-- What a group loses with its domains (R345). -/
def Dev.groupLost (d : Dev) (g : Nat) : Dev := d.loadGroup StorePair.reset g

/-- The spare rows as `MEM.BSTAT` shows them (R292). -/
def Dev.sparesShow (d : Dev) : Dev :=
  (List.range 8).foldl (fun d b => (List.range 4).foldl (fun d i => d.wbit MEM_BSTAT_SPUSED b i (d.spareRow b i).isSome) d) d

/-- The set of a pair of the store that is in use. -/
def Dev.pairSet (d : Dev) (p : Option Nat) : StorePair := match p with
  | some q => readPair d.cfg.flash d.cal.base q
  | none => .reset

/-- The whole set comes from the pair in force, or is neutral (R171); a group without power takes its share when it is powered up
(R345). -/
def Dev.loadSet (d : Dev) (p : Option Nat) : Dev :=
  let x := d.pairSet p
  let d := ((List.range 8).filter (fun g => tbit (d.rf PWR_DOMEN_GRP 0) g)).foldl (fun d g => d.loadGroup x g) d
  let d := [0, 9, 10, 11].foldl (fun d n => d.setPart n (tget x.parts .reset n)) d
  let d := d.setCal (fun c => { c with
    ladder := x.ladder, cmpOfs := x.cmpOfs, cacOfs := x.cacOfs, mcvCoef := x.mcvCoef, trimLsb := x.trimLsb, pgaF := x.pgaF
    legNew := [] })
  let d := (List.range 8).foldl (fun d b =>
    (d.wreg .MEM_ROWMAP0 b (rregOf x.regs .MEM_ROWMAP0 b)).wreg .MEM_ROWMAP1 b (rregOf x.regs .MEM_ROWMAP1 b)) d
  (((List.range 32).foldl (fun d n => d.wfi CAC_STAT_OFS n (tget x.cacOfs 0 n)) d).sparesShow).checkParts [0, 9, 10, 11]

/-- The scan of the store, and the load of the set it finds. -/
def Dev.scanAndLoad (d : Dev) : Dev := let x := d.storeScan; x.2.loadSet x.1

/-! States and transitions (R348) -/

/-- `PWR.STATE.CUR`; SLEEP, which no read can show, is 4 as in `PWR.REQ` (log 41). -/
def PState.code : PState → Nat
  | .run => 1
  | .hold => 2
  | .nap => 3
  | .sleep => 4
  | .pfhold => 5
  | _ => 0

/-- The device is in a state. -/
def Dev.enter (d : Dev) (st : PState) : Dev :=
  ((d.setPwr (fun p => { p with st := st })).wf PWR_STATE_CUR 0 st.code).watchdogSettle

/-- A request has reached its target, and its sender is told. -/
def Dev.powerTold (d : Dev) (tgt : Nat) (req : PReq) : Dev :=
  let d := ((d.setPwr (fun p => { p with trans := none })).wf PWR_STATE_BUSY 0 0).wf PWR_STATE_TGT 0 0
  match req with
  | .register => d.post .edge 0x150 tgt
  | .handle h => d.finish h stOK tgt
  | .silent => d

/-- HOLD to RUN: LTGs issue again, and the first line carries GAP (R58); the context check runs at once (R28, note m). -/
def Dev.enterRun (d : Dev) : Dev :=
  (((List.range 24).filter (fun h => d.on LTG_CTRL_ARM h)).foldl (fun d h => d.setGap h) (d.enter .run)).contextCheck

/-- RUN to HOLD: HCK runs on, HSP is low and HLED is off (R26). -/
def Dev.enterHold (d : Dev) : Dev :=
  (List.range 24).foldl (fun d h =>
    (d.setHcp h { d.getHcp h with
      hspFrom := 0, hspUntil := 0, strobes := [], led := none, ledOn := false, firedSinceArm := false }).ledShow h)
    (d.enter .hold)

/-- A region is under reconfiguration or EMPTY (R348). -/
def Dev.regionsBusy (d : Dev) : Bool :=
  (List.range 16).any (fun n =>
    decide (d.rgnState n = rsLOADING) || decide (d.rgnState n = rsSTARTING) || decide (d.rgnState n = rsEMPTY))

/-- Why a request is refused (R348). -/
def Dev.powerRefusal (d : Dev) (tgt : Nat) : Option Nat :=
  if tgt = 0 ∨ 5 ≤ tgt then some stBAD_PARAM
  else if d.pwr.st.code = tgt then none
  else if d.pwr.trans.isSome then some stBUSY
  else if d.regionsBusy then some stBUSY
  else if d.cfgState ≠ csDONE then some stBAD_STATE
  else if tgt = 4 ∧ d.rf ZLK_STAT_ROLE 0 = 1 then some stBAD_STATE
  else if d.pwr.st = .run ∨ d.pwr.st = .hold ∨ d.pwr.st = .nap then none
  else some stBAD_STATE

/-- HOLD to NAP begins: marches end as on MSTOP (R290). -/
def State.napBegins (s : State) : State := (List.range 8).foldl (fun s b => s.marchStop b) s

/-- A request that is not refused (R124, R159, R348). -/
def State.powerRequest (s : State) (tgt : Nat) (req : PReq) : State :=
  let d := s.dev
  if d.pwr.st.code = tgt then s.onDev (fun d => match req with
    | .register => d.post .edge 0x150 tgt
    | .handle h => d.finish h stOK tgt
    | .silent => d)
  else if d.pwr.st = .hold ∧ tgt = 1 then s.onDev (fun d => d.enterRun.powerTold 1 req)
  else
    let s := s.onDev (fun d =>
      ((d.setPwr (fun p => { p with trans := some (tgt, req) })).wf PWR_STATE_BUSY 0 1).wf PWR_STATE_TGT 0 tgt)
    let s := if 3 ≤ tgt then s.onDev (fun d => d.calAbandon) else s
    if s.dev.pwr.st = .hold then s.napBegins else s

/-- Every issued line has been delivered by its PCU. -/
def Dev.linesOut (d : Dev) : Bool :=
  (List.range 24).all (fun h => (d.getLtg h).issued.isEmpty && (d.workOf h).isEmpty)

/-- Lanes, analogue groups and head-control ports go off (R26, R348): FIFO contents not sent are dropped and counted. -/
def Dev.enterNap (d : Dev) : Dev :=
  let d := (List.range 12).foldl (fun d l => d.laneEmpty l true) d.headsPark
  let d := (List.range 3).foldl (fun d q => (d.wf LAN_QSTAT_LOCK q 0).wbit CLK_PLLSTAT_LOCK 0 (7 + q) false) d
  let d := (List.range 24).foldl (fun d h => (d.setHcp h { Hcp.reset with clock := (d.getHcp h).clock }).wf AFE_HSTAT_GRID h 0) d
  (d.enter .nap).lanesSettle

/-- NAP to HOLD (R348, R431): the group and lane domains power up, and the context check runs. The statistics sets are kept
(R138). -/
def Dev.leaveNap (d : Dev) : Dev :=
  let d := (d.enter .hold).headsFree
  let d := d.rstWhere (fun f i =>
    volatileField f && !(keptOverNap f) && decide (7 ≤ regDomain f.kind i) && decide (regDomain f.kind i ≤ 25))
  d.lanesSettle.contextCheck

/-- NAP to SLEEP (R26, R36, R41, R294, R359, R403): what is lost. -/
def State.enterSleep (s : State) : State :=
  let d := s.dev.padsSleep
  let d := (List.range 24).foldl (fun d h => d.wf LTG_CTRL_ARM h 0) d
  let d := (List.range 8).foldl (fun d p => d.wf ENC_STAT_POSVALID p 0) d
  let d := (((d.mcvOff 0).mcvOff 1).bankFlush).setAnx (fun a => { a with sleepAt := d.now })
  let d := d.setKw (fun k => { k with fifo := [], waiting := [], part := [], owed := false, cur := none, pend := [], out := [], secure := false })
  let d := ((d.wf LTG_TBCTRL_SLEPT 0 1).wf SYS_KWSTAT_READY 0 0).setFab (fun f => { Fab.reset with
    frames := f.frames, upset := f.upset, cwUpset := f.cwUpset, knownBad := f.knownBad, brimFrames := f.brimFrames
    starts := f.starts, mmLast := f.mmLast })
  State.memLost { s with dev := d.enter .sleep }

/-- The present step of a transition completes, and the next one begins (R348). -/
def State.transitionDone (s : State) : State :=
  match s.dev.pwr.trans with
  | none => s
  | some (tgt, req) =>
    let told (s : State) (code : Nat) : State := if code = tgt then s.onDev (fun d => d.powerTold tgt req) else s
    match s.dev.pwr.st with
    | .run =>
      if s.dev.linesOut then
        let s := s.onDev (fun d => d.enterHold)
        if tgt = 2 then told s 2 else s.napBegins
      else s
    | .hold => if (List.range 8).any (fun g => s.dev.mitBusy g) then s else told (s.onDev (fun d => d.enterNap)) 3
    | .nap =>
      if tgt = 4 then (s.onDev (fun d => (d.powerTold 4 req).recordArrives 0x100)).enterSleep
      else
        let s := s.onDev (fun d => d.leaveNap)
        if tgt = 1 then told (s.onDev (fun d => d.enterRun)) 1 else told s 2
    | _ => s

/-! Domains on request (R345) -/

/-- Clearing GRP bit `g` is refused. -/
def Dev.grpRefused (d : Dev) (g : Nat) : Bool :=
  d.mitBusy g || (List.range 12).any (fun c => d.on AFE_CH_EN (12 * g + c))

/-- Clearing MEM bit `b` is refused. -/
def Dev.memOffRefused (d : Dev) (b : Nat) : Bool :=
  d.bankNamed b || decide (d.bankState b = bsMARCHD) || decide (d.bankState b = bsMARCHP)

/-- Some cleared bit of a write of `PWR.DOMEN` is refused: the field's least significant bit. -/
def Dev.domenRefused (d : Dev) (v : Nat) : Option Nat :=
  let old := (d.rreg .PWR_DOMEN 0).toNat
  if (List.range 8).any (fun g => tbit old g && !(tbit v g) && d.grpRefused g) then some 0
  else if (List.range 8).any (fun b => tbit old (8 + b) && !(tbit v (8 + b)) && d.memOffRefused b) then some 8
  else none

/-- The registers of some domains return their volatile fields to reset (R431). -/
def Dev.domainsUp (d : Dev) (isIn : Nat → Bool) : Dev :=
  d.rstWhere (fun f i => volatileField f && (isIn (regDomain f.kind i) || (decide (f.kind = .MEM_BSTAT) && isIn (26 + i))))

/-- Group `g` is no longer waited for: the handles of packets that wait for no other group complete (R377). -/
def Dev.domainsWait (d : Dev) (g : Nat) : Dev :=
  let l := d.pwr.domHandles.map (fun e => (e.1, setBit e.2 g false))
  let d := d.setPwr (fun p => { p with domHandles := l.filter (fun e => decide (e.2 ≠ 0)) })
  (l.filter (fun e => decide (e.2 = 0))).foldl (fun d e => d.finish e.1 stOK 0) d

/-- A write of `PWR.DOMEN` takes effect: a GRP bit that is set reads 1 only when its reload is complete. -/
def State.domenWrite (s : State) (v : Nat) : State :=
  let old := (s.dev.rreg .PWR_DOMEN 0).toNat
  let fell (i : Nat) : Bool := tbit old i && !(tbit v i)
  let rose (i : Nat) : Bool := tbit v i && !(tbit old i)
  let s := (List.range 8).foldl (fun s g =>
    if fell g then s.onDev (fun d => (d.groupLost g).setPwr (fun p => { p with grpBusy := setBit p.grpBusy g false }))
    else if rose g ∧ tbit s.dev.pwr.grpBusy g = false then
      s.onDev (fun d => (d.domainsUp (fun n => decide (n = 10 + g ∨ n = 18 + g))).setPwr (fun p => { p with
        grpBusy := setBit p.grpBusy g true }))
    else if tbit old g = false ∧ tbit v g = false then
      s.onDev (fun d => (d.setPwr (fun p => { p with grpBusy := setBit p.grpBusy g false })).domainsWait g)
    else s) s
  let s := (List.range 8).foldl (fun s b =>
    if fell (8 + b) then s.bankZero b
    else if rose (8 + b) then
      (s.onDev (fun d => (d.domainsUp (fun n => decide (n = 26 + b))).sparesShow)).bankZero b
    else s) s
  let s := (List.range 3).foldl (fun s q =>
    if fell (16 + q) then s.onDev (fun d => d.quadOff q)
    else if rose (16 + q) then s.onDev (fun d => d.domainsUp (fun n => decide (n = 7 + q)))
    else s) s
  s.onDev (fun d =>
    let grp := (List.range 8).foldl (fun m g => setBit m g (tbit v g && tbit old g)) 0
    (d.wreg .PWR_DOMEN 0 (BitVec.ofNat 32 (setBits (v % 2 ^ 19) 0 8 grp))).lanesSettle)

/-- A set without the SLICE and AFE parts of group `g`, which a group powered up later carries as EMPTY (R345). -/
def StorePair.withoutTaken (x : StorePair) (g : Nat) : StorePair :=
  { x with parts := x.parts.filter (fun e => !([1 + g, 16 + 3 * g, 17 + 3 * g, 18 + 3 * g].contains e.1)) }

/-- The firmware has reloaded a group: its GRP bit reads 1 (R345). A packet's handle completes with the last group. -/
def Dev.groupReloaded (d : Dev) (g : Nat) : Dev :=
  if tbit d.pwr.grpBusy g = false ∨ d.pwr.booted = false then d
  else
    let pair := d.rf CAL_STORESTAT_PAIR 0
    let d := d.loadGroup ((d.pairSet (if pair < 8 then some pair else none)).withoutTaken g) g
    let d := (d.wbit PWR_DOMEN_GRP 0 g true).setPwr (fun p => { p with grpBusy := setBit p.grpBusy g false })
    d.domainsWait g

/-! Start-up calibration and RUN (R352, R353) -/

/-- Items of the start-up calibration of a kind: all at a cold start, those outside their window at a warm one. -/
def Dev.startItems (d : Dev) (kind : Nat) : List Nat :=
  let cold := decide (d.rf PWR_RSTCAUSE_CAUSE 0 = 0)
  let needed (i : Nat) : Bool :=
    let n := partOf kind i
    cold || decide ((d.getPart n).state = 0) || decide (256 < d.distance n)
  let on (i : Nat) : Bool :=
    match kind with
    | 1 => tbit (d.rf PWR_DOMEN_GRP 0) (i / 13)
    | 2 => tbit (d.rf PWR_DOMEN_GRP 0) (i / 3)
    | _ => true
  (List.range (kindItems kind)).filter (fun i => on i && needed i)

/-- Start-up calibration begins at DONE. -/
def Dev.startCal (d : Dev) : Dev :=
  if d.pwr.st = .starting ∧ d.cfgState = csDONE ∧ d.cal.cmds.all (fun c => decide (c.handle ≠ 0)) = true then
    [0, 1, 2, 5, 6, 7].foldl (fun d k => let l := d.startItems k; if l.isEmpty then d else d.calCommand 0 k l) d
  else d

/-- RUN is entered when start-up calibration is over. -/
def Dev.startSettle (d : Dev) : Dev :=
  if d.pwr.st = .starting ∧ d.cfgState = csDONE ∧ d.cal.cmds.all (fun c => decide (c.handle ≠ 0)) = true then
    d.enter .run
  else d

/-- After a DONE (R351, R353): calibration, and RUN where nothing needs it. -/
def Dev.afterDone (d : Dev) : Dev := d.startCal.startSettle.watchdogSettle

/-! Cold start (R351) -/

/-- What is left when PORN is low: fuses, the BBRAM, the boot flash. -/
def Dev.unpowered (d : Dev) : Dev :=
  { Dev.reset with
    now := d.now, free := d.free, fuses := d.fuses
    regs := d.regs.filter (fun e => decide (e.1 / 65536 = RegKind.CFG_GOLDADDR.ctorIdx) ||
      decide (e.1 / 65536 = RegKind.CAL_STOREBASE.ctorIdx))
    cal := { Cal.reset with hint := d.cal.hint }
    cfg := { Cfg.reset with fuseKey := d.cfg.fuseKey, bbrKey := d.cfg.bbrKey, flash := d.cfg.flash, progn := d.cfg.progn }
    pwr := { Pwr.reset with st := .off, testen := d.pwr.testen } }

/-- The BBRAM takes its reset content: no key, no hint, both addresses at reset (R351). -/
def Dev.bbramLost (d : Dev) : Dev :=
  (((d.setCfg (fun c => { c with bbrKey := [] })).setCal (fun c => { c with hint := none })).rstReg .CFG_GOLDADDR 0).rstReg
    .CAL_STOREBASE 0

/-- PORN is recognised low (R347): everything stops. -/
def State.porAssert (s : State) : State :=
  State.memLost { s with dev := (s.dev.unpowered).setPwr (fun p => { p with testen := false }) }

/-- Fuses show in their registers. -/
def Dev.fusesShow (d : Dev) : Dev :=
  let u := d.fuses
  let d := (d.wreg .SYS_SERIAL 0 (BitVec.ofNat 32 u.serial)).wreg .SYS_SERIALH 0 (BitVec.ofNat 32 (u.serial / 2 ^ 32))
  let d := ((d.wf CFG_FUSE_FORCE_ENC 0 (b2n u.forceEnc)).wf CFG_FUSE_FKEY 0 (b2n u.fkey)).wf CFG_FUSE_BFQUAD 0 (b2n u.bfquad)
  let d := (d.wf MEM_MCFG_MARCH_COLD 0 (b2n u.marchCold)).wf MEM_MCFG_WARM_MARCH 0 (b2n u.warmMarch)
  (List.range 8).foldl (fun d b => d.wf MEM_BSTAT_FCOLS b (tget u.fcols 0 b)) (d.wf CFG_FUSE_BKEY 0 (b2n (!d.cfg.bbrKey.isEmpty)))

/-- A start halts at a step (R351). -/
def Dev.halt (d : Dev) (step reason : Nat) : Dev :=
  let d := ((d.wf PWR_STARTERR_STEP 0 step).wf PWR_STARTERR_REASON 0 reason).wf PWR_STARTERR_TRIES 0 3
  (d.setCfg (fun c => { c with cfgerrnPull := true })).setPwr (fun p => { p with st := .halted })

/-- Reference and PLLs are up. -/
def Dev.clocksUp (d : Dev) : Dev :=
  let d := (d.wf CLK_REFSTAT_REFOK 0 1).wf CLK_PLLSTAT_LOCK 0 2047
  (List.range 3).foldl (fun d q => d.wf LAN_QSTAT_LOCK q 1) d

/-- The firmware has booted (R359). -/
def Dev.booted (d : Dev) : Dev :=
  (d.setPwr (fun p => { p with booted := true })).wf SYS_KWSTAT_READY 0 1

/-- The rise of PORN, up to the start of the load machine (R351): the level of HPSEL, whether the BBRAM check passes, and
how often the reference, a PLL and the boot fail. Four failures halt the start. -/
def State.coldStart (s : State) (hpsel bbramOk : Bool) (refFails pllFails bootFails : Nat) : State :=
  if (s.dev.pwr.st ≠ .off ∧ s.dev.pwr.st ≠ .cold) ∨ s.dev.pwr.testen = true then s
  else
    let d := s.dev.unpowered
    let d := if bbramOk then d else (d.bbramLost.wf PWR_STARTERR_STEP 0 2).wf PWR_STARTERR_REASON 0 4
    let d := ((d.fusesShow.wf SYS_STATUS_HPSEL 0 (b2n hpsel)).wf CLK_REFSTAT_REFOK 0 1).setPwr (fun p => { p with st := .starting })
    let s := State.memLost { s with dev := d }
    if 4 ≤ refFails then s.onDev (fun d => d.halt 3 3)
    else if 4 ≤ pllFails then s.onDev (fun d => d.halt 4 1)
    else if 4 ≤ bootFails then s.onDev (fun d => d.halt 5 2)
    else
      let d := d.clocksUp.booted
      let d := (d.wreg .SYS_FWVER 0 (BitVec.ofNat 32 d.freeNat)).freeNext
      let d := if bbramOk then d else d.post .fault 0x170 1
      let d := d.scanAndLoad
      let d := if d.fuses.marchCold then (List.range 8).foldl (fun d b => d.marchStart b 0 false) d else d
      ({ s with dev := d }).fullStart none false

/-! Warm start (R353) -/

/-- Blocks whose W1C flags a warm start keeps: ENC and LTG. -/
def warmKeepsFlags (k : RegKind) : Bool := decide (blockOf k = 0x09) || decide (blockOf k = 0x0A)

/-- Registers that a warm start clears whole. -/
def warmKinds : List RegKind :=
  [.FAB_SIDROP, .FAB_SOOVF, .RGN_MMCNT, .RGN_SIG, .MCV_DROPS, .MCV_TRIGOVR, .SCB_CNT, .SCB_CNT2, .SCB_SELFCNT, .SCB_POS,
    .LAN_DROP, .LAN_TRUNC, .LAN_TXCNT, .LAN_PEAK, .SYS_KWCNT, .SYS_ACCERR, .SYS_ACCADDR, .SYS_NOWNER, .PCU_GSTAT, .PCU_ECCCNT,
    .PCU_DROPCNT, .HCP_TWSTAT, .CFG_BYTES, .CFG_FAILPOS, .CFG_FAILINFO, .FAB_SNAPSTAT]

/-- Fields that a warm start clears beside those. -/
def warmFields : List Fld :=
  [FAB_EVCFG_SUPP, RGN_STAT_LOADS, SCB_STAT_CLEAN, TMP_STAT_TSEQ, TMP_STAT_RSEQ, TMP_TS_VALID, CAL_STAT_BUSY, HCP_CTRL_EN,
    ENC_CTRL_EN, ENC_STAT_POSVALID, ENC_CAPSTAT_FILL, AFE_SCANCTRL_BUSY, AFE_HSTAT_GRID, ZLK_STAT_LOCKED, LTG_CTRL_ARM,
    LTG_STAT_COASTING, LTG_STAT_HELD, LTG_STAT_SLOW, PCU_LWCTRL_EN, CFG_FIFOSTAT_DISC, CFG_STATUS_REASON, CFG_STATUS_PREASON,
    PWR_STATE_BUSY, PWR_STATE_TGT, PWR_STATE_CUR, SYS_KWSTAT_READY]

/-- A warm start puts a field back to its Reset column. -/
def warmClears (f : Fld) : Bool :=
  (decide (f.acc = .W1C) && !(warmKeepsFlags f.kind)) || warmKinds.contains f.kind || warmFields.contains f

/-- Statistics read latched registers (R138) whose latches a warm start empties. -/
def statKinds : List RegKind := [.PCU_STMIN, .PCU_STMAX, .PCU_STSUM, .PCU_STCNT]

/-- Line timing, heads and the pixel path after a reset or SLEEP: nothing is issued, held or converted; registers stay.
`keepSnap` keeps what later commit points are judged against, which a start loses (R110). -/
def Dev.timingDrop (d : Dev) (keepSnap : Bool) : Dev :=
  let enc := (List.range 8).foldl (fun d p => d.setEnc p { d.getEnc p with hist := [], v := 0, lastNow := d.now }) d
  let ltg := (List.range 24).foldl (fun d h =>
    let l := d.getLtg h
    (d.setLtg h { Ltg.reset with
      pitch := l.pitchNew, pitchNew := l.pitchNew, target := l.target
      prevSnap := if keepSnap then l.prevSnap else none }).setHcp h
      { Hcp.reset with clock := (d.getHcp h).clock }) enc
  { ltg with
    cap := []
    latch := ltg.latch.filter (fun e => !(statKinds.any (fun k => decide (e.1 / 2 / 65536 = k.ctorIdx))))
    pcu := { ltg.pcu with
      work := [], stats := [], hbuf := [], outs := [], lastFire := [], fired := []
      tables := { ltg.pcu.tables with staged := [], waiting := [], fetch := [], tsync := [], faultLine := [] }
      caps := [], legs := [] } }

/-- The ring after a warm start begins: no superframe is originated, nothing waits to be sent (R85). -/
def Dev.ringDrop (d : Dev) : Dev :=
  d.setZ (fun z => { z with
    originating := false, startHandle := none, startReq := false, rejoin := false, lockRun := 0, txLines := [], txMsgs := []
    out0 := [], out1 := [], plan := [], sendNow := none, pri := { z.pri with chars := [], replies := [] }
    rev := { z.rev with chars := [], replies := [] } })

/-- What ends at once at a warm start or a power-fail warning, without a record. -/
def Dev.allDrop (d : Dev) : Dev :=
  let d := d.setPwr (fun p => { p with booted := false, trans := none, domHandles := [], warmReq := none })
  let d := d.setKw (fun k => { k with
    fifo := [], waiting := [], part := [], owed := false, cur := none, pend := [], secure := false, handles := [], lastHandle := 0 })
  let d := d.loadAbandon.calDrop.bankFlush
  (d.setLan (fun l => { l with seq := [] })).ringDrop.timingDrop false

/-- A warm start begins (R353): the keep decision, the cause, and what is abandoned and cleared. -/
def Dev.warmBegins (d : Dev) (cause : Nat) : Dev :=
  let keep := d.on SCB_STAT_CLEAN 0 && !(d.cfg.load.partialLoad && d.cfg.load.isOpen) && decide (cause ≠ 5) &&
    decide (d.cfgState = csDONE)
  let d := d.evqWarm.allDrop
  let d := (List.range 16).foldl (fun d n => d.regionReset n) d
  let d := d.preRelease
  let d := { d with fab := { d.fab with
    lines := [], lb := [], lbNow := [], evPend := [], snap := [], snapLeft := 0, snapFired := false, actNow := [] } }
  let d := (d.bankWarm.mcvWarm 0).mcvWarm 1
  let d := (d.rstWhere (fun f _ => warmClears f))
  let d := d.cmpStarts (fun _ => true)
  let d := d.setScb (fun _ => { Scb.reset with sweepNow := d.now })
  let warm := min 255 (d.rf PWR_RSTCAUSE_WARM 0 + 1)
  let d := (d.wf PWR_RSTCAUSE_CAUSE 0 cause).wf PWR_RSTCAUSE_WARM 0 warm
  { d with tb := 0 } |>.setPwr (fun p => { p with st := .held, keep := keep })

/-- A warm start keeps locked PLLs and relocks the others (R353), which needs REFCLK; the PLL of a quad without power stays off. -/
def Dev.clocksRelock (d : Dev) : Dev :=
  if d.on CLK_REFSTAT_REFOK 0 then
    (List.range 3).foldl (fun d q =>
      let on := tbit (d.rf PWR_DOMEN_SER 0) q
      (d.wbit CLK_PLLSTAT_LOCK 0 (7 + q) on).wf LAN_QSTAT_LOCK q (b2n on)) (d.wf CLK_PLLSTAT_LOCK 0 2047)
  else d

/-- The warm start proceeds (R353): reboot, march, store scan, and either the start-up order from LOCK or a full load. -/
def State.warmProceeds (s : State) : State :=
  let d := s.dev.setPwr (fun p => { p with st := .starting, rstn := false })
  let d := d.clocksRelock.booted
  let d := if d.rf PWR_RSTCAUSE_CAUSE 0 = 5 then d.scanAndLoad else d.storeScan.2
  let d := if d.fuses.warmMarch = true ∧ d.rf PWR_RSTCAUSE_CAUSE 0 ≠ 5 then
      (List.range 8).foldl (fun d b => if d.bankServes b then d.marchStart b 1 false else d) d
    else d
  let d := d.lanesSettle.overflowWrite
  if d.pwr.keep then
    { s with dev := d.clockedRegions.foldl (fun d n => (d.setRgn n rsSTARTING)) d.startupBegins }
  else ({ s with dev := d }).fullStart none false

/-- A warm start without a held reset: SOFT, SCB, LOCKSTEP, PFAIL. -/
def State.warmNow (s : State) (cause : Nat) : State := (s.onDev (fun d => d.warmBegins cause)).warmProceeds

/-- The firmware runs, so that a warm start can be asked for. -/
def Dev.running (d : Dev) : Bool :=
  d.pwr.booted && (decide (d.pwr.st = .starting) || decide (d.pwr.st = .run) || decide (d.pwr.st = .hold) ||
    decide (d.pwr.st = .nap))

/-- Ask for a warm start (R335, R353). -/
def Dev.warmAsk (d : Dev) (cause at_ : Nat) : Dev :=
  if d.running = true ∧ d.pwr.warmReq.isNone = true then d.setPwr (fun p => { p with warmReq := some (cause, at_) }) else d

/-- The row WARM_START: RSTN has risen, or a requested warm start is due. -/
def State.warmStart (s : State) : State :=
  match s.dev.pwr.st, s.dev.pwr.warmReq with
  | .held, _ => s.warmProceeds
  | _, some (cause, at_) => if at_ ≤ s.dev.now ∧ s.dev.running = true then s.warmNow cause else s
  | _, none => s

/-! SLEEP and wake (R349, R350) -/

/-- A wake source is recognised: it starts a wake, or is recorded in one that runs. -/
def Dev.wakeBegins (d : Dev) (bit : Nat) : Dev :=
  match d.pwr.st with
  | .sleep =>
    let d := (d.wbit PWR_WAKESTAT_SRC 0 bit true).setPwr (fun p => { p with st := .waking, wakeNow := d.now })
    let d := (d.wf SCB_STAT_STATE 0 2).wf SCB_POS_FRAME 0 0
    d.setScb (fun s => { s with sweepNow := d.now, lastCheck := 0, lastLen := 0, dirty := false })
  | .waking => d.wbit PWR_WAKESTAT_SRC 0 bit true
  | _ => d

/-- A record of the crown (R61, R195). -/
def Dev.crownPost (d : Dev) (src value : Nat) : Dev :=
  if d.pwr.st = .sleep then
    d.postRec { kind := .edge, source := src, crown := true, more := false, value := value, tb := d.t }
  else d

/-- A capture unit sees its edge in SLEEP (R61). -/
def Dev.wakeCapture (d : Dev) (k : Nat) (rising : Bool) : Dev :=
  if d.on PWR_WAKECFG_CAP 0 = true ∧ d.on ENC_CAPCTRL_EN k = true ∧ d.on ENC_CAPCTRL_WAKE k = true ∧
      d.rf ENC_CAPCTRL_SRC k < 112 ∧ d.captureSel k rising = true then
    (d.crownPost (0x040 + k) 0).wakeBegins 1
  else d

/-- A tick of a wake comparator from the crown (R195): the filter runs as awake; OUT that becomes 1 wakes, and so does OUT that
is 1 already. -/
def Dev.cmpWakeTick (d : Dev) (n : Nat) (vp vn : Int) : Dev :=
  if (d.pwr.st = .sleep ∨ d.pwr.st = .waking) ∧ d.on CMP_CFG_EN n = true ∧ d.on CMP_CFG_WAKE n = true ∧
      d.cmpTicks n = true then
    let b := d.pwr.booted
    let up := d.on CMP_STAT_OUT n
    let d := ((d.setPwr (fun p => { p with booted := false })).cmpTick n vp vn).setPwr (fun p => { p with booted := b })
    if (up = true ∨ d.on CMP_STAT_OUT n = true) ∧ d.on PWR_WAKECFG_CMP 0 = true then (d.crownPost (0x060 + n) 1).wakeBegins 0 else d
  else d

/-- The wake ends (R350, R431): everything but the crown comes up from reset values, and what is retained or reloaded. -/
def State.wakeDone (s : State) : State :=
  if s.dev.pwr.st ≠ .waking then s
  else
    let d := s.dev
    let levels := d.enc.map (fun e => (e.1, { EncPort.reset with a := e.2.a, b := e.2.b, z := e.2.z, pos := e.2.pos }))
    let d := { d with enc := levels.foldl (fun (t : Tab EncPort) (e : Nat × EncPort) => tset t .reset e.1 e.2) [] }
    let keep := d
    let d := d.rstWhere (fun f i => volatileField f && !(keptOverSleep keep f i) && decide (2 ≤ regDomain f.kind i))
    let d := d.timingDrop true
    let d := { d with pcu := Pcu.reset, mcv := [] }
    let d := (d.setZ (fun z => { z with lockRun := 0 })).wf ZLK_STAT_LOCKED 0 0
    let d := (d.scanAndLoad).clocksRelock
    let d := (List.range 3).foldl (fun d q => (d.wf LAN_QSTAT_LOCK q 0).wbit CLK_PLLSTAT_LOCK 0 (7 + q) false) d
    let d := (d.enter .hold).headsFree
    let d := d.clockedRegions.foldl (fun (d : Dev) n =>
      if d.rgnState n = rsRUNNING then ((d.regionReset n).gsrRelease n).wenRelease n else d.regionReset n) d
    let d := d.cmpStarts (fun n => !(d.on CMP_CFG_EN n && d.on CMP_CFG_WAKE n))
    let d := d.padsReturn.lanesSettle
    let d := d.wf PWR_WAKESTAT_DUR 0 (min 65535 ((d.now - d.pwr.wakeNow) / 10000))
    let d := (d.post .edge 0x151 (d.rf PWR_WAKESTAT_SRC 0)).wf SYS_KWSTAT_READY 0 1
    let s := { s with dev := d }
    if tbit (d.rf PWR_WAKESTAT_SRC 0) 5 then s.onDev (fun d => d.warmBegins 1)
    else match d.rf PWR_WAKECFG_RETURN 0 with
      | 1 => s.powerRequest 1 .silent
      | 2 => s.powerRequest 3 .silent
      | _ => s

/-- RSTN is recognised low (R347). -/
def Dev.rstnAssert (d : Dev) : Dev :=
  match d.pwr.st with
  | .off => d
  | .cold => d
  | .halted => d
  | .pfhold => d
  | .held => d
  | .sleep => d.wakeBegins 5
  | .waking => d.wakeBegins 5
  | _ => d.warmBegins 1

/-! Power failure (R354, R355) -/

/-- A warning counts: PFAILN (1), or the supervisor of VCORE (2) or VANA (3) while enabled. -/
def Dev.warningCounts (d : Dev) (src : Nat) : Bool :=
  (match src with
   | 1 => true
   | 2 => d.on PWR_PFAIL_VCEN 0
   | 3 => d.on PWR_PFAIL_VAEN 0
   | _ => false) &&
  (match d.pwr.st with
   | .off => false
   | .cold => false
   | .halted => false
   | .pfhold => false
   | _ => true)

/-- The power-fail sequence (R354), to PFHOLD. -/
def State.powerFail (s : State) (src : Nat) : State :=
  if s.dev.warningCounts src then
    let d := (s.dev.wf PWR_PFAIL_SRC 0 src).inc PWR_PFAIL_CNT 0 1
    let d := d.allDrop.headsPark
    let d := (d.setKw (fun k => { k with out := [] })).evqPfail
    let d := d.preRelease
    let d := d.wf SYS_KWSTAT_READY 0 0
    let d := d.setScb (fun _ => .reset)
    State.memLost { s with dev := ((d.wf PWR_STATE_BUSY 0 0).wf PWR_STATE_TGT 0 0).enter .pfhold }
  else s

/-- The supplies have recovered (R355). -/
def State.pfailRecovery (s : State) : State :=
  if s.dev.pwr.st ≠ .pfhold then s
  else
    let keep := s.dev
    let d := s.dev.rstWhere (fun f i => volatileField f && !(keptOverSleep keep f i) && decide (2 ≤ regDomain f.kind i))
    let d := { d with pcu := Pcu.reset, mcv := [], enc := [] }
    ({ s with dev := d.setPwr (fun p => { p with st := .run }) }).warmNow 5

/-! Clocks (R357) -/

/-- The device stands on holdover. -/
def Dev.holdover (d : Dev) : Dev :=
  let d := d.wf CLK_REFSTAT_HOLDOVER 0 1
  d.post .fault 0x160 (d.rf CLK_PLLSTAT_LOSS 0 + d.rf CLK_REFSTAT_REFLOST 0 * 2 ^ 16)

/-- The clocks are watched: awake and started. -/
def Dev.clocksWatched (d : Dev) : Bool :=
  match d.pwr.st with
  | .held => true
  | .starting => true
  | .run => true
  | .hold => true
  | .nap => true
  | _ => false

/-- REFCLK has been absent for 400 ns: the crown sees it in SLEEP as well. -/
def Dev.refclkLost (d : Dev) : Dev :=
  if (d.clocksWatched = true ∨ d.pwr.st = .sleep ∨ d.pwr.st = .waking) ∧ d.on CLK_REFSTAT_REFOK 0 = true then
    ((((d.wf CLK_REFSTAT_REFOK 0 0).wf CLK_REFSTAT_REFLOST 0 1).inc CLK_REFSTAT_LOSSCNT 0 1).setPwr (fun p => { p with
      refBack := none })).holdover
  else d

/-- PLL `i` loses lock; the PLL of a quad without power cannot. -/
def Dev.pllLost (d : Dev) (i : Nat) : Dev :=
  if d.clocksWatched = true ∧ tbit (d.rf CLK_PLLSTAT_LOCK 0) i = true then
    let d := (d.wbit CLK_PLLSTAT_LOCK 0 i false).wbit CLK_PLLSTAT_LOSS 0 i true
    let d := if 7 ≤ i ∧ i ≤ 9 then (d.wf LAN_QSTAT_LOCK (i - 7) 0).wf LAN_QSTAT_LOSS (i - 7) 1 else d
    d.holdover.lanesSettle
  else d

/-- REFCLK is back. -/
def Dev.refclkReturn (d : Dev) : Dev :=
  if d.on CLK_REFSTAT_REFOK 0 then d else (d.wf CLK_REFSTAT_REFOK 0 1).setPwr (fun p => { p with refBack := some d.now })

/-- HOLDOVER clears when REFCLK has been present for 1 ms and every PLL has relocked: the first line carries GAP. -/
def Dev.holdoverEnd (d : Dev) : Dev :=
  let steady := d.on CLK_REFSTAT_REFOK 0 && (match d.pwr.refBack with
    | none => true
    | some n => decide (n + 1000000 ≤ d.now))
  if d.on CLK_REFSTAT_HOLDOVER 0 = true ∧ steady = true then
    let d := (List.range 11).foldl (fun d i =>
      if 7 ≤ i ∧ i ≤ 9 then
        if d.domOn i then (d.wbit CLK_PLLSTAT_LOCK 0 i true).wf LAN_QSTAT_LOCK (i - 7) 1 else d
      else d.wbit CLK_PLLSTAT_LOCK 0 i true) d
    let d := (d.wf CLK_REFSTAT_HOLDOVER 0 0).setPwr (fun p => { p with refBack := none })
    ((List.range 24).filter (fun h => d.on LTG_CTRL_ARM h)).foldl (fun d h => d.setGap h) d.lanesSettle
  else d

/-! TESTEN and VBAT (R345, R452) -/

/-- TESTEN is driven high: the BBRAM key is zeroised and the device is in factory test. -/
def State.testen (s : State) : State :=
  let d := (s.dev.setCfg (fun c => { c with bbrKey := [] })).unpowered
  State.memLost { s with dev := d.setPwr (fun p => { p with testen := true }) }

/-- VBAT is lost while the other supplies are off: the BBRAM loses its content. -/
def Dev.vbatLoss (d : Dev) : Dev := if d.pwr.st = .off then d.bbramLost else d

end Sys2Proof.Machine
end

