-- ==== Sys2Proof/Machine/Checks.lean ====
section
/-! DEFINITION. Which fields of a register write are refused beyond their ranges (R458): the forbidden combinations of
R29 and the conditions that the owning chapters place on a write, in the state before it. -/

namespace Sys2Proof.Machine

/-- A register write as its checks see it: the device before it, the path, the element, the value carried, and the
register map as the write would leave it. -/
structure Wr where
  d : Dev
  pth : Path
  i : Nat
  v : Nat
  t : Tab Word
deriving DecidableEq, Repr

/-- The value the write carries for a field. -/
def Wr.new (w : Wr) (f : Fld) : Nat := bitsOf w.v f.lsb f.width

/-- The value the field has. -/
def Wr.old (w : Wr) (f : Fld) : Nat := w.d.rf f w.i

/-- The write would change the field. -/
def Wr.chg (w : Wr) (f : Fld) : Bool := decide (w.new f ≠ w.old f)

/-- The write carries a one for the bit. -/
def Wr.one (w : Wr) (f : Fld) : Bool := decide (w.new f ≠ 0)

/-- The bit is set. -/
def Wr.was (w : Wr) (f : Fld) : Bool := decide (w.old f ≠ 0)

/-- The write would set the bit. -/
def Wr.sets (w : Wr) (f : Fld) : Bool := w.one f && !(w.was f)

/-- A refusal for a value (R459). -/
def paramAt (lsb : Nat) : Refused := ⟨.value, stBAD_PARAM, lsb⟩

/-- A refusal for the state of the device or the values of other fields (R459). -/
def stateAt (lsb : Nat) : Refused := ⟨.state, stBAD_STATE, lsb⟩

/-- A refusal for want of a secure session (R367). -/
def secureAt (lsb : Nat) : Refused := ⟨.state, stNOT_SECURE, lsb⟩

/-- A refusal of a writer that does not own the item (R370, R402). -/
def ownerAt (lsb : Nat) : Refused := ⟨.nowner, stDENIED, lsb⟩

/-- The refusal, if its condition holds. -/
def only (c : Bool) (r : Refused) : List Refused := if c then [r] else []

/-- Locked fields that the write would change. -/
def Wr.locked (w : Wr) (c : Bool) (l : List Fld) : List Refused :=
  if c then (l.filter (fun f => w.chg f)).map (fun f => stateAt f.lsb) else []

/-- A secure session on the Kweave path (R367). -/
def Wr.secure (w : Wr) : Bool := decide (w.pth = .kweave) && w.d.kw.secure

/-! Conditions that several registers share -/

/-- A region would carry a head too fast for its clock (R235). -/
def Wr.rateBad (w : Wr) : Bool := (List.range 16).any (fun n => Sys2Proof.Machine.rateBad w.t n (w.d.fsel n))

/-- A line of the head would be larger than the stride of its enabled line writer (R141). -/
def Wr.strideBad (w : Wr) (h : Nat) : Bool :=
  w.d.on PCU_LWCTRL_EN h && decide (tget w.d.pcu.stride 0 h < lineStride w.t h)

/-- Payload of a line of the head on its direct stream, in bytes (R411). -/
def lanePayload (t : Tab Word) (h : Nat) : Nat :=
  let bin := if fieldOf t PCU_LROUTE_DATA h = 2 ∧ fieldOf t PCU_HCFG_BYPASS h = 0 then binFactor (fieldOf t PCU_HCFG_BIN h)
    else 1
  (enabledChans t h).length * ceilDiv (fieldOf t AFE_HNPIX_NPIX h) bin * 2 + 528 * fieldOf t PCU_LROUTE_STATS h

/-- The payload of a direct-stream line would exceed 32,768 bytes (R411). -/
def Wr.payloadBad (w : Wr) (h : Nat) : Bool :=
  decide (fieldOf w.t PCU_LROUTE_EN h ≠ 0) && decide (32768 < lanePayload w.t h)

/-- An enabled channel of the head is not doubled on a pixel clock above 65 MHz (R90). -/
def fastBad (t : Tab Word) (h : Nat) : Bool :=
  decide (279172874 < fieldOf t HCP_HCKFREQ_FREQ h) && (enabledChans t h).any (fun c => !(doubledOf t c))

/-- RADV and a pixel clock break R95. -/
def radvBreaks (radv freq : Nat) : Bool :=
  decide (radv * 2 ^ 32 < 128 * freq) || decide (64 * (2 ^ 32 - freq) < radv * 2 ^ 32)

/-- The register's pixel clock and the one in force (R95; HCKFREQ is line-shadowed, R93). -/
def Dev.clocksOf (d : Dev) (h : Nat) (t : Tab Word) : List Nat := [fieldOf t HCP_HCKFREQ_FREQ h, (d.getHcp h).clock]

/-- A channel of the head is set to CDS. -/
def cdsHead (t : Tab Word) (h : Nat) : Bool := (chansOf h).any (fun c => decide (fieldOf t AFE_CH_SAMP c = 1))

/-- RADV would break R95 on a head with a CDS channel. -/
def Wr.radvBad (w : Wr) (h : Nat) : Bool :=
  cdsHead w.t h && (w.d.clocksOf h w.t).any (fun f => radvBreaks (fieldOf w.t AFE_HTIM_RADV h) f)

/-! Encoders, line triggers, ring -/

/-- ENC (R36, R37). -/
def chkEnc (w : Wr) : RegKind → List Refused
  | .ENC_CTRL => w.locked (w.was ENC_CTRL_EN) [ENC_CTRL_MODE, ENC_CTRL_INV, ENC_CTRL_IDX]
  | .ENC_POSSETH => only (w.one ENC_POSSETH_LOAD && !(w.d.posLoadOk w.i)) (stateAt 31)
  | _ => []

/-- LTG (R43 to R46, R48). -/
def chkLtg (w : Wr) : RegKind → List Refused
  | .LTG_CTRL =>
    w.locked (w.was LTG_CTRL_ARM) [LTG_CTRL_SRC, LTG_CTRL_ENC, LTG_CTRL_REF] ++
      only ((decide (w.new LTG_CTRL_SRC = 3) || decide (w.new LTG_CTRL_SRC = 5)) && decide (24 ≤ w.new LTG_CTRL_REF))
        (paramAt 7) ++
      only (w.sets LTG_CTRL_ARM && !(w.d.armOk w.i (w.new LTG_CTRL_SRC) (w.new LTG_CTRL_ENC))) (stateAt 0)
  | .LTG_PITCH => only (decide (w.d.rf LTG_PITCHH_PITCHH w.i * 2 ^ 32 + w.new LTG_PITCH_PITCH < 0x1000)) (paramAt 0)
  | .LTG_ORIGIN => w.locked (w.d.on LTG_CTRL_ARM w.i) [LTG_ORIGIN_ORG]
  | .LTG_ORIGINH => w.locked (w.d.on LTG_CTRL_ARM w.i) [LTG_ORIGINH_ORGH]
  | .LTG_LINE => w.locked (w.d.on LTG_CTRL_ARM w.i) [LTG_LINE_LINE]
  | .LTG_TBCTRL => only (w.one LTG_TBCTRL_LOAD && !(w.d.tbLoadOk)) (stateAt 0)
  | _ => []

/-- ZLK (R69, R70, R76). -/
def chkZlk (w : Wr) : RegKind → List Refused
  | .ZLK_CTRL =>
    w.locked (w.was ZLK_CTRL_EN) [ZLK_CTRL_ROLE, ZLK_CTRL_ID] ++
      only (w.one ZLK_CTRL_START && !(w.one ZLK_CTRL_EN)) (stateAt 31) ++
      only (w.one ZLK_CTRL_START && w.one ZLK_CTRL_EN && w.d.startRuns) ⟨.state, stBUSY, 31⟩
  | .ZLK_TXHEAD => only (decide (8 < popcount 24 (w.new ZLK_TXHEAD_MASK))) (paramAt 0)
  | _ => []

/-! Analogue front end, converters, pixel unit -/

/-- HCP timing (R90, R95, R404). -/
def chkHcp (w : Wr) : RegKind → List Refused
  | .HCP_CTRL => w.locked (w.was HCP_CTRL_EN) [HCP_CTRL_HCKMODE]
  | .HCP_HCKFREQ =>
    only (w.radvBad w.i) (paramAt 0) ++ only (fastBad w.t w.i || w.rateBad) (stateAt 0)
  | .HCP_TWCMD =>
    if w.one HCP_TWCMD_GO then
      (w.d.twRefused w.i (w.new HCP_TWCMD_WLEN) (w.new HCP_TWCMD_RLEN)).toList
    else []
  | _ => []

/-- `AFE.CH` (R28 note a, R88, R90, R101, R114, R141, R235, R411). -/
def chkChannel (w : Wr) : List Refused :=
  let term := w.new AFE_CH_TERM
  let inm := w.new AFE_CH_INMODE
  let pairOdd := tbit (w.d.rf CNV_DBL_PAIR (w.i / 12)) (w.i % 12 / 2) && decide (w.i % 2 = 1)
  only ((decide (inm = 1) && (decide (term = 1) || decide (term = 2))) || (decide (inm = 0) && decide (term = 3)))
      (paramAt AFE_CH_TERM.lsb) ++
    w.locked (w.was AFE_CH_EN) [AFE_CH_INMODE, AFE_CH_TERM, AFE_CH_SAMP] ++
    w.locked (w.was AFE_CH_TRIMEN || w.one AFE_CH_TRIMEN) [AFE_CH_TRNG] ++
    only (w.chg AFE_CH_SAMP && decide (w.new AFE_CH_SAMP = 1) && doubledOf w.d.regs w.i) (stateAt AFE_CH_SAMP.lsb) ++
    only (w.sets AFE_CH_EN &&
      (pairOdd || fastBad w.t (headOf w.i) || w.strideBad (headOf w.i) || w.payloadBad (headOf w.i) || w.rateBad)) (stateAt 0)

/-- AFE (R95, R111, R141, R411). -/
def chkAfe (w : Wr) : RegKind → List Refused
  | .AFE_CH => chkChannel w
  | .AFE_HTIM => only (w.chg AFE_HTIM_RADV && w.radvBad w.i) (paramAt AFE_HTIM_RADV.lsb)
  | .AFE_HNPIX => only (w.strideBad w.i || w.payloadBad w.i) (stateAt 0)
  | .AFE_SCANCTRL =>
    only (w.one AFE_SCANCTRL_START && !(w.d.scanOk (w.new AFE_SCANCTRL_CH)
      (sx AFE_SCANCTRL_PIX.width (w.new AFE_SCANCTRL_PIX)))) (stateAt 24)
  | _ => []

/-- The doubling of pair `p` of group `g` may not change so (R114). -/
def Wr.pairBad (w : Wr) (g p : Nat) : Bool :=
  let c := 12 * g + 2 * p
  w.d.on AFE_CH_EN c || w.d.on AFE_CH_EN (c + 1) || w.d.mitOnPair g p ||
    (tbit (w.new CNV_DBL_PAIR) p && decide (w.d.rf AFE_CH_SAMP c = 1)) ||
    (!(tbit (w.new CNV_DBL_PAIR) p) && decide (279172874 < w.d.rf HCP_HCKFREQ_FREQ (headOf c)))

/-- CNV (R114, R235, R411). -/
def chkCnv (w : Wr) : RegKind → List Refused
  | .CNV_DBL =>
    let changed := (List.range 6).filter (fun p => decide (tbit (w.new CNV_DBL_PAIR) p ≠ tbit (w.old CNV_DBL_PAIR) p))
    only (changed.any (fun p => w.pairBad w.i p) ||
      (!(changed.isEmpty) && (w.rateBad || [0, 1, 2].any (fun j => w.payloadBad (3 * w.i + j))))) (stateAt 0)
  | _ => []

/-- Another window of the group holds an entry of a channel's window (R126). -/
def Wr.windowOverlap (w : Wr) : Bool :=
  let b := w.new PCU_WIN_BASE
  let n := w.new PCU_WIN_LEN
  decide (n ≠ 0) && (List.range 12).any (fun j =>
    let c := w.i / 12 * 12 + j
    let b' := w.d.rf PCU_WIN_BASE c
    let n' := w.d.rf PCU_WIN_LEN c
    decide (c ≠ w.i) && decide (n' ≠ 0) && decide (b < b' + n') && decide (b' < b + n))

/-- The lane is no first lane of a bond (R419). -/
def Dev.notFirst (d : Dev) (l : Nat) : Bool := !(firstOfBond (d.rf LAN_QCFG_BOND (l / 4)) l)

/-- PCU (R126, R130, R139, R141, R235, R411, R419). -/
def chkPcu (w : Wr) : RegKind → List Refused
  | .PCU_HCFG =>
    only (w.chg PCU_HCFG_BIN && (w.strideBad w.i || w.payloadBad w.i || w.rateBad)) (stateAt PCU_HCFG_BIN.lsb)
  | .PCU_ROUTE =>
    only ((w.d.paired && decide (8 ≤ w.new PCU_ROUTE_REGION)) || w.rateBad) (stateAt 0)
  | .PCU_LROUTE =>
    only (w.payloadBad w.i || (w.one PCU_LROUTE_EN && w.d.notFirst (w.new PCU_LROUTE_LANE))) (stateAt 0)
  | .PCU_LWCTRL =>
    w.locked (w.was PCU_LWCTRL_EN) [PCU_LWCTRL_BANK, PCU_LWCTRL_DATA, PCU_LWCTRL_DEPTH] ++
      only (w.sets PCU_LWCTRL_EN && decide (0x100000 <
        w.d.rf PCU_LWBASE_BASE w.i * 64 + lineStride w.t w.i * w.new PCU_LWCTRL_DEPTH)) (paramAt 0)
  | .PCU_LWBASE => w.locked (w.d.on PCU_LWCTRL_EN w.i) [PCU_LWBASE_BASE]
  | .PCU_WIN => only (decide (12288 < w.new PCU_WIN_BASE + w.new PCU_WIN_LEN) || w.windowOverlap) (paramAt 0)
  | .PCU_TSYNC => only ((List.range 24).any (fun h => tbit (w.new PCU_TSYNC_HEADS) h && w.d.on LTG_CTRL_ARM h)) (stateAt 0)
  | _ => []

/-- CAL (R28 note e). -/
def chkCal (w : Wr) : RegKind → List Refused
  | .CAL_CTRL => only (w.one CAL_CTRL_TRIG && w.d.paired) (stateAt 0)
  | _ => []

/-! Analogue cells, matrix, comparators, monitor converters -/

/-- A function misses a component (R181, R182): 1 RA, 2 RB, 4 CA, 8 CB. -/
def funcNeeds : Nat → Nat
  | 2 => 3
  | 3 => 3
  | 4 => 3
  | 5 => 9
  | 6 => 15
  | 7 => 2
  | _ => 0

/-- What of the network is absent. -/
def netAbsent (ra rb ca cb : Nat) : Nat :=
  b2n (decide (ra = 63)) + 2 * b2n (decide (rb = 63)) + 4 * b2n (decide (ca = 31)) + 8 * b2n (decide (cb = 31))

/-- The function needs what is absent. -/
def funcLacks (func absent : Nat) : Bool := (List.range 4).any (fun k => tbit (funcNeeds func) k && tbit absent k)

/-- The network of a cell, as the register map has it. -/
def netOf (t : Tab Word) (n : Nat) : Nat :=
  netAbsent (fieldOf t CAC_NET_RA n) (fieldOf t CAC_NET_RB n) (fieldOf t CAC_NET_CA n) (fieldOf t CAC_NET_CB n)

/-- CAC (R177, R182, R184). -/
def chkCac (w : Wr) : RegKind → List Refused
  | .CAC_CFG =>
    only (funcLacks (w.new CAC_CFG_FUNC) (netOf w.t w.i)) (paramAt 0) ++
      only ((decide (w.new CAC_CFG_RSTSRC = 1) && decide (24 ≤ w.new CAC_CFG_RSTSEL)) ||
        (decide (w.new CAC_CFG_RSTSRC = 2) && decide (48 ≤ w.new CAC_CFG_RSTSEL))) (paramAt CAC_CFG_RSTSEL.lsb)
  | .CAC_SEL =>
    only (w.chg CAC_SEL_OBUS && (w.d.busConflict (32 + w.i) (w.new CAC_SEL_OBUS) true).isSome) (stateAt CAC_SEL_OBUS.lsb)
  | _ => []

/-- Buses whose release would leave two sources (R180). -/
def Dev.releaseConflicts (d : Dev) (v first : Nat) : List Nat :=
  (setBitsOf 32 v).filter (fun b => d.isolated (first + b) && decide (2 ≤ (d.busSources (first + b)).length))

/-- ASW (R177, R180). -/
def chkAsw (w : Wr) : RegKind → List Refused
  | .ASW_AX =>
    only ((w.chg ASW_AX_BUS || w.chg ASW_AX_DIR) &&
      (w.d.busConflict w.i (w.new ASW_AX_BUS) (decide (w.new ASW_AX_DIR = 0))).isSome) (stateAt 0)
  | .ASW_BREL0 => only (!((w.d.releaseConflicts w.v 0).isEmpty)) (stateAt 0)
  | .ASW_BREL1 => only (!((w.d.releaseConflicts w.v 32).isEmpty)) (stateAt 0)
  | _ => []

/-- The thresholds of window `x` are in order (R193). -/
def winOrder (t : Tab Word) (x : Nat) : Bool := decide (fieldOf t CMP_THR_TH (2 * x + 1) < fieldOf t CMP_THR_TH (2 * x))

/-- CMP (R187, R193, R195). -/
def chkCmp (w : Wr) : RegKind → List Refused
  | .CMP_CFG => only (w.one CMP_CFG_WAKE && decide (w.d.rf CMP_FILT_CLASS w.i = 0)) (paramAt CMP_CFG_WAKE.lsb)
  | .CMP_FILT => only (decide (w.new CMP_FILT_CLASS = 0) && w.d.on CMP_CFG_WAKE w.i) (paramAt 0)
  | .CMP_TICK =>
    let v := w.new CMP_TICK_TICK
    only (if w.d.rf CMP_CFG_TSRC w.i = 0 then decide (v < 4295) || decide (279172874 < v)
      else decide (v ≠ bitsOf v 0 6 + bitsOf v 8 8 * 256)) (paramAt 0)
  | .CMP_THR => only (tbit (w.d.rf CMP_WIN_WEN 0) (w.i / 2) && !(winOrder w.t (w.i / 2))) (paramAt 0)
  | .CMP_WIN =>
    only ((List.range 24).any (fun x => tbit (w.new CMP_WIN_WEN) x && !(tbit (w.old CMP_WIN_WEN) x) &&
      (decide (w.d.rf CMP_CFG_INN (2 * x) ≠ 127) || decide (w.d.rf CMP_CFG_INN (2 * x + 1) ≠ 127) ||
        !(winOrder w.d.regs x)))) (paramAt 0)
  | _ => []

/-- A SEL beyond the range of its SRC (R205). -/
def selBad (src sel : Nat) : Bool :=
  (decide (src = mcvLINE) && decide (24 ≤ sel)) || (decide (src = mcvCAPTURE) && decide (32 ≤ sel)) ||
    (decide (src = mcvCOMPARATOR) && decide (48 ≤ sel))

/-- A buffer of the converter is past the end of its bank (R211). -/
def bufBad (t : Tab Word) (m : Nat) : Bool := decide (1048576 < fieldOf t MCV_BUFBASE_BASE m * 8 + 8 * fieldOf t MCV_BUF_SIZE m)

/-- MCV (R204, R205, R207, R211, R212). -/
def chkMcv (w : Wr) : RegKind → List Refused
  | .MCV_CTRL =>
    only (w.one MCV_CTRL_EN && (w.d.mcvMask w.i).isEmpty) (paramAt 0) ++
      only (w.one MCV_CTRL_IEN && (w.d.mcvSlots w.i).isEmpty) (paramAt 1)
  | .MCV_MASK0 => only (w.d.on MCV_CTRL_EN w.i && decide (w.v = 0) && decide (w.d.rf MCV_MASK1_MASK w.i = 0)) (paramAt 0)
  | .MCV_MASK1 =>
    only (w.d.on MCV_CTRL_EN w.i && decide (w.new MCV_MASK1_MASK = 0) && decide (w.d.rf MCV_MASK0_MASK w.i = 0)) (paramAt 0)
  | .MCV_TRIG => only (selBad (w.new MCV_TRIG_SRC) (w.new MCV_TRIG_SEL)) (paramAt MCV_TRIG_SEL.lsb)
  | .MCV_ITRIG => only (selBad (w.new MCV_ITRIG_SRC) (w.new MCV_ITRIG_SEL)) (paramAt MCV_ITRIG_SEL.lsb)
  | .MCV_BUF =>
    w.locked (w.d.on MCV_CTRL_EN w.i || w.d.on MCV_CTRL_IEN w.i) [MCV_BUF_BANK, MCV_BUF_SIZE] ++
      only (bufBad w.t w.i) (stateAt MCV_BUF_SIZE.lsb)
  | .MCV_BUFBASE =>
    w.locked (w.d.on MCV_CTRL_EN w.i || w.d.on MCV_CTRL_IEN w.i) [MCV_BUFBASE_BASE] ++
      only (bufBad w.t w.i) (stateAt MCV_BUFBASE_BASE.lsb)
  | .MCV_WMARK => only (decide (w.new MCV_WMARK_WMARK = 0) || decide (w.d.rf MCV_BUF_SIZE w.i ≤ w.new MCV_WMARK_WMARK))
      (paramAt MCV_WMARK_WMARK.lsb)
  | .MCV_RIDX => only (decide (w.d.rf MCV_BUF_SIZE w.i ≤ w.new MCV_RIDX_RIDX)) (paramAt 0)
  | _ => []

/-! Fabric, regions, memory, configuration, scrubber, queue, pins, lanes, power -/

/-- The enabled ports of `FAB.SIMAP` that name the head of another one (R233). -/
def Wr.portsClash (w : Wr) : List Nat :=
  (List.range 4).filter (fun p => (List.range 4).any (fun q => decide (p ≠ q) &&
    w.one (FAB_SIMAP_EN p) && w.one (FAB_SIMAP_EN q) && decide (w.new (FAB_SIMAP_HEAD p) = w.new (FAB_SIMAP_HEAD q))))

/-- FAB (R233, R235, R247). -/
def chkFab (w : Wr) : RegKind → List Refused
  | .FAB_SIMAP =>
    w.portsClash.map (fun p => paramAt (FAB_SIMAP_HEAD p).lsb) ++ only ((w.d.paired && decide (8 ≤ w.i)) || w.rateBad) (stateAt 0)
  | .FAB_SNAPCTRL =>
    only (w.one FAB_SNAPCTRL_ARM && w.one FAB_SNAPCTRL_FREEZE && freezeRefused w.d (w.new FAB_SNAPCTRL_REGIONS))
      (stateAt FAB_SNAPCTRL_FREEZE.lsb)
  | _ => []

/-- RGN (R266, R271). -/
def chkRgn (w : Wr) : RegKind → List Refused
  | .RGN_GAUNTLET =>
    if w.d.paired then only (w.chg RGN_GAUNTLET_POLICY && !(w.secure)) (secureAt 0) else [stateAt 0]
  | .RGN_PSTAT => if w.d.paired then [] else [stateAt 0]
  | .RGN_MMCNT => if w.d.paired then [] else [stateAt 0]
  | .RGN_SIG => if w.d.paired then [] else [stateAt 0]
  | _ => []

/-- MEM (R289). -/
def chkMem (w : Wr) : RegKind → List Refused
  | .MEM_BCTRL =>
    if w.one MEM_BCTRL_MSTART then
      match w.d.marchRefusal w.i (w.new MEM_BCTRL_MMODE) with
      | some st => [⟨.state, st, 0⟩]
      | none => []
    else []
  | _ => []

/-- CFG (R327). -/
def chkCfg (w : Wr) : RegKind → List Refused
  | .CFG_GOLDADDR => only (w.chg CFG_GOLDADDR_ADDR && !(w.secure)) (secureAt 2)
  | _ => []

/-- SCB (R337, R339, R340). -/
def chkScb (w : Wr) : RegKind → List Refused
  | .SCB_CTRL =>
    if w.d.paired = true ∧ w.secure = false then
      only (w.chg SCB_CTRL_EN) (secureAt SCB_CTRL_EN.lsb) ++ only (w.chg SCB_CTRL_ESCALATE) (secureAt SCB_CTRL_ESCALATE.lsb)
    else []
  | .SCB_GAP => only (sweepTooLong (w.new SCB_GAP_GAP) (w.d.rf SCB_SWEEP_LIMIT_MS 0)) (paramAt 0)
  | .SCB_SWEEP_LIMIT => only (sweepTooLong (w.d.rf SCB_GAP_GAP 0) (w.new SCB_SWEEP_LIMIT_MS)) (paramAt 0)
  | .SCB_INJECT => (w.d.injectRefused w.pth (w.new SCB_INJECT_FRAME)).toList
  | _ => []

/-- EVQ (R390). -/
def chkEvq (w : Wr) : RegKind → List Refused
  | .EVQ_TAIL => only (w.d.tailRefused (w.new EVQ_TAIL_TAIL)) (paramAt 0)
  | _ => []

/-- GPIO (R398, R402). -/
def chkGpio (w : Wr) : RegKind → List Refused
  | .GPIO_CFG =>
    only (!(w.d.pinWritable w.pth w.i)) (ownerAt 0) ++
      (w.d.gpioCfgRefused w.i (w.new GPIO_CFG_FUNC) (w.new GPIO_CFG_FUNC2) (w.new GPIO_CFG_SEL)).toList
  | .GPIO_PAD => only (!(w.d.pinWritable w.pth w.i)) (ownerAt 0)
  | .GPIO_MOUT =>
    if w.pth = .kweave then ((w.d.pinsDenied w.pth w.i (w.v / 2 ^ 16)).map (fun b => ownerAt b)).take 1 else []
  | .GPIO_MOE =>
    if w.pth = .kweave then ((w.d.pinsDenied w.pth w.i (w.v / 2 ^ 16)).map (fun b => ownerAt b)).take 1 else []
  | _ => []

/-- LAN (R408, R410, R419). -/
def chkLan (w : Wr) : RegKind → List Refused
  | .LAN_QCFG =>
    w.locked ((List.range 4).any (fun l => w.d.on LAN_CTRL_EN (4 * w.i + l)))
        [LAN_QCFG_RATE, LAN_QCFG_BOND, LAN_QCFG_SWING, LAN_QCFG_EMPH] ++
      only (w.chg LAN_QCFG_BOND && w.d.bondRefused w.i (w.new LAN_QCFG_BOND)) (stateAt LAN_QCFG_BOND.lsb)
  | .LAN_SOMAP =>
    only (w.d.paired && decide (8 ≤ w.i)) (stateAt 0) ++
      ((List.range 4).filter (fun p => w.one (LAN_SOMAP_EN p) && w.d.notFirst (w.new (LAN_SOMAP_LANE p)))).map (fun p =>
        stateAt (5 * p))
  | _ => []

/-- PWR (R345, R348). -/
def chkPwr (w : Wr) : RegKind → List Refused
  | .PWR_REQ => match w.d.powerRefusal (w.new PWR_REQ_TGT) with
    | some st => [⟨if st = stBAD_PARAM then .value else .state, st, 0⟩]
    | none => []
  | .PWR_DOMEN => match w.d.domenRefused w.v with
    | some b => [stateAt b]
    | none => []
  | _ => []

/-- The conditions of the owning chapter. -/
def chapterChecks (w : Wr) (k : RegKind) : List Refused :=
  match blockOf k with
  | 0x01 => chkPwr w k
  | 0x03 => chkCfg w k
  | 0x04 => chkScb w k
  | 0x05 => chkMem w k
  | 0x06 => chkEvq w k
  | 0x07 => chkGpio w k
  | 0x08 => chkHcp w k
  | 0x09 => chkEnc w k
  | 0x0A => chkLtg w k
  | 0x0B => chkZlk w k
  | 0x0C => chkAfe w k
  | 0x0D => chkCnv w k
  | 0x0E => chkPcu w k
  | 0x0F => chkCal w k
  | 0x10 => chkCac w k
  | 0x11 => chkAsw w k
  | 0x12 => chkCmp w k
  | 0x13 => chkMcv w k
  | 0x14 => chkFab w k
  | 0x15 => chkRgn w k
  | 0x16 => chkLan w k
  | _ => []

/-! The write as a whole (R6, R8, R458, R459) -/

/-- The value lies in the field's range or is its further code. -/
def Fld.admits (f : Fld) (n : Nat) : Bool := (decide (f.lo ≤ n) && decide (n ≤ f.hi)) || decide (n = f.also)

/-- The host can write the field. -/
def Acc.writable : Acc → Bool
  | .RO => false
  | _ => true

/-- The field as a write leaves it, before what the write sets off (R6). Of a W1C field, `set` are the bits that the device
has set in the same cycle: the set wins (R7). Of a counter, `set` is what it has counted in the same cycle: that is added to the
value written (R428). -/
def Fld.after (f : Fld) (old new set : Nat) : Nat :=
  match f.acc with
  | .RW =>
    if set = 0 then new
    else if f = LAN_TXCNT_PKTS then (new + set) % 2 ^ f.width
    else min (new + set) (2 ^ f.width - 1)
  | .RWL => new
  | .W1C => old - Nat.land old (new - Nat.land new set)
  | .W1S => Nat.lor old new
  | .RO => old
  | .WO => old

/-- The register as a write leaves it, before what the write sets off. -/
def Dev.writeAll (d : Dev) (k : RegKind) (i v : Nat) : Dev :=
  k.fields.foldl (fun d f => d.putF f i (f.after (d.rf f i) (bitsOf v f.lsb f.width) (d.setNow f i))) d

/-- Fields outside their ranges (R10, R458). -/
def rangeChecks (k : RegKind) (v : Nat) : List Refused :=
  (k.fields.filter (fun f => f.acc.writable && !(f.admits (bitsOf v f.lsb f.width)))).map (fun f => paramAt f.lsb)

/-- Locked RWL fields that the write would change (R8, R432). -/
def Dev.lockChecks (d : Dev) (k : RegKind) (i v : Nat) : List Refused :=
  if d.rwlLocked then
    (k.fields.filter (fun f => decide (f.acc = .RWL) && decide (bitsOf v f.lsb f.width ≠ d.rf f i))).map (fun f =>
      ⟨.rwl, stDENIED, f.lsb⟩)
  else []

/-- A register of a device frame while a load is not in DONE (R315). -/
def Dev.loadChecks (d : Dev) (k : RegKind) : List Refused :=
  if d.cfgState ≠ csDONE ∧ heldKinds.contains k = true then [stateAt 0] else []

/-- Place of a status in the order of R365. -/
def statusRank (st : Nat) : Nat :=
  if st = stBAD_PARAM then 0
  else if st = stNOT_SECURE then 1
  else if st = stBAD_STATE ∨ st = stBUSY then 2
  else 3

/-- The refusal that decides (R459): the first status in the order of R365, and of its fields the lowest. -/
def worst : List Refused → Option Refused
  | [] => none
  | r :: l =>
    match worst l with
    | none => some r
    | some x =>
      if statusRank x.status * 64 + x.lsb < statusRank r.status * 64 + r.lsb then some x else some r

/-- Why a write of a reachable register is refused, if it is. A write with refused fields of several statuses is counted
once, by the one that comes first, on either path (DESIGN CHOICE: R458 does not say which counter takes it; log 53). -/
def Dev.writeRefusal (d : Dev) (pth : Path) (k : RegKind) (i v : Nat) : Option Refused :=
  worst (rangeChecks k v ++ d.lockChecks k i v ++ d.loadChecks k ++
    chapterChecks ⟨d, pth, i, v, (d.writeAll k i v).regs⟩ k)

end Sys2Proof.Machine
end

