-- ==== Sys2Proof/Machine/Mailbox.lean ====
section
/-! DEFINITION. The command mailbox (R358 to R364): both FIFOs, the framing of packets and the replies. -/

namespace Sys2Proof.Machine

/-- Words of the command FIFO (R358). -/
def kwInSize : Nat := 1024

/-- Words of the reply FIFO (R358). -/
def kwOutSize : Nat := 2048

/-- Opcodes of each family, SYS to TEL: the indices count from 0 without a gap (R376, R377). -/
def familySizes : List Nat := [11, 3, 4, 5, 5, 7, 2, 3, 2, 3]

/-- The opcodes of R377: family in [11:8], index in [7:0] (R376). -/
def opcodes : List Nat :=
  (List.range 10).flatMap (fun f => (List.range (familySizes.getD f 0)).map (fun i => f * 2 ^ 8 + i))

/-- The opcodes marked H. -/
def longOpcodes : List Nat := [0x100, 0x101, 0x200, 0x201, 0x202, 0x300, 0x301, 0x600, 0x700, 0x701]

/-- The write opcodes of R379. -/
def writeOpcodes : List Nat := [0x401, 0x402, 0x404]

/-- Words of a reply that find room enter the reply FIFO. -/
def Dev.replyFlow (d : Dev) : Dev :=
  let room := kwOutSize - d.kw.out.length
  d.setKw (fun k => { k with out := k.out ++ k.pend.take room, pend := k.pend.drop room })

/-- DETAIL of a reply (R362): nothing, or a word and a field. -/
def detailWord : Option (Nat × Nat) → Nat
  | none => 0
  | some (word, lsb) => word % 2 ^ 16 + lsb % 2 ^ 8 * 2 ^ 16 + 2 ^ 31

/-- The words of a reply (R362, R363); `w1` is word 1 of the command. -/
def replyWords (w1 status handle : Nat) (loc : Option (Nat × Nat)) (results : List Nat) : List Nat :=
  let body := [0x4B57 * 2 ^ 16 + 5 + results.length, w1, status + handle * 2 ^ 8, detailWord loc] ++
    results.map (fun w => w % 2 ^ 32)
  body ++ [crcWords body]

/-- A reply is sent. Results go with OK and ACCEPTED only. -/
def Dev.reply (d : Dev) (w1 status handle : Nat) (loc : Option (Nat × Nat)) (results : List Nat) : Dev :=
  let res := if status = stOK ∨ status = stACCEPTED then results else []
  (d.setKw (fun k => { k with pend := replyWords w1 status handle loc res, replyHandle := handle })).replyFlow

/-- A packet whose last word has come (R365 steps 1 and 2): it waits for its interpretation, or is answered at once. -/
def Dev.packetCome (d : Dev) (l : List Nat) : Dev :=
  let w1 := l.getD 1 0
  let op := w1 % 2 ^ 16
  if crcWords (l.take (l.length - 1)) ≠ l.getD (l.length - 1) 0 then
    (d.inc SYS_KWCNT_CRC 0 1).reply w1 stCRC_ERR 0 none []
  else
    let d := d.setKw (fun k => { k with lastPkt := d.now })
    if opcodes.contains op then d.setKw (fun k => { k with cur := some l })
    else (d.inc SYS_KWCNT_BADOP 0 1).reply w1 stBAD_OPCODE 0 none []

/-- One word is framed (R364). -/
def Dev.frameWord (d : Dev) (w : Nat) : Dev :=
  match d.kw.part with
  | [] =>
    if w / 2 ^ 16 = 0x4B57 then d.setKw (fun k => { k with part := [w] }) else d.inc SYS_KWCNT_SYNC 0 1
  | w0 :: r =>
    let len := w0 % 2 ^ 16
    if r.isEmpty ∧ (len < 4 ∨ 4096 < len) then
      (d.setKw (fun k => { k with part := [] })).reply w stBAD_PARAM 0 (some (0, 0)) []
    else
      let l := (w0 :: r) ++ [w]
      if l.length = len then (d.setKw (fun k => { k with part := [] })).packetCome l
      else d.setKw (fun k => { k with part := l })

/-- A gap of more than 10 ms ends a partly received packet (R364). -/
def Dev.partTimeout (d : Dev) : Dev :=
  let w1 := d.kw.part.getD 1 0
  ((d.setKw (fun k => { k with part := [] })).inc SYS_KWCNT_TMO 0 1).reply w1 stTIMEOUT 0 none []

/-- The firmware takes words from the command FIFO, as long as no packet is being interpreted and no reply is short of
room (R360). Words that held the parallel port enter as room comes. -/
def Dev.kwPump : Nat → Dev → Dev
  | 0, d => d
  | fuel + 1, d =>
    if d.kw.cur.isSome ∨ d.kw.pend.isEmpty = false then d
    else
      match d.kw.fifo with
      | [] => d
      | (w, at_) :: r =>
        let room := kwInSize - r.length
        let late := !d.kw.part.isEmpty && decide (d.kw.partNow + 10000000 < at_)
        Dev.kwPump fuel (((if late then d.partTimeout else d).setKw (fun k => { k with
          fifo := r ++ (k.waiting.take room).map (fun x => (x, d.now)), waiting := k.waiting.drop room, partNow := at_
          lastNow := if k.waiting.isEmpty then k.lastNow else d.now })).frameWord w)

/-- The firmware goes on with the command FIFO. -/
def Dev.kwRun (d : Dev) : Dev := d.kwPump (d.kw.fifo.length + d.kw.waiting.length)

/-- A word is written to `SYS.KWIN` (R358, R359). -/
def Dev.kwWord (d : Dev) (w : Nat) : Dev :=
  if d.on SYS_KWSTAT_READY 0 = false then d.inc SYS_KWCNT_SYNC 0 1
  else if d.kw.fifo.length < kwInSize then
    (d.setKw (fun k => { k with fifo := k.fifo ++ [(w, d.now)], lastNow := d.now })).kwRun
  else if d.on SYS_STATUS_HPSEL 0 then d.setKw (fun k => { k with waiting := k.waiting ++ [w] })
  else d.wf SYS_KWSTAT_OVF 0 1

/-- A gap of more than 10 ms in a packet (R364). -/
def Dev.kwTimeout (d : Dev) : Dev :=
  if d.kw.part.isEmpty = true ∨ d.kw.fifo.isEmpty = false ∨ d.kw.cur.isSome = true ∨ d.now ≤ d.kw.lastNow + 10000000 then d
  else d.partTimeout

/-- A read of `SYS.KWOUT` (R358): the next reply word, which makes room for words still outside. -/
def Dev.kwOut (d : Dev) : Nat × Dev :=
  match d.kw.out with
  | [] => (0, d.wf SYS_KWSTAT_UNDER 0 1)
  | w :: r => (w, (d.setKw (fun k => { k with out := r })).replyFlow.kwRun)

/-- RESYNC (R364). -/
def Dev.kwResync (d : Dev) : Dev :=
  (d.setKw (fun k => { k with
    fifo := (k.waiting.take kwInSize).map (fun x => (x, d.now)), waiting := k.waiting.drop kwInSize, part := []
    lastNow := if k.waiting.isEmpty then k.lastNow else d.now })).kwRun

/-- FLUSH: the replies in the reply FIFO are lost. -/
def Dev.kwFlush (d : Dev) : Dev := (d.setKw (fun k => { k with out := [] })).replyFlow.kwRun

/-- The packet being interpreted has been answered. -/
def Dev.kwAnswered (d : Dev) : Dev := (d.setKw (fun k => { k with cur := none })).kwRun

/-- Ten seconds without an accepted packet close the session (R369). -/
def Dev.sessionTimeout (d : Dev) : Dev :=
  if d.kw.secure = true ∧ d.kw.lastPkt + 10000000000 ≤ d.now then d.setKw (fun k => { k with secure := false }) else d

/-- `SYS.KWSTAT` as a read shows it. -/
def Dev.kwstat (d : Dev) : Nat :=
  (d.rreg .SYS_KWSTAT 0).toNat / 2 ^ 24 % 2 * 2 ^ 24 + (kwInSize - d.kw.fifo.length) + d.kw.out.length * 2 ^ 12 +
    b2n d.kw.secure * 2 ^ 25 + b2n d.kw.lockout * 2 ^ 26 + b2n (d.kw.cur.isSome || !(d.kw.pend.isEmpty)) * 2 ^ 27 +
    (d.rreg .SYS_KWSTAT 0).toNat / 2 ^ 28 % 4 * 2 ^ 28

end Sys2Proof.Machine
end

