-- ==== Sys2Proof/Machine/Reads.lean ====
section
/-! DEFINITION. What a read of a register returns (R6, R42, R60, R111, R138, R248, R427): fields that follow other state,
latched companions, and reads that advance. -/

namespace Sys2Proof.Machine

/-- A register as held, its WO fields reading 0 (R6). -/
def Dev.held (d : Dev) (k : RegKind) (i : Nat) : Nat :=
  (k.fields.filter (fun f => decide (f.acc = .WO))).foldl (fun n f => setBits n f.lsb f.width 0) (d.rreg k i).toNat

/-- A field of a held value replaced by what the device shows. -/
def shows (n : Nat) (f : Fld) (v : Nat) : Nat := setBits n f.lsb f.width v

/-- The LTG can issue: armed, not moving backwards, and not barred by the state of the device (R45). -/
def Dev.ltgRunning (d : Dev) (h : Nat) : Bool :=
  d.on LTG_CTRL_ARM h && !(d.on LTG_STAT_REVERSE h) && !(match d.imode h with | .none => true | _ => false)

/-! Encoders, line triggers, ring, heads -/

/-- ENC, LTG, ZLK and HCP. -/
def Dev.peekTiming (d : Dev) (pth : Path) (k : RegKind) (i : Nat) : Nat :=
  let v := d.held k i
  match k with
  | .ENC_POS => (d.getEnc i).pos.toNat % 2 ^ 32
  | .ENC_POSH => d.rlatch .ENC_POSH i pth
  | .ENC_VEL => ux 32 (d.vel i)
  | .ENC_CAPTS => ((d.getCap i).headD ⟨0, 0⟩).ts % 2 ^ 32
  | .ENC_CAPTSH => d.rlatch .ENC_CAPTSH i pth
  | .ENC_CAPPOS => d.rlatch .ENC_CAPPOS i pth
  | .ENC_CAPPOSH => d.rlatch .ENC_CAPPOSH i pth
  | .ENC_CAPSTAT => shows v ENC_CAPSTAT_FILL (d.getCap i).length
  | .LTG_STAT => shows v LTG_STAT_RUNNING (b2n (d.ltgRunning i))
  | .LTG_TGT => ux 48 (d.getLtg i).target % 2 ^ 32
  | .LTG_TGTH => ux 48 (d.getLtg i).target / 2 ^ 32
  | .LTG_CTROFS => d.centre i % 2 ^ 24
  | .LTG_EFFMIN => d.effmin i % 2 ^ 24
  | .LTG_TB => d.t % 2 ^ 32
  | .LTG_TBH => d.rlatch .LTG_TBH 0 pth
  | .LTG_TBCTRL => shows v LTG_TBCTRL_RING (b2n (decide (d.zrole = 2)))
  | .ZLK_RPOS => d.zlk.rpos % 2 ^ 32
  | .ZLK_RPOSH => d.rlatch .ZLK_RPOSH 0 pth
  | .HCP_TSTAT => shows v HCP_TSTAT_BUSY (d.busy i)
  | .HCP_AUX => shows v HCP_AUX_IN (b2n (d.auxLevel i))
  | _ => v

/-! Pixel path and calibration -/

/-- A companion of `PCU.STLINE` (R138): what the path latched, or the no-pixel value. -/
def Dev.statLatched (d : Dev) (pth : Path) (k : RegKind) (i : Nat) : Nat :=
  let v := d.rlatch k i pth
  match k with
  | .PCU_STMIN => if v = 0 then 0xFFFF else v - 1
  | _ => v

/-- PCU, CNV and AFE. -/
def Dev.peekPixel (d : Dev) (pth : Path) (k : RegKind) (i : Nat) : Nat :=
  let v := d.held k i
  match k with
  | .PCU_STLINE => (tget d.pcu.stats .reset i).line
  | .PCU_STMIN => d.statLatched pth k i
  | .PCU_STMAX => d.statLatched pth k i
  | .PCU_STSUM => d.statLatched pth k i
  | .PCU_STCNT => d.statLatched pth k i
  | .PCU_GSTAT => shows v PCU_GSTAT_STAGED (d.stagedOf i).length
  | .PCU_HDATA => d.histRead.1
  | .AFE_SCANDATA => d.scanRead.1
  | .AFE_STAT => shows v AFE_STAT_CLPRAIL (b2n (d.on AFE_STAT_CLPRAIL i && d.clampAtEnd i))
  | .CNV_SSTAT => shows v CNV_SSTAT_ACTIVE (b2n (d.delivers i))
  | _ => v

/-- A leg correction has not reached its new value. -/
def Dev.legMoves (d : Dev) (c : Nat) : Bool :=
  match tfind d.cal.legNew c with
  | none => false
  | some g => decide (d.rfi AFE_LEGCAL_OFS c ≠ g.1) || decide (d.rfi AFE_LEGCAL_GAIN c ≠ g.2)

/-- Live entries or leg corrections still move (R160). -/
def Dev.slewing (d : Dev) : Bool :=
  (List.range 24).any (fun h => !(d.headSettled h) ||
    (enabledChans d.regs h).any (fun c => d.legMoves c))

/-- `CAL.STAT`. -/
def Dev.calStat (d : Dev) : Nat :=
  let busy (k : Nat) : Bool := d.kindRuns k || d.cal.learns.any (fun l => decide (l.kind = k))
  let v := shows (d.held .CAL_STAT 0) CAL_STAT_BUSY (ofBools ((List.range 8).map busy))
  let v := shows v CAL_STAT_DUE (ofBools ((List.range 8).map (fun k => decide (tget d.cal.due 0 k ≠ 0))))
  shows (shows v CAL_STAT_STORING (b2n d.cal.store.isSome)) CAL_STAT_SLEWING (b2n d.slewing)

/-- `CAL.STALEH`. -/
def Dev.staleH (d : Dev) : Nat :=
  ofBools ((List.range 24).map (fun h => d.partStale (16 + h) || d.partStale (48 + h) || d.partStale (80 + h)))

/-- `CAL.STALEG`. -/
def Dev.staleG (d : Dev) : Nat :=
  ofBools ((List.range 8).map (fun g => d.partStale (1 + g)) ++
    [d.partStale 0, d.partStale 9, d.partStale 10, d.partStale 11])

/-- An item of a part runs. -/
def Dev.partRuns (d : Dev) (n : Nat) : Bool :=
  d.cal.items.any (fun x => decide (partOf x.kind x.item = n)) ||
    d.cal.learns.any (fun l => decide (partOf l.kind l.head = n))

/-- `CAL.PINFO` of a part. -/
def Dev.pinfo (d : Dev) (n : Nat) : Nat :=
  let p := d.getPart n
  let st := if partExists n = false then 3 else if d.partRuns n then 4 else p.state
  p.dist + st * 2 ^ 16

/-- `CAL.PAGE` of a part: seconds since it was taken, by the TB second that it carries (R161, R167). -/
def Dev.page (d : Dev) (n : Nat) : Nat :=
  if (d.getPart n).state = 0 then 0 else d.t / 1000000000 - (d.getPart n).taken

/-- `CAL.PCTX0` to `CAL.PCTX6` of a part; `head` picks the head of a SLICE part. -/
def Dev.pctx (d : Dev) (n head j : Nat) : Nat :=
  let c := (d.getPart n).ctx
  let at_ := if 1 ≤ n ∧ n ≤ 8 then (if head / 3 = n - 1 then some (head % 3) else none)
    else if 16 ≤ n then some 0 else none
  let pick (l : List Nat) : Nat := match at_ with
    | some x => l.getD x 0 % 2 ^ 32
    | none => 0
  if j < 4 then ux 16 (c.temps.getD (2 * j) 0) + ux 16 (c.temps.getD (2 * j + 1) 0) * 2 ^ 16
  else if j = 4 then c.vana % 2 ^ 16 + c.act % 2 ^ 8 * 2 ^ 16 + c.ch % 2 ^ 7 * 2 ^ 24
  else if j = 5 then pick c.freqs
  else pick c.rates

/-- CAL. -/
def Dev.peekCal (d : Dev) (k : RegKind) (i : Nat) : Nat :=
  let n := d.rf CAL_PSEL_PART 0
  let h := d.rf CAL_PSEL_HEAD 0
  match k with
  | .CAL_STAT => d.calStat
  | .CAL_STALEH => d.staleH
  | .CAL_STALEG => d.staleG
  | .CAL_PINFO => d.pinfo n
  | .CAL_PAGE => d.page n
  | .CAL_PCTX => d.pctx n h i
  | .CAL_PCTX4 => d.pctx n h 4
  | .CAL_PCTX5 => d.pctx n h 5
  | .CAL_PCTX6 => d.pctx n h 6
  | .CAL_LIVE => d.cal.act % 2 ^ 8 + d.enabledCount % 2 ^ 7 * 2 ^ 8 + d.cal.vana % 2 ^ 16 * 2 ^ 16
  | _ => d.held k i

/-! Analogue section, fabric, memory, power, pins -/

/-- ASW and CMP. -/
def Dev.peekAnx (d : Dev) (k : RegKind) (i : Nat) : Nat :=
  let v := d.held k i
  let out (n : Nat) : Bool := d.on CMP_STAT_OUT n
  let win (n : Nat) : Nat := d.winState n
  match k with
  | .ASW_BSRC => (d.busSources i).headD 127
  | .CMP_STAT => shows v CMP_STAT_HELD (b2n (d.cmpHeld i))
  | .CMP_OUT0 => ofBools ((List.range 32).map out)
  | .CMP_OUT1 => ofBools ((List.range 16).map (fun n => out (32 + n)))
  | .CMP_WSTAT0 => (List.range 16).foldl (fun a n => a + win n * 4 ^ n) 0
  | .CMP_WSTAT1 => (List.range 8).foldl (fun a n => a + win (16 + n) * 4 ^ n) 0
  | _ => v

/-- Snapshot data may be read by this path (R248). -/
def Dev.snapReadable (d : Dev) (pth : Path) : Bool :=
  !(d.on CFG_STATUS_ENC 0) || (decide (pth = .kweave) && d.kw.secure)

/-- SYS, PWR, MEM, GPIO, FAB and RGN. -/
def Dev.peekSys (d : Dev) (pth : Path) (k : RegKind) (i : Nat) : Nat :=
  let v := d.held k i
  match k with
  | .SYS_KWSTAT => d.kwstat
  | .SYS_KWOUT => d.kw.out.headD 0
  | .PWR_DOMSTAT0 => ofBools ((List.range 32).map (fun n => d.domOn n))
  | .PWR_DOMSTAT1 => ofBools ((List.range 18).map (fun n => d.domOn (32 + n)))
  | .MEM_BSTAT => shows v MEM_BSTAT_STATE (d.bankState i)
  | .GPIO_IN => d.padIn i
  | .FAB_SNAPDATA => if d.snapReadable pth then d.snapEntry else 0
  | .RGN_GAUNTLET => if d.paired then v else 0
  | .RGN_PSTAT => if d.paired then v else 0
  | .RGN_MMCNT => if d.paired then v else 0
  | .RGN_SIG => if d.paired then v else 0
  | _ => v

/-- What a register shows, without what a read sets off (R380). -/
def Dev.peek (d : Dev) (pth : Path) (k : RegKind) (i : Nat) : Nat :=
  match blockOf k with
  | 0x00 => d.peekSys pth k i
  | 0x01 => d.peekSys pth k i
  | 0x05 => d.peekSys pth k i
  | 0x07 => d.peekSys pth k i
  | 0x08 => d.peekTiming pth k i
  | 0x09 => d.peekTiming pth k i
  | 0x0A => d.peekTiming pth k i
  | 0x0B => d.peekTiming pth k i
  | 0x0C => d.peekPixel pth k i
  | 0x0D => d.peekPixel pth k i
  | 0x0E => d.peekPixel pth k i
  | 0x0F => d.peekCal k i
  | 0x11 => d.peekAnx k i
  | 0x12 => d.peekAnx k i
  | 0x14 => d.peekSys pth k i
  | 0x15 => d.peekSys pth k i
  | _ => d.held k i

/-- What a read sets off: latches, advances, and free values used up. -/
def Dev.readEffect (d : Dev) (pth : Path) (k : RegKind) (i : Nat) : Dev :=
  match k with
  | .SYS_KWOUT => d.kwOut.2
  | .ENC_POS => d.wlatch .ENC_POSH i pth ((d.getEnc i).pos.toNat / 2 ^ 32)
  | .ENC_CAPTS => (d.captureRead i pth).2
  | .LTG_TB => d.wlatch .LTG_TBH 0 pth (d.t / 2 ^ 32)
  | .ZLK_RPOS => d.wlatch .ZLK_RPOSH 0 pth (d.zlk.rpos / 2 ^ 32 % 2 ^ 32)
  | .HCP_AUX => { d with free := d.free + 1 }
  | .GPIO_IN => { d with free := d.free + 16 }
  | .PCU_STLINE => (d.statsLatch i pth).2
  | .PCU_HDATA => d.histRead.2
  | .AFE_SCANDATA => d.scanRead.2
  | .FAB_SNAPDATA => if d.snapReadable pth then d.snapAdvance else d
  | _ => d

/-- A read of a register that can be reached. -/
def Dev.readReg (d : Dev) (pth : Path) (k : RegKind) (i : Nat) : Nat × Dev := (d.peek pth k i, d.readEffect pth k i)

end Sys2Proof.Machine
end

