-- ==== Sys2Proof/Machine/Bus.lean ====
section
/-! DEFINITION. Accesses of the two paths (R5, R17, R29, R296, R424 to R427, R458, R459): what an address names, what a
write sets off once its fields are in, and the direct access of the host port. -/

namespace Sys2Proof.Machine

/-- What an address names (R5, R127, R274, R286, R387, R423, R424). -/
inductive Target where
  | reg (k : RegKind) (i : Nat)
  | pctT (i : Nat)
  | pctL (i : Nat)
  | pttT (i : Nat)
  | pttL (i : Nat)
  | bank
  | pad
  | event (off : Nat)
  | hole
deriving DecidableEq, Repr

/-- The target of an aligned address. -/
def target (a : Nat) : Target :=
  if a < 0x00180000 then
    match decodeAddr a with
    | some (k, i) => .reg k i
    | none => .hole
  else if 0x01000000 ≤ a ∧ a < 0x01060000 then .pctT ((a - 0x01000000) / 4)
  else if 0x01080000 ≤ a ∧ a < 0x010E0000 then .pctL ((a - 0x01080000) / 4)
  else if 0x01100000 ≤ a ∧ a < 0x01118000 then .pttT (a - 0x01100000)
  else if 0x01120000 ≤ a ∧ a < 0x01138000 then .pttL (a - 0x01120000)
  else if 0x02000000 ≤ a ∧ a < 0x02800000 then .bank
  else if 0x03000000 ≤ a ∧ a < 0x03100000 then .pad
  else if 0x04000000 ≤ a ∧ a < 0x04010000 then .event (a - 0x04000000)
  else .hole

/-- The tables of the group that holds entry `i` can be reached: from RUN to NAP, while the group is powered (R127,
R345). -/
def Dev.tableOpen (d : Dev) (i : Nat) : Bool :=
  d.domOn (18 + i / 12288) || (decide (d.pwr.st = .nap) && d.domNormal (18 + i / 12288))

/-! What a write sets off, once its fields are in: `o` is the device before the write -/

/-- A bit of the written value. -/
def wrote (v : Nat) (f : Fld) : Bool := decide (bitsOf v f.lsb f.width ≠ 0)

/-- The write has changed the field. -/
def moved (o d : Dev) (f : Fld) (i : Nat) : Bool := decide (o.rf f i ≠ d.rf f i)

/-- The write has set the bit. -/
def rose (o d : Dev) (f : Fld) (i : Nat) : Bool := !(o.on f i) && d.on f i

/-- The write has cleared the bit. -/
def fell (o d : Dev) (f : Fld) (i : Nat) : Bool := o.on f i && !(d.on f i)

/-- The effect, if the condition holds. -/
def Dev.onlyIf (d : Dev) (c : Bool) (f : Dev → Dev) : Dev := if c then f d else d

/-- SYS: the mailbox. -/
def Dev.afterSys (d : Dev) (k : RegKind) (v : Nat) : Dev :=
  match k with
  | .SYS_KWIN => d.kwWord v
  | .SYS_KWCTRL => (d.onlyIf (wrote v SYS_KWCTRL_RESYNC) (fun d => d.kwResync)).onlyIf (wrote v SYS_KWCTRL_FLUSH)
      (fun d => d.kwFlush)
  | _ => d

/-- SCB (R335, R336, R340). -/
def Dev.afterScb (o d : Dev) (k : RegKind) (v : Nat) : Dev :=
  match k with
  | .SCB_CTRL =>
    let d := (d.wf SCB_CTRL_EN 0 (o.rf SCB_CTRL_EN 0)).scrubEnable (wrote v SCB_CTRL_EN)
    (d.onlyIf (wrote v SCB_CTRL_RESTART) (fun d => d.scrubRestart)).watchdogSettle
  | .SCB_INJECT => d.onlyIf (wrote v SCB_INJECT_GO) (fun d => d.scrubInject)
  | _ => d

/-- GPIO and EVQ (R390, R392, R400). -/
def Dev.afterPins (d : Dev) (k : RegKind) (i : Nat) : Dev :=
  match k with
  | .GPIO_CFG => d.padUpdate i
  | .EVQ_TAIL => d.tailWritten
  | .EVQ_CTRL => d.hostSleep
  | _ => d

/-- A head-control port that is switched off is parked. -/
def Dev.headOff (d : Dev) (h : Nat) : Dev :=
  let p := d.getHcp h
  ((d.setHcp h { Hcp.reset with firedSinceArm := p.firedSinceArm, clock := p.clock }).wf AFE_HSTAT_GRID h 0).wf HCP_TSTAT_LEDON h 0

/-- HCP (R91, R105, R406): a port switched on runs its clock free from the write. -/
def Dev.afterHcp (o d : Dev) (k : RegKind) (i v : Nat) : Dev :=
  match k with
  | .HCP_CTRL =>
    let d := d.onlyIf (fell o d HCP_CTRL_EN i) (fun d => d.headOff i)
    (d.onlyIf (rose o d HCP_CTRL_EN i) (fun d => d.hckFree i)).ledShow i
  | .HCP_TWCMD => d.onlyIf (wrote v HCP_TWCMD_GO && d.on HCP_TWCFG_EN i) (fun d => d.twGo i)
  | _ => d

/-- ENC and LTG (R34, R36, R37, R43, R44, R47, R48, R54, R60). A write that sets ARM and SWT arms first and then issues
(DESIGN CHOICE, log 53). -/
def Dev.afterTiming (o d : Dev) (k : RegKind) (i v : Nat) : Dev :=
  match k with
  | .ENC_CTRL => d.encCtrlDone i (o.rreg .ENC_CTRL i).toNat
  | .ENC_POSSETH => d.onlyIf (wrote v ENC_POSSETH_LOAD) (fun d =>
      d.posLoad i (d.rf ENC_POSSET_VAL i + d.rf ENC_POSSETH_VALH i * 2 ^ 32))
  | .ENC_RATEMAX => d.rateCheck i
  | .ENC_STAT => d.rateCheck i
  | .ENC_CAPSTAT => d.onlyIf (wrote v ENC_CAPSTAT_POP) (fun d => d.capturePop i)
  | .LTG_CTRL =>
    let d := d.onlyIf (rose o d LTG_CTRL_ARM i) (fun d => d.arm i)
    let d := d.onlyIf (fell o d LTG_CTRL_ARM i) (fun d => d.disarm i)
    d.onlyIf (wrote v LTG_CTRL_SWT) (fun d => d.softLine i)
  | .LTG_PITCH => d.setLtg i { d.getLtg i with pitchNew := d.rf LTG_PITCHH_PITCHH i * 2 ^ 32 + d.rf LTG_PITCH_PITCH i }
  | .LTG_TBCTRL => d.onlyIf (wrote v LTG_TBCTRL_LOAD) (fun d =>
      { d with tb := BitVec.ofNat 64 (d.rf LTG_TBSETH_SETH 0 * 2 ^ 32 + d.rf LTG_TBSET_SET 0) })
  | _ => d

/-- EN of the ring is cleared (R69): a start that runs ends, and the device leaves the ring. -/
def Dev.ringOff (d : Dev) : Dev := (d.onlyIf d.startRuns (fun d => d.startEnds stABORTED)).ringLeave

/-- ZLK (R69, R70). -/
def Dev.afterZlk (o d : Dev) (k : RegKind) (v : Nat) : Dev :=
  match k with
  | .ZLK_CTRL =>
    (d.onlyIf (fell o d ZLK_CTRL_EN 0) (fun d => d.ringOff)).onlyIf (wrote v ZLK_CTRL_START) (fun d => d.startRequest none)
  | _ => d

/-- AFE and PCU (R111, R130, R138, R141). -/
def Dev.afterPixel (o d : Dev) (k : RegKind) (i v : Nat) : Dev :=
  match k with
  | .AFE_CH => d.onlyIf (fell o d AFE_CH_EN i && d.on AFE_SCANCTRL_BUSY 0 && decide (d.rf AFE_SCANCTRL_CH 0 = i))
      (fun d => d.scanEnd true)
  | .AFE_SCANCTRL =>
    (d.onlyIf (wrote v AFE_SCANCTRL_START) (fun d => d.scanStart)).onlyIf
      (wrote v AFE_SCANCTRL_STOP && d.on AFE_SCANCTRL_BUSY 0) (fun d => d.scanEnd false)
  | .PCU_LWCTRL => d.onlyIf (rose o d PCU_LWCTRL_EN i) (fun d => d.setPcu (fun p => { p with
      stride := tset p.stride 0 i (lineStride d.regs i), slot := tset p.slot 0 i 0 }))
  | .PCU_HSEL => d.onlyIf (wrote v PCU_HSEL_LATCH) (fun d => d.histLatch (d.rf PCU_HSEL_HEAD 0))
  | .PCU_TSYNC =>
    ((List.range 24).filter (fun h => tbit v h && !(tbit (o.rf PCU_TSYNC_HEADS 0) h))).foldl (fun d h => d.tsyncStart h) d
  | _ => d

/-- The buses a write of `ASW.BREL0` or `ASW.BREL1` releases (R180). -/
def Dev.releases (d : Dev) (v first : Nat) : Dev :=
  ((setBitsOf 32 v).filter (fun b => d.isolated (first + b))).foldl (fun d b => d.busRelease (first + b)) d

/-- The MAJ that serves comparator `n` has changed (R191, R193). -/
def Dev.majMoved (o d : Dev) (n : Nat) : Dev := d.onlyIf (decide (o.cmpN n ≠ d.cmpN n) && decide (n < 48)) (fun d => d.cmpForget n)

/-- CAC, ASW and CMP (R176, R180, R183, R184, R186, R189, R192). -/
def Dev.afterAnx (o d : Dev) (k : RegKind) (i v : Nat) : Dev :=
  match k with
  | .CAC_CFG =>
    (d.cacUpdate i).onlyIf (wrote v CAC_CFG_RST) (fun d => d.cacReset i)
  | .CAC_NET => d.cacUpdate i
  | .CAC_SEL =>
    ((d.onlyIf (moved o d CAC_SEL_PBUS i) (fun d => d.moveSwitch (64 + i) (o.switchBus (64 + i)))).onlyIf
      (moved o d CAC_SEL_NBUS i) (fun d => d.moveSwitch (96 + i) (o.switchBus (96 + i)))).onlyIf
      (moved o d CAC_SEL_OBUS i) (fun d => d.moveSwitch (32 + i) (o.switchBus (32 + i)))
  | .ASW_AX => d.onlyIf (decide (o.rreg .ASW_AX i ≠ d.rreg .ASW_AX i)) (fun d => d.moveSwitch i (o.switchBus i))
  | .ASW_MTAP => d.onlyIf (moved o d ASW_MTAP_BUS i) (fun d => d.moveSwitch (224 + i) (o.switchBus (224 + i)))
  | .ASW_BREL0 => d.releases v 0
  | .ASW_BREL1 => d.releases v 32
  | .CMP_CFG =>
    (((o.moveIf d (128 + i)).onlyIf (decide (i % 2 = 0)) (fun d => o.moveIf d (129 + i))).onlyIf (moved o d CMP_CFG_INN i) (fun d =>
      d.moveSwitch (176 + i) (o.switchBus (176 + i)))).onlyIf (rose o d CMP_CFG_EN i) (fun d => d.cmpStart i)
  | .CMP_TICK => o.cmpRetick d i
  | .CMP_FILT => o.majMoved (o.majMoved d i) (i + 1)
  | .CMP_WIN => (List.range 24).foldl (fun d w => o.majMoved (o.moveIf d (129 + 2 * w)) (2 * w + 1)) d
  | .CMP_THR => d.setCmp i { d.getCmp i with
      thNew := (d.getCmp i).thNew ++ [(d.now + 500, d.rf CMP_THR_TH i, d.rf CMP_THR_HYS i)] }
  | .CMP_STAT => d.onlyIf (wrote v CMP_STAT_CLR) (fun d => d.cmpClear i)
  | _ => d

/-- MCV (R204, R205, R210, R212). -/
def Dev.afterMcv (o d : Dev) (k : RegKind) (i v : Nat) : Dev :=
  match k with
  | .MCV_CTRL =>
    ((d.mcvEnable i (o.on MCV_CTRL_EN i) (d.on MCV_CTRL_EN i)).mcvInjDisable i (o.on MCV_CTRL_IEN i)
      (wrote v MCV_CTRL_IEN)).mcvSoft i (wrote v MCV_CTRL_GO) (wrote v MCV_CTRL_IGO)
  | .MCV_RIDX => d.mcvWm i
  | .MCV_WMARK => d.mcvWm i
  | .MCV_BUF => d.mcvWm i
  | _ => d

/-- FAB, RGN and LAN (R246, R247, R266, R417, R420). -/
def Dev.afterFab (o d : Dev) (k : RegKind) (i v : Nat) : Dev :=
  match k with
  | .FAB_SNAPCTRL =>
    ((d.onlyIf (wrote v FAB_SNAPCTRL_CANCEL) (fun d => d.snapCancel)).onlyIf (wrote v FAB_SNAPCTRL_RESUME) (fun d =>
      d.snapResume)).onlyIf (wrote v FAB_SNAPCTRL_ARM) (fun d => d.snapArm)
  | .RGN_GAUNTLET => (List.range 8).foldl (fun d n => d.pstat n) d
  | .LAN_CTRL => d.laneEnable i (o.on LAN_CTRL_EN i)
  | .LAN_RXCFG => d.pairsConfigured (fun r => o.pairOn r)
  | _ => d

/-- What a write sets off in the device, by block. -/
def Dev.afterWrite (o d : Dev) (k : RegKind) (i v : Nat) : Dev :=
  match blockOf k with
  | 0x00 => d.afterSys k v
  | 0x03 => d.onlyIf (decide (k = .CFG_RETRY) && wrote v CFG_RETRY_CLR) (fun d => d.wf CFG_RETRY_COUNT 0 0)
  | 0x04 => o.afterScb d k v
  | 0x06 => d.afterPins k i
  | 0x07 => d.afterPins k i
  | 0x08 => o.afterHcp d k i v
  | 0x09 => o.afterTiming d k i v
  | 0x0A => o.afterTiming d k i v
  | 0x0B => o.afterZlk d k v
  | 0x0C => o.afterPixel d k i v
  | 0x0E => o.afterPixel d k i v
  | 0x10 => o.afterAnx d k i v
  | 0x11 => o.afterAnx d k i v
  | 0x12 => o.afterAnx d k i v
  | 0x13 => o.afterMcv d k i v
  | 0x14 => o.afterFab d k i v
  | 0x15 => o.afterFab d k i v
  | 0x16 => o.afterFab d k i v
  | _ => d

/-- A write of `MEM.BCTRL` (R289, R290). -/
def State.afterBank (s : State) (b v : Nat) : State :=
  let s := if wrote v MEM_BCTRL_MSTART then s.onDev (fun d => d.marchStart b (d.rf MEM_BCTRL_MMODE b) true) else s
  if wrote v MEM_BCTRL_MSTOP then s.marchStop b else s

/-- A register write that has passed its checks takes effect (R6, R458). -/
def State.applyWrite (s : State) (pth : Path) (k : RegKind) (i v : Nat) : State :=
  match k with
  | .PWR_DOMEN => s.domenWrite v
  | .GPIO_MOUT => s.onDev (fun d => d.maskedWrite pth GPIO_MOUT_VAL i v)
  | .GPIO_MOE => s.onDev (fun d => d.maskedWrite pth GPIO_MOE_VAL i v)
  | .RGN_ISOLATE => s.onDev (fun d => d.isolateWrite v)
  | .CFG_FIFO => s.cfgWord v
  | .PWR_REQ => (s.onDev (fun d => d.writeAll k i v)).powerRequest (bitsOf v PWR_REQ_TGT.lsb PWR_REQ_TGT.width) .register
  | .MEM_BCTRL => (s.onDev (fun d => d.writeAll k i v)).afterBank i v
  | k => s.onDev (fun d => d.afterWrite (d.writeAll k i v) k i v)

/-- A write of the register has something to write. -/
def RegKind.writable (k : RegKind) : Bool := k.fields.any (fun f => f.acc.writable)

/-- A write of the register has no effect and is no refused write: nothing in it can be written (R6). In standard mode a
write of `RGN.SIG` is refused all the same (R271). -/
def Dev.inert (d : Dev) (k : RegKind) : Bool := !k.writable && (decide (k ≠ .RGN_SIG) || d.paired)

/-- The ownership conflict that a write would set up (R177, R180): bus, owner, and the endpoint refused. -/
def Dev.conflictOf (d : Dev) (k : RegKind) (i v : Nat) : Option (Nat × Nat × Nat) :=
  let at_ (e : Nat) (f : Fld) : Option (Nat × Nat × Nat) :=
    let b := bitsOf v f.lsb f.width
    if b = d.rf f i then none else (d.busConflict e b true).map (fun c => (c.1, c.2, e))
  let two (b : Nat) : Nat × Nat × Nat := (b, (d.busSources b).headD 127, (d.busSources b).getD 1 127)
  match k with
  | .CAC_SEL => at_ (32 + i) CAC_SEL_OBUS
  | .ASW_AX =>
    let b := bitsOf v ASW_AX_BUS.lsb ASW_AX_BUS.width
    let dir := bitsOf v ASW_AX_DIR.lsb ASW_AX_DIR.width
    if b = d.rf ASW_AX_BUS i ∧ dir = d.rf ASW_AX_DIR i then none
    else (d.busConflict i b (decide (dir = 0))).map (fun c => (c.1, c.2, i))
  | .ASW_BREL0 => ((d.releaseConflicts v 0).head?).map two
  | .ASW_BREL1 => ((d.releaseConflicts v 32).head?).map (fun b => two (32 + b))
  | _ => none

/-- A refused write leaves its conflict in `ASW.CONFLICT` (R177). -/
def Dev.conflictNote (d : Dev) (c : Option (Nat × Nat × Nat)) : Dev :=
  match c with
  | some (b, owner, other) => d.recordConflict b owner other
  | none => d

/-- A refusal is counted; SYS cannot count while its domain is off (R17, R351, R433). -/
def Dev.counted (d : Dev) (c : Cause) (p : Path) (addr : Nat) : Dev :=
  if d.domOn 2 then d.countRefusal c p addr else d

/-- A direct read that is refused returns 0 and is counted. -/
def Dev.readRefused (d : Dev) (c : Cause) (addr : Nat) : Dev := (d.counted c .direct addr).setRdata 0

/-! The direct path -/

/-- A direct write of a register that can be reached (R6, R272, R402, R458). -/
def State.directRegWrite (s : State) (a : Nat) (k : RegKind) (i v : Nat) : State :=
  if s.dev.inert k = true then s
  else
    match s.dev.writeRefusal .direct k i v with
    | some r => s.onDev (fun d => (d.conflictNote (d.conflictOf k i v)).counted r.cause .direct a)
    | none =>
      let denied := (decide (k = .GPIO_MOUT) || decide (k = .GPIO_MOE)) && !(s.dev.pinsDenied .direct i (v / 2 ^ 16)).isEmpty
      let barred := decide (k = .RGN_ISOLATE) && s.dev.isolateAnyRefused v
      let s := s.applyWrite .direct k i v
      if denied then s.onDev (fun d => d.counted .nowner .direct a)
      else if barred then s.onDev (fun d => d.counted .state .direct a)
      else s

/-- A direct write (R5, R17, R127). -/
def State.directWrite (s : State) (a v : Nat) (e : MemEcc) : State :=
  if a % 4 ≠ 0 then s.onDev (fun d => d.counted .align .direct a)
  else
    match target a with
    | .reg k i =>
      if s.dev.reachable k i then s.directRegWrite a k i v else s.onDev (fun d => d.counted .domain .direct a)
    | .pctT i => s.onDev (fun d =>
        if d.tableOpen i = false then d.counted .domain .direct a
        else if pctWriteBad v then d.counted .value .direct a
        else d.tableWrite true i v false)
    | .pttT i => s.onDev (fun d => if d.tableOpen i then d.tableWrite false i v false else d.counted .domain .direct a)
    | .pctL i => s.onDev (fun d => if d.tableOpen i then d else d.counted .domain .direct a)
    | .pttL i => s.onDev (fun d => if d.tableOpen i then d else d.counted .domain .direct a)
    | .bank => if s.dev.domOn 2 then s.bankAccess .direct a true v e else s
    | .pad => if s.dev.domOn 2 then s.spAccess .direct a true v e else s
    | .event _ => s.onDev (fun d => d.counted .window .direct a)
    | .hole => s.onDev (fun d => d.counted .noreg .direct a)

/-- A direct read of a table window. -/
def Dev.tableRead (d : Dev) (pct live : Bool) (i : Nat) (e : MemEcc) (a : Nat) : Dev :=
  if d.tableOpen i then let x := d.readTable pct live i e; x.2.setRdata x.1 else d.readRefused .domain a

/-- A direct read; its data go to the port (R5, R17, R248). -/
def State.directRead (s : State) (a : Nat) (e : MemEcc) : State :=
  let d := s.dev
  if a % 4 ≠ 0 then s.onDev (fun d => d.readRefused .align a)
  else
    match target a with
    | .reg k i =>
      if d.reachable k i && k = .FAB_SNAPDATA && !(d.snapReadable .direct) then s.onDev (fun d => d.readRefused .state a)
      else if d.reachable k i then
        let x := d.readReg .direct k i
        s.onDev (fun _ => x.2.setRdata x.1)
      else s.onDev (fun d => d.readRefused .domain a)
    | .pctT i => s.onDev (fun d => d.tableRead true false i e a)
    | .pctL i => s.onDev (fun d => d.tableRead true true i e a)
    | .pttT i => s.onDev (fun d => d.tableRead false false i e a)
    | .pttL i => s.onDev (fun d => d.tableRead false true i e a)
    | .bank => if s.dev.domOn 2 then s.bankAccess .direct a false 0 e else s.onDev (fun d => d.setRdata 0)
    | .pad => if s.dev.domOn 2 then s.spAccess .direct a false 0 e else s.onDev (fun d => d.setRdata 0)
    | .event off => s.onDev (fun d => if d.domOn 2 then d.setRdata (d.evqWord off) else d.readRefused .domain a)
    | .hole => s.onDev (fun d => d.readRefused .noreg a)

/-- What a transaction on a host port asks for (R296, R425): a direct access, a refused SPI instruction, an access of the
management controller, or nothing, when the port is not the one that HPSEL selects. -/
inductive HostOp where
  | write (a : Nat)
  | read (a : Nat)
  | badInstr (a : Nat)
  | management (a : Nat)
  | none
deriving DecidableEq, Repr

/-- The device address of an offset of the parallel window (R425). -/
def Dev.windowAddr (d : Dev) (o : Nat) : Nat := if o < 0x8000 then d.rf SYS_PAGE_PAGE 0 * 0x8000 + o else o - 0x8000

/-- The FIFO addresses of R296: `CFG.FIFO`, `SYS.KWIN` and `SYS.KWOUT` (R296, R358). -/
def fifoAddrs : List Nat := [regAddr .CFG_FIFO 0, regAddr .SYS_KWIN 0, regAddr .SYS_KWOUT 0]

/-- The address of data word `word` of an SPI transaction: it advances by 4 a word, but not at a FIFO (R296). -/
def spiAddr (addr word : Nat) : Nat := if fifoAddrs.contains addr then addr else (addr + 4 * word) % 2 ^ 32

/-- The transaction that an access is; `wr` tells the direction of a parallel access. A refused SPI instruction is one transaction
whatever follows it. -/
def Dev.hostOp (d : Dev) (a : Access) (wr : Bool) : HostOp :=
  match a with
  | .spi op addr word =>
    if d.on SYS_STATUS_HPSEL 0 then .none
    else if op = 0x02#8 ∨ op = 0x32#8 then .write (spiAddr addr.toNat word)
    else if op = 0x0B#8 ∨ op = 0x6B#8 then .read (spiAddr addr.toNat word)
    else if word = 0 then .badInstr addr.toNat
    else .none
  | .parallel o =>
    if d.on SYS_STATUS_HPSEL 0 = false then .none
    else
      let x := d.windowAddr (o.toNat / 4 * 4)
      if wr then .write x else .read x
  | .management addr => .management addr.toNat

/-- How the state of the device meets a host transaction (R315, R347, R349): it is not taken, it wakes the device and is
discarded, or it is performed, in a warm-start reset too. -/
inductive HostMeets where
  | absent | wakes | performs
deriving DecidableEq, Repr

def Dev.hostMeets (d : Dev) : HostMeets :=
  match d.pwr.st with
  | .off => .absent
  | .sleep => .wakes
  | _ => .performs

/-- A host transaction around the access itself (R349): one that wakes the device reads 0, and during a wake the source is
recorded. -/
def State.hostDoes (s : State) (f : State → State) : State :=
  match s.dev.hostMeets with
  | .absent => s
  | .wakes => s.onDev (fun d => (d.wakeBegins 4).setRdata 0)
  | .performs => f (s.onDev (fun d => d.wakeBegins 4))

end Sys2Proof.Machine
end

