-- ==== Sys2Proof/Machine/Packets.lean ====
section
/-! DEFINITION. Packets: their checks (R365, R376, R383), register access by packets (R379 to R382), and single accesses of
the management controller. -/

namespace Sys2Proof.Machine

/-! Register access on the Kweave path -/

/-- A refused access of a packet: the cause counted, the status replied, whether the address word is at fault or the
value word, and the field (R379, R382, R459). -/
structure PktFault where
  cause : Cause
  status : Nat
  atAddr : Bool
  lsb : Nat
deriving DecidableEq, Repr

/-- An address that a packet cannot name (R382). -/
def badAddress (c : Cause) : PktFault := ⟨c, stBAD_PARAM, true, 0⟩

/-- What cannot be reached (R17). -/
def notReached : PktFault := ⟨.domain, stBAD_STATE, true, 0⟩

/-- What does not serve the access now (R286, R289). -/
def notServed : PktFault := ⟨.state, stBAD_STATE, true, 0⟩

/-- A target with no writable field (R382), `RGN.SIG` in standard mode apart (R271). -/
def nothingWritable : PktFault := ⟨.value, stBAD_PARAM, true, 0⟩

/-- Why a packet cannot reach an address (R17, R382). -/
def Dev.addressFault (d : Dev) (a : Nat) : Option PktFault :=
  if a % 4 ≠ 0 then some (badAddress .align)
  else
    match target a with
    | .reg k i => if d.reachable k i then none else some notReached
    | .pctT i => if d.tableOpen i then none else some notReached
    | .pctL i => if d.tableOpen i then none else some notReached
    | .pttT i => if d.tableOpen i then none else some notReached
    | .pttL i => if d.tableOpen i then none else some notReached
    | .bank =>
      let b := (a - 0x02000000) / 0x100000 % 8
      if d.domOn (26 + b) = false then some notReached else if d.bankServes b = false then some notServed else none
    | .pad =>
      let n := tileRegion ((a - 0x03000000) / 0x1000 % 256)
      if d.spPowered n = false then some notReached else if d.spOpen n = false then some notServed else none
    | .event _ => some (badAddress .window)
    | .hole => some (badAddress .noreg)

/-- Why a packet cannot read an address: that it cannot be reached, or snapshot data outside a secure session (R248). -/
def Dev.readFault (d : Dev) (a : Nat) : Option PktFault :=
  match d.addressFault a with
  | some f => some f
  | none =>
    if target a = .reg .FAB_SNAPDATA 0 ∧ d.snapReadable .kweave = false then some ⟨.state, stNOT_SECURE, true, 0⟩ else none

/-- The lowest bit set of a number, or 0. -/
def lowBit (n : Nat) : Nat := ((List.range 32).find? (fun i => tbit n i)).getD 0

/-- Why a write by a packet is refused (R379, R382, R458). -/
def Dev.pktWriteFault (d : Dev) (a v : Nat) : Option PktFault :=
  match d.addressFault a with
  | some f => some f
  | none =>
    match target a with
    | .reg k i =>
      if d.inert k = true then some nothingWritable
      else
        match d.writeRefusal .kweave k i v with
        | some r => some ⟨r.cause, r.status, false, r.lsb⟩
        | none => if k = .RGN_ISOLATE ∧ d.isolateAnyRefused v = true then some ⟨.state, stBAD_STATE, false, 0⟩ else none
    | .pctT _ => if pctWriteBad v then some ⟨.value, stBAD_PARAM, false, lowBit (v % 8)⟩ else none
    | .pctL _ => some nothingWritable
    | .pttL _ => some nothingWritable
    | _ => none

/-- A write by a packet that is not refused. -/
def State.pktWrite (s : State) (a v : Nat) (e : MemEcc) : State :=
  match target a with
  | .reg k i => s.applyWrite .kweave k i v
  | .pctT i => s.onDev (fun d => d.tableWrite true i v true)
  | .pttT i => s.onDev (fun d => d.tableWrite false i v true)
  | .bank => s.bankAccess .kweave a true v e
  | .pad => s.spAccess .kweave a true v e
  | _ => s

/-- A read by a packet of an address that it can reach; the port's own data stay. -/
def State.pktRead (s : State) (a : Nat) (e : MemEcc) : Nat × State :=
  let d := s.dev
  let windowed (s' : State) : Nat × State := (s'.dev.rdata, s'.onDev (fun x => { x with rdata := d.rdata }))
  match target a with
  | .reg k i => let x := d.readReg .kweave k i; (x.1, s.onDev (fun _ => x.2))
  | .pctT i => let x := d.readTable true false i e; (x.1, s.onDev (fun _ => x.2))
  | .pctL i => let x := d.readTable true true i e; (x.1, s.onDev (fun _ => x.2))
  | .pttT i => let x := d.readTable false false i e; (x.1, s.onDev (fun _ => x.2))
  | .pttL i => let x := d.readTable false true i e; (x.1, s.onDev (fun _ => x.2))
  | .bank => windowed (s.bankAccess .kweave a false 0 e)
  | .pad => windowed (s.spAccess .kweave a false 0 e)
  | _ => (0, s)

/-- The word at an address, read internally with no side effect (R380). -/
def State.pktPeek (s : State) (a : Nat) : Nat :=
  match target a with
  | .reg k i => s.dev.peek .kweave k i
  | .pctT i => (s.dev.readTable true false i .clean).1
  | .pctL i => (s.dev.readTable true true i .clean).1
  | .pttT i => (s.dev.readTable false false i .clean).1
  | .pttL i => (s.dev.readTable false true i .clean).1
  | .bank => memRead s.mem a 4
  | .pad => memRead s.mem a 3
  | _ => 0

/-- One write of a packet: the words of its address and value, its address, mask (all ones but for MASKWRITE) and
value. -/
structure PktWrite where
  addrWord : Nat
  valWord : Nat
  addr : Nat
  mask : Nat
  val : Nat
  ecc : MemEcc
deriving DecidableEq, Repr

/-- Bits of a register that keep their value outside a mask: those not W1C, W1S or WO (R380). -/
def keptBits (k : RegKind) : Nat :=
  (k.fields.filter (fun f => decide (f.acc = .W1C) || decide (f.acc = .W1S) || decide (f.acc = .WO))).foldl (fun n f =>
    setBits n f.lsb f.width 0) (2 ^ 32 - 1)

/-- The value that a masked write carries (R380). -/
def State.maskedValue (s : State) (w : PktWrite) : Nat :=
  let old := Nat.land (s.pktPeek w.addr) (2 ^ 32 - 1 - w.mask)
  let old := match target w.addr with
    | .reg k _ => Nat.land old (keptBits k)
    | _ => old
  Nat.lor old (Nat.land w.val w.mask)

/-- A refused write of a group: where it stands, the refusal, and what of the write itself is kept: its ownership
conflict, and a write of `RGN.ISOLATE`, which is refused bit by bit (R177, R272). -/
structure GroupFault where
  word : Nat
  fault : PktFault
  addr : Nat
  conflict : Option (Nat × Nat × Nat)
  isolate : Option Nat
deriving DecidableEq, Repr

/-- The writes of a packet in order, each on the state that the earlier ones leave (R379). -/
def State.groupRun (s : State) : List PktWrite → State × Option GroupFault
  | [] => (s, none)
  | w :: r =>
    let v := s.maskedValue w
    match s.dev.pktWriteFault w.addr v with
    | some f =>
      let c := match target w.addr with
        | .reg k i => s.dev.conflictOf k i v
        | _ => none
      let iso := if f.atAddr = false ∧ target w.addr = .reg .RGN_ISOLATE 0 then some v else none
      (s, some ⟨if f.atAddr then w.addrWord else w.valWord, f, w.addr, c, iso⟩)
    | none => State.groupRun (if w.mask = 0 then s else s.pktWrite w.addr v w.ecc) r

/-- What a refused group leaves: the refusal counted once, and what the refused write itself keeps (R177, R272, R379). -/
def State.groupRefused (s : State) (g : GroupFault) : State :=
  let s := s.onDev (fun d => (d.conflictNote g.conflict).counted g.fault.cause .kweave g.addr)
  match g.isolate with
  | some v => s.onDev (fun d => d.isolateWrite v)
  | none => s

/-- One write of the management controller outside a packet (R426), checked as a packet's. -/
def State.managementWrite (s : State) (a v : Nat) (e : MemEcc) : State :=
  match s.groupRun [⟨0, 0, a, 2 ^ 32 - 1, v, e⟩] with
  | (s', none) => s'
  | (_, some g) => s.groupRefused g

/-- One read of the management controller outside a packet; its data appear as read data. -/
def State.managementRead (s : State) (a : Nat) (e : MemEcc) : State :=
  match s.dev.readFault a with
  | some _ => s.onDev (fun d => d.setRdata 0)
  | none => let x := s.pktRead a e; x.2.onDev (fun d => d.setRdata x.1)

/-- The firmware runs and its accesses are made. -/
def Dev.managementOn (d : Dev) : Bool := d.pwr.booted && d.domOn 2

/-- A transaction of the host or an access of the management controller; `wr` tells the direction where the transaction
does not. -/
def State.hostAccess (s : State) (a : Access) (wr : Bool) (v : Nat) (e : MemEcc) : State :=
  match s.dev.hostOp a wr with
  | .write x => s.hostDoes (fun s => s.directWrite x v e)
  | .read x => s.hostDoes (fun s => s.directRead x e)
  | .badInstr x => s.hostDoes (fun s => s.onDev (fun d => d.counted .spi .direct x))
  | .management x =>
    if s.dev.managementOn then if wr then s.managementWrite x v e else s.managementRead x e else s
  | .none => s

/-- A write of a register by a path. -/
def State.pathWrite (s : State) (pth : Path) (a v : Nat) (e : MemEcc) : State :=
  match pth with
  | .direct => s.hostDoes (fun s => s.directWrite a v e)
  | .kweave => if s.dev.managementOn then s.managementWrite a v e else s

/-- A read of a register by a path. -/
def State.pathRead (s : State) (pth : Path) (a : Nat) (e : MemEcc) : State :=
  match pth with
  | .direct => s.hostDoes (fun s => s.directRead a e)
  | .kweave => if s.dev.managementOn then s.managementRead a e else s

/-- Write element `i` of a register by a path. -/
def State.regWrite (s : State) (pth : Path) (k : RegKind) (i : Nat) (v : Word) : State :=
  s.pathWrite pth (regAddr k i) v.toNat .clean

/-- Read element `i` of a register by a path. -/
def State.regRead (s : State) (pth : Path) (k : RegKind) (i : Nat) : State := s.pathRead pth (regAddr k i) .clean

/-! Packets -/

/-- Parameters of a packet: its words between word 2 and the CRC (R361). -/
def params (l : List Nat) : List Nat := (l.drop 3).dropLast

/-- Parameter `n`. -/
def param (l : List Nat) (n : Nat) : Nat := (params l).getD n 0

/-- DRY is set (R383). -/
def dry (l : List Nat) : Bool := tbit (l.getD 2 0) 0

/-- Word 2 (R361, R383). -/
def wordTwoFault (l : List Nat) (dryOk : Bool) : Option (Nat × Nat) :=
  let w := l.getD 2 0
  let bad := if dryOk then w / 2 * 2 else w
  if bad = 0 then none else some (2, lowBit bad)

/-- LEN against the number of parameters (R376). -/
def lenFault (l : List Nat) (n : Nat) : Option (Nat × Nat) := if l.length = 4 + n then none else some (0, 0)

/-- A parameter of `w` bits that must satisfy `ok`: bits not named are 0 (R376). -/
def paramFault (l : List Nat) (n w : Nat) (ok : Bool) : Option (Nat × Nat) :=
  let p := param l n
  if p / 2 ^ w ≠ 0 then some (3 + n, lowBit (p / 2 ^ w * 2 ^ w)) else if ok then none else some (3 + n, 0)

/-- The first fault found. -/
def firstFault : List (Option (Nat × Nat)) → Option (Nat × Nat)
  | [] => none
  | some x :: _ => some x
  | none :: r => firstFault r

/-- An answer: its status, handle, location and results. -/
structure Answer where
  status : Nat
  handle : Nat
  loc : Option (Nat × Nat)
  results : List Nat
deriving DecidableEq, Repr

def okWith (results : List Nat) : Answer := ⟨stOK, 0, none, results⟩

def refuseAt (status word lsb : Nat) : Answer := ⟨status, 0, some (word, lsb), []⟩

def refuse (status : Nat) : Answer := ⟨status, 0, none, []⟩

/-- The packet being interpreted, if it carries the opcode and is not only waiting for its reply. -/
def Dev.packetFor (d : Dev) (op : Nat) : Option (List Nat) :=
  match d.kw.cur with
  | some l => if l.getD 1 0 % 2 ^ 16 = op ∧ d.kw.owed = false then some l else none
  | none => none

/-- The reply is sent and the packet is over (R360). -/
def State.answered (s : State) (l : List Nat) (a : Answer) : State :=
  s.onDev (fun d => (d.reply (l.getD 1 0) a.status a.handle a.loc a.results).kwAnswered)

/-- Writes of the management controller wait for a place in a staging buffer (R128). -/
def Dev.writesWait (d : Dev) : Bool := d.pcu.tables.waiting.any (fun w => w.packet)

/-- A packet whose writes are made: the reply leaves once they have all been accepted (R18, R360). -/
def State.answeredAfter (s : State) (l : List Nat) : State :=
  if s.dev.writesWait then s.onDev (fun d => d.setKw (fun k => { k with owed := true }))
  else (s.onDev (fun d => d.setKw (fun k => { k with owed := false }))).answered l (okWith [])

/-- The last of the writes of a packet may have been accepted. -/
def State.owedReply (s : State) : State :=
  match s.dev.kw.cur with
  | some l => if s.dev.kw.owed then s.answeredAfter l else s
  | none => s

/-- A short operation: word 2 and LEN first, then its parameters, then what it does (R365). -/
def State.short (s : State) (op n : Nat) (bad : List Nat → Option (Nat × Nat)) (run : List Nat → State → State × Answer) :
    State :=
  match s.dev.packetFor op with
  | none => s
  | some l =>
    match firstFault [wordTwoFault l false, lenFault l n, bad l] with
    | some (w, b) => s.answered l (refuseAt stBAD_PARAM w b)
    | none => let x := run l s; x.1.answered l x.2

/-- A short operation that only reports. -/
def State.report (s : State) (op n : Nat) (bad : List Nat → Option (Nat × Nat)) (results : List Nat → Dev → List Nat) :
    State :=
  s.short op n bad (fun l s => (s, okWith (results l s.dev)))

/-- A free handle (R371). -/
def Dev.handleFree (d : Dev) : Bool := decide (d.kw.handles.length < 64)

/-- A long operation: after the checks of its parameters and of the state come the handle and the ACCEPTED reply, then the
start; DRY stops before the start (R365, R371, R383). -/
def State.long (s : State) (op n : Nat) (bad : List Nat → Option (Nat × Nat)) (barred : List Nat → Dev → Option Answer)
    (start : List Nat → Nat → State → State) : State :=
  match s.dev.packetFor op with
  | none => s
  | some l =>
    match firstFault [wordTwoFault l true, lenFault l n, bad l] with
    | some (w, b) => s.answered l (refuseAt stBAD_PARAM w b)
    | none =>
      match barred l s.dev with
      | some a => s.answered l a
      | none =>
        if s.dev.handleFree = false then s.answered l (refuse stNO_HANDLE)
        else if dry l then s.answered l (okWith [])
        else
          let x := s.dev.openHandle op
          let s := s.onDev (fun _ => x.2.reply (l.getD 1 0) stACCEPTED x.1 none [])
          (start l x.1 s).onDev (fun d => d.kwAnswered)

/-! Groups of writes -/

/-- Write packets: every write or none; DRY checks and writes nothing, and counts nothing (R379, R383). -/
def State.groupWrite (s : State) (l : List Nat) (ws : List PktWrite) : State :=
  match s.groupRun ws with
  | (s', none) => if dry l then s.answered l (okWith []) else s'.answeredAfter l
  | (_, some g) =>
    let s := if dry l then s else s.groupRefused g
    s.answered l (refuseAt g.fault.status g.word g.fault.lsb)

/-- A write packet: word 2, LEN and counts, then the group. -/
def State.writePacket (s : State) (op : Nat) (bad : List Nat → Option (Nat × Nat)) (ws : List Nat → List PktWrite) : State :=
  match s.dev.packetFor op with
  | none => s
  | some l =>
    match firstFault [wordTwoFault l true, bad l] with
    | some (w, b) => s.answered l (refuseAt stBAD_PARAM w b)
    | none => s.groupWrite l (ws l)

/-- A count in P0 with the LEN it implies (R376). -/
def countFault (l : List Nat) (per most : Nat) : Option (Nat × Nat) :=
  if l.length < 5 then some (0, 0)
  else firstFault [lenFault l (1 + per * param l 0), paramFault l 0 32 (decide (1 ≤ param l 0) && decide (param l 0 ≤ most))]

/-- A read packet: every address is checked before the first read (R248, R381). -/
def State.readAll (s : State) (l : List Nat) (as : List (Nat × Nat × MemEcc)) : State :=
  match as.findSome? (fun a => (s.dev.readFault a.2.1).map (fun f => (a.1, f))) with
  | some (w, f) => s.answered l (refuseAt f.status w 0)
  | none =>
    let x := as.foldl (fun (x : List Nat × State) a => let r := x.2.pktRead a.2.1 a.2.2; (r.1 :: x.1, r.2)) ([], s)
    x.2.answered l (okWith x.1.reverse)

end Sys2Proof.Machine
end

