-- ==== Sys2Proof/Machine/Kweave.lean ====
section
/-! DEFINITION. The opcodes of R377. Each meaning is of the packet being interpreted, when it carries its opcode. -/

namespace Sys2Proof.Machine

/-- No parameter to check. -/
def noParam (_ : List Nat) : Option (Nat × Nat) := none

/-- No state in which the operation is refused. -/
def neverBarred (_ : List Nat) (_ : Dev) : Option Answer := none

/-- A register as a packet reads it. -/
def Dev.kreg (d : Dev) (k : RegKind) (i : Nat) : Nat := d.peek .kweave k i

/-- A value in two words, low first. -/
def twoWords (n : Nat) : List Nat := [n % 2 ^ 32, n / 2 ^ 32 % 2 ^ 32]

/-! SYS family -/

/-- NOP (R377). -/
def State.opNop (s : State) : State := s.report 0x000 0 noParam (fun _ _ => [])

/-- GET_INFO. -/
def Dev.info (d : Dev) : List Nat :=
  [d.kreg .SYS_DEVID 0, d.kreg .SYS_FWVER 0, d.kreg .SYS_SERIAL 0, d.kreg .SYS_SERIALH 0, d.kreg .CFG_IMAGEID 0,
    d.kreg .ZLK_STAT 0, b2n d.kw.secure + 2 * b2n d.kw.lockout, d.kw.handles.length]

def State.opGetInfo (s : State) : State := s.report 0x001 0 noParam (fun _ d => d.info)

/-- SOFT_RESET: the warm start comes 10 µs after the reply (R353). -/
def State.opSoftReset (s : State) : State :=
  s.short 0x002 1 (fun l => paramFault l 0 32 (decide (param l 0 = 0xA55A))) (fun _ s =>
    (s.onDev (fun d => d.warmAsk 2 (d.now + 10000)), okWith []))

/-- A wrong unlock code (R368). -/
def Dev.unlockFails (d : Dev) : Dev :=
  let n := d.kw.fails + 1
  let d := d.setKw (fun k => { k with fails := n, failNow := some d.now })
  if 16 ≤ n then (d.setKw (fun k => { k with lockout := true })).post .fault 0x170 2 else d

/-- An attempt to open a session (R368). -/
def Dev.unlock (d : Dev) (code : Nat) : Dev × Answer :=
  let soon : Bool := match d.kw.failNow with
    | some t => decide (d.now < t + 1000000000)
    | none => false
  match d.fuses.unlock with
  | none => (d, refuse stBAD_STATE)
  | some fused =>
    if d.kw.lockout then (d, refuse stDENIED)
    else if soon then (d, refuse stBUSY)
    else if code = fused then (d.setKw (fun k => { k with secure := true, fails := 0, failNow := none }), okWith [])
    else (d.unlockFails, refuse stDENIED)

def State.opUnlock (s : State) : State :=
  s.short 0x003 2 noParam (fun l s =>
    let x := s.dev.unlock (param l 0 + param l 1 * 2 ^ 32)
    (s.onDev (fun _ => x.1), x.2))

/-- SESSION_LOCK (R369). -/
def State.opLock (s : State) : State :=
  s.short 0x004 0 noParam (fun _ s => (s.onDev (fun d => d.setKw (fun k => { k with secure := false })), okWith []))

/-- An operation can be aborted (R375). -/
def abortable (opcode : Nat) : Bool := longOpcodes.contains opcode && decide (opcode ≠ 0x100) && decide (opcode ≠ 0x101)

/-- A handle is marked stopping (R374). -/
def Dev.markStopping (d : Dev) (h : Nat) : Dev :=
  d.setKw (fun k => { k with handles := k.handles.map (fun e => if e.num = h then { e with stopping := true } else e) })

/-- A store is stopped by the abort of one of its handles: held requests are dropped, the pair in force stays. The abort of
a request that is only held drops that request (R375). -/
def Dev.storeAbort (d : Dev) (h : Nat) : Dev :=
  match d.cal.store with
  | some r =>
    if r.handles.contains h then
      (r.handles ++ d.cal.heldHandles).foldl (fun d n => d.finish n stABORTED 15) d.storeDrop
    else (d.setCal (fun c => { c with heldHandles := c.heldHandles.filter (fun n => decide (n ≠ h)) })).finish h stABORTED 15
  | none => (d.setCal (fun c => { c with heldHandles := c.heldHandles.filter (fun n => decide (n ≠ h)) })).finish h stABORTED 15

/-- A ring start is stopped: the device becomes standalone, ERR is unchanged (R375). -/
def Dev.startAbort (d : Dev) : Dev :=
  (((d.setZ (fun z => { z with originating := false })).wf ZLK_STAT_ROLE 0 0).startEnds stABORTED).ringLeave

/-- The operation of a handle stops (R375). -/
def State.stopOperation (s : State) (h opcode : Nat) : State :=
  match opcode with
  | 0x300 => s.onDev (fun d => d.calAbort h)
  | 0x301 => s.onDev (fun d => d.storeAbort h)
  | 0x200 => s.loadAbort h
  | 0x201 => s.loadAbort h
  | 0x202 => s.loadAbort h
  | 0x600 => s.onDev (fun d => d.startAbort)
  | 0x700 =>
    match s.dev.bank.marches.find? (fun c => decide (c.handle = h)) with
    | some c => c.left.foldl (fun s b => s.marchStop b) s
    | none => s
  | 0x701 => s.onDev (fun d => (d.setBank (fun m => { m with
      fills := m.fills.map (fun f => if f.handle = h then { f with stop := true } else f) })).fillDone h)
  | _ => s

/-- ABORT (R374): the operation stops after the reply. -/
def State.opAbort (s : State) : State :=
  s.short 0x005 1 (fun l => paramFault l 0 32 (decide (1 ≤ param l 0) && decide (param l 0 ≤ 4095))) (fun l s =>
    match s.dev.findHandle (param l 0) with
    | none => (s, refuseAt stALREADY_DONE 3 0)
    | some e =>
      if e.stopping then (s, refuseAt stBUSY 3 0)
      else if abortable e.opcode = false then (s, refuseAt stBAD_STATE 3 0)
      else ((s.onDev (fun d => d.markStopping e.num)).stopOperation e.num e.opcode, okWith []))

/-- HANDLE_QUERY. -/
def Dev.handleInfo (d : Dev) (h : Nat) : List Nat :=
  match d.findHandle h with
  | none => [0, 0, 0]
  | some e => [(if e.stopping then 2 else 1) + e.opcode % 0x1000 * 2 ^ 16] ++ twoWords e.tb

def State.opHandleQuery (s : State) : State :=
  s.report 0x006 1 (fun l => paramFault l 0 32 (decide (1 ≤ param l 0) && decide (param l 0 ≤ 4095))) (fun l d =>
    d.handleInfo (param l 0))

/-- HANDLE_LIST: in ascending order. -/
def Dev.handleList (d : Dev) : List Nat :=
  d.kw.handles.length :: ((List.range 4096).filterMap (fun n => (d.findHandle n).map (fun e =>
    e.num + e.opcode % 0x1000 * 2 ^ 16)))

def State.opHandleList (s : State) : State := s.report 0x007 0 noParam (fun _ d => d.handleList)

/-- A load with KEYSEL BBR is in LOAD or SYNC (R377 KEY_LOAD). -/
def Dev.bbrInUse (d : Dev) : Bool :=
  (decide (d.cfgState = csLOAD) || decide (d.cfgState = csSYNC)) &&
    (match d.cfg.load.hdr with
     | some h => decide (h.keysel = 1)
     | none => false)

/-- The bytes of a key, byte 0 lowest in the first word. -/
def keyBytes (ws : List Nat) : List Nat := ws.flatMap (fun w => (List.range 4).map (fun i => w / 2 ^ (8 * i) % 256))

/-- KEY_LOAD. -/
def State.opKeyLoad (s : State) : State :=
  s.short 0x008 8 noParam (fun l s =>
    if s.dev.kw.secure = false then (s, refuse stNOT_SECURE)
    else if s.dev.bbrInUse then (s, refuse stBAD_STATE)
    else (s.onDev (fun d => (d.setCfg (fun c => { c with bbrKey := keyBytes (params l) })).wf CFG_FUSE_BKEY 0 1), okWith []))

/-- KEY_ZERO. -/
def State.opKeyZero (s : State) : State :=
  s.short 0x009 0 noParam (fun _ s =>
    if s.dev.kw.secure = false then (s, refuse stNOT_SECURE)
    else (s.onDev (fun d => (d.setCfg (fun c => { c with bbrKey := [] })).wf CFG_FUSE_BKEY 0 0), okWith []))

/-- ECHO: up to 64 words. -/
def State.opEcho (s : State) : State :=
  match s.dev.packetFor 0x00A with
  | none => s
  | some l =>
    match firstFault [wordTwoFault l false, if 68 < l.length then some (0, 0) else none] with
    | some (w, b) => s.answered l (refuseAt stBAD_PARAM w b)
    | none => s.answered l (okWith (params l))

/-! PWR family -/

/-- PWR_STATE (R348): a target equal to the present state needs no handle. -/
def State.opPwrState (s : State) : State :=
  s.long 0x100 1 (fun l => paramFault l 0 32 (decide (1 ≤ param l 0) && decide (param l 0 ≤ 4)))
    (fun l d => match d.powerRefusal (param l 0) with
      | some st => some (refuseAt st 3 0)
      | none => if d.pwr.st.code = param l 0 then some (okWith []) else none)
    (fun l h s => s.powerRequest (param l 0) (.handle h))

/-- The bit of `PWR.DOMEN` whose clearing is refused (R345). -/
def Dev.domenBit (d : Dev) (v : Nat) : Option Nat :=
  let old := (d.rreg .PWR_DOMEN 0).toNat
  (List.range 16).find? (fun i => tbit old i && !(tbit v i) && (if i < 8 then d.grpRefused i else d.memOffRefused (i - 8)))

/-- The domains of a packet are written; the handle waits for the groups switched on (R345). -/
def State.domainsStart (s : State) (v h : Nat) : State :=
  let s := s.domenWrite v
  let wait := Nat.land v s.dev.pwr.grpBusy % 256
  if wait = 0 then s.onDev (fun d => d.finish h stOK 0)
  else s.onDev (fun d => d.setPwr (fun p => { p with domHandles := p.domHandles ++ [(h, wait)] }))

/-- PWR_DOMAINS. -/
def State.opPwrDomains (s : State) : State :=
  s.long 0x101 1 (fun l => paramFault l 0 19 true)
    (fun l d => (d.domenBit (param l 0)).map (fun b => refuseAt stBAD_STATE 3 b))
    (fun l h s => s.domainsStart (param l 0) h)

/-- PWR_STATUS. -/
def State.opPwrStatus (s : State) : State :=
  s.report 0x102 0 noParam (fun _ d => [RegKind.PWR_STATE, .PWR_DOMSTAT0, .PWR_DOMSTAT1, .PWR_RSTCAUSE, .PWR_STARTERR,
    .PWR_PFAIL].map (fun k => d.kreg k 0))

/-! CFG family -/

/-- CFG_PROGRAM: accepted in every state. -/
def State.opCfgProgram (s : State) : State :=
  s.long 0x200 0 noParam neverBarred (fun _ h s => s.fullStart (some h) false)

/-- CFG_PARTIAL (R322). -/
def State.opCfgPartial (s : State) : State :=
  s.long 0x201 0 noParam (fun _ d => d.partialRefused.map refuse) (fun _ h s => s.onDev (fun d => d.partialOpen h))

/-- CFG_GOLDEN (R320). -/
def State.opCfgGolden (s : State) : State :=
  s.long 0x202 0 noParam neverBarred (fun _ h s => s.fullStart (some h) true)

/-- CFG_STATUS. -/
def State.opCfgStatus (s : State) : State :=
  s.report 0x203 0 noParam (fun _ d => [RegKind.CFG_STATUS, .CFG_FAILPOS, .CFG_FAILINFO, .CFG_IMAGEID, .CFG_RETRY, .CFG_BYTES,
    .CFG_STARTUP].map (fun k => d.kreg k 0))

/-! CAL family -/

/-- The item mask of CAL_RUN. -/
def calMask (l : List Nat) : Nat := param l 1 + param l 2 * 2 ^ 32 + param l 3 * 2 ^ 64 + param l 4 * 2 ^ 96

/-- The items it names, ascending. -/
def calItems (l : List Nat) : List Nat := setBitsOf 128 (calMask l)

/-- Kind and mask: an empty mask, or a bit outside the kind's range, is located. -/
def calFault (l : List Nat) : Option (Nat × Nat) :=
  firstFault [paramFault l 0 32 (decide (param l 0 ≤ 7)),
    if (calItems l).isEmpty then some (4, 0) else none,
    ((calItems l).find? (fun b => decide (kindItems (param l 0) ≤ b))).map (fun b => (4 + b / 32, b))]

/-- CAL_RUN (R148, R158, R159). -/
def State.opCalRun (s : State) : State :=
  s.long 0x300 5 calFault
    (fun l d => (d.calRefusal (param l 0) (calItems l)).map (fun x => refuseAt x.1 (4 + x.2 / 32) x.2))
    (fun l h s => s.onDev (fun d => d.calCommand h (param l 0) (calItems l)))

/-- CAL_STORE (R170). -/
def State.opCalStore (s : State) : State :=
  s.long 0x301 0 noParam neverBarred (fun _ h s => s.onDev (fun d => d.storeAsk (some h)))

/-- CAL_PART. -/
def State.opCalPart (s : State) : State :=
  s.report 0x302 2 (fun l => firstFault [paramFault l 0 32 (decide (param l 0 ≤ 255)), paramFault l 1 32 (decide (param l 1 ≤ 23))])
    (fun l d => [d.pinfo (param l 0), d.page (param l 0)] ++ (List.range 7).map (fun j => d.pctx (param l 0) (param l 1) j))

/-- CAL_RESULT. -/
def State.opCalResult (s : State) : State :=
  s.report 0x303 1 (fun l => paramFault l 0 32 (decide (param l 0 ≤ 7)))
    (fun l d => [d.kreg .CAL_RSTAT (param l 0), d.kreg .CAL_RVAL (param l 0)])

/-- CAL_DUE. -/
def State.opCalDue (s : State) : State := s.report 0x304 0 noParam (fun _ d => [d.calStat, d.staleH, d.staleG])

/-! REG family -/

/-- REG_READ (R381). -/
def State.opRegRead (s : State) (e : List MemEcc) : State :=
  match s.dev.packetFor 0x400 with
  | none => s
  | some l =>
    match firstFault [wordTwoFault l false, countFault l 1 1024] with
    | some (w, b) => s.answered l (refuseAt stBAD_PARAM w b)
    | none => s.readAll l ((List.range (param l 0)).map (fun i => (4 + i, param l (1 + i), e.getD i .clean)))

/-- REG_WRITE (R379). -/
def State.opRegWrite (s : State) (e : List MemEcc) : State :=
  s.writePacket 0x401 (fun l => countFault l 2 1024) (fun l => (List.range (param l 0)).map (fun i =>
    ⟨4 + 2 * i, 5 + 2 * i, param l (1 + 2 * i), 2 ^ 32 - 1, param l (2 + 2 * i), e.getD i .clean⟩))

/-- REG_MASKWRITE (R380). -/
def State.opRegMaskwrite (s : State) (e : List MemEcc) : State :=
  s.writePacket 0x402 (fun l => countFault l 3 1024) (fun l => (List.range (param l 0)).map (fun i =>
    ⟨4 + 3 * i, 6 + 3 * i, param l (1 + 3 * i), param l (2 + 3 * i), param l (3 + 3 * i), e.getD i .clean⟩))

/-- A stride of 0 or 4. -/
def strideFault (l : List Nat) (n : Nat) : Option (Nat × Nat) := paramFault l n 32 (decide (param l n = 0) || decide (param l n = 4))

/-- REG_READBLOCK. -/
def State.opRegReadblock (s : State) (e : List MemEcc) : State :=
  match s.dev.packetFor 0x403 with
  | none => s
  | some l =>
    match firstFault [wordTwoFault l false, lenFault l 3,
        paramFault l 1 32 (decide (1 ≤ param l 1) && decide (param l 1 ≤ 4090)), strideFault l 2] with
    | some (w, b) => s.answered l (refuseAt stBAD_PARAM w b)
    | none => s.readAll l ((List.range (param l 1)).map (fun i => (3, param l 0 + param l 2 * i, e.getD i .clean)))

/-- REG_WRITEBLOCK. -/
def State.opRegWriteblock (s : State) (e : List MemEcc) : State :=
  s.writePacket 0x404 (fun l => firstFault [if l.length < 7 then some (0, 0) else none, strideFault l 1])
    (fun l => (List.range (l.length - 6)).map (fun i =>
      ⟨3, 5 + i, param l 0 + param l 1 * i, 2 ^ 32 - 1, param l (2 + i), e.getD i .clean⟩))

/-! LTG family -/

/-- The heads of a mask in P0. -/
def heads (l : List Nat) : List Nat := setBitsOf 24 (param l 0)

/-- A head mask, not 0 where the opcode says so. -/
def headsFault (l : List Nat) (notEmpty : Bool) : Option (Nat × Nat) :=
  paramFault l 0 24 (!notEmpty || decide (param l 0 ≠ 0))

/-- TB as results. -/
def Dev.tbWords (d : Dev) : List Nat := twoWords d.t

/-- LTG_ARM: all of the named LTGs, or none (R48, R130). -/
def State.opLtgArm (s : State) : State :=
  s.short 0x500 1 (fun l => headsFault l true) (fun l s =>
    let d := s.dev
    match (heads l).find? (fun h => !(d.on LTG_CTRL_ARM h) && !(d.armOk h (d.rf LTG_CTRL_SRC h) (d.rf LTG_CTRL_ENC h))) with
    | some h => (s, refuseAt stBAD_STATE 3 h)
    | none => (s.onDev (fun d => ((heads l).filter (fun h => !(d.on LTG_CTRL_ARM h))).foldl (fun d h => d.arm h) d), okWith d.tbWords))

/-- LTG_DISARM (R54). -/
def State.opLtgDisarm (s : State) : State :=
  s.short 0x501 1 (fun l => headsFault l false) (fun l s =>
    (s.onDev (fun d => ((heads l).filter (fun h => d.on LTG_CTRL_ARM h)).foldl (fun d h => d.disarm h) d), okWith s.dev.tbWords))

/-- LTG_POSLOAD (R37). -/
def State.opLtgPosload (s : State) : State :=
  s.short 0x502 3 (fun l => firstFault [paramFault l 0 32 (decide (param l 0 ≤ 7)), paramFault l 2 16 true]) (fun l s =>
    if s.dev.posLoadOk (param l 0) then
      (s.onDev (fun d => d.posLoad (param l 0) (param l 1 + param l 2 * 2 ^ 32)), okWith s.dev.tbWords)
    else (s, refuseAt stBAD_STATE 3 0))

/-- LTG_SWTRIG (R44). -/
def State.opLtgSwtrig (s : State) : State :=
  s.short 0x503 1 (fun l => headsFault l true) (fun l s =>
    match (heads l).find? (fun h => !(s.dev.on LTG_CTRL_ARM h) || decide (s.dev.rf LTG_CTRL_SRC h ≠ 4)) with
    | some h => (s, refuseAt stBAD_STATE 3 h)
    | none => (s.onDev (fun d => (heads l).foldl (fun d h => d.softLine h) d), okWith s.dev.tbWords))

/-- Position and velocity of a port at one instant, the position extrapolated (R378). -/
def Dev.snapPort (d : Dev) (p : Nat) : List Nat :=
  twoWords (ux 48 ((d.getEnc p).pExt d.t / 65536)) ++ [ux 32 (d.vel p)]

/-- LTG_SNAP. -/
def State.opLtgSnap (s : State) : State :=
  s.report 0x504 0 noParam (fun _ d => d.tbWords ++ (List.range 8).flatMap (fun p => d.snapPort p))

/-- LTG_TBLOAD (R43). -/
def State.opLtgTbload (s : State) : State :=
  s.short 0x505 2 noParam (fun l s =>
    if s.dev.tbLoadOk then
      (s.onDev (fun d => { d with tb := BitVec.ofNat 64 (param l 0 + param l 1 * 2 ^ 32) }), okWith [])
    else (s, refuse stBAD_STATE))

/-- LTG_STATUS. -/
def State.opLtgStatus (s : State) : State :=
  s.report 0x506 1 (fun l => paramFault l 0 32 (decide (param l 0 ≤ 23))) (fun l d =>
    [RegKind.LTG_STAT, .LTG_LINE, .LTG_TGT, .LTG_TGTH, .LTG_OVRCNT, .LTG_EVTCNT, .LTG_MODECNT, .LTG_EFFMIN].map (fun k =>
      d.kreg k (param l 0)))

/-! ZLK, MEM, EVQ and TEL families -/

/-- ZLK_START (R70, R84). -/
def State.opZlkStart (s : State) : State :=
  s.long 0x600 0 noParam
    (fun _ d => if d.on ZLK_CTRL_EN 0 = false then some (refuse stBAD_STATE)
      else if d.startRuns then some (refuse stBUSY) else none)
    (fun _ h s => s.onDev (fun d => d.startRequest (some h)))

/-- ZLK_STATUS. -/
def State.opZlkStatus (s : State) : State :=
  s.report 0x601 0 noParam (fun _ d => [RegKind.ZLK_STAT, .ZLK_ALIVE, .ZLK_LOCKMASK, .ZLK_LOOPLAT, .ZLK_OFSP, .ZLK_OFSR,
    .ZLK_TBERR, .ZLK_LINECNT].map (fun k => d.kreg k 0))

/-- The banks of a mask in P0. -/
def banks (l : List Nat) : List Nat := setBitsOf 8 (param l 0)

/-- The named banks march for a handle (R289). -/
def Dev.marchCommand (d : Dev) (h mode : Nat) (bs : List Nat) : Dev :=
  let d := d.setBank (fun m => { m with marches := m.marches ++ [⟨h, bs, 0⟩] })
  bs.foldl (fun d b => d.marchStart b mode false) d

/-- MEM_MARCH: a named bank that refuses it is located. -/
def State.opMemMarch (s : State) : State :=
  s.long 0x700 2 (fun l => firstFault [paramFault l 0 8 (decide (param l 0 ≠ 0)), paramFault l 1 32 (decide (param l 1 ≤ 1))])
    (fun l d => (banks l).findSome? (fun b => (d.marchRefusal b (param l 1)).map (fun st => refuseAt st 3 b)))
    (fun l h s => s.onDev (fun d => d.marchCommand h (param l 1) (banks l)))

/-- MEM_FILL: the words wait for port 0 as the management requester. -/
def State.opMemFill (s : State) : State :=
  s.long 0x701 5 (fun l => firstFault [paramFault l 0 32 (decide (param l 0 ≤ 7)),
      paramFault l 1 32 (decide (param l 1 < 131072)),
      paramFault l 2 32 (decide (1 ≤ param l 2) && decide (param l 1 + param l 2 ≤ 131072))])
    (fun l d => if d.bankServes (param l 0) then none else some (refuseAt stBAD_STATE 3 0))
    (fun l h s => s.onDev (fun d => d.setBank (fun m => { m with
      fills := m.fills ++ [⟨h, param l 0, param l 1, param l 2, param l 3 + param l 4 * 2 ^ 32, false⟩] })))

/-- MEM_STATUS. -/
def State.opMemStatus (s : State) : State :=
  s.report 0x702 1 (fun l => paramFault l 0 32 (decide (param l 0 ≤ 7))) (fun l d =>
    [RegKind.MEM_BSTAT, .MEM_ECCCNT, .MEM_ERRADDR, .MEM_MARCHRES, .MEM_ROWMAP0, .MEM_ROWMAP1].map (fun k => d.kreg k (param l 0)))

/-- EVQ_CONFIG (R387): only while the queue is empty. -/
def State.opEvqConfig (s : State) : State :=
  s.short 0x800 1 (fun l => paramFault l 0 32 (decide (1024 ≤ param l 0) && decide (param l 0 ≤ 4096) && decide (param l 0 % 256 = 0)))
    (fun l s =>
      if s.dev.evqFill = 0 then (s.onDev (fun d => d.evqConfig (param l 0)), okWith [s.dev.kreg .EVQ_BASE 0])
      else (s, refuse stBAD_STATE))

/-- EVQ_STATUS. -/
def State.opEvqStatus (s : State) : State :=
  s.report 0x801 0 noParam (fun _ d => [RegKind.EVQ_HEAD, .EVQ_TAIL, .EVQ_SIZE, .EVQ_LOST].map (fun k => d.kreg k 0))

/-- What TEL_READ returns: temperatures, supplies, activity. -/
def Dev.telemetry (d : Dev) : List Nat :=
  (List.range 4).map (fun i => d.rf TMP_TS_T (2 * i) + d.rf TMP_TS_T (2 * i + 1) * 2 ^ 16) ++
    [RegKind.TMP_RAIL0, .TMP_RAIL1, .TMP_RAIL2, .TMP_RAIL3].map (fun k => d.kreg k 0) ++
    [d.cal.act % 2 ^ 8 + d.enabledCount % 2 ^ 7 * 2 ^ 8]

/-- TEL_READ. -/
def State.opTelRead (s : State) : State := s.report 0x900 0 noParam (fun _ d => d.telemetry)

/-- TEL_CONFIG (R396): the period counts from the reply. -/
def State.opTelConfig (s : State) : State :=
  s.short 0x901 2 (fun l => firstFault [paramFault l 0 32 (decide (param l 0 ≤ 3600)), paramFault l 1 4 true]) (fun l s =>
    (s.onDev (fun d => d.setKw (fun k => { k with
      telPeriod := param l 0 * 1000000000, telContent := param l 1, telNext := d.now + param l 0 * 1000000000 })), okWith []))

/-- TEL_COUNTERS. -/
def State.opTelCounters (s : State) : State :=
  s.report 0x902 0 noParam (fun _ d => [d.rf SYS_ACCERR_COUNT 0, d.rf SYS_NOWNER_COUNT 0, d.kreg .SYS_KWCNT 0])

end Sys2Proof.Machine
end

