-- ==== Sys2Proof/Machine/Operands.lean ====
section
/-! DEFINITION. How the operands of commands name what they act on: table entries, selectors, the data register of
REGACC. -/

namespace Sys2Proof.Machine

/-- Device address of target entry `i`: a PCT entry of 4 bytes (R127), or a PTT byte (R128). -/
def tableAddr (pct : Bool) (i : Nat) : Nat := if pct then 0x01000000 + 4 * i else 0x01100000 + i

/-- The register that holds a selector (R177). -/
def selKind : Selector → RegKind
  | .ax => .ASW_AX
  | .cell => .CAC_SEL
  | .tap => .ASW_MTAP
  | .comparator => .CMP_CFG

/-- The register that holds a function or a network of a cell (R183). -/
def cellKind (net : Bool) : RegKind := if net then .CAC_NET else .CAC_CFG

/-- The register that releases buses 0 to 31 or 32 to 63 (R180). -/
def releaseKind (high : Bool) : RegKind := if high then .ASW_BREL1 else .ASW_BREL0

/-- The masked-write register of levels or of output enables (R401). -/
def maskedKind (oe : Bool) : RegKind := if oe then .GPIO_MOE else .GPIO_MOUT

/-- How an ended 2-wire transaction reports (R406). -/
def endCode : TwoWireEnd → Nat
  | .done => 0
  | .nack => 1
  | .stuck => 2

/-- The access that an Update-DR of REGACC performs: bit 65 runs it, bit 64 writes, then the address and the value
(R453). -/
def State.regacc (s : State) (dr : BitVec 66) (e : MemEcc) : State :=
  if dr.getLsbD 65 = true then
    s.hostDoes (fun s =>
      if dr.getLsbD 64 = true then s.directWrite (dr.extractLsb' 32 32).toNat (dr.extractLsb' 0 32).toNat e
      else s.directRead (dr.extractLsb' 32 32).toNat e)
  else s

/-- The housekeeping inputs of a period without the rails (R209). -/
def houseInputs : List Nat := [32, 33, 34, 35, 36, 37, 38, 39, 45]

end Sys2Proof.Machine
end

