-- ==== Sys2Proof/Machine/Cmd.lean ====
section
/-! DEFINITION. What the meanings of the rows share: the guard of the unit's domain, and what an event does where no
other definition holds it. -/

namespace Sys2Proof.Machine

/-- Domain `n` is on and not held in reset: its unit acts (R344, R347). -/
def Dev.live (d : Dev) (n : Nat) : Bool := d.domOn n && decide (d.pwr.st ≠ .held)

/-- The answer of a command that a unit of domain `n` carries out. -/
def State.within (s : State) (n : Nat) (f : State → State) : Host.Outcome State Fault Refusal :=
  .next (if s.dev.live n then f s else s)

/-- The same for an effect on the device alone. -/
def State.devWithin (s : State) (n : Nat) (f : Dev → Dev) : Host.Outcome State Fault Refusal :=
  s.within n (fun s => s.onDev f)

/-! Timing -/

/-- Levels of a port while its unit is off: no edge is decoded. -/
def Dev.encLevels (d : Dev) (p : Nat) (a b z : Bool) : Dev := d.setEnc p { d.getEnc p with a := a, b := b, z := z }

/-- No count has come for STALL ns (R40). -/
def Dev.stallDue (d : Dev) (p : Nat) : Bool :=
  d.on ENC_CTRL_EN p && decide ((d.getEnc p).lastNow + d.rf ENC_STALL_STALL p ≤ d.now)

/-- The coasting limit has passed (R54). -/
def Dev.coastOver (d : Dev) (h : Nat) : Bool :=
  d.on LTG_CTRL_ARM h && d.on LTG_STAT_COASTING h &&
    decide ((d.getLtg h).coastFrom + d.rf LTG_COAST_TIME h ≤ d.now)

/-- A superframe passes the repeat path while PD_TIM is off or in reset (R63, R66, R85): the crown keeps the path with its
latency and the ALIVE bit, passes every slot unchanged, and notes that the input is alive. -/
def Dev.crownRepeat (d : Dev) (ring : Bool) (chars : List Nat) (at64 : Nat) : Dev :=
  if d.on ZLK_CTRL_EN 0 = false ∨ d.zlk.originating = true ∨ d.pwr.st = .off then d
  else
    let d := d.setRingIn ring { d.ringIn ring with replies := [], chars := [] }
    match hdrOf chars with
    | none => d.repeatOut ring (invertCrc chars) chars (d.devTime at64)
    | some _ => (d.setRingIn ring { d.ringIn ring with lastNow := d.now }).repeatOut ring (repeatHdr chars d.zbit 0 0) chars
        (d.devTime at64)

/-- The slot of a message row has its effect, if it holds the message that the row names. -/
def Dev.slotRow (d : Dev) (ring : Bool) (j : Nat) (f : Dev → RingMsg → Option Dev) : Dev :=
  match (d.slotMsg ring j).bind (f d) with
  | some e => e.slotDone ring j
  | none => d

/-- The originator of a ring sends (R65). -/
def Dev.superframeNow (d : Dev) : Dev :=
  if d.on ZLK_CTRL_EN 0 = true ∧ d.zlk.originating = true ∧ d.superframeDue = true then d.superframe else d

/-! Firmware -/

/-- The firmware goes on after a happening of calibration (R157, R170, R352). -/
def Dev.calStep (d : Dev) : Dev := d.calPump.startSettle

/-- A happening of calibration in the running firmware. -/
def State.calRow (s : State) (f : Dev → Dev) : Host.Outcome State Fault Refusal :=
  .next (if s.dev.managementOn then s.onDev (fun d => (f d).calStep) else s)

/-- No temperature set for 300 ms (R434). -/
def Dev.tempStale (d : Dev) : Dev :=
  if d.managementOn = true ∧ d.cal.tempsAt + 300000000 ≤ d.now then d.wf TMP_STAT_STALE 0 1 else d

/-- A rail set is due every 1 s: its inputs are asked for, and the lane rail is read (R434). -/
def Dev.railDue (d : Dev) (ser12 : Nat) : Dev :=
  if d.passedSince d.cal.railAt 1000000000 then
    (d.mcvHouse [40, 41, 42, 43, 44, 46]).setCal (fun c => { c with
      ser12 := ser12, railAt := if d.domOn 5 && d.pwr.booted then some d.now else c.railAt })
  else d

/-! Pins -/

/-- EXTEST ends: each pin returns to its function through the switch of R400 (R453). -/
def Dev.extestEnds (d : Dev) : Dev :=
  let d := d.setGpio (fun g => { g with extest := false })
  if d.gpio.released = true ∧ d.gpio.asleep = false then
    (List.range 64).foldl (fun d p =>
      d.setPad p { d.pad p with switch := some (d.padWanted p, padEdge d.now + 20), next := none }) d
  else d

/-- The two cores disagree (R353). -/
def State.lockstep (s : State) : State := if s.dev.running then s.warmNow 4 else s

end Sys2Proof.Machine
end

