-- ==== Sys2Proof/Machine/CmdAnalogue.lean ====
section
/-! DEFINITION. The meanings of the rows about the analogue bus, analogue cells, comparators and monitor converters: one definition per row. -/

namespace Sys2Proof.Machine

/-- A write of a bus selector or of the direction of an AX pin (R177). -/
def execAswSelectorWrite (pth : Path) (sel : Selector) (i : Nat) (v : Word) (s : State) :
    Host.Outcome State Fault Refusal :=
  .next (s.regWrite pth (selKind sel) i v)

/-- The detector of a bus trips (R179). -/
def execAbusTrip (b : Nat) (s : State) : Host.Outcome State Fault Refusal :=
  s.devWithin 6 (fun d => d.abusTrip b)

/-- A write of `ASW.BREL0` or `ASW.BREL1` (R180). -/
def execAbusRelease (pth : Path) (high : Bool) (v : Word) (s : State) : Host.Outcome State Fault Refusal :=
  .next (s.regWrite pth (releaseKind high) 0 v)

/-- A write of a cell's function or network (R183). -/
def execCacConfigWrite (pth : Path) (net : Bool) (n : Nat) (v : Word) (s : State) :
    Host.Outcome State Fault Refusal :=
  .next (s.regWrite pth (cellKind net) n v)

/-- A microsecond after a network update; the output may stand at a limit (R183). -/
def execCacSettled (n : Nat) (ilim rail : Bool) (s : State) : Host.Outcome State Fault Refusal :=
  s.devWithin 6 (fun d => d.cacSettled n ilim rail)

/-- The software reset of a cell: a write of `CAC.CFG` with RST; line boundaries and comparators reset cells in
their own rows (R184). -/
def execCacReset (pth : Path) (n : Nat) (v : Word) (s : State) : Host.Outcome State Fault Refusal :=
  .next (s.regWrite pth .CAC_CFG n v)

/-- The reset pulse of a cell ends (R184). -/
def execCacResetEnd (n : Nat) (s : State) : Host.Outcome State Fault Refusal :=
  s.devWithin 6 (fun d => d.cacResetEnd n)

/-- A tick of a comparator, with the voltages at its inputs (R186). -/
def execCmpDecision (n : Nat) (vp vn : Int) (s : State) : Host.Outcome State Fault Refusal :=
  s.devWithin 6 (fun d => d.cmpDecision n vp vn)

/-- A write of `CMP.CFG` with EN; the other start-ups come with their own rows (R189). -/
def execCmpStart (pth : Path) (n : Nat) (v : Word) (s : State) : Host.Outcome State Fault Refusal :=
  .next (s.regWrite pth .CMP_CFG n v)

/-- A write of `CMP.STAT` with CLR (R192). -/
def execCmpClear (pth : Path) (n : Nat) (v : Word) (s : State) : Host.Outcome State Fault Refusal :=
  .next (s.regWrite pth .CMP_STAT n v)

/-- A tick of a wake comparator from the crown (R195). -/
def execCmpWakeTick (n : Nat) (vp vn : Int) (s : State) : Host.Outcome State Fault Refusal :=
  .next (s.onDev (fun d => d.cmpWakeTick n vp vn))

/-- A trigger on its way to the regular scan arrives (R205). -/
def execMcvRegularTrigger (m : Nat) (s : State) : Host.Outcome State Fault Refusal :=
  s.devWithin 5 (fun d => d.mcvTrigArrive m false)

/-- A trigger on its way to the injected sequence arrives (R208). -/
def execMcvInjectedTrigger (m : Nat) (s : State) : Host.Outcome State Fault Refusal :=
  s.devWithin 5 (fun d => d.mcvTrigArrive m true)

/-- A write of `MCV.CTRL` with GO (R205). -/
def execMcvGo (pth : Path) (m : Nat) (v : Word) (s : State) : Host.Outcome State Fault Refusal :=
  .next (s.regWrite pth .MCV_CTRL m v)

/-- A write of `MCV.CTRL` with IGO (R205). -/
def execMcvIgo (pth : Path) (m : Nat) (v : Word) (s : State) : Host.Outcome State Fault Refusal :=
  .next (s.regWrite pth .MCV_CTRL m v)

/-- A write of EN or IEN of `MCV.CTRL` (R204, R207). -/
def execMcvEnable (pth : Path) (m : Nat) (v : Word) (s : State) : Host.Outcome State Fault Refusal :=
  .next (s.regWrite pth .MCV_CTRL m v)

/-- The delay of a trigger ends (R203). -/
def execMcvDelayExpiry (m : Nat) (inj : Bool) (s : State) : Host.Outcome State Fault Refusal :=
  s.devWithin 5 (fun d => d.mcvDelay m inj)

/-- A conversion ends; `v` / 4 µV stood at its input (R199, R201). -/
def execMcvConversionDone (m : Nat) (v : Int) (s : State) : Host.Outcome State Fault Refusal :=
  s.devWithin 5 (fun d => d.mcvDone m v)

/-- IDLE µs have passed (R202). -/
def execMcvIdleExpiry (m : Nat) (s : State) : Host.Outcome State Fault Refusal :=
  s.devWithin 5 (fun d => d.mcvIdle m)

/-- The housekeeping inputs become due (R209, R434). -/
def execMcvHousekeeping (s : State) : Host.Outcome State Fault Refusal :=
  s.devWithin 5 (fun d => d.mcvHouseDue houseInputs)

/-- A write of `MCV.RIDX` (R212). -/
def execMcvRidxWrite (pth : Path) (m : Nat) (v : Word) (s : State) : Host.Outcome State Fault Refusal :=
  .next (s.regWrite pth .MCV_RIDX m v)

end Sys2Proof.Machine
end

