-- ==== Sys2Proof/Machine/CmdConfig.lean ====
section
/-! DEFINITION. The meanings of the rows about configuration, partial reconfiguration and scrubbing: one definition per row. -/

namespace Sys2Proof.Machine

/-- PROGN is recognised low (R314). -/
def execProgn (s : State) : Host.Outcome State Fault Refusal :=
  s.within 3 (fun s => s.progn)

/-- Configuration memory has been cleared (R314). -/
def execCfgClearDone (s : State) : Host.Outcome State Fault Refusal :=
  s.devWithin 3 (fun d => d.clearDone)

/-- WAITTMO passes (R314). -/
def execCfgWaitTimeout (s : State) : Host.Outcome State Fault Refusal :=
  s.devWithin 3 (fun d => d.waitTimeout)

/-- An image word is written (R297). -/
def execCfgFifoWrite (pth : Path) (v : Word) (s : State) : Host.Outcome State Fault Refusal :=
  .next (s.regWrite pth .CFG_FIFO 0 v)

/-- The gap between image words exceeds `CFG.TIMEOUT` (R299). -/
def execCfgWordTimeout (s : State) : Host.Outcome State Fault Refusal :=
  s.within 3 (fun s => s.wordTimeout)

/-- The header of an image is taken (R300). -/
def execImageHeader (s : State) : Host.Outcome State Fault Refusal :=
  s.within 3 (fun s => s.imageHeader)

/-- A FRAME_WRITE packet is taken (R301). -/
def execFrameWrite (s : State) : Host.Outcome State Fault Refusal :=
  s.within 3 (fun s => s.frameWrite)

/-- A FRAME_REPEAT packet is taken (R301). -/
def execFrameRepeat (s : State) : Host.Outcome State Fault Refusal :=
  s.within 3 (fun s => s.frameRepeat)

/-- A REGION_BEGIN packet is taken (R253). -/
def execRegionBegin (s : State) : Host.Outcome State Fault Refusal :=
  s.within 3 (fun s => s.regionBegin)

/-- A REGION_END packet is taken (R302). -/
def execRegionEnd (s : State) : Host.Outcome State Fault Refusal :=
  s.within 3 (fun s => s.regionEnd)

/-- A MEM_INIT packet is taken (R309). -/
def execMemInit (s : State) : Host.Outcome State Fault Refusal :=
  s.within 3 (fun s => s.memInit)

/-- A STARTUP_ORDER packet is taken (R313). -/
def execStartupOrder (s : State) : Host.Outcome State Fault Refusal :=
  s.within 3 (fun s => s.startupOrder)

/-- The CHECK packet of a plain image is verified (R312). -/
def execCheck (s : State) : Host.Outcome State Fault Refusal :=
  s.within 3 (fun s => s.check)

/-- The tag of an encrypted image is verified (R312). -/
def execTag (s : State) : Host.Outcome State Fault Refusal :=
  s.within 3 (fun s => s.tag)

/-- A word of a chained payload is forwarded (R324). -/
def execChainNext (s : State) : Host.Outcome State Fault Refusal :=
  s.within 3 (fun s => s.chainNext)

/-- The CFGDONE net reads high (R326). -/
def execCfgdoneRise (s : State) : Host.Outcome State Fault Refusal :=
  s.devWithin 3 (fun d => d.cfgdoneRise)

/-- The net stays low for `CFG.TIMEOUT` (R326). -/
def execCfgSyncTimeout (s : State) : Host.Outcome State Fault Refusal :=
  s.within 3 (fun s => s.syncTimeout)

/-- Every PLL reports lock (R313). -/
def execStartupLock (s : State) : Host.Outcome State Fault Refusal :=
  s.devWithin 3 (fun d => d.stepLock)

/-- LOCK lasts over 1 ms (R313). -/
def execPllLockTimeout (s : State) : Host.Outcome State Fault Refusal :=
  s.within 3 (fun s => s.pllTimeout)

/-- The step OUTREL (R313). -/
def execStartupOutrel (s : State) : Host.Outcome State Fault Refusal :=
  s.devWithin 3 (fun d => d.stepOutrel)

/-- The step GSRREL (R243). -/
def execStartupGsrrel (s : State) : Host.Outcome State Fault Refusal :=
  s.devWithin 3 (fun d => d.fabricStepRow 2)

/-- The step WEN (R243). -/
def execStartupWen (s : State) : Host.Outcome State Fault Refusal :=
  s.devWithin 3 (fun d => d.fabricStepRow 3)

/-- The step ANAREL (R313). -/
def execStartupAnarel (s : State) : Host.Outcome State Fault Refusal :=
  s.devWithin 3 (fun d => d.stepAnarel)

/-- The step DONE, and what follows it at a start (R313, R352). -/
def execStartupDone (s : State) : Host.Outcome State Fault Refusal :=
  s.devWithin 3 (fun d => d.stepDoneRow.afterDone)

/-- Twenty microseconds after powering a region (R254). -/
def execRegionPowerUpDone (s : State) : Host.Outcome State Fault Refusal :=
  s.within 3 (fun s => s.regionPowerUp)

/-- A region completes its start-up (R254). -/
def execRegionStartupDone (n : Nat) (s : State) : Host.Outcome State Fault Refusal :=
  s.devWithin 3 (fun d => (d.startupDone n).partialSettle)

/-- The boot flash has been busy for 100 ms (R320). -/
def execGoldenFlashTimeout (s : State) : Host.Outcome State Fault Refusal :=
  s.within 3 (fun s => s.flashTimeout)

/-- A write of `CFG.RETRY` with CLR (R319). -/
def execCfgRetryClear (pth : Path) (v : Word) (s : State) : Host.Outcome State Fault Refusal :=
  .next (s.regWrite pth .CFG_RETRY 0 v)

/-- The next frame is checked: payload and check-word bits upset since, whether a correction does not hold, what the
RAM shows, and votes outvoted (R330, R334). -/
def execScrubFrameCheck (flip cwFlip : Nat) (hard : Bool) (ram : RamEcc) (votes : Nat) (s : State) :
    Host.Outcome State Fault Refusal :=
  s.devWithin 3 (fun d => d.scrubCheck flip cwFlip hard ram votes)

/-- SWEEP_LIMIT passes without a pulse (R335). -/
def execScrubWatchdogMiss (s : State) : Host.Outcome State Fault Refusal :=
  .next (let x := s.dev.scrubMiss; s.onDev (fun _ => if x.2 then x.1.warmAsk 3 x.1.now else x.1))

/-- A write of `SCB.CTRL` with RESTART (R336). -/
def execScrubRestart (pth : Path) (v : Word) (s : State) : Host.Outcome State Fault Refusal :=
  .next (s.regWrite pth .SCB_CTRL 0 v)

/-- A write of `SCB.CTRL.EN` (R336). -/
def execScrubEnable (pth : Path) (v : Word) (s : State) : Host.Outcome State Fault Refusal :=
  .next (s.regWrite pth .SCB_CTRL 0 v)

/-- A write of `SCB.INJECT` with GO (R340). -/
def execScrubInject (pth : Path) (v : Word) (s : State) : Host.Outcome State Fault Refusal :=
  .next (s.regWrite pth .SCB_INJECT 0 v)

/-- PROGN rises (R314). -/
def execPrognRise (s : State) : Host.Outcome State Fault Refusal :=
  s.devWithin 3 (fun d => d.prognRise)

end Sys2Proof.Machine
end

