-- ==== Sys2Proof/Machine/CmdFabric.lean ====
section
/-! DEFINITION. The meanings of the rows about the fabric, the line memory and snapshots: one definition per row. -/

namespace Sys2Proof.Machine

/-- The first SOL of a line of a head reaches its stream port (R236). -/
def execStreamLineArrival (h : Nat) (s : State) : Host.Outcome State Fault Refusal :=
  s.devWithin 4 (fun d => d.streamArrival h)

/-- An output port takes its next word into its queue (R238). -/
def execFabOutputWord (n p : Nat) (s : State) : Host.Outcome State Fault Refusal :=
  s.devWithin (34 + n) (fun d => d.soEnqueue n p)

/-- The signatures of a paired line are compared (R265). -/
def execPairedLineVerdict (n p : Nat) (s : State) : Host.Outcome State Fault Refusal :=
  s.devWithin (34 + n) (fun d => d.verdict n p)

/-- An event output of a region posts (R240). -/
def execFabEventOutput (n : Nat) (s : State) : Host.Outcome State Fault Refusal :=
  s.devWithin (34 + n) (fun d => d.eventOutput n)

/-- A requester issues its next bank request (R278). -/
def execMemPortRequest (who : Requester) (s : State) : Host.Outcome State Fault Refusal :=
  s.devWithin 2 (fun d => d.memRequest who)

/-- A cycle of a bank: which ports grant, and what the check bits of the words read show (R276). -/
def execMemRequestPerform (b : Nat) (p0 p1 : Bool) (e0 e1 : MemEcc) (s : State) : Host.Outcome State Fault Refusal :=
  s.within (26 + b) (fun s => s.bankCycle b p0 p1 e0 e1)

/-- A corrected word is written back (R282). -/
def execWritebackPerform (b : Nat) (s : State) : Host.Outcome State Fault Refusal :=
  s.devWithin (26 + b) (fun d => d.writeback b)

/-- A host access to a bank window (R274). -/
def execBankHostAccess (a : Access) (wr : Bool) (v : Word) (e : MemEcc) (s : State) :
    Host.Outcome State Fault Refusal :=
  .next (s.hostAccess a wr v.toNat e)

/-- A host access to a tile scratchpad (R286). -/
def execScratchpadHostAccess (a : Access) (wr : Bool) (v : Word) (e : MemEcc) (s : State) :
    Host.Outcome State Fault Refusal :=
  .next (s.hostAccess a wr v.toNat e)

/-- A write of `MEM.BCTRL` with MSTART (R290). -/
def execMarchStart (pth : Path) (b : Nat) (v : Word) (s : State) : Host.Outcome State Fault Refusal :=
  .next (s.regWrite pth .MEM_BCTRL b v)

/-- A write of `MEM.BCTRL` with MSTOP (R290). -/
def execMarchStop (pth : Path) (b : Nat) (v : Word) (s : State) : Host.Outcome State Fault Refusal :=
  .next (s.regWrite pth .MEM_BCTRL b v)

/-- A march ends: the rows that failed, the spares that cannot serve, and whether a column failed (R293). -/
def execMarchDone (b : Nat) (rows : List Nat) (bad : Nat) (col : Bool) (s : State) :
    Host.Outcome State Fault Refusal :=
  s.within (26 + b) (fun s => s.marchDone b rows bad col)

/-- A write of `FAB.SNAPCTRL` with ARM (R246). -/
def execSnapshotArm (pth : Path) (v : Word) (s : State) : Host.Outcome State Fault Refusal :=
  .next (s.regWrite pth .FAB_SNAPCTRL 0 v)

/-- A region copies its cells (R246). -/
def execSnapshotTake (n : Nat) (s : State) : Host.Outcome State Fault Refusal :=
  s.devWithin (34 + n) (fun d => d.snapTake n)

/-- A write of `FAB.SNAPCTRL` with RESUME (R247). -/
def execSnapshotResume (pth : Path) (v : Word) (s : State) : Host.Outcome State Fault Refusal :=
  .next (s.regWrite pth .FAB_SNAPCTRL 0 v)

/-- A write of `FAB.SNAPCTRL` with CANCEL (R246). -/
def execSnapshotCancel (pth : Path) (v : Word) (s : State) : Host.Outcome State Fault Refusal :=
  .next (s.regWrite pth .FAB_SNAPCTRL 0 v)

/-- A read of `FAB.SNAPDATA` (R248). -/
def execSnapdataRead (pth : Path) (s : State) : Host.Outcome State Fault Refusal :=
  .next (s.regRead pth .FAB_SNAPDATA 0)

/-- A write of `RGN.ISOLATE` (R260, R272). -/
def execRegionIsolate (pth : Path) (v : Word) (s : State) : Host.Outcome State Fault Refusal :=
  .next (s.regWrite pth .RGN_ISOLATE 0 v)

/-- An edge of a region clock, with the pad levels, the raw bits of the cuffs, and what the check bits of scratchpad
words show (R217). -/
def execWordCellCycle (n pads : Nat) (raw : List (Nat × Nat)) (errs : List (Nat × MemEcc)) (s : State) :
    Host.Outcome State Fault Refusal :=
  s.within (34 + n) (fun s => s.wordCellCycle n pads raw errs)

end Sys2Proof.Machine
end

