-- ==== Sys2Proof/Machine/CmdPackets.lean ====
section
/-! DEFINITION. The meanings of the rows about the command packets of Kweave: one definition per row. -/

namespace Sys2Proof.Machine

/-- A write of `SYS.KWIN` (R358). -/
def execKweaveWordWrite (pth : Path) (v : Word) (s : State) : Host.Outcome State Fault Refusal :=
  .next (s.regWrite pth .SYS_KWIN 0 v)

/-- A gap of more than 10 ms between packet words (R364). -/
def execKweaveWordTimeout (s : State) : Host.Outcome State Fault Refusal :=
  s.devWithin 2 (fun d => d.kwTimeout)

/-- A read of `SYS.KWOUT` (R358). -/
def execKweaveReplyRead (pth : Path) (s : State) : Host.Outcome State Fault Refusal :=
  .next (s.regRead pth .SYS_KWOUT 0)

/-- A write of `SYS.KWCTRL` with RESYNC (R364). -/
def execKweaveResync (pth : Path) (v : Word) (s : State) : Host.Outcome State Fault Refusal :=
  .next (s.regWrite pth .SYS_KWCTRL 0 v)

/-- A write of `SYS.KWCTRL` with FLUSH (R358). -/
def execKweaveFlush (pth : Path) (v : Word) (s : State) : Host.Outcome State Fault Refusal :=
  .next (s.regWrite pth .SYS_KWCTRL 0 v)

/-- Ten seconds without an accepted packet (R369). -/
def execSessionTimeout (s : State) : Host.Outcome State Fault Refusal :=
  .next (s.onDev (fun d => d.sessionTimeout))

/-- The packet NOP (R377). -/
def execNop (s : State) : Host.Outcome State Fault Refusal :=
  .next s.opNop

/-- The packet GET_INFO (R377). -/
def execGetInfo (s : State) : Host.Outcome State Fault Refusal :=
  .next s.opGetInfo

/-- The packet SOFT_RESET (R377). -/
def execSoftReset (s : State) : Host.Outcome State Fault Refusal :=
  .next s.opSoftReset

/-- The packet SESSION_UNLOCK (R377). -/
def execSessionUnlock (s : State) : Host.Outcome State Fault Refusal :=
  .next s.opUnlock

/-- The packet SESSION_LOCK (R377). -/
def execSessionLock (s : State) : Host.Outcome State Fault Refusal :=
  .next s.opLock

/-- The packet ABORT (R377). -/
def execAbort (s : State) : Host.Outcome State Fault Refusal :=
  .next s.opAbort

/-- The packet HANDLE_QUERY (R377). -/
def execHandleQuery (s : State) : Host.Outcome State Fault Refusal :=
  .next s.opHandleQuery

/-- The packet HANDLE_LIST (R377). -/
def execHandleList (s : State) : Host.Outcome State Fault Refusal :=
  .next s.opHandleList

/-- The packet KEY_LOAD (R377). -/
def execKeyLoad (s : State) : Host.Outcome State Fault Refusal :=
  .next s.opKeyLoad

/-- The packet KEY_ZERO (R377). -/
def execKeyZero (s : State) : Host.Outcome State Fault Refusal :=
  .next s.opKeyZero

/-- The packet ECHO (R377). -/
def execEcho (s : State) : Host.Outcome State Fault Refusal :=
  .next s.opEcho

/-- The packet PWR_STATE (R377). -/
def execPwrState (s : State) : Host.Outcome State Fault Refusal :=
  .next s.opPwrState

/-- The packet PWR_DOMAINS (R377). -/
def execPwrDomains (s : State) : Host.Outcome State Fault Refusal :=
  .next s.opPwrDomains

/-- The packet PWR_STATUS (R377). -/
def execPwrStatus (s : State) : Host.Outcome State Fault Refusal :=
  .next s.opPwrStatus

/-- The packet CFG_PROGRAM (R377). -/
def execCfgProgram (s : State) : Host.Outcome State Fault Refusal :=
  .next s.opCfgProgram

/-- The packet CFG_PARTIAL (R377). -/
def execCfgPartial (s : State) : Host.Outcome State Fault Refusal :=
  .next s.opCfgPartial

/-- The packet CFG_GOLDEN (R377). -/
def execCfgGolden (s : State) : Host.Outcome State Fault Refusal :=
  .next s.opCfgGolden

/-- The packet CFG_STATUS (R377). -/
def execCfgStatus (s : State) : Host.Outcome State Fault Refusal :=
  .next s.opCfgStatus

/-- The packet CAL_RUN (R377). -/
def execCalRun (s : State) : Host.Outcome State Fault Refusal :=
  .next s.opCalRun

/-- The packet CAL_STORE (R377). -/
def execCalStore (s : State) : Host.Outcome State Fault Refusal :=
  .next s.opCalStore

/-- The packet CAL_PART (R377). -/
def execCalPart (s : State) : Host.Outcome State Fault Refusal :=
  .next s.opCalPart

/-- The packet CAL_RESULT (R377). -/
def execCalResult (s : State) : Host.Outcome State Fault Refusal :=
  .next s.opCalResult

/-- The packet CAL_DUE (R377). -/
def execCalDue (s : State) : Host.Outcome State Fault Refusal :=
  .next s.opCalDue

/-- The packet REG_READ; what the check bits of each memory word it touches show (R377, R379, R381). -/
def execRegRead (e : List MemEcc) (s : State) : Host.Outcome State Fault Refusal :=
  .next (s.opRegRead e)

/-- The packet REG_WRITE; what the check bits of each memory word it touches show (R377, R379, R381). -/
def execRegWrite (e : List MemEcc) (s : State) : Host.Outcome State Fault Refusal :=
  .next (s.opRegWrite e)

/-- The packet REG_MASKWRITE; what the check bits of each memory word it touches show (R377, R379, R381). -/
def execRegMaskwrite (e : List MemEcc) (s : State) : Host.Outcome State Fault Refusal :=
  .next (s.opRegMaskwrite e)

/-- The packet REG_READBLOCK; what the check bits of each memory word it touches show (R377, R379, R381). -/
def execRegReadblock (e : List MemEcc) (s : State) : Host.Outcome State Fault Refusal :=
  .next (s.opRegReadblock e)

/-- The packet REG_WRITEBLOCK; what the check bits of each memory word it touches show (R377, R379, R381). -/
def execRegWriteblock (e : List MemEcc) (s : State) : Host.Outcome State Fault Refusal :=
  .next (s.opRegWriteblock e)

/-- The packet LTG_ARM (R377). -/
def execLtgArm (s : State) : Host.Outcome State Fault Refusal :=
  .next s.opLtgArm

/-- The packet LTG_DISARM (R377). -/
def execLtgDisarm (s : State) : Host.Outcome State Fault Refusal :=
  .next s.opLtgDisarm

/-- The packet LTG_POSLOAD (R377). -/
def execLtgPosload (s : State) : Host.Outcome State Fault Refusal :=
  .next s.opLtgPosload

/-- The packet LTG_SWTRIG (R377). -/
def execLtgSwtrig (s : State) : Host.Outcome State Fault Refusal :=
  .next s.opLtgSwtrig

/-- The packet LTG_SNAP (R377). -/
def execLtgSnap (s : State) : Host.Outcome State Fault Refusal :=
  .next s.opLtgSnap

/-- The packet LTG_TBLOAD (R377). -/
def execLtgTbload (s : State) : Host.Outcome State Fault Refusal :=
  .next s.opLtgTbload

/-- The packet LTG_STATUS (R377). -/
def execLtgStatus (s : State) : Host.Outcome State Fault Refusal :=
  .next s.opLtgStatus

/-- The packet ZLK_START (R377). -/
def execZlkStart (s : State) : Host.Outcome State Fault Refusal :=
  .next s.opZlkStart

/-- The packet ZLK_STATUS (R377). -/
def execZlkStatus (s : State) : Host.Outcome State Fault Refusal :=
  .next s.opZlkStatus

/-- The packet MEM_MARCH (R377). -/
def execMemMarch (s : State) : Host.Outcome State Fault Refusal :=
  .next s.opMemMarch

/-- The packet MEM_FILL (R377). -/
def execMemFill (s : State) : Host.Outcome State Fault Refusal :=
  .next s.opMemFill

/-- A fill is complete (R377). -/
def execMemFillDone (h : Nat) (s : State) : Host.Outcome State Fault Refusal :=
  s.devWithin 2 (fun d => d.fillDone h)

/-- The packet MEM_STATUS (R377). -/
def execMemStatus (s : State) : Host.Outcome State Fault Refusal :=
  .next s.opMemStatus

/-- The packet EVQ_CONFIG (R377). -/
def execEvqConfig (s : State) : Host.Outcome State Fault Refusal :=
  .next s.opEvqConfig

/-- The packet EVQ_STATUS (R377). -/
def execEvqStatus (s : State) : Host.Outcome State Fault Refusal :=
  .next s.opEvqStatus

/-- The packet TEL_READ (R377). -/
def execTelRead (s : State) : Host.Outcome State Fault Refusal :=
  .next s.opTelRead

/-- The packet TEL_CONFIG (R377). -/
def execTelConfig (s : State) : Host.Outcome State Fault Refusal :=
  .next s.opTelConfig

/-- The packet TEL_COUNTERS (R377). -/
def execTelCounters (s : State) : Host.Outcome State Fault Refusal :=
  .next s.opTelCounters

end Sys2Proof.Machine
end

