-- ==== Sys2Proof/Machine/CmdPins.lean ====
section
/-! DEFINITION. The meanings of the rows about event records, telemetry, pins and lanes: one definition per row. -/

namespace Sys2Proof.Machine

/-- A posted record of a source reaches the queue (R389). -/
def execEventRecordWrite (src : Nat) (s : State) : Host.Outcome State Fault Refusal :=
  .next (s.onDev (fun d => d.recordArrives src))

/-- A write of `EVQ.TAIL` (R390). -/
def execEvqTailWrite (pth : Path) (v : Word) (s : State) : Host.Outcome State Fault Refusal :=
  .next (s.regWrite pth .EVQ_TAIL 0 v)

/-- A write of `EVQ.CTRL.HOSTSLEEP` (R392). -/
def execEvqHostsleepWrite (pth : Path) (v : Word) (s : State) : Host.Outcome State Fault Refusal :=
  .next (s.regWrite pth .EVQ_CTRL 0 v)

/-- The critical section of a fallen level (R391). -/
def execLevelRevoke (s : State) : Host.Outcome State Fault Refusal :=
  .next (s.onDev (fun d => d.levelRevoke))

/-- The telemetry period elapses (R396). -/
def execTelemetryPeriod (s : State) : Host.Outcome State Fault Refusal :=
  .next (s.onDev (fun d => d.telPeriod))

/-- A write of `GPIO.CFG` (R400). -/
def execGpioCfgWrite (pth : Path) (p : Nat) (v : Word) (s : State) : Host.Outcome State Fault Refusal :=
  .next (s.regWrite pth .GPIO_CFG p v)

/-- The active claims of a PRIORITY pin change (R399). -/
def execGpioClaimChange (p : Nat) (s : State) : Host.Outcome State Fault Refusal :=
  s.devWithin 2 (fun d => d.padUpdate p)

/-- A masked write of `GPIO.MOUT` or `GPIO.MOE` (R401). -/
def execGpioMaskedWrite (pth : Path) (oe : Bool) (k : Nat) (v : Word) (s : State) :
    Host.Outcome State Fault Refusal :=
  .next (s.regWrite pth (maskedKind oe) k v)

/-- A write of `HCP.TWCMD` with GO (R406). -/
def execTwowireGo (pth : Path) (h : Nat) (v : Word) (s : State) : Host.Outcome State Fault Refusal :=
  .next (s.regWrite pth .HCP_TWCMD h v)

/-- A 2-wire transaction ends, with the bytes transferred and read (R406). -/
def execTwowireDone (h : Nat) (how : TwoWireEnd) (nbytes : Nat) (read : List Nat) (s : State) :
    Host.Outcome State Fault Refusal :=
  s.devWithin 4 (fun d => d.twEnd h (endCode how) nbytes read)

/-- The sensor holds HSCL low beyond TMO (R406). -/
def execTwowireTimeout (h nbytes : Nat) (s : State) : Host.Outcome State Fault Refusal :=
  s.devWithin 4 (fun d => d.twEnd h 3 nbytes [])

/-- The end of a framed packet of a source reaches its lane: output port 4n + p, or 64 + head (R410). -/
def execLanePacketStore (src : Nat) (s : State) : Host.Outcome State Fault Refusal :=
  s.devWithin 2 (fun d => d.packetStore src)

/-- Ten microseconds after the first word of a FREE packet (R412). -/
def execFreePacketTimeout (n p : Nat) (s : State) : Host.Outcome State Fault Refusal :=
  s.devWithin (34 + n) (fun d => d.freeTimeout n p)

/-- A lane starts sending its oldest packet (R410). -/
def execLanePacketSend (l : Nat) (s : State) : Host.Outcome State Fault Refusal :=
  s.devWithin (7 + l / 4) (fun d => d.packetSend l)

/-- A FLOW block on a return pair (R417). -/
def execLaneFlowBlock (r mask : Nat) (s : State) : Host.Outcome State Fault Refusal :=
  s.devWithin 2 (fun d => d.pairBlock r (some mask))

/-- A return pair has delivered no valid block for 1 µs (R417). -/
def execLaneRxLost (r : Nat) (s : State) : Host.Outcome State Fault Refusal :=
  s.devWithin 2 (fun d => d.pairLost r)

/-- A write of `LAN.CTRL.EN` (R420). -/
def execLaneEnable (pth : Path) (l : Nat) (v : Word) (s : State) : Host.Outcome State Fault Refusal :=
  .next (s.regWrite pth .LAN_CTRL l v)

/-- A lane has sent its 4,096 IDLE blocks (R420). -/
def execLaneTrainDone (l : Nat) (s : State) : Host.Outcome State Fault Refusal :=
  s.devWithin (7 + l / 4) (fun d => d.laneTrained l)

/-- The PLL of a quad locks (R420). -/
def execQuadLock (q : Nat) (s : State) : Host.Outcome State Fault Refusal :=
  s.devWithin (7 + q) (fun d => d.quadLock q)

/-- An IDLE block on a return pair (R417). -/
def execReturnPairIdle (r : Nat) (s : State) : Host.Outcome State Fault Refusal :=
  s.devWithin 2 (fun d => d.pairBlock r none)

end Sys2Proof.Machine
end

