-- ==== Sys2Proof/Machine/CmdPixel.lean ====
section
/-! DEFINITION. The meanings of the rows about pixel words, tables, line statistics and calibration: one definition per row. -/

namespace Sys2Proof.Machine

/-- Pixel `k` of line `num` of a channel, from its input balls to the PCU (R133). The balls are connected from ANAREL on (R89). -/
def execPixelWord (c num : Nat) (k : Int) (sample reset : Balls) (dev : Int) (s : State) :
    Host.Outcome State Fault Refusal :=
  .next (s.onDev (fun d =>
    if d.groupOn (c / 12) && d.live 4 && d.anx.released then d.pixelWord c num k sample reset dev else d))

/-- A write of `AFE.SCANCTRL` with START (R111). -/
def execAfeScanStart (pth : Path) (v : Word) (s : State) : Host.Outcome State Fault Refusal :=
  .next (s.regWrite pth .AFE_SCANCTRL 0 v)

/-- A write of `AFE.SCANCTRL` with STOP (R111). -/
def execAfeScanStop (pth : Path) (v : Word) (s : State) : Host.Outcome State Fault Refusal :=
  .next (s.regWrite pth .AFE_SCANCTRL 0 v)

/-- A read of `AFE.SCANDATA` (R111). -/
def execAfeScandataRead (pth : Path) (s : State) : Host.Outcome State Fault Refusal :=
  .next (s.regRead pth .AFE_SCANDATA 0)

/-- The fetch of a channel takes its next entries (R129, R131). -/
def execTableEntryFetch (c : Nat) (err : TableEcc) (s : State) : Host.Outcome State Fault Refusal :=
  .next (s.onDev (fun d => if d.groupOn (c / 12) then d.fetchEntry c err else d))

/-- A write of a PCT target entry, or of the four PTT target entries from `i` (R127, R128). -/
def execTableTargetWrite (pth : Path) (pct : Bool) (i : Nat) (v : Word) (s : State) :
    Host.Outcome State Fault Refusal :=
  .next (s.pathWrite pth (tableAddr pct i) v.toNat .clean)

/-- A waiting table write of a group proceeds (R128). -/
def execTableWriteResume (g : Nat) (s : State) : Host.Outcome State Fault Refusal :=
  .next (if s.dev.tableOpen (12288 * g) then (s.onDev (fun d => d.tableResume g)).owedReply else s)

/-- A write of `PCU.TSYNC` (R130). -/
def execTsyncCopy (pth : Path) (v : Word) (s : State) : Host.Outcome State Fault Refusal :=
  .next (s.regWrite pth .PCU_TSYNC 0 v)

/-- The copy of a head ends (R130); `errs` tells the target entries of the group in which it found errors (R131). -/
def execTsyncCopyDone (h : Nat) (errs : List (Nat × TableEcc)) (s : State) : Host.Outcome State Fault Refusal :=
  .next (s.onDev (fun d => if d.live 2 then d.tsyncDone h errs else d))

/-- A read of `PCU.STLINE` (R138). -/
def execStatsLatchRead (pth : Path) (h : Nat) (s : State) : Host.Outcome State Fault Refusal :=
  .next (s.regRead pth .PCU_STLINE h)

/-- A write of `PCU.HSEL` with LATCH (R138). -/
def execHistogramLatch (pth : Path) (v : Word) (s : State) : Host.Outcome State Fault Refusal :=
  .next (s.regWrite pth .PCU_HSEL 0 v)

/-- A read of `PCU.HDATA` (R138). -/
def execHistogramRead (pth : Path) (s : State) : Host.Outcome State Fault Refusal :=
  .next (s.regRead pth .PCU_HDATA 0)

/-- A write of `PCU.LWCTRL` with EN (R141). -/
def execLineWriterEnable (pth : Path) (h : Nat) (v : Word) (s : State) : Host.Outcome State Fault Refusal :=
  .next (s.regWrite pth .PCU_LWCTRL h v)

/-- The comparison of a fired line, in 1/16 LSB, and the gain difference it shows (R118). -/
def execMittenLineResult (g : Nat) (mean : Int) (rms peak : Nat) (gdiff : Int) (s : State) :
    Host.Outcome State Fault Refusal :=
  s.calRow (fun d => if d.groupOn g then d.mitLine g mean rms peak gdiff else d)

/-- A phase has lasted MAXLN fired lines (R122). -/
def execMittenMaxlnExpiry (g : Nat) (s : State) : Host.Outcome State Fault Refusal :=
  s.calRow (fun d => if d.groupOn g then d.mitMaxln g else d)

/-- The reference calibration of the covered slice ends with these coefficients (R121). -/
def execSliceRefCalDone (g : Nat) (ok : Bool) (ofs gain apt : Int) (resid spur : Nat) (s : State) :
    Host.Outcome State Fault Refusal :=
  s.calRow (fun d => if d.groupOn g then d.sliceRefDone g ok ⟨ofs, gain, apt⟩ resid spur else d)

/-- A set of conversions of the ladder while the head fires no line (R123). -/
def execMittenIdleHandover (g : Nat) (mean : Int) (rms peak : Nat) (s : State) : Host.Outcome State Fault Refusal :=
  s.calRow (fun d => if d.groupOn g then d.mitIdleSet g mean rms peak else d)

/-- One step of an AFE calibration in a usable gap (R146). -/
def execAfeCalStep (h : Nat) (s : State) : Host.Outcome State Fault Refusal :=
  s.calRow (fun d => if d.groupOn (groupOf h) then d.afeStep h else d)

/-- The firmware reads the die sensors (R157). -/
def execCalTempPoll (s : State) : Host.Outcome State Fault Refusal :=
  .next (if s.dev.managementOn then s.onDev (fun d => d.calPoll.startSettle) else s)

/-- The distance of each part is computed (R163). -/
def execCalContextCheck (s : State) : Host.Outcome State Fault Refusal :=
  s.calRow (fun d => d.secondPasses)

/-- The live copy of a learning head equals its target (R148). -/
def execLearnMeasureStart (h : Nat) (s : State) : Host.Outcome State Fault Refusal :=
  s.calRow (fun d => d.learnStart h)

/-- The measured lines of a learn are complete (R150). -/
def execLearnMeasureDone (h : Nat) (s : State) : Host.Outcome State Fault Refusal :=
  s.calRow (fun d => d.learnDone h)

/-- A learning head has fired no line for 1 s (R148). -/
def execLearnNoLinesTimeout (h : Nat) (s : State) : Host.Outcome State Fault Refusal :=
  s.calRow (fun d => d.learnTimeout h)

/-- A calibration item has measured what it needs (R158). -/
def execCalItemComplete (kind item : Nat) (m : CalMeas) (s : State) : Host.Outcome State Fault Refusal :=
  s.calRow (fun d => d.itemMeasured kind item m)

/-- A store has been written and read back, or a flash error or mismatch is found (R168, R172). -/
def execCalStoreDone (ok : Bool) (s : State) : Host.Outcome State Fault Refusal :=
  s.calRow (fun d => d.storeDone ok)

/-- MININT passes (R170). -/
def execCalStoreInterval (s : State) : Host.Outcome State Fault Refusal :=
  s.calRow (fun d => d.storeInterval)

end Sys2Proof.Machine
end

