-- ==== Sys2Proof/Machine/CmdPower.lean ====
section
/-! DEFINITION. The meanings of the rows about power, reset, clocks and test: one definition per row. -/

namespace Sys2Proof.Machine

/-- PORN is recognised low (R347). -/
def execPorAssert (s : State) : Host.Outcome State Fault Refusal :=
  .next s.porAssert

/-- PORN rises: the level of HPSEL, whether the BBRAM check passes, and how often the reference, a PLL and the boot
fail (R351). -/
def execColdStart (hpsel bbramOk : Bool) (refFails pllFails bootFails : Nat) (s : State) :
    Host.Outcome State Fault Refusal :=
  .next (s.coldStart hpsel bbramOk refFails pllFails bootFails)

/-- RSTN is recognised low (R347). -/
def execRstnAssert (s : State) : Host.Outcome State Fault Refusal :=
  .next (s.onDev (fun d => d.rstnAssert))

/-- RSTN has risen, or a requested warm start is due (R353). -/
def execWarmStart (s : State) : Host.Outcome State Fault Refusal :=
  .next s.warmStart

/-- The two cores of the management controller disagree (R353). -/
def execLockstepMismatch (s : State) : Host.Outcome State Fault Refusal :=
  .next s.lockstep

/-- A warning: PFAILN (1), the supervisor of VCORE (2) or of VANA (3) (R354). -/
def execPowerFailWarning (src : Nat) (s : State) : Host.Outcome State Fault Refusal :=
  .next (s.powerFail src)

/-- A millisecond after the warnings clear (R355). -/
def execPfailRecovery (s : State) : Host.Outcome State Fault Refusal :=
  .next s.pfailRecovery

/-- A write of `PWR.REQ` (R348). -/
def execPowerStateRequest (pth : Path) (v : Word) (s : State) : Host.Outcome State Fault Refusal :=
  .next (s.regWrite pth .PWR_REQ 0 v)

/-- The present power transition completes (R348). -/
def execPowerTransitionDone (s : State) : Host.Outcome State Fault Refusal :=
  .next s.transitionDone

/-- A write of `PWR.DOMEN` that clears GRP bits (R345). -/
def execGroupPowerDown (pth : Path) (v : Word) (s : State) : Host.Outcome State Fault Refusal :=
  .next (s.regWrite pth .PWR_DOMEN 0 v)

/-- A write of `PWR.DOMEN` that sets GRP bits (R345). -/
def execGroupPowerUp (pth : Path) (v : Word) (s : State) : Host.Outcome State Fault Refusal :=
  .next (s.regWrite pth .PWR_DOMEN 0 v)

/-- The reload of a group is complete (R345). -/
def execGroupReloadDone (g : Nat) (s : State) : Host.Outcome State Fault Refusal :=
  s.devWithin 2 (fun d => d.groupReloaded g)

/-- A write of `PWR.DOMEN` that clears MEM bits (R345). -/
def execBankPowerDown (pth : Path) (v : Word) (s : State) : Host.Outcome State Fault Refusal :=
  .next (s.regWrite pth .PWR_DOMEN 0 v)

/-- A write of `PWR.DOMEN` that sets MEM bits (R345). -/
def execBankPowerUp (pth : Path) (v : Word) (s : State) : Host.Outcome State Fault Refusal :=
  .next (s.regWrite pth .PWR_DOMEN 0 v)

/-- A write of `PWR.DOMEN` that changes SER bits (R345). -/
def execLaneQuadPower (pth : Path) (v : Word) (s : State) : Host.Outcome State Fault Refusal :=
  .next (s.regWrite pth .PWR_DOMEN 0 v)

/-- The edge of a wake-enabled capture source in SLEEP (R61). -/
def execWakeCapture (k : Nat) (rising : Bool) (s : State) : Host.Outcome State Fault Refusal :=
  .next (s.onDev (fun d => d.wakeCapture k rising))

/-- The crown loses both ring inputs (R349). -/
def execWakeRingLoss (s : State) : Host.Outcome State Fault Refusal :=
  .next (s.onDev (fun d => if d.on PWR_WAKECFG_RLOSS 0 then d.wakeBegins 2 else d))

/-- A LINE message of a master head arrives in SLEEP (R349). -/
def execWakeRingLine (head : Nat) (s : State) : Host.Outcome State Fault Refusal :=
  .next (s.onDev (fun d => if d.on PWR_WAKECFG_RLINE 0 = true ∧ d.rf PWR_WAKECFG_RHEAD 0 = head then d.wakeBegins 3 else d))

/-- A chip select of the host port in SLEEP (R349). -/
def execWakeHost (s : State) : Host.Outcome State Fault Refusal :=
  .next (s.onDev (fun d => d.wakeBegins 4))

/-- The wake sequence reaches HOLD (R350). -/
def execWakeDone (s : State) : Host.Outcome State Fault Refusal :=
  .next s.wakeDone

/-- REFCLK has been absent for 400 ns (R357). -/
def execRefclkLost (s : State) : Host.Outcome State Fault Refusal :=
  .next (s.onDev (fun d => d.refclkLost))

/-- A PLL loses lock (R357). -/
def execPllLockLost (i : Nat) (s : State) : Host.Outcome State Fault Refusal :=
  .next (s.onDev (fun d => d.pllLost i))

/-- REFCLK has been back for 1 ms and the PLLs have relocked (R357). -/
def execHoldoverEnd (s : State) : Host.Outcome State Fault Refusal :=
  .next (s.onDev (fun d => d.holdoverEnd))

/-- TESTEN is high (R453). -/
def execTestenAssert (s : State) : Host.Outcome State Fault Refusal :=
  .next s.testen

/-- Update-DR of REGACC (R453). -/
def execJtagRegacc (dr : BitVec 66) (e : MemEcc) (s : State) : Host.Outcome State Fault Refusal :=
  .next (s.regacc dr e)

/-- REFCLK is present again (R357). -/
def execRefclkReturn (s : State) : Host.Outcome State Fault Refusal :=
  .next (s.onDev (fun d => d.refclkReturn))

/-- VBAT is lost while VAUX is absent (R437). -/
def execVbatLoss (s : State) : Host.Outcome State Fault Refusal :=
  .next (s.onDev (fun d => d.vbatLoss))

/-- A rail set is due; the lane rail reads `ser12` steps of 10 mV (R434). -/
def execRailSet (ser12 : Nat) (s : State) : Host.Outcome State Fault Refusal :=
  s.devWithin 5 (fun d => d.railDue ser12)

/-- No temperature set for 300 ms (R434). -/
def execTemperatureSetTimeout (s : State) : Host.Outcome State Fault Refusal :=
  s.devWithin 2 (fun d => d.tempStale)

/-- An Update-IR loads EXTEST, or ends it (R453). -/
def execExtestInstruction (on_ : Bool) (s : State) : Host.Outcome State Fault Refusal :=
  .next (s.onDev (fun d => if on_ then d.setGpio (fun g => { g with extest := true }) else if d.gpio.extest then d.extestEnds else d))

end Sys2Proof.Machine
end

