-- ==== Sys2Proof/Machine/CmdTiming.lean ====
section
/-! DEFINITION. The meanings of the rows about encoders, the timebase, triggers, captures and the Zoras ring: one definition per row. -/

namespace Sys2Proof.Machine

/-- A write on either path, checked and applied or refused as a whole (R458); an SPI READ instruction reads (R296). -/
def execRegisterWrite (a : Access) (v : Word) (s : State) : Host.Outcome State Fault Refusal :=
  .next (s.hostAccess a true v.toNat .clean)

/-- A sample of the receivers of a port whose levels have been stable for `na`, `nb` and `nz` samples: the levels that the
filters then accept, with their timestamps (R31). -/
def execEncEdgeAccepted (p : Nat) (a b z : Bool) (na nb nz : Nat) (s : State) : Host.Outcome State Fault Refusal :=
  .next (s.onDev (fun d =>
    let x := d.encSample p a b z na nb nz
    if d.live 4 then d.encEdge p x.1.1 x.1.2.1 x.1.2.2 x.2.1 x.2.2 else d.encLevels p x.1.1 x.1.2.1 x.1.2.2))

/-- LOS begins on a port (R30). -/
def execEncLosBegin (p : Nat) (s : State) : Host.Outcome State Fault Refusal :=
  s.devWithin 4 (fun d => d.losBegin p)

/-- LOS ends on a port (R30). -/
def execEncLosEnd (p : Nat) (s : State) : Host.Outcome State Fault Refusal :=
  s.devWithin 4 (fun d => d.losEnd p)

/-- STALL ns have passed without a count (R40). -/
def execEncStall (p : Nat) (s : State) : Host.Outcome State Fault Refusal :=
  s.devWithin 4 (fun d => if d.stallDue p then d.encStall p else d)

/-- A write of `ENC.CTRL` (R36). -/
def execEncCtrlWrite (pth : Path) (p : Nat) (v : Word) (s : State) : Host.Outcome State Fault Refusal :=
  .next (s.regWrite pth .ENC_CTRL p v)

/-- A write of `ENC.POSSETH` with LOAD (R37). -/
def execEncPositionLoad (pth : Path) (p : Nat) (v : Word) (s : State) : Host.Outcome State Fault Refusal :=
  .next (s.regWrite pth .ENC_POSSETH p v)

/-- A read of `ENC.POS` (R427). -/
def execEncPosRead (pth : Path) (p : Nat) (s : State) : Host.Outcome State Fault Refusal :=
  .next (s.regRead pth .ENC_POS p)

/-- A read of `LTG.TB` (R42). -/
def execTbRead (pth : Path) (s : State) : Host.Outcome State Fault Refusal :=
  .next (s.regRead pth .LTG_TB 0)

/-- A write of `LTG.TBCTRL` with LOAD (R43). -/
def execTbLoad (pth : Path) (v : Word) (s : State) : Host.Outcome State Fault Refusal :=
  .next (s.regWrite pth .LTG_TBCTRL 0 v)

/-- An evaluation of the predictive rule (R50). -/
def execLtgEvaluate (h : Nat) (s : State) : Host.Outcome State Fault Refusal :=
  s.devWithin 4 (fun d => d.ltgEvaluate h)

/-- A TIMER LTG reaches its next issue instant (R44). -/
def execLtgTimerExpiry (h : Nat) (s : State) : Host.Outcome State Fault Refusal :=
  s.devWithin 4 (fun d => d.timerExpiry h)

/-- A held line reaches its issue instant (R56). -/
def execLtgDeferredIssue (h : Nat) (s : State) : Host.Outcome State Fault Refusal :=
  s.devWithin 4 (fun d => d.heldDue h)

/-- The coasting limit passes (R54). -/
def execLtgCoastExpiry (h : Nat) (s : State) : Host.Outcome State Fault Refusal :=
  s.devWithin 4 (fun d => if d.coastOver h then d.ltgStop h else d)

/-- A write of `LTG.CTRL` that sets ARM (R48). -/
def execLtgCtrlArm (pth : Path) (h : Nat) (v : Word) (s : State) : Host.Outcome State Fault Refusal :=
  .next (s.regWrite pth .LTG_CTRL h v)

/-- A write of `LTG.CTRL` that clears ARM (R54). -/
def execLtgCtrlDisarm (pth : Path) (h : Nat) (v : Word) (s : State) : Host.Outcome State Fault Refusal :=
  .next (s.regWrite pth .LTG_CTRL h v)

/-- A write of `LTG.CTRL` with SWT (R44). -/
def execLtgSwt (pth : Path) (h : Nat) (v : Word) (s : State) : Host.Outcome State Fault Refusal :=
  .next (s.regWrite pth .LTG_CTRL h v)

/-- TB reaches the boundary of the oldest issued line of a head (R91). -/
def execLineFire (h : Nat) (s : State) : Host.Outcome State Fault Refusal :=
  s.devWithin 4 (fun d => d.lineFire h)

/-- A scheduled strobe begins (R105). -/
def execStrobeStart (h : Nat) (s : State) : Host.Outcome State Fault Refusal :=
  s.devWithin 4 (fun d => d.strobeStart h)

/-- A strobe ends (R105). -/
def execStrobeEnd (h : Nat) (s : State) : Host.Outcome State Fault Refusal :=
  s.devWithin 4 (fun d => d.strobeEnd h)

/-- An edge of a capture source at TB `ts`, at every enabled unit that selects it (R59, R60). -/
def execCapture (src : Nat) (rising : Bool) (ts : Nat) (s : State) : Host.Outcome State Fault Refusal :=
  s.devWithin 4 (fun d => d.captureEdge src rising ts)

/-- A read of `ENC.CAPTS` (R60). -/
def execCaptureRead (pth : Path) (k : Nat) (s : State) : Host.Outcome State Fault Refusal :=
  .next (s.regRead pth .ENC_CAPTS k)

/-- A write of `ENC.CAPSTAT` with POP (R60). -/
def execCapturePop (pth : Path) (k : Nat) (v : Word) (s : State) : Host.Outcome State Fault Refusal :=
  .next (s.regWrite pth .ENC_CAPSTAT k v)

/-- The originator sends a superframe (R65). -/
def execZlkSuperframeSend (s : State) : Host.Outcome State Fault Refusal :=
  s.devWithin 4 (fun d => d.superframeNow)

/-- A superframe arrives on a ring at `at64` / 64 ns of own TB (R66). -/
def execZlkHeaderReceive (ring : Bool) (chars : List Nat) (at64 : Nat) (s : State) : Host.Outcome State Fault Refusal :=
  .next (s.onDev (fun d => if d.live 4 then d.headerReceive ring chars at64 else d.crownRepeat ring chars at64))

/-- The LINE message of slot `j` of the superframe on a ring has arrived (R78). -/
def execRingLine (ring : Bool) (j : Nat) (s : State) : Host.Outcome State Fault Refusal :=
  s.devWithin 4 (fun d => d.slotRow ring j (fun d m => match m with
    | .line head num fire pos => some (d.lineReceive head num fire pos)
    | _ => none))

/-- The ECHO of slot `j` has arrived (R67). -/
def execRingEcho (ring : Bool) (j : Nat) (s : State) : Host.Outcome State Fault Refusal :=
  s.devWithin 4 (fun d => d.slotRow ring j (fun d m => match m with
    | .echo target seq reply => some (d.echoReceive ring j target seq reply)
    | _ => none))

/-- The ECHO_REPLY of slot `j` has arrived at the master (R71). -/
def execEchoReply (ring : Bool) (j : Nat) (s : State) : Host.Outcome State Fault Refusal :=
  s.devWithin 4 (fun d => d.slotRow ring j (fun d m => match m with
    | .echoReply id seq turn => some (d.echoReply id seq turn ((d.ringIn ring).at64 + 64 * slotStart j))
    | _ => none))

/-- The OFFSET of slot `j` has arrived (R71). -/
def execRingOffset (ring : Bool) (j : Nat) (s : State) : Host.Outcome State Fault Refusal :=
  s.devWithin 4 (fun d => d.slotRow ring j (fun d m => match m with
    | .offset target r ofs => some (d.offsetReceive target r ofs)
    | _ => none))

/-- The START of slot `j` has arrived (R70). -/
def execRingStartMessage (ring : Bool) (j : Nat) (s : State) : Host.Outcome State Fault Refusal :=
  s.devWithin 4 (fun d => d.slotRow ring j (fun d m => match m with
    | .start tb lead => some (d.startReceive tb lead (d.slotDev ring j))
    | _ => none))

/-- Four superframe periods without a valid header (R68). -/
def execZlkInputLost (ring : Bool) (s : State) : Host.Outcome State Fault Refusal :=
  s.devWithin 4 (fun d => d.inputLost ring)

/-- Eight superframes without a valid header on the active ring (R74). -/
def execZlkLockLost (s : State) : Host.Outcome State Fault Refusal :=
  s.devWithin 4 (fun d => d.lockLost)

/-- DISCOVER lasts longer than STARTTMO (R72). -/
def execZlkStartTimeout (s : State) : Host.Outcome State Fault Refusal :=
  s.devWithin 4 (fun d => d.startTimeout)

/-- A write of `ZLK.CTRL` with START (R70). -/
def execZlkCtrlStart (pth : Path) (v : Word) (s : State) : Host.Outcome State Fault Refusal :=
  .next (s.regWrite pth .ZLK_CTRL 0 v)

/-- A read of `ZLK.RPOS` (R427). -/
def execZlkRposRead (pth : Path) (s : State) : Host.Outcome State Fault Refusal :=
  .next (s.regRead pth .ZLK_RPOS 0)

end Sys2Proof.Machine
end

