-- ==== Sys2Proof/Machine/Dispatch.lean ====
section
/-! DEFINITION. One arm per command, each one direct call of its meaning. -/

namespace Sys2Proof.Machine

def exec (i : Instr) (s : State) : Host.Outcome State Fault Refusal :=
  match i with
  | .registerWrite a v => Sys2Proof.Machine.execRegisterWrite a v s
  | .encEdgeAccepted p a b z na nb nz => Sys2Proof.Machine.execEncEdgeAccepted p a b z na nb nz s
  | .encLosBegin p => Sys2Proof.Machine.execEncLosBegin p s
  | .encLosEnd p => Sys2Proof.Machine.execEncLosEnd p s
  | .encStall p => Sys2Proof.Machine.execEncStall p s
  | .encCtrlWrite pth p v => Sys2Proof.Machine.execEncCtrlWrite pth p v s
  | .encPositionLoad pth p v => Sys2Proof.Machine.execEncPositionLoad pth p v s
  | .encPosRead pth p => Sys2Proof.Machine.execEncPosRead pth p s
  | .tbRead pth => Sys2Proof.Machine.execTbRead pth s
  | .tbLoad pth v => Sys2Proof.Machine.execTbLoad pth v s
  | .ltgEvaluate h => Sys2Proof.Machine.execLtgEvaluate h s
  | .ltgTimerExpiry h => Sys2Proof.Machine.execLtgTimerExpiry h s
  | .ltgDeferredIssue h => Sys2Proof.Machine.execLtgDeferredIssue h s
  | .ltgCoastExpiry h => Sys2Proof.Machine.execLtgCoastExpiry h s
  | .ltgCtrlArm pth h v => Sys2Proof.Machine.execLtgCtrlArm pth h v s
  | .ltgCtrlDisarm pth h v => Sys2Proof.Machine.execLtgCtrlDisarm pth h v s
  | .ltgSwt pth h v => Sys2Proof.Machine.execLtgSwt pth h v s
  | .lineFire h => Sys2Proof.Machine.execLineFire h s
  | .strobeStart h => Sys2Proof.Machine.execStrobeStart h s
  | .strobeEnd h => Sys2Proof.Machine.execStrobeEnd h s
  | .capture src rising ts => Sys2Proof.Machine.execCapture src rising ts s
  | .captureRead pth k => Sys2Proof.Machine.execCaptureRead pth k s
  | .capturePop pth k v => Sys2Proof.Machine.execCapturePop pth k v s
  | .zlkSuperframeSend => Sys2Proof.Machine.execZlkSuperframeSend s
  | .zlkHeaderReceive ring chars at64 => Sys2Proof.Machine.execZlkHeaderReceive ring chars at64 s
  | .ringLine ring j => Sys2Proof.Machine.execRingLine ring j s
  | .ringEcho ring j => Sys2Proof.Machine.execRingEcho ring j s
  | .echoReply ring j => Sys2Proof.Machine.execEchoReply ring j s
  | .ringOffset ring j => Sys2Proof.Machine.execRingOffset ring j s
  | .ringStartMessage ring j => Sys2Proof.Machine.execRingStartMessage ring j s
  | .zlkInputLost ring => Sys2Proof.Machine.execZlkInputLost ring s
  | .zlkLockLost => Sys2Proof.Machine.execZlkLockLost s
  | .zlkStartTimeout => Sys2Proof.Machine.execZlkStartTimeout s
  | .zlkCtrlStart pth v => Sys2Proof.Machine.execZlkCtrlStart pth v s
  | .zlkRposRead pth => Sys2Proof.Machine.execZlkRposRead pth s
  | .pixelWord c num k sample reset dev => Sys2Proof.Machine.execPixelWord c num k sample reset dev s
  | .afeScanStart pth v => Sys2Proof.Machine.execAfeScanStart pth v s
  | .afeScanStop pth v => Sys2Proof.Machine.execAfeScanStop pth v s
  | .afeScandataRead pth => Sys2Proof.Machine.execAfeScandataRead pth s
  | .tableEntryFetch c err => Sys2Proof.Machine.execTableEntryFetch c err s
  | .tableTargetWrite pth pct k v => Sys2Proof.Machine.execTableTargetWrite pth pct k v s
  | .tableWriteResume g => Sys2Proof.Machine.execTableWriteResume g s
  | .tsyncCopy pth v => Sys2Proof.Machine.execTsyncCopy pth v s
  | .tsyncCopyDone h errs => Sys2Proof.Machine.execTsyncCopyDone h errs s
  | .statsLatchRead pth h => Sys2Proof.Machine.execStatsLatchRead pth h s
  | .histogramLatch pth v => Sys2Proof.Machine.execHistogramLatch pth v s
  | .histogramRead pth => Sys2Proof.Machine.execHistogramRead pth s
  | .lineWriterEnable pth h v => Sys2Proof.Machine.execLineWriterEnable pth h v s
  | .mittenLineResult g mean rms peak gdiff => Sys2Proof.Machine.execMittenLineResult g mean rms peak gdiff s
  | .mittenMaxlnExpiry g => Sys2Proof.Machine.execMittenMaxlnExpiry g s
  | .sliceRefCalDone g ok ofs gain apt resid spur => Sys2Proof.Machine.execSliceRefCalDone g ok ofs gain apt resid spur s
  | .mittenIdleHandover g mean rms peak => Sys2Proof.Machine.execMittenIdleHandover g mean rms peak s
  | .afeCalStep h => Sys2Proof.Machine.execAfeCalStep h s
  | .calTempPoll => Sys2Proof.Machine.execCalTempPoll s
  | .calContextCheck => Sys2Proof.Machine.execCalContextCheck s
  | .learnMeasureStart h => Sys2Proof.Machine.execLearnMeasureStart h s
  | .learnMeasureDone h => Sys2Proof.Machine.execLearnMeasureDone h s
  | .learnNoLinesTimeout h => Sys2Proof.Machine.execLearnNoLinesTimeout h s
  | .calItemComplete kind item m => Sys2Proof.Machine.execCalItemComplete kind item m s
  | .calStoreDone ok => Sys2Proof.Machine.execCalStoreDone ok s
  | .calStoreInterval => Sys2Proof.Machine.execCalStoreInterval s
  | .aswSelectorWrite pth sel j v => Sys2Proof.Machine.execAswSelectorWrite pth sel j v s
  | .abusTrip b => Sys2Proof.Machine.execAbusTrip b s
  | .abusRelease pth high v => Sys2Proof.Machine.execAbusRelease pth high v s
  | .cacConfigWrite pth net n v => Sys2Proof.Machine.execCacConfigWrite pth net n v s
  | .cacSettled n ilim rail => Sys2Proof.Machine.execCacSettled n ilim rail s
  | .cacReset pth n v => Sys2Proof.Machine.execCacReset pth n v s
  | .cacResetEnd n => Sys2Proof.Machine.execCacResetEnd n s
  | .cmpDecision n vp vn => Sys2Proof.Machine.execCmpDecision n vp vn s
  | .cmpStart pth n v => Sys2Proof.Machine.execCmpStart pth n v s
  | .cmpClear pth n v => Sys2Proof.Machine.execCmpClear pth n v s
  | .cmpWakeTick n vp vn => Sys2Proof.Machine.execCmpWakeTick n vp vn s
  | .mcvRegularTrigger m => Sys2Proof.Machine.execMcvRegularTrigger m s
  | .mcvInjectedTrigger m => Sys2Proof.Machine.execMcvInjectedTrigger m s
  | .mcvGo pth m v => Sys2Proof.Machine.execMcvGo pth m v s
  | .mcvIgo pth m v => Sys2Proof.Machine.execMcvIgo pth m v s
  | .mcvEnable pth m v => Sys2Proof.Machine.execMcvEnable pth m v s
  | .mcvDelayExpiry m inj => Sys2Proof.Machine.execMcvDelayExpiry m inj s
  | .mcvConversionDone m v => Sys2Proof.Machine.execMcvConversionDone m v s
  | .mcvIdleExpiry m => Sys2Proof.Machine.execMcvIdleExpiry m s
  | .mcvHousekeeping => Sys2Proof.Machine.execMcvHousekeeping s
  | .mcvRidxWrite pth m v => Sys2Proof.Machine.execMcvRidxWrite pth m v s
  | .streamLineArrival h => Sys2Proof.Machine.execStreamLineArrival h s
  | .fabOutputWord n p => Sys2Proof.Machine.execFabOutputWord n p s
  | .pairedLineVerdict n p => Sys2Proof.Machine.execPairedLineVerdict n p s
  | .fabEventOutput n => Sys2Proof.Machine.execFabEventOutput n s
  | .memPortRequest who => Sys2Proof.Machine.execMemPortRequest who s
  | .memRequestPerform b p0 p1 e0 e1 => Sys2Proof.Machine.execMemRequestPerform b p0 p1 e0 e1 s
  | .writebackPerform b => Sys2Proof.Machine.execWritebackPerform b s
  | .bankHostAccess a wr v e => Sys2Proof.Machine.execBankHostAccess a wr v e s
  | .scratchpadHostAccess a wr v e => Sys2Proof.Machine.execScratchpadHostAccess a wr v e s
  | .marchStart pth b v => Sys2Proof.Machine.execMarchStart pth b v s
  | .marchStop pth b v => Sys2Proof.Machine.execMarchStop pth b v s
  | .marchDone b rows bad col => Sys2Proof.Machine.execMarchDone b rows bad col s
  | .snapshotArm pth v => Sys2Proof.Machine.execSnapshotArm pth v s
  | .snapshotTake n => Sys2Proof.Machine.execSnapshotTake n s
  | .snapshotResume pth v => Sys2Proof.Machine.execSnapshotResume pth v s
  | .snapshotCancel pth v => Sys2Proof.Machine.execSnapshotCancel pth v s
  | .snapdataRead pth => Sys2Proof.Machine.execSnapdataRead pth s
  | .regionIsolate pth v => Sys2Proof.Machine.execRegionIsolate pth v s
  | .progn => Sys2Proof.Machine.execProgn s
  | .cfgClearDone => Sys2Proof.Machine.execCfgClearDone s
  | .cfgWaitTimeout => Sys2Proof.Machine.execCfgWaitTimeout s
  | .cfgFifoWrite pth v => Sys2Proof.Machine.execCfgFifoWrite pth v s
  | .cfgWordTimeout => Sys2Proof.Machine.execCfgWordTimeout s
  | .imageHeader => Sys2Proof.Machine.execImageHeader s
  | .frameWrite => Sys2Proof.Machine.execFrameWrite s
  | .frameRepeat => Sys2Proof.Machine.execFrameRepeat s
  | .regionBegin => Sys2Proof.Machine.execRegionBegin s
  | .regionEnd => Sys2Proof.Machine.execRegionEnd s
  | .memInit => Sys2Proof.Machine.execMemInit s
  | .startupOrder => Sys2Proof.Machine.execStartupOrder s
  | .check => Sys2Proof.Machine.execCheck s
  | .tag => Sys2Proof.Machine.execTag s
  | .chainNext => Sys2Proof.Machine.execChainNext s
  | .cfgdoneRise => Sys2Proof.Machine.execCfgdoneRise s
  | .cfgSyncTimeout => Sys2Proof.Machine.execCfgSyncTimeout s
  | .startupLock => Sys2Proof.Machine.execStartupLock s
  | .pllLockTimeout => Sys2Proof.Machine.execPllLockTimeout s
  | .startupOutrel => Sys2Proof.Machine.execStartupOutrel s
  | .startupGsrrel => Sys2Proof.Machine.execStartupGsrrel s
  | .startupWen => Sys2Proof.Machine.execStartupWen s
  | .startupAnarel => Sys2Proof.Machine.execStartupAnarel s
  | .startupDone => Sys2Proof.Machine.execStartupDone s
  | .regionPowerUpDone => Sys2Proof.Machine.execRegionPowerUpDone s
  | .regionStartupDone n => Sys2Proof.Machine.execRegionStartupDone n s
  | .goldenFlashTimeout => Sys2Proof.Machine.execGoldenFlashTimeout s
  | .cfgRetryClear pth v => Sys2Proof.Machine.execCfgRetryClear pth v s
  | .scrubFrameCheck flip cwFlip hard ram votes => Sys2Proof.Machine.execScrubFrameCheck flip cwFlip hard ram votes s
  | .scrubWatchdogMiss => Sys2Proof.Machine.execScrubWatchdogMiss s
  | .scrubRestart pth v => Sys2Proof.Machine.execScrubRestart pth v s
  | .scrubEnable pth v => Sys2Proof.Machine.execScrubEnable pth v s
  | .scrubInject pth v => Sys2Proof.Machine.execScrubInject pth v s
  | .porAssert => Sys2Proof.Machine.execPorAssert s
  | .coldStart hpsel bbramOk refFails pllFails bootFails => Sys2Proof.Machine.execColdStart hpsel bbramOk refFails pllFails bootFails s
  | .rstnAssert => Sys2Proof.Machine.execRstnAssert s
  | .warmStart => Sys2Proof.Machine.execWarmStart s
  | .lockstepMismatch => Sys2Proof.Machine.execLockstepMismatch s
  | .powerFailWarning src => Sys2Proof.Machine.execPowerFailWarning src s
  | .pfailRecovery => Sys2Proof.Machine.execPfailRecovery s
  | .powerStateRequest pth v => Sys2Proof.Machine.execPowerStateRequest pth v s
  | .powerTransitionDone => Sys2Proof.Machine.execPowerTransitionDone s
  | .groupPowerDown pth v => Sys2Proof.Machine.execGroupPowerDown pth v s
  | .groupPowerUp pth v => Sys2Proof.Machine.execGroupPowerUp pth v s
  | .groupReloadDone g => Sys2Proof.Machine.execGroupReloadDone g s
  | .bankPowerDown pth v => Sys2Proof.Machine.execBankPowerDown pth v s
  | .bankPowerUp pth v => Sys2Proof.Machine.execBankPowerUp pth v s
  | .laneQuadPower pth v => Sys2Proof.Machine.execLaneQuadPower pth v s
  | .wakeCapture k rising => Sys2Proof.Machine.execWakeCapture k rising s
  | .wakeRingLoss => Sys2Proof.Machine.execWakeRingLoss s
  | .wakeRingLine head => Sys2Proof.Machine.execWakeRingLine head s
  | .wakeHost => Sys2Proof.Machine.execWakeHost s
  | .wakeDone => Sys2Proof.Machine.execWakeDone s
  | .refclkLost => Sys2Proof.Machine.execRefclkLost s
  | .pllLockLost j => Sys2Proof.Machine.execPllLockLost j s
  | .holdoverEnd => Sys2Proof.Machine.execHoldoverEnd s
  | .testenAssert => Sys2Proof.Machine.execTestenAssert s
  | .jtagRegacc dr e => Sys2Proof.Machine.execJtagRegacc dr e s
  | .kweaveWordWrite pth v => Sys2Proof.Machine.execKweaveWordWrite pth v s
  | .kweaveWordTimeout => Sys2Proof.Machine.execKweaveWordTimeout s
  | .kweaveReplyRead pth => Sys2Proof.Machine.execKweaveReplyRead pth s
  | .kweaveResync pth v => Sys2Proof.Machine.execKweaveResync pth v s
  | .kweaveFlush pth v => Sys2Proof.Machine.execKweaveFlush pth v s
  | .sessionTimeout => Sys2Proof.Machine.execSessionTimeout s
  | .nop => Sys2Proof.Machine.execNop s
  | .getInfo => Sys2Proof.Machine.execGetInfo s
  | .softReset => Sys2Proof.Machine.execSoftReset s
  | .sessionUnlock => Sys2Proof.Machine.execSessionUnlock s
  | .sessionLock => Sys2Proof.Machine.execSessionLock s
  | .abort => Sys2Proof.Machine.execAbort s
  | .handleQuery => Sys2Proof.Machine.execHandleQuery s
  | .handleList => Sys2Proof.Machine.execHandleList s
  | .keyLoad => Sys2Proof.Machine.execKeyLoad s
  | .keyZero => Sys2Proof.Machine.execKeyZero s
  | .echo => Sys2Proof.Machine.execEcho s
  | .pwrState => Sys2Proof.Machine.execPwrState s
  | .pwrDomains => Sys2Proof.Machine.execPwrDomains s
  | .pwrStatus => Sys2Proof.Machine.execPwrStatus s
  | .cfgProgram => Sys2Proof.Machine.execCfgProgram s
  | .cfgPartial => Sys2Proof.Machine.execCfgPartial s
  | .cfgGolden => Sys2Proof.Machine.execCfgGolden s
  | .cfgStatus => Sys2Proof.Machine.execCfgStatus s
  | .calRun => Sys2Proof.Machine.execCalRun s
  | .calStore => Sys2Proof.Machine.execCalStore s
  | .calPart => Sys2Proof.Machine.execCalPart s
  | .calResult => Sys2Proof.Machine.execCalResult s
  | .calDue => Sys2Proof.Machine.execCalDue s
  | .regRead e => Sys2Proof.Machine.execRegRead e s
  | .regWrite e => Sys2Proof.Machine.execRegWrite e s
  | .regMaskwrite e => Sys2Proof.Machine.execRegMaskwrite e s
  | .regReadblock e => Sys2Proof.Machine.execRegReadblock e s
  | .regWriteblock e => Sys2Proof.Machine.execRegWriteblock e s
  | .ltgArm => Sys2Proof.Machine.execLtgArm s
  | .ltgDisarm => Sys2Proof.Machine.execLtgDisarm s
  | .ltgPosload => Sys2Proof.Machine.execLtgPosload s
  | .ltgSwtrig => Sys2Proof.Machine.execLtgSwtrig s
  | .ltgSnap => Sys2Proof.Machine.execLtgSnap s
  | .ltgTbload => Sys2Proof.Machine.execLtgTbload s
  | .ltgStatus => Sys2Proof.Machine.execLtgStatus s
  | .zlkStart => Sys2Proof.Machine.execZlkStart s
  | .zlkStatus => Sys2Proof.Machine.execZlkStatus s
  | .memMarch => Sys2Proof.Machine.execMemMarch s
  | .memFill => Sys2Proof.Machine.execMemFill s
  | .memFillDone h => Sys2Proof.Machine.execMemFillDone h s
  | .memStatus => Sys2Proof.Machine.execMemStatus s
  | .evqConfig => Sys2Proof.Machine.execEvqConfig s
  | .evqStatus => Sys2Proof.Machine.execEvqStatus s
  | .telRead => Sys2Proof.Machine.execTelRead s
  | .telConfig => Sys2Proof.Machine.execTelConfig s
  | .telCounters => Sys2Proof.Machine.execTelCounters s
  | .eventRecordWrite src => Sys2Proof.Machine.execEventRecordWrite src s
  | .evqTailWrite pth v => Sys2Proof.Machine.execEvqTailWrite pth v s
  | .evqHostsleepWrite pth v => Sys2Proof.Machine.execEvqHostsleepWrite pth v s
  | .levelRevoke => Sys2Proof.Machine.execLevelRevoke s
  | .telemetryPeriod => Sys2Proof.Machine.execTelemetryPeriod s
  | .gpioCfgWrite pth p v => Sys2Proof.Machine.execGpioCfgWrite pth p v s
  | .gpioClaimChange p => Sys2Proof.Machine.execGpioClaimChange p s
  | .gpioMaskedWrite pth oe k v => Sys2Proof.Machine.execGpioMaskedWrite pth oe k v s
  | .twowireGo pth h v => Sys2Proof.Machine.execTwowireGo pth h v s
  | .twowireDone h how nbytes read => Sys2Proof.Machine.execTwowireDone h how nbytes read s
  | .twowireTimeout h nbytes => Sys2Proof.Machine.execTwowireTimeout h nbytes s
  | .lanePacketStore src => Sys2Proof.Machine.execLanePacketStore src s
  | .freePacketTimeout n p => Sys2Proof.Machine.execFreePacketTimeout n p s
  | .lanePacketSend l => Sys2Proof.Machine.execLanePacketSend l s
  | .laneFlowBlock r mask => Sys2Proof.Machine.execLaneFlowBlock r mask s
  | .laneRxLost r => Sys2Proof.Machine.execLaneRxLost r s
  | .laneEnable pth l v => Sys2Proof.Machine.execLaneEnable pth l v s
  | .laneTrainDone l => Sys2Proof.Machine.execLaneTrainDone l s
  | .quadLock q => Sys2Proof.Machine.execQuadLock q s
  | .wordCellCycle n pads raw errs => Sys2Proof.Machine.execWordCellCycle n pads raw errs s
  | .returnPairIdle r => Sys2Proof.Machine.execReturnPairIdle r s
  | .prognRise => Sys2Proof.Machine.execPrognRise s
  | .refclkReturn => Sys2Proof.Machine.execRefclkReturn s
  | .vbatLoss => Sys2Proof.Machine.execVbatLoss s
  | .railSet ser12 => Sys2Proof.Machine.execRailSet ser12 s
  | .temperatureSetTimeout => Sys2Proof.Machine.execTemperatureSetTimeout s
  | .extestInstruction on_ => Sys2Proof.Machine.execExtestInstruction on_ s

end Sys2Proof.Machine
end

