-- ==== Sys2Proof/Machine/Time.lean ====
section
/-! DEFINITION. The passing of time: one ns while no command waits (assumption log 10). -/

namespace Sys2Proof.Machine

/-- One ns passes; conversions of the monitor converters come to their sample instants (R200, R201), and disabled lanes to the end of
the packet on their wire (R420). TB advances by 1 per ns while PD_TIM runs (R41), in steps of 40 ns while the crown keeps it (R26),
and stands still while the device is off, starting its supplies, or held in reset. -/
def Dev.tick (d : Dev) : Dev :=
  let d := (({ d with now := d.now + 1, sets := [] } : Dev).mcvSample 0).mcvSample 1
  let d := (List.range 12).foldl (fun d l => d.laneEnds l) d
  match d.pwr.st with
  | .starting => { d with tb := d.tb + 1 }
  | .run => { d with tb := d.tb + 1 }
  | .hold => { d with tb := d.tb + 1 }
  | .nap => { d with tb := d.tb + 1 }
  | .sleep => if d.now % 40 = 0 then { d with tb := d.tb + 40 } else d
  | .waking => if d.now % 40 = 0 then { d with tb := d.tb + 40 } else d
  | .off => d
  | .held => d
  | .cold => d
  | .halted => d
  | .pfhold => d

end Sys2Proof.Machine
end

