-- ==== Sys2Proof/Safety.lean ====
section
/-! DEFINITION. What counts as a safe state of the block, when it takes an access or a packet, and what a command leaves
alone: the terms statements use. -/

namespace Sys2Proof.Machine

/-- The working memory is in its canonical form: equal contents are equal data. -/
def State.memWf (s : State) : Prop := Memory.wf s.mem = true

/-- A step that completes. -/
def State.completes (s : State) : Prop := ∃ t, step s = .next t

/-! What a command leaves alone -/

/-- Neither the working memory nor the queue of commands changes. -/
def State.sameStore (s t : State) : Prop := t.mem = s.mem ∧ t.pending = s.pending

/-- Every register outside the list keeps its value (no register has 65,536 elements). -/
def Dev.onlyRegs (d d' : Dev) (l : List (RegKind × Nat)) : Prop :=
  ∀ k i, i < 65536 → (k, i) ∉ l → d'.rreg k i = d.rreg k i

/-- Nothing but the registers of the list, and device state outside the register map, changes. -/
def State.onlyRegs (s t : State) (l : List (RegKind × Nat)) : Prop := s.sameStore t ∧ s.dev.onlyRegs t.dev l

/-- The registers of the listed blocks of the map keep their values. -/
def Dev.keepsBlocks (d d' : Dev) (l : List Nat) : Prop := ∀ k i, i < 65536 → blockOf k ∈ l → d'.rreg k i = d.rreg k i

/-- The blocks that the start or the failure of a full load leaves alone: power and clocks, memory, the event queue, encoders
and LTGs, the ring, the pixel path, calibration, monitor converters, temperature. -/
def loadKeeps : List Nat := [0x01, 0x02, 0x05, 0x06, 0x09, 0x0A, 0x0B, 0x0C, 0x0D, 0x0E, 0x0F, 0x13, 0x17]

/-- Every byte outside the `n` bytes at `a` is as before. -/
def State.bytesKept (s t : State) (a n : Nat) : Prop := ∀ x, (x < a ∨ a + n ≤ x) → memByte t.mem x = memByte s.mem x

/-- Of the memory, only the scratchpads may change. -/
def State.keepsBanks (s t : State) : Prop := t.pending = s.pending ∧ s.bytesKept t (spAddr 0 0) 0x100000

/-- The blocks whose settings stay through every reset but a power-up: clocks, the watchdogs, pins, heads, encoders and LTGs, the
ring, the pixel path, calibration, analogue cells and switches, comparators, lanes, temperature. -/
def settingBlocks : List Nat := [0x02, 0x07, 0x08, 0x09, 0x0A, 0x0B, 0x0C, 0x0D, 0x0E, 0x10, 0x11, 0x12, 0x16, 0x17]

/-- The fields that the host sets in those blocks keep their values, but for those that a warm start clears (R353), those that
device frames hold where the configuration is cleared, which return to reset (R308), and the counters where the domain has
lost its power (R431). -/
def State.settingsKept (s t : State) (cleared lost : Bool) : Prop :=
  ∀ k i, i < 65536 → blockOf k ∈ settingBlocks → ∀ f ∈ k.fields, (f.acc = .RW ∨ f.acc = .RWL) → warmClears f = false →
    (lost = true → volatileField f = false) →
    t.dev.rf f i = if cleared = true ∧ f ∈ heldFields k then f.rstAt i else s.dev.rf f i

/-- The fields that the host sets in those blocks are at reset (R351). -/
def State.settingsReset (t : State) : Prop :=
  ∀ k i, i < 65536 → blockOf k ∈ settingBlocks → ∀ f ∈ k.fields, (f.acc = .RW ∨ f.acc = .RWL) → t.dev.rf f i = f.rstAt i

/-- The registers that a write of `PWR.DOMEN` leaves alone: those of the blocks of the listed numbers. -/
def domenKeeps : List Nat :=
  [0x00, 0x03, 0x04, 0x06, 0x07, 0x08, 0x09, 0x0A, 0x0B, 0x10, 0x11, 0x12, 0x13, 0x14, 0x15, 0x17]

/-- The registers of a PLL and of what hangs on it. -/
def pllRegs : List (RegKind × Nat) :=
  [(.CLK_PLLSTAT, 0), (.CLK_REFSTAT, 0)] ++ (List.range 3).map (fun q => (RegKind.LAN_QSTAT, q)) ++
    (List.range 12).map (fun l => (RegKind.LAN_STAT, l))

/-! When an access is taken (R5, R17, R349, R458) -/

/-- A path takes accesses: the host port while the device is powered and neither asleep nor waking, the management
controller while its firmware runs. -/
def Dev.takes (d : Dev) (pth : Path) : Prop :=
  match pth with
  | .direct => d.pwr.st ≠ .off ∧ d.pwr.st ≠ .sleep ∧ d.pwr.st ≠ .waking
  | .kweave => d.managementOn = true

/-- Element `i` of a register can be accessed by a path; the entries of a snapshot of an encrypted configuration by a
packet in a secure session only (R248). -/
def State.serves (s : State) (pth : Path) (k : RegKind) (i : Nat) : Prop :=
  s.dev.takes pth ∧ i < regCount k ∧ s.dev.reachable k i = true ∧ (k = .FAB_SNAPDATA → s.dev.snapReadable pth = true)

/-- A write of the register is taken and not refused. -/
def State.accepts (s : State) (pth : Path) (k : RegKind) (i : Nat) (v : Word) : Prop :=
  s.serves pth k i ∧ k.writable = true ∧ s.dev.writeRefusal pth k i v.toNat = none

/-- What a written value carries for a field. -/
def carried (v : Word) (f : Fld) : Nat := bitsOf v.toNat f.lsb f.width

/-! When a packet is interpreted (R360, R365) -/

/-- The firmware is interpreting the packet `l` of the opcode, no word waits in the command FIFO or before it, and the
reply of `n` results finds room in the reply FIFO. -/
def State.interprets (s : State) (op : Nat) (l : List Nat) (n : Nat) : Prop :=
  s.dev.kw.cur = some l ∧ l.getD 1 0 % 2 ^ 16 = op ∧ s.dev.kw.fifo = [] ∧ s.dev.kw.waiting = [] ∧ s.dev.kw.pend = [] ∧
    s.dev.kw.out.length + 5 + n ≤ kwOutSize ∧ s.dev.kw.owed = false

/-- The packet is over and these words have joined the reply FIFO. -/
def State.replied (s t : State) (ws : List Nat) : Prop :=
  t.dev.kw.cur = none ∧ t.dev.kw.out = s.dev.kw.out ++ ws ∧ t.dev.kw.pend = []

/-! Timing -/

/-- The level changes that count forward in quadrature: A and B before, A and B after (R32). -/
def quadForward : List (Bool × Bool × Bool × Bool) :=
  [(false, false, true, false), (true, false, true, true), (true, true, false, true), (false, true, false, false)]

/-! Lines -/

/-- Nothing keeps a line of head `h` with boundary `b` from being issued and fired: no line is held, the head may fire, it has no
followers, and the minimum period has passed. -/
def Dev.readyToFire (d : Dev) (h b : Nat) : Prop :=
  (d.getLtg h).held = none ∧ d.imode h = .fire ∧ d.followers h = [] ∧
    (∀ sp, (d.getLtg h).sPrev = some sp → sp + d.effmin h ≤ b)

/-- A line of head `h` joins the issued ones. Beside the listed registers, only the LTG's status and next number and the
registers of the pixel path and of calibration that a commit point moves may change, and no other LTG does. -/
def State.issues (s t : State) (h num b : Nat) (l : List (RegKind × Nat)) : Prop :=
  (∃ x, (t.dev.getLtg h).issued = (s.dev.getLtg h).issued ++ [x] ∧ x.num = num ∧ x.s = b) ∧ s.sameStore t ∧
    (∀ k i, i < 65536 → blockOf k ∉ [0x0C, 0x0D, 0x0E, 0x0F] → (k, i) ∉ (.LTG_STAT, h) :: (.LTG_LINE, h) :: l →
      t.dev.rreg k i = s.dev.rreg k i) ∧
    ∀ g, g ≠ h → t.dev.getLtg g = s.dev.getLtg g

/-- The registers of an LTG that stops or is disarmed. -/
def ltgStopRegs (h : Nat) : List (RegKind × Nat) := [(.LTG_CTRL, h), (.LTG_STAT, h), (.LTG_OVRCNT, h), (.HCP_TSTAT, h)]

/-- A counter field has gone up by `n`, stopping at its maximum (R428). -/
def Dev.counts (d d' : Dev) (f : Fld) (i n : Nat) : Prop := d'.rf f i = min (d.rf f i + n) (2 ^ f.width - 1)

/-- The firmware runs and its scheduler has nothing to start: RUN, no command of calibration in progress, no store asked for,
and no item started by temperature (R157, R158, R170). -/
def Dev.calIdle (d : Dev) : Prop :=
  d.managementOn = true ∧ d.pwr.st = .run ∧ d.cal.cmds = [] ∧ d.cal.heldStore = false ∧ d.cal.heldHandles = [] ∧
    d.calTempOn = false

/-! Memory -/

/-- The memory and the queue: the queue stays, and only the `n` bytes at `a` may change. -/
def State.stores (s t : State) (a n : Nat) : Prop := t.pending = s.pending ∧ s.bytesKept t a n

/-- A bank is served: it takes a request, and the requester has a credit (R278). -/
def Dev.grants (d : Dev) (who : Requester) (b : Nat) : Prop := d.creditsUsed who < 16 ∧ d.bankServes b = true

/-- A host transaction meets a powered, awake device and names a word of a window. -/
def State.hostTaken (s : State) (a : Access) (wr : Bool) (addr : Nat) : Prop :=
  s.dev.takes .direct ∧ s.dev.domOn 2 = true ∧ addr % 4 = 0 ∧ s.dev.hostOp a wr = (if wr then .write addr else .read addr)

/-! Configuration -/

/-- A full load has failed for a reason (R314, R315): the state is FAILED, CFGERRN and CFGDONE are low, no frame is left and
every region is OFF; the failure is on record, and the banks and the other blocks stay. -/
def State.loadFailed (s t : State) (reason : Nat) : Prop :=
  s.keepsBanks t ∧ s.dev.keepsBlocks t.dev loadKeeps ∧
    (s.dev.pwr.booted = true → (⟨.fault, 0x140, false, false, reason, s.dev.t⟩ : EvRec) ∈ t.dev.evq.inFlight) ∧
    t.dev.gpio.released = false ∧ t.dev.anx.released = false ∧ t.dev.cfgState = csFAILED ∧ t.dev.rf CFG_STATUS_REASON 0 = reason % 256 ∧
    t.dev.cfg.cfgerrnPull = true ∧ t.dev.cfg.cfgdonePull = true ∧ t.dev.cfg.load.isOpen = false ∧
    t.dev.fab.frames = [] ∧ ∀ n, n < 16 → t.dev.rgnState n = rsOFF

/-- The packet at the head is all that the load holds, and more of the body is to come. -/
def Dev.lonePacket (d : Dev) (n : Nat) : Prop := d.cfg.load.words.length = n ∧ d.cfg.load.pos + 4 * n < d.bodyEnd

/-- The load has moved past a packet of `n` words. -/
def Dev.pastPacket (d d' : Dev) (n : Nat) : Prop :=
  d'.cfg.load.words = [] ∧ d'.cfg.load.pos = d.cfg.load.pos + 4 * n ∧ d'.cfg.load.body = d.cfg.load.body ++ d.cfg.load.words

/-! Packets -/

/-- The firmware interprets a packet of the opcode with `k` parameters and word 2 at 0, and a reply of `n` results finds
room. -/
def State.asks (s : State) (op : Nat) (l : List Nat) (n k : Nat) : Prop :=
  s.interprets op l n ∧ l.length = 4 + k ∧ l.getD 2 0 = 0

/-- The packet is answered OK with these results (R362). -/
def State.repliesOk (s t : State) (l r : List Nat) : Prop := s.replied t (replyWords (l.getD 1 0) stOK 0 none r)

/-- The packet is refused, at a word and field or at none (R362). -/
def State.repliesNo (s t : State) (l : List Nat) (st : Nat) (loc : Option (Nat × Nat)) : Prop :=
  s.replied t (replyWords (l.getD 1 0) st 0 loc [])

/-- The packet is ACCEPTED with the next handle (R371). -/
def State.repliesHandle (s t : State) (op : Nat) (l : List Nat) : Prop :=
  s.replied t (replyWords (l.getD 1 0) stACCEPTED (s.dev.openHandle op).1 none [])

/-- The number of the handle that the next long operation gets. -/
def Dev.newHandle (d : Dev) (op : Nat) : Nat := (d.openHandle op).1

/-! Registers -/

/-- The registers a write of which sets something off; a write of any other changes its own fields and nothing else. -/
def actingKinds : List RegKind :=
  [.SYS_KWIN, .SYS_KWCTRL, .PWR_REQ, .PWR_DOMEN, .CFG_RETRY, .CFG_FIFO, .SCB_CTRL, .SCB_INJECT, .MEM_BCTRL,
    .EVQ_TAIL, .EVQ_CTRL, .GPIO_CFG, .GPIO_MOUT, .GPIO_MOE, .HCP_CTRL, .HCP_TWCMD, .ENC_CTRL, .ENC_POSSETH,
    .ENC_RATEMAX, .ENC_STAT, .ENC_CAPSTAT, .LTG_CTRL, .LTG_PITCH, .LTG_TBCTRL, .ZLK_CTRL, .AFE_CH] ++
  [.AFE_SCANCTRL, .PCU_LWCTRL, .PCU_HSEL, .PCU_TSYNC, .CAC_CFG, .CAC_NET, .CAC_SEL, .ASW_AX, .ASW_MTAP,
    .ASW_BREL0, .ASW_BREL1, .CMP_CFG, .CMP_TICK, .CMP_FILT, .CMP_WIN, .CMP_THR, .CMP_STAT, .MCV_CTRL, .MCV_RIDX,
    .MCV_WMARK, .MCV_BUF, .FAB_SNAPCTRL, .RGN_GAUNTLET, .RGN_ISOLATE, .LAN_CTRL, .LAN_RXCFG]

/-- Element `i` of a register has been written with `v`, and no other register has changed: a field the host sets takes what
is carried, a counter with what it counted at that instant added, and a W1C bit that the device set at that instant stays
(R6, R7, R428). -/
def State.written (s t : State) (k : RegKind) (i : Nat) (v : Word) : Prop :=
  s.onlyRegs t [(k, i)] ∧ ∀ f ∈ k.fields,
    (f.acc = .RWL ∨ f.acc = .RW ∧ s.dev.setNow f i = 0 → t.dev.rf f i = carried v f) ∧
    (f.acc = .RW ∧ f ≠ LAN_TXCNT_PKTS → t.dev.rf f i = min (carried v f + s.dev.setNow f i) (2 ^ f.width - 1)) ∧
    (f.acc = .RO ∨ f.acc = .WO → t.dev.rf f i = s.dev.rf f i) ∧
    (f.acc = .W1C → ∀ b, b < f.width → tbit (t.dev.rf f i) b = 
      (tbit (s.dev.rf f i) b && (!(tbit (carried v f) b) || tbit (s.dev.setNow f i) b)))

end Sys2Proof.Machine
end

