-- ==== Sys2Proof/Certificates/Slice0/Obligations.lean ====
section
/-! DEFINITION. The statements of this model, for its provers: what the commands of the block do, by the manual's rules. A
statement about a command says that it answers a next state, which one, and what stays as it was (`State.onlyRegs`,
`State.sameStore`, `State.stores`). -/

open Sys2Proof Sys2Proof.Machine

/-- For every command c and state s: step of s with c at the front of its queue is exec c on s with the queue's rest. (The
queue of commands is the model's own field.) (00_scope.md, 95_what_each_step_holds.md.) -/
def Obligations.StepTakesFrontCommand : Prop := ∀ (c : Instr) (rest : List Instr) (s : State),
  step { s with pending := c :: rest } = exec c { s with pending := rest }

/-- Where no command waits, a step answers a next state in which only time has passed: the model's clock goes up by 1 ns; no
byte of memory, no event record and no power state changes; TB counts 1 per ns in RUN, HOLD, NAP and start-up, 40 per 40 ns
in SLEEP and while waking, and stands still otherwise. No register changes but those of a disabled lane whose packet has
left the wire: it drops and counts what its FIFO holds and is IDLE. That an idle step is one nanosecond is the model's
choice (log 10). (01_architecture.md, 17_pins_ports_lanes.md, R26, R41, R420.) -/
def Obligations.IdleStepPassesTime : Prop := ∀ (s : State), s.pending = [] →
  ∃ t, step s = .next t ∧ s.sameStore t ∧ t.dev.now = s.dev.now + 1 ∧ t.dev.evq = s.dev.evq ∧ t.dev.pwr = s.dev.pwr ∧
    s.dev.onlyRegs t.dev ((List.range 12).flatMap (fun l => [(RegKind.LAN_STAT, l), (.LAN_DROP, l), (.LAN_FILL, l), (.LAN_PEAK, l)])) ∧
    (∀ l, l < 12 →
      ((s.dev.rf LAN_STAT_STATE l ≠ lsRUN ∨ s.dev.on LAN_CTRL_EN l = true ∨ s.dev.now + 1 < (s.dev.lane l).wireTo) →
        t.dev.rreg .LAN_STAT l = s.dev.rreg .LAN_STAT l ∧ t.dev.lane l = s.dev.lane l) ∧
      (s.dev.rf LAN_STAT_STATE l = lsRUN → s.dev.on LAN_CTRL_EN l = false → (s.dev.lane l).wireTo ≤ s.dev.now + 1 →
        s.dev.gpio.released = true → s.dev.domOn (7 + l / 4) = true → t.dev.rf LAN_STAT_STATE l = lsIDLE ∧
        (t.dev.lane l).fifo = [] ∧ s.dev.counts t.dev LAN_DROP_FULL l (s.dev.lane l).fifo.length)) ∧
    t.dev.tb = (match s.dev.pwr.st with
      | .starting | .run | .hold | .nap => s.dev.tb + 1
      | .sleep | .waking => if (s.dev.now + 1) % 40 = 0 then s.dev.tb + 40 else s.dev.tb
      | _ => s.dev.tb)

/-- State.reset: every element of every register holds its Reset column; TB is 0; the position counters are 0; no line is
held or issued; no event record is on its way; no packet is being interpreted, no reply waits and no handle is in use; the
queue of commands is empty. That the memory lists nothing, so that an unwritten byte reads 0, is the model's choice (log 4).
(18_register_map.md, R424, R429.) -/
def Obligations.ResetState : Prop := State.reset.memWf ∧ State.reset.mem = [] ∧ State.reset.pending = [] ∧
  State.reset.dev.tb = 0 ∧ (∀ k i, State.reset.dev.rreg k i = regReset k i) ∧
  (∀ p h, (State.reset.dev.getEnc p).pos = 0 ∧ (State.reset.dev.getLtg h).held = none ∧
    (State.reset.dev.getLtg h).issued = []) ∧
  State.reset.dev.evq.inFlight = [] ∧ State.reset.dev.kw.cur = none ∧ State.reset.dev.kw.out = [] ∧
  State.reset.dev.kw.handles = []

/-- From every state whose memory list is in canonical form (addresses strictly rising, no byte equal to what an unlisted
address reads as), whatever command is at the front or none, a step that answers a next state leaves the memory in canonical
form. (The form is the model's own; that it holds at reset is a clause of ResetState.) (11_memory.md, R273, R284, R286.) -/
def Obligations.EveryStepKeepsMemoryCanonical : Prop := ∀ (s t : State), s.memWf → step s = .next t → t.memWf

/-- For every command and every state, exec answers a next state (no fault, no refusal), and the queue of waiting commands
is unchanged. (98_reader.md, 95_what_each_step_holds.md.) -/
def Obligations.EveryCommandCompletes : Prop := ∀ (c : Instr) (s : State), ∃ t, exec c s = .next t ∧ t.pending = s.pending

/-- A host write that is accepted, of a register whose write sets nothing off, sets its RW and RWL fields to what the value
carries, clears the W1C bits written 1, leaves RO fields alone, and changes no other register, no memory, no encoder, line
trigger, event queue, power state or TB. A host write that is not aligned, names no register, names a register in a domain
that is off, carries a refused field (without an ownership conflict), or names the event window changes nothing but ACCERR
and ACCADDR: the count goes up by 1 (it stops at its maximum), CAUSE names the reason, PATH is 0 and ADDR is the address.
Which cause code belongs to the event window is DEDUCED (NOTES.md). (R5, R6, R9, R17, R271, R296, R387, R425, R427, R458.)
-/
def Obligations.RegisterAccesses : Prop :=
  (∀ (s : State) (a : Access) (k : RegKind) (i : Nat) (v : Word),
    s.dev.hostOp a true = .write (regAddr k i) → s.accepts .direct k i v → k ∉ actingKinds →
    ∃ t, exec (.registerWrite a v) s = .next t ∧ s.written t k i v ∧ t.dev.enc = s.dev.enc ∧ t.dev.ltg = s.dev.ltg ∧
      t.dev.evq = s.dev.evq ∧ t.dev.pwr = s.dev.pwr ∧ t.dev.tb = s.dev.tb) ∧
  (∀ (s : State) (a : Access) (x : Nat) (v : Word), x < 2 ^ 32 →
    s.dev.takes .direct → s.dev.domOn 2 = true → s.dev.hostOp a true = .write x →
    ∀ cause, ((x % 4 ≠ 0 ∧ cause = 2) ∨ (x % 4 = 0 ∧ target x = .hole ∧ cause = 1) ∨
        (∃ k i, i < regCount k ∧ x = regAddr k i ∧ s.dev.reachable k i = false ∧ cause = 5) ∨
        (∃ k i r, i < regCount k ∧ x = regAddr k i ∧ s.dev.reachable k i = true ∧ k.writable = true ∧
          s.dev.writeRefusal .direct k i v.toNat = some r ∧ s.dev.conflictOf k i v.toNat = none ∧
          (r.cause = .value ∧ cause = 3 ∨ r.cause = .state ∧ cause = 4)) ∨
        (∃ o, x % 4 = 0 ∧ target x = .event o ∧ cause = 6)) →
      ∃ t, exec (.registerWrite a v) s = .next t ∧ s.onlyRegs t [(.SYS_ACCERR, 0), (.SYS_ACCADDR, 0)] ∧
        s.dev.counts t.dev SYS_ACCERR_COUNT 0 1 ∧ t.dev.rf SYS_ACCERR_CAUSE 0 = cause ∧ t.dev.rf SYS_ACCERR_PATH 0 = 0 ∧
        t.dev.rf SYS_ACCADDR_ADDR 0 = x)

/-- In standard mode, RGN.GAUNTLET, RGN.PSTAT, RGN.MMCNT[n] and RGN.SIG[q] read 0, on the host port and in a REG_READ
packet; a host write of any value is ignored and counted in the access-error counter; a REG_WRITE packet with a value inside
the ranges of its fields changes nothing but the access-error registers and is answered BAD_STATE (a value outside its range
is refused by R270 as BAD_PARAM, which R365 puts first). (R271.) -/
def Obligations.StandardModeRegisters : Prop := ∀ (s : State) (k : RegKind) (i : Nat), s.dev.paired = false →
  k ∈ [RegKind.RGN_GAUNTLET, .RGN_PSTAT, .RGN_MMCNT, .RGN_SIG] → i < regCount k →
  (∀ a (v : Word), s.serves .direct k i → s.dev.hostOp a true = .read (regAddr k i) →
    ∃ t, exec (.registerWrite a v) s = .next t ∧ s.onlyRegs t [] ∧ t.dev.rdata = 0) ∧
  (∀ a (v : Word), s.serves .direct k i → s.dev.domOn 2 = true → s.dev.hostOp a true = .write (regAddr k i) →
    ∃ t, exec (.registerWrite a v) s = .next t ∧ s.onlyRegs t [(.SYS_ACCERR, 0), (.SYS_ACCADDR, 0)] ∧
      s.dev.counts t.dev SYS_ACCERR_COUNT 0 1) ∧
  (∀ l e, s.serves .kweave k i → s.asks 0x400 l 1 2 → param l 0 = 1 → param l 1 = regAddr k i →
    ∃ t, exec (.regRead e) s = .next t ∧ s.onlyRegs t [] ∧ s.repliesOk t l [0]) ∧
  (∀ l e, s.serves .kweave k i → s.asks 0x401 l 0 3 → param l 0 = 1 → param l 1 = regAddr k i → param l 2 < 2 ^ 32 →
    rangeChecks k (param l 2) = [] →
    ∃ t, exec (.regWrite e) s = .next t ∧ s.onlyRegs t [(.SYS_ACCERR, 0), (.SYS_ACCADDR, 0)] ∧
      ∃ loc, s.repliesNo t l stBAD_STATE loc)

/-- While PD_TIM runs: the begin of a loss of signal sets LOS and LOSSEEN, clears POSVALID and keeps the position; of the
armed triggers that the port drives, one with LOSS = 1 coasts and every other stops. Its end clears LOS, does not set
POSVALID, and disarms the triggers that were coasting. A stall that is due clears VALID, sets STALLED, sets the velocity to
0 and keeps the position. A level that has not been stable for more samples than its filter asks for changes nothing. Of a
level change that A's and B's filters accept, Z being as before: on a port with EN = 0 only the levels change. In X4 mode
with INV = 0, on a port that feeds no line trigger and without a Z edge: a forward quadrature transition counts up by 1 and
clears REV, a backward one counts down by 1 and sets REV, both clear STALLED and enter their timestamp at the ball, filter
and receiver delay taken off; A and B changing together is an illegal transition: QERR is set, QERRS goes up by 1, the
position stays. (02_line_timing.md, R30, R31, R32, R33, R40, R54.) -/
def Obligations.EncoderPulses : Prop :=
  (∀ (s : State) (p : Nat), p < 8 → s.dev.live 4 = true →
    (s.dev.on ENC_STAT_LOS p = false → ∃ t, exec (.encLosBegin p) s = .next t ∧
      s.onlyRegs t ((.ENC_STAT, p) :: (List.range 24).flatMap (fun g => ltgStopRegs g)) ∧
      (s.dev.ltgsOn p = [] → s.onlyRegs t [(.ENC_STAT, p)]) ∧
      (∀ h, h ∈ s.dev.ltgsOn p →
        (s.dev.rf LTG_CTRL_LOSS h = 1 → t.dev.on LTG_CTRL_ARM h = true ∧ t.dev.on LTG_STAT_COASTING h = true) ∧
        (s.dev.rf LTG_CTRL_LOSS h ≠ 1 → t.dev.on LTG_CTRL_ARM h = false ∧ t.dev.on LTG_STAT_STOPPED h = true)) ∧
      t.dev.on ENC_STAT_LOS p = true ∧ t.dev.on ENC_STAT_LOSSEEN p = true ∧ t.dev.on ENC_STAT_POSVALID p = false ∧
      (t.dev.getEnc p).pos = (s.dev.getEnc p).pos) ∧
    (s.dev.on ENC_STAT_LOS p = true → ∃ t, exec (.encLosEnd p) s = .next t ∧
      s.onlyRegs t ((.ENC_STAT, p) :: (List.range 24).flatMap (fun g => ltgStopRegs g)) ∧
      (∀ h, h ∈ s.dev.ltgsOn p → t.dev.on LTG_CTRL_ARM h = !(s.dev.on LTG_STAT_COASTING h)) ∧
      t.dev.on ENC_STAT_LOS p = false ∧ t.dev.on ENC_STAT_POSVALID p = s.dev.on ENC_STAT_POSVALID p ∧
      t.dev.enc = s.dev.enc) ∧
    (s.dev.stallDue p = true → ∃ t, exec (.encStall p) s = .next t ∧ s.onlyRegs t [(.ENC_STAT, p)] ∧
      t.dev.on ENC_STAT_VALID p = false ∧ t.dev.on ENC_STAT_STALLED p = true ∧ (t.dev.getEnc p).v = 0 ∧
      (t.dev.getEnc p).hist = [] ∧ (t.dev.getEnc p).pos = (s.dev.getEnc p).pos)) ∧
  (∀ (s : State) (p : Nat) (a b z : Bool) (na nb nz : Nat), p < 8 →
    s.dev.live 4 = true →
    let e := s.dev.getEnc p
    let w := s.dev.rf ENC_FILT_ABW p
    (na ≤ w → nb ≤ w → nz ≤ s.dev.rf ENC_FILT_ZW p → ∃ t, exec (.encEdgeAccepted p a b z na nb nz) s = .next t ∧ s.onlyRegs t [] ∧
      (t.dev.getEnc p).pos = e.pos ∧ (t.dev.getEnc p).a = e.a ∧ (t.dev.getEnc p).b = e.b ∧ (t.dev.getEnc p).z = e.z ∧
      t.dev.cap = s.dev.cap) ∧
    (w < na → w < nb → e.z = z →
      (s.dev.on ENC_CTRL_EN p = false → ∃ t, exec (.encEdgeAccepted p a b z na nb nz) s = .next t ∧ s.onlyRegs t [] ∧
        (t.dev.getEnc p).pos = e.pos ∧ (t.dev.getEnc p).a = a ∧ (t.dev.getEnc p).b = b) ∧
      (s.dev.on ENC_CTRL_EN p = true → s.dev.rf ENC_CTRL_MODE p = 0 → e.a ≠ a → e.b ≠ b →
        ∃ t, exec (.encEdgeAccepted p a b z na nb nz) s = .next t ∧ s.onlyRegs t [(.ENC_STAT, p), (.ENC_ERRCNT, p)] ∧
        t.dev.on ENC_STAT_QERR p = true ∧ t.dev.rf ENC_ERRCNT_QERRS p = min (s.dev.rf ENC_ERRCNT_QERRS p + 1) 65535 ∧
        (t.dev.getEnc p).pos = e.pos) ∧
      (s.dev.on ENC_CTRL_EN p = true → s.dev.rf ENC_CTRL_MODE p = 0 → s.dev.on ENC_CTRL_INV p = false → s.dev.ltgsOn p = [] →
        (z = false ∨ s.dev.rf ENC_CTRL_IDX p = 0) →
        ((e.a, e.b, a, b) ∈ quadForward → ∃ t, exec (.encEdgeAccepted p a b z na nb nz) s = .next t ∧
          s.onlyRegs t [(.ENC_STAT, p), (.ENC_ERRCNT, p)] ∧ t.dev.ltg = s.dev.ltg ∧ (t.dev.getEnc p).pos = e.pos + 1 ∧ t.dev.on ENC_STAT_REV p = false ∧ t.dev.on ENC_STAT_STALLED p = false ∧
          ((t.dev.getEnc p).last8.headD ⟨0, 0⟩).t = s.dev.edgeTime p (if a = e.a then nb else na)) ∧
        ((a, b, e.a, e.b) ∈ quadForward → ∃ t, exec (.encEdgeAccepted p a b z na nb nz) s = .next t ∧
          s.onlyRegs t [(.ENC_STAT, p), (.ENC_ERRCNT, p)] ∧ t.dev.ltg = s.dev.ltg ∧ (t.dev.getEnc p).pos = e.pos - 1 ∧ t.dev.on ENC_STAT_REV p = true ∧ t.dev.on ENC_STAT_STALLED p = false ∧
          ((t.dev.getEnc p).last8.headD ⟨0, 0⟩).t = s.dev.edgeTime p (if a = e.a then nb else na)))))

/-- For every enabled port in X4 mode, when A and B change in the same sample and the filters accept it, the position and
REV (the direction) stay, ERRCNT.QERRS goes up by 1 (it stops at its maximum), STAT.QERR is set, and no other register
changes. (R33.) -/
def Obligations.EncoderIllegalTransition : Prop := ∀ (s : State) (p : Nat) (a b z : Bool) (na nb nz : Nat), p < 8 →
  s.dev.live 4 = true → s.dev.on ENC_CTRL_EN p = true → s.dev.rf ENC_CTRL_MODE p = 0 →
  (s.dev.getEnc p).a ≠ a → (s.dev.getEnc p).b ≠ b → (s.dev.getEnc p).z = z →
  s.dev.rf ENC_FILT_ABW p < na → s.dev.rf ENC_FILT_ABW p < nb →
  ∃ t, exec (.encEdgeAccepted p a b z na nb nz) s = .next t ∧ s.onlyRegs t [(.ENC_STAT, p), (.ENC_ERRCNT, p)] ∧
    (t.dev.getEnc p).pos = (s.dev.getEnc p).pos ∧ t.dev.on ENC_STAT_REV p = s.dev.on ENC_STAT_REV p ∧
    s.dev.counts t.dev ENC_ERRCNT_QERRS p 1 ∧ t.dev.on ENC_STAT_QERR p = true

/-- An accepted write of ENC.CTRL that sets EN enables the port, clears VALID, sets POSVALID exactly if the written IDX is
at most 1, and keeps the position. An accepted write of ENC.POSSETH with LOAD loads the 48-bit position from POSSET.VAL and
the written VALH and sets POSVALID. A read of ENC.POS returns the low word of the position and latches the upper word for
the path that reads; nothing else changes. (R36, R37, R427.) -/
def Obligations.EncoderRegisters : Prop := ∀ (s : State) (pth : Path) (p : Nat) (v : Word), p < 8 →
  (s.accepts pth .ENC_CTRL p v → s.dev.on ENC_CTRL_EN p = false → carried v ENC_CTRL_EN = 1 →
    ∃ t, exec (.encCtrlWrite pth p v) s = .next t ∧ s.onlyRegs t [(.ENC_CTRL, p), (.ENC_STAT, p)] ∧
      t.dev.on ENC_CTRL_EN p = true ∧ t.dev.on ENC_STAT_VALID p = false ∧
      (t.dev.on ENC_STAT_POSVALID p = true ↔ carried v ENC_CTRL_IDX ≤ 1) ∧
      (t.dev.getEnc p).pos = (s.dev.getEnc p).pos) ∧
  (s.accepts pth .ENC_POSSETH p v → carried v ENC_POSSETH_LOAD = 1 →
    ∃ t, exec (.encPositionLoad pth p v) s = .next t ∧ s.onlyRegs t [(.ENC_POSSETH, p), (.ENC_STAT, p)] ∧
      (t.dev.getEnc p).pos = BitVec.ofNat 48 (s.dev.rf ENC_POSSET_VAL p + carried v ENC_POSSETH_VALH * 2 ^ 32) ∧
      t.dev.on ENC_STAT_POSVALID p = true) ∧
  (s.serves pth .ENC_POS p → ∃ t, exec (.encPosRead pth p) s = .next t ∧ s.onlyRegs t [] ∧
    t.dev.rdata = (s.dev.getEnc p).pos.toNat % 2 ^ 32 ∧
    t.dev.rlatch .ENC_POSH p pth = (s.dev.getEnc p).pos.toNat / 2 ^ 32 ∧ t.dev.enc = s.dev.enc)

/-- A served read of LTG.TB, on either path, returns the low 32 bits of TB, changes no register and not TB, and from then
on, in every state in which that latch still stands, TBH read on that path returns the upper 32 bits of TB as it was at the
read of LTG.TB. (R42.) -/
def Obligations.TimebaseReadsAsOneInstant : Prop := ∀ (s : State) (pth : Path), s.serves pth .LTG_TB 0 →
  ∃ t, exec (.tbRead pth) s = .next t ∧ s.onlyRegs t [] ∧ t.dev.tb = s.dev.tb ∧ t.dev.rdata = s.dev.tb.toNat % 2 ^ 32 ∧
    ∀ u : State, u.dev.rlatch .LTG_TBH 0 pth = t.dev.rlatch .LTG_TBH 0 pth →
      u.dev.peek pth .LTG_TBH 0 = s.dev.tb.toNat / 2 ^ 32

/-- A write of LTG.TBCTRL with LOAD = 1: on a standalone device with no LTG armed, TB takes TBSETH and TBSET, on either
path, and no capture entry and no line event changes. Otherwise TB stays: a host write is ignored and counted in the
access-error counter; a REG_WRITE packet is counted and answered BAD_STATE located at the value word and LOAD. (R43.) -/
def Obligations.TimebaseLoad : Prop := ∀ (s : State) (v : Word), carried v LTG_TBCTRL_LOAD = 1 →
  (∀ pth, s.serves pth .LTG_TBCTRL 0 → s.dev.zrole = 0 → (∀ h, h < 24 → s.dev.on LTG_CTRL_ARM h = false) →
    ∃ t, exec (.tbLoad pth v) s = .next t ∧ s.onlyRegs t [(.LTG_TBCTRL, 0)] ∧
      t.dev.tb = BitVec.ofNat 64 (s.dev.rf LTG_TBSETH_SETH 0 * 2 ^ 32 + s.dev.rf LTG_TBSET_SET 0) ∧
      t.dev.cap = s.dev.cap ∧ t.dev.ltg = s.dev.ltg) ∧
  ((s.dev.zrole ≠ 0 ∨ ∃ h, h < 24 ∧ s.dev.on LTG_CTRL_ARM h = true) →
    (s.serves .direct .LTG_TBCTRL 0 → s.dev.domOn 2 = true →
      ∃ t, exec (.tbLoad .direct v) s = .next t ∧ s.onlyRegs t [(.SYS_ACCERR, 0), (.SYS_ACCADDR, 0)] ∧
        s.dev.counts t.dev SYS_ACCERR_COUNT 0 1 ∧ t.dev.tb = s.dev.tb) ∧
    (∀ l e, s.serves .kweave .LTG_TBCTRL 0 → s.asks 0x401 l 0 3 → param l 0 = 1 → param l 1 = regAddr .LTG_TBCTRL 0 →
      param l 2 = v.toNat →
      ∃ t, exec (.regWrite e) s = .next t ∧ s.onlyRegs t [(.SYS_ACCERR, 0), (.SYS_ACCADDR, 0)] ∧
        s.repliesNo t l stBAD_STATE (some (5, 0)) ∧ t.dev.tb = s.dev.tb))

/-- While PD_TIM runs: an evaluation of an armed encoder-driven trigger that holds no line, is not in the predictive state,
and is neither coasting nor moving backwards, sets SLOW and changes no trigger; one in the predictive state clears SLOW, and
issues the next line at the predicted boundary once that is within LEAD + 16 ns, on a head ready to fire, and nothing
before; a timer expiry issues the next line at its nominal boundary once that is within LEAD, on a head ready to fire; a
held line with no leader and no stretch is issued when its boundary comes within LEAD and no reversal bars it; a coast that
is over disarms the trigger, sets STOPPED, clears COASTING and drops the held line. An accepted write of LTG.CTRL that sets
ARM without SWT arms the trigger, takes the staged pitch, holds no line, and with SRC 1 sets the first boundary LEAD from
now; one that clears ARM disarms, clears COASTING and SLOW and drops the held line; with SRC 4 and SWT = 1 on an armed head
ready to fire it issues a line LEAD from now. (R44, R48, R50, R52, R54, R56.) -/
def Obligations.LineTriggers : Prop :=
  (∀ (s : State) (h : Nat), h < 24 → s.dev.live 4 = true →
    (s.dev.on LTG_CTRL_ARM h = true → s.dev.ltgSrc h = 0 → s.dev.t % 8 = 0 → (s.dev.getLtg h).held = none →
      s.dev.predictive h = false → s.dev.on LTG_STAT_COASTING h = false → s.dev.ltgBack h = false →
      ∃ t, exec (.ltgEvaluate h) s = .next t ∧ s.onlyRegs t [(.LTG_STAT, h)] ∧ t.dev.on LTG_STAT_SLOW h = true ∧
        t.dev.ltg = s.dev.ltg) ∧
    (s.dev.on LTG_CTRL_ARM h = true → s.dev.ltgSrc h = 0 → s.dev.t % 8 = 0 → (s.dev.getLtg h).held = none →
      s.dev.predictive h = true → ∀ b : Nat,
      (b : Int) = (s.dev.t : Int) + roundDiv (diffQ (s.dev.getLtg h).target (s.dev.ltgVP h).2 * 65536) (s.dev.ltgVP h).1.toNat -
        s.dev.centre h →
      (s.dev.t + s.dev.lead + 16 < b → ∃ t, exec (.ltgEvaluate h) s = .next t ∧ s.onlyRegs t [(.LTG_STAT, h)] ∧
        t.dev.on LTG_STAT_SLOW h = false ∧ t.dev.ltg = s.dev.ltg) ∧
      (s.dev.t + s.dev.lead ≤ b → b ≤ s.dev.t + s.dev.lead + 16 → s.dev.readyToFire h b →
        ∃ t, exec (.ltgEvaluate h) s = .next t ∧ s.issues t h (s.dev.rf LTG_LINE_LINE h) b [] ∧
          t.dev.rf LTG_LINE_LINE h = nextNum (s.dev.rf LTG_LINE_LINE h) ∧
          t.dev.on LTG_STAT_SLOW h = false)) ∧
    (s.dev.on LTG_CTRL_ARM h = true → s.dev.ltgSrc h = 1 → (s.dev.getLtg h).nominal ≤ s.dev.t + s.dev.lead →
      s.dev.readyToFire h (s.dev.getLtg h).nominal →
      ∃ t, exec (.ltgTimerExpiry h) s = .next t ∧
        s.issues t h (s.dev.rf LTG_LINE_LINE h) (s.dev.getLtg h).nominal [] ∧
        t.dev.rf LTG_LINE_LINE h = nextNum (s.dev.rf LTG_LINE_LINE h) ∧
        (t.dev.getLtg h).nominal = (s.dev.getLtg h).nominal + s.dev.rf LTG_TIMERPER_PER h) ∧
    (∀ x, (s.dev.getLtg h).held = some x → x.leader = none → x.stretch = false → x.s ≤ s.dev.t + s.dev.lead →
      s.dev.revBars h = false → s.dev.imode h = .fire → s.dev.followers h = [] →
      ∃ t, exec (.ltgDeferredIssue h) s = .next t ∧ s.issues t h x.num x.s [] ∧
        (t.dev.getLtg h).held = none ∧ t.dev.rf LTG_LINE_LINE h = s.dev.rf LTG_LINE_LINE h ∧ t.dev.on LTG_STAT_HELD h = false) ∧
    (s.dev.coastOver h = true → ∃ t, exec (.ltgCoastExpiry h) s = .next t ∧
      s.onlyRegs t ((List.range 24).flatMap (fun g => ltgStopRegs g)) ∧
      (∀ g, g < 24 → g ≠ h → t.dev.rreg .LTG_CTRL g = s.dev.rreg .LTG_CTRL g) ∧
      t.dev.on LTG_CTRL_ARM h = false ∧ t.dev.on LTG_STAT_STOPPED h = true ∧ t.dev.on LTG_STAT_COASTING h = false ∧
      (t.dev.getLtg h).held = none)) ∧
  (∀ (s : State) (pth : Path) (h : Nat) (v : Word), h < 24 →
    s.accepts pth .LTG_CTRL h v →
    (s.dev.on LTG_CTRL_ARM h = false → carried v LTG_CTRL_ARM = 1 → carried v LTG_CTRL_SWT = 0 →
      ∃ t, exec (.ltgCtrlArm pth h v) s = .next t ∧
        s.onlyRegs t [(.LTG_CTRL, h), (.LTG_STAT, h)] ∧ t.dev.on LTG_CTRL_ARM h = true ∧
        t.dev.rf LTG_CTRL_SRC h = carried v LTG_CTRL_SRC ∧ (t.dev.getLtg h).pitch = (s.dev.getLtg h).pitchNew ∧
        (t.dev.getLtg h).held = none ∧
        (carried v LTG_CTRL_SRC = 1 → (t.dev.getLtg h).nominal = s.dev.t + s.dev.lead)) ∧
    (s.dev.on LTG_CTRL_ARM h = true → carried v LTG_CTRL_ARM = 0 → carried v LTG_CTRL_SWT = 0 →
      ∃ t, exec (.ltgCtrlDisarm pth h v) s = .next t ∧
        s.onlyRegs t [(.LTG_CTRL, h), (.LTG_STAT, h), (.LTG_OVRCNT, h), (.HCP_TSTAT, h)] ∧
        t.dev.on LTG_CTRL_ARM h = false ∧ t.dev.on LTG_STAT_COASTING h = false ∧ t.dev.on LTG_STAT_SLOW h = false ∧
        (t.dev.getLtg h).held = none) ∧
    (s.dev.on LTG_CTRL_ARM h = true → carried v LTG_CTRL_ARM = 1 → carried v LTG_CTRL_SRC = 4 → carried v LTG_CTRL_SWT = 1 →
      (s.dev.writeAll .LTG_CTRL h v.toNat).readyToFire h (s.dev.t + s.dev.lead) →
      ∃ t, exec (.ltgSwt pth h v) s = .next t ∧
        s.issues t h (s.dev.rf LTG_LINE_LINE h) (s.dev.t + s.dev.lead) [(.LTG_CTRL, h)] ∧
        t.dev.rf LTG_LINE_LINE h = nextNum (s.dev.rf LTG_LINE_LINE h)))

/-- While PD_TIM runs: when TB reaches the boundary of the oldest issued line of a head that has enabled channels (and whose
pulse no capture unit takes), the line is taken from the issued ones and fires: with the port on, the head's grid and clock
run from its boundary, HSP has its start and end from it, and LEDON shows the strobe or CONT mode; with the port off nothing
of the port moves; no other register changes than the head's GRID, its TSTAT and the group's line count. When lines are
barred for want of lock, the line is taken and suppressed, counted as late where the head issues its own lines, and a gap is
pending. At its end instant a strobe ends, LEDON then shows CONT mode alone, and CLIP and every line trigger stay. (R91,
R92, R105.) -/
def Obligations.LineBoundaryAndStrobes : Prop := ∀ (s : State) (h : Nat), h < 24 → s.dev.live 4 = true →
  (∀ l rest, (s.dev.getLtg h).issued = l :: rest → l.s ≤ s.dev.t → s.dev.lineBarred = false →
    (∀ k, k < 32 → s.dev.rf ENC_CAPCTRL_SRC k ≠ 120 + h) → (enabledChans l.snap h).isEmpty = false →
    (s.dev.on HCP_CTRL_EN h = true → ∃ t, exec (.lineFire h) s = .next t ∧
      s.onlyRegs t [(.AFE_HSTAT, h), (.HCP_TSTAT, h), (.CNV_MIT, groupOf h)] ∧ (t.dev.getLtg h).issued = rest ∧
      (t.dev.getHcp h).grid = some (l.s, l.num) ∧ t.dev.on AFE_HSTAT_GRID h = true ∧
      (t.dev.getHcp h).hck = some (hckOf l.snap h l.s) ∧ (t.dev.getHcp h).hspFrom = hspStart l.snap h l.s ∧
      (t.dev.getHcp h).hspUntil = hspEnd l.snap h l.s ∧ (t.dev.getHcp h).strobes = (s.dev.getHcp h).strobes ∧
      t.dev.on HCP_TSTAT_LEDON h = ((s.dev.getHcp h).ledOn || t.dev.contLed h)) ∧
    (s.dev.on HCP_CTRL_EN h = false → ∃ t, exec (.lineFire h) s = .next t ∧
      s.onlyRegs t [(.CNV_MIT, groupOf h)] ∧ (t.dev.getLtg h).issued = rest ∧
      (t.dev.getHcp h).grid = (s.dev.getHcp h).grid ∧ (t.dev.getHcp h).hck = (s.dev.getHcp h).hck)) ∧
  (∀ l rest, (s.dev.getLtg h).issued = l :: rest → l.s ≤ s.dev.t → s.dev.lineBarred = true →
    ∃ t, exec (.lineFire h) s = .next t ∧ s.onlyRegs t [(.ZLK_LINECNT, 0), (.LTG_STAT, h)] ∧
      (t.dev.getLtg h).issued = rest ∧ t.dev.on LTG_STAT_GAPPEND h = true ∧
      (t.dev.getHcp h).grid = (s.dev.getHcp h).grid ∧
      (s.dev.rf LTG_CTRL_SRC h ≠ 3 → s.dev.rf LTG_CTRL_SRC h ≠ 5 → s.dev.counts t.dev ZLK_LINECNT_LATE 0 1)) ∧
  (∀ x, (s.dev.getHcp h).led = some x → (s.dev.getHcp h).ledOn = true → x.stop ≤ s.dev.t →
    ∃ t, exec (.strobeEnd h) s = .next t ∧ s.onlyRegs t [(.HCP_TSTAT, h)] ∧ (t.dev.getHcp h).ledOn = false ∧
      t.dev.on HCP_TSTAT_LEDON h = s.dev.contLed h ∧ t.dev.on HCP_TSTAT_CLIP h = s.dev.on HCP_TSTAT_CLIP h ∧
      t.dev.ltg = s.dev.ltg)

/-- For an enabled head with a scheduled strobe while PD_TIM runs: before the strobe's instant the command changes nothing;
from it on the strobe is active, LEDON is set, and CLIP is set exactly if the strobe of the previous line was still active
(or was set before), which then ends; no other register, no issued or held line and no line in progress changes, so the line
keeps the C with which it was issued. (R106.) -/
def Obligations.StrobeStartsAndClips : Prop := ∀ (s : State) (h : Nat) (x : Strobe) (rest : List Strobe), h < 24 →
  s.dev.live 4 = true → s.dev.on HCP_CTRL_EN h = true → (s.dev.getHcp h).strobes = x :: rest →
  (s.dev.t < x.start → exec (.strobeStart h) s = .next s) ∧
  (x.start ≤ s.dev.t → ∃ t, exec (.strobeStart h) s = .next t ∧ s.onlyRegs t [(.HCP_TSTAT, h)] ∧
    (t.dev.getHcp h).led = some x ∧ (t.dev.getHcp h).ledOn = true ∧ (t.dev.getHcp h).strobes = rest ∧
    t.dev.on HCP_TSTAT_LEDON h = true ∧
    t.dev.on HCP_TSTAT_CLIP h = (s.dev.on HCP_TSTAT_CLIP h || (s.dev.getHcp h).ledOn) ∧
    t.dev.ltg = s.dev.ltg ∧ t.dev.pcu = s.dev.pcu)

/-- An edge that one enabled capture unit selects stores its timestamp and the position of the unit's port at that instant
when the FIFO has fewer than 4 entries, and otherwise sets OVF and stores nothing (where no capture-triggered head
references the unit). A read of ENC.CAPTS returns the oldest entry's timestamp and latches its other words for the path. A
write of ENC.CAPSTAT with POP removes the oldest entry. (R59, R60, R427.) -/
def Obligations.CaptureUnits : Prop := ∀ (s : State) (pth : Path) (k : Nat) (v : Word), k < 32 →
  (∀ src rising ts, s.dev.live 4 = true → s.dev.on ENC_CAPCTRL_EN k = true → s.dev.rf ENC_CAPCTRL_SRC k = src →
    s.dev.captureSel k rising = true → (∀ j, j < 32 → j ≠ k → s.dev.rf ENC_CAPCTRL_SRC j ≠ src) →
    (∀ h, h < 24 → s.dev.rf LTG_CTRL_SRC h = 2 → s.dev.rf LTG_CTRL_REF h ≠ k) →
    ((s.dev.getCap k).length < 4 → ∃ t, exec (.capture src rising ts) s = .next t ∧ s.onlyRegs t [] ∧
      t.dev.getCap k = s.dev.getCap k ++
        [⟨ts, ux 48 ((s.dev.getEnc (s.dev.rf ENC_CAPCTRL_PSEL k)).pExt ts / 65536)⟩]) ∧
    (4 ≤ (s.dev.getCap k).length → ∃ t, exec (.capture src rising ts) s = .next t ∧ s.onlyRegs t [(.ENC_CAPSTAT, k)] ∧
      t.dev.on ENC_CAPSTAT_OVF k = true ∧ t.dev.cap = s.dev.cap)) ∧
  (s.serves pth .ENC_CAPTS k → ∀ e rest, s.dev.getCap k = e :: rest → ∃ t, exec (.captureRead pth k) s = .next t ∧
    s.onlyRegs t [] ∧ t.dev.cap = s.dev.cap ∧ t.dev.rdata = e.ts % 2 ^ 32 ∧
    t.dev.rlatch .ENC_CAPTSH k pth = e.ts / 2 ^ 32 ∧ t.dev.rlatch .ENC_CAPPOS k pth = e.pos % 2 ^ 32 ∧
    t.dev.rlatch .ENC_CAPPOSH k pth = e.pos / 2 ^ 32) ∧
  (s.accepts pth .ENC_CAPSTAT k v → carried v ENC_CAPSTAT_POP = 1 → ∃ t, exec (.capturePop pth k v) s = .next t ∧
    s.onlyRegs t [(.ENC_CAPSTAT, k)] ∧ t.dev.getCap k = (s.dev.getCap k).drop 1)

/-- The characters: a header and a message of each kind, with every field at any value it can carry, are read back from the
characters they are sent as, whatever follows. With the ring enabled and PD_TIM running: at the due instant an originator
sends on both rings a header with its direction, hop count 0, its phase, rank, ID, the running superframe number, TB (48
bits), its own ALIVE and LOCKMASK bits, and the same eight slots (LINE messages first, then the other ones, then IDLE
slots), and the superframe number goes up by 1 modulo 256; a superframe whose header has a wrong CRC is counted in
ERRCNT.HDR and a member sends that header on with inverted CRC bits; of a good one a member sends the header on with HOPS +
1, its own ALIVE bit and, locked, its LOCKMASK bit set, everything else as received and a right CRC, and takes MASTERID, the
masks of the active ring and the position; each slot that is to be ignored is counted in ERRCNT.SLOT. (R65, R66, R68, R70.)
-/
def Obligations.RingHeaders : Prop :=
  ((∀ (h : RingHdr) (rest : List Nat), h.dir < 2 → h.phase < 4 → h.rank < 4 → h.mid < 32 → h.hops < 256 → h.sfn < 256 →
      h.tb < 2 ^ 48 → h.pos < 2 ^ 64 → h.alive < 2 ^ 32 → h.lockmask < 2 ^ 32 → h.errf < 16 →
      h.chars.length = 32 ∧ hdrOf (h.chars ++ rest) = some h) ∧
    (∀ head num fire pos, head < 32 → num < 2 ^ 32 → fire < 2 ^ 64 → pos < 2 ^ 64 →
      msgOf (RingMsg.line head num fire pos).chars = some (.line head num fire pos)) ∧
    (∀ id seq ring, id < 32 → seq < 256 → ring < 2 → msgOf (RingMsg.echo id seq ring).chars = some (.echo id seq ring)) ∧
    (∀ id seq turn, id < 32 → seq < 256 → turn < 2 ^ 32 →
      msgOf (RingMsg.echoReply id seq turn).chars = some (.echoReply id seq turn)) ∧
    (∀ id ring ofs, id < 32 → ring < 2 → ofs < 2 ^ 32 →
      msgOf (RingMsg.offset id ring ofs).chars = some (.offset id ring ofs)) ∧
    (∀ tb lead, tb < 2 ^ 64 → lead < 2 ^ 32 → msgOf (RingMsg.start tb lead).chars = some (.start tb lead))) ∧
  (∀ (s : State), s.dev.live 4 = true → s.dev.on ZLK_CTRL_EN 0 = true →
    let out (d : Dev) (ring : Bool) : List Nat := if ring then d.zlk.out1 else d.zlk.out0
    (s.dev.zlk.originating = true → s.dev.superframeDue = true → s.dev.zlk.abortCode = 0 →
      ∃ t, exec .zlkSuperframeSend s = .next t ∧ s.onlyRegs t [(.ZLK_STAT, 0)] ∧
        (∀ ring, ∃ p, hdrOf (out t.dev ring) = some p ∧ p.dir = b2n ring ∧ p.hops = 0 ∧
          p.phase = s.dev.rf ZLK_STAT_PHASE 0 ∧ p.rank = s.dev.rf ZLK_CTRL_ROLE 0 % 2 ∧
          p.mid = s.dev.rf ZLK_CTRL_ID 0 ∧ p.sfn = s.dev.zlk.sfn % 256 ∧ p.tb = s.dev.t % 2 ^ 48 ∧
          p.alive = 2 ^ s.dev.rf ZLK_CTRL_ID 0 ∧ p.lockmask = p.alive ∧
          (s.dev.on ZLK_POSSRC_EN 0 = false → p.pos = 0)) ∧
        t.dev.zlk.out0.length = 256 ∧ t.dev.zlk.out1.drop 32 = t.dev.zlk.out0.drop 32 ∧
        t.dev.zlk.sfn = (s.dev.zlk.sfn + 1) % 256 ∧
        (s.dev.rf ZLK_STAT_PHASE 0 = 2 → s.dev.zlk.rejoin = false → s.dev.zlk.startPend = false →
          s.dev.on ZLK_CTRL_TRACK 0 = false →
          t.dev.zlk.plan = (s.dev.zlk.txLines ++ s.dev.zlk.txMsgs).take 8 ++
            List.replicate (8 - (s.dev.zlk.txLines ++ s.dev.zlk.txMsgs).length) .idle)) ∧
    (∀ ring chars at64, hdrOf chars = none → ∃ t, exec (.zlkHeaderReceive ring chars at64) s = .next t ∧
      s.onlyRegs t [(.ZLK_ERRCNT, 0)] ∧ s.dev.counts t.dev ZLK_ERRCNT_HDR 0 1 ∧
      s.dev.counts t.dev ZLK_ERRCNT_SLOT 0 ((slotsOf chars).filter (fun x => (msgOf x).isNone)).length ∧
      (s.dev.zlk.originating = false → ∃ slots, out t.dev ring = invertCrc chars ++ slots) ∧
      (s.dev.zlk.originating = true → out t.dev = out s.dev)) ∧
    (∀ ring chars at64 hdr, hdrOf chars = some hdr → s.dev.zlk.originating = false → s.dev.startRuns = false →
      s.dev.zlk.errCode = 0 →
      ∃ t, exec (.zlkHeaderReceive ring chars at64) s = .next t ∧
        s.onlyRegs t [(.ZLK_STAT, 0), (.ZLK_ALIVE, 0), (.ZLK_LOCKMASK, 0), (.ZLK_TBERR, 0), (.ZLK_ERRCNT, 0)] ∧
        hdrOf (out t.dev ring) = some { hdr with
          hops := (hdr.hops + 1) % 256, alive := Nat.lor hdr.alive s.dev.zbit
          lockmask := if s.dev.on ZLK_STAT_LOCKED 0 then Nat.lor hdr.lockmask s.dev.zbit else hdr.lockmask } ∧
        s.dev.counts t.dev ZLK_ERRCNT_SLOT 0 ((slotsOf chars).filter (fun x => (msgOf x).isNone)).length ∧
        t.dev.rf ZLK_ERRCNT_HDR 0 = s.dev.rf ZLK_ERRCNT_HDR 0 ∧ t.dev.rf ZLK_STAT_MASTERID 0 = hdr.mid ∧
        (ring = s.dev.on ZLK_STAT_ACTIVE 0 → t.dev.rf ZLK_ALIVE_MASK 0 = hdr.alive ∧
          t.dev.rf ZLK_LOCKMASK_MASK 0 = hdr.lockmask) ∧
        (ring = s.dev.on ZLK_STAT_ACTIVE 0 → s.dev.zrole = 2 → t.dev.zlk.rpos = hdr.pos)))

/-- While PD_TIM runs, for the message of a slot that has not been taken: a slot that carries no message of the row's kind
has no effect; a member answers an ECHO to it that asks for the other ring in the first IDLE slot of that ring's superframe
that has not begun, with its ID, the sequence number and the time from the ECHO's K28.1 to its own, and keeps the answer
where no superframe passes; the master takes an ECHO_REPLY that matches one echo out and adds half the round trip less the
turn to that member's samples, and in background tracking the sixteenth sample sends the mean as OFFSET; an OFFSET to the
member writes OFSP or OFSR, one to another has no effect; a START of a member in start phase sets TB from the sender's TB,
the offset of the active ring and the time since, keeps LEAD and enters phase LOCK; a LINE message that leaves 200 ns is
issued to the one head that follows its source, with its number and boundary, one that comes later is counted LATE and sets
the followers' LINE and GAP, lines missed since the last one are counted LOST; a second copy, or a message to a device that
takes none, changes no line. (R67, R70, R71, R73, R77, R78.) -/
def Obligations.RingMessages : Prop :=
  (∀ (s : State) (ring : Bool) (j : Nat), s.dev.live 4 = true →
    (s.dev.slotMsg ring j = none → ∀ c, c = Instr.ringLine ring j ∨ c = .ringEcho ring j ∨ c = .echoReply ring j ∨
      c = .ringOffset ring j ∨ c = .ringStartMessage ring j → exec c s = .next s) ∧
    (∀ seq, s.dev.slotMsg ring j = some (.echo (s.dev.rf ZLK_CTRL_ID 0) seq (b2n (!ring))) → s.dev.zlk.originating = false →
      ∃ t, exec (.ringEcho ring j) s = .next t ∧ s.onlyRegs t [] ∧ t.dev.slotMsg ring j = none ∧
        let r := s.dev.ringIn (!ring)
        let out (d : Dev) : List Nat := if ring then d.zlk.out0 else d.zlk.out1
        let begins (k : Nat) : Int := r.atDev + 64 * slotStart k
        (out s.dev = [] → out t.dev = [] ∧ (t.dev.ringIn (!ring)).replies = r.replies ++ [(seq, s.dev.slotDev ring j)]) ∧
        (∀ k, k < 8 → r.replies = [] → (out s.dev).length = 256 →
          (∀ i, i < k → ¬ (msgOf (slotOf (out s.dev) i) = some .idle ∧ 64 * (s.dev.now : Int) ≤ begins i)) →
          msgOf (slotOf (out s.dev) k) = some .idle → 64 * (s.dev.now : Int) ≤ begins k →
          (begins k + 64 * 48 - s.dev.slotDev ring j).toNat < 2 ^ 32 → seq < 256 →
          msgOf (slotOf (out t.dev) k) =
            some (.echoReply (s.dev.rf ZLK_CTRL_ID 0) seq (begins k + 64 * 48 - s.dev.slotDev ring j).toNat) ∧
          (∀ i, i < 8 → i ≠ k → slotOf (out t.dev) i = slotOf (out s.dev) i) ∧
          (out t.dev).take 32 = (out s.dev).take 32 ∧ (t.dev.ringIn (!ring)).replies = [])) ∧
    (∀ e turn, s.dev.slotMsg ring j = some (.echoReply e.id e.seq turn) → e ∈ s.dev.zlk.echoes →
      (∀ x ∈ s.dev.zlk.echoes, x.id = e.id → x.seq = e.seq → x = e) → s.dev.startRuns = false →
      ∃ t, exec (.echoReply ring j) s = .next t ∧ s.onlyRegs t [] ∧ e ∉ t.dev.zlk.echoes ∧ t.dev.slotMsg ring j = none ∧
        let rx64 := (s.dev.ringIn ring).at64 + 64 * slotStart j
        let accs := addSample s.dev.zlk.accs e.id (1 - e.ring) (tdiv ((rx64 : Int) - e.tx - turn) 2)
        (s.dev.rf ZLK_STAT_PHASE 0 ≠ 2 → t.dev.zlk.accs = accs ∧ t.dev.zlk.txMsgs = s.dev.zlk.txMsgs) ∧
        (s.dev.rf ZLK_STAT_PHASE 0 = 2 → s.dev.zlk.rejoin = false → s.dev.zrole = 1 →
          t.dev.zlk.accs = accs.filter (fun a => decide (a.count < 16)) ∧
          t.dev.zlk.txMsgs = s.dev.zlk.txMsgs ++ (accs.filter (fun a => decide (16 ≤ a.count))).map
            (fun a => .offset a.id a.ring (ux 20 (tdiv a.sum a.count))))) ∧
    (∀ ofs, (s.dev.slotMsg ring j = some (.offset (s.dev.rf ZLK_CTRL_ID 0) 0 ofs) →
        ∃ t, exec (.ringOffset ring j) s = .next t ∧ s.onlyRegs t [(.ZLK_OFSP, 0)] ∧ t.dev.rf ZLK_OFSP_OFS 0 = ofs % 2 ^ 20 ∧
          t.dev.slotMsg ring j = none) ∧
      (s.dev.slotMsg ring j = some (.offset (s.dev.rf ZLK_CTRL_ID 0) 1 ofs) →
        ∃ t, exec (.ringOffset ring j) s = .next t ∧ s.onlyRegs t [(.ZLK_OFSR, 0)] ∧ t.dev.rf ZLK_OFSR_OFS 0 = ofs % 2 ^ 20 ∧
          t.dev.slotMsg ring j = none) ∧
      (∀ id r, id ≠ s.dev.rf ZLK_CTRL_ID 0 → s.dev.slotMsg ring j = some (.offset id r ofs) →
        ∃ t, exec (.ringOffset ring j) s = .next t ∧ s.onlyRegs t [])) ∧
    (∀ tb lead, s.dev.slotMsg ring j = some (.start tb lead) → s.dev.zlk.originating = false → s.dev.zrole = 4 →
      ∃ t, exec (.ringStartMessage ring j) s = .next t ∧ s.onlyRegs t [(.ZLK_STAT, 0)] ∧ t.dev.zlk.rxLead = lead ∧
        t.dev.tb = BitVec.ofInt 64 ((((64 * tb + if s.dev.on ZLK_STAT_ACTIVE 0 then s.dev.rf ZLK_OFSR_OFS 0
          else s.dev.rf ZLK_OFSP_OFS 0 : Nat) : Int) + (64 * (s.dev.now : Int) - s.dev.slotDev ring j)) / 64) ∧
        t.dev.rf ZLK_STAT_PHASE 0 = 2 ∧ t.dev.on ZLK_STAT_LOCKED 0 = false ∧ t.dev.slotMsg ring j = none)) ∧
  (∀ (s : State) (ring : Bool) (j head num fire pos : Nat),
    s.dev.live 4 = true → s.dev.slotMsg ring j = some (.line head num fire pos) →
    (s.dev.zrole = 2 → (∀ e ∈ tget s.dev.zlk.recent [] head, e.1 = num → e.2 + 16384 ≤ s.dev.now) →
      (tget s.dev.zlk.lastLine 0 head = 0 → s.dev.t + 200 ≤ fire → s.dev.on ZLK_STAT_LOCKED 0 = true →
        ∀ h, s.dev.ringFollowers head = [h] → s.dev.readyToFire h fire →
        ∃ t, exec (.ringLine ring j) s = .next t ∧ s.issues t h num fire [] ∧
          t.dev.rf LTG_LINE_LINE h = (num + 1) % 2 ^ 32) ∧
      (∀ last, tget s.dev.zlk.lastLine 0 head = last + 1 → linesBetween last num < 2 ^ 31 → fire < s.dev.t + 200 →
        s.dev.ringFollowers head = [] →
        ∃ t, exec (.ringLine ring j) s = .next t ∧ s.onlyRegs t [(.ZLK_LINECNT, 0)] ∧ t.dev.slotMsg ring j = none ∧
          s.dev.counts t.dev ZLK_LINECNT_LOST 0 (linesBetween last num) ∧ s.dev.counts t.dev ZLK_LINECNT_LATE 0 1) ∧
      (fire < s.dev.t + 200 → ∀ h, h ∈ s.dev.ringFollowers head →
        ∃ t, exec (.ringLine ring j) s = .next t ∧
          s.onlyRegs t ((.ZLK_LINECNT, 0) :: (List.range 24).flatMap (fun g => [(RegKind.LTG_STAT, g), (RegKind.LTG_LINE, g)])) ∧
          t.dev.on LTG_STAT_GAPPEND h = true ∧
          t.dev.rf LTG_LINE_LINE h = (num + 1) % 2 ^ 32 ∧ (t.dev.getLtg h).issued = (s.dev.getLtg h).issued)) ∧
    ((∃ e ∈ tget s.dev.zlk.recent [] head, e.1 = num ∧ s.dev.now < e.2 + 16384) ∨
        s.dev.zrole = 0 ∨ s.dev.zrole = 1 ∨ s.dev.zrole = 3 →
      ∃ t, exec (.ringLine ring j) s = .next t ∧ s.onlyRegs t [] ∧ t.dev.ltg = s.dev.ltg ∧ t.dev.slotMsg ring j = none))

/-- While PD_TIM runs: after 4,096 ns without a valid header on the active input of a member whose other input is valid, the
member takes over to the other ring, counted; where the other input is lost already, it becomes an island, counted, and with
ISLAND.MODE STOP every armed RING line trigger has a gap pending; 8,192 ns without a valid header on the active ring clear
LOCKED; DISCOVER longer than STARTTMO ends the start in role 0 with error 5 where the two rings of an originator disagree
and 1 otherwise; an accepted write of ZLK.CTRL with EN and START in role 0 begins a start: role 4, phase 0, error 0. A read
of ZLK.RPOS returns the low word and latches the upper one. (R68, R69, R70, R72, R74, R79, R81, R427.) -/
def Obligations.RingBreaks : Prop := ∀ (s : State), s.dev.live 4 = true →
  (∀ ring, s.dev.zrole = 2 → s.dev.on (inputOk ring) 0 = true → (s.dev.ringIn ring).lastNow + 4096 ≤ s.dev.now →
    (s.dev.on (inputOk (!ring)) 0 = true → s.dev.on ZLK_STAT_ACTIVE 0 = ring →
      ∃ t, exec (.zlkInputLost ring) s = .next t ∧ s.onlyRegs t [(.ZLK_STAT, 0), (.ZLK_BRKCNT, 0)] ∧
        t.dev.on ZLK_STAT_ACTIVE 0 = !ring ∧ t.dev.on ZLK_STAT_TAKEOVER 0 = true ∧ t.dev.on (inputOk ring) 0 = false ∧
        s.dev.counts t.dev ZLK_BRKCNT_TAKEOVER 0 1) ∧
    (s.dev.on (inputOk (!ring)) 0 = false →
      ∃ t, exec (.zlkInputLost ring) s = .next t ∧
        s.onlyRegs t ((.ZLK_STAT, 0) :: (.ZLK_BRKCNT, 0) :: (List.range 24).map (fun h => (.LTG_STAT, h))) ∧
        (s.dev.on ZLK_ISLAND_MODE 0 = false → ∀ h, h < 24 → s.dev.on LTG_CTRL_ARM h = true →
          s.dev.rf LTG_CTRL_SRC h = 3 → t.dev.on LTG_STAT_GAPPEND h = true) ∧
        t.dev.zrole = 3 ∧ t.dev.on ZLK_STAT_ISLANDSEEN 0 = true ∧ t.dev.on (inputOk ring) 0 = false ∧
        s.dev.counts t.dev ZLK_BRKCNT_ISLAND 0 1)) ∧
  (s.dev.on ZLK_STAT_LOCKED 0 = true → (s.dev.ringIn (s.dev.on ZLK_STAT_ACTIVE 0)).lastNow + 8192 ≤ s.dev.now →
    ∃ t, exec .zlkLockLost s = .next t ∧ s.onlyRegs t [(.ZLK_STAT, 0)] ∧ t.dev.on ZLK_STAT_LOCKED 0 = false) ∧
  (s.dev.zrole = 4 → s.dev.rf ZLK_STAT_PHASE 0 = 0 → s.dev.startRuns = true →
    s.dev.zlk.startNow + 1000 * s.dev.rf ZLK_STARTTMO_TMO 0 ≤ s.dev.now →
    ∃ t, exec .zlkStartTimeout s = .next t ∧ s.onlyRegs t [(.ZLK_STAT, 0)] ∧ t.dev.zrole = 0 ∧ t.dev.startRuns = false ∧
      t.dev.rf ZLK_STAT_ERR 0 =
        (if s.dev.zlk.originating = true ∧ ¬ (64 ≤ s.dev.zlk.pri.own ↔ 64 ≤ s.dev.zlk.rev.own) then 5 else 1)) ∧
  (∀ pth v, s.accepts pth .ZLK_CTRL 0 v → carried v ZLK_CTRL_EN = 1 → carried v ZLK_CTRL_START = 1 → s.dev.zrole = 0 →
    ∃ t, exec (.zlkCtrlStart pth v) s = .next t ∧ s.onlyRegs t [(.ZLK_CTRL, 0), (.ZLK_STAT, 0)] ∧ t.dev.zrole = 4 ∧
      t.dev.rf ZLK_STAT_PHASE 0 = 0 ∧ t.dev.rf ZLK_STAT_ERR 0 = 0 ∧ t.dev.startRuns = true ∧
      t.dev.zlk.originating = decide (carried v ZLK_CTRL_ROLE ≠ 2)) ∧
  (∀ pth, s.serves pth .ZLK_RPOS 0 → ∃ t, exec (.zlkRposRead pth) s = .next t ∧ s.onlyRegs t [] ∧
    t.dev.rdata = s.dev.zlk.rpos % 2 ^ 32 ∧ t.dev.rlatch .ZLK_RPOSH 0 pth = s.dev.zlk.rpos / 2 ^ 32 % 2 ^ 32 ∧
    t.dev.zlk = s.dev.zlk)

/-- The PGA and converter give CLPTGT plus the gain times the voltage in steps of 146.484375 uV, rounded with halves up,
limited to 0 to 16,383 (the gain 10^(GAIN/160), both sides of each comparison raised to the 160th power). A pixel of an
enabled channel of a fired line that is due, with its group on and the balls connected, not the last of its line nor of the
clamp window: v_in is AVnnP less its reference or AVnnN by INMODE, with the sign of POL; CDS takes the sample less the reset
level; the clamp adds VAL x 0.625 mV and the fetched trim code takes off 0.5 or 2 mV a step; the code is that of the
voltage, off by what the converter departs, with the coefficients of the slice that converts it; its corrected value uses
the PCT entry fetched for it (a neutral entry outside the window), with BYPASS it is 4x; the overrange flag is set by the
input, the voltage at the PGA or a raw code at either end of the range, is counted and shows its cause; nothing else of the
registers changes. (R87, R89, R94, R97, R99, R102, R104, R113, R116, R133, R135.) -/
def Obligations.PixelWords : Prop :=
  (∀ (tgt gain v : Nat), tgt ≤ 16383 →
    (let x := pgaCode tgt gain v;
      tgt ≤ x ∧ x ≤ 16383 ∧ (tgt < x → ((2 * (x - tgt) - 1) * 9375) ^ 160 ≤ (128 * v) ^ 160 * 10 ^ gain) ∧
      (x < 16383 → (128 * v) ^ 160 * 10 ^ gain < ((2 * (x - tgt) + 1) * 9375) ^ 160)) ∧
    (0 < v → let x := pgaCode tgt gain (-(v : Int));
      x ≤ tgt ∧ (x < tgt → ((2 * (tgt - x) - 1) * 9375) ^ 160 < (128 * v) ^ 160 * 10 ^ gain) ∧
      (0 < x → (128 * v) ^ 160 * 10 ^ gain ≤ ((2 * (tgt - x) + 1) * 9375) ^ 160))) ∧
  (∀ (s : State) (c num k : Nat) (sample reset : Balls) (dev : Int) (w : LineWork), c < 96 →
    s.dev.groupOn (c / 12) = true → s.dev.live 4 = true → s.dev.anx.released = true → s.dev.workOf (headOf c) = [w] →
    w.line.num = num → w.fired = true → w.scanJ = none → fieldOf w.line.snap AFE_CH_EN c ≠ 0 →
    tget w.came 0 c ≤ k + fieldOf w.line.snap AFE_HTIM_HLEAD (headOf c) → s.dev.pixelDue w c k = true →
    (∀ f ∈ s.dev.fetchesOf c, f.line ≠ num) → k + 1 < fieldOf w.line.snap AFE_HNPIX_NPIX (headOf c) →
    (k : Int) ≠ sx 14 (fieldOf w.line.snap AFE_CLPWIN_FIRST c) + 2 ^ fieldOf w.line.snap AFE_CLPWIN_CNT c - 1 →
    w.px.length + 1 < (enabledChans w.line.snap (headOf c)).length * fieldOf w.line.snap AFE_HNPIX_NPIX (headOf c) →
    let t := w.line.snap
    let vin (b : Balls) : Int := b.p - (if fieldOf t AFE_CH_INMODE c = 0 then b.ref else b.n)
    let sign : Int := if fieldOf t AFE_CH_POL c = 0 then 1 else -1
    let cds := fieldOf t AFE_CH_SAMP c ≠ 0
    let clamp : Int := sx 10 (fieldOf t AFE_CLP_VAL c) * 625
    let trim : Int := if k < fieldOf t PCU_WIN_LEN c ∧ fieldOf t AFE_CH_TRIMEN c ≠ 0 then
      sx 8 (tget w.trims 0 (pixKey c k)) * (if fieldOf t AFE_CH_TRNG c = 0 then 500 else 2000) else 0
    let held : Int := if fieldOf t AFE_CH_SAMP c ≠ 0 then sign * (vin sample - vin reset) else sign * vin sample
    let v : Int := held + clamp - trim
    let raw := (clampI 0 16383 ((pgaCode (fieldOf t AFE_CLPTGT_TGT c) (fieldOf t AFE_PGA_GAIN c) v : Int) + dev)).toNat
    let i := sliceIdx (c / 12) (converterOf t c k)
    let x := sliceCode raw (coefOfs t i) (coefGain t i)
    let beyond (b : Balls) : Prop := if fieldOf t AFE_CH_INMODE c = 0 then b.p < 200000 ∨ 2700000 < b.p else 1250000 < (vin b).natAbs
    let inp := beyond sample ∨ cds ∧ beyond reset
    let wide := v < -350000 ∨ 2450000 < v
    let ent := if k < fieldOf t PCU_WIN_LEN c then tget w.ents neutralPct (pixKey c k) else neutralPct
    let bypass := decide (fieldOf t PCU_HCFG_BYPASS (headOf c) ≠ 0)
    ∃ u, exec (.pixelWord c num k sample reset dev) s = .next u ∧ s.onlyRegs u [(.AFE_STAT, c), (.AFE_OVRCNT, c)] ∧
      (∃ (ovr : Bool) (w' : LineWork), (ovr = true ↔ inp ∨ wide ∨ raw = 0 ∨ raw = 16383) ∧
        u.dev.workOf (headOf c) = [w'] ∧ w'.line = w.line ∧
        tfind w'.px (pixKey c k) = some ⟨x, if bypass then 4 * x else correct x ent, ovr, if bypass then neutralPct else ent⟩ ∧
        s.dev.counts u.dev AFE_OVRCNT_PIX c (b2n ovr)) ∧
      (u.dev.on AFE_STAT_OVRIN c = true ↔ s.dev.on AFE_STAT_OVRIN c = true ∨ inp) ∧
      (u.dev.on AFE_STAT_OVRTRIM c = true ↔ s.dev.on AFE_STAT_OVRTRIM c = true ∨ wide) ∧
      (u.dev.on AFE_STAT_OVRCODE c = true ↔ s.dev.on AFE_STAT_OVRCODE c = true ∨ raw = 0 ∨ raw = 16383) ∧
      tget u.dev.pcu.legs 0 (2 * c + k % 2) = v)

/-- A write of AFE.SCANCTRL with START begins a phase scan of the written channel with no results; with STOP it ends one;
AFE.SCANDATA reads 0 while a scan runs, and otherwise the next result with its index, which advances modulo 64. A read of
PCU.STLINE returns the last line's number and latches its statistics for the path; a write of PCU.HSEL with LATCH copies the
head's histogram; a read of PCU.HDATA returns two bins and advances BIN by 2 modulo 256; a write of PCU.LWCTRL that sets EN
starts the line writer at slot 0 with the stride of the registers before the write. (R111, R137, R138, R141, R427.) -/
def Obligations.ScanAndStatistics : Prop :=
  (∀ (s : State) (pth : Path) (v : Word),
    (s.accepts pth .AFE_SCANCTRL 0 v → carried v AFE_SCANCTRL_START = 1 → carried v AFE_SCANCTRL_STOP = 0 →
      ∃ t, exec (.afeScanStart pth v) s = .next t ∧ s.onlyRegs t [(.AFE_SCANCTRL, 0)] ∧
        t.dev.on AFE_SCANCTRL_BUSY 0 = true ∧ t.dev.on AFE_SCANCTRL_DONE 0 = false ∧
        t.dev.rf AFE_SCANCTRL_CH 0 = carried v AFE_SCANCTRL_CH ∧ t.dev.pcu.scan = ⟨[], 0, 0⟩) ∧
    (s.accepts pth .AFE_SCANCTRL 0 v → carried v AFE_SCANCTRL_START = 0 → carried v AFE_SCANCTRL_STOP = 1 →
      s.dev.on AFE_SCANCTRL_BUSY 0 = true → ∃ t, exec (.afeScanStop pth v) s = .next t ∧
        s.onlyRegs t [(.AFE_SCANCTRL, 0)] ∧ t.dev.on AFE_SCANCTRL_BUSY 0 = false ∧ t.dev.pcu = s.dev.pcu) ∧
    (s.serves pth .AFE_SCANDATA 0 →
      (s.dev.on AFE_SCANCTRL_BUSY 0 = true → ∃ t, exec (.afeScandataRead pth) s = .next t ∧ s.onlyRegs t [] ∧
        t.dev.rdata = 0 ∧ t.dev.pcu = s.dev.pcu) ∧
      (s.dev.on AFE_SCANCTRL_BUSY 0 = false → ∃ t, exec (.afeScandataRead pth) s = .next t ∧ s.onlyRegs t [] ∧
        t.dev.rdata = tget s.dev.pcu.scan.results 0 s.dev.pcu.scan.next + s.dev.pcu.scan.next * 65536 ∧
        t.dev.pcu.scan.next = (s.dev.pcu.scan.next + 1) % 64 ∧ t.dev.pcu.scan.results = s.dev.pcu.scan.results))) ∧
  (∀ (s : State) (pth : Path) (h : Nat) (v : Word), h < 24 →
    (s.serves pth .PCU_STLINE h → ∃ t, exec (.statsLatchRead pth h) s = .next t ∧ s.onlyRegs t [] ∧
      t.dev.rdata = (tget s.dev.pcu.stats .reset h).line ∧
      t.dev.rlatch .PCU_STMAX h pth = (tget s.dev.pcu.stats .reset h).max ∧
      t.dev.rlatch .PCU_STSUM h pth = (tget s.dev.pcu.stats .reset h).sum % 2 ^ 32 ∧
      t.dev.rlatch .PCU_STCNT h pth = (tget s.dev.pcu.stats .reset h).cnt % 2 ^ 16 ∧ t.dev.pcu = s.dev.pcu) ∧
    (s.accepts pth .PCU_HSEL 0 v → carried v PCU_HSEL_LATCH = 1 → ∃ t, exec (.histogramLatch pth v) s = .next t ∧
      s.onlyRegs t [(.PCU_HSEL, 0)] ∧ t.dev.rf PCU_HSEL_BIN 0 = carried v PCU_HSEL_BIN ∧
      t.dev.pcu.hbuf = (tget s.dev.pcu.stats .reset (carried v PCU_HSEL_HEAD)).hist) ∧
    (s.serves pth .PCU_HDATA 0 → ∃ t, exec (.histogramRead pth) s = .next t ∧ s.onlyRegs t [(.PCU_HSEL, 0)] ∧
      let b := s.dev.rf PCU_HSEL_BIN 0 / 2 * 2
      t.dev.rdata = tget s.dev.pcu.hbuf 0 b % 65536 + tget s.dev.pcu.hbuf 0 (b + 1) % 65536 * 65536 ∧
      t.dev.rf PCU_HSEL_BIN 0 = (b + 2) % 256 ∧ t.dev.pcu = s.dev.pcu) ∧
    (s.accepts pth .PCU_LWCTRL h v → s.dev.on PCU_LWCTRL_EN h = false → carried v PCU_LWCTRL_EN = 1 →
      ∃ t, exec (.lineWriterEnable pth h v) s = .next t ∧ s.onlyRegs t [(.PCU_LWCTRL, h)] ∧
        t.dev.on PCU_LWCTRL_EN h = true ∧ tget t.dev.pcu.stride 0 h = lineStride s.dev.regs h ∧
        tget t.dev.pcu.slot 0 h = 0 ∧ t.dev.rf PCU_LWCTRL_DEPTH h = carried v PCU_LWCTRL_DEPTH))

/-- Each entry that a fetch takes when it is due and whose target is correctable moves its live PCT and PTT values by one
slew step towards their targets (with BYPASS the PTT value alone), is kept for its pixel, and changes no other entry; one
whose live copy is uncorrectable takes its target at once, is counted, and its pixel is converted with neutral values; an
uncorrectable target is counted and leaves the live entry. While no TSYNC copy runs, a write of a table window sets the
target entry (PCT) or four entries (PTT) and no other target and no live entry, unless a window in use holds it: then it is
staged while the group's buffer has room; a PCT value with more than one replacement bit is refused and counted. A waiting
write is performed when nothing holds it any more. A write of PCU.TSYNC starts a head's copy with the windows in force; its
end does nothing before its time, and then every entry not copied before has live equal to target unless the target is
uncorrectable, every entry outside the windows stays, and no target has changed. (R127, R128, R129, R130, R131, R132, R135.)
-/
def Obligations.CoefficientTables : Prop :=
  (∀ (s : State) (c : Nat) (f : Fetch), c < 96 → s.dev.groupOn (c / 12) = true →
    s.dev.fetchesOf c = [f] → f.due s.dev.t = true → f.next + 1 < f.len → s.dev.pcu.tables.tsync = [] →
    let i := tabIdx (c / 12) (f.base + f.next)
    let sl := s.dev.rf CAL_SLEW_SL 0
    let others (t : State) : Prop :=
      (∀ j, j ≠ i → t.dev.pctLive j = s.dev.pctLive j ∧ t.dev.pttLive j = s.dev.pttLive j) ∧
      (∀ j, t.dev.pctTarget j = s.dev.pctTarget j ∧ t.dev.pttTarget j = s.dev.pttTarget j) ∧
      t.dev.fetchesOf c = [{ f with next := f.next + 1 }]
    i ∉ s.dev.pcu.tables.badPct → i ∉ s.dev.pcu.tables.badPtt →
    (∃ t, exec (.tableEntryFetch c .clean) s = .next t ∧ s.onlyRegs t [] ∧ others t ∧
      t.dev.pctLive i = (if f.bypass then s.dev.pctLive i else slewPct (s.dev.pctLive i) (s.dev.pctTarget i) sl) ∧
      t.dev.pttLive i = slewPtt (s.dev.pttLive i) (s.dev.pttTarget i) sl ∧
      (∀ w, s.dev.workOf (headOf c) = [w] → w.line.num = f.line → ∃ w', t.dev.workOf (headOf c) = [w'] ∧ w'.line = w.line ∧
        tget w'.ents neutralPct (pixKey c f.next) = t.dev.pctLive i ∧ tget w'.trims 0 (pixKey c f.next) = t.dev.pttLive i)) ∧
    (f.bypass = false → ∃ t, exec (.tableEntryFetch c ⟨.double, .clean, .double, .clean⟩) s = .next t ∧
      s.onlyRegs t [(.PCU_ECCCNT, c / 12)] ∧ others t ∧
      t.dev.pctLive i = s.dev.pctTarget i ∧ t.dev.pttLive i = s.dev.pttTarget i ∧
      s.dev.counts t.dev PCU_ECCCNT_DBE (c / 12) 2 ∧
      (∀ w, s.dev.workOf (headOf c) = [w] → w.line.num = f.line → ∃ w', t.dev.workOf (headOf c) = [w'] ∧ w'.line = w.line ∧
        tget w'.ents neutralPct (pixKey c f.next) = neutralPct ∧ tget w'.trims 0 (pixKey c f.next) = 0)) ∧
    (f.bypass = false → ∃ t, exec (.tableEntryFetch c ⟨.clean, .double, .clean, .clean⟩) s = .next t ∧
      s.onlyRegs t [(.PCU_ECCCNT, c / 12)] ∧ others t ∧ t.dev.pctLive i = s.dev.pctLive i ∧ i ∈ t.dev.pcu.tables.badPct ∧
      s.dev.counts t.dev PCU_ECCCNT_DBE (c / 12) 1)) ∧
  (∀ (s : State), s.dev.pcu.tables.tsync = [] →
    (∀ pth pct i (v : Word), s.dev.takes pth → i < 98304 → (pct = false → i % 4 = 0) → s.dev.tableOpen i = true →
      s.dev.pcu.tables.waiting = [] →
      (s.dev.heldWrite pct i = none → pct = true → pctWriteBad v.toNat = false →
        ∃ t, exec (.tableTargetWrite pth pct i v) s = .next t ∧ s.onlyRegs t [] ∧ t.dev.pctTarget i = v.toNat ∧
          (∀ j, j ≠ i → t.dev.pctTarget j = s.dev.pctTarget j) ∧ t.dev.pcu.tables.pttT = s.dev.pcu.tables.pttT ∧
          t.dev.pcu.tables.pctL = s.dev.pcu.tables.pctL ∧ t.dev.pcu.tables.pttL = s.dev.pcu.tables.pttL) ∧
      (s.dev.heldWrite pct i = none → pct = false →
        ∃ t, exec (.tableTargetWrite pth pct i v) s = .next t ∧ s.onlyRegs t [] ∧
          (∀ n, n < 4 → t.dev.pttTarget (i + n) = v.toNat / 2 ^ (8 * n) % 256) ∧
          (∀ j, j < i ∨ i + 4 ≤ j → t.dev.pttTarget j = s.dev.pttTarget j) ∧
          t.dev.pcu.tables.pctT = s.dev.pcu.tables.pctT ∧ t.dev.pcu.tables.pctL = s.dev.pcu.tables.pctL ∧
          t.dev.pcu.tables.pttL = s.dev.pcu.tables.pttL) ∧
      (∀ c n, s.dev.heldWrite pct i = some (c, n) → (s.dev.stagedOf (i / 12288)).length < 256 →
        (pct = true → pctWriteBad v.toNat = false) →
        ∃ t, exec (.tableTargetWrite pth pct i v) s = .next t ∧ s.onlyRegs t [] ∧
          (∃ w, t.dev.pcu.tables.staged = s.dev.pcu.tables.staged ++ [w] ∧ w.pct = pct ∧ w.idx = i ∧ w.chan = some c ∧
            w.line = n ∧ w.val = v.toNat) ∧
          t.dev.pcu.tables.pctT = s.dev.pcu.tables.pctT ∧ t.dev.pcu.tables.pttT = s.dev.pcu.tables.pttT) ∧
      (pth = .direct → pct = true → pctWriteBad v.toNat = true → s.dev.domOn 2 = true →
        ∃ t, exec (.tableTargetWrite pth pct i v) s = .next t ∧ s.onlyRegs t [(.SYS_ACCERR, 0), (.SYS_ACCADDR, 0)] ∧
          s.dev.counts t.dev SYS_ACCERR_COUNT 0 1 ∧ t.dev.pcu = s.dev.pcu)) ∧
    (∀ g w, g < 8 → s.dev.tableOpen (12288 * g) = true → s.dev.pcu.tables.waiting = [w] → w.idx / 12288 = g →
      w.pct = true → s.dev.heldWrite w.pct w.idx = none → s.dev.kw.cur = none →
      ∃ t, exec (.tableWriteResume g) s = .next t ∧ s.onlyRegs t [] ∧ t.dev.pcu.tables.waiting = [] ∧
        t.dev.pctTarget w.idx = w.val ∧ (∀ j, j ≠ w.idx → t.dev.pctTarget j = s.dev.pctTarget j) ∧
        t.dev.pcu.tables.pctL = s.dev.pcu.tables.pctL) ∧
    (∀ pth v h, h < 24 → s.accepts pth .PCU_TSYNC 0 v → carried v PCU_TSYNC_HEADS = 2 ^ h →
      tbit (s.dev.rf PCU_TSYNC_HEADS 0) h = false → winTotal ((chansOf h).map s.dev.winRange) ≠ 0 →
      ∃ t, exec (.tsyncCopy pth v) s = .next t ∧ s.onlyRegs t [(.PCU_TSYNC, 0)] ∧
        tbit (t.dev.rf PCU_TSYNC_HEADS 0) h = true ∧
        tget t.dev.pcu.tables.tsync none h = some ⟨(chansOf h).map s.dev.winRange, 0, s.dev.now⟩)) ∧
  (∀ (s : State) (h : Nat) (r : TsyncRun), h < 24 → s.dev.live 2 = true →
    tget s.dev.pcu.tables.tsync none h = some r →
    (s.dev.now < r.start + ceilDiv (winTotal r.wins * 16000) 8192 → exec (.tsyncCopyDone h []) s = .next s) ∧
    (r.start + ceilDiv (winTotal r.wins * 16000) 8192 ≤ s.dev.now → tbit (s.dev.rf PCU_TSYNC_HEADS 0) h = true →
      ∃ t, exec (.tsyncCopyDone h []) s = .next t ∧ s.onlyRegs t [(.PCU_TSYNC, 0)] ∧
        tbit (t.dev.rf PCU_TSYNC_HEADS 0) h = false ∧
        (∀ n j, r.next ≤ n → n < winTotal r.wins → winEntry r.wins n = some j →
          (tabIdx (groupOf h) j ∉ s.dev.pcu.tables.badPct →
            t.dev.pctLive (tabIdx (groupOf h) j) = s.dev.pctTarget (tabIdx (groupOf h) j)) ∧
          (tabIdx (groupOf h) j ∉ s.dev.pcu.tables.badPtt →
            t.dev.pttLive (tabIdx (groupOf h) j) = s.dev.pttTarget (tabIdx (groupOf h) j))) ∧
        (∀ i, (∀ n, winEntry r.wins n ≠ some (i - 12288 * groupOf h)) ∨ i < 12288 * groupOf h →
          t.dev.pctLive i = s.dev.pctLive i ∧ t.dev.pttLive i = s.dev.pttLive i) ∧
        (∀ j, t.dev.pctTarget j = s.dev.pctTarget j ∧ t.dev.pttTarget j = s.dev.pttTarget j)))

/-- With the firmware running and nothing for its scheduler to start: a passing line result raises the pass count and a
failing one sets it to 0, the result's RMS is shown, equality is reached at the pass count the limits ask for, and the
mitten's OFS and GAIN are brought on, in SHADOW by all of the difference and in RETURN by 1 and 4 at most; 4,096 lines in
state 1 without equality end the rotation with TIMEOUT and reason 9; a good reference calibration in state 2 holds the new
coefficients aside and reports quality; a bad one marks the slice FAILED and moves to state 4 with BAD_STATE; a passing
result on an idle head hands the slice over: state 2, COVERED set. (R117, R118, R121, R122, R123.) -/
def Obligations.MittenRotation : Prop := ∀ (s : State) (g : Nat), g < 8 → s.dev.calIdle → s.dev.groupOn g = true →
  let m := s.dev.getMit g
  let i := sliceIdx g (s.dev.mitSlice g)
  (∀ mean rms peak gdiff, s.dev.mitState g = 1 ∨ s.dev.mitState g = 3 →
    ∃ t, exec (.mittenLineResult g mean rms peak gdiff) s = .next t ∧
      s.onlyRegs t [(.CNV_MITCNT, g), (.CNV_SOFS, 13 * g + 12), (.CNV_SGAIN, 13 * g + 12)] ∧
      t.dev.rf CNV_MITCNT_PASS g = (if m.passes mean rms peak then min (s.dev.rf CNV_MITCNT_PASS g + 1) 255 else 0) ∧
      t.dev.rf CNV_MITCNT_RMS g = min rms 4095 ∧
      (s.dev.mitState g = 1 → coefOfs t.dev.regs (sliceIdx g 12) =
          clampI (-2048) 2047 (coefOfs s.dev.regs (sliceIdx g 12) + mean) ∧
        coefGain t.dev.regs (sliceIdx g 12) = clampI (-32768) 32767 (coefGain s.dev.regs (sliceIdx g 12) - gdiff)) ∧
      (s.dev.mitState g = 3 → (coefOfs t.dev.regs (sliceIdx g 12) - coefOfs s.dev.regs (sliceIdx g 12)).natAbs ≤ 1 ∧
        (coefGain t.dev.regs (sliceIdx g 12) - coefGain s.dev.regs (sliceIdx g 12)).natAbs ≤ 4) ∧
      (t.dev.getMit g).equal = (m.passes mean rms peak &&
        (m.equal || decide (m.eqLines ≤ min (s.dev.rf CNV_MITCNT_PASS g + 1) 255)))) ∧
  (4096 ≤ s.dev.rf CNV_MIT_LINES g → m.equal = false → s.dev.mitState g = 1 → ∃ t, exec (.mittenMaxlnExpiry g) s = .next t ∧
    s.onlyRegs t [(.CNV_MIT, g), (.CNV_MITCNT, g), (.CAL_RSTAT, 1), (.CAL_RVAL, 1)] ∧ t.dev.mitState g = 0 ∧
    t.dev.mitSlice g = 15 ∧ t.dev.rf CAL_RSTAT_STATUS 1 = stTIMEOUT ∧ t.dev.rf CAL_RSTAT_STAT 1 = 9) ∧
  (∀ ofs gain apt resid spur, s.dev.mitState g = 2 →
    (∃ t, exec (.sliceRefCalDone g true ofs gain apt resid spur) s = .next t ∧ s.onlyRegs t [(.CNV_SQUAL, i)] ∧
      (t.dev.getMit g).held = some ⟨ofs, gain, apt⟩ ∧ t.dev.rf CNV_SQUAL_RESID i = resid % 2 ^ 16 ∧
      t.dev.rf CNV_SQUAL_SPUR i = spur % 2 ^ 16) ∧
    (s.dev.on CAL_STORECFG_AUTO 0 = false →
      ∃ t, exec (.sliceRefCalDone g false ofs gain apt resid spur) s = .next t ∧
        s.onlyRegs t [(.CNV_SSTAT, i), (.CNV_MIT, g), (.CNV_MITCNT, g), (.CAL_RSTAT, 1), (.CAL_RVAL, 1)] ∧
        t.dev.on CNV_SSTAT_FAILED i = true ∧ t.dev.mitState g = 4 ∧ t.dev.mitSlice g = s.dev.mitSlice g ∧
        t.dev.rf CAL_RSTAT_STATUS 1 = stBAD_STATE)) ∧
  (∀ mean rms peak, s.dev.mitQuiet g = true → s.dev.mitState g = 1 → m.passes mean rms peak = true →
    ∃ t, exec (.mittenIdleHandover g mean rms peak) s = .next t ∧
      s.onlyRegs t [(.CNV_SSTAT, i), (.CNV_MIT, g), (.CNV_MITCNT, g)] ∧ t.dev.mitState g = 2 ∧
      t.dev.mitSlice g = s.dev.mitSlice g ∧ t.dev.on CNV_SSTAT_COVERED i = true)

/-- With the firmware running, PD_PWR on and nothing for its scheduler to start: an AFE calibration step advances its item
by one step where the group's ladder is free and the triggers are stopped or a usable gap has no step yet, and not twice in
one gap; a temperature poll with TRIG marks due exactly the items that were due, have moved, or whose part is stale; a
context check gives each part in use its distance from the present activity and makes it STALE above 256 and VALID at 192 or
less. A store that is verified has its magic, slot, sequence number, erase count and commit word in both slots of its pair
and the PCT targets of its set in slot A, changes no other word of the boot flash, and makes its pair the valid one; one
that fails after its retry sets STOREFAIL and writes nothing; when the interval has passed with changes and AUTO, a store
begins in the pair the choice rule gives, with the set in force, which is erased and marked invalid first. (R146, R157,
R158, R163, R164, R168, R170, R172.) -/
def Obligations.CalibrationPolls : Prop :=
  (∀ (s : State), s.dev.calIdle → s.dev.domOn 3 = true →
    (∀ h x, h < 24 → s.dev.groupOn (groupOf h) = true → s.dev.itemAt 2 h = some x → x.steps < 64 →
      s.dev.ladderFree (groupOf h) = true →
      let line := (s.dev.getHcp h).gapFrom
      (s.dev.trigStopped h = true ∧ line ≤ s.dev.t ∨ s.dev.inGap h = true ∧ x.gap ≠ some line →
        ∃ t, exec (.afeCalStep h) s = .next t ∧ s.onlyRegs t [] ∧
          t.dev.itemAt 2 h = some { x with steps := x.steps + 1, gap := some line }) ∧
      (s.dev.trigStopped h = false → x.gap = some line → ∃ t, exec (.afeCalStep h) s = .next t ∧ s.onlyRegs t [] ∧
        t.dev.itemAt 2 h = some x)) ∧
    (s.dev.on CAL_CTRL_TRIG 0 = true → ∃ t, exec .calTempPoll s = .next t ∧ s.onlyRegs t [] ∧
      ∀ k i, (k, i) ∈ tempItems → (t.dev.isDue k i = true ↔
        s.dev.isDue k i = true ∨ s.dev.calMoved k i = true ∨ s.dev.partStale (partOf k i) = true)) ∧
    (∃ t, exec .calContextCheck s = .next t ∧ s.onlyRegs t ((List.range 16).map (fun n => (.FAB_ACT, n))) ∧
      ∀ n ∈ partList, (s.dev.getPart n).state ≠ 0 →
        (t.dev.getPart n).dist = s.dev.activity.distance n ∧
        (t.dev.getPart n).state =
          (if 256 < s.dev.activity.distance n then 2 else if s.dev.activity.distance n ≤ 192 then 1 else (s.dev.getPart n).state))) ∧
  (∀ (s : State), s.dev.calIdle →
    let pairWord (base p a : Nat) : Prop := slotAt base p 0 ≤ a ∧ a < slotAt base p 0 + 2 * slotWords
    (∀ r, s.dev.cal.store = some r → r.pair < 8 →
      ((partRecords r.snap).length ≤ 4079 →
        ∃ t, exec (.calStoreDone true) s = .next t ∧ s.onlyRegs t [(.CAL_STORESTAT, 0), (.CAL_STORESEQ, 0)] ∧
          t.dev.cal.store = none ∧ (∀ a, ¬ pairWord r.base r.pair a → t.dev.flashWord a = s.dev.flashWord a) ∧
          (∀ slot, slot < 2 → t.dev.flashWord (slotAt r.base r.pair slot) = 0x4C414357 ∧
            t.dev.flashWord (slotAt r.base r.pair slot + 1) = 1 + slot * 2 ^ 16 + r.pair * 2 ^ 24 ∧
            t.dev.flashWord (slotAt r.base r.pair slot + 2) = r.snap.seq ∧
            t.dev.flashWord (slotAt r.base r.pair slot + 3) = r.snap.erases ∧
            t.dev.flashWord (slotAt r.base r.pair slot + 0xFFFF) = Nat.xor r.snap.seq 0x3C5AC35A) ∧
          (∀ i, i < 61440 → t.dev.flashWord (slotAt r.base r.pair 0 + 16 + i) = tget r.snap.pctT neutralPct i) ∧
          t.dev.rf CAL_STORESTAT_PAIR 0 = r.pair ∧ tbit (t.dev.rf CAL_STORESTAT_VALID 0) r.pair = true ∧
          t.dev.rf CAL_STORESEQ_SEQ 0 = r.snap.seq % 2 ^ 32) ∧
      (r.retry = true → ∃ t, exec (.calStoreDone false) s = .next t ∧
        s.onlyRegs t [(.CAL_STORESTAT, 0), (.CAL_STAT, 0)] ∧ t.dev.cal.store = none ∧ t.dev.on CAL_STAT_STOREFAIL 0 = true ∧
        t.dev.cfg.flash = s.dev.cfg.flash)) ∧
    (∀ p, s.dev.on CAL_STORECFG_AUTO 0 = true → s.dev.cal.changed = true → s.dev.cal.store = none → s.dev.pwr.booted = true →
      s.dev.cal.lastStore + 60000000000 * s.dev.rf CAL_STORECFG_MININT 0 ≤ s.dev.now → s.dev.choosePair none = some p →
      ∃ t, exec .calStoreInterval s = .next t ∧ s.onlyRegs t [(.CAL_STORESTAT, 0)] ∧
        (∃ r, t.dev.cal.store = some r ∧ r.pair = p ∧ r.base = s.dev.storeBase ∧ r.retry = false ∧
          r.snap.pctT = s.dev.pcu.tables.pctT ∧ r.snap.pttT = s.dev.pcu.tables.pttT) ∧
        (∀ a, pairWord s.dev.storeBase p a → t.dev.flashWord a = 2 ^ 32 - 1) ∧
        (∀ a, ¬ pairWord s.dev.storeBase p a → t.dev.flashWord a = s.dev.flashWord a) ∧
        tbit (t.dev.rf CAL_STORESTAT_VALID 0) p = false ∧ t.dev.cal.changed = false))

/-- With the firmware running and nothing for its scheduler to start: a learn of a settled head that waits starts measuring
with an empty sum and the configured number of lines; when the lines of a FLAT or DARK measurement are done and its check
passes, the new entries are those of the check's rule and the learn goes on to its commit; when the check fails, the learn
ends, INPUT_REJECTED with the reason; after 1 s without a line it ends with TIMEOUT, reason 8. (R148, R149, R150, R151,
R152.) -/
def Obligations.Learning : Prop := ∀ (s : State) (h : Nat) (l : Learn), h < 24 → s.dev.calIdle →
  s.dev.learnOf h = some l →
  (s.dev.headSettled h = true → l.phase = 0 → ∃ t, exec (.learnMeasureStart h) s = .next t ∧ s.onlyRegs t [] ∧
    ∃ l', t.dev.learnOf h = some l' ∧ l'.phase = 1 ∧ l'.left = bitsOf l.cfg 0 10 ∧ l'.sum = [] ∧ l'.cnt = [] ∧
      l'.kind = l.kind) ∧
  (l.kind = 4 → l.phase = 1 → l.left = 0 → s.dev.learnBusy h = false →
    (∀ r, s.dev.flatCheck l (s.dev.learnPix h) (bitsOf l.cfg 0 10) = (none, r) →
      ∃ t, exec (.learnMeasureDone h) s = .next t ∧ s.onlyRegs t ((chansOf h).map (fun c => (.CAL_CHQ, c))) ∧
        ∃ l', t.dev.learnOf h = some l' ∧ l'.phase = 5 ∧
          l'.newPct = (s.dev.flatResults l (s.dev.learnPix h) (bitsOf l.cfg 0 10)).1 ∧ l'.val = r) ∧
    (∀ stat val r, s.dev.flatCheck l (s.dev.learnPix h) (bitsOf l.cfg 0 10) = (some (stat, val), r) → stat < 16 →
      ∃ t, exec (.learnMeasureDone h) s = .next t ∧ s.onlyRegs t [(.CAL_RSTAT, 4), (.CAL_RVAL, 4)] ∧
        t.dev.learnOf h = none ∧ t.dev.rf CAL_RSTAT_STATUS 4 = stINPUT_REJECTED ∧ t.dev.rf CAL_RSTAT_STAT 4 = stat)) ∧
  (l.kind = 3 → l.phase = 1 → l.left = 0 → s.dev.learnBusy h = false →
    (s.dev.darkCheck l (s.dev.learnPix h) = none →
      ∃ t, exec (.learnMeasureDone h) s = .next t ∧ s.onlyRegs t ((chansOf h).map (fun c => (.CAL_CHQ, c))) ∧
        ∃ l', t.dev.learnOf h = some l' ∧ 5 ≤ l'.phase ∧
          l'.newPct = (s.dev.darkResults l (s.dev.learnPix h) false).1) ∧
    (∀ stat val, s.dev.darkCheck l (s.dev.learnPix h) = some (stat, val) → stat < 16 →
      ∃ t, exec (.learnMeasureDone h) s = .next t ∧ s.onlyRegs t [(.CAL_RSTAT, 3), (.CAL_RVAL, 3)] ∧
        t.dev.learnOf h = none ∧ t.dev.rf CAL_RSTAT_STATUS 3 = stINPUT_REJECTED ∧ t.dev.rf CAL_RSTAT_STAT 3 = stat)) ∧
  ((l.kind = 3 ∨ l.kind = 4) → max l.lastNow (tget s.dev.pcu.lastFire 0 h) + 1000000000 ≤ s.dev.now →
    ∃ t, exec (.learnNoLinesTimeout h) s = .next t ∧ s.onlyRegs t [(.CAL_RSTAT, l.kind), (.CAL_RVAL, l.kind)] ∧
      t.dev.learnOf h = none ∧ t.dev.rf CAL_RSTAT_STATUS l.kind = stTIMEOUT ∧ t.dev.rf CAL_RSTAT_STAT l.kind = 8)

/-- With the firmware running and nothing for its scheduler to start, for an item that runs: a ladder result whose reference
current is within 2 % is kept with every level corrected by the fused bandgap model, and one outside is refused with
BAD_STATE and reason 11 and leaves the ladder; a good slice result writes the slice's offset and gain; an AFE result after
its 64 steps keeps the leg codes aside and the trim LSB and gain factor of each channel; a comparator, monitor-converter or
cell result is kept, and the cell's is shown in CAC.STAT.OFS; in each good case the item's part becomes VALID, and for the
ladder, the slice, the AFE and the converters the kind's status is OK. (R144, R145, R146, R147, R155, R158, R185.) -/
def Obligations.CalibrationItems : Prop := ∀ (s : State), s.dev.calIdle →
  (∀ iref levels, (s.dev.itemAt 0 0).isSome = true →
    (98000 ≤ s.dev.corrected iref → s.dev.corrected iref ≤ 102000 →
      ∃ t, exec (.calItemComplete 0 0 (.ladder iref levels)) s = .next t ∧
        s.onlyRegs t [(.CAL_RSTAT, 0), (.CAL_RVAL, 0), (.CAL_STAT, 0)] ∧ t.dev.cal.ladder = levels.map s.dev.corrected ∧
        (t.dev.getPart 0).state = 1 ∧ t.dev.rf CAL_RSTAT_STATUS 0 = stOK) ∧
    (s.dev.corrected iref < 98000 ∨ 102000 < s.dev.corrected iref → s.dev.cal.ladder ≠ [] →
      ∃ t, exec (.calItemComplete 0 0 (.ladder iref levels)) s = .next t ∧
        s.onlyRegs t [(.CAL_RSTAT, 0), (.CAL_RVAL, 0)] ∧ t.dev.cal.ladder = s.dev.cal.ladder ∧
        t.dev.rf CAL_RSTAT_STATUS 0 = stBAD_STATE ∧ t.dev.rf CAL_RSTAT_STAT 0 = 11)) ∧
  (∀ i x ofs gain apt resid spur, i < 104 → s.dev.itemAt 1 i = some x → x.phase = 1 →
    ∃ t, exec (.calItemComplete 1 i (.slice true ofs gain apt resid spur)) s = .next t ∧
      s.onlyRegs t [(.CNV_SOFS, i), (.CNV_SGAIN, i), (.CNV_SAPT, i), (.CNV_SQUAL, i), (.CAL_RSTAT, 1), (.CAL_RVAL, 1)] ∧
      t.dev.rf CNV_SOFS_OFS i = ux 12 ofs ∧ t.dev.rf CNV_SGAIN_GAIN i = ux 16 gain ∧
      (t.dev.getPart (1 + i / 13)).state = 1 ∧ t.dev.rf CAL_RSTAT_STATUS 1 = stOK) ∧
  (∀ h x legs trim pga, h < 24 → s.dev.itemAt 2 h = some x → 64 ≤ x.steps →
    ∃ t, exec (.calItemComplete 2 h (.afe legs trim pga)) s = .next t ∧ s.onlyRegs t [(.CAL_RSTAT, 2), (.CAL_RVAL, 2)] ∧
      (t.dev.getPart (16 + h)).state = 1 ∧ t.dev.rf CAL_RSTAT_STATUS 2 = stOK ∧
      ∀ i, i < 4 → tfind t.dev.cal.legNew (4 * h + i) = some (legs.getD i (0, 0)) ∧
        tget t.dev.cal.trimLsb 0 (4 * h + i) = trim.getD i 0 ∧ tget t.dev.cal.pgaF 0 (4 * h + i) = pga.getD i 0) ∧
  (∀ n z, n < 48 → (s.dev.itemAt 5 n).isSome = true → ∃ t, exec (.calItemComplete 5 n (.offset z)) s = .next t ∧
    s.onlyRegs t [(.CAL_RSTAT, 5), (.CAL_RVAL, 5)] ∧ tget t.dev.cal.cmpOfs 0 n = z ∧ (t.dev.getPart 9).state = 1) ∧
  (∀ n ofs gain, n < 2 → (s.dev.itemAt 6 n).isSome = true → s.dev.on MCV_STAT_CALBUSY n = true →
    ∃ t, exec (.calItemComplete 6 n (.coef ofs gain)) s = .next t ∧
      s.onlyRegs t [(.CAL_RSTAT, 6), (.CAL_RVAL, 6), (.MCV_STAT, 0), (.MCV_STAT, 1), (.MCV_TRIGOVR, n)] ∧
      tget t.dev.cal.mcvCoef ⟨0, 0, 0⟩ n = ⟨ofs, gain, 0⟩ ∧ (t.dev.getPart 10).state = 1 ∧
      t.dev.rf CAL_RSTAT_STATUS 6 = stOK ∧ t.dev.on MCV_STAT_CALBUSY n = false) ∧
  (∀ n z, n < 32 → (s.dev.itemAt 7 n).isSome = true → ∃ t, exec (.calItemComplete 7 n (.offset z)) s = .next t ∧
    s.onlyRegs t [(.CAL_RSTAT, 7), (.CAL_RVAL, 7), (.CAC_STAT, n)] ∧ tget t.dev.cal.cacOfs 0 n = z ∧
    t.dev.rf CAC_STAT_OFS n = ux CAC_STAT_OFS.width z ∧ (t.dev.getPart 11).state = 1)

/-- An accepted write of ASW.AX, CAC.SEL, ASW.MTAP or CMP.CFG (EN unchanged) sets the selector fields and, where a selector
moves, its endpoint leaves the bus it stood on and its switch closes at the instant of the break-before-make rule; no other
register changes. A trip isolates the bus, is counted and recorded as the last conflict with cause 2, and leaves the other
buses; a release write frees exactly the isolated buses whose bits are 1. A write of CAC.CFG without RST, or of CAC.NET,
opens the cell's output for 1 us from the next 100 MHz edge; when that time is over a cell with a function takes its ILIM
and RAIL flags (sticky); a reset of an integrator or peak cell runs 200 ns and then ends. (R176, R177, R179, R180, R183,
R184.) -/
def Obligations.AnalogueBusAndCells : Prop :=
  (∀ (s : State) (pth : Path) (i : Nat) (v : Word),
    (i < 32 → s.accepts pth .ASW_AX i v → ∃ t, exec (.aswSelectorWrite pth .ax i v) s = .next t ∧
      s.onlyRegs t [(.ASW_AX, i)] ∧ t.dev.rf ASW_AX_BUS i = carried v ASW_AX_BUS ∧
      t.dev.rf ASW_AX_DIR i = carried v ASW_AX_DIR ∧
      (carried v ASW_AX_BUS ≠ s.dev.rf ASW_AX_BUS i → tget t.dev.anx.closeAt 0 i = s.dev.switchAt ∧
        tget t.dev.anx.cutBus 127 i = s.dev.switchBus i)) ∧
    (i < 32 → s.accepts pth .CAC_SEL i v → ∃ t, exec (.aswSelectorWrite pth .cell i v) s = .next t ∧
      s.onlyRegs t [(.CAC_SEL, i)] ∧ t.dev.rf CAC_SEL_PBUS i = carried v CAC_SEL_PBUS ∧
      t.dev.rf CAC_SEL_NBUS i = carried v CAC_SEL_NBUS ∧ t.dev.rf CAC_SEL_OBUS i = carried v CAC_SEL_OBUS ∧
      (carried v CAC_SEL_PBUS ≠ s.dev.rf CAC_SEL_PBUS i → tget t.dev.anx.closeAt 0 (64 + i) = s.dev.switchAt ∧
        tget t.dev.anx.cutBus 127 (64 + i) = s.dev.switchBus (64 + i))) ∧
    (i < 32 → s.accepts pth .ASW_MTAP i v → ∃ t, exec (.aswSelectorWrite pth .tap i v) s = .next t ∧
      s.onlyRegs t [(.ASW_MTAP, i)] ∧ t.dev.rf ASW_MTAP_BUS i = carried v ASW_MTAP_BUS ∧
      (carried v ASW_MTAP_BUS ≠ s.dev.rf ASW_MTAP_BUS i → tget t.dev.anx.closeAt 0 (224 + i) = s.dev.switchAt ∧
        tget t.dev.anx.cutBus 127 (224 + i) = s.dev.switchBus (224 + i))) ∧
    (i < 48 → s.accepts pth .CMP_CFG i v → carried v CMP_CFG_EN = s.dev.rf CMP_CFG_EN i →
      ∃ t, exec (.aswSelectorWrite pth .comparator i v) s = .next t ∧ s.onlyRegs t [(.CMP_CFG, i)] ∧
        t.dev.rf CMP_CFG_INP i = carried v CMP_CFG_INP ∧ t.dev.rf CMP_CFG_INN i = carried v CMP_CFG_INN ∧
        (carried v CMP_CFG_INP ≠ s.dev.rf CMP_CFG_INP i → s.dev.cmpBase i = i →
          tget t.dev.anx.closeAt 0 (128 + i) = s.dev.switchAt ∧ tget t.dev.anx.cutBus 127 (128 + i) = s.dev.switchBus (128 + i))) ∧
    (∀ b, b < 64 → s.dev.live 6 = true → s.dev.isolated b = false → ∃ t, exec (.abusTrip b) s = .next t ∧
      s.onlyRegs t [(.ASW_TRIP0, 0), (.ASW_TRIP1, 0), (.ASW_CNT, 0), (.ASW_CONFLICT, 0)] ∧ t.dev.isolated b = true ∧
      (∀ x, x < 64 → x ≠ b → t.dev.isolated x = s.dev.isolated x) ∧ s.dev.counts t.dev ASW_CNT_TRIPS 0 1 ∧
      t.dev.rf ASW_CONFLICT_BUS 0 = b ∧ t.dev.rf ASW_CONFLICT_CAUSE 0 = 2) ∧
    (∀ high, s.accepts pth (releaseKind high) 0 v → ∃ t, exec (.abusRelease pth high v) s = .next t ∧
      s.onlyRegs t ((.ASW_TRIP0, 0) :: (.ASW_TRIP1, 0) :: (releaseKind high, 0) :: (List.range 48).map (fun n => (.CMP_STAT, n))) ∧
      ∀ x, x < 64 → t.dev.isolated x =
        (s.dev.isolated x && !(decide (x / 32 = b2n high) && tbit v.toNat (x % 32))))) ∧
  (∀ (s : State) (pth : Path) (n : Nat) (v : Word), n < 32 →
    (∀ e, s.dev.now ≤ e → e < s.dev.now + 10 → e % 10 = 0 →
      (s.accepts pth .CAC_CFG n v → carried v CAC_CFG_RST = 0 →
        ∃ t, exec (.cacConfigWrite pth false n v) s = .next t ∧ s.onlyRegs t [(.CAC_CFG, n)] ∧
          t.dev.rf CAC_CFG_FUNC n = carried v CAC_CFG_FUNC ∧ tget t.dev.anx.cacOpen 0 n = e + 1000 ∧
          tget t.dev.anx.cacRst 0 n = tget s.dev.anx.cacRst 0 n) ∧
      (s.accepts pth .CAC_NET n v →
        ∃ t, exec (.cacConfigWrite pth true n v) s = .next t ∧ s.onlyRegs t [(.CAC_NET, n)] ∧
          t.dev.rf CAC_NET_RA n = carried v CAC_NET_RA ∧ tget t.dev.anx.cacOpen 0 n = e + 1000)) ∧
    (∀ ilim rail, s.dev.live 6 = true → tget s.dev.anx.cacOpen 0 n ≤ s.dev.now →
      s.dev.rf CAC_CFG_FUNC n ≠ 0 → ∃ t, exec (.cacSettled n ilim rail) s = .next t ∧ s.onlyRegs t [(.CAC_STAT, n)] ∧
        tget t.dev.anx.cacOpen 0 n = 0 ∧ t.dev.on CAC_STAT_ILIM n = (ilim || s.dev.on CAC_STAT_ILIM n) ∧
        t.dev.on CAC_STAT_RAIL n = (rail || s.dev.on CAC_STAT_RAIL n)) ∧
    (s.accepts pth .CAC_CFG n v → carried v CAC_CFG_RST = 1 → (carried v CAC_CFG_FUNC = 5 ∨ carried v CAC_CFG_FUNC = 8) →
      ∃ t, exec (.cacReset pth n v) s = .next t ∧ s.onlyRegs t [(.CAC_CFG, n)] ∧
        tget t.dev.anx.cacRst 0 n = s.dev.now + 200) ∧
    (s.dev.live 6 = true → tget s.dev.anx.cacRst 0 n ≠ 0 → tget s.dev.anx.cacRst 0 n ≤ s.dev.now →
      ∃ t, exec (.cacResetEnd n) s = .next t ∧ s.onlyRegs t [] ∧ tget t.dev.anx.cacRst 0 n = 0))

/-- At a tick of a comparator that is not held, not blanked and has no threshold on its way, with the analogue section
released, the first decision sets SETTLED and gives OUT and DEC its result; a later one of an unfiltered, unlatched
comparator that differs from OUT changes OUT, sets EDGESEEN and counts one edge. A write that sets EN starts it at STARTLVL,
not settled. A write of CMP.STAT with CLR ends the latch without changing OUT. In SLEEP, at a tick of the crown, a wake
comparator's true decision begins the wake and sets the CMP source bit. (R186, R188, R189, R190, R191, R192, R195.) -/
def Obligations.Comparators : Prop := ∀ (s : State) (pth : Path) (n : Nat) (v : Word), n < 48 →
  (∀ vp vn x, s.dev.live 6 = true → s.dev.anx.released = true → s.dev.cmpTicks n = true →
    s.dev.cmpHeld n = false → (s.dev.getCmp n).lastTick = none → (s.dev.getCmp n).thNew = [] → s.dev.cmpBlanked n = false → s.dev.cmpCompare n vp vn = some x →
    (s.dev.on CMP_STAT_SETTLED n = false → s.dev.rf CMP_CFG_EVT n ≠ 4 →
      ∃ t, exec (.cmpDecision n vp vn) s = .next t ∧ s.onlyRegs t [(.CMP_STAT, n)] ∧ t.dev.on CMP_STAT_SETTLED n = true ∧
        t.dev.on CMP_STAT_OUT n = x ∧ t.dev.on CMP_STAT_DEC n = x) ∧
    (s.dev.on CMP_STAT_SETTLED n = true → s.dev.rf CMP_FILT_CLASS (s.dev.cmpBase n) = 0 →
      s.dev.rf CMP_CFG_LMODE (s.dev.cmpBase n) = 0 → s.dev.on CMP_STAT_OUT n = !x → s.dev.rf CMP_CFG_EVT n = 0 →
      (∀ k, k < 32 → s.dev.rf ENC_CAPCTRL_SRC k ≠ n) →
      ∃ t, exec (.cmpDecision n vp vn) s = .next t ∧ s.onlyRegs t [(.CMP_STAT, n), (.CMP_EVCNT, n)] ∧
        t.dev.on CMP_STAT_OUT n = x ∧ t.dev.on CMP_STAT_EDGESEEN n = true ∧ s.dev.counts t.dev CMP_EVCNT_EDGES n 1)) ∧
  (s.accepts pth .CMP_CFG n v → s.dev.on CMP_CFG_EN n = false → carried v CMP_CFG_EN = 1 →
    ∃ t, exec (.cmpStart pth n v) s = .next t ∧ s.onlyRegs t [(.CMP_CFG, n), (.CMP_STAT, n)] ∧
      t.dev.on CMP_CFG_EN n = true ∧ t.dev.on CMP_STAT_SETTLED n = false ∧
      t.dev.rf CMP_STAT_OUT n = carried v CMP_CFG_STARTLVL) ∧
  (s.accepts pth .CMP_STAT n v → carried v CMP_STAT_CLR = 1 → s.dev.on CMP_STAT_OUT n = true →
    s.dev.rf CMP_CFG_LMODE (s.dev.cmpBase n) ≠ 0 → ∃ t, exec (.cmpClear pth n v) s = .next t ∧
      s.onlyRegs t [(.CMP_STAT, n)] ∧ (t.dev.getCmp n).ended = true ∧ t.dev.on CMP_STAT_OUT n = true) ∧
  (∀ vp vn, s.dev.pwr.st = .sleep → s.dev.on CMP_CFG_EN n = true → s.dev.on CMP_CFG_WAKE n = true →
    s.dev.on PWR_WAKECFG_CMP 0 = true → s.dev.cmpTicks n = true → s.dev.cmpHeld n = false → (s.dev.getCmp n).lastTick = none →
    (s.dev.getCmp n).thNew = [] → s.dev.on CMP_STAT_SETTLED n = false → s.dev.cmpCompare n vp vn = some true →
    s.dev.rf CMP_CFG_EVT n ≠ 4 →
    ∃ t, exec (.cmpWakeTick n vp vn) s = .next t ∧
      s.onlyRegs t [(.CMP_STAT, n), (.PWR_WAKESTAT, 0), (.SCB_STAT, 0), (.SCB_POS, 0)] ∧ t.dev.pwr.st = .waking ∧
      t.dev.on CMP_STAT_OUT n = true ∧ tbit (t.dev.rf PWR_WAKESTAT_SRC 0) 0 = true)

/-- For a converter that is neither calibrating nor scanning, with no injected sequence out: a regular trigger takes the
oldest waiting one and begins a scan of the enabled inputs, whose delay runs from two to three ACC clocks after the
trigger's instant: DLY clocks, or 2.5 us where the converter was powered down then and DLY is below 160; an injected trigger
begins the injected sequence; GO with software trigger begins a scan, IGO an injected sequence; setting EN with continuous
trigger begins a scan. Each sets the matching busy flag, and a trigger sets PWR. (R204, R205, R206, R207, R208.) -/
def Obligations.ConverterTriggers : Prop := ∀ (s : State) (pth : Path) (m : Nat) (v : Word), m < 2 →
  let x := s.dev.getMcv m
  s.dev.on MCV_STAT_CALBUSY m = false → x.inj = none → s.dev.mcvSlots m ≠ [] →
  s.dev.on MCV_STAT_SCANBUSY m = false →
  (s.dev.live 5 = true → s.dev.on MCV_CTRL_EN m = true → ∀ r rest, x.trigs = r :: rest →
    ∃ t, exec (.mcvRegularTrigger m) s = .next t ∧ s.onlyRegs t [(.MCV_STAT, m)] ∧ (t.dev.getMcv m).trigs = rest ∧
      (∃ due, (t.dev.getMcv m).due = some due ∧
        let first := 8 * max r.lo (min s.dev.now r.hi) + 250 +
          (if r.down = true ∧ s.dev.rf MCV_TRIG_DLY m < 160 then 20000 else 125 * s.dev.rf MCV_TRIG_DLY m)
        first ≤ due ∧ due ≤ first + 125) ∧
      (t.dev.getMcv m).scan = some (s.dev.mcvMask m) ∧ t.dev.on MCV_STAT_SCANBUSY m = true ∧
      t.dev.on MCV_STAT_PWR m = true) ∧
  (s.dev.live 5 = true → s.dev.on MCV_CTRL_IEN m = true → ∀ r rest, x.itrigs = r :: rest →
    ∃ t, exec (.mcvInjectedTrigger m) s = .next t ∧ s.onlyRegs t [(.MCV_STAT, m)] ∧
      (t.dev.getMcv m).itrigs = rest ∧ (t.dev.getMcv m).inj = some (s.dev.mcvSlots m) ∧
      t.dev.on MCV_STAT_INJBUSY m = true ∧ t.dev.on MCV_STAT_PWR m = true) ∧
  (s.accepts pth .MCV_CTRL m v → carried v MCV_CTRL_IEN = s.dev.rf MCV_CTRL_IEN m → carried v MCV_CTRL_EN = 1 →
    carried v MCV_CTRL_IGO = 0 → s.dev.rf MCV_TRIG_SRC m = 0 → carried v MCV_CTRL_GO = 1 →
    ∃ t, exec (.mcvGo pth m v) s = .next t ∧ s.onlyRegs t [(.MCV_CTRL, m), (.MCV_STAT, m)] ∧
      (t.dev.getMcv m).scan = some (s.dev.mcvMask m) ∧ t.dev.on MCV_STAT_SCANBUSY m = true) ∧
  (s.accepts pth .MCV_CTRL m v → carried v MCV_CTRL_EN = s.dev.rf MCV_CTRL_EN m → carried v MCV_CTRL_IEN = 1 →
    carried v MCV_CTRL_GO = 0 → s.dev.rf MCV_ITRIG_SRC m = 0 → carried v MCV_CTRL_IGO = 1 →
    ∃ t, exec (.mcvIgo pth m v) s = .next t ∧ s.onlyRegs t [(.MCV_CTRL, m), (.MCV_STAT, m)] ∧
      (t.dev.getMcv m).inj = some (s.dev.mcvSlots m) ∧ t.dev.on MCV_STAT_INJBUSY m = true) ∧
  (s.accepts pth .MCV_CTRL m v → s.dev.on MCV_CTRL_EN m = false → carried v MCV_CTRL_EN = 1 →
    carried v MCV_CTRL_IEN = s.dev.rf MCV_CTRL_IEN m → carried v MCV_CTRL_GO = 0 → carried v MCV_CTRL_IGO = 0 →
    s.dev.rf MCV_TRIG_SRC m = 4 →
    ∃ t, exec (.mcvEnable pth m v) s = .next t ∧ s.onlyRegs t [(.MCV_CTRL, m), (.MCV_STAT, m)] ∧
      t.dev.on MCV_CTRL_EN m = true ∧ (t.dev.getMcv m).scan = some (s.dev.mcvMask m) ∧
      t.dev.on MCV_STAT_SCANBUSY m = true)

/-- While PD_MCV runs: when a delay ends the first conversion of the scan starts, after the last one and 2.5 us later where
the converter is powered down, and takes ACQ + 18 clocks; with neutral coefficients the code is the voltage in steps of
39.0625 uV, rounded down and limited to 16 bits; a regular conversion's result is put, with its flags, at the write index of
the buffer and the index advances modulo the size, or is dropped and counted with FULL where the buffer is full; after the
idle time without work PWR clears; housekeeping adds its inputs to the converter's list once in 100 ms, and the rail set its
six once a second; a write of MCV.RIDX sets the index and WM is then right; 300 ms without a full set of temperatures set
STALE. (R201, R202, R203, R209, R210, R212, R434.) -/
def Obligations.ConverterEvents : Prop := ∀ (s : State) (m : Nat), m < 2 → s.dev.live 5 = true →
  let x := s.dev.getMcv m
  (∀ t0 i l, x.due = some t0 → t0 ≤ 8 * s.dev.now → x.run = none → s.dev.on MCV_STAT_CALBUSY m = false → x.calPend = false →
    x.injDue = none → x.inj = none → x.hk = [] → x.scan = some (i :: l) →
    ∃ t, exec (.mcvDelayExpiry m false) s = .next t ∧ s.onlyRegs t [(.MCV_STAT, m)] ∧ (t.dev.getMcv m).due = none ∧
      (∃ c, (t.dev.getMcv m).run = some c ∧ c.kind = .regular ∧ c.input = i ∧
        c.ends = max t0 x.lastEnd + (if s.dev.on MCV_STAT_PWR m then 0 else 20000) + 125 * (s.dev.rf MCV_CFG_ACQ m + 18)) ∧ t.dev.on MCV_STAT_PWR m = true) ∧
  (∀ v : Int, tget s.dev.cal.mcvCoef ⟨0, 0, 0⟩ m = ⟨0, 0, 0⟩ → s.dev.mcvCode m v = (clampI 0 65535 (4 * v / 625)).toNat) ∧
  (∀ c (v : Int), x.run = some c → c.kind = .regular → c.ends ≤ 8 * s.dev.now → s.dev.rf MCV_CFG_OVRMODE m = 0 →
    x.calPend = false →
    let size := max (s.dev.rf MCV_BUF_SIZE m) 1
    let w := s.dev.rf MCV_WIDX_WIDX m
    let disc := c.disc.getD (s.dev.mcvDisc m c.input)
    let val := if disc then 0 else s.dev.mcvCode m v
    ((w + 1) % size ≠ s.dev.rf MCV_RIDX_RIDX m → s.dev.mcvCrossing m < 16 →
      ∃ t, exec (.mcvConversionDone m v) s = .next t ∧
        s.onlyRegs t [(.MCV_STAT, m), (.MCV_WIDX, m), (.MCV_TRIGOVR, m)] ∧
        (t.dev.getMcv m).dma = x.dma ++ [(s.dev.rf MCV_BUF_BANK m, s.dev.rf MCV_BUFBASE_BASE m + w,
          s.dev.mcvWord c val (s.dev.rf MCV_STAT_SCANSEQ m) disc)] ∧
        t.dev.rf MCV_WIDX_WIDX m = (w + 1) % size % 2 ^ 17) ∧
    ((w + 1) % size = s.dev.rf MCV_RIDX_RIDX m →
      ∃ t, exec (.mcvConversionDone m v) s = .next t ∧
        s.onlyRegs t [(.MCV_STAT, m), (.MCV_DROPS, m), (.MCV_TRIGOVR, m)] ∧ (t.dev.getMcv m).dma = x.dma ∧
        t.dev.on MCV_STAT_FULL m = true ∧ s.dev.counts t.dev MCV_DROPS_FULL m 1)) ∧
  (x.active = false → x.lastEnd + 8000 * s.dev.rf MCV_CFG_IDLE m ≤ 8 * s.dev.now →
    ∃ t, exec (.mcvIdleExpiry m) s = .next t ∧ s.onlyRegs t [(.MCV_STAT, m)] ∧ t.dev.on MCV_STAT_PWR m = false) ∧
  (m = s.dev.mcvHouseOn → s.dev.pwr.booted = true → x.calPend = false →
    (s.dev.passedSince s.dev.cal.hkAt 100000000 = true → ∃ t, exec .mcvHousekeeping s = .next t ∧
      s.onlyRegs t [(.MCV_STAT, m)] ∧ (t.dev.getMcv m).hk = x.hk ++ houseInputs ∧ t.dev.cal.hkAt = some s.dev.now) ∧
    (∀ n, s.dev.cal.hkAt = some n → s.dev.now < n + 100000000 → exec .mcvHousekeeping s = .next s) ∧
    (∀ ser12, s.dev.passedSince s.dev.cal.railAt 1000000000 = true → ∃ t, exec (.railSet ser12) s = .next t ∧ s.onlyRegs t [(.MCV_STAT, m)] ∧
      (t.dev.getMcv m).hk = x.hk ++ [40, 41, 42, 43, 44, 46] ∧ t.dev.cal.ser12 = ser12)) ∧
  (∀ pth v, s.accepts pth .MCV_RIDX m v → ∃ t, exec (.mcvRidxWrite pth m v) s = .next t ∧
    s.onlyRegs t [(.MCV_RIDX, m), (.MCV_STAT, m)] ∧ t.dev.rf MCV_RIDX_RIDX m = carried v MCV_RIDX_RIDX ∧
    t.dev.on MCV_STAT_WM m = decide (s.dev.rf MCV_WMARK_WMARK m ≤ t.dev.mcvFill m)) ∧
  (s.dev.managementOn = true → s.dev.cal.tempsAt + 300000000 ≤ s.dev.now → ∃ t, exec .temperatureSetTimeout s = .next t ∧
    s.onlyRegs t [(.TMP_STAT, 0)] ∧ t.dev.on TMP_STAT_STALE 0 = true)

/-- A power-on reset leaves every register at its Reset column but the two held by VBAT, clears the memory and TB, and keeps
the boot flash and the fuses; TESTEN does so with the BBRAM key lost; VBAT loss while off loses BBRAM content, the key
included, and nothing else. A cold start with fewer than four failed attempts in each retried step boots, with the settings
at reset, the memory clear and the load machine in CLEAR; four failures of a retried step halt it with that step and its
reason, the first with CFGERRN low. RSTN low in RUN, HOLD, NAP or start-up holds the device with TB 0, cause 1 and one more
warm start counted, every trigger disarmed, every encoder port off and its position kept; a warm start, a lockstep mismatch
(cause 4) and the recovery from a power-fail warning (cause 5) lead to start-up with the firmware booted; a power-fail
warning in RUN leads to power-fail hold, counted, with the memory lost. Each keeps the settings that a warm start keeps
(those that device frames hold return to reset where the configuration is cleared, and the counters where their domain lost
its power), and, the power failure apart, the banks. (R315, R347, R351, R352, R353, R354, R355, R437, R453.) -/
def Obligations.PowerLossAndStarts : Prop :=
  (∀ (s : State),
    (∃ t, exec .porAssert s = .next t ∧ t.pending = s.pending ∧ t.mem = [] ∧ t.dev.pwr.st = .off ∧ t.dev.tb = 0 ∧
      t.dev.cfg.flash = s.dev.cfg.flash ∧ t.dev.fuses = s.dev.fuses ∧
      ∀ k i, i < 65536 → t.dev.rreg k i =
        (if k = .CFG_GOLDADDR ∨ k = .CAL_STOREBASE then s.dev.rreg k i else regReset k i)) ∧
    (∃ t, exec .testenAssert s = .next t ∧ t.pending = s.pending ∧ t.mem = [] ∧ t.dev.pwr.st = .off ∧
      t.dev.pwr.testen = true ∧ t.dev.cfg.bbrKey = [] ∧ t.dev.cfg.flash = s.dev.cfg.flash ∧ t.dev.fuses = s.dev.fuses ∧
      ∀ k i, i < 65536 → t.dev.rreg k i =
        (if k = .CFG_GOLDADDR ∨ k = .CAL_STOREBASE then s.dev.rreg k i else regReset k i)) ∧
    (s.dev.pwr.st = .off → ∃ t, exec .vbatLoss s = .next t ∧ s.onlyRegs t [(.CFG_GOLDADDR, 0), (.CAL_STOREBASE, 0)] ∧
      t.dev.cfg.bbrKey = [] ∧ t.dev.cal.hint = none ∧ t.dev.rreg .CFG_GOLDADDR 0 = regReset .CFG_GOLDADDR 0 ∧
      t.dev.rreg .CAL_STOREBASE 0 = regReset .CAL_STOREBASE 0 ∧ t.dev.cfg.flash = s.dev.cfg.flash ∧ t.dev.fuses = s.dev.fuses) ∧
    ((s.dev.pwr.st = .off ∨ s.dev.pwr.st = .cold) → s.dev.pwr.testen = false → ∀ hpsel bbramOk r p b,
      (r < 4 → p < 4 → b < 4 → ∃ t, exec (.coldStart hpsel bbramOk r p b) s = .next t ∧ t.pending = s.pending ∧ t.mem = [] ∧
        t.settingsReset ∧ t.dev.fuses = s.dev.fuses ∧ t.dev.pwr.booted = true ∧ t.dev.pwr.st = .starting ∧
        t.dev.cfgState = csCLEAR ∧ t.dev.on SYS_STATUS_HPSEL 0 = hpsel ∧ t.dev.on SYS_KWSTAT_READY 0 = true) ∧
      (4 ≤ r → ∃ t, exec (.coldStart hpsel bbramOk r p b) s = .next t ∧ t.pending = s.pending ∧ t.mem = [] ∧
        t.settingsReset ∧ t.dev.fuses = s.dev.fuses ∧ t.dev.pwr.st = .halted ∧ t.dev.rf PWR_STARTERR_STEP 0 = 3 ∧ t.dev.rf PWR_STARTERR_REASON 0 = 3 ∧
        t.dev.cfg.cfgerrnPull = true) ∧
      (r < 4 → 4 ≤ p → ∃ t, exec (.coldStart hpsel bbramOk r p b) s = .next t ∧ t.pending = s.pending ∧ t.mem = [] ∧
        t.settingsReset ∧ t.dev.fuses = s.dev.fuses ∧ t.dev.pwr.st = .halted ∧ t.dev.rf PWR_STARTERR_STEP 0 = 4 ∧ t.dev.rf PWR_STARTERR_REASON 0 = 1) ∧
      (r < 4 → p < 4 → 4 ≤ b → ∃ t, exec (.coldStart hpsel bbramOk r p b) s = .next t ∧ t.pending = s.pending ∧ t.mem = [] ∧
        t.settingsReset ∧ t.dev.fuses = s.dev.fuses ∧ t.dev.pwr.st = .halted ∧ t.dev.rf PWR_STARTERR_STEP 0 = 5 ∧ t.dev.rf PWR_STARTERR_REASON 0 = 2))) ∧
  (∀ (s : State),
    ((s.dev.pwr.st = .run ∨ s.dev.pwr.st = .hold ∨ s.dev.pwr.st = .nap ∨ s.dev.pwr.st = .starting) →
      ∃ t, exec .rstnAssert s = .next t ∧ s.sameStore t ∧ s.settingsKept t false false ∧ t.dev.pwr.st = .held ∧ t.dev.tb = 0 ∧
        t.dev.rf PWR_RSTCAUSE_CAUSE 0 = 1 ∧ s.dev.counts t.dev PWR_RSTCAUSE_WARM 0 1 ∧ t.dev.kw.cur = none ∧
        (∀ h, h < 24 → t.dev.on LTG_CTRL_ARM h = false ∧ (t.dev.getLtg h).issued = []) ∧
        (∀ p, p < 8 → t.dev.on ENC_CTRL_EN p = false ∧ (t.dev.getEnc p).pos = (s.dev.getEnc p).pos)) ∧
    (s.dev.pwr.st = .held → ∃ t, exec .warmStart s = .next t ∧ s.keepsBanks t ∧ s.settingsKept t (!t.dev.pwr.keep) false ∧
      t.dev.pwr.st = .starting ∧ t.dev.pwr.booted = true ∧ t.dev.pwr.rstn = false ∧ t.dev.on SYS_KWSTAT_READY 0 = true ∧
      (s.dev.pwr.keep = true → t.mem = s.mem) ∧ (s.dev.pwr.keep = false → t.dev.cfgState = csCLEAR)) ∧
    (s.dev.running = true → ∃ t, exec .lockstepMismatch s = .next t ∧ s.keepsBanks t ∧ s.settingsKept t (!t.dev.pwr.keep) false ∧
      t.dev.pwr.st = .starting ∧ t.dev.pwr.booted = true ∧ t.dev.rf PWR_RSTCAUSE_CAUSE 0 = 4 ∧
      s.dev.counts t.dev PWR_RSTCAUSE_WARM 0 1) ∧
    (s.dev.pwr.st = .run → ∃ t, exec (.powerFailWarning 1) s = .next t ∧ t.pending = s.pending ∧ t.mem = [] ∧
      s.settingsKept t false true ∧ t.dev.pwr.st = .pfhold ∧ t.dev.rf PWR_STATE_CUR 0 = 5 ∧ t.dev.rf PWR_PFAIL_SRC 0 = 1 ∧
      s.dev.counts t.dev PWR_PFAIL_CNT 0 1) ∧
    (s.dev.pwr.st = .pfhold → ∃ t, exec .pfailRecovery s = .next t ∧ s.keepsBanks t ∧ s.settingsKept t true true ∧
      t.dev.pwr.st = .starting ∧ t.dev.pwr.booted = true ∧ t.dev.rf PWR_RSTCAUSE_CAUSE 0 = 5 ∧ t.dev.cfgState = csCLEAR))

/-- In RUN an accepted request for HOLD begins the transition, BUSY with TGT 2; in HOLD a request for RUN takes effect at
once and leaves a gap pending on every armed trigger; the transition to HOLD ends when no line is out, with HLED off and HSP
low; a transition from NAP to SLEEP ends in SLEEP with the memory lost, READY clear, SLEPT set, every trigger disarmed and
every POSVALID clear; a wake ends in HOLD, RUN or reset, with the settings kept but for the counters. In SLEEP the host,
ring loss, the ring line of the selected head and an enabled capture input each begin the wake, where their enables are set,
and set their bit of WAKESTAT.SRC. (R61, R348, R349, R350.) -/
def Obligations.PowerStatesAndWakes : Prop :=
  (∀ (s : State),
    (∀ pth v, s.accepts pth .PWR_REQ 0 v →
      (s.dev.pwr.st = .run → carried v PWR_REQ_TGT = 2 → ∃ t, exec (.powerStateRequest pth v) s = .next t ∧
        s.onlyRegs t [(.PWR_REQ, 0), (.PWR_STATE, 0)] ∧ t.dev.pwr.st = .run ∧ t.dev.pwr.trans = some (2, .register) ∧
        t.dev.on PWR_STATE_BUSY 0 = true ∧ t.dev.rf PWR_STATE_TGT 0 = 2) ∧
      (s.dev.pwr.st = .hold → carried v PWR_REQ_TGT = 1 → ∃ t, exec (.powerStateRequest pth v) s = .next t ∧
        s.onlyRegs t ([(.PWR_REQ, 0), (.PWR_STATE, 0)] ++ (List.range 24).map (fun h => (.LTG_STAT, h))) ∧ t.dev.pwr.st = .run ∧ t.dev.rf PWR_STATE_CUR 0 = 1 ∧
        ∀ h, h < 24 → s.dev.on LTG_CTRL_ARM h = true → t.dev.on LTG_STAT_GAPPEND h = true)) ∧
    (s.dev.pwr.st = .run → s.dev.pwr.trans = some (2, .register) → s.dev.linesOut = true →
      ∃ t, exec .powerTransitionDone s = .next t ∧
        s.onlyRegs t ((.PWR_STATE, 0) :: (List.range 24).map (fun h => (.HCP_TSTAT, h))) ∧
        (∀ h, h < 24 → t.dev.on HCP_TSTAT_LEDON h = false ∧ t.dev.hspActive h = false) ∧ t.dev.pwr.st = .hold ∧
        t.dev.pwr.trans = none ∧ t.dev.rf PWR_STATE_CUR 0 = 2 ∧ t.dev.on PWR_STATE_BUSY 0 = false) ∧
    (s.dev.pwr.st = .nap → s.dev.pwr.trans = some (4, .register) →
      ∃ t, exec .powerTransitionDone s = .next t ∧ t.pending = s.pending ∧ t.mem = [] ∧
        s.settingsKept t false true ∧ t.dev.pwr.st = .sleep ∧ t.dev.on SYS_KWSTAT_READY 0 = false ∧ t.dev.on LTG_TBCTRL_SLEPT 0 = true ∧
        (∀ h, h < 24 → t.dev.on LTG_CTRL_ARM h = false) ∧ (∀ p, p < 8 → t.dev.on ENC_STAT_POSVALID p = false)) ∧
    (s.dev.pwr.st = .waking →
      (tbit (s.dev.rf PWR_WAKESTAT_SRC 0) 5 = true → ∃ t, exec .wakeDone s = .next t ∧ s.sameStore t ∧ s.settingsKept t false true ∧ t.dev.pwr.st = .held ∧
        t.dev.rf PWR_RSTCAUSE_CAUSE 0 = 1) ∧
      (tbit (s.dev.rf PWR_WAKESTAT_SRC 0) 5 = false → ∃ t, exec .wakeDone s = .next t ∧ s.sameStore t ∧ s.settingsKept t false true ∧
        t.dev.pwr.st = (if s.dev.rf PWR_WAKECFG_RETURN 0 = 1 then .run else .hold) ∧ t.dev.on SYS_KWSTAT_READY 0 = true ∧
        t.dev.rf PWR_WAKESTAT_DUR 0 = min 65535 ((s.dev.now - s.dev.pwr.wakeNow) / 10000) ∧
        (s.dev.rf PWR_WAKECFG_RETURN 0 = 2 → t.dev.pwr.trans = some (3, .silent))))) ∧
  (∀ (s : State), s.dev.pwr.st = .sleep →
    ∀ c b, (c = .wakeHost ∧ b = 4) ∨ (c = .wakeRingLoss ∧ b = 2 ∧ s.dev.on PWR_WAKECFG_RLOSS 0 = true) ∨
      (∃ h, c = .wakeRingLine h ∧ b = 3 ∧ s.dev.on PWR_WAKECFG_RLINE 0 = true ∧ s.dev.rf PWR_WAKECFG_RHEAD 0 = h) ∨
      (∃ k r, k < 32 ∧ c = .wakeCapture k r ∧ b = 1 ∧ s.dev.on PWR_WAKECFG_CAP 0 = true ∧ s.dev.on ENC_CAPCTRL_EN k = true ∧
        s.dev.on ENC_CAPCTRL_WAKE k = true ∧ s.dev.rf ENC_CAPCTRL_SRC k < 112 ∧ s.dev.captureSel k r = true) →
    ∃ t, exec c s = .next t ∧ s.onlyRegs t [(.PWR_WAKESTAT, 0), (.SCB_STAT, 0), (.SCB_POS, 0)] ∧ t.dev.pwr.st = .waking ∧
      t.dev.pwr.wakeNow = s.dev.now ∧ tbit (t.dev.rf PWR_WAKESTAT_SRC 0) b = true)

/-- An accepted write of PWR.DOMEN, as any of its five rows: MEM and SER show what was written; a group written 0 is off,
one written 1 that was off begins its reload and shows 1 when the reload is done; every bank whose MEM bit changed reads 0
throughout, every other bank and the scratchpads keep their words, and no register of a block that no domain on request
holds changes. (R294, R345.) -/
def Obligations.PowerDomains : Prop := ∀ (s : State),
  (∀ pth v c, s.accepts pth .PWR_DOMEN 0 v → (c = .groupPowerDown pth v ∨ c = .groupPowerUp pth v ∨
      c = .bankPowerDown pth v ∨ c = .bankPowerUp pth v ∨ c = .laneQuadPower pth v) →
    ∃ t, exec c s = .next t ∧ t.pending = s.pending ∧ s.dev.keepsBlocks t.dev domenKeeps ∧
      (∀ x, (x < bankAddr 0 0 ∨ bankAddr 8 0 ≤ x) → memByte t.mem x = memByte s.mem x) ∧ t.dev.rf PWR_DOMEN_MEM 0 = carried v PWR_DOMEN_MEM ∧
      t.dev.rf PWR_DOMEN_SER 0 = carried v PWR_DOMEN_SER ∧
      (∀ g, g < 8 → tbit (t.dev.rf PWR_DOMEN_GRP 0) g =
        (tbit (carried v PWR_DOMEN_GRP) g && tbit (s.dev.rf PWR_DOMEN_GRP 0) g)) ∧
      (∀ g, g < 8 → tbit (s.dev.rf PWR_DOMEN_GRP 0) g = false →
        tbit t.dev.pwr.grpBusy g = tbit (carried v PWR_DOMEN_GRP) g) ∧
      (∀ b w, b < 8 → w < 131072 → memRead t.mem (bankAddr b w) 8 =
        (if tbit (carried v PWR_DOMEN_MEM) b = tbit (s.dev.rf PWR_DOMEN_MEM 0) b then memRead s.mem (bankAddr b w) 8 else 0))) ∧
  (∀ g, g < 8 → s.dev.live 2 = true → s.dev.pwr.booted = true → tbit s.dev.pwr.grpBusy g = true →
    ∃ t, exec (.groupReloadDone g) s = .next t ∧ s.sameStore t ∧
      (∀ k i, i < 65536 → (blockOf k ∉ [0x0C, 0x0D, 0x0F] ∧ k ≠ .PWR_DOMEN) → t.dev.rreg k i = s.dev.rreg k i) ∧ tbit (t.dev.rf PWR_DOMEN_GRP 0) g = true ∧
      tbit t.dev.pwr.grpBusy g = false ∧ (t.dev.getPart (1 + g)).state = 0)

/-- While the clocks are watched, loss of the reference clears REFOK, sets REFLOST and HOLDOVER and counts; loss of a PLL's
lock clears its LOCK bit, sets its LOSS bit and HOLDOVER; the return of the reference sets REFOK; 1 ms after it HOLDOVER
ends, the core PLLs are locked, and a gap is pending on every armed trigger. EXTEST is as the instruction says. A JTAG
register access with its valid bit is the direct write or read of its address. (R357, R453.) -/
def Obligations.ClocksAndTest : Prop := ∀ (s : State),
  (s.dev.clocksWatched = true → s.dev.on CLK_REFSTAT_REFOK 0 = true → ∃ t, exec .refclkLost s = .next t ∧
    s.onlyRegs t [(.CLK_REFSTAT, 0)] ∧ t.dev.on CLK_REFSTAT_REFOK 0 = false ∧ t.dev.on CLK_REFSTAT_REFLOST 0 = true ∧
    t.dev.on CLK_REFSTAT_HOLDOVER 0 = true ∧ s.dev.counts t.dev CLK_REFSTAT_LOSSCNT 0 1) ∧
  (∀ i, i < 11 → s.dev.clocksWatched = true → tbit (s.dev.rf CLK_PLLSTAT_LOCK 0) i = true →
    ∃ t, exec (.pllLockLost i) s = .next t ∧ s.onlyRegs t pllRegs ∧ tbit (t.dev.rf CLK_PLLSTAT_LOCK 0) i = false ∧
      tbit (t.dev.rf CLK_PLLSTAT_LOSS 0) i = true ∧ t.dev.on CLK_REFSTAT_HOLDOVER 0 = true) ∧
  (s.dev.on CLK_REFSTAT_REFOK 0 = false → ∃ t, exec .refclkReturn s = .next t ∧ s.onlyRegs t [(.CLK_REFSTAT, 0)] ∧
    t.dev.on CLK_REFSTAT_REFOK 0 = true ∧ t.dev.pwr.refBack = some s.dev.now) ∧
  (∀ n, s.dev.on CLK_REFSTAT_HOLDOVER 0 = true → s.dev.on CLK_REFSTAT_REFOK 0 = true → s.dev.pwr.refBack = some n →
    n + 1000000 ≤ s.dev.now → ∃ t, exec .holdoverEnd s = .next t ∧
      s.onlyRegs t (pllRegs ++ (List.range 24).map (fun h => (.LTG_STAT, h))) ∧
      t.dev.on CLK_REFSTAT_HOLDOVER 0 = false ∧ (∀ i, i < 7 → tbit (t.dev.rf CLK_PLLSTAT_LOCK 0) i = true) ∧
      ∀ h, h < 24 → s.dev.on LTG_CTRL_ARM h = true → t.dev.on LTG_STAT_GAPPEND h = true) ∧
  (∀ b, (b = false → s.dev.gpio.extest = true) → ∃ t, exec (.extestInstruction b) s = .next t ∧ s.onlyRegs t [] ∧
    t.dev.gpio.extest = b) ∧
  (∀ (dr : BitVec 66) e, s.dev.takes .direct → dr.getLsbD 65 = true →
    exec (.jtagRegacc dr e) s = .next (if dr.getLsbD 64 then
      s.directWrite (dr.extractLsb' 32 32).toNat (dr.extractLsb' 0 32).toNat e else s.directRead (dr.extractLsb' 32 32).toNat e))

/-- With PD_TIM running, a finished line routed to a stream port: where the region's cells run and the crossing has room its
words join the port (with PDROP told where a line before it was lost) and no other port changes; where they do not, the line
is dropped and counted in SIDROP.DROP (of both halves in paired mode) and DROPCNT and the next line tells it; where the
region is under reconfiguration it is counted as DISCARD and every output port that follows the input gets an empty
discarded packet of that line's boundary. In paired mode, when both halves have a line of a port: the signature of half A is
written; equal signatures without a cycle mismatch send the driving half's line; otherwise the line is counted in
MMCNT.LINES, its MISMATCH record is posted with port, cause and number, or withheld within MMGAP and counted in SUPP,
CMPFAULT and a FAULT record follow unequal signatures alone, and what leaves is an empty MISMATCH marker under FAILSILENT or
where no half drives, and the driving half's line marked MISMATCH under a preferring policy. (R234, R236, R255, R264, R265,
R267, R22.) -/
def Obligations.StreamAndVerdicts : Prop :=
  (∀ (s : State) (h n p : Nat) (o : LineOut), h < 24 → n < 16 →
    (s.dev.paired = true → n < 8) → s.dev.live 4 = true →
    s.dev.pcu.outs.find? (fun o => decide (o.head = h) && o.region.isSome) = some o → o.region = some n → o.port = some p →
    let x := s.dev.siPort n p
    let halves := if s.dev.paired = true then [n, n + 8] else [n]
    let dropped := (.PCU_DROPCNT, groupOf h) :: halves.map (fun m => (RegKind.FAB_SIDROP, m))
    (s.dev.reconfig n = false → s.dev.cellsRun n = true → x.full = false → ∃ t, exec (.streamLineArrival h) s = .next t ∧
      s.onlyRegs t [] ∧ (t.dev.siPort n p).words = x.words ++ lineWords o x.pdrop ∧ (t.dev.siPort n p).pdrop = false ∧
      t.dev.fab.lines = s.dev.fab.lines ∧
      ∀ k, k ≠ 4 * s.dev.inRgn n + p → tget t.dev.fab.si .reset k = tget s.dev.fab.si .reset k) ∧
    (s.dev.reconfig n = false → s.dev.cellsRun n = false ∨ x.full = true →
      ∃ t, exec (.streamLineArrival h) s = .next t ∧ s.onlyRegs t dropped ∧
      (∀ m, m ∈ halves → s.dev.counts t.dev FAB_SIDROP_DROP m 1 ∧ t.dev.rf FAB_SIDROP_DISCARD m = s.dev.rf FAB_SIDROP_DISCARD m) ∧
      s.dev.counts t.dev PCU_DROPCNT_STREAM (groupOf h) 1 ∧
      t.dev.rf PCU_DROPCNT_WRITER (groupOf h) = s.dev.rf PCU_DROPCNT_WRITER (groupOf h) ∧
      (t.dev.siPort n p).words = x.words ∧ (t.dev.siPort n p).pdrop = true ∧ t.dev.fab.lines = s.dev.fab.lines) ∧
    (s.dev.reconfig n = true → ∃ t, exec (.streamLineArrival h) s = .next t ∧ s.onlyRegs t dropped ∧
      (∀ m, m ∈ halves → s.dev.counts t.dev FAB_SIDROP_DISCARD m 1 ∧ t.dev.rf FAB_SIDROP_DROP m = s.dev.rf FAB_SIDROP_DROP m) ∧
      s.dev.counts t.dev PCU_DROPCNT_STREAM (groupOf h) 1 ∧
      (t.dev.siPort n p).words = x.words ∧ (t.dev.siPort n p).pdrop = true ∧
      (∀ q, q < 4 → s.dev.soMsrc n q = p → ∃ l ∈ t.dev.fab.lines, l.region = n ∧ l.port = q ∧ l.discard = true ∧
        l.words = [] ∧ l.tb = o.s))) ∧
  (∀ (s : State) (n p : Nat) (a b : FabLine), n < 8 → p < 4 → s.dev.live (34 + n) = true →
    s.dev.fab.lines.find? (fun l => decide (l.region = n) && decide (l.port = p) && !l.verdict) = some a →
    s.dev.fab.lines.find? (fun l => decide (l.region = n + 8) && decide (l.port = p) && !l.verdict) = some b →
    let cycles := a.cyc ≠ .none ∨ b.cyc ≠ .none
    let port := if cycles ∧ a.cyc ≠ .port ∧ b.cyc ≠ .port then 15 else p
    let cause := if s.dev.drivingBy n a.pol = none then 3 else if cycles then 1 else 2
    let line := if s.dev.drivingBy n a.pol = some 1 then b else a
    let others := (s.dev.fab.lines.erase a).erase b
    let last := tget s.dev.fab.mmLast 0 n
    (a.sig = b.sig → ¬ cycles → s.dev.drivingBy n a.pol ≠ none →
      ∃ t, exec (.pairedLineVerdict n p) s = .next t ∧ s.onlyRegs t [(.RGN_SIG, 4 * n + p)] ∧
        t.dev.rf RGN_SIG_SIG (4 * n + p) = a.sig % 2 ^ 32 ∧ t.dev.evq = s.dev.evq ∧
        t.dev.fab.lines = others ++ [{ line with region := n, verdict := true }]) ∧
    (a.sig ≠ b.sig ∨ cycles ∨ s.dev.drivingBy n a.pol = none → s.dev.pwr.booted = true →
      ∃ t, exec (.pairedLineVerdict n p) s = .next t ∧
        s.onlyRegs t [(.RGN_SIG, 4 * n + p), (.RGN_PSTAT, 0), (.RGN_MMCNT, n)] ∧
        t.dev.rf RGN_SIG_SIG (4 * n + p) = a.sig % 2 ^ 32 ∧ s.dev.counts t.dev RGN_MMCNT_LINES n 1 ∧
        (∀ m, m < 8 → tbit (t.dev.rf RGN_PSTAT_CMPFAULT 0) m =
          (tbit (s.dev.rf RGN_PSTAT_CMPFAULT 0) m || (decide (m = n) && decide (a.sig ≠ b.sig) && decide (¬ cycles)))) ∧
        (a.sig ≠ b.sig → ¬ cycles →
          (⟨.fault, 0x110 + n, false, false, 15, s.dev.t⟩ : EvRec) ∈ t.dev.evq.inFlight) ∧
        (last = 0 ∨ last - 1 + 1000 * s.dev.rf RGN_GAUNTLET_MMGAP 0 ≤ s.dev.now → t.dev.evq.inFlight.getLast? =
          some ⟨.mismatch, 0x110 + n, false, false,
            port + cause * 16 + (a.tag.map LineTag.num).getD 0 % 2 ^ 24 * 256, s.dev.t⟩) ∧
        (last ≠ 0 → s.dev.now < last - 1 + 1000 * s.dev.rf RGN_GAUNTLET_MMGAP 0 → s.dev.counts t.dev RGN_MMCNT_SUPP n 1) ∧
        t.dev.fab.lines = others ++ [if s.dev.drivingBy n a.pol = none ∨ a.pol = 0 then
            { a with region := n, words := [], eol := 0, mismatch := true, verdict := true }
          else { line with region := n, mismatch := true, verdict := true }]))

/-- A word that an output port has taken enters its queue while fewer than 8 words are in it (an EOL word with OVF in bit 2,
which then clears), and is otherwise lost and counted in SOOVF, its line to carry OVF; no other port changes. The oldest
event of a region's outputs is posted with its value and the TB of its edge when 1 us has passed since the record before it
of the same output, and is otherwise withheld and counted in SUPP. (R238, R240.) -/
def Obligations.FabricOutputs : Prop :=
  (∀ (s : State) (n p : Nat) (w : FabWord) (rest : List FabWord), n < 16 → p < 4 →
    s.dev.live (34 + n) = true → (s.dev.soPort n p).pend = w :: rest →
    let x := s.dev.soPort n p
    (x.queue.length < 8 → ∃ t, exec (.fabOutputWord n p) s = .next t ∧ s.onlyRegs t [] ∧
      (t.dev.soPort n p).pend = rest ∧ (t.dev.soPort n p).words = x.words ∧
      (t.dev.soPort n p).queue = x.queue ++ [{ w with val := if w.kind = .eol then setBit w.val 2 x.ovf else w.val }] ∧
      (t.dev.soPort n p).ovf = (x.ovf && decide (w.kind ≠ .eol)) ∧
      ∀ k, k ≠ 4 * n + p → tget t.dev.fab.so .reset k = tget s.dev.fab.so .reset k) ∧
    (8 ≤ x.queue.length → ∃ t, exec (.fabOutputWord n p) s = .next t ∧ s.onlyRegs t [(.FAB_SOOVF, n)] ∧
      (t.dev.soPort n p) = { x with pend := rest, ovf := true } ∧ s.dev.counts t.dev FAB_SOOVF_WORDS n 1 ∧
      ∀ k, k ≠ 4 * n + p → tget t.dev.fab.so .reset k = tget s.dev.fab.so .reset k)) ∧
  (∀ (s : State) (n v tb : Nat) (rest : List (Nat × Nat)), n < 16 →
    s.dev.live (34 + n) = true → tget s.dev.fab.evPend [] n = (v, tb) :: rest →
    let last := tget s.dev.fab.evLast 0 (4 * n + v % 4)
    ((last = 0 ∨ last - 1 + 1000 ≤ tb) → s.dev.pwr.booted = true → ∃ t, exec (.fabEventOutput n) s = .next t ∧
      s.onlyRegs t [] ∧ tget t.dev.fab.evPend [] n = rest ∧ tget t.dev.fab.evLast 0 (4 * n + v % 4) = tb + 1 ∧
      t.dev.evq.inFlight = s.dev.evq.inFlight ++ [⟨.edge, 0x100 + n, false, false, v, tb⟩]) ∧
    (last ≠ 0 → tb < last - 1 + 1000 → ∃ t, exec (.fabEventOutput n) s = .next t ∧
      s.onlyRegs t [(.FAB_EVCFG, n)] ∧ tget t.dev.fab.evPend [] n = rest ∧ t.dev.fab.evLast = s.dev.fab.evLast ∧
      t.dev.evq = s.dev.evq ∧ s.dev.counts t.dev FAB_EVCFG_SUPP n 1 ∧
      t.dev.rf FAB_EVCFG_EN n = s.dev.rf FAB_EVCFG_EN n))

/-- For 24-bit operands: SUB gives the difference modulo 2^24 with F telling no borrow; SADD clamps the exact sum to the
signed or unsigned range, F telling whether it clamped; SSUB clamps the difference; the arithmetic right shift is the floor
of the value by 2^(b mod 32); MUL is the 18 x 18 product shifted right by 12 to 31. (R219, R220, R221.) -/
def Obligations.CellArithmetic : Prop := ∀ (a b c sh : Nat), a < 2 ^ 24 → b < 2 ^ 24 → c < 2 ^ 24 →
  alu 2 false sh a b c 1 = some ((a + 2 ^ 24 - b) % 2 ^ 24, decide (b ≤ a)) ∧
  (∀ sgn, ∃ r f, alu 3 sgn sh a b c 0 = some (r, f) ∧ r < 2 ^ 24 ∧
    val24 sgn r = clampI (if sgn then -8388608 else 0) (if sgn then 8388607 else 16777215) (val24 sgn a + val24 sgn b) ∧
    (f = true ↔ val24 sgn r ≠ val24 sgn a + val24 sgn b)) ∧
  (∀ sgn, ∃ r f, alu 4 sgn sh a b c 0 = some (r, f) ∧ r < 2 ^ 24 ∧
    val24 sgn r = clampI (if sgn then -8388608 else 0) (if sgn then 8388607 else 16777215) (val24 sgn a - val24 sgn b)) ∧
  (∀ sgn, ∃ r f, alu 14 sgn sh a b c 0 = some (r, f) ∧ r < 2 ^ 24 ∧ val24 sgn r = asr (val24 sgn a) (b % 32)) ∧
  (∀ sgn, 12 ≤ sh → sh ≤ 31 → ∃ r f, alu 19 sgn sh a b c 0 = some (r, f) ∧ r < 2 ^ 24 ∧
    val24 sgn r = asr ((if sgn then sx 18 a else (a % 2 ^ 18 : Nat)) * (if sgn then sx 18 b else (b % 2 ^ 18 : Nat))) sh)

/-- A clock edge of a region whose cells run, where no scratchpad word holds an error: each of its 256 cells takes its next
R and F, computed from the state before the edge; each sequencer its next step; each scratchpad the word its port B writes
(once the region's write enable has come) and no other word changes; no register changes, and no cell of another region (or,
in paired mode, of another pair) changes. (R217, R218, R222, R225, R227, R284.) -/
def Obligations.RegionClockEdge : Prop := ∀ (s : State) (n pads : Nat) (raw : List (Nat × Nat)), n < 16 →
  s.dev.live (34 + n) = true →
  (s.dev.paired = true → n < 8) → s.dev.cellsRun n = true → (s.dev.paired = true → s.dev.cellsRun (n + 8) = true) →
  (∀ x w, x < 256 → w < 1024 → tget s.dev.bank.errs 0 (spAddr x w) = 0) →
  ∃ t, exec (.wordCellCycle n pads raw []) s = .next t ∧ t.pending = s.pending ∧ s.dev.onlyRegs t.dev [] ∧
    (∀ k i, k < 16 → i < 16 → let x := tileOf n k
      t.dev.cell x i = (s.dev.cellEdge x (s.dev.ctx x) i).1) ∧
    (∀ k, k < 16 → let x := tileOf n k
      t.dev.seqAt x = s.dev.seqNext x ∧
      ∀ w, w < 1024 → memRead t.mem (spAddr x w) 3 =
        if s.dev.spBwe x = true ∧ tbit s.dev.fab.wen n = true ∧ s.dev.spBaddr x = w then s.dev.spBdata x % 2 ^ 24
        else memRead s.mem (spAddr x w) 3) ∧
    (∀ x i, x < 256 → i < 16 → tileRegion x ≠ n → (s.dev.paired = true → tileRegion x ≠ n + 8) →
      t.dev.cell x i = s.dev.cell x i)

/-- A requester's oldest request, with a credit and a bank that serves, joins the bank's requests with its word, direction
and data; a region's read also takes its place among its returns, and a line writer moves on to its next word. Without, a
region's request is dropped and counted for its port, a read being answered with DROP and data 0; a line writer drops the
rest of its line and counts it; a converter's result waits in its crossing and nothing changes. A fill issues its next word
with its pattern. (R211, R239, R278, R280, R294, R377.) -/
def Obligations.MemoryRequests : Prop := ∀ (s : State), s.dev.live 2 = true →
  (∀ (p n : Nat) (q : MpReq) (rest : List MpReq), p < 2 → n < 16 → s.dev.domOn (34 + n) = true →
    tget s.dev.fab.mpOut [] (portKey p n) = q :: rest →
    let b := q.addr / 2 ^ 17 % 8
    (s.dev.grants (.region p n) b → tbit s.dev.fab.wen n = true → ∃ t, exec (.memPortRequest (.region p n)) s = .next t ∧
      s.onlyRegs t [] ∧ tget t.dev.fab.mpOut [] (portKey p n) = rest ∧
      (∃ r : MemReq, t.dev.bank.reqs = s.dev.bank.reqs ++ [r] ∧ r.who = .region p n ∧ r.bank = b ∧ r.word = q.addr % 2 ^ 17 ∧
        r.write = q.write ∧ r.data = q.data ∧ r.last = none ∧
        (q.write = false → tget t.dev.bank.rets [] (portKey p n) =
          tget s.dev.bank.rets [] (portKey p n) ++ [⟨r.id, false, 0, false, false, false⟩])) ∧
      (q.write = true → t.dev.bank.rets = s.dev.bank.rets)) ∧
    (¬ s.dev.grants (.region p n) b → ∃ t, exec (.memPortRequest (.region p n)) s = .next t ∧
      s.onlyRegs t [(.MEM_RQDROP, n)] ∧ t.dev.bank.reqs = s.dev.bank.reqs ∧
      tget t.dev.fab.mpOut [] (portKey p n) = rest ∧
      s.dev.counts t.dev MEM_RQDROP_MP0 n (1 - p) ∧ s.dev.counts t.dev MEM_RQDROP_MP1 n p ∧
      (q.write = true → t.dev.bank.rets = s.dev.bank.rets) ∧
      (q.write = false → ∃ r : MemRet, tget t.dev.bank.rets [] (portKey p n) = tget s.dev.bank.rets [] (portKey p n) ++ [r] ∧
        r.ready = true ∧ r.drop = true ∧ r.data = 0))) ∧
  (∀ (h : Nat) (j : LwJob) (jobs : List LwJob) (w : Nat) (ws : List Nat), h < 24 → s.dev.domOn (18 + groupOf h) = true →
    tget s.dev.bank.jobs [] h = j :: jobs → j.words = w :: ws →
    (s.dev.grants (.writer h) j.bank → ∃ t, exec (.memPortRequest (.writer h)) s = .next t ∧ s.onlyRegs t [] ∧
      t.dev.bank.reqs = s.dev.bank.reqs ++
        [⟨.writer h, j.bank, j.word, true, w, 0, if ws = [] then some (h, j.slot, j.line) else none⟩] ∧
      tget t.dev.bank.jobs [] h = if ws = [] then jobs else { j with word := j.word + 1, words := ws } :: jobs) ∧
    (¬ s.dev.grants (.writer h) j.bank → ∃ t, exec (.memPortRequest (.writer h)) s = .next t ∧
      s.onlyRegs t [(.PCU_DROPCNT, groupOf h)] ∧ t.dev.bank.reqs = s.dev.bank.reqs ∧
      tget t.dev.bank.jobs [] h = jobs ∧ s.dev.counts t.dev PCU_DROPCNT_WRITER (groupOf h) 1 ∧
      t.dev.rf PCU_DROPCNT_STREAM (groupOf h) = s.dev.rf PCU_DROPCNT_STREAM (groupOf h))) ∧
  (∀ (m b w v : Nat) (rest : List (Nat × Nat × Nat)), m < 2 → (s.dev.getMcv m).dma = (b, w, v) :: rest →
    (s.dev.grants (.dma m) b → ∃ t, exec (.memPortRequest (.dma m)) s = .next t ∧ s.onlyRegs t [] ∧
      (t.dev.getMcv m).dma = rest ∧ t.dev.bank.reqs = s.dev.bank.reqs ++ [⟨.dma m, b, w, true, v, 0, none⟩]) ∧
    (¬ s.dev.grants (.dma m) b → exec (.memPortRequest (.dma m)) s = .next s)) ∧
  (∀ f : FillRun, s.dev.bank.fills = [f] → f.left ≠ 0 → f.stop = false → ∃ t, exec (.memPortRequest .management) s = .next t ∧
    s.onlyRegs t [] ∧ t.dev.bank.fills = [{ f with next := f.next + 1, left := f.left - 1 }] ∧
    t.dev.bank.reqs = s.dev.bank.reqs ++ [⟨.management, f.bank, f.next, true, f.pattern, 0, none⟩])

/-- A bank cycle performs the request that a port grants. While the bank serves: a write stores its 64 bits with good check
bits, cancels a write-back of the word and changes no other byte (a line writer's last word moves LWIDX); a clean read
delivers the stored word to its place among the region's returns; a single-bit error is corrected, counted and queued for
write-back, or counted in SKIP when 4 are queued; a double-bit error delivers the data as stored with DBE, is counted, its
address recorded and its FAULT record posted at most once per millisecond. In a destructive march a region's request is
counted in RQDROP and a read answered with DROP. Two requests for one word: of two writes port 1's is in force, counted in
WW; a read beside a write sees the word before it, counted in RW. A write-back is served in a port 1 cycle without requests
and in no other. (R273, R276, R278, R280, R281, R282, R283, R289.) -/
def Obligations.BankCycles : Prop := ∀ (s : State) (b : Nat) (e0 e1 : MemEcc), b < 8 → s.dev.live (26 + b) = true →
  (∀ p r g, p < 2 → s.dev.grantOf b p = some (r, g) →
    let c := Instr.memRequestPerform b (decide (p = 0)) (decide (p = 1)) e0 e1
    let a := bankAddr b r.word
    let e := s.dev.shown a (if p = 0 then e0 else e1)
    let answered (t : State) (v : Nat) (sbe dbe : Bool) : Prop :=
      ∀ q n x, r.who = .region q n → x ∈ tget t.dev.bank.rets [] (portKey q n) → x.id = r.id → x.drop = false →
        x.ready = true ∧ x.data = v ∧ x.sbe = sbe ∧ x.dbe = dbe
    (s.dev.bankServes b = true →
      (r.write = true → r.last = none → ∃ t, exec c s = .next t ∧ s.stores t a 8 ∧
        s.dev.onlyRegs t.dev [] ∧ t.dev.bank.reqs = s.dev.bank.reqs.erase r ∧ memRead t.mem a 8 = r.data % 2 ^ 64 ∧
        r.word ∉ tget t.dev.bank.wbq [] b ∧ tget t.dev.bank.errs 0 a = 0) ∧
      (∀ h slot line, r.write = true → r.last = some (h, slot, line) → h < 24 → ∃ t, exec c s = .next t ∧
        s.stores t a 8 ∧ s.dev.onlyRegs t.dev [(.PCU_LWIDX, h)] ∧ memRead t.mem a 8 = r.data % 2 ^ 64 ∧
        t.dev.rf PCU_LWIDX_SLOT h = slot % 2 ^ PCU_LWIDX_SLOT.width ∧ t.dev.rf PCU_LWIDX_LINE h = line % 2 ^ 18) ∧
      (r.write = false → e = .clean → ∃ t, exec c s = .next t ∧ s.onlyRegs t [] ∧
        t.dev.bank.reqs = s.dev.bank.reqs.erase r ∧ t.dev.bank.wbq = s.dev.bank.wbq ∧
        answered t (memRead s.mem a 8) false false) ∧
      (r.write = false → e = .single → ∃ t, exec c s = .next t ∧ s.onlyRegs t [(.MEM_ECCCNT, b), (.MEM_WBCNT, b)] ∧
        s.dev.counts t.dev MEM_ECCCNT_SBE b 1 ∧ t.dev.rf MEM_ECCCNT_DBE b = s.dev.rf MEM_ECCCNT_DBE b ∧
        answered t (memRead s.mem a 8) true false ∧
        ((tget s.dev.bank.wbq [] b).length < 4 → tget t.dev.bank.wbq [] b = tget s.dev.bank.wbq [] b ++ [r.word] ∧
          s.dev.counts t.dev MEM_WBCNT_SKIP b 0) ∧
        (4 ≤ (tget s.dev.bank.wbq [] b).length → t.dev.bank.wbq = s.dev.bank.wbq ∧
          s.dev.counts t.dev MEM_WBCNT_SKIP b 1)) ∧
      (∀ flip, r.write = false → e = .double flip → s.dev.pwr.booted = true → ∃ t, exec c s = .next t ∧ s.stores t a 8 ∧
        s.dev.onlyRegs t.dev [(.MEM_ECCCNT, b), (.MEM_ERRADDR, b)] ∧ s.dev.counts t.dev MEM_ECCCNT_DBE b 1 ∧
        t.dev.rf MEM_ECCCNT_SBE b = s.dev.rf MEM_ECCCNT_SBE b ∧
        t.dev.on MEM_ERRADDR_VALID b = true ∧ t.dev.rf MEM_ERRADDR_WORD b = r.word % 2 ^ 17 ∧
        answered t (memRead t.mem a 8) false true ∧
        (tget s.dev.bank.faultNow 0 b = 0 ∨ tget s.dev.bank.faultNow 0 b + 1000000 ≤ s.dev.now →
          t.dev.evq.inFlight = s.dev.evq.inFlight ++
            [⟨.fault, 0x120 + b, false, false, (t.dev.rreg .MEM_ERRADDR b).toNat, s.dev.t⟩]) ∧
        (tget s.dev.bank.faultNow 0 b ≠ 0 → s.dev.now < tget s.dev.bank.faultNow 0 b + 1000000 →
          t.dev.evq = s.dev.evq))) ∧
    (∀ n, s.dev.bankState b = bsMARCHD → r.who = .region p n → n < 16 → ∃ t, exec c s = .next t ∧
      s.onlyRegs t [(.MEM_RQDROP, n)] ∧ t.dev.bank.reqs = s.dev.bank.reqs.erase r ∧
      s.dev.counts t.dev MEM_RQDROP_MP0 n (1 - p) ∧ s.dev.counts t.dev MEM_RQDROP_MP1 n p ∧
      (r.write = false → ∀ x, x ∈ tget t.dev.bank.rets [] (portKey p n) → x.id = r.id →
        x.ready = true ∧ x.drop = true))) ∧
  (s.dev.bankServes b = true → ∀ r0 r1 g0 g1, s.dev.grantOf b 0 = some (r0, g0) → s.dev.grantOf b 1 = some (r1, g1) →
    r0.word = r1.word → r0.last = none → r1.last = none →
    let a := bankAddr b r0.word
    let c := Instr.memRequestPerform b true true e0 e1
    (r0.write = true → r1.write = true →
      ∃ t, exec c s = .next t ∧ s.stores t a 8 ∧
        s.dev.onlyRegs t.dev [(.MEM_COLLCNT, b)] ∧ memRead t.mem a 8 = r1.data % 2 ^ 64 ∧
        s.dev.counts t.dev MEM_COLLCNT_WW b 1 ∧ s.dev.counts t.dev MEM_COLLCNT_RW b 0) ∧
    (r0.write = false → r1.write = true → s.dev.shown a e0 = .clean →
      ∃ t, exec c s = .next t ∧ s.stores t a 8 ∧
        s.dev.onlyRegs t.dev [(.MEM_COLLCNT, b)] ∧ memRead t.mem a 8 = r1.data % 2 ^ 64 ∧
        s.dev.counts t.dev MEM_COLLCNT_RW b 1 ∧ s.dev.counts t.dev MEM_COLLCNT_WW b 0 ∧
        ∀ q n x, r0.who = .region q n → x ∈ tget t.dev.bank.rets [] (portKey q n) → x.id = r0.id → x.drop = false →
          x.ready = true ∧ x.data = memRead s.mem a 8) ∧
    (r0.write = true → r1.write = false → s.dev.shown a e1 = .clean →
      ∃ t, exec c s = .next t ∧ s.stores t a 8 ∧
        s.dev.onlyRegs t.dev [(.MEM_COLLCNT, b)] ∧ memRead t.mem a 8 = r0.data % 2 ^ 64 ∧
        s.dev.counts t.dev MEM_COLLCNT_RW b 1 ∧ s.dev.counts t.dev MEM_COLLCNT_WW b 0 ∧
        ∀ q n x, r1.who = .region q n → x ∈ tget t.dev.bank.rets [] (portKey q n) → x.id = r1.id → x.drop = false →
          x.ready = true ∧ x.data = memRead s.mem a 8)) ∧
  (∀ w rest, s.dev.bankServes b = true → tget s.dev.bank.wbq [] b = w :: rest → s.dev.pendingOn b 1 = [] →
    ∃ t, exec (.writebackPerform b) s = .next t ∧ s.onlyRegs t [] ∧ tget t.dev.bank.wbq [] b = rest ∧
      t.dev.bank.errs = tset s.dev.bank.errs 0 (bankAddr b w) 0 ∧ t.dev.bank.reqs = s.dev.bank.reqs) ∧
  (∀ w rest, s.dev.bankServes b = true → tget s.dev.bank.wbq [] b = w :: rest → s.dev.pendingOn b 1 ≠ [] →
    exec (.writebackPerform b) s = .next s)

/-- A direct host access of a half word of a bank that is powered and serves, its check bits good: a write stores that half,
keeps the other and changes no other byte; a read returns it. Where the word has a double-bit error, a write stores its half
and 0 in the other, and the error is counted. Of a bank that is off or does not serve, it changes nothing, reads 0 and is
counted with address and cause. A scratchpad word is stored or read while its region is ISOLATED, frozen or clock-gated in
NAP, and refused, reading 0 and counted, where the region is off or in another state. (R17, R274, R283, R286, R289.) -/
def Obligations.MemoryWindows : Prop := ∀ (s : State) (a : Access) (v : Word) (b w half : Nat),
  (∀ wr, b < 8 → w < 131072 → half < 2 → s.hostTaken a wr (bankAddr b w + 4 * half) →
    (s.dev.domOn (26 + b) = true → s.dev.bankServes b = true → tget s.dev.bank.errs 0 (bankAddr b w) = 0 → wr = true →
      ∃ t, exec (.bankHostAccess a wr v .clean) s = .next t ∧ s.stores t (bankAddr b w) 8 ∧ s.dev.onlyRegs t.dev [] ∧
        memRead t.mem (bankAddr b w + 4 * half) 4 = v.toNat ∧
        memRead t.mem (bankAddr b w + 4 * (1 - half)) 4 = memRead s.mem (bankAddr b w + 4 * (1 - half)) 4 ∧
        w ∉ tget t.dev.bank.wbq [] b) ∧
    (s.dev.domOn (26 + b) = true → s.dev.bankServes b = true → tget s.dev.bank.errs 0 (bankAddr b w) = 0 → wr = false →
      ∃ t, exec (.bankHostAccess a wr v .clean) s = .next t ∧ s.onlyRegs t [] ∧
        t.dev.rdata = memRead s.mem (bankAddr b w + 4 * half) 4) ∧
    (∀ flip, s.dev.domOn (26 + b) = true → s.dev.bankServes b = true → wr = true →
      ∃ t, exec (.bankHostAccess a wr v (.double flip)) s = .next t ∧ s.stores t (bankAddr b w) 8 ∧
        s.dev.onlyRegs t.dev [(.MEM_ECCCNT, b), (.MEM_ERRADDR, b)] ∧
        memRead t.mem (bankAddr b w + 4 * half) 4 = v.toNat ∧ memRead t.mem (bankAddr b w + 4 * (1 - half)) 4 = 0 ∧
        s.dev.counts t.dev MEM_ECCCNT_DBE b 1 ∧ tget t.dev.bank.errs 0 (bankAddr b w) = 0) ∧
    ((s.dev.domOn (26 + b) = false ∨ s.dev.bankServes b = false) →
      ∃ t, exec (.bankHostAccess a wr v .clean) s = .next t ∧ s.onlyRegs t [(.SYS_ACCERR, 0), (.SYS_ACCADDR, 0)] ∧
        t.dev.rdata = 0 ∧ t.dev.rf SYS_ACCADDR_ADDR 0 = bankAddr b w + 4 * half ∧ s.dev.counts t.dev SYS_ACCERR_COUNT 0 1 ∧
        t.dev.rf SYS_ACCERR_CAUSE 0 = (if s.dev.domOn (26 + b) then 4 else 5))) ∧
  (∀ wr x, x < 256 → w < 1024 → s.hostTaken a wr (spAddr x w) →
    (s.dev.spPowered (tileRegion x) = true → s.dev.spOpen (tileRegion x) = true → wr = true →
      ∃ t, exec (.scratchpadHostAccess a wr v .clean) s = .next t ∧ s.stores t (spAddr x w) 3 ∧ s.dev.onlyRegs t.dev [] ∧
        memRead t.mem (spAddr x w) 3 = v.toNat % 2 ^ 24) ∧
    (s.dev.spPowered (tileRegion x) = true → s.dev.spOpen (tileRegion x) = true →
      tget s.dev.bank.errs 0 (spAddr x w) = 0 → wr = false →
      ∃ t, exec (.scratchpadHostAccess a wr v .clean) s = .next t ∧ s.onlyRegs t [] ∧
        t.dev.rdata = memRead s.mem (spAddr x w) 3) ∧
    ((s.dev.spPowered (tileRegion x) = false ∨ s.dev.spOpen (tileRegion x) = false) →
      ∃ t, exec (.scratchpadHostAccess a wr v .clean) s = .next t ∧ s.onlyRegs t [(.SYS_ACCERR, 0), (.SYS_ACCADDR, 0)] ∧
        t.dev.rdata = 0 ∧ t.dev.rf SYS_ACCADDR_ADDR 0 = spAddr x w ∧ s.dev.counts t.dev SYS_ACCERR_COUNT 0 1 ∧
        t.dev.rf SYS_ACCERR_CAUSE 0 = (if s.dev.spPowered (tileRegion x) then 4 else 5)))

/-- An accepted write of MEM.BCTRL with MSTART puts the bank into its destructive or preserving march; MSTOP ends it READY
with result ABORTED, a destructive march leaving the bank 0. A march that ends leaves the bank 0 (destructive) or as it was
(preserving), and no other byte changes: without a failing row the result is PASS; with one failing row and all spares free
the first spare takes it and the result is REPAIRED; with no spare left the result is DEGRADED and the row is shown. A fill
whose words are all performed ends and frees its handle. (R289, R290, R292, R293, R377.) -/
def Obligations.MarchesAndFills : Prop := ∀ (s : State) (pth : Path) (b : Nat) (v : Word), b < 8 →
  (s.accepts pth .MEM_BCTRL b v → carried v MEM_BCTRL_MSTART = 1 → carried v MEM_BCTRL_MSTOP = 0 →
    ∃ t, exec (.marchStart pth b v) s = .next t ∧ s.onlyRegs t [(.MEM_BCTRL, b), (.MEM_BSTAT, b)] ∧
      t.dev.rf MEM_BSTAT_STATE b = (if carried v MEM_BCTRL_MMODE = 0 then bsMARCHD else bsMARCHP)) ∧
  (s.accepts pth .MEM_BCTRL b v → carried v MEM_BCTRL_MSTART = 0 → carried v MEM_BCTRL_MSTOP = 1 →
    s.dev.bankState b = bsMARCHP → ∃ t, exec (.marchStop pth b v) s = .next t ∧
      s.onlyRegs t [(.MEM_BCTRL, b), (.MEM_BSTAT, b)] ∧ t.dev.rf MEM_BSTAT_STATE b = bsREADY ∧
      t.dev.rf MEM_BSTAT_RESULT b = 4) ∧
  (s.accepts pth .MEM_BCTRL b v → carried v MEM_BCTRL_MSTART = 0 → carried v MEM_BCTRL_MSTOP = 1 →
    s.dev.bankState b = bsMARCHD → ∃ t, exec (.marchStop pth b v) s = .next t ∧ t.pending = s.pending ∧
      s.dev.onlyRegs t.dev [(.MEM_BCTRL, b), (.MEM_BSTAT, b)] ∧ t.dev.rf MEM_BSTAT_STATE b = bsREADY ∧
      t.dev.rf MEM_BSTAT_RESULT b = 4 ∧ s.bytesKept t (bankAddr b 0) 0x100000 ∧
      ∀ w, w < 131072 → memRead t.mem (bankAddr b w) 8 = 0) ∧
  (s.dev.live (26 + b) = true → (s.dev.bankState b = bsMARCHD ∨ s.dev.bankState b = bsMARCHP) →
    let was := s.dev.bankState b
    let contents (t : State) : Prop := s.bytesKept t (bankAddr b 0) 0x100000 ∧ ∀ w, w < 131072 →
      memRead t.mem (bankAddr b w) 8 = (if was = bsMARCHD then 0 else memRead s.mem (bankAddr b w) 8)
    (∀ bad, ∃ t, exec (.marchDone b [] bad false) s = .next t ∧ t.pending = s.pending ∧ contents t ∧
      s.dev.onlyRegs t.dev [(.MEM_BSTAT, b), (.MEM_MARCHRES, b)] ∧ t.dev.rf MEM_MARCHRES_ROWS b = 0 ∧
      t.dev.rf MEM_BSTAT_STATE b = bsREADY ∧ t.dev.rf MEM_BSTAT_RESULT b = 1 ∧ t.dev.on MEM_BSTAT_DEGRADED b = false) ∧
    (∀ row, row < 2048 → (∀ i, i < 4 → s.dev.spareRow b i ≠ some row) →
      (s.dev.rf MEM_BSTAT_SPUSED b = 0 → s.dev.rf MEM_BSTAT_SPRET b = 0 →
        ∃ t, exec (.marchDone b [row] 0 false) s = .next t ∧ t.pending = s.pending ∧ contents t ∧
          s.dev.onlyRegs t.dev [(.MEM_BSTAT, b), (.MEM_MARCHRES, b), (.MEM_ROWMAP0, b)] ∧ t.dev.spareRow b 0 = some row ∧
          t.dev.spareRow b 1 = s.dev.spareRow b 1 ∧
          tbit (t.dev.rf MEM_BSTAT_SPUSED b) 0 = true ∧ t.dev.rf MEM_BSTAT_STATE b = bsREADY ∧
          t.dev.rf MEM_BSTAT_RESULT b = 2 ∧ t.dev.rf MEM_MARCHRES_ROWS b = 1 ∧
          t.dev.on MEM_BSTAT_DEGRADED b = false) ∧
      (s.dev.rf MEM_BSTAT_SPUSED b + s.dev.rf MEM_BSTAT_SPRET b = 15 →
        (∀ i, i < 4 → tbit (s.dev.rf MEM_BSTAT_SPUSED b) i = true ∨ tbit (s.dev.rf MEM_BSTAT_SPRET b) i = true) →
        ∃ t, exec (.marchDone b [row] 0 false) s = .next t ∧ t.pending = s.pending ∧ contents t ∧
          s.dev.onlyRegs t.dev [(.MEM_BSTAT, b), (.MEM_MARCHRES, b)] ∧ t.dev.rf MEM_BSTAT_STATE b = bsREADY ∧
          t.dev.rf MEM_BSTAT_RESULT b = 3 ∧ t.dev.on MEM_BSTAT_DEGRADED b = true ∧ t.dev.rf MEM_MARCHRES_FIRST b = row ∧
          t.dev.on MEM_MARCHRES_FIRSTV b = true))) ∧
  (∀ f, s.dev.live 2 = true → s.dev.bank.fills = [f] → f.left = 0 →
    s.dev.bank.reqs.all (fun r => decide (r.who ≠ .management)) = true →
    ∃ t, exec (.memFillDone f.handle) s = .next t ∧ s.onlyRegs t [] ∧ t.dev.bank.fills = [] ∧
      t.dev.findHandle f.handle = none)

/-- A taken write of FAB.SNAPCTRL arms a snapshot (the buffer empties, and every selected region that is not skipped is
awaited), cancels it, or ends a freeze. At its trigger a region copies R, F, context and step of each of its cells, and
freezes if asked. A read of SNAPDATA returns the entry named and moves the address on; where the snapshot is of an encrypted
configuration a direct read returns 0 and is counted. A taken write of RGN.ISOLATE, no changed bit being refused: each bit
set clamps its region's brim, resets its cells and makes it ISOLATED; each bit cleared starts its region, its brim clamped
until DONE; other regions' cells and every other register stay (in paired mode the halves go together). (R246, R247, R248,
R260.) -/
def Obligations.SnapshotsAndIsolation : Prop := ∀ (s : State) (pth : Path) (v : Word),
  (s.accepts pth .FAB_SNAPCTRL 0 v →
    (carried v FAB_SNAPCTRL_ARM = 1 → carried v FAB_SNAPCTRL_CANCEL = 0 → carried v FAB_SNAPCTRL_RESUME = 0 →
      (∃ n, n < 16 ∧ tbit (carried v FAB_SNAPCTRL_REGIONS) n = true ∧ s.dev.snapSkips n = false) →
      ∃ t, exec (.snapshotArm pth v) s = .next t ∧ s.onlyRegs t [(.FAB_SNAPCTRL, 0), (.FAB_SNAPSTAT, 0)] ∧
        t.dev.on FAB_SNAPSTAT_ARMED 0 = true ∧ t.dev.on FAB_SNAPSTAT_DONE 0 = false ∧ t.dev.fab.snap = [] ∧
        ∀ n, n < 16 → tbit t.dev.fab.snapLeft n = (tbit (carried v FAB_SNAPCTRL_REGIONS) n && !(s.dev.snapSkips n))) ∧
    (carried v FAB_SNAPCTRL_ARM = 0 → carried v FAB_SNAPCTRL_CANCEL = 1 → carried v FAB_SNAPCTRL_RESUME = 0 →
      ∃ t, exec (.snapshotCancel pth v) s = .next t ∧ s.onlyRegs t [(.FAB_SNAPCTRL, 0), (.FAB_SNAPSTAT, 0)] ∧
        t.dev.on FAB_SNAPSTAT_ARMED 0 = false ∧ t.dev.fab.snapLeft = 0) ∧
    (carried v FAB_SNAPCTRL_ARM = 0 → carried v FAB_SNAPCTRL_CANCEL = 0 → carried v FAB_SNAPCTRL_RESUME = 1 →
      ∃ t, exec (.snapshotResume pth v) s = .next t ∧ s.onlyRegs t [(.FAB_SNAPCTRL, 0), (.FAB_SNAPSTAT, 0)] ∧
        t.dev.rf FAB_SNAPSTAT_FROZEN 0 = 0 ∧ t.dev.fab = s.dev.fab)) ∧
  (∀ n, n < 16 → s.dev.live (34 + n) = true → s.dev.on FAB_SNAPSTAT_ARMED 0 = true → tbit s.dev.fab.snapLeft n = true →
    s.dev.snapSkips n = false → s.dev.edgesCome n = true → s.dev.snapTriggered n = true →
    ∃ t, exec (.snapshotTake n) s = .next t ∧
      s.onlyRegs t [(.FAB_SNAPSTAT, 0), (.FAB_SNAPAT, 0), (.FAB_SNAPATH, 0)] ∧ tbit t.dev.fab.snapLeft n = false ∧
      (tbit (t.dev.rf FAB_SNAPSTAT_FROZEN 0) n = s.dev.on FAB_SNAPCTRL_FREEZE 0) ∧
      ∀ k i, k < 16 → i < 16 → tget t.dev.fab.snap 0 (16 * tileOf n k + i) =
        (s.dev.cell (tileOf n k) i).1 + b2n (s.dev.cell (tileOf n k) i).2 * 2 ^ 24 + s.dev.ctx (tileOf n k) * 2 ^ 25 +
          (s.dev.seqAt (tileOf n k)).1 * 2 ^ 27) ∧
  (s.serves pth .FAB_SNAPDATA 0 → ∃ t, exec (.snapdataRead pth) s = .next t ∧ s.onlyRegs t [(.FAB_SNAPADDR, 0)] ∧
    t.dev.rdata = s.dev.snapEntry % 2 ^ 32 ∧
    16 * t.dev.rf FAB_SNAPADDR_TILE 0 + t.dev.rf FAB_SNAPADDR_CELL 0 =
      (16 * s.dev.rf FAB_SNAPADDR_TILE 0 + s.dev.rf FAB_SNAPADDR_CELL 0 + 1) % 4096) ∧
  (s.dev.takes .direct → s.dev.reachable .FAB_SNAPDATA 0 = true → s.dev.domOn 2 = true →
    s.dev.snapReadable .direct = false →
    ∃ t, exec (.snapdataRead .direct) s = .next t ∧ s.onlyRegs t [(.SYS_ACCERR, 0), (.SYS_ACCADDR, 0)] ∧
      t.dev.rdata = 0 ∧ s.dev.counts t.dev SYS_ACCERR_COUNT 0 1) ∧
  (s.accepts pth .RGN_ISOLATE 0 v → s.dev.isolateAnyRefused v.toNat = false → ∃ t, exec (.regionIsolate pth v) s = .next t ∧
    s.onlyRegs t ((.RGN_ISOLATE, 0) :: (.FAB_SNAPSTAT, 0) :: (s.dev.isolateChanges v.toNat).flatMap (fun n =>
      [(RegKind.RGN_STAT, n), (RegKind.FAB_SOOVF, n)])) ∧
    t.dev.rf RGN_ISOLATE_REGION 0 = s.dev.isolateWanted v.toNat ∧
    ∀ n, n < 16 →
      (n ∉ s.dev.isolateChanges v.toNat → ∀ k i, k < 16 → i < 16 →
        t.dev.cell (tileOf n k) i = s.dev.cell (tileOf n k) i) ∧
      (n ∈ s.dev.isolateChanges v.toNat → tbit (s.dev.isolateWanted v.toNat) n = true →
        t.dev.rgnState n = rsISOLATED ∧ t.dev.on RGN_STAT_BRIM n = true ∧
        ∀ k i, k < 16 → i < 16 → t.dev.cell (tileOf n k) i = (0, false)) ∧
      (n ∈ s.dev.isolateChanges v.toNat → tbit (s.dev.isolateWanted v.toNat) n = false →
        t.dev.rgnState n = rsSTARTING ∧ t.dev.on RGN_STAT_BRIM n = s.dev.on RGN_STAT_BRIM n ∧
        tget t.dev.fab.starts (0, false) n = (s.dev.now + 1000, false)))

/-- With the configuration domain on: PROGN low clears all frames, switches every region off behind its brim, puts pins and
the analogue section into the pre-release state, leaves standard mode, CLEAR and CONFIGURED 0, clears the scratchpads and
keeps the banks and the blocks that a load does not touch; its rise begins the clear time; 441 us later the clear is done
and leads to WAIT, to the golden load, or to UNCONF as was decided; a wait longer than WAITTMO leads to the golden load with
reason 16. (R303, R314, R315, R316.) -/
def Obligations.ConfigurationStart : Prop := ∀ (s : State), s.dev.live 3 = true →
  (∃ t, exec .progn s = .next t ∧ s.keepsBanks t ∧ s.dev.keepsBlocks t.dev loadKeeps ∧
    t.dev.cfgState = csCLEAR ∧ t.dev.cfg.progn = false ∧ t.dev.cfg.stateNow = s.dev.now ∧ t.dev.cfg.after = 0 ∧
    t.dev.cfg.cfgdonePull = true ∧ t.dev.on SYS_STATUS_CONFIGURED 0 = false ∧ t.dev.paired = false ∧ t.dev.fab.frames = [] ∧
    t.dev.gpio.released = false ∧ t.dev.anx.released = false ∧
    (∀ n, n < 16 → t.dev.rgnState n = rsOFF ∧ t.dev.on RGN_STAT_BRIM n = true ∧ t.dev.fsel n = 0) ∧
    (∀ x w, x < 256 → w < 1024 → memRead t.mem (spAddr x w) 3 = 0)) ∧
  (∃ t, exec .prognRise s = .next t ∧ s.onlyRegs t [] ∧ t.dev.cfg.progn = true ∧ t.dev.cfg.stateNow = s.dev.now) ∧
  ((s.dev.cfgState = csCLEAR ∨ s.dev.cfgState = csFAILED) → s.dev.cfg.progn = true →
    s.dev.cfg.stateNow + 441000 ≤ s.dev.now →
    ∃ t, exec .cfgClearDone s = .next t ∧ s.onlyRegs t [(.CFG_STATUS, 0), (.CFG_BYTES, 0)] ∧
      (s.dev.cfg.after = 0 → t.dev.cfgState = csWAIT ∧ t.dev.cfg.load.isOpen = true ∧ t.dev.cfg.load.golden = false) ∧
      (s.dev.cfg.after = 1 → t.dev.cfgState = csLOAD ∧ t.dev.on CFG_STATUS_GOLDEN 0 = true ∧
        t.dev.cfg.load.words = s.dev.goldenWords 0 16) ∧
      (2 ≤ s.dev.cfg.after → t.dev.cfgState = csUNCONF)) ∧
  (s.dev.cfgState = csWAIT → s.dev.rf CFG_WAITTMO_MS 0 ≠ 0 →
    s.dev.cfg.stateNow + 1000000 * s.dev.rf CFG_WAITTMO_MS 0 ≤ s.dev.now →
    ∃ t, exec .cfgWaitTimeout s = .next t ∧ s.onlyRegs t [(.CFG_STATUS, 0), (.CFG_BYTES, 0)] ∧
      t.dev.cfgState = csLOAD ∧ t.dev.rf CFG_STATUS_REASON 0 = 16 ∧ t.dev.on CFG_STATUS_GOLDEN 0 = true ∧
      t.dev.cfg.load.words = s.dev.goldenWords 0 16)

/-- A word written to CFG.FIFO in WAIT begins the load, which then holds that word; where no load takes words it is
discarded and counted; one that meets a full FIFO on the SPI port sets OVF and fails the load with reason 14. A word later
than TIMEOUT fails a full load with reason 13 and counts a retry, and ends a partial load with that reason and the regions
it opened EMPTY. 100 ms without a flash word fail the golden load with reason 18 and lead to UNCONF. CFG.RETRY.CLR clears
the count. After a chained image CHAIN_NEXT opens the forwarding, and CFDO first sends WRITE and the address of the next
CFG.FIFO; each word leaves when its time has come, 32 clocks of CFCK apart, and the forwarding ends with the last word.
(R297, R299, R318, R319, R320, R322, R324.) -/
def Obligations.ImageWords : Prop := ∀ (s : State) (pth : Path) (v : Word),
  (s.accepts pth .CFG_FIFO 0 v → s.dev.cfg.chainLeft = 0 → s.dev.cfg.chainWait = false →
    (s.dev.cfgState = csWAIT → s.dev.cfg.load =
        { Load.reset with isOpen := true, handle := s.dev.cfg.load.handle, lastNow := s.dev.cfg.load.lastNow } →
      s.dev.cfg.fifo = [] → ∃ t, exec (.cfgFifoWrite pth v) s = .next t ∧
      s.onlyRegs t [(.CFG_STATUS, 0), (.CFG_BYTES, 0), (.CFG_FIFOSTAT, 0)] ∧ t.dev.cfgState = csLOAD ∧
      t.dev.cfg.load.words = [v.toNat] ∧ t.dev.cfg.load.count = 1 ∧ t.dev.rf CFG_BYTES_BYTES 0 = 4 ∧
      t.dev.cfg.cfgerrnPull = false) ∧
    (s.dev.loadTakes = false → ∃ t, exec (.cfgFifoWrite pth v) s = .next t ∧ s.onlyRegs t [(.CFG_FIFOSTAT, 0)] ∧
      t.dev.cfg = s.dev.cfg ∧ s.dev.counts t.dev CFG_FIFOSTAT_DISC 0 1) ∧
    (s.dev.loadTakes = true → s.dev.on SYS_STATUS_HPSEL 0 = false → s.dev.cfgState = csLOAD →
      s.dev.cfg.load.partialLoad = false → 1024 ≤ s.dev.cfg.fifo.length → ∃ t, exec (.cfgFifoWrite pth v) s = .next t ∧
      s.loadFailed t 14 ∧ t.dev.on CFG_FIFOSTAT_OVF 0 = true)) ∧
  (s.accepts pth .CFG_FIFO 0 v → s.dev.cfg.chainLeft = 0 → s.dev.cfg.chainWait = true → s.dev.loadTakes = false →
    v.toNat % 256 = 8 → v.toNat / 256 ≠ 0 → ∃ t, exec (.cfgFifoWrite pth v) s = .next t ∧ s.onlyRegs t [(.CFG_CHAIN, 0)] ∧
      t.dev.on CFG_CHAIN_FWD 0 = true ∧ t.dev.cfg.chainWait = false ∧ t.dev.cfg.chainLeft = v.toNat / 256 ∧
      t.dev.cfg.out = s.dev.cfg.out ++ [0x02, 0x00030400] ∧
      t.dev.cfg.chainAt = s.dev.now + 400 * (s.dev.rf CFG_CHAIN_DIV 0 + 1)) ∧
  (s.dev.live 3 = true → s.dev.loadTakes = true → s.dev.cfgState ≠ csWAIT →
    s.dev.cfg.load.lastNow + 1000000 * s.dev.rf CFG_TIMEOUT_MS 0 < s.dev.now →
    (s.dev.cfgState = csLOAD → s.dev.cfg.load.partialLoad = false → ∃ t, exec .cfgWordTimeout s = .next t ∧
      s.loadFailed t 13 ∧ t.dev.rf CFG_RETRY_COUNT 0 = min 3 (s.dev.rf CFG_RETRY_COUNT 0 + 1)) ∧
    (s.dev.cfg.load.partialLoad = true → ∃ t, exec .cfgWordTimeout s = .next t ∧
      s.onlyRegs t ([(.CFG_STATUS, 0), (.CFG_FAILPOS, 0), (.CFG_FAILINFO, 0), (.CFG_FIFOSTAT, 0), (.FAB_SNAPSTAT, 0)] ++
        (setBitsOf 16 s.dev.cfg.load.opened).flatMap (fun n => [(RegKind.RGN_STAT, n), (RegKind.FAB_SOOVF, n)])) ∧
      t.dev.cfgState = s.dev.cfgState ∧ t.dev.rf CFG_STATUS_PREASON 0 = 13 ∧ t.dev.on CFG_STATUS_PLOAD 0 = false ∧
      t.dev.cfg.load.isOpen = false ∧
      ∀ n, n < 16 → tbit s.dev.cfg.load.opened n = true →
        t.dev.rgnState n = rsEMPTY ∧ t.dev.on RGN_STAT_LOADFAIL n = true)) ∧
  (s.dev.live 3 = true → s.dev.cfg.load.golden = true → s.dev.cfg.load.isOpen = true →
    s.dev.cfg.load.lastNow + 100000000 ≤ s.dev.now → ∃ t, exec .goldenFlashTimeout s = .next t ∧ s.loadFailed t 18 ∧
      t.dev.cfg.after = 2 ∧ t.dev.rf CFG_RETRY_COUNT 0 = s.dev.rf CFG_RETRY_COUNT 0) ∧
  (s.accepts pth .CFG_RETRY 0 v → carried v CFG_RETRY_CLR = 1 → ∃ t, exec (.cfgRetryClear pth v) s = .next t ∧
    s.onlyRegs t [(.CFG_RETRY, 0)] ∧ t.dev.rf CFG_RETRY_COUNT 0 = 0) ∧
  (∀ w rest, s.dev.live 3 = true → s.dev.cfg.fifo = w :: rest → s.dev.cfg.waiting = [] → s.dev.cfg.chainLeft ≠ 0 →
    s.dev.cfg.chainAt ≤ s.dev.now → ∃ t, exec .chainNext s = .next t ∧
      s.onlyRegs t [(.CFG_FIFOSTAT, 0), (.CFG_CHAIN, 0)] ∧ t.dev.cfg.out = s.dev.cfg.out ++ [w] ∧
      t.dev.cfg.fifo = rest ∧ t.dev.cfg.chainLeft = s.dev.cfg.chainLeft - 1 ∧
      t.dev.cfg.chainAt = max s.dev.cfg.chainAt s.dev.now + 320 * (s.dev.rf CFG_CHAIN_DIV 0 + 1) ∧
      t.dev.on CFG_CHAIN_FWD 0 = (s.dev.on CFG_CHAIN_FWD 0 && decide (s.dev.cfg.chainLeft ≠ 1)))

/-- In a full load with its words there: a header that is not refused governs the load, mode and policy included, and one
that is refused fails it with its reason; a start-up order that is legal is kept, another fails with reason 19; REGION_END
closes the section; the first REGION_BEGIN, or the end packet, checks the set of device frames; REGION_BEGIN with sound
interface frames opens its region, writes its 16 interface frames, port sources, delay and clock (in paired mode in both
halves) and waits 20 us for a region it powers, another fails with its reason; CHECK succeeds exactly if its word is the
CRC-32C of the body (reason 11 otherwise) and TAG exactly if it is the AES-GCM tag (reason 12 otherwise), and success leads
to SYNC or start-up as the header says. A load that fails leaves FAILED, its reason and record, both configuration pins low,
no frame, every region OFF, and changes no bank and no register of the blocks that a load does not touch. (R253, R300, R302,
R310, R311, R312, R313, R266.) -/
def Obligations.ImagePackets : Prop :=
  (∀ (s : State), s.dev.live 3 = true →
    (s.dev.cfg.load.isOpen = true → s.dev.cfg.load.hdr = none → s.dev.cfg.load.words.length = 16 →
      s.dev.cfg.load.golden = false → s.dev.cfg.load.partialLoad = false →
      let w := s.dev.cfg.load.words
      (s.dev.headerRefused w = none → w.getD 4 0 ≠ 0 → ∃ t, exec .imageHeader s = .next t ∧
        s.onlyRegs t [(.CFG_STATUS, 0), (.SYS_STATUS, 0), (.RGN_GAUNTLET, 0), (.CAL_CTRL, 0), (.CFG_FIFOSTAT, 0)] ∧
        t.dev.cfg.load.hdr = some (parseHeader w) ∧ t.dev.cfg.load.pos = 64 ∧ t.dev.cfg.load.words = [] ∧
        t.dev.paired = (parseHeader w).paired ∧
        t.dev.rf RGN_GAUNTLET_POLICY 0 = (if (parseHeader w).paired then (parseHeader w).policy else 0) ∧
        ((parseHeader w).paired = false → t.dev.rreg .CAL_CTRL 0 = s.dev.rreg .CAL_CTRL 0) ∧ t.dev.on CFG_STATUS_ENC 0 = (parseHeader w).enc) ∧
      (∀ r, s.dev.headerRefused w = some r → ∃ t, exec .imageHeader s = .next t ∧ s.loadFailed t r)) ∧
    (∀ ws, s.dev.packetOf 6 = some ws → s.dev.cfg.load.partialLoad = false →
      (orderGood (ws.headD 0) = true → s.dev.lonePacket 2 → ∃ t, exec .startupOrder s = .next t ∧
        s.onlyRegs t [(.CFG_STARTUP, 0)] ∧ t.dev.rf CFG_STARTUP_ORDER 0 = ws.headD 0 ∧ s.dev.pastPacket t.dev 2) ∧
      (orderGood (ws.headD 0) = false → ∃ t, exec .startupOrder s = .next t ∧ s.loadFailed t 19)) ∧
    (s.dev.packetOf 4 ≠ none → s.dev.lonePacket 1 → ∃ t, exec .regionEnd s = .next t ∧ s.onlyRegs t [] ∧
      t.dev.cfg.load.region = none ∧ t.dev.cfg.load.order = 4 ∧ s.dev.pastPacket t.dev 1) ∧
    (∀ ws n, s.dev.packetOf 3 = some ws → n = ws.headD 0 % 16 → s.dev.cfg.load.partialLoad = false → s.dev.lonePacket 530 →
      let fr := (List.range 16).map (fun k => frameAt (ws.drop 1) k)
      let f0 := (frameAt (ws.drop 1) 0).1
      let x := s.setCheck.1
      (∀ r, s.dev.cfg.load.setDone = false → s.dev.setFault s.dev.cfg.load.held = some r →
        ∃ t, exec .regionBegin s = .next t ∧ s.loadFailed t r) ∧
      (s.setCheck.2 = true → x.dev.beginFault n fr = none → ∃ t, exec .regionBegin s = .next t ∧
        x.onlyRegs t ((s.dev.halves n).flatMap (fun m => [(RegKind.FAB_SOMAP, m), (RegKind.FAB_RCLK, m)])) ∧
        (s.dev.cfg.load.setDone = true → x = s) ∧ t.dev.cfg.load.setDone = true ∧
        t.dev.cfg.load.region = some n ∧ tbit t.dev.cfg.load.seen n = true ∧ s.dev.pastPacket t.dev 530 ∧
        ∀ m, m ∈ s.dev.halves n →
          (∀ k, k < 16 → t.dev.frame (ifFrameAddr m k) = (frameAt (ws.drop 1) k).1) ∧
          t.dev.rf FAB_SOMAP_EDLY m = bitsOf f0 3 6 ∧ (∀ p, p < 4 → t.dev.rf (FAB_SOMAP_MSRC p) m = bitsOf f0 (56 + 32 * p) 4) ∧
          t.dev.fsel m = (if bitsOf f0 0 3 = 0 then s.dev.fsel m else bitsOf f0 0 3) ∧
          (s.dev.fsel m = 0 → bitsOf f0 0 3 ≠ 0 → t.dev.cfg.load.pauseTo = s.dev.now + 20000)) ∧
      (∀ r a, s.setCheck.2 = true → x.dev.beginFault n fr = some (r, a) →
        ∃ t, exec .regionBegin s = .next t ∧ s.loadFailed t r))) ∧
  (∀ (s : State) (ws : List Nat) (h : ImgHdr), s.dev.live 3 = true →
    s.dev.cfg.load.partialLoad = false → s.dev.cfg.load.hdr = some h →
    let x := s.setCheck.1
    let ends (t : State) : Prop := x.onlyRegs t [(.CFG_STATUS, 0), (.CFG_STARTUP, 0)] ∧
      (s.dev.cfg.load.setDone = true → x = s) ∧ t.dev.cfg.load.setDone = true ∧ t.dev.cfg.load.verified = true ∧
      t.dev.cfg.load.isOpen = false ∧ t.dev.cfg.chainWait = h.chained ∧
      (h.donewait = true → t.dev.cfgState = csSYNC ∧ t.dev.cfg.cfgdonePull = false) ∧
      (h.donewait = false → t.dev.cfgState = csSTARTUP ∧ t.dev.rf CFG_STARTUP_NEXT 0 = 0)
    (s.dev.packetOf 7 = some ws →
      (s.setCheck.2 = true → ws.headD 0 = crcWords s.dev.cfg.load.body → ∃ t, exec .check s = .next t ∧ ends t) ∧
      (s.setCheck.2 = true → ws.headD 0 ≠ crcWords s.dev.cfg.load.body →
        ∃ t, exec .check s = .next t ∧ s.loadFailed t 11) ∧
      (∀ r, s.dev.cfg.load.setDone = false → s.dev.setFault s.dev.cfg.load.held = some r →
        ∃ t, exec .check s = .next t ∧ s.loadFailed t r)) ∧
    (s.dev.packetOf 9 = some ws → s.setCheck.2 = true →
      let good := wordBytes ws =
        gcmTag (s.dev.imageKey h) s.dev.cfg.load.iv (wordBytes s.dev.cfg.load.head) (wordBytes s.dev.cfg.load.body)
      (good → ∃ t, exec .tag s = .next t ∧ ends t) ∧
      (¬ good → ∃ t, exec .tag s = .next t ∧ s.loadFailed t 12)))

/-- In a full load: FRAME_WRITE writes its frames and no other (in paired mode in both halves), a device frame is held until
its set has passed, and a first frame that fails a check fails the load with its reason and place; FRAME_REPEAT writes every
named frame and no other; MEM_INIT writes its words to the scratchpad of a tile of the open region (of both halves in paired
mode) and changes no other byte of memory, and one for another region fails the load. (R301, R303, R305, R309, R310, R311.)
-/
def Obligations.ImageFrames : Prop := ∀ (s : State) (ws : List Nat), s.dev.live 3 = true → s.dev.cfg.load.partialLoad = false →
  let homes (a : Nat) : List Nat := if s.dev.paired = true then [a, a + 5120] else [a]
  (s.dev.packetOf 1 = some ws → s.dev.lonePacket (1 + ws.length) →
    let a := ws.headD 0
    let f (k : Nat) : Nat × Nat := frameAt (ws.drop 1) k
    let n := (ws.length - 1) / 33
    ((∀ k, k < n → a + k < 10240 ∧ s.dev.frameFault (a + k) (f k) = none) →
      ∃ t, exec .frameWrite s = .next t ∧ s.onlyRegs t [] ∧ s.dev.pastPacket t.dev (1 + ws.length) ∧
        (∀ k x, k < n → x ∈ homes (a + k) → t.dev.frame x = (f k).1) ∧
        (∀ x, (∀ k, k < n → x ∉ homes (a + k)) → t.dev.frame x = s.dev.frame x)) ∧
    (n = 1 → s.dev.frameFault a (f 0) = none → 10240 ≤ a → ∃ t, exec .frameWrite s = .next t ∧ s.onlyRegs t [] ∧
      t.dev.cfg.load.held = s.dev.cfg.load.held.filter (fun e => decide (e.1 ≠ a)) ++ [(a, (f 0).1)] ∧
      t.dev.fab = s.dev.fab ∧ s.dev.pastPacket t.dev (1 + ws.length)) ∧
    (∀ r, 0 < n → s.dev.frameFault a (f 0) = some r → ∃ t, exec .frameWrite s = .next t ∧ s.loadFailed t r ∧
      t.dev.on CFG_FAILINFO_VALID 0 = true ∧ t.dev.rf CFG_FAILINFO_FRAME 0 = a % 2 ^ 14 ∧
      t.dev.rf CFG_FAILPOS_POS 0 = s.dev.cfg.load.pos % 2 ^ CFG_FAILPOS_POS.width)) ∧
  (s.dev.packetOf 2 = some ws → s.dev.lonePacket (1 + ws.length) →
    let f := frameAt (ws.drop 1) 0
    (∀ a ∈ ws.drop 34, a < 10240 ∧ s.dev.frameFault a f = none) → ∃ t, exec .frameRepeat s = .next t ∧
      s.onlyRegs t [] ∧ (∀ a ∈ ws.drop 34, ∀ x ∈ homes a, t.dev.frame x = f.1) ∧
      (∀ x, (∀ a ∈ ws.drop 34, x ∉ homes a) → t.dev.frame x = s.dev.frame x) ∧ s.dev.pastPacket t.dev (1 + ws.length)) ∧
  (s.dev.packetOf 5 = some ws → s.dev.lonePacket (1 + ws.length) →
    let x := ws.headD 0 % 256
    let first := bitsOf (ws.headD 0) 8 10
    let tiles := if s.dev.paired = true then [x, tileOf (tileRegion x + 8) (tileIndex x)] else [x]
    (s.dev.cfg.load.region = some (tileRegion x) → first + (ws.length - 1) ≤ 1024 → (∀ v ∈ ws.drop 1, v < 2 ^ 24) →
      (s.dev.paired = true → tileRegion x < 8) →
      ∃ t, exec .memInit s = .next t ∧ t.pending = s.pending ∧ s.dev.onlyRegs t.dev [] ∧
        s.dev.pastPacket t.dev (1 + ws.length) ∧
        (∀ y k, y ∈ tiles → k + 1 < ws.length → memRead t.mem (spAddr y (first + k)) 3 = ws.getD (k + 1) 0) ∧
        ∀ b, (∀ y, y ∈ tiles → b < spAddr y first ∨ spAddr y first + 4 * (ws.length - 1) ≤ b) →
          memByte t.mem b = memByte s.mem b) ∧
    (s.dev.cfg.load.region ≠ some (tileRegion x) → (∀ v ∈ ws.drop 1, v < 2 ^ 24) →
      ∃ t, exec .memInit s = .next t ∧ s.loadFailed t 6))

/-- A power-up pause of a load ends when its time is over. A region that starts (with its other half in paired mode) is
RUNNING at the end of its start with its cells at their initial values, its write enable set and its brim released, or
ISOLATED with its cells in reset where that is asked for, and the last one ends its partial load. CFGDONE high ends SYNC,
and SYNC longer than TIMEOUT fails with reason 20; PLLs not locked 1 ms after their step fail with reason 15. Each due step
does its work and NEXT goes up by 1: OUTREL gives each pin its function and lets HCK run, GSRREL and WEN act on the clocked
regions or wait, recorded, for LOCK, ANAREL starts every comparator under its power-up rule; DONE releases CFGDONE, makes
the device configured, starts the scrubber at frame 0, and regions run, stay isolated, or without a clock go OFF. (R243,
R254, R258, R260, R313, R314, R326.) -/
def Obligations.StartupSteps : Prop :=
  (∀ (s : State), s.dev.live 3 = true →
    (s.dev.cfg.load.pauseTo ≠ 0 → s.dev.cfg.load.pauseTo ≤ s.dev.now → s.dev.cfg.fifo = [] → s.dev.cfg.waiting = [] →
      s.dev.cfg.chainLeft = 0 → s.dev.packetFault = none → ∃ t, exec .regionPowerUpDone s = .next t ∧
        s.onlyRegs t [(.CFG_FIFOSTAT, 0)] ∧ t.dev.cfg.load = { s.dev.cfg.load with pauseTo := 0 }) ∧
    (∀ n, n < 16 → s.dev.rgnState n = rsSTARTING → (tget s.dev.fab.starts (0, false) n).1 ≤ s.dev.now →
      ∃ t, exec (.regionStartupDone n) s = .next t ∧
        s.onlyRegs t ([(.SCB_RELOADREQ, 0), (.RGN_PSTAT, 0), (.FAB_SNAPSTAT, 0), (.CFG_STATUS, 0), (.CFG_FIFOSTAT, 0)] ++
          (s.dev.halves n).flatMap (fun m => [(RegKind.RGN_STAT, m), (RegKind.FAB_SOOVF, m)])) ∧
        (s.dev.cfg.load.partialLoad = false → t.dev.rreg .CFG_STATUS 0 = s.dev.rreg .CFG_STATUS 0 ∧
          t.dev.rreg .CFG_FIFOSTAT 0 = s.dev.rreg .CFG_FIFOSTAT 0) ∧
        (s.dev.cfg.load.partialLoad = true → s.dev.cfg.load.verified = true →
          (∀ m ∈ setBitsOf 16 s.dev.cfg.load.opened, m ∉ s.dev.halves n → s.dev.rgnState m ≠ rsSTARTING) →
          t.dev.on CFG_STATUS_PLOAD 0 = false ∧ t.dev.rf CFG_STATUS_PREASON 0 = 0) ∧
        ∀ m, m ∈ s.dev.halves n →
          (tbit (s.dev.rf RGN_ISOLATE_REGION 0) m = false → t.dev.rgnState m = rsRUNNING ∧ t.dev.brim m = false ∧
            tbit t.dev.fab.wen m = true ∧ ∀ k i, k < 16 → i < 16 → t.dev.cell (tileOf m k) i =
              (s.dev.tf (tileOf m k) 3 (25 * i) 24, decide (s.dev.tf (tileOf m k) 3 (25 * i + 24) 1 = 1))) ∧
          (tbit (s.dev.rf RGN_ISOLATE_REGION 0) m = true → t.dev.rgnState m = rsISOLATED ∧
            ∀ k i, k < 16 → i < 16 → t.dev.cell (tileOf m k) i = (0, false)))) ∧
  (∀ (s : State), s.dev.live 3 = true →
    (s.dev.cfgState = csSYNC → ∃ t, exec .cfgdoneRise s = .next t ∧ s.onlyRegs t [(.CFG_STATUS, 0), (.CFG_STARTUP, 0)] ∧
      t.dev.cfgState = csSTARTUP ∧ t.dev.rf CFG_STARTUP_NEXT 0 = 0) ∧
    (s.dev.cfgState = csSYNC → s.dev.cfg.stateNow + 1000000 * s.dev.rf CFG_TIMEOUT_MS 0 ≤ s.dev.now →
      ∃ t, exec .cfgSyncTimeout s = .next t ∧ s.loadFailed t 20) ∧
    (s.dev.stepDue 0 = true → s.dev.pllsLocked = false → s.dev.cfg.starting + 1000000 < s.dev.now →
      ∃ t, exec .pllLockTimeout s = .next t ∧ s.loadFailed t 15) ∧
    (s.dev.stepDue 0 = true → s.dev.pllsLocked = true → ∃ t, exec .startupLock s = .next t ∧
      s.onlyRegs t [(.CFG_STARTUP, 0)] ∧ t.dev.rf CFG_STARTUP_NEXT 0 = s.dev.rf CFG_STARTUP_NEXT 0 + 1 ∧
      t.dev.cfg.recorded = [] ∧ (3 ∈ s.dev.cfg.recorded → ∀ n ∈ s.dev.clockedRegions, tbit t.dev.fab.wen n = true)) ∧
    (s.dev.stepDue 1 = true → ∃ t, exec .startupOutrel s = .next t ∧
      s.onlyRegs t ((.CFG_STARTUP, 0) :: (List.range 12).map (fun l => (RegKind.LAN_STAT, l))) ∧ t.dev.gpio.released = true ∧
      (∀ p, p < 64 → t.dev.pad p = ⟨s.dev.padWanted p, none, none, false⟩) ∧
      (∀ h, h < 24 → s.dev.on HCP_CTRL_EN h = true → (t.dev.getHcp h).hck.isSome = true) ∧
      t.dev.rf CFG_STARTUP_NEXT 0 = s.dev.rf CFG_STARTUP_NEXT 0 + 1) ∧
    (s.dev.stepDue 2 = true → ∃ t, exec .startupGsrrel s = .next t ∧ s.onlyRegs t [(.CFG_STARTUP, 0)] ∧
      t.dev.rf CFG_STARTUP_NEXT 0 = s.dev.rf CFG_STARTUP_NEXT 0 + 1 ∧
      (s.dev.lockDone = true → ∀ n ∈ s.dev.clockedRegions, tbit t.dev.fab.gsr n = true) ∧
      (s.dev.lockDone = false → t.dev.cfg.recorded = s.dev.cfg.recorded ++ [2] ∧ t.dev.fab = s.dev.fab)) ∧
    (s.dev.stepDue 3 = true → ∃ t, exec .startupWen s = .next t ∧ s.onlyRegs t [(.CFG_STARTUP, 0)] ∧
      t.dev.rf CFG_STARTUP_NEXT 0 = s.dev.rf CFG_STARTUP_NEXT 0 + 1 ∧
      (s.dev.lockDone = true → ∀ n ∈ s.dev.clockedRegions, tbit t.dev.fab.wen n = true) ∧
      (s.dev.lockDone = false → t.dev.cfg.recorded = s.dev.cfg.recorded ++ [3] ∧ t.dev.fab = s.dev.fab)) ∧
    (s.dev.stepDue 4 = true → ∃ t, exec .startupAnarel s = .next t ∧
      s.onlyRegs t ((.CFG_STARTUP, 0) :: (List.range 48).map (fun n => (RegKind.CMP_STAT, n))) ∧ t.dev.anx.released = true ∧
      (∀ n, n < 48 → t.dev.on CMP_STAT_OUT n = s.dev.on CMP_CFG_STARTLVL n ∧ t.dev.on CMP_STAT_SETTLED n = false) ∧
      t.dev.rf CFG_STARTUP_NEXT 0 = s.dev.rf CFG_STARTUP_NEXT 0 + 1) ∧
    (s.dev.stepDue 5 = true → ∃ t, exec .startupDone s = .next t ∧ s.sameStore t ∧
      s.dev.keepsBlocks t.dev [0x02, 0x05, 0x06, 0x07, 0x08, 0x09, 0x0A, 0x0B, 0x16, 0x17] ∧ t.dev.cfgState = csDONE ∧
      t.dev.on SYS_STATUS_CONFIGURED 0 = true ∧ t.dev.cfg.cfgdonePull = false ∧ t.dev.rf SCB_POS_FRAME 0 = 0 ∧
      (∀ h, s.dev.cfg.load.hdr = some h → t.dev.rf CFG_IMAGEID_ID 0 = h.id % 2 ^ 32 ∧
        (s.dev.cfg.load.golden = false → t.dev.rf CFG_RETRY_COUNT 0 = 0)) ∧
      (∀ n, n < 16 → s.dev.rgnState n ≠ rsEMPTY →
        (s.dev.fsel n = 0 → t.dev.rgnState n = rsOFF) ∧
        (s.dev.fsel n ≠ 0 → tbit (s.dev.rf RGN_ISOLATE_REGION 0) n = false →
          t.dev.rgnState n = rsRUNNING ∧ t.dev.brim n = false) ∧
        (s.dev.fsel n ≠ 0 → tbit (s.dev.rf RGN_ISOLATE_REGION 0) n = true → t.dev.rgnState n = rsISOLATED)) ∧
      (s.dev.pwr.st ≠ .starting → s.onlyRegs t ([(.CFG_STARTUP, 0), (.CFG_STATUS, 0), (.SYS_STATUS, 0), (.CFG_IMAGEID, 0),
        (.CFG_RETRY, 0), (.CFG_FIFOSTAT, 0), (.RGN_PSTAT, 0), (.SCB_RELOADREQ, 0), (.SCB_POS, 0), (.SCB_STAT, 0),
        (.FAB_SNAPSTAT, 0)] ++ (List.range 16).flatMap (fun n => [(RegKind.RGN_STAT, n), (RegKind.FAB_SOOVF, n)])))))

/-- A due check of a frame of a region that is neither passed over nor upset before: found clean, the sweep moves on and
nothing else changes (outvoted control copies are counted); with one payload bit wrong it is corrected, counted and recorded
with frame and bit; with its stored check word wrong that is repaired and counted; with two bits wrong, or one that a
correction does not mend (HARD), the frame is known bad, counted, recorded and reported, CLEAN is cleared, and in standard
mode its region asks for a reload and is isolated under DBEACT ISOLATE, in paired mode it is suspect and the pair's FAULT
record is posted. (R329, R330, R331, R332, R268, R334.) -/
def Obligations.FrameChecks : Prop := ∀ (s : State) (a : Nat), a + 1 < 10240 → s.dev.live 3 = true → s.dev.scrubDue = true →
  s.dev.rf SCB_POS_FRAME 0 = a → s.dev.framePassed a = false → s.dev.framePassed (a + 1) = false →
  s.dev.upsetOf a = 0 → tget s.dev.fab.cwUpset 0 a = 0 → s.dev.pwr.booted = true →
  let kept (t : State) : Prop := t.dev.fab.knownBad = s.dev.fab.knownBad ∧ ∀ x, t.dev.frame x = s.dev.frame x
  let last (t : State) (kind bit : Nat) : Prop := t.dev.rf SCB_LASTERR_FRAME 0 = a ∧ t.dev.rf SCB_LASTERR_BIT 0 = bit ∧
    t.dev.rf SCB_LASTERR_KIND 0 = kind ∧ t.dev.on SCB_LASTERR_VALID 0 = true ∧ t.dev.rf SCB_POS_FRAME 0 = a + 1
  let bad (t : State) (kind : Nat) : Prop := t.dev.fab.knownBad = a :: s.dev.fab.knownBad ∧ last t kind 0 ∧
    s.dev.counts t.dev SCB_CNT_UNC 0 1 ∧ t.dev.on SCB_STAT_CLEAN 0 = false ∧
    (⟨.fault, 0x141, false, false, faultValue a kind, s.dev.t⟩ : EvRec) ∈ t.dev.evq.inFlight
  (∀ votes, ∃ t, exec (.scrubFrameCheck 0 0 false .clean votes) s = .next t ∧
    s.onlyRegs t [(.SCB_POS, 0), (.SCB_SELFCNT, 0)] ∧ t.dev.rf SCB_POS_FRAME 0 = a + 1 ∧ kept t ∧
    s.dev.counts t.dev SCB_SELFCNT_VOTE 0 votes ∧ t.dev.evq = s.dev.evq) ∧
  (∀ b, b < 1024 → ∃ t, exec (.scrubFrameCheck (2 ^ b) 0 false .clean 0) s = .next t ∧
    s.onlyRegs t [(.SCB_POS, 0), (.SCB_CNT, 0), (.SCB_LASTERR, 0), (.FAB_CODESTAT, 0)] ∧ kept t ∧ last t 1 b ∧
    s.dev.counts t.dev SCB_CNT_SBE 0 1 ∧ s.dev.counts t.dev SCB_CNT_UNC 0 0) ∧
  (∀ c, c ≠ 0 → c < 2 ^ 16 → ∃ t, exec (.scrubFrameCheck 0 c false .clean 0) s = .next t ∧
    s.onlyRegs t [(.SCB_POS, 0), (.SCB_CNT2, 0), (.SCB_LASTERR, 0)] ∧ kept t ∧ last t 2 0 ∧
    tget t.dev.fab.cwUpset 0 a = 0 ∧ s.dev.counts t.dev SCB_CNT2_CWFIX 0 1) ∧
  (∀ b c, b < c → c < 1024 → s.dev.paired = false → s.dev.rf SCB_CTRL_DBEACT 0 = 0 →
    ∃ t, exec (.scrubFrameCheck (2 ^ b + 2 ^ c) 0 false .clean 0) s = .next t ∧ bad t 3 ∧
    s.onlyRegs t [(.SCB_POS, 0), (.SCB_CNT, 0), (.SCB_LASTERR, 0), (.SCB_STAT, 0), (.SCB_RELOADREQ, 0), (.FAB_CODESTAT, 0)] ∧
    tbit (t.dev.rf SCB_RELOADREQ_REGION 0) (a / 640) = true) ∧
  (∀ b, b < 1024 → s.dev.paired = false → s.dev.rf SCB_CTRL_DBEACT 0 = 1 →
    tbit (s.dev.rf RGN_ISOLATE_REGION 0) (a / 640) = false → s.dev.isolateRefused (a / 640) = false →
    ∃ t, exec (.scrubFrameCheck (2 ^ b) 0 true .clean 0) s = .next t ∧ bad t 5 ∧
    s.onlyRegs t [(.SCB_POS, 0), (.SCB_CNT, 0), (.SCB_LASTERR, 0), (.SCB_STAT, 0), (.SCB_RELOADREQ, 0), (.FAB_CODESTAT, 0),
      (.RGN_ISOLATE, 0), (.RGN_STAT, a / 640), (.FAB_SNAPSTAT, 0), (.FAB_SOOVF, a / 640)] ∧
    tbit (t.dev.rf SCB_RELOADREQ_REGION 0) (a / 640) = true ∧ tbit (t.dev.rf RGN_ISOLATE_REGION 0) (a / 640) = true ∧
    t.dev.rgnState (a / 640) = rsISOLATED) ∧
  (∀ b c, b < c → c < 1024 → s.dev.paired = true →
    ∃ t, exec (.scrubFrameCheck (2 ^ b + 2 ^ c) 0 false .clean 0) s = .next t ∧ bad t 3 ∧
    s.onlyRegs t [(.SCB_POS, 0), (.SCB_CNT, 0), (.SCB_LASTERR, 0), (.SCB_STAT, 0), (.FAB_CODESTAT, 0),
      (.RGN_STAT, a / 640), (.RGN_PSTAT, 0)] ∧ t.dev.on RGN_STAT_SUSPECT (a / 640) = true ∧
    (⟨.fault, 0x110 + a / 640 % 8, false, false, a / 640, s.dev.t⟩ : EvRec) ∈ t.dev.evq.inFlight)

/-- A watchdog miss sets MISS, counts, clears CLEAN, restarts the sweep and the watchdog, and a second one in a row with
ESCALATE asks for a warm start with cause 3. A taken write of SCB.CTRL restarts the sweep from frame 0, or enables or
disables the scrubber; SCB.INJECT with GO flips the named bit of the named frame, and with it the bit of the register that a
device frame holds. (R331, R335, R336, R339, R340.) -/
def Obligations.ScrubControl : Prop := ∀ (s : State) (pth : Path) (v : Word),
  (∀ w, s.dev.scb.wdNow = some w → s.dev.watchdogArmed = true → w + 1000000 * s.dev.rf SCB_SWEEP_LIMIT_MS 0 ≤ s.dev.now →
    ∃ t, exec .scrubWatchdogMiss s = .next t ∧ s.onlyRegs t [(.SCB_STAT, 0), (.SCB_POS, 0), (.SCB_SELFCNT, 0)] ∧
      t.dev.on SCB_STAT_MISS 0 = true ∧ s.dev.counts t.dev SCB_SELFCNT_MISS 0 1 ∧ t.dev.rf SCB_POS_FRAME 0 = 0 ∧
      t.dev.on SCB_STAT_CLEAN 0 = false ∧ t.dev.scb.wdNow = some s.dev.now ∧
      t.dev.scb.misses = s.dev.scb.misses + 1 ∧
      (s.dev.scb.misses = 1 → s.dev.on SCB_CTRL_ESCALATE 0 = true → s.dev.running = true → s.dev.pwr.warmReq = none →
        t.dev.pwr.warmReq = some (3, s.dev.now)) ∧
      ((s.dev.scb.misses ≠ 1 ∨ s.dev.on SCB_CTRL_ESCALATE 0 = false) → t.dev.pwr = s.dev.pwr)) ∧
  (s.accepts pth .SCB_CTRL 0 v →
    (carried v SCB_CTRL_RESTART = 1 → b2n (s.dev.on SCB_CTRL_EN 0) = carried v SCB_CTRL_EN →
      (s.dev.rf SCB_STAT_STATE 0 = 1 ∨ s.dev.rf SCB_STAT_STATE 0 = 2) →
      ∃ t, exec (.scrubRestart pth v) s = .next t ∧ s.onlyRegs t [(.SCB_CTRL, 0), (.SCB_POS, 0)] ∧
        t.dev.rf SCB_POS_FRAME 0 = 0 ∧ t.dev.scb.sweepNow = s.dev.now ∧ t.dev.scb.dirty = false) ∧
    (carried v SCB_CTRL_RESTART = 0 → carried v SCB_CTRL_EN = 1 → s.dev.on SCB_CTRL_EN 0 = false →
      s.dev.rf SCB_STAT_STATE 0 = 0 → s.dev.cfgState = csDONE →
      ∃ t, exec (.scrubEnable pth v) s = .next t ∧ s.onlyRegs t [(.SCB_CTRL, 0), (.SCB_POS, 0), (.SCB_STAT, 0)] ∧
        t.dev.on SCB_CTRL_EN 0 = true ∧ t.dev.rf SCB_STAT_STATE 0 = 1 ∧ t.dev.rf SCB_POS_FRAME 0 = 0) ∧
    (carried v SCB_CTRL_RESTART = 0 → carried v SCB_CTRL_EN = 0 → s.dev.on SCB_CTRL_EN 0 = true →
      s.dev.rf SCB_STAT_STATE 0 = 1 →
      ∃ t, exec (.scrubEnable pth v) s = .next t ∧ s.onlyRegs t [(.SCB_CTRL, 0), (.SCB_STAT, 0)] ∧
        t.dev.on SCB_CTRL_EN 0 = false ∧ t.dev.rf SCB_STAT_STATE 0 = 0 ∧ t.dev.on SCB_STAT_CLEAN 0 = false ∧
        t.dev.scb.wdNow = none)) ∧
  (s.accepts pth .SCB_INJECT 0 v → carried v SCB_INJECT_GO = 1 → carried v SCB_INJECT_FRAME < 10240 →
    ∃ t, exec (.scrubInject pth v) s = .next t ∧ s.onlyRegs t [(.SCB_INJECT, 0), (.FAB_CODESTAT, 0)] ∧
      t.dev.upsetOf (carried v SCB_INJECT_FRAME) =
        Nat.xor (s.dev.upsetOf (carried v SCB_INJECT_FRAME)) (2 ^ carried v SCB_INJECT_BIT)) ∧
  (∀ k i, s.accepts pth .SCB_INJECT 0 v → carried v SCB_INJECT_GO = 1 → 10240 ≤ carried v SCB_INJECT_FRAME →
    frameReg (carried v SCB_INJECT_FRAME) (carried v SCB_INJECT_BIT / 32) = some (k, i) →
    tbit (heldMask (carried v SCB_INJECT_FRAME) (carried v SCB_INJECT_BIT / 32)) (carried v SCB_INJECT_BIT % 32) = true →
    ∃ t, exec (.scrubInject pth v) s = .next t ∧ s.sameStore t ∧
      t.dev.rreg k i = s.dev.rreg k i ^^^ BitVec.ofNat 32 (2 ^ (carried v SCB_INJECT_BIT % 32)) ∧
      (∀ k' i', i' < 65536 → (k', i') ≠ (k, i) → blockOf k' ∉ [0x04, 0x10, 0x11] → t.dev.rreg k' i' = s.dev.rreg k' i') ∧
      t.dev.upsetOf (carried v SCB_INJECT_FRAME) =
        Nat.xor (s.dev.upsetOf (carried v SCB_INJECT_FRAME)) (2 ^ carried v SCB_INJECT_BIT))

/-- A word of SYS.KWIN while the mailbox is not ready, or a first word without the sync code, is lost and counted; a first
word with it begins a packet; the last word of a packet of its length starts its interpretation where the CRC is right and
the opcode known, and is answered CRC_ERR and counted where the CRC is wrong. More than 10 ms between words end the packet
with TIMEOUT. SYS.KWOUT returns the oldest reply word, and 0 with UNDER where there is none. RESYNC discards what has come
of a packet, FLUSH the replies. A secure session ends after 10 s without a packet. (R358, R359, R361, R363, R364, R369.) -/
def Obligations.Mailbox : Prop := ∀ (s : State) (pth : Path) (v : Word),
  (s.accepts pth .SYS_KWIN 0 v → s.dev.kw.fifo = [] → s.dev.kw.waiting = [] → s.dev.kw.cur = none → s.dev.kw.pend = [] →
    (s.dev.on SYS_KWSTAT_READY 0 = false → ∃ t, exec (.kweaveWordWrite pth v) s = .next t ∧
      s.onlyRegs t [(.SYS_KWIN, 0), (.SYS_KWCNT, 0)] ∧ t.dev.kw = s.dev.kw ∧ s.dev.counts t.dev SYS_KWCNT_SYNC 0 1) ∧
    (s.dev.on SYS_KWSTAT_READY 0 = true → s.dev.kw.part = [] → v.toNat / 2 ^ 16 = 0x4B57 →
      ∃ t, exec (.kweaveWordWrite pth v) s = .next t ∧ s.onlyRegs t [(.SYS_KWIN, 0)] ∧ t.dev.kw.part = [v.toNat] ∧
        t.dev.kw.fifo = [] ∧ t.dev.kw.lastNow = s.dev.now) ∧
    (s.dev.on SYS_KWSTAT_READY 0 = true → s.dev.kw.part = [] → v.toNat / 2 ^ 16 ≠ 0x4B57 →
      ∃ t, exec (.kweaveWordWrite pth v) s = .next t ∧ s.onlyRegs t [(.SYS_KWIN, 0), (.SYS_KWCNT, 0)] ∧
        t.dev.kw.part = [] ∧ t.dev.kw.fifo = [] ∧ s.dev.counts t.dev SYS_KWCNT_SYNC 0 1) ∧
    (∀ w0 w1 r, s.dev.on SYS_KWSTAT_READY 0 = true → s.dev.kw.part = w0 :: w1 :: r → w0 % 2 ^ 16 = r.length + 3 →
      s.dev.now ≤ s.dev.kw.partNow + 10000000 →
      (crcWords (w0 :: w1 :: r) = v.toNat → w1 % 2 ^ 16 ∈ opcodes →
        ∃ t, exec (.kweaveWordWrite pth v) s = .next t ∧ s.onlyRegs t [(.SYS_KWIN, 0)] ∧
          t.dev.kw.cur = some (w0 :: w1 :: r ++ [v.toNat]) ∧ t.dev.kw.part = [] ∧ t.dev.kw.lastPkt = s.dev.now) ∧
      (crcWords (w0 :: w1 :: r) ≠ v.toNat → s.dev.kw.out.length + 5 ≤ kwOutSize →
        ∃ t, exec (.kweaveWordWrite pth v) s = .next t ∧ s.onlyRegs t [(.SYS_KWIN, 0), (.SYS_KWCNT, 0)] ∧
          s.replied t (replyWords w1 stCRC_ERR 0 none []) ∧ t.dev.kw.part = [] ∧ s.dev.counts t.dev SYS_KWCNT_CRC 0 1))) ∧
  (s.dev.live 2 = true → s.dev.kw.part ≠ [] → s.dev.kw.fifo = [] → s.dev.kw.cur = none →
    s.dev.kw.lastNow + 10000000 < s.dev.now → s.dev.kw.out.length + 5 ≤ kwOutSize →
    ∃ t, exec .kweaveWordTimeout s = .next t ∧ s.onlyRegs t [(.SYS_KWCNT, 0)] ∧ t.dev.kw.part = [] ∧
      s.dev.counts t.dev SYS_KWCNT_TMO 0 1 ∧ s.replied t (replyWords (s.dev.kw.part.getD 1 0) stTIMEOUT 0 none [])) ∧
  (s.serves pth .SYS_KWOUT 0 → s.dev.kw.pend = [] → s.dev.kw.fifo = [] → s.dev.kw.waiting = [] →
    (∀ w r, s.dev.kw.out = w :: r → ∃ t, exec (.kweaveReplyRead pth) s = .next t ∧ s.onlyRegs t [] ∧
      t.dev.rdata = w % 2 ^ 32 ∧ t.dev.kw.out = r) ∧
    (s.dev.kw.out = [] → ∃ t, exec (.kweaveReplyRead pth) s = .next t ∧ s.onlyRegs t [(.SYS_KWSTAT, 0)] ∧
      t.dev.rdata = 0 ∧ t.dev.on SYS_KWSTAT_UNDER 0 = true)) ∧
  (s.accepts pth .SYS_KWCTRL 0 v → s.dev.kw.waiting = [] →
    (carried v SYS_KWCTRL_RESYNC = 1 → carried v SYS_KWCTRL_FLUSH = 0 → ∃ t, exec (.kweaveResync pth v) s = .next t ∧
      s.onlyRegs t [(.SYS_KWCTRL, 0)] ∧ t.dev.kw = { s.dev.kw with fifo := [], part := [] }) ∧
    (carried v SYS_KWCTRL_RESYNC = 0 → carried v SYS_KWCTRL_FLUSH = 1 → s.dev.kw.pend = [] → s.dev.kw.fifo = [] →
      ∃ t, exec (.kweaveFlush pth v) s = .next t ∧ s.onlyRegs t [(.SYS_KWCTRL, 0)] ∧
        t.dev.kw = { s.dev.kw with out := [] })) ∧
  (s.dev.kw.secure = true → ∃ t, exec .sessionTimeout s = .next t ∧ s.onlyRegs t [] ∧
    t.dev.kw.secure = !(decide (s.dev.kw.lastPkt + 10000000000 ≤ s.dev.now)))

/-- NOP, GET_INFO, HANDLE_QUERY, HANDLE_LIST, PWR_STATUS, CFG_STATUS, CAL_PART, CAL_RESULT, CAL_DUE, LTG_SNAP, LTG_STATUS,
ZLK_STATUS, MEM_STATUS, EVQ_STATUS, TEL_READ, TEL_COUNTERS and ECHO, with parameters in range: the reply is OK with the
results of the opcode table, and no register and no memory changes. (R362, R374, R377, R378.) -/
def Obligations.ReportPackets : Prop := ∀ (s : State) (l : List Nat),
  let d := s.dev
  let p := param l 0
  let of (ks : List RegKind) (i : Nat) : List Nat := ks.map (fun k => d.peek .kweave k i)
  (∀ c op k ok r, (c, op, k, ok, r) ∈ [
      (Instr.nop, 0x000, 0, true, []),
      (.getInfo, 0x001, 0, true, of [.SYS_DEVID, .SYS_FWVER, .SYS_SERIAL, .SYS_SERIALH, .CFG_IMAGEID, .ZLK_STAT] 0 ++
        [b2n d.kw.secure + 2 * b2n d.kw.lockout, d.kw.handles.length]),
      (.handleQuery, 0x006, 1, decide (1 ≤ p ∧ p ≤ 4095), match d.findHandle p with
        | none => [0, 0, 0]
        | some e => [(if e.stopping then 2 else 1) + e.opcode % 0x1000 * 2 ^ 16, e.tb % 2 ^ 32, e.tb / 2 ^ 32 % 2 ^ 32]),
      (.handleList, 0x007, 0, true, d.handleList),
      (.pwrStatus, 0x102, 0, true, of [.PWR_STATE, .PWR_DOMSTAT0, .PWR_DOMSTAT1, .PWR_RSTCAUSE, .PWR_STARTERR, .PWR_PFAIL] 0),
      (.cfgStatus, 0x203, 0, true, of [.CFG_STATUS, .CFG_FAILPOS, .CFG_FAILINFO, .CFG_IMAGEID, .CFG_RETRY, .CFG_BYTES,
        .CFG_STARTUP] 0),
      (.calPart, 0x302, 2, decide (p ≤ 255 ∧ param l 1 ≤ 23), [d.pinfo p, d.page p] ++
        (List.range 7).map (fun j => d.pctx p (param l 1) j)),
      (.calResult, 0x303, 1, decide (p ≤ 7), of [.CAL_RSTAT, .CAL_RVAL] p),
      (.calDue, 0x304, 0, true, of [.CAL_STAT, .CAL_STALEH, .CAL_STALEG] 0),
      (.ltgSnap, 0x504, 0, true, [d.t % 2 ^ 32, d.t / 2 ^ 32 % 2 ^ 32] ++ (List.range 8).flatMap (fun q => d.snapPort q)),
      (.ltgStatus, 0x506, 1, decide (p ≤ 23), of [.LTG_STAT, .LTG_LINE, .LTG_TGT, .LTG_TGTH, .LTG_OVRCNT, .LTG_EVTCNT,
        .LTG_MODECNT, .LTG_EFFMIN] p),
      (.zlkStatus, 0x601, 0, true, of [.ZLK_STAT, .ZLK_ALIVE, .ZLK_LOCKMASK, .ZLK_LOOPLAT, .ZLK_OFSP, .ZLK_OFSR, .ZLK_TBERR,
        .ZLK_LINECNT] 0),
      (.memStatus, 0x702, 1, decide (p ≤ 7), of [.MEM_BSTAT, .MEM_ECCCNT, .MEM_ERRADDR, .MEM_MARCHRES, .MEM_ROWMAP0,
        .MEM_ROWMAP1] p),
      (.evqStatus, 0x801, 0, true, of [.EVQ_HEAD, .EVQ_TAIL, .EVQ_SIZE, .EVQ_LOST] 0),
      (.telRead, 0x900, 0, true, d.telemetry),
      (.telCounters, 0x902, 0, true, [d.rf SYS_ACCERR_COUNT 0, d.rf SYS_NOWNER_COUNT 0, d.peek .kweave .SYS_KWCNT 0])] →
    s.asks op l r.length k → ok = true → ∃ t, exec c s = .next t ∧ s.onlyRegs t [] ∧ s.repliesOk t l r) ∧
  (s.interprets 0x00A l (l.length - 4) → 4 ≤ l.length → l.length ≤ 68 → l.getD 2 0 = 0 →
    ∃ t, exec .echo s = .next t ∧ s.onlyRegs t [] ∧ s.repliesOk t l (params l))

/-- SOFT_RESET with its code is answered OK and asks for a warm start; with another code it is BAD_PARAM. SESSION_UNLOCK
with the fused code opens a secure session; a wrong one is DENIED and counted, the sixteenth locking out. SESSION_LOCK
closes it. ABORT of a handle not in use is ALREADY_DONE, of one already stopping BUSY, of a fill with no request out it ends
the fill with one ABORTED record. KEY_LOAD and KEY_ZERO set and clear the BBRAM key in a secure session and are NOT_SECURE
otherwise. (R312, R366, R367, R368, R369, R374, R375, R377.) -/
def Obligations.SessionPackets : Prop := ∀ (s : State) (l : List Nat),
  (s.asks 0x002 l 0 1 →
    (param l 0 = 0xA55A → ∃ t, exec .softReset s = .next t ∧ s.onlyRegs t [] ∧ s.repliesOk t l [] ∧
      (s.dev.running = true → s.dev.pwr.warmReq = none → t.dev.pwr.warmReq = some (2, s.dev.now + 10000))) ∧
    (param l 0 ≠ 0xA55A → param l 0 < 2 ^ 32 → ∃ t, exec .softReset s = .next t ∧ s.onlyRegs t [] ∧
      s.repliesNo t l stBAD_PARAM (some (3, 0)) ∧ t.dev.pwr = s.dev.pwr)) ∧
  (∀ code, s.asks 0x003 l 0 2 → s.dev.fuses.unlock = some code → s.dev.kw.lockout = false → s.dev.kw.failNow = none →
    (param l 0 + param l 1 * 2 ^ 32 = code → ∃ t, exec .sessionUnlock s = .next t ∧ s.onlyRegs t [] ∧
      s.repliesOk t l [] ∧ t.dev.kw.secure = true ∧ t.dev.kw.fails = 0) ∧
    (param l 0 + param l 1 * 2 ^ 32 ≠ code → ∃ t, exec .sessionUnlock s = .next t ∧ s.onlyRegs t [] ∧
      s.repliesNo t l stDENIED none ∧ t.dev.kw.secure = s.dev.kw.secure ∧ t.dev.kw.fails = s.dev.kw.fails + 1 ∧
      t.dev.kw.failNow = some s.dev.now ∧ t.dev.kw.lockout = decide (16 ≤ s.dev.kw.fails + 1))) ∧
  (s.asks 0x004 l 0 0 → ∃ t, exec .sessionLock s = .next t ∧ s.onlyRegs t [] ∧ s.repliesOk t l [] ∧
    t.dev.kw.secure = false) ∧
  (s.asks 0x005 l 0 1 → 1 ≤ param l 0 → param l 0 ≤ 4095 →
    (s.dev.findHandle (param l 0) = none → ∃ t, exec .abort s = .next t ∧ s.onlyRegs t [] ∧
      s.repliesNo t l stALREADY_DONE (some (3, 0))) ∧
    (∀ e, s.dev.findHandle (param l 0) = some e → e.stopping = true → ∃ t, exec .abort s = .next t ∧ s.onlyRegs t [] ∧
      s.repliesNo t l stBUSY (some (3, 0))) ∧
    (∀ e f, s.dev.findHandle (param l 0) = some e → e.stopping = false → e.opcode = 0x701 → s.dev.bank.fills = [f] →
      f.handle = e.num → (∀ r ∈ s.dev.bank.reqs, r.who ≠ .management) → s.dev.pwr.booted = true →
      ∃ t, exec .abort s = .next t ∧ s.onlyRegs t [] ∧ s.repliesOk t l [] ∧ t.dev.bank.fills = [] ∧
        t.dev.findHandle (param l 0) = none ∧
        t.dev.evq.inFlight = s.dev.evq.inFlight ++
          [⟨.aborted, 0x701, false, false, param l 0 + stABORTED * 2 ^ 12, s.dev.t⟩])) ∧
  (s.asks 0x008 l 0 8 → s.dev.bbrInUse = false →
    (s.dev.kw.secure = true → ∃ t, exec .keyLoad s = .next t ∧ s.onlyRegs t [(.CFG_FUSE, 0)] ∧ s.repliesOk t l [] ∧
      t.dev.cfg.bbrKey = keyBytes (params l) ∧ t.dev.on CFG_FUSE_BKEY 0 = true) ∧
    (s.dev.kw.secure = false → ∃ t, exec .keyLoad s = .next t ∧ s.onlyRegs t [] ∧ s.repliesNo t l stNOT_SECURE none ∧
      t.dev.cfg = s.dev.cfg)) ∧
  (s.asks 0x009 l 0 0 →
    (s.dev.kw.secure = true → ∃ t, exec .keyZero s = .next t ∧ s.onlyRegs t [(.CFG_FUSE, 0)] ∧ s.repliesOk t l [] ∧
      t.dev.cfg.bbrKey = [] ∧ t.dev.on CFG_FUSE_BKEY 0 = false) ∧
    (s.dev.kw.secure = false → ∃ t, exec .keyZero s = .next t ∧ s.onlyRegs t [] ∧ s.repliesNo t l stNOT_SECURE none ∧
      t.dev.cfg = s.dev.cfg))

/-- For packets that name one head: LTG_ARM arms a trigger whose settings allow it and is BAD_STATE at the head otherwise;
LTG_DISARM disarms; LTG_SWTRIG is answered OK for an armed software-triggered head and BAD_STATE otherwise; each OK reply
carries TB. LTG_POSLOAD loads a position; LTG_TBLOAD loads TB or is BAD_STATE; EVQ_CONFIG resizes an empty queue and sets
HEAD and TAIL to 0; TEL_CONFIG sets period, content and the next instant. (R43, R48, R54, R377, R378, R388, R396.) -/
def Obligations.TimingPackets : Prop := ∀ (s : State) (l : List Nat) (h : Nat), h < 24 →
  let tb := [s.dev.t % 2 ^ 32, s.dev.t / 2 ^ 32 % 2 ^ 32]
  (s.asks 0x500 l 2 1 → param l 0 = 2 ^ h → s.dev.on LTG_CTRL_ARM h = false →
    (s.dev.armOk h (s.dev.rf LTG_CTRL_SRC h) (s.dev.rf LTG_CTRL_ENC h) = true → ∃ t, exec .ltgArm s = .next t ∧
      s.onlyRegs t [(.LTG_CTRL, h), (.LTG_STAT, h)] ∧ s.repliesOk t l tb ∧ (t.dev.getLtg h).held = none ∧
      (t.dev.getLtg h).pitch = (s.dev.getLtg h).pitchNew ∧ t.dev.on LTG_CTRL_ARM h = true) ∧
    (s.dev.armOk h (s.dev.rf LTG_CTRL_SRC h) (s.dev.rf LTG_CTRL_ENC h) = false → ∃ t, exec .ltgArm s = .next t ∧
      s.onlyRegs t [] ∧ s.repliesNo t l stBAD_STATE (some (3, h)) ∧ t.dev.ltg = s.dev.ltg)) ∧
  (s.asks 0x501 l 2 1 → param l 0 = 2 ^ h → s.dev.on LTG_CTRL_ARM h = true → ∃ t, exec .ltgDisarm s = .next t ∧
    s.onlyRegs t (ltgStopRegs h) ∧ s.repliesOk t l tb ∧ (t.dev.getLtg h).held = none ∧ t.dev.on LTG_CTRL_ARM h = false) ∧
  (s.asks 0x502 l 2 3 → param l 0 < 8 → param l 2 < 2 ^ 16 → s.dev.posLoadOk (param l 0) = true →
    ∃ t, exec .ltgPosload s = .next t ∧ s.onlyRegs t [(.ENC_STAT, param l 0)] ∧ s.repliesOk t l tb ∧
      (t.dev.getEnc (param l 0)).pos = BitVec.ofNat 48 (param l 1 + param l 2 * 2 ^ 32) ∧
      t.dev.on ENC_STAT_POSVALID (param l 0) = true) ∧
  (s.asks 0x503 l 2 1 → param l 0 = 2 ^ h →
    (s.dev.on LTG_CTRL_ARM h = true → s.dev.rf LTG_CTRL_SRC h = 4 →
      s.dev.readyToFire h (s.dev.t + s.dev.lead) → ∃ t, exec .ltgSwtrig s = .next t ∧ s.repliesOk t l tb ∧
      s.issues t h (s.dev.rf LTG_LINE_LINE h) (s.dev.t + s.dev.lead) [] ∧
      t.dev.rf LTG_LINE_LINE h = nextNum (s.dev.rf LTG_LINE_LINE h)) ∧
    ((s.dev.on LTG_CTRL_ARM h = false ∨ s.dev.rf LTG_CTRL_SRC h ≠ 4) → ∃ t, exec .ltgSwtrig s = .next t ∧
      s.onlyRegs t [] ∧ s.repliesNo t l stBAD_STATE (some (3, h)) ∧ t.dev.ltg = s.dev.ltg)) ∧
  (s.asks 0x505 l 0 2 →
    (s.dev.tbLoadOk = true → ∃ t, exec .ltgTbload s = .next t ∧ s.onlyRegs t [] ∧ s.repliesOk t l [] ∧
      t.dev.tb = BitVec.ofNat 64 (param l 0 + param l 1 * 2 ^ 32)) ∧
    (s.dev.tbLoadOk = false → ∃ t, exec .ltgTbload s = .next t ∧ s.onlyRegs t [] ∧ s.repliesNo t l stBAD_STATE none ∧
      t.dev.tb = s.dev.tb)) ∧
  (s.asks 0x800 l 1 1 → 1024 ≤ param l 0 → param l 0 ≤ 4096 → param l 0 % 256 = 0 → s.dev.evqFill = 0 →
    ∃ t, exec .evqConfig s = .next t ∧ s.onlyRegs t [(.EVQ_SIZE, 0), (.EVQ_HEAD, 0), (.EVQ_TAIL, 0), (.EVQ_STAT, 0)] ∧
      s.repliesOk t l [s.dev.peek .kweave .EVQ_BASE 0] ∧
      t.dev.rf EVQ_SIZE_SIZE 0 = param l 0 ∧ t.dev.rf EVQ_HEAD_HEAD 0 = 0 ∧ t.dev.rf EVQ_TAIL_TAIL 0 = 0) ∧
  (s.asks 0x901 l 0 2 → param l 0 ≤ 3600 → param l 1 < 16 → ∃ t, exec .telConfig s = .next t ∧ s.onlyRegs t [] ∧
    s.repliesOk t l [] ∧ t.dev.kw.telPeriod = param l 0 * 1000000000 ∧ t.dev.kw.telContent = param l 1 ∧
    t.dev.kw.telNext = s.dev.now + param l 0 * 1000000000)

/-- Of a register that Kweave may reach: REG_READ and REG_READBLOCK reply what it shows and have its read effect. While no
earlier write waits for acceptance: REG_WRITE and REG_WRITEBLOCK of an accepted value, of a register whose write sets
nothing off, change that register's fields and nothing else; with DRY nothing changes; where a second write of the packet
has an address that is not aligned, no write takes effect, the refusal is counted once with its cause and located at that
address; REG_MASKWRITE of a bank's weights changes only the field of its mask. (R6, R18, R362, R377, R379, R380, R381, R382,
R383.) -/
def Obligations.RegisterPackets : Prop := ∀ (s : State) (l : List Nat) (k : RegKind) (i : Nat) (e : List MemEcc),
  (s.serves .kweave k i → k ≠ .SYS_KWOUT →
    (s.asks 0x400 l 1 2 → param l 0 = 1 → param l 1 = regAddr k i → ∃ t, exec (.regRead e) s = .next t ∧ s.sameStore t ∧
      s.repliesOk t l [s.dev.peek .kweave k i] ∧ t.dev.regs = (s.dev.readEffect .kweave k i).regs) ∧
    (s.asks 0x403 l 1 3 → param l 0 = regAddr k i → param l 1 = 1 → (param l 2 = 0 ∨ param l 2 = 4) →
      ∃ t, exec (.regReadblock e) s = .next t ∧ s.sameStore t ∧ s.repliesOk t l [s.dev.peek .kweave k i] ∧
      t.dev.regs = (s.dev.readEffect .kweave k i).regs)) ∧
  (∀ v : Word, s.accepts .kweave k i v → k ∉ actingKinds → s.dev.writesWait = false →
    (s.asks 0x401 l 0 3 → param l 0 = 1 → param l 1 = regAddr k i → param l 2 = v.toNat →
      ∃ t, exec (.regWrite e) s = .next t ∧ s.written t k i v ∧ s.repliesOk t l []) ∧
    (s.interprets 0x401 l 0 → l.length = 7 → l.getD 2 0 = 1 → param l 0 = 1 → param l 1 = regAddr k i →
      param l 2 = v.toNat → ∃ t, exec (.regWrite e) s = .next t ∧ s.onlyRegs t [] ∧ s.repliesOk t l []) ∧
    (s.asks 0x401 l 0 5 → param l 0 = 2 → param l 1 = regAddr k i → param l 2 = v.toNat → param l 3 % 4 ≠ 0 →
      ∃ t, exec (.regWrite e) s = .next t ∧ s.onlyRegs t [(.SYS_ACCERR, 0), (.SYS_ACCADDR, 0)] ∧
        s.repliesNo t l stBAD_PARAM (some (6, 0)) ∧ s.dev.counts t.dev SYS_ACCERR_COUNT 0 1 ∧
        t.dev.rf SYS_ACCERR_CAUSE 0 = 2 ∧ t.dev.rf SYS_ACCERR_PATH 0 = 1) ∧
    (s.asks 0x404 l 0 3 → param l 0 = regAddr k i → (param l 1 = 0 ∨ param l 1 = 4) → param l 2 = v.toNat →
      ∃ t, exec (.regWriteblock e) s = .next t ∧ s.written t k i v ∧ s.repliesOk t l [])) ∧
  (∀ b w, b < 8 → 1 ≤ w → w < 16 → s.dev.writesWait = false →
    s.accepts .kweave .MEM_WGT b (BitVec.ofNat 32 (setBits (s.dev.rreg .MEM_WGT b).toNat 0 4 w)) →
    s.asks 0x402 l 0 4 → param l 0 = 1 → param l 1 = regAddr .MEM_WGT b → param l 2 = 15 → param l 3 = w →
    ∃ t, exec (.regMaskwrite e) s = .next t ∧ s.onlyRegs t [(.MEM_WGT, b)] ∧ s.repliesOk t l [] ∧
      t.dev.rf MEM_WGT_P0MGT b = w ∧ t.dev.rf MEM_WGT_P0RGN b = s.dev.rf MEM_WGT_P0RGN b ∧
      t.dev.rf MEM_WGT_P1LW b = s.dev.rf MEM_WGT_P1LW b ∧ t.dev.rf MEM_WGT_P1MCV b = s.dev.rf MEM_WGT_P1MCV b ∧
      t.dev.rf MEM_WGT_P1RGN b = s.dev.rf MEM_WGT_P1RGN b)

/-- With a handle free: each long operation that may start is ACCEPTED with the next handle and its work begins: the
transition; the domains (the banks that change state read 0, no other byte and no register of the blocks that no domain on
request holds changes); the clearing of a full or golden load (the banks and the blocks that a load does not touch stay);
the partial load, the calibration command, the store or its wait, the ring start, the march, the fill. One that may not is
refused with the status of its rule and changes nothing; PWR_STATE to the present state is answered OK. (R158, R258, R345,
R348, R371, R377.) -/
def Obligations.LongOperations : Prop := ∀ (s : State) (l : List Nat), s.dev.handleFree = true →
  (s.asks 0x100 l 0 1 → s.dev.pwr.st = .run →
    (param l 0 = 2 → s.dev.powerRefusal 2 = none → ∃ t, exec .pwrState s = .next t ∧ s.onlyRegs t [(.PWR_STATE, 0)] ∧
      s.repliesHandle t 0x100 l ∧ t.dev.pwr.trans = some (2, .handle (s.dev.newHandle 0x100)) ∧
      t.dev.on PWR_STATE_BUSY 0 = true ∧ t.dev.rf PWR_STATE_TGT 0 = 2) ∧
    (param l 0 = 1 → s.dev.powerRefusal 1 = none → ∃ t, exec .pwrState s = .next t ∧ s.onlyRegs t [] ∧
      s.repliesOk t l []) ∧
    (∀ st, 1 ≤ param l 0 → param l 0 ≤ 4 → s.dev.powerRefusal (param l 0) = some st → ∃ t, exec .pwrState s = .next t ∧
      s.onlyRegs t [] ∧ s.repliesNo t l st (some (3, 0)) ∧ t.dev.pwr = s.dev.pwr)) ∧
  (s.asks 0x101 l 0 1 → param l 0 < 2 ^ 19 → s.dev.domenBit (param l 0) = none → ∃ t, exec .pwrDomains s = .next t ∧
    t.pending = s.pending ∧ s.repliesHandle t 0x101 l ∧
    s.dev.keepsBlocks t.dev domenKeeps ∧
    t.dev.rf PWR_DOMEN_MEM 0 = bitsOf (param l 0) 8 8 ∧ t.dev.rf PWR_DOMEN_SER 0 = bitsOf (param l 0) 16 3 ∧
    (∀ g, g < 8 → tbit (t.dev.rf PWR_DOMEN_GRP 0) g = (tbit (param l 0) g && tbit (s.dev.rf PWR_DOMEN_GRP 0) g)) ∧
    (∀ b, b < 8 → tbit (param l 0) (8 + b) ≠ tbit (s.dev.rf PWR_DOMEN_MEM 0) b →
      ∀ x, x < 0x100000 → memByte t.mem (bankAddr b 0 + x) = 0) ∧
    (∀ x, (∀ b, b < 8 → tbit (param l 0) (8 + b) ≠ tbit (s.dev.rf PWR_DOMEN_MEM 0) b → x < bankAddr b 0 ∨ bankAddr b 0 + 0x100000 ≤ x) →
      memByte t.mem x = memByte s.mem x)) ∧
  (s.asks 0x200 l 0 0 → ∃ t, exec .cfgProgram s = .next t ∧ s.keepsBanks t ∧ s.dev.keepsBlocks t.dev loadKeeps ∧
    s.repliesHandle t 0x200 l ∧ t.dev.cfgState = csCLEAR ∧ t.dev.cfg.after = 0 ∧
    t.dev.cfg.load.handle = some (s.dev.newHandle 0x200) ∧ t.dev.on SYS_STATUS_CONFIGURED 0 = false) ∧
  (s.asks 0x202 l 0 0 → ∃ t, exec .cfgGolden s = .next t ∧ s.keepsBanks t ∧ s.dev.keepsBlocks t.dev loadKeeps ∧
    s.repliesHandle t 0x202 l ∧ t.dev.cfgState = csCLEAR ∧ t.dev.cfg.after = 1 ∧
    t.dev.cfg.load.handle = some (s.dev.newHandle 0x202) ∧ t.dev.on SYS_STATUS_CONFIGURED 0 = false) ∧
  (s.asks 0x201 l 0 0 →
    (s.dev.partialRefused = none → ∃ t, exec .cfgPartial s = .next t ∧ s.onlyRegs t [(.CFG_STATUS, 0)] ∧
      s.repliesHandle t 0x201 l ∧ t.dev.on CFG_STATUS_PLOAD 0 = true ∧ t.dev.cfg.load.partialLoad = true ∧
      t.dev.cfg.load.isOpen = true ∧ t.dev.cfg.load.handle = some (s.dev.newHandle 0x201)) ∧
    (∀ st, s.dev.partialRefused = some st → ∃ t, exec .cfgPartial s = .next t ∧ s.onlyRegs t [] ∧
      s.repliesNo t l st none ∧ t.dev.cfg = s.dev.cfg)) ∧
  (s.asks 0x300 l 0 5 → param l 0 = 0 → param l 1 = 1 → param l 2 = 0 → param l 3 = 0 → param l 4 = 0 →
    (s.dev.calRefusal 0 [0] = none → s.dev.calIdle → ∃ t, exec .calRun s = .next t ∧ s.onlyRegs t [] ∧
      s.repliesHandle t 0x300 l ∧ ∃ c, t.dev.cal.cmds = [c] ∧ c.handle = s.dev.newHandle 0x300 ∧ c.kind = 0 ∧
        c.left = [0]) ∧
    (∀ st b, s.dev.calRefusal 0 [0] = some (st, b) → b < 32 → ∃ t, exec .calRun s = .next t ∧ s.onlyRegs t [] ∧
      s.repliesNo t l st (some (4, b)) ∧ t.dev.cal = s.dev.cal)) ∧
  (s.asks 0x301 l 0 0 →
    (s.dev.cal.store ≠ none → ∃ t, exec .calStore s = .next t ∧ s.onlyRegs t [] ∧ s.repliesHandle t 0x301 l ∧
      t.dev.cal.heldHandles = s.dev.cal.heldHandles ++ [s.dev.newHandle 0x301]) ∧
    (∀ p, s.dev.cal.store = none → s.dev.cal.heldHandles = [] → s.dev.pwr.booted = true → s.dev.choosePair none = some p →
      ∃ t, exec .calStore s = .next t ∧ s.onlyRegs t [(.CAL_STORESTAT, 0)] ∧ s.repliesHandle t 0x301 l ∧
        ∃ r, t.dev.cal.store = some r ∧ r.pair = p ∧ r.handles = [s.dev.newHandle 0x301])) ∧
  (s.asks 0x600 l 0 0 →
    (s.dev.on ZLK_CTRL_EN 0 = true → s.dev.startRuns = false → ∃ t, exec .zlkStart s = .next t ∧
      s.onlyRegs t [(.ZLK_STAT, 0)] ∧ s.repliesHandle t 0x600 l ∧
      t.dev.zlk.startHandle = some (s.dev.newHandle 0x600) ∧ t.dev.startRuns = true) ∧
    (s.dev.on ZLK_CTRL_EN 0 = false → ∃ t, exec .zlkStart s = .next t ∧ s.onlyRegs t [] ∧
      s.repliesNo t l stBAD_STATE none ∧ t.dev.zlk = s.dev.zlk) ∧
    (s.dev.on ZLK_CTRL_EN 0 = true → s.dev.startRuns = true → ∃ t, exec .zlkStart s = .next t ∧ s.onlyRegs t [] ∧
      s.repliesNo t l stBUSY none ∧ t.dev.zlk = s.dev.zlk)) ∧
  (∀ b, b < 8 → s.asks 0x700 l 0 2 → param l 0 = 2 ^ b → param l 1 ≤ 1 →
    (s.dev.marchRefusal b (param l 1) = none → ∃ t, exec .memMarch s = .next t ∧ s.onlyRegs t [(.MEM_BSTAT, b)] ∧
      s.repliesHandle t 0x700 l ∧ t.dev.rf MEM_BSTAT_STATE b = (if param l 1 = 0 then bsMARCHD else bsMARCHP) ∧
      t.dev.bank.marches = s.dev.bank.marches ++ [⟨s.dev.newHandle 0x700, [b], 0⟩]) ∧
    (∀ st, s.dev.marchRefusal b (param l 1) = some st → ∃ t, exec .memMarch s = .next t ∧ s.onlyRegs t [] ∧
      s.repliesNo t l st (some (3, b)) ∧ t.dev.bank = s.dev.bank)) ∧
  (s.asks 0x701 l 0 5 → param l 0 < 8 → param l 1 < 131072 → 1 ≤ param l 2 → param l 1 + param l 2 ≤ 131072 →
    (s.dev.bankServes (param l 0) = true → ∃ t, exec .memFill s = .next t ∧ s.onlyRegs t [] ∧ s.repliesHandle t 0x701 l ∧
      t.dev.bank.fills = s.dev.bank.fills ++
        [⟨s.dev.newHandle 0x701, param l 0, param l 1, param l 2, param l 3 + param l 4 * 2 ^ 32, false⟩]) ∧
    (s.dev.bankServes (param l 0) = false → ∃ t, exec .memFill s = .next t ∧ s.onlyRegs t [] ∧
      s.repliesNo t l stBAD_STATE (some (3, 0)) ∧ t.dev.bank = s.dev.bank))

/-- A record in flight is written to the slot at HEAD with the sequence number while the queue has room and nothing is lost,
HEAD and SEQ advance, HIRQ is asserted, and HWAKE where the host sleeps; in a full queue it is lost and counted. A write of
EVQ.TAIL sets TAIL and HIRQ tells whether the queue is empty; HOSTSLEEP follows its write. A LEVEL record whose source has
fallen is rewritten VOID and counted, unless the host has passed it. At the telemetry instant with content 4 one record is
written and the next instant set. (R384, R386, R387, R389, R390, R391, R392, R393, R396.) -/
def Obligations.EventQueue : Prop := ∀ (s : State) (pth : Path) (v : Word),
  (∀ src r, s.dev.evqServes = true → s.dev.evqSize ≤ 4096 → s.dev.rf EVQ_TAIL_TAIL 0 < 2 * s.dev.evqSize →
    s.dev.evq.inFlight.find? (fun r => decide (r.source = src) && !(s.dev.replyFirst r)) = some r →
    (s.dev.evqFill < s.dev.evqSize → s.dev.rf EVQ_LOST_LOST 0 = 0 → r.kind ≠ .void →
      ∃ t, exec (.eventRecordWrite src) s = .next t ∧ s.onlyRegs t [(.EVQ_HEAD, 0), (.EVQ_STAT, 0)] ∧
        t.dev.evq.inFlight = s.dev.evq.inFlight.erase r ∧
        t.dev.evSlot (s.dev.rf EVQ_HEAD_HEAD 0 % s.dev.evqSize) = r.slot (s.dev.rf EVQ_STAT_SEQ 0) ∧
        t.dev.rf EVQ_HEAD_HEAD 0 = (s.dev.rf EVQ_HEAD_HEAD 0 + 1) % (2 * s.dev.evqSize) ∧
        t.dev.rf EVQ_STAT_SEQ 0 = (s.dev.rf EVQ_STAT_SEQ 0 + 1) % 256 ∧ t.dev.evq.hirq = true ∧
        t.dev.evq.hwake = (s.dev.evq.hwake || s.dev.on EVQ_CTRL_HOSTSLEEP 0)) ∧
    (s.dev.evqSize ≤ s.dev.evqFill → ∃ t, exec (.eventRecordWrite src) s = .next t ∧
      s.onlyRegs t [(.EVQ_LOST, 0), (.EVQ_CNT, 0)] ∧ t.dev.evq.inFlight = s.dev.evq.inFlight.erase r ∧
      t.dev.evq.slots = s.dev.evq.slots ∧ s.dev.counts t.dev EVQ_LOST_LOST 0 1 ∧ s.dev.counts t.dev EVQ_CNT_LOSTTOT 0 1)) ∧
  (s.accepts pth .EVQ_TAIL 0 v → s.dev.rf EVQ_LOST_LOST 0 = 0 → ∃ t, exec (.evqTailWrite pth v) s = .next t ∧
    s.onlyRegs t [(.EVQ_TAIL, 0), (.EVQ_STAT, 0)] ∧ t.dev.rf EVQ_TAIL_TAIL 0 = carried v EVQ_TAIL_TAIL ∧
    t.dev.evq.hirq = decide (t.dev.evqFill ≠ 0) ∧ t.dev.evq.slots = s.dev.evq.slots) ∧
  (s.accepts pth .EVQ_CTRL 0 v → ∃ t, exec (.evqHostsleepWrite pth v) s = .next t ∧
    s.onlyRegs t [(.EVQ_CTRL, 0), (.EVQ_STAT, 0)] ∧ t.dev.rf EVQ_CTRL_HOSTSLEEP 0 = carried v EVQ_CTRL_HOSTSLEEP ∧
    t.dev.evq.hwake = (decide (carried v EVQ_CTRL_HOSTSLEEP = 1) && (s.dev.evq.hwake || decide (s.dev.evqFill ≠ 0)))) ∧
  (∀ x rest, s.dev.evqServes = true → s.dev.evq.revoke = x :: rest →
    (s.dev.passed x.index = true → ∃ t, exec .levelRevoke s = .next t ∧ s.onlyRegs t [] ∧ t.dev.evq.revoke = rest ∧
      t.dev.evq.slots = s.dev.evq.slots) ∧
    (s.dev.passed x.index = false → ∃ t, exec .levelRevoke s = .next t ∧ s.onlyRegs t [(.EVQ_CNT, 0)] ∧
      t.dev.evq.revoke = rest ∧ s.dev.counts t.dev EVQ_CNT_VOIDS 0 1 ∧
      t.dev.evSlot (x.index % s.dev.evqSize) =
        { s.dev.evSlot (x.index % s.dev.evqSize) with
          w0 := setBits (s.dev.evSlot (x.index % s.dev.evqSize)).w0 24 8 6 })) ∧
  (s.dev.kw.telPeriod ≠ 0 → s.dev.kw.telNext ≤ s.dev.now → s.dev.pwr.booted = true → s.dev.pwr.st = .run →
    s.dev.rf EVQ_LOST_LOST 0 = 0 → s.dev.kw.telContent = 4 → s.dev.evqFill < s.dev.evqSize →
    ∃ t, exec .telemetryPeriod s = .next t ∧ s.onlyRegs t [(.EVQ_HEAD, 0), (.EVQ_STAT, 0)] ∧
      t.dev.kw.telNext = s.dev.kw.telNext + s.dev.kw.telPeriod ∧
      t.dev.evSlot (s.dev.rf EVQ_HEAD_HEAD 0 % s.dev.evqSize) =
        (EvRec.mk .telemetry 0x198 false false (s.dev.cal.act % 2 ^ 8 + s.dev.enabledCount % 2 ^ 7 * 2 ^ 8) s.dev.t).slot
          (s.dev.rf EVQ_STAT_SEQ 0))

/-- An accepted write of GPIO.CFG sets the pin's fields and, after OUTREL, a change of the driving function opens the pin
and connects the new one 20 ns after the pad clock edge; a change of a claim does the same. A write of GPIO.MOUT or MOE
changes exactly the bits whose mask bit is 1. GO starts a two-wire transaction; while the clock is held low for a readout
nothing of it ends; otherwise its end clears BUSY, sets DONE, NACK or STUCK, the byte count and the byte read, and a timeout
sets TIMEOUT. (R397, R399, R400, R401, R406, R407.) -/
def Obligations.PinsAndTwoWire : Prop := ∀ (s : State) (pth : Path) (p : Nat) (v : Word), p < 64 →
  (s.accepts pth .GPIO_CFG p v → ∃ t, exec (.gpioCfgWrite pth p v) s = .next t ∧ s.onlyRegs t [(.GPIO_CFG, p)] ∧
    t.dev.rf GPIO_CFG_FUNC p = carried v GPIO_CFG_FUNC ∧ t.dev.rf GPIO_CFG_SEL p = carried v GPIO_CFG_SEL ∧
    (s.dev.gpio.released = false → t.dev.gpio = s.dev.gpio) ∧
    (∀ func held, s.dev.gpio.released = true → s.dev.pad p = ⟨func, none, none, held⟩ → t.dev.padWanted p ≠ func →
      (t.dev.pad p).func = func ∧ (t.dev.pad p).switch = some (t.dev.padWanted p, padEdge s.dev.now + 20))) ∧
  (∀ func held, s.dev.live 2 = true → s.dev.gpio.released = true → s.dev.pad p = ⟨func, none, none, held⟩ →
    ∃ t, exec (.gpioClaimChange p) s = .next t ∧ s.onlyRegs t [] ∧
      (s.dev.padWanted p = func → t.dev.pad p = s.dev.pad p) ∧
      (s.dev.padWanted p ≠ func → (t.dev.pad p).switch = some (s.dev.padWanted p, padEdge s.dev.now + 20) ∧
        (t.dev.pad p).held = s.dev.padHeld p)) ∧
  (∀ oe k, k < 4 → s.accepts pth (maskedKind oe) k v → s.dev.pinsDenied pth k (v.toNat / 2 ^ 16) = [] →
    ∃ t, exec (.gpioMaskedWrite pth oe k v) s = .next t ∧ s.onlyRegs t [(maskedKind oe, k)] ∧
      ∀ i, i < 16 → tbit (t.dev.rreg (maskedKind oe) k).toNat i =
        (if tbit v.toNat (16 + i) then tbit v.toNat i else tbit (s.dev.rreg (maskedKind oe) k).toNat i)) ∧
  (∀ h, h < 24 → s.accepts pth .HCP_TWCMD h v → carried v HCP_TWCMD_GO = 1 → s.dev.on HCP_TWCFG_EN h = true →
    ∃ t, exec (.twowireGo pth h v) s = .next t ∧ s.onlyRegs t [(.HCP_TWCMD, h), (.HCP_TWSTAT, h)] ∧
      t.dev.on HCP_TWSTAT_BUSY h = true ∧ t.dev.rf HCP_TWSTAT_NBYTES h = 0 ∧
      t.dev.rf HCP_TWCMD_ADDR h = carried v HCP_TWCMD_ADDR) ∧
  (∀ h how n x, h < 24 → s.dev.live 4 = true → s.dev.twHeld h = true →
    (∃ t, exec (.twowireDone h how n x) s = .next t ∧ s.onlyRegs t [] ∧ t.dev = s.dev) ∧
    (∃ t, exec (.twowireTimeout h n) s = .next t ∧ s.onlyRegs t [] ∧ t.dev = s.dev)) ∧
  (∀ h n, h < 24 → s.dev.live 4 = true → s.dev.on HCP_TWSTAT_BUSY h = true → s.dev.twHeld h = false →
    (∀ how x, s.dev.rf HCP_TWCMD_RLEN h = 1 → ∃ t, exec (.twowireDone h how n [x]) s = .next t ∧
      s.onlyRegs t [(.HCP_TWSTAT, h), (.HCP_TWDATA0, h)] ∧ t.dev.on HCP_TWSTAT_BUSY h = false ∧
      t.dev.rf HCP_TWSTAT_NBYTES h = n % 16 ∧ t.dev.rf HCP_TWDATA0_D0 h % 256 = x % 256 ∧
      (how = .done → t.dev.on HCP_TWSTAT_DONE h = true) ∧ (how = .nack → t.dev.on HCP_TWSTAT_NACK h = true) ∧
      (how = .stuck → t.dev.on HCP_TWSTAT_STUCK h = true)) ∧
    (∃ t, exec (.twowireTimeout h n) s = .next t ∧ s.onlyRegs t [(.HCP_TWSTAT, h)] ∧
      t.dev.on HCP_TWSTAT_BUSY h = false ∧ t.dev.on HCP_TWSTAT_TIMEOUT h = true ∧ t.dev.rf HCP_TWSTAT_NBYTES h = n % 16))

/-- A finished head line or region packet for a lane: in RUN with room it joins the lane's FIFO as it is (GAP set where a
packet of its source was lost since); with the lane not in RUN it is dropped and counted OFF; without room it is dropped and
counted FULL and the source's next packet carries GAP. A FREE packet open for 10 us closes with its words. An enabled lane
in RUN that is neither held nor still sending puts its oldest packet on the wire as blocks, with the source's sequence
number, for the time its blocks take, and counts it. (R408, R410, R411, R412, R413, R414, R415.) -/
def Obligations.LanePackets : Prop := ∀ (s : State),
  (∀ src k (p : LanePkt), s.dev.live 2 = true →
    ((∃ o : LineOut, src = 64 + o.head ∧ s.dev.pcu.outs.find? (fun x : LineOut => decide (x.head = o.head) && x.lane.isSome) = some o ∧
        o.lane = some k ∧ p = o.pkt s.dev) ∨
      (∃ x : FabLine, src < 64 ∧ x.region = src / 4 ∧ x.port = src % 4 ∧
        s.dev.fab.lines.find? (fun y : FabLine => decide (4 * y.region + y.port = src) && y.verdict) = some x ∧
        s.dev.on (LAN_SOMAP_EN (src % 4)) (src / 4) = true ∧ k = s.dev.rf (LAN_SOMAP_LANE (src % 4)) (src / 4) ∧
        p = x.pkt s.dev)) → k < 12 →
    let f := s.dev.bondFirst k
    (s.dev.rf LAN_STAT_STATE f = lsRUN → p.payload.length ≤ 32768 →
      (s.dev.lane f).fill + p.bytes ≤ s.dev.fifoSize f → ∃ t, exec (.lanePacketStore src) s = .next t ∧
        s.onlyRegs t [(.LAN_FILL, f), (.LAN_PEAK, f)] ∧ ∃ q : LanePkt, (t.dev.lane f).fifo = (s.dev.lane f).fifo ++ [q] ∧
          q.payload = p.payload ∧ q.src = p.src ∧ q.head = p.head ∧ q.num = p.num ∧ q.tb = p.tb ∧ q.type = p.type ∧
          tbit q.flags 0 = (!(tget s.dev.lan.noGap false (srcKey f p.src)) || tbit p.flags 0)) ∧
    (s.dev.rf LAN_STAT_STATE f ≠ lsRUN → ∃ t, exec (.lanePacketStore src) s = .next t ∧
      s.onlyRegs t [(.LAN_DROP, f), (.LAN_STAT, f)] ∧ s.dev.counts t.dev LAN_DROP_OFF f 1 ∧
      t.dev.on LAN_STAT_DROPSEEN f = true ∧ t.dev.lane f = s.dev.lane f) ∧
    (s.dev.rf LAN_STAT_STATE f = lsRUN → p.payload.length ≤ 32768 →
      s.dev.fifoSize f < (s.dev.lane f).fill + p.bytes → ∃ t, exec (.lanePacketStore src) s = .next t ∧
        s.onlyRegs t [(.LAN_DROP, f), (.LAN_STAT, f)] ∧ s.dev.counts t.dev LAN_DROP_FULL f 1 ∧
        t.dev.lane f = s.dev.lane f ∧ tget t.dev.lan.noGap false (srcKey f p.src) = false)) ∧
  (∀ n p, n < 16 → p < 4 → s.dev.live (34 + n) = true → s.dev.soMsrc n p = 15 → (s.dev.soPort n p).words ≠ [] →
    (s.dev.soPort n p).firstNow + 10000 ≤ s.dev.now → ∃ t, exec (.freePacketTimeout n p) s = .next t ∧ s.onlyRegs t [] ∧
      (t.dev.soPort n p).words = [] ∧ ∃ x : FabLine, t.dev.fab.lines = s.dev.fab.lines ++ [x] ∧ x.region = n ∧ x.port = p ∧
        x.words = (s.dev.soPort n p).words) ∧
  (∀ (l : Nat) (p : LanePkt) (rest : List LanePkt), l < 12 → s.dev.live (7 + l / 4) = true → (s.dev.lane l).fifo = p :: rest →
    s.dev.rf LAN_STAT_STATE l = lsRUN → s.dev.on LAN_CTRL_EN l = true → s.dev.xoffHolds l = false →
    (s.dev.lane l).wireTo ≤ s.dev.now →
    let seq := tget s.dev.lan.seq 0 (srcKey l p.src)
    ∃ t, exec (.lanePacketSend l) s = .next t ∧
      s.onlyRegs t [(.LAN_TXCNT, l), (.LAN_TRUNC, l), (.LAN_FILL, l), (.LAN_PEAK, l)] ∧ (t.dev.lane l).fifo = rest ∧
      (t.dev.lane l).wire = p.blocks l (s.dev.rf ZLK_CTRL_ID 0) seq false ∧ (t.dev.lane l).wireFrom = s.dev.now ∧
      (t.dev.lane l).wireTo = s.dev.now + s.dev.blockTime l (p.blocks l (s.dev.rf ZLK_CTRL_ID 0) seq false).length ∧
      tget t.dev.lan.seq 0 (srcKey l p.src) = (seq + 1) % 2 ^ 16 ∧
      t.dev.rf LAN_TXCNT_PKTS l = (s.dev.rf LAN_TXCNT_PKTS l + 1) % 2 ^ 32)

/-- A FLOW block of the one enabled return pair sets XOFF of every lane to its mask; an IDLE block keeps the mask; 1 us
without a block makes the pair invalid, clears XOFF and flags its loss. Enabling a lane of a locked quad begins its
training; disabling one that sends leaves the packet on the wire to complete, and disabling one that does not drops its
FIFO, counted FULL. A training of its length ends in RUN. The lock of a quad is shown and trains its enabled lanes. (R417,
R418, R419, R420, R431.) -/
def Obligations.LaneStates : Prop := ∀ (s : State),
  (∀ r, r < 2 → s.dev.live 2 = true → s.dev.pairOn r = true → s.dev.pairOn (1 - r) = false →
    let xs := (RegKind.LAN_RXSTAT, 0) :: (List.range 12).map (fun l => (RegKind.LAN_STAT, l))
    (∀ mask, s.dev.domOn 7 = true → ∃ t, exec (.laneFlowBlock r mask) s = .next t ∧ s.onlyRegs t xs ∧
      t.dev.pairValid r = true ∧ t.dev.rf LAN_RXSTAT_XOFF 0 = mask % 2 ^ 12 ∧
      ∀ l, l < 12 → t.dev.on LAN_STAT_XOFF l = tbit mask l) ∧
    (s.dev.domOn 7 = true → ∃ t, exec (.returnPairIdle r) s = .next t ∧ s.onlyRegs t xs ∧ t.dev.pairValid r = true ∧
      tget t.dev.lan.rxLast 0 r = s.dev.now ∧ t.dev.lan.rxMask = s.dev.lan.rxMask ∧
      t.dev.rf LAN_RXSTAT_XOFF 0 = tget s.dev.lan.rxMask 0 r % 2 ^ 12) ∧
    (tget s.dev.lan.rxLost false r = false → tget s.dev.lan.rxLast 0 r + 1000 ≤ s.dev.now →
      ∃ t, exec (.laneRxLost r) s = .next t ∧ s.onlyRegs t xs ∧ t.dev.pairValid r = false ∧
        t.dev.rf LAN_RXSTAT_XOFF 0 = 0 ∧ (∀ l, l < 12 → t.dev.on LAN_STAT_XOFF l = false) ∧
        (r = 0 → t.dev.on LAN_RXSTAT_LOS0 0 = true) ∧ (r = 1 → t.dev.on LAN_RXSTAT_LOS1 0 = true))) ∧
  (∀ pth l (v : Word), l < 12 → s.accepts pth .LAN_CTRL l v → s.dev.gpio.released = true → s.dev.domOn (7 + l / 4) = true →
    (carried v LAN_CTRL_EN = 1 → s.dev.on LAN_CTRL_EN l = false → s.dev.on LAN_QSTAT_LOCK (l / 4) = true →
      s.dev.rf LAN_STAT_STATE l = lsIDLE → ∃ t, exec (.laneEnable pth l v) s = .next t ∧
      s.onlyRegs t [(.LAN_CTRL, l), (.LAN_STAT, l)] ∧ t.dev.rf LAN_STAT_STATE l = lsTRAIN ∧
      (t.dev.lane l).trainFrom = s.dev.now) ∧
    (carried v LAN_CTRL_EN = 0 → s.dev.on LAN_CTRL_EN l = true → s.dev.rf LAN_STAT_STATE l = lsRUN →
      s.dev.on LAN_QSTAT_LOCK (l / 4) = true → s.dev.now < (s.dev.lane l).wireTo → ∃ t, exec (.laneEnable pth l v) s = .next t ∧
      s.onlyRegs t [(.LAN_CTRL, l)] ∧ t.dev.on LAN_CTRL_EN l = false ∧ t.dev.lane l = s.dev.lane l) ∧
    (carried v LAN_CTRL_EN = 0 → s.dev.on LAN_CTRL_EN l = true → (s.dev.lane l).wireTo ≤ s.dev.now →
      ∃ t, exec (.laneEnable pth l v) s = .next t ∧
      s.onlyRegs t [(.LAN_CTRL, l), (.LAN_STAT, l), (.LAN_DROP, l), (.LAN_FILL, l), (.LAN_PEAK, l)] ∧
      t.dev.rf LAN_STAT_STATE l = lsIDLE ∧ (t.dev.lane l).fifo = [] ∧
      s.dev.counts t.dev LAN_DROP_FULL l (s.dev.lane l).fifo.length)) ∧
  (∀ l, l < 12 → s.dev.live (7 + l / 4) = true → s.dev.rf LAN_STAT_STATE l = lsTRAIN →
    (s.dev.lane l).trainFrom + ceilDiv (4096 * 66 * 80) (laneRate (s.dev.rf LAN_QCFG_RATE (l / 4))) ≤ s.dev.now →
    ∃ t, exec (.laneTrainDone l) s = .next t ∧ s.onlyRegs t [(.LAN_STAT, l)] ∧ t.dev.rf LAN_STAT_STATE l = lsRUN) ∧
  (∀ q, q < 3 → s.dev.live (7 + q) = true → ∃ t, exec (.quadLock q) s = .next t ∧
    s.onlyRegs t ([(.LAN_QSTAT, q), (.CLK_PLLSTAT, 0)] ++ (List.range 12).map (fun l => (.LAN_STAT, l))) ∧
    t.dev.on LAN_QSTAT_LOCK q = true ∧ tbit (t.dev.rf CLK_PLLSTAT_LOCK 0) (7 + q) = true ∧
    ∀ i, i < 4 → s.dev.gpio.released = true → s.dev.on LAN_CTRL_EN (4 * q + i) = true →
      s.dev.rf LAN_STAT_STATE (4 * q + i) = lsIDLE → t.dev.rf LAN_STAT_STATE (4 * q + i) = lsTRAIN)
end

