-- ==== Sys2Proof/Laws/State.lean ====
section
/-! SUPPORT. What each update of the device reads as, one lemma a field: later proofs unfold no record update. -/

namespace Sys2Proof.Machine

/-! `Dev.wreg` -/

@[simp] theorem Dev.wreg_now (d : Dev) (k : RegKind) (i : Nat) (v : Word) : (d.wreg k i v).now = d.now := (rfl)
@[simp] theorem Dev.wreg_tb (d : Dev) (k : RegKind) (i : Nat) (v : Word) : (d.wreg k i v).tb = d.tb := (rfl)
@[simp] theorem Dev.wreg_regs (d : Dev) (k : RegKind) (i : Nat) (v : Word) : (d.wreg k i v).regs = tset d.regs (regReset k i) (regKey k i) v := (rfl)
@[simp] theorem Dev.wreg_sets (d : Dev) (k : RegKind) (i : Nat) (v : Word) : (d.wreg k i v).sets = d.sets := (rfl)
@[simp] theorem Dev.wreg_latch (d : Dev) (k : RegKind) (i : Nat) (v : Word) : (d.wreg k i v).latch = d.latch := (rfl)
@[simp] theorem Dev.wreg_rdata (d : Dev) (k : RegKind) (i : Nat) (v : Word) : (d.wreg k i v).rdata = d.rdata := (rfl)
@[simp] theorem Dev.wreg_free (d : Dev) (k : RegKind) (i : Nat) (v : Word) : (d.wreg k i v).free = d.free := (rfl)
@[simp] theorem Dev.wreg_evq (d : Dev) (k : RegKind) (i : Nat) (v : Word) : (d.wreg k i v).evq = d.evq := (rfl)
@[simp] theorem Dev.wreg_enc (d : Dev) (k : RegKind) (i : Nat) (v : Word) : (d.wreg k i v).enc = d.enc := (rfl)
@[simp] theorem Dev.wreg_cap (d : Dev) (k : RegKind) (i : Nat) (v : Word) : (d.wreg k i v).cap = d.cap := (rfl)
@[simp] theorem Dev.wreg_ltg (d : Dev) (k : RegKind) (i : Nat) (v : Word) : (d.wreg k i v).ltg = d.ltg := (rfl)
@[simp] theorem Dev.wreg_hcp (d : Dev) (k : RegKind) (i : Nat) (v : Word) : (d.wreg k i v).hcp = d.hcp := (rfl)
@[simp] theorem Dev.wreg_zlk (d : Dev) (k : RegKind) (i : Nat) (v : Word) : (d.wreg k i v).zlk = d.zlk := (rfl)
@[simp] theorem Dev.wreg_pwr (d : Dev) (k : RegKind) (i : Nat) (v : Word) : (d.wreg k i v).pwr = d.pwr := (rfl)
@[simp] theorem Dev.wreg_kw (d : Dev) (k : RegKind) (i : Nat) (v : Word) : (d.wreg k i v).kw = d.kw := (rfl)
@[simp] theorem Dev.wreg_pcu (d : Dev) (k : RegKind) (i : Nat) (v : Word) : (d.wreg k i v).pcu = d.pcu := (rfl)
@[simp] theorem Dev.wreg_cal (d : Dev) (k : RegKind) (i : Nat) (v : Word) : (d.wreg k i v).cal = d.cal := (rfl)
@[simp] theorem Dev.wreg_anx (d : Dev) (k : RegKind) (i : Nat) (v : Word) : (d.wreg k i v).anx = d.anx := (rfl)
@[simp] theorem Dev.wreg_mcv (d : Dev) (k : RegKind) (i : Nat) (v : Word) : (d.wreg k i v).mcv = d.mcv := (rfl)
@[simp] theorem Dev.wreg_bank (d : Dev) (k : RegKind) (i : Nat) (v : Word) : (d.wreg k i v).bank = d.bank := (rfl)
@[simp] theorem Dev.wreg_fab (d : Dev) (k : RegKind) (i : Nat) (v : Word) : (d.wreg k i v).fab = d.fab := (rfl)
@[simp] theorem Dev.wreg_cfg (d : Dev) (k : RegKind) (i : Nat) (v : Word) : (d.wreg k i v).cfg = d.cfg := (rfl)
@[simp] theorem Dev.wreg_fuses (d : Dev) (k : RegKind) (i : Nat) (v : Word) : (d.wreg k i v).fuses = d.fuses := (rfl)
@[simp] theorem Dev.wreg_scb (d : Dev) (k : RegKind) (i : Nat) (v : Word) : (d.wreg k i v).scb = d.scb := (rfl)
@[simp] theorem Dev.wreg_lan (d : Dev) (k : RegKind) (i : Nat) (v : Word) : (d.wreg k i v).lan = d.lan := (rfl)
@[simp] theorem Dev.wreg_gpio (d : Dev) (k : RegKind) (i : Nat) (v : Word) : (d.wreg k i v).gpio = d.gpio := (rfl)
@[simp] theorem Dev.wreg_getEnc (d : Dev) (k : RegKind) (i : Nat) (v : Word) (i0 : Nat) : (d.wreg k i v).getEnc i0 = d.getEnc i0 := (rfl)
@[simp] theorem Dev.wreg_getCap (d : Dev) (k : RegKind) (i : Nat) (v : Word) (i0 : Nat) : (d.wreg k i v).getCap i0 = d.getCap i0 := (rfl)
@[simp] theorem Dev.wreg_getLtg (d : Dev) (k : RegKind) (i : Nat) (v : Word) (i0 : Nat) : (d.wreg k i v).getLtg i0 = d.getLtg i0 := (rfl)
@[simp] theorem Dev.wreg_getHcp (d : Dev) (k : RegKind) (i : Nat) (v : Word) (i0 : Nat) : (d.wreg k i v).getHcp i0 = d.getHcp i0 := (rfl)
@[simp] theorem Dev.wreg_getMcv (d : Dev) (k : RegKind) (i : Nat) (v : Word) (i0 : Nat) : (d.wreg k i v).getMcv i0 = d.getMcv i0 := (rfl)
@[simp] theorem Dev.wreg_getCmp (d : Dev) (k : RegKind) (i : Nat) (v : Word) (i0 : Nat) : (d.wreg k i v).getCmp i0 = d.getCmp i0 := (rfl)
@[simp] theorem Dev.wreg_lane (d : Dev) (k : RegKind) (i : Nat) (v : Word) (i0 : Nat) : (d.wreg k i v).lane i0 = d.lane i0 := (rfl)
@[simp] theorem Dev.wreg_pad (d : Dev) (k : RegKind) (i : Nat) (v : Word) (i0 : Nat) : (d.wreg k i v).pad i0 = d.pad i0 := (rfl)
@[simp] theorem Dev.wreg_t (d : Dev) (k : RegKind) (i : Nat) (v : Word) : (d.wreg k i v).t = d.t := (rfl)

/-! `Dev.putF` -/

@[simp] theorem Dev.putF_now (d : Dev) (f : Fld) (i n : Nat) : (d.putF f i n).now = d.now := (rfl)
@[simp] theorem Dev.putF_tb (d : Dev) (f : Fld) (i n : Nat) : (d.putF f i n).tb = d.tb := (rfl)
@[simp] theorem Dev.putF_sets (d : Dev) (f : Fld) (i n : Nat) : (d.putF f i n).sets = d.sets := (rfl)
@[simp] theorem Dev.putF_latch (d : Dev) (f : Fld) (i n : Nat) : (d.putF f i n).latch = d.latch := (rfl)
@[simp] theorem Dev.putF_rdata (d : Dev) (f : Fld) (i n : Nat) : (d.putF f i n).rdata = d.rdata := (rfl)
@[simp] theorem Dev.putF_free (d : Dev) (f : Fld) (i n : Nat) : (d.putF f i n).free = d.free := (rfl)
@[simp] theorem Dev.putF_evq (d : Dev) (f : Fld) (i n : Nat) : (d.putF f i n).evq = d.evq := (rfl)
@[simp] theorem Dev.putF_enc (d : Dev) (f : Fld) (i n : Nat) : (d.putF f i n).enc = d.enc := (rfl)
@[simp] theorem Dev.putF_cap (d : Dev) (f : Fld) (i n : Nat) : (d.putF f i n).cap = d.cap := (rfl)
@[simp] theorem Dev.putF_ltg (d : Dev) (f : Fld) (i n : Nat) : (d.putF f i n).ltg = d.ltg := (rfl)
@[simp] theorem Dev.putF_hcp (d : Dev) (f : Fld) (i n : Nat) : (d.putF f i n).hcp = d.hcp := (rfl)
@[simp] theorem Dev.putF_zlk (d : Dev) (f : Fld) (i n : Nat) : (d.putF f i n).zlk = d.zlk := (rfl)
@[simp] theorem Dev.putF_pwr (d : Dev) (f : Fld) (i n : Nat) : (d.putF f i n).pwr = d.pwr := (rfl)
@[simp] theorem Dev.putF_kw (d : Dev) (f : Fld) (i n : Nat) : (d.putF f i n).kw = d.kw := (rfl)
@[simp] theorem Dev.putF_pcu (d : Dev) (f : Fld) (i n : Nat) : (d.putF f i n).pcu = d.pcu := (rfl)
@[simp] theorem Dev.putF_cal (d : Dev) (f : Fld) (i n : Nat) : (d.putF f i n).cal = d.cal := (rfl)
@[simp] theorem Dev.putF_anx (d : Dev) (f : Fld) (i n : Nat) : (d.putF f i n).anx = d.anx := (rfl)
@[simp] theorem Dev.putF_mcv (d : Dev) (f : Fld) (i n : Nat) : (d.putF f i n).mcv = d.mcv := (rfl)
@[simp] theorem Dev.putF_bank (d : Dev) (f : Fld) (i n : Nat) : (d.putF f i n).bank = d.bank := (rfl)
@[simp] theorem Dev.putF_fab (d : Dev) (f : Fld) (i n : Nat) : (d.putF f i n).fab = d.fab := (rfl)
@[simp] theorem Dev.putF_cfg (d : Dev) (f : Fld) (i n : Nat) : (d.putF f i n).cfg = d.cfg := (rfl)
@[simp] theorem Dev.putF_fuses (d : Dev) (f : Fld) (i n : Nat) : (d.putF f i n).fuses = d.fuses := (rfl)
@[simp] theorem Dev.putF_scb (d : Dev) (f : Fld) (i n : Nat) : (d.putF f i n).scb = d.scb := (rfl)
@[simp] theorem Dev.putF_lan (d : Dev) (f : Fld) (i n : Nat) : (d.putF f i n).lan = d.lan := (rfl)
@[simp] theorem Dev.putF_gpio (d : Dev) (f : Fld) (i n : Nat) : (d.putF f i n).gpio = d.gpio := (rfl)
@[simp] theorem Dev.putF_getEnc (d : Dev) (f : Fld) (i n : Nat) (i0 : Nat) : (d.putF f i n).getEnc i0 = d.getEnc i0 := (rfl)
@[simp] theorem Dev.putF_getCap (d : Dev) (f : Fld) (i n : Nat) (i0 : Nat) : (d.putF f i n).getCap i0 = d.getCap i0 := (rfl)
@[simp] theorem Dev.putF_getLtg (d : Dev) (f : Fld) (i n : Nat) (i0 : Nat) : (d.putF f i n).getLtg i0 = d.getLtg i0 := (rfl)
@[simp] theorem Dev.putF_getHcp (d : Dev) (f : Fld) (i n : Nat) (i0 : Nat) : (d.putF f i n).getHcp i0 = d.getHcp i0 := (rfl)
@[simp] theorem Dev.putF_getMcv (d : Dev) (f : Fld) (i n : Nat) (i0 : Nat) : (d.putF f i n).getMcv i0 = d.getMcv i0 := (rfl)
@[simp] theorem Dev.putF_getCmp (d : Dev) (f : Fld) (i n : Nat) (i0 : Nat) : (d.putF f i n).getCmp i0 = d.getCmp i0 := (rfl)
@[simp] theorem Dev.putF_lane (d : Dev) (f : Fld) (i n : Nat) (i0 : Nat) : (d.putF f i n).lane i0 = d.lane i0 := (rfl)
@[simp] theorem Dev.putF_pad (d : Dev) (f : Fld) (i n : Nat) (i0 : Nat) : (d.putF f i n).pad i0 = d.pad i0 := (rfl)
@[simp] theorem Dev.putF_t (d : Dev) (f : Fld) (i n : Nat) : (d.putF f i n).t = d.t := (rfl)

/-! `Dev.wf` -/

@[simp] theorem Dev.wf_now (d : Dev) (f : Fld) (i n : Nat) : (d.wf f i n).now = d.now := (rfl)
@[simp] theorem Dev.wf_tb (d : Dev) (f : Fld) (i n : Nat) : (d.wf f i n).tb = d.tb := (rfl)
@[simp] theorem Dev.wf_latch (d : Dev) (f : Fld) (i n : Nat) : (d.wf f i n).latch = d.latch := (rfl)
@[simp] theorem Dev.wf_rdata (d : Dev) (f : Fld) (i n : Nat) : (d.wf f i n).rdata = d.rdata := (rfl)
@[simp] theorem Dev.wf_free (d : Dev) (f : Fld) (i n : Nat) : (d.wf f i n).free = d.free := (rfl)
@[simp] theorem Dev.wf_evq (d : Dev) (f : Fld) (i n : Nat) : (d.wf f i n).evq = d.evq := (rfl)
@[simp] theorem Dev.wf_enc (d : Dev) (f : Fld) (i n : Nat) : (d.wf f i n).enc = d.enc := (rfl)
@[simp] theorem Dev.wf_cap (d : Dev) (f : Fld) (i n : Nat) : (d.wf f i n).cap = d.cap := (rfl)
@[simp] theorem Dev.wf_ltg (d : Dev) (f : Fld) (i n : Nat) : (d.wf f i n).ltg = d.ltg := (rfl)
@[simp] theorem Dev.wf_hcp (d : Dev) (f : Fld) (i n : Nat) : (d.wf f i n).hcp = d.hcp := (rfl)
@[simp] theorem Dev.wf_zlk (d : Dev) (f : Fld) (i n : Nat) : (d.wf f i n).zlk = d.zlk := (rfl)
@[simp] theorem Dev.wf_pwr (d : Dev) (f : Fld) (i n : Nat) : (d.wf f i n).pwr = d.pwr := (rfl)
@[simp] theorem Dev.wf_kw (d : Dev) (f : Fld) (i n : Nat) : (d.wf f i n).kw = d.kw := (rfl)
@[simp] theorem Dev.wf_pcu (d : Dev) (f : Fld) (i n : Nat) : (d.wf f i n).pcu = d.pcu := (rfl)
@[simp] theorem Dev.wf_cal (d : Dev) (f : Fld) (i n : Nat) : (d.wf f i n).cal = d.cal := (rfl)
@[simp] theorem Dev.wf_anx (d : Dev) (f : Fld) (i n : Nat) : (d.wf f i n).anx = d.anx := (rfl)
@[simp] theorem Dev.wf_mcv (d : Dev) (f : Fld) (i n : Nat) : (d.wf f i n).mcv = d.mcv := (rfl)
@[simp] theorem Dev.wf_bank (d : Dev) (f : Fld) (i n : Nat) : (d.wf f i n).bank = d.bank := (rfl)
@[simp] theorem Dev.wf_fab (d : Dev) (f : Fld) (i n : Nat) : (d.wf f i n).fab = d.fab := (rfl)
@[simp] theorem Dev.wf_cfg (d : Dev) (f : Fld) (i n : Nat) : (d.wf f i n).cfg = d.cfg := (rfl)
@[simp] theorem Dev.wf_fuses (d : Dev) (f : Fld) (i n : Nat) : (d.wf f i n).fuses = d.fuses := (rfl)
@[simp] theorem Dev.wf_scb (d : Dev) (f : Fld) (i n : Nat) : (d.wf f i n).scb = d.scb := (rfl)
@[simp] theorem Dev.wf_lan (d : Dev) (f : Fld) (i n : Nat) : (d.wf f i n).lan = d.lan := (rfl)
@[simp] theorem Dev.wf_gpio (d : Dev) (f : Fld) (i n : Nat) : (d.wf f i n).gpio = d.gpio := (rfl)
@[simp] theorem Dev.wf_getEnc (d : Dev) (f : Fld) (i n : Nat) (i0 : Nat) : (d.wf f i n).getEnc i0 = d.getEnc i0 := (rfl)
@[simp] theorem Dev.wf_getCap (d : Dev) (f : Fld) (i n : Nat) (i0 : Nat) : (d.wf f i n).getCap i0 = d.getCap i0 := (rfl)
@[simp] theorem Dev.wf_getLtg (d : Dev) (f : Fld) (i n : Nat) (i0 : Nat) : (d.wf f i n).getLtg i0 = d.getLtg i0 := (rfl)
@[simp] theorem Dev.wf_getHcp (d : Dev) (f : Fld) (i n : Nat) (i0 : Nat) : (d.wf f i n).getHcp i0 = d.getHcp i0 := (rfl)
@[simp] theorem Dev.wf_getMcv (d : Dev) (f : Fld) (i n : Nat) (i0 : Nat) : (d.wf f i n).getMcv i0 = d.getMcv i0 := (rfl)
@[simp] theorem Dev.wf_getCmp (d : Dev) (f : Fld) (i n : Nat) (i0 : Nat) : (d.wf f i n).getCmp i0 = d.getCmp i0 := (rfl)
@[simp] theorem Dev.wf_lane (d : Dev) (f : Fld) (i n : Nat) (i0 : Nat) : (d.wf f i n).lane i0 = d.lane i0 := (rfl)
@[simp] theorem Dev.wf_pad (d : Dev) (f : Fld) (i n : Nat) (i0 : Nat) : (d.wf f i n).pad i0 = d.pad i0 := (rfl)
@[simp] theorem Dev.wf_t (d : Dev) (f : Fld) (i n : Nat) : (d.wf f i n).t = d.t := (rfl)

/-! `Dev.wlatch` -/

@[simp] theorem Dev.wlatch_now (d : Dev) (k : RegKind) (i : Nat) (p : Path) (v : Nat) : (d.wlatch k i p v).now = d.now := (rfl)
@[simp] theorem Dev.wlatch_tb (d : Dev) (k : RegKind) (i : Nat) (p : Path) (v : Nat) : (d.wlatch k i p v).tb = d.tb := (rfl)
@[simp] theorem Dev.wlatch_regs (d : Dev) (k : RegKind) (i : Nat) (p : Path) (v : Nat) : (d.wlatch k i p v).regs = d.regs := (rfl)
@[simp] theorem Dev.wlatch_sets (d : Dev) (k : RegKind) (i : Nat) (p : Path) (v : Nat) : (d.wlatch k i p v).sets = d.sets := (rfl)
@[simp] theorem Dev.wlatch_latch (d : Dev) (k : RegKind) (i : Nat) (p : Path) (v : Nat) : (d.wlatch k i p v).latch = tset d.latch 0 (latchKey k i p) v := (rfl)
@[simp] theorem Dev.wlatch_rdata (d : Dev) (k : RegKind) (i : Nat) (p : Path) (v : Nat) : (d.wlatch k i p v).rdata = d.rdata := (rfl)
@[simp] theorem Dev.wlatch_free (d : Dev) (k : RegKind) (i : Nat) (p : Path) (v : Nat) : (d.wlatch k i p v).free = d.free := (rfl)
@[simp] theorem Dev.wlatch_evq (d : Dev) (k : RegKind) (i : Nat) (p : Path) (v : Nat) : (d.wlatch k i p v).evq = d.evq := (rfl)
@[simp] theorem Dev.wlatch_enc (d : Dev) (k : RegKind) (i : Nat) (p : Path) (v : Nat) : (d.wlatch k i p v).enc = d.enc := (rfl)
@[simp] theorem Dev.wlatch_cap (d : Dev) (k : RegKind) (i : Nat) (p : Path) (v : Nat) : (d.wlatch k i p v).cap = d.cap := (rfl)
@[simp] theorem Dev.wlatch_ltg (d : Dev) (k : RegKind) (i : Nat) (p : Path) (v : Nat) : (d.wlatch k i p v).ltg = d.ltg := (rfl)
@[simp] theorem Dev.wlatch_hcp (d : Dev) (k : RegKind) (i : Nat) (p : Path) (v : Nat) : (d.wlatch k i p v).hcp = d.hcp := (rfl)
@[simp] theorem Dev.wlatch_zlk (d : Dev) (k : RegKind) (i : Nat) (p : Path) (v : Nat) : (d.wlatch k i p v).zlk = d.zlk := (rfl)
@[simp] theorem Dev.wlatch_pwr (d : Dev) (k : RegKind) (i : Nat) (p : Path) (v : Nat) : (d.wlatch k i p v).pwr = d.pwr := (rfl)
@[simp] theorem Dev.wlatch_kw (d : Dev) (k : RegKind) (i : Nat) (p : Path) (v : Nat) : (d.wlatch k i p v).kw = d.kw := (rfl)
@[simp] theorem Dev.wlatch_pcu (d : Dev) (k : RegKind) (i : Nat) (p : Path) (v : Nat) : (d.wlatch k i p v).pcu = d.pcu := (rfl)
@[simp] theorem Dev.wlatch_cal (d : Dev) (k : RegKind) (i : Nat) (p : Path) (v : Nat) : (d.wlatch k i p v).cal = d.cal := (rfl)
@[simp] theorem Dev.wlatch_anx (d : Dev) (k : RegKind) (i : Nat) (p : Path) (v : Nat) : (d.wlatch k i p v).anx = d.anx := (rfl)
@[simp] theorem Dev.wlatch_mcv (d : Dev) (k : RegKind) (i : Nat) (p : Path) (v : Nat) : (d.wlatch k i p v).mcv = d.mcv := (rfl)
@[simp] theorem Dev.wlatch_bank (d : Dev) (k : RegKind) (i : Nat) (p : Path) (v : Nat) : (d.wlatch k i p v).bank = d.bank := (rfl)
@[simp] theorem Dev.wlatch_fab (d : Dev) (k : RegKind) (i : Nat) (p : Path) (v : Nat) : (d.wlatch k i p v).fab = d.fab := (rfl)
@[simp] theorem Dev.wlatch_cfg (d : Dev) (k : RegKind) (i : Nat) (p : Path) (v : Nat) : (d.wlatch k i p v).cfg = d.cfg := (rfl)
@[simp] theorem Dev.wlatch_fuses (d : Dev) (k : RegKind) (i : Nat) (p : Path) (v : Nat) : (d.wlatch k i p v).fuses = d.fuses := (rfl)
@[simp] theorem Dev.wlatch_scb (d : Dev) (k : RegKind) (i : Nat) (p : Path) (v : Nat) : (d.wlatch k i p v).scb = d.scb := (rfl)
@[simp] theorem Dev.wlatch_lan (d : Dev) (k : RegKind) (i : Nat) (p : Path) (v : Nat) : (d.wlatch k i p v).lan = d.lan := (rfl)
@[simp] theorem Dev.wlatch_gpio (d : Dev) (k : RegKind) (i : Nat) (p : Path) (v : Nat) : (d.wlatch k i p v).gpio = d.gpio := (rfl)
@[simp] theorem Dev.wlatch_rreg (d : Dev) (k : RegKind) (i : Nat) (p : Path) (v : Nat) (k0 : RegKind) (i0 : Nat) : (d.wlatch k i p v).rreg k0 i0 = d.rreg k0 i0 := (rfl)
@[simp] theorem Dev.wlatch_rf (d : Dev) (k : RegKind) (i : Nat) (p : Path) (v : Nat) (f0 : Fld) (i0 : Nat) : (d.wlatch k i p v).rf f0 i0 = d.rf f0 i0 := (rfl)
@[simp] theorem Dev.wlatch_on (d : Dev) (k : RegKind) (i : Nat) (p : Path) (v : Nat) (f0 : Fld) (i0 : Nat) : (d.wlatch k i p v).on f0 i0 = d.on f0 i0 := (rfl)
@[simp] theorem Dev.wlatch_getEnc (d : Dev) (k : RegKind) (i : Nat) (p : Path) (v : Nat) (i0 : Nat) : (d.wlatch k i p v).getEnc i0 = d.getEnc i0 := (rfl)
@[simp] theorem Dev.wlatch_getCap (d : Dev) (k : RegKind) (i : Nat) (p : Path) (v : Nat) (i0 : Nat) : (d.wlatch k i p v).getCap i0 = d.getCap i0 := (rfl)
@[simp] theorem Dev.wlatch_getLtg (d : Dev) (k : RegKind) (i : Nat) (p : Path) (v : Nat) (i0 : Nat) : (d.wlatch k i p v).getLtg i0 = d.getLtg i0 := (rfl)
@[simp] theorem Dev.wlatch_getHcp (d : Dev) (k : RegKind) (i : Nat) (p : Path) (v : Nat) (i0 : Nat) : (d.wlatch k i p v).getHcp i0 = d.getHcp i0 := (rfl)
@[simp] theorem Dev.wlatch_getMcv (d : Dev) (k : RegKind) (i : Nat) (p : Path) (v : Nat) (i0 : Nat) : (d.wlatch k i p v).getMcv i0 = d.getMcv i0 := (rfl)
@[simp] theorem Dev.wlatch_getCmp (d : Dev) (k : RegKind) (i : Nat) (p : Path) (v : Nat) (i0 : Nat) : (d.wlatch k i p v).getCmp i0 = d.getCmp i0 := (rfl)
@[simp] theorem Dev.wlatch_lane (d : Dev) (k : RegKind) (i : Nat) (p : Path) (v : Nat) (i0 : Nat) : (d.wlatch k i p v).lane i0 = d.lane i0 := (rfl)
@[simp] theorem Dev.wlatch_pad (d : Dev) (k : RegKind) (i : Nat) (p : Path) (v : Nat) (i0 : Nat) : (d.wlatch k i p v).pad i0 = d.pad i0 := (rfl)
@[simp] theorem Dev.wlatch_t (d : Dev) (k : RegKind) (i : Nat) (p : Path) (v : Nat) : (d.wlatch k i p v).t = d.t := (rfl)

/-! `Dev.setRdata` -/

@[simp] theorem Dev.setRdata_now (d : Dev) (v : Nat) : (d.setRdata v).now = d.now := (rfl)
@[simp] theorem Dev.setRdata_tb (d : Dev) (v : Nat) : (d.setRdata v).tb = d.tb := (rfl)
@[simp] theorem Dev.setRdata_regs (d : Dev) (v : Nat) : (d.setRdata v).regs = d.regs := (rfl)
@[simp] theorem Dev.setRdata_sets (d : Dev) (v : Nat) : (d.setRdata v).sets = d.sets := (rfl)
@[simp] theorem Dev.setRdata_latch (d : Dev) (v : Nat) : (d.setRdata v).latch = d.latch := (rfl)
@[simp] theorem Dev.setRdata_rdata (d : Dev) (v : Nat) : (d.setRdata v).rdata = v % 2 ^ 32 := (rfl)
@[simp] theorem Dev.setRdata_free (d : Dev) (v : Nat) : (d.setRdata v).free = d.free := (rfl)
@[simp] theorem Dev.setRdata_evq (d : Dev) (v : Nat) : (d.setRdata v).evq = d.evq := (rfl)
@[simp] theorem Dev.setRdata_enc (d : Dev) (v : Nat) : (d.setRdata v).enc = d.enc := (rfl)
@[simp] theorem Dev.setRdata_cap (d : Dev) (v : Nat) : (d.setRdata v).cap = d.cap := (rfl)
@[simp] theorem Dev.setRdata_ltg (d : Dev) (v : Nat) : (d.setRdata v).ltg = d.ltg := (rfl)
@[simp] theorem Dev.setRdata_hcp (d : Dev) (v : Nat) : (d.setRdata v).hcp = d.hcp := (rfl)
@[simp] theorem Dev.setRdata_zlk (d : Dev) (v : Nat) : (d.setRdata v).zlk = d.zlk := (rfl)
@[simp] theorem Dev.setRdata_pwr (d : Dev) (v : Nat) : (d.setRdata v).pwr = d.pwr := (rfl)
@[simp] theorem Dev.setRdata_kw (d : Dev) (v : Nat) : (d.setRdata v).kw = d.kw := (rfl)
@[simp] theorem Dev.setRdata_pcu (d : Dev) (v : Nat) : (d.setRdata v).pcu = d.pcu := (rfl)
@[simp] theorem Dev.setRdata_cal (d : Dev) (v : Nat) : (d.setRdata v).cal = d.cal := (rfl)
@[simp] theorem Dev.setRdata_anx (d : Dev) (v : Nat) : (d.setRdata v).anx = d.anx := (rfl)
@[simp] theorem Dev.setRdata_mcv (d : Dev) (v : Nat) : (d.setRdata v).mcv = d.mcv := (rfl)
@[simp] theorem Dev.setRdata_bank (d : Dev) (v : Nat) : (d.setRdata v).bank = d.bank := (rfl)
@[simp] theorem Dev.setRdata_fab (d : Dev) (v : Nat) : (d.setRdata v).fab = d.fab := (rfl)
@[simp] theorem Dev.setRdata_cfg (d : Dev) (v : Nat) : (d.setRdata v).cfg = d.cfg := (rfl)
@[simp] theorem Dev.setRdata_fuses (d : Dev) (v : Nat) : (d.setRdata v).fuses = d.fuses := (rfl)
@[simp] theorem Dev.setRdata_scb (d : Dev) (v : Nat) : (d.setRdata v).scb = d.scb := (rfl)
@[simp] theorem Dev.setRdata_lan (d : Dev) (v : Nat) : (d.setRdata v).lan = d.lan := (rfl)
@[simp] theorem Dev.setRdata_gpio (d : Dev) (v : Nat) : (d.setRdata v).gpio = d.gpio := (rfl)
@[simp] theorem Dev.setRdata_rreg (d : Dev) (v : Nat) (k0 : RegKind) (i0 : Nat) : (d.setRdata v).rreg k0 i0 = d.rreg k0 i0 := (rfl)
@[simp] theorem Dev.setRdata_rf (d : Dev) (v : Nat) (f0 : Fld) (i0 : Nat) : (d.setRdata v).rf f0 i0 = d.rf f0 i0 := (rfl)
@[simp] theorem Dev.setRdata_on (d : Dev) (v : Nat) (f0 : Fld) (i0 : Nat) : (d.setRdata v).on f0 i0 = d.on f0 i0 := (rfl)
@[simp] theorem Dev.setRdata_getEnc (d : Dev) (v : Nat) (i0 : Nat) : (d.setRdata v).getEnc i0 = d.getEnc i0 := (rfl)
@[simp] theorem Dev.setRdata_getCap (d : Dev) (v : Nat) (i0 : Nat) : (d.setRdata v).getCap i0 = d.getCap i0 := (rfl)
@[simp] theorem Dev.setRdata_getLtg (d : Dev) (v : Nat) (i0 : Nat) : (d.setRdata v).getLtg i0 = d.getLtg i0 := (rfl)
@[simp] theorem Dev.setRdata_getHcp (d : Dev) (v : Nat) (i0 : Nat) : (d.setRdata v).getHcp i0 = d.getHcp i0 := (rfl)
@[simp] theorem Dev.setRdata_getMcv (d : Dev) (v : Nat) (i0 : Nat) : (d.setRdata v).getMcv i0 = d.getMcv i0 := (rfl)
@[simp] theorem Dev.setRdata_getCmp (d : Dev) (v : Nat) (i0 : Nat) : (d.setRdata v).getCmp i0 = d.getCmp i0 := (rfl)
@[simp] theorem Dev.setRdata_lane (d : Dev) (v : Nat) (i0 : Nat) : (d.setRdata v).lane i0 = d.lane i0 := (rfl)
@[simp] theorem Dev.setRdata_pad (d : Dev) (v : Nat) (i0 : Nat) : (d.setRdata v).pad i0 = d.pad i0 := (rfl)
@[simp] theorem Dev.setRdata_t (d : Dev) (v : Nat) : (d.setRdata v).t = d.t := (rfl)

/-! `Dev.freeNext` -/

@[simp] theorem Dev.freeNext_now (d : Dev) : (d.freeNext).now = d.now := (rfl)
@[simp] theorem Dev.freeNext_tb (d : Dev) : (d.freeNext).tb = d.tb := (rfl)
@[simp] theorem Dev.freeNext_regs (d : Dev) : (d.freeNext).regs = d.regs := (rfl)
@[simp] theorem Dev.freeNext_sets (d : Dev) : (d.freeNext).sets = d.sets := (rfl)
@[simp] theorem Dev.freeNext_latch (d : Dev) : (d.freeNext).latch = d.latch := (rfl)
@[simp] theorem Dev.freeNext_rdata (d : Dev) : (d.freeNext).rdata = d.rdata := (rfl)
@[simp] theorem Dev.freeNext_free (d : Dev) : (d.freeNext).free = d.free + 1 := (rfl)
@[simp] theorem Dev.freeNext_evq (d : Dev) : (d.freeNext).evq = d.evq := (rfl)
@[simp] theorem Dev.freeNext_enc (d : Dev) : (d.freeNext).enc = d.enc := (rfl)
@[simp] theorem Dev.freeNext_cap (d : Dev) : (d.freeNext).cap = d.cap := (rfl)
@[simp] theorem Dev.freeNext_ltg (d : Dev) : (d.freeNext).ltg = d.ltg := (rfl)
@[simp] theorem Dev.freeNext_hcp (d : Dev) : (d.freeNext).hcp = d.hcp := (rfl)
@[simp] theorem Dev.freeNext_zlk (d : Dev) : (d.freeNext).zlk = d.zlk := (rfl)
@[simp] theorem Dev.freeNext_pwr (d : Dev) : (d.freeNext).pwr = d.pwr := (rfl)
@[simp] theorem Dev.freeNext_kw (d : Dev) : (d.freeNext).kw = d.kw := (rfl)
@[simp] theorem Dev.freeNext_pcu (d : Dev) : (d.freeNext).pcu = d.pcu := (rfl)
@[simp] theorem Dev.freeNext_cal (d : Dev) : (d.freeNext).cal = d.cal := (rfl)
@[simp] theorem Dev.freeNext_anx (d : Dev) : (d.freeNext).anx = d.anx := (rfl)
@[simp] theorem Dev.freeNext_mcv (d : Dev) : (d.freeNext).mcv = d.mcv := (rfl)
@[simp] theorem Dev.freeNext_bank (d : Dev) : (d.freeNext).bank = d.bank := (rfl)
@[simp] theorem Dev.freeNext_fab (d : Dev) : (d.freeNext).fab = d.fab := (rfl)
@[simp] theorem Dev.freeNext_cfg (d : Dev) : (d.freeNext).cfg = d.cfg := (rfl)
@[simp] theorem Dev.freeNext_fuses (d : Dev) : (d.freeNext).fuses = d.fuses := (rfl)
@[simp] theorem Dev.freeNext_scb (d : Dev) : (d.freeNext).scb = d.scb := (rfl)
@[simp] theorem Dev.freeNext_lan (d : Dev) : (d.freeNext).lan = d.lan := (rfl)
@[simp] theorem Dev.freeNext_gpio (d : Dev) : (d.freeNext).gpio = d.gpio := (rfl)
@[simp] theorem Dev.freeNext_rreg (d : Dev) (k0 : RegKind) (i0 : Nat) : (d.freeNext).rreg k0 i0 = d.rreg k0 i0 := (rfl)
@[simp] theorem Dev.freeNext_rf (d : Dev) (f0 : Fld) (i0 : Nat) : (d.freeNext).rf f0 i0 = d.rf f0 i0 := (rfl)
@[simp] theorem Dev.freeNext_on (d : Dev) (f0 : Fld) (i0 : Nat) : (d.freeNext).on f0 i0 = d.on f0 i0 := (rfl)
@[simp] theorem Dev.freeNext_getEnc (d : Dev) (i0 : Nat) : (d.freeNext).getEnc i0 = d.getEnc i0 := (rfl)
@[simp] theorem Dev.freeNext_getCap (d : Dev) (i0 : Nat) : (d.freeNext).getCap i0 = d.getCap i0 := (rfl)
@[simp] theorem Dev.freeNext_getLtg (d : Dev) (i0 : Nat) : (d.freeNext).getLtg i0 = d.getLtg i0 := (rfl)
@[simp] theorem Dev.freeNext_getHcp (d : Dev) (i0 : Nat) : (d.freeNext).getHcp i0 = d.getHcp i0 := (rfl)
@[simp] theorem Dev.freeNext_getMcv (d : Dev) (i0 : Nat) : (d.freeNext).getMcv i0 = d.getMcv i0 := (rfl)
@[simp] theorem Dev.freeNext_getCmp (d : Dev) (i0 : Nat) : (d.freeNext).getCmp i0 = d.getCmp i0 := (rfl)
@[simp] theorem Dev.freeNext_lane (d : Dev) (i0 : Nat) : (d.freeNext).lane i0 = d.lane i0 := (rfl)
@[simp] theorem Dev.freeNext_pad (d : Dev) (i0 : Nat) : (d.freeNext).pad i0 = d.pad i0 := (rfl)
@[simp] theorem Dev.freeNext_t (d : Dev) : (d.freeNext).t = d.t := (rfl)

/-! `Dev.rstWhere` -/

@[simp] theorem Dev.rstWhere_now (d : Dev) (w : Fld → Nat → Bool) : (d.rstWhere w).now = d.now := (rfl)
@[simp] theorem Dev.rstWhere_tb (d : Dev) (w : Fld → Nat → Bool) : (d.rstWhere w).tb = d.tb := (rfl)
@[simp] theorem Dev.rstWhere_regs (d : Dev) (w : Fld → Nat → Bool) : (d.rstWhere w).regs = rstFields d.regs w := (rfl)
@[simp] theorem Dev.rstWhere_sets (d : Dev) (w : Fld → Nat → Bool) : (d.rstWhere w).sets = d.sets := (rfl)
@[simp] theorem Dev.rstWhere_latch (d : Dev) (w : Fld → Nat → Bool) : (d.rstWhere w).latch = d.latch := (rfl)
@[simp] theorem Dev.rstWhere_rdata (d : Dev) (w : Fld → Nat → Bool) : (d.rstWhere w).rdata = d.rdata := (rfl)
@[simp] theorem Dev.rstWhere_free (d : Dev) (w : Fld → Nat → Bool) : (d.rstWhere w).free = d.free := (rfl)
@[simp] theorem Dev.rstWhere_evq (d : Dev) (w : Fld → Nat → Bool) : (d.rstWhere w).evq = d.evq := (rfl)
@[simp] theorem Dev.rstWhere_enc (d : Dev) (w : Fld → Nat → Bool) : (d.rstWhere w).enc = d.enc := (rfl)
@[simp] theorem Dev.rstWhere_cap (d : Dev) (w : Fld → Nat → Bool) : (d.rstWhere w).cap = d.cap := (rfl)
@[simp] theorem Dev.rstWhere_ltg (d : Dev) (w : Fld → Nat → Bool) : (d.rstWhere w).ltg = d.ltg := (rfl)
@[simp] theorem Dev.rstWhere_hcp (d : Dev) (w : Fld → Nat → Bool) : (d.rstWhere w).hcp = d.hcp := (rfl)
@[simp] theorem Dev.rstWhere_zlk (d : Dev) (w : Fld → Nat → Bool) : (d.rstWhere w).zlk = d.zlk := (rfl)
@[simp] theorem Dev.rstWhere_pwr (d : Dev) (w : Fld → Nat → Bool) : (d.rstWhere w).pwr = d.pwr := (rfl)
@[simp] theorem Dev.rstWhere_kw (d : Dev) (w : Fld → Nat → Bool) : (d.rstWhere w).kw = d.kw := (rfl)
@[simp] theorem Dev.rstWhere_pcu (d : Dev) (w : Fld → Nat → Bool) : (d.rstWhere w).pcu = d.pcu := (rfl)
@[simp] theorem Dev.rstWhere_cal (d : Dev) (w : Fld → Nat → Bool) : (d.rstWhere w).cal = d.cal := (rfl)
@[simp] theorem Dev.rstWhere_anx (d : Dev) (w : Fld → Nat → Bool) : (d.rstWhere w).anx = d.anx := (rfl)
@[simp] theorem Dev.rstWhere_mcv (d : Dev) (w : Fld → Nat → Bool) : (d.rstWhere w).mcv = d.mcv := (rfl)
@[simp] theorem Dev.rstWhere_bank (d : Dev) (w : Fld → Nat → Bool) : (d.rstWhere w).bank = d.bank := (rfl)
@[simp] theorem Dev.rstWhere_fab (d : Dev) (w : Fld → Nat → Bool) : (d.rstWhere w).fab = d.fab := (rfl)
@[simp] theorem Dev.rstWhere_cfg (d : Dev) (w : Fld → Nat → Bool) : (d.rstWhere w).cfg = d.cfg := (rfl)
@[simp] theorem Dev.rstWhere_fuses (d : Dev) (w : Fld → Nat → Bool) : (d.rstWhere w).fuses = d.fuses := (rfl)
@[simp] theorem Dev.rstWhere_scb (d : Dev) (w : Fld → Nat → Bool) : (d.rstWhere w).scb = d.scb := (rfl)
@[simp] theorem Dev.rstWhere_lan (d : Dev) (w : Fld → Nat → Bool) : (d.rstWhere w).lan = d.lan := (rfl)
@[simp] theorem Dev.rstWhere_gpio (d : Dev) (w : Fld → Nat → Bool) : (d.rstWhere w).gpio = d.gpio := (rfl)
@[simp] theorem Dev.rstWhere_getEnc (d : Dev) (w : Fld → Nat → Bool) (i0 : Nat) : (d.rstWhere w).getEnc i0 = d.getEnc i0 := (rfl)
@[simp] theorem Dev.rstWhere_getCap (d : Dev) (w : Fld → Nat → Bool) (i0 : Nat) : (d.rstWhere w).getCap i0 = d.getCap i0 := (rfl)
@[simp] theorem Dev.rstWhere_getLtg (d : Dev) (w : Fld → Nat → Bool) (i0 : Nat) : (d.rstWhere w).getLtg i0 = d.getLtg i0 := (rfl)
@[simp] theorem Dev.rstWhere_getHcp (d : Dev) (w : Fld → Nat → Bool) (i0 : Nat) : (d.rstWhere w).getHcp i0 = d.getHcp i0 := (rfl)
@[simp] theorem Dev.rstWhere_getMcv (d : Dev) (w : Fld → Nat → Bool) (i0 : Nat) : (d.rstWhere w).getMcv i0 = d.getMcv i0 := (rfl)
@[simp] theorem Dev.rstWhere_getCmp (d : Dev) (w : Fld → Nat → Bool) (i0 : Nat) : (d.rstWhere w).getCmp i0 = d.getCmp i0 := (rfl)
@[simp] theorem Dev.rstWhere_lane (d : Dev) (w : Fld → Nat → Bool) (i0 : Nat) : (d.rstWhere w).lane i0 = d.lane i0 := (rfl)
@[simp] theorem Dev.rstWhere_pad (d : Dev) (w : Fld → Nat → Bool) (i0 : Nat) : (d.rstWhere w).pad i0 = d.pad i0 := (rfl)
@[simp] theorem Dev.rstWhere_t (d : Dev) (w : Fld → Nat → Bool) : (d.rstWhere w).t = d.t := (rfl)

/-! `Dev.setEvq` -/

@[simp] theorem Dev.setEvq_now (d : Dev) (f : Evq → Evq) : (d.setEvq f).now = d.now := (rfl)
@[simp] theorem Dev.setEvq_tb (d : Dev) (f : Evq → Evq) : (d.setEvq f).tb = d.tb := (rfl)
@[simp] theorem Dev.setEvq_regs (d : Dev) (f : Evq → Evq) : (d.setEvq f).regs = d.regs := (rfl)
@[simp] theorem Dev.setEvq_sets (d : Dev) (f : Evq → Evq) : (d.setEvq f).sets = d.sets := (rfl)
@[simp] theorem Dev.setEvq_latch (d : Dev) (f : Evq → Evq) : (d.setEvq f).latch = d.latch := (rfl)
@[simp] theorem Dev.setEvq_rdata (d : Dev) (f : Evq → Evq) : (d.setEvq f).rdata = d.rdata := (rfl)
@[simp] theorem Dev.setEvq_free (d : Dev) (f : Evq → Evq) : (d.setEvq f).free = d.free := (rfl)
@[simp] theorem Dev.setEvq_evq (d : Dev) (f : Evq → Evq) : (d.setEvq f).evq = f d.evq := (rfl)
@[simp] theorem Dev.setEvq_enc (d : Dev) (f : Evq → Evq) : (d.setEvq f).enc = d.enc := (rfl)
@[simp] theorem Dev.setEvq_cap (d : Dev) (f : Evq → Evq) : (d.setEvq f).cap = d.cap := (rfl)
@[simp] theorem Dev.setEvq_ltg (d : Dev) (f : Evq → Evq) : (d.setEvq f).ltg = d.ltg := (rfl)
@[simp] theorem Dev.setEvq_hcp (d : Dev) (f : Evq → Evq) : (d.setEvq f).hcp = d.hcp := (rfl)
@[simp] theorem Dev.setEvq_zlk (d : Dev) (f : Evq → Evq) : (d.setEvq f).zlk = d.zlk := (rfl)
@[simp] theorem Dev.setEvq_pwr (d : Dev) (f : Evq → Evq) : (d.setEvq f).pwr = d.pwr := (rfl)
@[simp] theorem Dev.setEvq_kw (d : Dev) (f : Evq → Evq) : (d.setEvq f).kw = d.kw := (rfl)
@[simp] theorem Dev.setEvq_pcu (d : Dev) (f : Evq → Evq) : (d.setEvq f).pcu = d.pcu := (rfl)
@[simp] theorem Dev.setEvq_cal (d : Dev) (f : Evq → Evq) : (d.setEvq f).cal = d.cal := (rfl)
@[simp] theorem Dev.setEvq_anx (d : Dev) (f : Evq → Evq) : (d.setEvq f).anx = d.anx := (rfl)
@[simp] theorem Dev.setEvq_mcv (d : Dev) (f : Evq → Evq) : (d.setEvq f).mcv = d.mcv := (rfl)
@[simp] theorem Dev.setEvq_bank (d : Dev) (f : Evq → Evq) : (d.setEvq f).bank = d.bank := (rfl)
@[simp] theorem Dev.setEvq_fab (d : Dev) (f : Evq → Evq) : (d.setEvq f).fab = d.fab := (rfl)
@[simp] theorem Dev.setEvq_cfg (d : Dev) (f : Evq → Evq) : (d.setEvq f).cfg = d.cfg := (rfl)
@[simp] theorem Dev.setEvq_fuses (d : Dev) (f : Evq → Evq) : (d.setEvq f).fuses = d.fuses := (rfl)
@[simp] theorem Dev.setEvq_scb (d : Dev) (f : Evq → Evq) : (d.setEvq f).scb = d.scb := (rfl)
@[simp] theorem Dev.setEvq_lan (d : Dev) (f : Evq → Evq) : (d.setEvq f).lan = d.lan := (rfl)
@[simp] theorem Dev.setEvq_gpio (d : Dev) (f : Evq → Evq) : (d.setEvq f).gpio = d.gpio := (rfl)
@[simp] theorem Dev.setEvq_rreg (d : Dev) (f : Evq → Evq) (k0 : RegKind) (i0 : Nat) : (d.setEvq f).rreg k0 i0 = d.rreg k0 i0 := (rfl)
@[simp] theorem Dev.setEvq_rf (d : Dev) (f : Evq → Evq) (f0 : Fld) (i0 : Nat) : (d.setEvq f).rf f0 i0 = d.rf f0 i0 := (rfl)
@[simp] theorem Dev.setEvq_on (d : Dev) (f : Evq → Evq) (f0 : Fld) (i0 : Nat) : (d.setEvq f).on f0 i0 = d.on f0 i0 := (rfl)
@[simp] theorem Dev.setEvq_getEnc (d : Dev) (f : Evq → Evq) (i0 : Nat) : (d.setEvq f).getEnc i0 = d.getEnc i0 := (rfl)
@[simp] theorem Dev.setEvq_getCap (d : Dev) (f : Evq → Evq) (i0 : Nat) : (d.setEvq f).getCap i0 = d.getCap i0 := (rfl)
@[simp] theorem Dev.setEvq_getLtg (d : Dev) (f : Evq → Evq) (i0 : Nat) : (d.setEvq f).getLtg i0 = d.getLtg i0 := (rfl)
@[simp] theorem Dev.setEvq_getHcp (d : Dev) (f : Evq → Evq) (i0 : Nat) : (d.setEvq f).getHcp i0 = d.getHcp i0 := (rfl)
@[simp] theorem Dev.setEvq_getMcv (d : Dev) (f : Evq → Evq) (i0 : Nat) : (d.setEvq f).getMcv i0 = d.getMcv i0 := (rfl)
@[simp] theorem Dev.setEvq_getCmp (d : Dev) (f : Evq → Evq) (i0 : Nat) : (d.setEvq f).getCmp i0 = d.getCmp i0 := (rfl)
@[simp] theorem Dev.setEvq_lane (d : Dev) (f : Evq → Evq) (i0 : Nat) : (d.setEvq f).lane i0 = d.lane i0 := (rfl)
@[simp] theorem Dev.setEvq_pad (d : Dev) (f : Evq → Evq) (i0 : Nat) : (d.setEvq f).pad i0 = d.pad i0 := (rfl)
@[simp] theorem Dev.setEvq_t (d : Dev) (f : Evq → Evq) : (d.setEvq f).t = d.t := (rfl)

/-! `Dev.setEnc` -/

@[simp] theorem Dev.setEnc_now (d : Dev) (p : Nat) (e : EncPort) : (d.setEnc p e).now = d.now := (rfl)
@[simp] theorem Dev.setEnc_tb (d : Dev) (p : Nat) (e : EncPort) : (d.setEnc p e).tb = d.tb := (rfl)
@[simp] theorem Dev.setEnc_regs (d : Dev) (p : Nat) (e : EncPort) : (d.setEnc p e).regs = d.regs := (rfl)
@[simp] theorem Dev.setEnc_sets (d : Dev) (p : Nat) (e : EncPort) : (d.setEnc p e).sets = d.sets := (rfl)
@[simp] theorem Dev.setEnc_latch (d : Dev) (p : Nat) (e : EncPort) : (d.setEnc p e).latch = d.latch := (rfl)
@[simp] theorem Dev.setEnc_rdata (d : Dev) (p : Nat) (e : EncPort) : (d.setEnc p e).rdata = d.rdata := (rfl)
@[simp] theorem Dev.setEnc_free (d : Dev) (p : Nat) (e : EncPort) : (d.setEnc p e).free = d.free := (rfl)
@[simp] theorem Dev.setEnc_evq (d : Dev) (p : Nat) (e : EncPort) : (d.setEnc p e).evq = d.evq := (rfl)
@[simp] theorem Dev.setEnc_enc (d : Dev) (p : Nat) (e : EncPort) : (d.setEnc p e).enc = tset d.enc .reset p e := (rfl)
@[simp] theorem Dev.setEnc_cap (d : Dev) (p : Nat) (e : EncPort) : (d.setEnc p e).cap = d.cap := (rfl)
@[simp] theorem Dev.setEnc_ltg (d : Dev) (p : Nat) (e : EncPort) : (d.setEnc p e).ltg = d.ltg := (rfl)
@[simp] theorem Dev.setEnc_hcp (d : Dev) (p : Nat) (e : EncPort) : (d.setEnc p e).hcp = d.hcp := (rfl)
@[simp] theorem Dev.setEnc_zlk (d : Dev) (p : Nat) (e : EncPort) : (d.setEnc p e).zlk = d.zlk := (rfl)
@[simp] theorem Dev.setEnc_pwr (d : Dev) (p : Nat) (e : EncPort) : (d.setEnc p e).pwr = d.pwr := (rfl)
@[simp] theorem Dev.setEnc_kw (d : Dev) (p : Nat) (e : EncPort) : (d.setEnc p e).kw = d.kw := (rfl)
@[simp] theorem Dev.setEnc_pcu (d : Dev) (p : Nat) (e : EncPort) : (d.setEnc p e).pcu = d.pcu := (rfl)
@[simp] theorem Dev.setEnc_cal (d : Dev) (p : Nat) (e : EncPort) : (d.setEnc p e).cal = d.cal := (rfl)
@[simp] theorem Dev.setEnc_anx (d : Dev) (p : Nat) (e : EncPort) : (d.setEnc p e).anx = d.anx := (rfl)
@[simp] theorem Dev.setEnc_mcv (d : Dev) (p : Nat) (e : EncPort) : (d.setEnc p e).mcv = d.mcv := (rfl)
@[simp] theorem Dev.setEnc_bank (d : Dev) (p : Nat) (e : EncPort) : (d.setEnc p e).bank = d.bank := (rfl)
@[simp] theorem Dev.setEnc_fab (d : Dev) (p : Nat) (e : EncPort) : (d.setEnc p e).fab = d.fab := (rfl)
@[simp] theorem Dev.setEnc_cfg (d : Dev) (p : Nat) (e : EncPort) : (d.setEnc p e).cfg = d.cfg := (rfl)
@[simp] theorem Dev.setEnc_fuses (d : Dev) (p : Nat) (e : EncPort) : (d.setEnc p e).fuses = d.fuses := (rfl)
@[simp] theorem Dev.setEnc_scb (d : Dev) (p : Nat) (e : EncPort) : (d.setEnc p e).scb = d.scb := (rfl)
@[simp] theorem Dev.setEnc_lan (d : Dev) (p : Nat) (e : EncPort) : (d.setEnc p e).lan = d.lan := (rfl)
@[simp] theorem Dev.setEnc_gpio (d : Dev) (p : Nat) (e : EncPort) : (d.setEnc p e).gpio = d.gpio := (rfl)
@[simp] theorem Dev.setEnc_rreg (d : Dev) (p : Nat) (e : EncPort) (k0 : RegKind) (i0 : Nat) : (d.setEnc p e).rreg k0 i0 = d.rreg k0 i0 := (rfl)
@[simp] theorem Dev.setEnc_rf (d : Dev) (p : Nat) (e : EncPort) (f0 : Fld) (i0 : Nat) : (d.setEnc p e).rf f0 i0 = d.rf f0 i0 := (rfl)
@[simp] theorem Dev.setEnc_on (d : Dev) (p : Nat) (e : EncPort) (f0 : Fld) (i0 : Nat) : (d.setEnc p e).on f0 i0 = d.on f0 i0 := (rfl)
@[simp] theorem Dev.setEnc_getCap (d : Dev) (p : Nat) (e : EncPort) (i0 : Nat) : (d.setEnc p e).getCap i0 = d.getCap i0 := (rfl)
@[simp] theorem Dev.setEnc_getLtg (d : Dev) (p : Nat) (e : EncPort) (i0 : Nat) : (d.setEnc p e).getLtg i0 = d.getLtg i0 := (rfl)
@[simp] theorem Dev.setEnc_getHcp (d : Dev) (p : Nat) (e : EncPort) (i0 : Nat) : (d.setEnc p e).getHcp i0 = d.getHcp i0 := (rfl)
@[simp] theorem Dev.setEnc_getMcv (d : Dev) (p : Nat) (e : EncPort) (i0 : Nat) : (d.setEnc p e).getMcv i0 = d.getMcv i0 := (rfl)
@[simp] theorem Dev.setEnc_getCmp (d : Dev) (p : Nat) (e : EncPort) (i0 : Nat) : (d.setEnc p e).getCmp i0 = d.getCmp i0 := (rfl)
@[simp] theorem Dev.setEnc_lane (d : Dev) (p : Nat) (e : EncPort) (i0 : Nat) : (d.setEnc p e).lane i0 = d.lane i0 := (rfl)
@[simp] theorem Dev.setEnc_pad (d : Dev) (p : Nat) (e : EncPort) (i0 : Nat) : (d.setEnc p e).pad i0 = d.pad i0 := (rfl)
@[simp] theorem Dev.setEnc_t (d : Dev) (p : Nat) (e : EncPort) : (d.setEnc p e).t = d.t := (rfl)

/-! `Dev.setCap` -/

@[simp] theorem Dev.setCap_now (d : Dev) (k : Nat) (l : List CapEntry) : (d.setCap k l).now = d.now := (rfl)
@[simp] theorem Dev.setCap_tb (d : Dev) (k : Nat) (l : List CapEntry) : (d.setCap k l).tb = d.tb := (rfl)
@[simp] theorem Dev.setCap_regs (d : Dev) (k : Nat) (l : List CapEntry) : (d.setCap k l).regs = d.regs := (rfl)
@[simp] theorem Dev.setCap_sets (d : Dev) (k : Nat) (l : List CapEntry) : (d.setCap k l).sets = d.sets := (rfl)
@[simp] theorem Dev.setCap_latch (d : Dev) (k : Nat) (l : List CapEntry) : (d.setCap k l).latch = d.latch := (rfl)
@[simp] theorem Dev.setCap_rdata (d : Dev) (k : Nat) (l : List CapEntry) : (d.setCap k l).rdata = d.rdata := (rfl)
@[simp] theorem Dev.setCap_free (d : Dev) (k : Nat) (l : List CapEntry) : (d.setCap k l).free = d.free := (rfl)
@[simp] theorem Dev.setCap_evq (d : Dev) (k : Nat) (l : List CapEntry) : (d.setCap k l).evq = d.evq := (rfl)
@[simp] theorem Dev.setCap_enc (d : Dev) (k : Nat) (l : List CapEntry) : (d.setCap k l).enc = d.enc := (rfl)
@[simp] theorem Dev.setCap_cap (d : Dev) (k : Nat) (l : List CapEntry) : (d.setCap k l).cap = tset d.cap [] k l := (rfl)
@[simp] theorem Dev.setCap_ltg (d : Dev) (k : Nat) (l : List CapEntry) : (d.setCap k l).ltg = d.ltg := (rfl)
@[simp] theorem Dev.setCap_hcp (d : Dev) (k : Nat) (l : List CapEntry) : (d.setCap k l).hcp = d.hcp := (rfl)
@[simp] theorem Dev.setCap_zlk (d : Dev) (k : Nat) (l : List CapEntry) : (d.setCap k l).zlk = d.zlk := (rfl)
@[simp] theorem Dev.setCap_pwr (d : Dev) (k : Nat) (l : List CapEntry) : (d.setCap k l).pwr = d.pwr := (rfl)
@[simp] theorem Dev.setCap_kw (d : Dev) (k : Nat) (l : List CapEntry) : (d.setCap k l).kw = d.kw := (rfl)
@[simp] theorem Dev.setCap_pcu (d : Dev) (k : Nat) (l : List CapEntry) : (d.setCap k l).pcu = d.pcu := (rfl)
@[simp] theorem Dev.setCap_cal (d : Dev) (k : Nat) (l : List CapEntry) : (d.setCap k l).cal = d.cal := (rfl)
@[simp] theorem Dev.setCap_anx (d : Dev) (k : Nat) (l : List CapEntry) : (d.setCap k l).anx = d.anx := (rfl)
@[simp] theorem Dev.setCap_mcv (d : Dev) (k : Nat) (l : List CapEntry) : (d.setCap k l).mcv = d.mcv := (rfl)
@[simp] theorem Dev.setCap_bank (d : Dev) (k : Nat) (l : List CapEntry) : (d.setCap k l).bank = d.bank := (rfl)
@[simp] theorem Dev.setCap_fab (d : Dev) (k : Nat) (l : List CapEntry) : (d.setCap k l).fab = d.fab := (rfl)
@[simp] theorem Dev.setCap_cfg (d : Dev) (k : Nat) (l : List CapEntry) : (d.setCap k l).cfg = d.cfg := (rfl)
@[simp] theorem Dev.setCap_fuses (d : Dev) (k : Nat) (l : List CapEntry) : (d.setCap k l).fuses = d.fuses := (rfl)
@[simp] theorem Dev.setCap_scb (d : Dev) (k : Nat) (l : List CapEntry) : (d.setCap k l).scb = d.scb := (rfl)
@[simp] theorem Dev.setCap_lan (d : Dev) (k : Nat) (l : List CapEntry) : (d.setCap k l).lan = d.lan := (rfl)
@[simp] theorem Dev.setCap_gpio (d : Dev) (k : Nat) (l : List CapEntry) : (d.setCap k l).gpio = d.gpio := (rfl)
@[simp] theorem Dev.setCap_rreg (d : Dev) (k : Nat) (l : List CapEntry) (k0 : RegKind) (i0 : Nat) : (d.setCap k l).rreg k0 i0 = d.rreg k0 i0 := (rfl)
@[simp] theorem Dev.setCap_rf (d : Dev) (k : Nat) (l : List CapEntry) (f0 : Fld) (i0 : Nat) : (d.setCap k l).rf f0 i0 = d.rf f0 i0 := (rfl)
@[simp] theorem Dev.setCap_on (d : Dev) (k : Nat) (l : List CapEntry) (f0 : Fld) (i0 : Nat) : (d.setCap k l).on f0 i0 = d.on f0 i0 := (rfl)
@[simp] theorem Dev.setCap_getEnc (d : Dev) (k : Nat) (l : List CapEntry) (i0 : Nat) : (d.setCap k l).getEnc i0 = d.getEnc i0 := (rfl)
@[simp] theorem Dev.setCap_getLtg (d : Dev) (k : Nat) (l : List CapEntry) (i0 : Nat) : (d.setCap k l).getLtg i0 = d.getLtg i0 := (rfl)
@[simp] theorem Dev.setCap_getHcp (d : Dev) (k : Nat) (l : List CapEntry) (i0 : Nat) : (d.setCap k l).getHcp i0 = d.getHcp i0 := (rfl)
@[simp] theorem Dev.setCap_getMcv (d : Dev) (k : Nat) (l : List CapEntry) (i0 : Nat) : (d.setCap k l).getMcv i0 = d.getMcv i0 := (rfl)
@[simp] theorem Dev.setCap_getCmp (d : Dev) (k : Nat) (l : List CapEntry) (i0 : Nat) : (d.setCap k l).getCmp i0 = d.getCmp i0 := (rfl)
@[simp] theorem Dev.setCap_lane (d : Dev) (k : Nat) (l : List CapEntry) (i0 : Nat) : (d.setCap k l).lane i0 = d.lane i0 := (rfl)
@[simp] theorem Dev.setCap_pad (d : Dev) (k : Nat) (l : List CapEntry) (i0 : Nat) : (d.setCap k l).pad i0 = d.pad i0 := (rfl)
@[simp] theorem Dev.setCap_t (d : Dev) (k : Nat) (l : List CapEntry) : (d.setCap k l).t = d.t := (rfl)

/-! `Dev.setLtg` -/

@[simp] theorem Dev.setLtg_now (d : Dev) (h : Nat) (l : Ltg) : (d.setLtg h l).now = d.now := (rfl)
@[simp] theorem Dev.setLtg_tb (d : Dev) (h : Nat) (l : Ltg) : (d.setLtg h l).tb = d.tb := (rfl)
@[simp] theorem Dev.setLtg_regs (d : Dev) (h : Nat) (l : Ltg) : (d.setLtg h l).regs = d.regs := (rfl)
@[simp] theorem Dev.setLtg_sets (d : Dev) (h : Nat) (l : Ltg) : (d.setLtg h l).sets = d.sets := (rfl)
@[simp] theorem Dev.setLtg_latch (d : Dev) (h : Nat) (l : Ltg) : (d.setLtg h l).latch = d.latch := (rfl)
@[simp] theorem Dev.setLtg_rdata (d : Dev) (h : Nat) (l : Ltg) : (d.setLtg h l).rdata = d.rdata := (rfl)
@[simp] theorem Dev.setLtg_free (d : Dev) (h : Nat) (l : Ltg) : (d.setLtg h l).free = d.free := (rfl)
@[simp] theorem Dev.setLtg_evq (d : Dev) (h : Nat) (l : Ltg) : (d.setLtg h l).evq = d.evq := (rfl)
@[simp] theorem Dev.setLtg_enc (d : Dev) (h : Nat) (l : Ltg) : (d.setLtg h l).enc = d.enc := (rfl)
@[simp] theorem Dev.setLtg_cap (d : Dev) (h : Nat) (l : Ltg) : (d.setLtg h l).cap = d.cap := (rfl)
@[simp] theorem Dev.setLtg_ltg (d : Dev) (h : Nat) (l : Ltg) : (d.setLtg h l).ltg = tset d.ltg .reset h l := (rfl)
@[simp] theorem Dev.setLtg_hcp (d : Dev) (h : Nat) (l : Ltg) : (d.setLtg h l).hcp = d.hcp := (rfl)
@[simp] theorem Dev.setLtg_zlk (d : Dev) (h : Nat) (l : Ltg) : (d.setLtg h l).zlk = d.zlk := (rfl)
@[simp] theorem Dev.setLtg_pwr (d : Dev) (h : Nat) (l : Ltg) : (d.setLtg h l).pwr = d.pwr := (rfl)
@[simp] theorem Dev.setLtg_kw (d : Dev) (h : Nat) (l : Ltg) : (d.setLtg h l).kw = d.kw := (rfl)
@[simp] theorem Dev.setLtg_pcu (d : Dev) (h : Nat) (l : Ltg) : (d.setLtg h l).pcu = d.pcu := (rfl)
@[simp] theorem Dev.setLtg_cal (d : Dev) (h : Nat) (l : Ltg) : (d.setLtg h l).cal = d.cal := (rfl)
@[simp] theorem Dev.setLtg_anx (d : Dev) (h : Nat) (l : Ltg) : (d.setLtg h l).anx = d.anx := (rfl)
@[simp] theorem Dev.setLtg_mcv (d : Dev) (h : Nat) (l : Ltg) : (d.setLtg h l).mcv = d.mcv := (rfl)
@[simp] theorem Dev.setLtg_bank (d : Dev) (h : Nat) (l : Ltg) : (d.setLtg h l).bank = d.bank := (rfl)
@[simp] theorem Dev.setLtg_fab (d : Dev) (h : Nat) (l : Ltg) : (d.setLtg h l).fab = d.fab := (rfl)
@[simp] theorem Dev.setLtg_cfg (d : Dev) (h : Nat) (l : Ltg) : (d.setLtg h l).cfg = d.cfg := (rfl)
@[simp] theorem Dev.setLtg_fuses (d : Dev) (h : Nat) (l : Ltg) : (d.setLtg h l).fuses = d.fuses := (rfl)
@[simp] theorem Dev.setLtg_scb (d : Dev) (h : Nat) (l : Ltg) : (d.setLtg h l).scb = d.scb := (rfl)
@[simp] theorem Dev.setLtg_lan (d : Dev) (h : Nat) (l : Ltg) : (d.setLtg h l).lan = d.lan := (rfl)
@[simp] theorem Dev.setLtg_gpio (d : Dev) (h : Nat) (l : Ltg) : (d.setLtg h l).gpio = d.gpio := (rfl)
@[simp] theorem Dev.setLtg_rreg (d : Dev) (h : Nat) (l : Ltg) (k0 : RegKind) (i0 : Nat) : (d.setLtg h l).rreg k0 i0 = d.rreg k0 i0 := (rfl)
@[simp] theorem Dev.setLtg_rf (d : Dev) (h : Nat) (l : Ltg) (f0 : Fld) (i0 : Nat) : (d.setLtg h l).rf f0 i0 = d.rf f0 i0 := (rfl)
@[simp] theorem Dev.setLtg_on (d : Dev) (h : Nat) (l : Ltg) (f0 : Fld) (i0 : Nat) : (d.setLtg h l).on f0 i0 = d.on f0 i0 := (rfl)
@[simp] theorem Dev.setLtg_getEnc (d : Dev) (h : Nat) (l : Ltg) (i0 : Nat) : (d.setLtg h l).getEnc i0 = d.getEnc i0 := (rfl)
@[simp] theorem Dev.setLtg_getCap (d : Dev) (h : Nat) (l : Ltg) (i0 : Nat) : (d.setLtg h l).getCap i0 = d.getCap i0 := (rfl)
@[simp] theorem Dev.setLtg_getHcp (d : Dev) (h : Nat) (l : Ltg) (i0 : Nat) : (d.setLtg h l).getHcp i0 = d.getHcp i0 := (rfl)
@[simp] theorem Dev.setLtg_getMcv (d : Dev) (h : Nat) (l : Ltg) (i0 : Nat) : (d.setLtg h l).getMcv i0 = d.getMcv i0 := (rfl)
@[simp] theorem Dev.setLtg_getCmp (d : Dev) (h : Nat) (l : Ltg) (i0 : Nat) : (d.setLtg h l).getCmp i0 = d.getCmp i0 := (rfl)
@[simp] theorem Dev.setLtg_lane (d : Dev) (h : Nat) (l : Ltg) (i0 : Nat) : (d.setLtg h l).lane i0 = d.lane i0 := (rfl)
@[simp] theorem Dev.setLtg_pad (d : Dev) (h : Nat) (l : Ltg) (i0 : Nat) : (d.setLtg h l).pad i0 = d.pad i0 := (rfl)
@[simp] theorem Dev.setLtg_t (d : Dev) (h : Nat) (l : Ltg) : (d.setLtg h l).t = d.t := (rfl)

/-! `Dev.setHcp` -/

@[simp] theorem Dev.setHcp_now (d : Dev) (h : Nat) (p : Hcp) : (d.setHcp h p).now = d.now := (rfl)
@[simp] theorem Dev.setHcp_tb (d : Dev) (h : Nat) (p : Hcp) : (d.setHcp h p).tb = d.tb := (rfl)
@[simp] theorem Dev.setHcp_regs (d : Dev) (h : Nat) (p : Hcp) : (d.setHcp h p).regs = d.regs := (rfl)
@[simp] theorem Dev.setHcp_sets (d : Dev) (h : Nat) (p : Hcp) : (d.setHcp h p).sets = d.sets := (rfl)
@[simp] theorem Dev.setHcp_latch (d : Dev) (h : Nat) (p : Hcp) : (d.setHcp h p).latch = d.latch := (rfl)
@[simp] theorem Dev.setHcp_rdata (d : Dev) (h : Nat) (p : Hcp) : (d.setHcp h p).rdata = d.rdata := (rfl)
@[simp] theorem Dev.setHcp_free (d : Dev) (h : Nat) (p : Hcp) : (d.setHcp h p).free = d.free := (rfl)
@[simp] theorem Dev.setHcp_evq (d : Dev) (h : Nat) (p : Hcp) : (d.setHcp h p).evq = d.evq := (rfl)
@[simp] theorem Dev.setHcp_enc (d : Dev) (h : Nat) (p : Hcp) : (d.setHcp h p).enc = d.enc := (rfl)
@[simp] theorem Dev.setHcp_cap (d : Dev) (h : Nat) (p : Hcp) : (d.setHcp h p).cap = d.cap := (rfl)
@[simp] theorem Dev.setHcp_ltg (d : Dev) (h : Nat) (p : Hcp) : (d.setHcp h p).ltg = d.ltg := (rfl)
@[simp] theorem Dev.setHcp_hcp (d : Dev) (h : Nat) (p : Hcp) : (d.setHcp h p).hcp = tset d.hcp .reset h p := (rfl)
@[simp] theorem Dev.setHcp_zlk (d : Dev) (h : Nat) (p : Hcp) : (d.setHcp h p).zlk = d.zlk := (rfl)
@[simp] theorem Dev.setHcp_pwr (d : Dev) (h : Nat) (p : Hcp) : (d.setHcp h p).pwr = d.pwr := (rfl)
@[simp] theorem Dev.setHcp_kw (d : Dev) (h : Nat) (p : Hcp) : (d.setHcp h p).kw = d.kw := (rfl)
@[simp] theorem Dev.setHcp_pcu (d : Dev) (h : Nat) (p : Hcp) : (d.setHcp h p).pcu = d.pcu := (rfl)
@[simp] theorem Dev.setHcp_cal (d : Dev) (h : Nat) (p : Hcp) : (d.setHcp h p).cal = d.cal := (rfl)
@[simp] theorem Dev.setHcp_anx (d : Dev) (h : Nat) (p : Hcp) : (d.setHcp h p).anx = d.anx := (rfl)
@[simp] theorem Dev.setHcp_mcv (d : Dev) (h : Nat) (p : Hcp) : (d.setHcp h p).mcv = d.mcv := (rfl)
@[simp] theorem Dev.setHcp_bank (d : Dev) (h : Nat) (p : Hcp) : (d.setHcp h p).bank = d.bank := (rfl)
@[simp] theorem Dev.setHcp_fab (d : Dev) (h : Nat) (p : Hcp) : (d.setHcp h p).fab = d.fab := (rfl)
@[simp] theorem Dev.setHcp_cfg (d : Dev) (h : Nat) (p : Hcp) : (d.setHcp h p).cfg = d.cfg := (rfl)
@[simp] theorem Dev.setHcp_fuses (d : Dev) (h : Nat) (p : Hcp) : (d.setHcp h p).fuses = d.fuses := (rfl)
@[simp] theorem Dev.setHcp_scb (d : Dev) (h : Nat) (p : Hcp) : (d.setHcp h p).scb = d.scb := (rfl)
@[simp] theorem Dev.setHcp_lan (d : Dev) (h : Nat) (p : Hcp) : (d.setHcp h p).lan = d.lan := (rfl)
@[simp] theorem Dev.setHcp_gpio (d : Dev) (h : Nat) (p : Hcp) : (d.setHcp h p).gpio = d.gpio := (rfl)
@[simp] theorem Dev.setHcp_rreg (d : Dev) (h : Nat) (p : Hcp) (k0 : RegKind) (i0 : Nat) : (d.setHcp h p).rreg k0 i0 = d.rreg k0 i0 := (rfl)
@[simp] theorem Dev.setHcp_rf (d : Dev) (h : Nat) (p : Hcp) (f0 : Fld) (i0 : Nat) : (d.setHcp h p).rf f0 i0 = d.rf f0 i0 := (rfl)
@[simp] theorem Dev.setHcp_on (d : Dev) (h : Nat) (p : Hcp) (f0 : Fld) (i0 : Nat) : (d.setHcp h p).on f0 i0 = d.on f0 i0 := (rfl)
@[simp] theorem Dev.setHcp_getEnc (d : Dev) (h : Nat) (p : Hcp) (i0 : Nat) : (d.setHcp h p).getEnc i0 = d.getEnc i0 := (rfl)
@[simp] theorem Dev.setHcp_getCap (d : Dev) (h : Nat) (p : Hcp) (i0 : Nat) : (d.setHcp h p).getCap i0 = d.getCap i0 := (rfl)
@[simp] theorem Dev.setHcp_getLtg (d : Dev) (h : Nat) (p : Hcp) (i0 : Nat) : (d.setHcp h p).getLtg i0 = d.getLtg i0 := (rfl)
@[simp] theorem Dev.setHcp_getMcv (d : Dev) (h : Nat) (p : Hcp) (i0 : Nat) : (d.setHcp h p).getMcv i0 = d.getMcv i0 := (rfl)
@[simp] theorem Dev.setHcp_getCmp (d : Dev) (h : Nat) (p : Hcp) (i0 : Nat) : (d.setHcp h p).getCmp i0 = d.getCmp i0 := (rfl)
@[simp] theorem Dev.setHcp_lane (d : Dev) (h : Nat) (p : Hcp) (i0 : Nat) : (d.setHcp h p).lane i0 = d.lane i0 := (rfl)
@[simp] theorem Dev.setHcp_pad (d : Dev) (h : Nat) (p : Hcp) (i0 : Nat) : (d.setHcp h p).pad i0 = d.pad i0 := (rfl)
@[simp] theorem Dev.setHcp_t (d : Dev) (h : Nat) (p : Hcp) : (d.setHcp h p).t = d.t := (rfl)

/-! `Dev.setZ` -/

@[simp] theorem Dev.setZ_now (d : Dev) (f : Zlk → Zlk) : (d.setZ f).now = d.now := (rfl)
@[simp] theorem Dev.setZ_tb (d : Dev) (f : Zlk → Zlk) : (d.setZ f).tb = d.tb := (rfl)
@[simp] theorem Dev.setZ_regs (d : Dev) (f : Zlk → Zlk) : (d.setZ f).regs = d.regs := (rfl)
@[simp] theorem Dev.setZ_sets (d : Dev) (f : Zlk → Zlk) : (d.setZ f).sets = d.sets := (rfl)
@[simp] theorem Dev.setZ_latch (d : Dev) (f : Zlk → Zlk) : (d.setZ f).latch = d.latch := (rfl)
@[simp] theorem Dev.setZ_rdata (d : Dev) (f : Zlk → Zlk) : (d.setZ f).rdata = d.rdata := (rfl)
@[simp] theorem Dev.setZ_free (d : Dev) (f : Zlk → Zlk) : (d.setZ f).free = d.free := (rfl)
@[simp] theorem Dev.setZ_evq (d : Dev) (f : Zlk → Zlk) : (d.setZ f).evq = d.evq := (rfl)
@[simp] theorem Dev.setZ_enc (d : Dev) (f : Zlk → Zlk) : (d.setZ f).enc = d.enc := (rfl)
@[simp] theorem Dev.setZ_cap (d : Dev) (f : Zlk → Zlk) : (d.setZ f).cap = d.cap := (rfl)
@[simp] theorem Dev.setZ_ltg (d : Dev) (f : Zlk → Zlk) : (d.setZ f).ltg = d.ltg := (rfl)
@[simp] theorem Dev.setZ_hcp (d : Dev) (f : Zlk → Zlk) : (d.setZ f).hcp = d.hcp := (rfl)
@[simp] theorem Dev.setZ_zlk (d : Dev) (f : Zlk → Zlk) : (d.setZ f).zlk = f d.zlk := (rfl)
@[simp] theorem Dev.setZ_pwr (d : Dev) (f : Zlk → Zlk) : (d.setZ f).pwr = d.pwr := (rfl)
@[simp] theorem Dev.setZ_kw (d : Dev) (f : Zlk → Zlk) : (d.setZ f).kw = d.kw := (rfl)
@[simp] theorem Dev.setZ_pcu (d : Dev) (f : Zlk → Zlk) : (d.setZ f).pcu = d.pcu := (rfl)
@[simp] theorem Dev.setZ_cal (d : Dev) (f : Zlk → Zlk) : (d.setZ f).cal = d.cal := (rfl)
@[simp] theorem Dev.setZ_anx (d : Dev) (f : Zlk → Zlk) : (d.setZ f).anx = d.anx := (rfl)
@[simp] theorem Dev.setZ_mcv (d : Dev) (f : Zlk → Zlk) : (d.setZ f).mcv = d.mcv := (rfl)
@[simp] theorem Dev.setZ_bank (d : Dev) (f : Zlk → Zlk) : (d.setZ f).bank = d.bank := (rfl)
@[simp] theorem Dev.setZ_fab (d : Dev) (f : Zlk → Zlk) : (d.setZ f).fab = d.fab := (rfl)
@[simp] theorem Dev.setZ_cfg (d : Dev) (f : Zlk → Zlk) : (d.setZ f).cfg = d.cfg := (rfl)
@[simp] theorem Dev.setZ_fuses (d : Dev) (f : Zlk → Zlk) : (d.setZ f).fuses = d.fuses := (rfl)
@[simp] theorem Dev.setZ_scb (d : Dev) (f : Zlk → Zlk) : (d.setZ f).scb = d.scb := (rfl)
@[simp] theorem Dev.setZ_lan (d : Dev) (f : Zlk → Zlk) : (d.setZ f).lan = d.lan := (rfl)
@[simp] theorem Dev.setZ_gpio (d : Dev) (f : Zlk → Zlk) : (d.setZ f).gpio = d.gpio := (rfl)
@[simp] theorem Dev.setZ_rreg (d : Dev) (f : Zlk → Zlk) (k0 : RegKind) (i0 : Nat) : (d.setZ f).rreg k0 i0 = d.rreg k0 i0 := (rfl)
@[simp] theorem Dev.setZ_rf (d : Dev) (f : Zlk → Zlk) (f0 : Fld) (i0 : Nat) : (d.setZ f).rf f0 i0 = d.rf f0 i0 := (rfl)
@[simp] theorem Dev.setZ_on (d : Dev) (f : Zlk → Zlk) (f0 : Fld) (i0 : Nat) : (d.setZ f).on f0 i0 = d.on f0 i0 := (rfl)
@[simp] theorem Dev.setZ_getEnc (d : Dev) (f : Zlk → Zlk) (i0 : Nat) : (d.setZ f).getEnc i0 = d.getEnc i0 := (rfl)
@[simp] theorem Dev.setZ_getCap (d : Dev) (f : Zlk → Zlk) (i0 : Nat) : (d.setZ f).getCap i0 = d.getCap i0 := (rfl)
@[simp] theorem Dev.setZ_getLtg (d : Dev) (f : Zlk → Zlk) (i0 : Nat) : (d.setZ f).getLtg i0 = d.getLtg i0 := (rfl)
@[simp] theorem Dev.setZ_getHcp (d : Dev) (f : Zlk → Zlk) (i0 : Nat) : (d.setZ f).getHcp i0 = d.getHcp i0 := (rfl)
@[simp] theorem Dev.setZ_getMcv (d : Dev) (f : Zlk → Zlk) (i0 : Nat) : (d.setZ f).getMcv i0 = d.getMcv i0 := (rfl)
@[simp] theorem Dev.setZ_getCmp (d : Dev) (f : Zlk → Zlk) (i0 : Nat) : (d.setZ f).getCmp i0 = d.getCmp i0 := (rfl)
@[simp] theorem Dev.setZ_lane (d : Dev) (f : Zlk → Zlk) (i0 : Nat) : (d.setZ f).lane i0 = d.lane i0 := (rfl)
@[simp] theorem Dev.setZ_pad (d : Dev) (f : Zlk → Zlk) (i0 : Nat) : (d.setZ f).pad i0 = d.pad i0 := (rfl)
@[simp] theorem Dev.setZ_t (d : Dev) (f : Zlk → Zlk) : (d.setZ f).t = d.t := (rfl)

/-! `Dev.setPwr` -/

@[simp] theorem Dev.setPwr_now (d : Dev) (f : Pwr → Pwr) : (d.setPwr f).now = d.now := (rfl)
@[simp] theorem Dev.setPwr_tb (d : Dev) (f : Pwr → Pwr) : (d.setPwr f).tb = d.tb := (rfl)
@[simp] theorem Dev.setPwr_regs (d : Dev) (f : Pwr → Pwr) : (d.setPwr f).regs = d.regs := (rfl)
@[simp] theorem Dev.setPwr_sets (d : Dev) (f : Pwr → Pwr) : (d.setPwr f).sets = d.sets := (rfl)
@[simp] theorem Dev.setPwr_latch (d : Dev) (f : Pwr → Pwr) : (d.setPwr f).latch = d.latch := (rfl)
@[simp] theorem Dev.setPwr_rdata (d : Dev) (f : Pwr → Pwr) : (d.setPwr f).rdata = d.rdata := (rfl)
@[simp] theorem Dev.setPwr_free (d : Dev) (f : Pwr → Pwr) : (d.setPwr f).free = d.free := (rfl)
@[simp] theorem Dev.setPwr_evq (d : Dev) (f : Pwr → Pwr) : (d.setPwr f).evq = d.evq := (rfl)
@[simp] theorem Dev.setPwr_enc (d : Dev) (f : Pwr → Pwr) : (d.setPwr f).enc = d.enc := (rfl)
@[simp] theorem Dev.setPwr_cap (d : Dev) (f : Pwr → Pwr) : (d.setPwr f).cap = d.cap := (rfl)
@[simp] theorem Dev.setPwr_ltg (d : Dev) (f : Pwr → Pwr) : (d.setPwr f).ltg = d.ltg := (rfl)
@[simp] theorem Dev.setPwr_hcp (d : Dev) (f : Pwr → Pwr) : (d.setPwr f).hcp = d.hcp := (rfl)
@[simp] theorem Dev.setPwr_zlk (d : Dev) (f : Pwr → Pwr) : (d.setPwr f).zlk = d.zlk := (rfl)
@[simp] theorem Dev.setPwr_pwr (d : Dev) (f : Pwr → Pwr) : (d.setPwr f).pwr = f d.pwr := (rfl)
@[simp] theorem Dev.setPwr_kw (d : Dev) (f : Pwr → Pwr) : (d.setPwr f).kw = d.kw := (rfl)
@[simp] theorem Dev.setPwr_pcu (d : Dev) (f : Pwr → Pwr) : (d.setPwr f).pcu = d.pcu := (rfl)
@[simp] theorem Dev.setPwr_cal (d : Dev) (f : Pwr → Pwr) : (d.setPwr f).cal = d.cal := (rfl)
@[simp] theorem Dev.setPwr_anx (d : Dev) (f : Pwr → Pwr) : (d.setPwr f).anx = d.anx := (rfl)
@[simp] theorem Dev.setPwr_mcv (d : Dev) (f : Pwr → Pwr) : (d.setPwr f).mcv = d.mcv := (rfl)
@[simp] theorem Dev.setPwr_bank (d : Dev) (f : Pwr → Pwr) : (d.setPwr f).bank = d.bank := (rfl)
@[simp] theorem Dev.setPwr_fab (d : Dev) (f : Pwr → Pwr) : (d.setPwr f).fab = d.fab := (rfl)
@[simp] theorem Dev.setPwr_cfg (d : Dev) (f : Pwr → Pwr) : (d.setPwr f).cfg = d.cfg := (rfl)
@[simp] theorem Dev.setPwr_fuses (d : Dev) (f : Pwr → Pwr) : (d.setPwr f).fuses = d.fuses := (rfl)
@[simp] theorem Dev.setPwr_scb (d : Dev) (f : Pwr → Pwr) : (d.setPwr f).scb = d.scb := (rfl)
@[simp] theorem Dev.setPwr_lan (d : Dev) (f : Pwr → Pwr) : (d.setPwr f).lan = d.lan := (rfl)
@[simp] theorem Dev.setPwr_gpio (d : Dev) (f : Pwr → Pwr) : (d.setPwr f).gpio = d.gpio := (rfl)
@[simp] theorem Dev.setPwr_rreg (d : Dev) (f : Pwr → Pwr) (k0 : RegKind) (i0 : Nat) : (d.setPwr f).rreg k0 i0 = d.rreg k0 i0 := (rfl)
@[simp] theorem Dev.setPwr_rf (d : Dev) (f : Pwr → Pwr) (f0 : Fld) (i0 : Nat) : (d.setPwr f).rf f0 i0 = d.rf f0 i0 := (rfl)
@[simp] theorem Dev.setPwr_on (d : Dev) (f : Pwr → Pwr) (f0 : Fld) (i0 : Nat) : (d.setPwr f).on f0 i0 = d.on f0 i0 := (rfl)
@[simp] theorem Dev.setPwr_getEnc (d : Dev) (f : Pwr → Pwr) (i0 : Nat) : (d.setPwr f).getEnc i0 = d.getEnc i0 := (rfl)
@[simp] theorem Dev.setPwr_getCap (d : Dev) (f : Pwr → Pwr) (i0 : Nat) : (d.setPwr f).getCap i0 = d.getCap i0 := (rfl)
@[simp] theorem Dev.setPwr_getLtg (d : Dev) (f : Pwr → Pwr) (i0 : Nat) : (d.setPwr f).getLtg i0 = d.getLtg i0 := (rfl)
@[simp] theorem Dev.setPwr_getHcp (d : Dev) (f : Pwr → Pwr) (i0 : Nat) : (d.setPwr f).getHcp i0 = d.getHcp i0 := (rfl)
@[simp] theorem Dev.setPwr_getMcv (d : Dev) (f : Pwr → Pwr) (i0 : Nat) : (d.setPwr f).getMcv i0 = d.getMcv i0 := (rfl)
@[simp] theorem Dev.setPwr_getCmp (d : Dev) (f : Pwr → Pwr) (i0 : Nat) : (d.setPwr f).getCmp i0 = d.getCmp i0 := (rfl)
@[simp] theorem Dev.setPwr_lane (d : Dev) (f : Pwr → Pwr) (i0 : Nat) : (d.setPwr f).lane i0 = d.lane i0 := (rfl)
@[simp] theorem Dev.setPwr_pad (d : Dev) (f : Pwr → Pwr) (i0 : Nat) : (d.setPwr f).pad i0 = d.pad i0 := (rfl)
@[simp] theorem Dev.setPwr_t (d : Dev) (f : Pwr → Pwr) : (d.setPwr f).t = d.t := (rfl)

/-! `Dev.setKw` -/

@[simp] theorem Dev.setKw_now (d : Dev) (f : Kw → Kw) : (d.setKw f).now = d.now := (rfl)
@[simp] theorem Dev.setKw_tb (d : Dev) (f : Kw → Kw) : (d.setKw f).tb = d.tb := (rfl)
@[simp] theorem Dev.setKw_regs (d : Dev) (f : Kw → Kw) : (d.setKw f).regs = d.regs := (rfl)
@[simp] theorem Dev.setKw_sets (d : Dev) (f : Kw → Kw) : (d.setKw f).sets = d.sets := (rfl)
@[simp] theorem Dev.setKw_latch (d : Dev) (f : Kw → Kw) : (d.setKw f).latch = d.latch := (rfl)
@[simp] theorem Dev.setKw_rdata (d : Dev) (f : Kw → Kw) : (d.setKw f).rdata = d.rdata := (rfl)
@[simp] theorem Dev.setKw_free (d : Dev) (f : Kw → Kw) : (d.setKw f).free = d.free := (rfl)
@[simp] theorem Dev.setKw_evq (d : Dev) (f : Kw → Kw) : (d.setKw f).evq = d.evq := (rfl)
@[simp] theorem Dev.setKw_enc (d : Dev) (f : Kw → Kw) : (d.setKw f).enc = d.enc := (rfl)
@[simp] theorem Dev.setKw_cap (d : Dev) (f : Kw → Kw) : (d.setKw f).cap = d.cap := (rfl)
@[simp] theorem Dev.setKw_ltg (d : Dev) (f : Kw → Kw) : (d.setKw f).ltg = d.ltg := (rfl)
@[simp] theorem Dev.setKw_hcp (d : Dev) (f : Kw → Kw) : (d.setKw f).hcp = d.hcp := (rfl)
@[simp] theorem Dev.setKw_zlk (d : Dev) (f : Kw → Kw) : (d.setKw f).zlk = d.zlk := (rfl)
@[simp] theorem Dev.setKw_pwr (d : Dev) (f : Kw → Kw) : (d.setKw f).pwr = d.pwr := (rfl)
@[simp] theorem Dev.setKw_kw (d : Dev) (f : Kw → Kw) : (d.setKw f).kw = f d.kw := (rfl)
@[simp] theorem Dev.setKw_pcu (d : Dev) (f : Kw → Kw) : (d.setKw f).pcu = d.pcu := (rfl)
@[simp] theorem Dev.setKw_cal (d : Dev) (f : Kw → Kw) : (d.setKw f).cal = d.cal := (rfl)
@[simp] theorem Dev.setKw_anx (d : Dev) (f : Kw → Kw) : (d.setKw f).anx = d.anx := (rfl)
@[simp] theorem Dev.setKw_mcv (d : Dev) (f : Kw → Kw) : (d.setKw f).mcv = d.mcv := (rfl)
@[simp] theorem Dev.setKw_bank (d : Dev) (f : Kw → Kw) : (d.setKw f).bank = d.bank := (rfl)
@[simp] theorem Dev.setKw_fab (d : Dev) (f : Kw → Kw) : (d.setKw f).fab = d.fab := (rfl)
@[simp] theorem Dev.setKw_cfg (d : Dev) (f : Kw → Kw) : (d.setKw f).cfg = d.cfg := (rfl)
@[simp] theorem Dev.setKw_fuses (d : Dev) (f : Kw → Kw) : (d.setKw f).fuses = d.fuses := (rfl)
@[simp] theorem Dev.setKw_scb (d : Dev) (f : Kw → Kw) : (d.setKw f).scb = d.scb := (rfl)
@[simp] theorem Dev.setKw_lan (d : Dev) (f : Kw → Kw) : (d.setKw f).lan = d.lan := (rfl)
@[simp] theorem Dev.setKw_gpio (d : Dev) (f : Kw → Kw) : (d.setKw f).gpio = d.gpio := (rfl)
@[simp] theorem Dev.setKw_rreg (d : Dev) (f : Kw → Kw) (k0 : RegKind) (i0 : Nat) : (d.setKw f).rreg k0 i0 = d.rreg k0 i0 := (rfl)
@[simp] theorem Dev.setKw_rf (d : Dev) (f : Kw → Kw) (f0 : Fld) (i0 : Nat) : (d.setKw f).rf f0 i0 = d.rf f0 i0 := (rfl)
@[simp] theorem Dev.setKw_on (d : Dev) (f : Kw → Kw) (f0 : Fld) (i0 : Nat) : (d.setKw f).on f0 i0 = d.on f0 i0 := (rfl)
@[simp] theorem Dev.setKw_getEnc (d : Dev) (f : Kw → Kw) (i0 : Nat) : (d.setKw f).getEnc i0 = d.getEnc i0 := (rfl)
@[simp] theorem Dev.setKw_getCap (d : Dev) (f : Kw → Kw) (i0 : Nat) : (d.setKw f).getCap i0 = d.getCap i0 := (rfl)
@[simp] theorem Dev.setKw_getLtg (d : Dev) (f : Kw → Kw) (i0 : Nat) : (d.setKw f).getLtg i0 = d.getLtg i0 := (rfl)
@[simp] theorem Dev.setKw_getHcp (d : Dev) (f : Kw → Kw) (i0 : Nat) : (d.setKw f).getHcp i0 = d.getHcp i0 := (rfl)
@[simp] theorem Dev.setKw_getMcv (d : Dev) (f : Kw → Kw) (i0 : Nat) : (d.setKw f).getMcv i0 = d.getMcv i0 := (rfl)
@[simp] theorem Dev.setKw_getCmp (d : Dev) (f : Kw → Kw) (i0 : Nat) : (d.setKw f).getCmp i0 = d.getCmp i0 := (rfl)
@[simp] theorem Dev.setKw_lane (d : Dev) (f : Kw → Kw) (i0 : Nat) : (d.setKw f).lane i0 = d.lane i0 := (rfl)
@[simp] theorem Dev.setKw_pad (d : Dev) (f : Kw → Kw) (i0 : Nat) : (d.setKw f).pad i0 = d.pad i0 := (rfl)
@[simp] theorem Dev.setKw_t (d : Dev) (f : Kw → Kw) : (d.setKw f).t = d.t := (rfl)

/-! `Dev.setPcu` -/

@[simp] theorem Dev.setPcu_now (d : Dev) (f : Pcu → Pcu) : (d.setPcu f).now = d.now := (rfl)
@[simp] theorem Dev.setPcu_tb (d : Dev) (f : Pcu → Pcu) : (d.setPcu f).tb = d.tb := (rfl)
@[simp] theorem Dev.setPcu_regs (d : Dev) (f : Pcu → Pcu) : (d.setPcu f).regs = d.regs := (rfl)
@[simp] theorem Dev.setPcu_sets (d : Dev) (f : Pcu → Pcu) : (d.setPcu f).sets = d.sets := (rfl)
@[simp] theorem Dev.setPcu_latch (d : Dev) (f : Pcu → Pcu) : (d.setPcu f).latch = d.latch := (rfl)
@[simp] theorem Dev.setPcu_rdata (d : Dev) (f : Pcu → Pcu) : (d.setPcu f).rdata = d.rdata := (rfl)
@[simp] theorem Dev.setPcu_free (d : Dev) (f : Pcu → Pcu) : (d.setPcu f).free = d.free := (rfl)
@[simp] theorem Dev.setPcu_evq (d : Dev) (f : Pcu → Pcu) : (d.setPcu f).evq = d.evq := (rfl)
@[simp] theorem Dev.setPcu_enc (d : Dev) (f : Pcu → Pcu) : (d.setPcu f).enc = d.enc := (rfl)
@[simp] theorem Dev.setPcu_cap (d : Dev) (f : Pcu → Pcu) : (d.setPcu f).cap = d.cap := (rfl)
@[simp] theorem Dev.setPcu_ltg (d : Dev) (f : Pcu → Pcu) : (d.setPcu f).ltg = d.ltg := (rfl)
@[simp] theorem Dev.setPcu_hcp (d : Dev) (f : Pcu → Pcu) : (d.setPcu f).hcp = d.hcp := (rfl)
@[simp] theorem Dev.setPcu_zlk (d : Dev) (f : Pcu → Pcu) : (d.setPcu f).zlk = d.zlk := (rfl)
@[simp] theorem Dev.setPcu_pwr (d : Dev) (f : Pcu → Pcu) : (d.setPcu f).pwr = d.pwr := (rfl)
@[simp] theorem Dev.setPcu_kw (d : Dev) (f : Pcu → Pcu) : (d.setPcu f).kw = d.kw := (rfl)
@[simp] theorem Dev.setPcu_pcu (d : Dev) (f : Pcu → Pcu) : (d.setPcu f).pcu = f d.pcu := (rfl)
@[simp] theorem Dev.setPcu_cal (d : Dev) (f : Pcu → Pcu) : (d.setPcu f).cal = d.cal := (rfl)
@[simp] theorem Dev.setPcu_anx (d : Dev) (f : Pcu → Pcu) : (d.setPcu f).anx = d.anx := (rfl)
@[simp] theorem Dev.setPcu_mcv (d : Dev) (f : Pcu → Pcu) : (d.setPcu f).mcv = d.mcv := (rfl)
@[simp] theorem Dev.setPcu_bank (d : Dev) (f : Pcu → Pcu) : (d.setPcu f).bank = d.bank := (rfl)
@[simp] theorem Dev.setPcu_fab (d : Dev) (f : Pcu → Pcu) : (d.setPcu f).fab = d.fab := (rfl)
@[simp] theorem Dev.setPcu_cfg (d : Dev) (f : Pcu → Pcu) : (d.setPcu f).cfg = d.cfg := (rfl)
@[simp] theorem Dev.setPcu_fuses (d : Dev) (f : Pcu → Pcu) : (d.setPcu f).fuses = d.fuses := (rfl)
@[simp] theorem Dev.setPcu_scb (d : Dev) (f : Pcu → Pcu) : (d.setPcu f).scb = d.scb := (rfl)
@[simp] theorem Dev.setPcu_lan (d : Dev) (f : Pcu → Pcu) : (d.setPcu f).lan = d.lan := (rfl)
@[simp] theorem Dev.setPcu_gpio (d : Dev) (f : Pcu → Pcu) : (d.setPcu f).gpio = d.gpio := (rfl)
@[simp] theorem Dev.setPcu_rreg (d : Dev) (f : Pcu → Pcu) (k0 : RegKind) (i0 : Nat) : (d.setPcu f).rreg k0 i0 = d.rreg k0 i0 := (rfl)
@[simp] theorem Dev.setPcu_rf (d : Dev) (f : Pcu → Pcu) (f0 : Fld) (i0 : Nat) : (d.setPcu f).rf f0 i0 = d.rf f0 i0 := (rfl)
@[simp] theorem Dev.setPcu_on (d : Dev) (f : Pcu → Pcu) (f0 : Fld) (i0 : Nat) : (d.setPcu f).on f0 i0 = d.on f0 i0 := (rfl)
@[simp] theorem Dev.setPcu_getEnc (d : Dev) (f : Pcu → Pcu) (i0 : Nat) : (d.setPcu f).getEnc i0 = d.getEnc i0 := (rfl)
@[simp] theorem Dev.setPcu_getCap (d : Dev) (f : Pcu → Pcu) (i0 : Nat) : (d.setPcu f).getCap i0 = d.getCap i0 := (rfl)
@[simp] theorem Dev.setPcu_getLtg (d : Dev) (f : Pcu → Pcu) (i0 : Nat) : (d.setPcu f).getLtg i0 = d.getLtg i0 := (rfl)
@[simp] theorem Dev.setPcu_getHcp (d : Dev) (f : Pcu → Pcu) (i0 : Nat) : (d.setPcu f).getHcp i0 = d.getHcp i0 := (rfl)
@[simp] theorem Dev.setPcu_getMcv (d : Dev) (f : Pcu → Pcu) (i0 : Nat) : (d.setPcu f).getMcv i0 = d.getMcv i0 := (rfl)
@[simp] theorem Dev.setPcu_getCmp (d : Dev) (f : Pcu → Pcu) (i0 : Nat) : (d.setPcu f).getCmp i0 = d.getCmp i0 := (rfl)
@[simp] theorem Dev.setPcu_lane (d : Dev) (f : Pcu → Pcu) (i0 : Nat) : (d.setPcu f).lane i0 = d.lane i0 := (rfl)
@[simp] theorem Dev.setPcu_pad (d : Dev) (f : Pcu → Pcu) (i0 : Nat) : (d.setPcu f).pad i0 = d.pad i0 := (rfl)
@[simp] theorem Dev.setPcu_t (d : Dev) (f : Pcu → Pcu) : (d.setPcu f).t = d.t := (rfl)

/-! `Dev.setCal` -/

@[simp] theorem Dev.setCal_now (d : Dev) (f : Cal → Cal) : (d.setCal f).now = d.now := (rfl)
@[simp] theorem Dev.setCal_tb (d : Dev) (f : Cal → Cal) : (d.setCal f).tb = d.tb := (rfl)
@[simp] theorem Dev.setCal_regs (d : Dev) (f : Cal → Cal) : (d.setCal f).regs = d.regs := (rfl)
@[simp] theorem Dev.setCal_sets (d : Dev) (f : Cal → Cal) : (d.setCal f).sets = d.sets := (rfl)
@[simp] theorem Dev.setCal_latch (d : Dev) (f : Cal → Cal) : (d.setCal f).latch = d.latch := (rfl)
@[simp] theorem Dev.setCal_rdata (d : Dev) (f : Cal → Cal) : (d.setCal f).rdata = d.rdata := (rfl)
@[simp] theorem Dev.setCal_free (d : Dev) (f : Cal → Cal) : (d.setCal f).free = d.free := (rfl)
@[simp] theorem Dev.setCal_evq (d : Dev) (f : Cal → Cal) : (d.setCal f).evq = d.evq := (rfl)
@[simp] theorem Dev.setCal_enc (d : Dev) (f : Cal → Cal) : (d.setCal f).enc = d.enc := (rfl)
@[simp] theorem Dev.setCal_cap (d : Dev) (f : Cal → Cal) : (d.setCal f).cap = d.cap := (rfl)
@[simp] theorem Dev.setCal_ltg (d : Dev) (f : Cal → Cal) : (d.setCal f).ltg = d.ltg := (rfl)
@[simp] theorem Dev.setCal_hcp (d : Dev) (f : Cal → Cal) : (d.setCal f).hcp = d.hcp := (rfl)
@[simp] theorem Dev.setCal_zlk (d : Dev) (f : Cal → Cal) : (d.setCal f).zlk = d.zlk := (rfl)
@[simp] theorem Dev.setCal_pwr (d : Dev) (f : Cal → Cal) : (d.setCal f).pwr = d.pwr := (rfl)
@[simp] theorem Dev.setCal_kw (d : Dev) (f : Cal → Cal) : (d.setCal f).kw = d.kw := (rfl)
@[simp] theorem Dev.setCal_pcu (d : Dev) (f : Cal → Cal) : (d.setCal f).pcu = d.pcu := (rfl)
@[simp] theorem Dev.setCal_cal (d : Dev) (f : Cal → Cal) : (d.setCal f).cal = f d.cal := (rfl)
@[simp] theorem Dev.setCal_anx (d : Dev) (f : Cal → Cal) : (d.setCal f).anx = d.anx := (rfl)
@[simp] theorem Dev.setCal_mcv (d : Dev) (f : Cal → Cal) : (d.setCal f).mcv = d.mcv := (rfl)
@[simp] theorem Dev.setCal_bank (d : Dev) (f : Cal → Cal) : (d.setCal f).bank = d.bank := (rfl)
@[simp] theorem Dev.setCal_fab (d : Dev) (f : Cal → Cal) : (d.setCal f).fab = d.fab := (rfl)
@[simp] theorem Dev.setCal_cfg (d : Dev) (f : Cal → Cal) : (d.setCal f).cfg = d.cfg := (rfl)
@[simp] theorem Dev.setCal_fuses (d : Dev) (f : Cal → Cal) : (d.setCal f).fuses = d.fuses := (rfl)
@[simp] theorem Dev.setCal_scb (d : Dev) (f : Cal → Cal) : (d.setCal f).scb = d.scb := (rfl)
@[simp] theorem Dev.setCal_lan (d : Dev) (f : Cal → Cal) : (d.setCal f).lan = d.lan := (rfl)
@[simp] theorem Dev.setCal_gpio (d : Dev) (f : Cal → Cal) : (d.setCal f).gpio = d.gpio := (rfl)
@[simp] theorem Dev.setCal_rreg (d : Dev) (f : Cal → Cal) (k0 : RegKind) (i0 : Nat) : (d.setCal f).rreg k0 i0 = d.rreg k0 i0 := (rfl)
@[simp] theorem Dev.setCal_rf (d : Dev) (f : Cal → Cal) (f0 : Fld) (i0 : Nat) : (d.setCal f).rf f0 i0 = d.rf f0 i0 := (rfl)
@[simp] theorem Dev.setCal_on (d : Dev) (f : Cal → Cal) (f0 : Fld) (i0 : Nat) : (d.setCal f).on f0 i0 = d.on f0 i0 := (rfl)
@[simp] theorem Dev.setCal_getEnc (d : Dev) (f : Cal → Cal) (i0 : Nat) : (d.setCal f).getEnc i0 = d.getEnc i0 := (rfl)
@[simp] theorem Dev.setCal_getCap (d : Dev) (f : Cal → Cal) (i0 : Nat) : (d.setCal f).getCap i0 = d.getCap i0 := (rfl)
@[simp] theorem Dev.setCal_getLtg (d : Dev) (f : Cal → Cal) (i0 : Nat) : (d.setCal f).getLtg i0 = d.getLtg i0 := (rfl)
@[simp] theorem Dev.setCal_getHcp (d : Dev) (f : Cal → Cal) (i0 : Nat) : (d.setCal f).getHcp i0 = d.getHcp i0 := (rfl)
@[simp] theorem Dev.setCal_getMcv (d : Dev) (f : Cal → Cal) (i0 : Nat) : (d.setCal f).getMcv i0 = d.getMcv i0 := (rfl)
@[simp] theorem Dev.setCal_getCmp (d : Dev) (f : Cal → Cal) (i0 : Nat) : (d.setCal f).getCmp i0 = d.getCmp i0 := (rfl)
@[simp] theorem Dev.setCal_lane (d : Dev) (f : Cal → Cal) (i0 : Nat) : (d.setCal f).lane i0 = d.lane i0 := (rfl)
@[simp] theorem Dev.setCal_pad (d : Dev) (f : Cal → Cal) (i0 : Nat) : (d.setCal f).pad i0 = d.pad i0 := (rfl)
@[simp] theorem Dev.setCal_t (d : Dev) (f : Cal → Cal) : (d.setCal f).t = d.t := (rfl)

/-! `Dev.setAnx` -/

@[simp] theorem Dev.setAnx_now (d : Dev) (f : Anx → Anx) : (d.setAnx f).now = d.now := (rfl)
@[simp] theorem Dev.setAnx_tb (d : Dev) (f : Anx → Anx) : (d.setAnx f).tb = d.tb := (rfl)
@[simp] theorem Dev.setAnx_regs (d : Dev) (f : Anx → Anx) : (d.setAnx f).regs = d.regs := (rfl)
@[simp] theorem Dev.setAnx_sets (d : Dev) (f : Anx → Anx) : (d.setAnx f).sets = d.sets := (rfl)
@[simp] theorem Dev.setAnx_latch (d : Dev) (f : Anx → Anx) : (d.setAnx f).latch = d.latch := (rfl)
@[simp] theorem Dev.setAnx_rdata (d : Dev) (f : Anx → Anx) : (d.setAnx f).rdata = d.rdata := (rfl)
@[simp] theorem Dev.setAnx_free (d : Dev) (f : Anx → Anx) : (d.setAnx f).free = d.free := (rfl)
@[simp] theorem Dev.setAnx_evq (d : Dev) (f : Anx → Anx) : (d.setAnx f).evq = d.evq := (rfl)
@[simp] theorem Dev.setAnx_enc (d : Dev) (f : Anx → Anx) : (d.setAnx f).enc = d.enc := (rfl)
@[simp] theorem Dev.setAnx_cap (d : Dev) (f : Anx → Anx) : (d.setAnx f).cap = d.cap := (rfl)
@[simp] theorem Dev.setAnx_ltg (d : Dev) (f : Anx → Anx) : (d.setAnx f).ltg = d.ltg := (rfl)
@[simp] theorem Dev.setAnx_hcp (d : Dev) (f : Anx → Anx) : (d.setAnx f).hcp = d.hcp := (rfl)
@[simp] theorem Dev.setAnx_zlk (d : Dev) (f : Anx → Anx) : (d.setAnx f).zlk = d.zlk := (rfl)
@[simp] theorem Dev.setAnx_pwr (d : Dev) (f : Anx → Anx) : (d.setAnx f).pwr = d.pwr := (rfl)
@[simp] theorem Dev.setAnx_kw (d : Dev) (f : Anx → Anx) : (d.setAnx f).kw = d.kw := (rfl)
@[simp] theorem Dev.setAnx_pcu (d : Dev) (f : Anx → Anx) : (d.setAnx f).pcu = d.pcu := (rfl)
@[simp] theorem Dev.setAnx_cal (d : Dev) (f : Anx → Anx) : (d.setAnx f).cal = d.cal := (rfl)
@[simp] theorem Dev.setAnx_anx (d : Dev) (f : Anx → Anx) : (d.setAnx f).anx = f d.anx := (rfl)
@[simp] theorem Dev.setAnx_mcv (d : Dev) (f : Anx → Anx) : (d.setAnx f).mcv = d.mcv := (rfl)
@[simp] theorem Dev.setAnx_bank (d : Dev) (f : Anx → Anx) : (d.setAnx f).bank = d.bank := (rfl)
@[simp] theorem Dev.setAnx_fab (d : Dev) (f : Anx → Anx) : (d.setAnx f).fab = d.fab := (rfl)
@[simp] theorem Dev.setAnx_cfg (d : Dev) (f : Anx → Anx) : (d.setAnx f).cfg = d.cfg := (rfl)
@[simp] theorem Dev.setAnx_fuses (d : Dev) (f : Anx → Anx) : (d.setAnx f).fuses = d.fuses := (rfl)
@[simp] theorem Dev.setAnx_scb (d : Dev) (f : Anx → Anx) : (d.setAnx f).scb = d.scb := (rfl)
@[simp] theorem Dev.setAnx_lan (d : Dev) (f : Anx → Anx) : (d.setAnx f).lan = d.lan := (rfl)
@[simp] theorem Dev.setAnx_gpio (d : Dev) (f : Anx → Anx) : (d.setAnx f).gpio = d.gpio := (rfl)
@[simp] theorem Dev.setAnx_rreg (d : Dev) (f : Anx → Anx) (k0 : RegKind) (i0 : Nat) : (d.setAnx f).rreg k0 i0 = d.rreg k0 i0 := (rfl)
@[simp] theorem Dev.setAnx_rf (d : Dev) (f : Anx → Anx) (f0 : Fld) (i0 : Nat) : (d.setAnx f).rf f0 i0 = d.rf f0 i0 := (rfl)
@[simp] theorem Dev.setAnx_on (d : Dev) (f : Anx → Anx) (f0 : Fld) (i0 : Nat) : (d.setAnx f).on f0 i0 = d.on f0 i0 := (rfl)
@[simp] theorem Dev.setAnx_getEnc (d : Dev) (f : Anx → Anx) (i0 : Nat) : (d.setAnx f).getEnc i0 = d.getEnc i0 := (rfl)
@[simp] theorem Dev.setAnx_getCap (d : Dev) (f : Anx → Anx) (i0 : Nat) : (d.setAnx f).getCap i0 = d.getCap i0 := (rfl)
@[simp] theorem Dev.setAnx_getLtg (d : Dev) (f : Anx → Anx) (i0 : Nat) : (d.setAnx f).getLtg i0 = d.getLtg i0 := (rfl)
@[simp] theorem Dev.setAnx_getHcp (d : Dev) (f : Anx → Anx) (i0 : Nat) : (d.setAnx f).getHcp i0 = d.getHcp i0 := (rfl)
@[simp] theorem Dev.setAnx_getMcv (d : Dev) (f : Anx → Anx) (i0 : Nat) : (d.setAnx f).getMcv i0 = d.getMcv i0 := (rfl)
@[simp] theorem Dev.setAnx_lane (d : Dev) (f : Anx → Anx) (i0 : Nat) : (d.setAnx f).lane i0 = d.lane i0 := (rfl)
@[simp] theorem Dev.setAnx_pad (d : Dev) (f : Anx → Anx) (i0 : Nat) : (d.setAnx f).pad i0 = d.pad i0 := (rfl)
@[simp] theorem Dev.setAnx_t (d : Dev) (f : Anx → Anx) : (d.setAnx f).t = d.t := (rfl)

/-! `Dev.setMcv` -/

@[simp] theorem Dev.setMcv_now (d : Dev) (m : Nat) (x : Mcv) : (d.setMcv m x).now = d.now := (rfl)
@[simp] theorem Dev.setMcv_tb (d : Dev) (m : Nat) (x : Mcv) : (d.setMcv m x).tb = d.tb := (rfl)
@[simp] theorem Dev.setMcv_regs (d : Dev) (m : Nat) (x : Mcv) : (d.setMcv m x).regs = d.regs := (rfl)
@[simp] theorem Dev.setMcv_sets (d : Dev) (m : Nat) (x : Mcv) : (d.setMcv m x).sets = d.sets := (rfl)
@[simp] theorem Dev.setMcv_latch (d : Dev) (m : Nat) (x : Mcv) : (d.setMcv m x).latch = d.latch := (rfl)
@[simp] theorem Dev.setMcv_rdata (d : Dev) (m : Nat) (x : Mcv) : (d.setMcv m x).rdata = d.rdata := (rfl)
@[simp] theorem Dev.setMcv_free (d : Dev) (m : Nat) (x : Mcv) : (d.setMcv m x).free = d.free := (rfl)
@[simp] theorem Dev.setMcv_evq (d : Dev) (m : Nat) (x : Mcv) : (d.setMcv m x).evq = d.evq := (rfl)
@[simp] theorem Dev.setMcv_enc (d : Dev) (m : Nat) (x : Mcv) : (d.setMcv m x).enc = d.enc := (rfl)
@[simp] theorem Dev.setMcv_cap (d : Dev) (m : Nat) (x : Mcv) : (d.setMcv m x).cap = d.cap := (rfl)
@[simp] theorem Dev.setMcv_ltg (d : Dev) (m : Nat) (x : Mcv) : (d.setMcv m x).ltg = d.ltg := (rfl)
@[simp] theorem Dev.setMcv_hcp (d : Dev) (m : Nat) (x : Mcv) : (d.setMcv m x).hcp = d.hcp := (rfl)
@[simp] theorem Dev.setMcv_zlk (d : Dev) (m : Nat) (x : Mcv) : (d.setMcv m x).zlk = d.zlk := (rfl)
@[simp] theorem Dev.setMcv_pwr (d : Dev) (m : Nat) (x : Mcv) : (d.setMcv m x).pwr = d.pwr := (rfl)
@[simp] theorem Dev.setMcv_kw (d : Dev) (m : Nat) (x : Mcv) : (d.setMcv m x).kw = d.kw := (rfl)
@[simp] theorem Dev.setMcv_pcu (d : Dev) (m : Nat) (x : Mcv) : (d.setMcv m x).pcu = d.pcu := (rfl)
@[simp] theorem Dev.setMcv_cal (d : Dev) (m : Nat) (x : Mcv) : (d.setMcv m x).cal = d.cal := (rfl)
@[simp] theorem Dev.setMcv_anx (d : Dev) (m : Nat) (x : Mcv) : (d.setMcv m x).anx = d.anx := (rfl)
@[simp] theorem Dev.setMcv_mcv (d : Dev) (m : Nat) (x : Mcv) : (d.setMcv m x).mcv = tset d.mcv .reset m x := (rfl)
@[simp] theorem Dev.setMcv_bank (d : Dev) (m : Nat) (x : Mcv) : (d.setMcv m x).bank = d.bank := (rfl)
@[simp] theorem Dev.setMcv_fab (d : Dev) (m : Nat) (x : Mcv) : (d.setMcv m x).fab = d.fab := (rfl)
@[simp] theorem Dev.setMcv_cfg (d : Dev) (m : Nat) (x : Mcv) : (d.setMcv m x).cfg = d.cfg := (rfl)
@[simp] theorem Dev.setMcv_fuses (d : Dev) (m : Nat) (x : Mcv) : (d.setMcv m x).fuses = d.fuses := (rfl)
@[simp] theorem Dev.setMcv_scb (d : Dev) (m : Nat) (x : Mcv) : (d.setMcv m x).scb = d.scb := (rfl)
@[simp] theorem Dev.setMcv_lan (d : Dev) (m : Nat) (x : Mcv) : (d.setMcv m x).lan = d.lan := (rfl)
@[simp] theorem Dev.setMcv_gpio (d : Dev) (m : Nat) (x : Mcv) : (d.setMcv m x).gpio = d.gpio := (rfl)
@[simp] theorem Dev.setMcv_rreg (d : Dev) (m : Nat) (x : Mcv) (k0 : RegKind) (i0 : Nat) : (d.setMcv m x).rreg k0 i0 = d.rreg k0 i0 := (rfl)
@[simp] theorem Dev.setMcv_rf (d : Dev) (m : Nat) (x : Mcv) (f0 : Fld) (i0 : Nat) : (d.setMcv m x).rf f0 i0 = d.rf f0 i0 := (rfl)
@[simp] theorem Dev.setMcv_on (d : Dev) (m : Nat) (x : Mcv) (f0 : Fld) (i0 : Nat) : (d.setMcv m x).on f0 i0 = d.on f0 i0 := (rfl)
@[simp] theorem Dev.setMcv_getEnc (d : Dev) (m : Nat) (x : Mcv) (i0 : Nat) : (d.setMcv m x).getEnc i0 = d.getEnc i0 := (rfl)
@[simp] theorem Dev.setMcv_getCap (d : Dev) (m : Nat) (x : Mcv) (i0 : Nat) : (d.setMcv m x).getCap i0 = d.getCap i0 := (rfl)
@[simp] theorem Dev.setMcv_getLtg (d : Dev) (m : Nat) (x : Mcv) (i0 : Nat) : (d.setMcv m x).getLtg i0 = d.getLtg i0 := (rfl)
@[simp] theorem Dev.setMcv_getHcp (d : Dev) (m : Nat) (x : Mcv) (i0 : Nat) : (d.setMcv m x).getHcp i0 = d.getHcp i0 := (rfl)
@[simp] theorem Dev.setMcv_getCmp (d : Dev) (m : Nat) (x : Mcv) (i0 : Nat) : (d.setMcv m x).getCmp i0 = d.getCmp i0 := (rfl)
@[simp] theorem Dev.setMcv_lane (d : Dev) (m : Nat) (x : Mcv) (i0 : Nat) : (d.setMcv m x).lane i0 = d.lane i0 := (rfl)
@[simp] theorem Dev.setMcv_pad (d : Dev) (m : Nat) (x : Mcv) (i0 : Nat) : (d.setMcv m x).pad i0 = d.pad i0 := (rfl)
@[simp] theorem Dev.setMcv_t (d : Dev) (m : Nat) (x : Mcv) : (d.setMcv m x).t = d.t := (rfl)

/-! `Dev.setBank` -/

@[simp] theorem Dev.setBank_now (d : Dev) (f : Mem → Mem) : (d.setBank f).now = d.now := (rfl)
@[simp] theorem Dev.setBank_tb (d : Dev) (f : Mem → Mem) : (d.setBank f).tb = d.tb := (rfl)
@[simp] theorem Dev.setBank_regs (d : Dev) (f : Mem → Mem) : (d.setBank f).regs = d.regs := (rfl)
@[simp] theorem Dev.setBank_sets (d : Dev) (f : Mem → Mem) : (d.setBank f).sets = d.sets := (rfl)
@[simp] theorem Dev.setBank_latch (d : Dev) (f : Mem → Mem) : (d.setBank f).latch = d.latch := (rfl)
@[simp] theorem Dev.setBank_rdata (d : Dev) (f : Mem → Mem) : (d.setBank f).rdata = d.rdata := (rfl)
@[simp] theorem Dev.setBank_free (d : Dev) (f : Mem → Mem) : (d.setBank f).free = d.free := (rfl)
@[simp] theorem Dev.setBank_evq (d : Dev) (f : Mem → Mem) : (d.setBank f).evq = d.evq := (rfl)
@[simp] theorem Dev.setBank_enc (d : Dev) (f : Mem → Mem) : (d.setBank f).enc = d.enc := (rfl)
@[simp] theorem Dev.setBank_cap (d : Dev) (f : Mem → Mem) : (d.setBank f).cap = d.cap := (rfl)
@[simp] theorem Dev.setBank_ltg (d : Dev) (f : Mem → Mem) : (d.setBank f).ltg = d.ltg := (rfl)
@[simp] theorem Dev.setBank_hcp (d : Dev) (f : Mem → Mem) : (d.setBank f).hcp = d.hcp := (rfl)
@[simp] theorem Dev.setBank_zlk (d : Dev) (f : Mem → Mem) : (d.setBank f).zlk = d.zlk := (rfl)
@[simp] theorem Dev.setBank_pwr (d : Dev) (f : Mem → Mem) : (d.setBank f).pwr = d.pwr := (rfl)
@[simp] theorem Dev.setBank_kw (d : Dev) (f : Mem → Mem) : (d.setBank f).kw = d.kw := (rfl)
@[simp] theorem Dev.setBank_pcu (d : Dev) (f : Mem → Mem) : (d.setBank f).pcu = d.pcu := (rfl)
@[simp] theorem Dev.setBank_cal (d : Dev) (f : Mem → Mem) : (d.setBank f).cal = d.cal := (rfl)
@[simp] theorem Dev.setBank_anx (d : Dev) (f : Mem → Mem) : (d.setBank f).anx = d.anx := (rfl)
@[simp] theorem Dev.setBank_mcv (d : Dev) (f : Mem → Mem) : (d.setBank f).mcv = d.mcv := (rfl)
@[simp] theorem Dev.setBank_bank (d : Dev) (f : Mem → Mem) : (d.setBank f).bank = f d.bank := (rfl)
@[simp] theorem Dev.setBank_fab (d : Dev) (f : Mem → Mem) : (d.setBank f).fab = d.fab := (rfl)
@[simp] theorem Dev.setBank_cfg (d : Dev) (f : Mem → Mem) : (d.setBank f).cfg = d.cfg := (rfl)
@[simp] theorem Dev.setBank_fuses (d : Dev) (f : Mem → Mem) : (d.setBank f).fuses = d.fuses := (rfl)
@[simp] theorem Dev.setBank_scb (d : Dev) (f : Mem → Mem) : (d.setBank f).scb = d.scb := (rfl)
@[simp] theorem Dev.setBank_lan (d : Dev) (f : Mem → Mem) : (d.setBank f).lan = d.lan := (rfl)
@[simp] theorem Dev.setBank_gpio (d : Dev) (f : Mem → Mem) : (d.setBank f).gpio = d.gpio := (rfl)
@[simp] theorem Dev.setBank_rreg (d : Dev) (f : Mem → Mem) (k0 : RegKind) (i0 : Nat) : (d.setBank f).rreg k0 i0 = d.rreg k0 i0 := (rfl)
@[simp] theorem Dev.setBank_rf (d : Dev) (f : Mem → Mem) (f0 : Fld) (i0 : Nat) : (d.setBank f).rf f0 i0 = d.rf f0 i0 := (rfl)
@[simp] theorem Dev.setBank_on (d : Dev) (f : Mem → Mem) (f0 : Fld) (i0 : Nat) : (d.setBank f).on f0 i0 = d.on f0 i0 := (rfl)
@[simp] theorem Dev.setBank_getEnc (d : Dev) (f : Mem → Mem) (i0 : Nat) : (d.setBank f).getEnc i0 = d.getEnc i0 := (rfl)
@[simp] theorem Dev.setBank_getCap (d : Dev) (f : Mem → Mem) (i0 : Nat) : (d.setBank f).getCap i0 = d.getCap i0 := (rfl)
@[simp] theorem Dev.setBank_getLtg (d : Dev) (f : Mem → Mem) (i0 : Nat) : (d.setBank f).getLtg i0 = d.getLtg i0 := (rfl)
@[simp] theorem Dev.setBank_getHcp (d : Dev) (f : Mem → Mem) (i0 : Nat) : (d.setBank f).getHcp i0 = d.getHcp i0 := (rfl)
@[simp] theorem Dev.setBank_getMcv (d : Dev) (f : Mem → Mem) (i0 : Nat) : (d.setBank f).getMcv i0 = d.getMcv i0 := (rfl)
@[simp] theorem Dev.setBank_getCmp (d : Dev) (f : Mem → Mem) (i0 : Nat) : (d.setBank f).getCmp i0 = d.getCmp i0 := (rfl)
@[simp] theorem Dev.setBank_lane (d : Dev) (f : Mem → Mem) (i0 : Nat) : (d.setBank f).lane i0 = d.lane i0 := (rfl)
@[simp] theorem Dev.setBank_pad (d : Dev) (f : Mem → Mem) (i0 : Nat) : (d.setBank f).pad i0 = d.pad i0 := (rfl)
@[simp] theorem Dev.setBank_t (d : Dev) (f : Mem → Mem) : (d.setBank f).t = d.t := (rfl)

/-! `Dev.setFab` -/

@[simp] theorem Dev.setFab_now (d : Dev) (f : Fab → Fab) : (d.setFab f).now = d.now := (rfl)
@[simp] theorem Dev.setFab_tb (d : Dev) (f : Fab → Fab) : (d.setFab f).tb = d.tb := (rfl)
@[simp] theorem Dev.setFab_regs (d : Dev) (f : Fab → Fab) : (d.setFab f).regs = d.regs := (rfl)
@[simp] theorem Dev.setFab_sets (d : Dev) (f : Fab → Fab) : (d.setFab f).sets = d.sets := (rfl)
@[simp] theorem Dev.setFab_latch (d : Dev) (f : Fab → Fab) : (d.setFab f).latch = d.latch := (rfl)
@[simp] theorem Dev.setFab_rdata (d : Dev) (f : Fab → Fab) : (d.setFab f).rdata = d.rdata := (rfl)
@[simp] theorem Dev.setFab_free (d : Dev) (f : Fab → Fab) : (d.setFab f).free = d.free := (rfl)
@[simp] theorem Dev.setFab_evq (d : Dev) (f : Fab → Fab) : (d.setFab f).evq = d.evq := (rfl)
@[simp] theorem Dev.setFab_enc (d : Dev) (f : Fab → Fab) : (d.setFab f).enc = d.enc := (rfl)
@[simp] theorem Dev.setFab_cap (d : Dev) (f : Fab → Fab) : (d.setFab f).cap = d.cap := (rfl)
@[simp] theorem Dev.setFab_ltg (d : Dev) (f : Fab → Fab) : (d.setFab f).ltg = d.ltg := (rfl)
@[simp] theorem Dev.setFab_hcp (d : Dev) (f : Fab → Fab) : (d.setFab f).hcp = d.hcp := (rfl)
@[simp] theorem Dev.setFab_zlk (d : Dev) (f : Fab → Fab) : (d.setFab f).zlk = d.zlk := (rfl)
@[simp] theorem Dev.setFab_pwr (d : Dev) (f : Fab → Fab) : (d.setFab f).pwr = d.pwr := (rfl)
@[simp] theorem Dev.setFab_kw (d : Dev) (f : Fab → Fab) : (d.setFab f).kw = d.kw := (rfl)
@[simp] theorem Dev.setFab_pcu (d : Dev) (f : Fab → Fab) : (d.setFab f).pcu = d.pcu := (rfl)
@[simp] theorem Dev.setFab_cal (d : Dev) (f : Fab → Fab) : (d.setFab f).cal = d.cal := (rfl)
@[simp] theorem Dev.setFab_anx (d : Dev) (f : Fab → Fab) : (d.setFab f).anx = d.anx := (rfl)
@[simp] theorem Dev.setFab_mcv (d : Dev) (f : Fab → Fab) : (d.setFab f).mcv = d.mcv := (rfl)
@[simp] theorem Dev.setFab_bank (d : Dev) (f : Fab → Fab) : (d.setFab f).bank = d.bank := (rfl)
@[simp] theorem Dev.setFab_fab (d : Dev) (f : Fab → Fab) : (d.setFab f).fab = f d.fab := (rfl)
@[simp] theorem Dev.setFab_cfg (d : Dev) (f : Fab → Fab) : (d.setFab f).cfg = d.cfg := (rfl)
@[simp] theorem Dev.setFab_fuses (d : Dev) (f : Fab → Fab) : (d.setFab f).fuses = d.fuses := (rfl)
@[simp] theorem Dev.setFab_scb (d : Dev) (f : Fab → Fab) : (d.setFab f).scb = d.scb := (rfl)
@[simp] theorem Dev.setFab_lan (d : Dev) (f : Fab → Fab) : (d.setFab f).lan = d.lan := (rfl)
@[simp] theorem Dev.setFab_gpio (d : Dev) (f : Fab → Fab) : (d.setFab f).gpio = d.gpio := (rfl)
@[simp] theorem Dev.setFab_rreg (d : Dev) (f : Fab → Fab) (k0 : RegKind) (i0 : Nat) : (d.setFab f).rreg k0 i0 = d.rreg k0 i0 := (rfl)
@[simp] theorem Dev.setFab_rf (d : Dev) (f : Fab → Fab) (f0 : Fld) (i0 : Nat) : (d.setFab f).rf f0 i0 = d.rf f0 i0 := (rfl)
@[simp] theorem Dev.setFab_on (d : Dev) (f : Fab → Fab) (f0 : Fld) (i0 : Nat) : (d.setFab f).on f0 i0 = d.on f0 i0 := (rfl)
@[simp] theorem Dev.setFab_getEnc (d : Dev) (f : Fab → Fab) (i0 : Nat) : (d.setFab f).getEnc i0 = d.getEnc i0 := (rfl)
@[simp] theorem Dev.setFab_getCap (d : Dev) (f : Fab → Fab) (i0 : Nat) : (d.setFab f).getCap i0 = d.getCap i0 := (rfl)
@[simp] theorem Dev.setFab_getLtg (d : Dev) (f : Fab → Fab) (i0 : Nat) : (d.setFab f).getLtg i0 = d.getLtg i0 := (rfl)
@[simp] theorem Dev.setFab_getHcp (d : Dev) (f : Fab → Fab) (i0 : Nat) : (d.setFab f).getHcp i0 = d.getHcp i0 := (rfl)
@[simp] theorem Dev.setFab_getMcv (d : Dev) (f : Fab → Fab) (i0 : Nat) : (d.setFab f).getMcv i0 = d.getMcv i0 := (rfl)
@[simp] theorem Dev.setFab_getCmp (d : Dev) (f : Fab → Fab) (i0 : Nat) : (d.setFab f).getCmp i0 = d.getCmp i0 := (rfl)
@[simp] theorem Dev.setFab_lane (d : Dev) (f : Fab → Fab) (i0 : Nat) : (d.setFab f).lane i0 = d.lane i0 := (rfl)
@[simp] theorem Dev.setFab_pad (d : Dev) (f : Fab → Fab) (i0 : Nat) : (d.setFab f).pad i0 = d.pad i0 := (rfl)
@[simp] theorem Dev.setFab_t (d : Dev) (f : Fab → Fab) : (d.setFab f).t = d.t := (rfl)

/-! `Dev.setCfg` -/

@[simp] theorem Dev.setCfg_now (d : Dev) (f : Cfg → Cfg) : (d.setCfg f).now = d.now := (rfl)
@[simp] theorem Dev.setCfg_tb (d : Dev) (f : Cfg → Cfg) : (d.setCfg f).tb = d.tb := (rfl)
@[simp] theorem Dev.setCfg_regs (d : Dev) (f : Cfg → Cfg) : (d.setCfg f).regs = d.regs := (rfl)
@[simp] theorem Dev.setCfg_sets (d : Dev) (f : Cfg → Cfg) : (d.setCfg f).sets = d.sets := (rfl)
@[simp] theorem Dev.setCfg_latch (d : Dev) (f : Cfg → Cfg) : (d.setCfg f).latch = d.latch := (rfl)
@[simp] theorem Dev.setCfg_rdata (d : Dev) (f : Cfg → Cfg) : (d.setCfg f).rdata = d.rdata := (rfl)
@[simp] theorem Dev.setCfg_free (d : Dev) (f : Cfg → Cfg) : (d.setCfg f).free = d.free := (rfl)
@[simp] theorem Dev.setCfg_evq (d : Dev) (f : Cfg → Cfg) : (d.setCfg f).evq = d.evq := (rfl)
@[simp] theorem Dev.setCfg_enc (d : Dev) (f : Cfg → Cfg) : (d.setCfg f).enc = d.enc := (rfl)
@[simp] theorem Dev.setCfg_cap (d : Dev) (f : Cfg → Cfg) : (d.setCfg f).cap = d.cap := (rfl)
@[simp] theorem Dev.setCfg_ltg (d : Dev) (f : Cfg → Cfg) : (d.setCfg f).ltg = d.ltg := (rfl)
@[simp] theorem Dev.setCfg_hcp (d : Dev) (f : Cfg → Cfg) : (d.setCfg f).hcp = d.hcp := (rfl)
@[simp] theorem Dev.setCfg_zlk (d : Dev) (f : Cfg → Cfg) : (d.setCfg f).zlk = d.zlk := (rfl)
@[simp] theorem Dev.setCfg_pwr (d : Dev) (f : Cfg → Cfg) : (d.setCfg f).pwr = d.pwr := (rfl)
@[simp] theorem Dev.setCfg_kw (d : Dev) (f : Cfg → Cfg) : (d.setCfg f).kw = d.kw := (rfl)
@[simp] theorem Dev.setCfg_pcu (d : Dev) (f : Cfg → Cfg) : (d.setCfg f).pcu = d.pcu := (rfl)
@[simp] theorem Dev.setCfg_cal (d : Dev) (f : Cfg → Cfg) : (d.setCfg f).cal = d.cal := (rfl)
@[simp] theorem Dev.setCfg_anx (d : Dev) (f : Cfg → Cfg) : (d.setCfg f).anx = d.anx := (rfl)
@[simp] theorem Dev.setCfg_mcv (d : Dev) (f : Cfg → Cfg) : (d.setCfg f).mcv = d.mcv := (rfl)
@[simp] theorem Dev.setCfg_bank (d : Dev) (f : Cfg → Cfg) : (d.setCfg f).bank = d.bank := (rfl)
@[simp] theorem Dev.setCfg_fab (d : Dev) (f : Cfg → Cfg) : (d.setCfg f).fab = d.fab := (rfl)
@[simp] theorem Dev.setCfg_cfg (d : Dev) (f : Cfg → Cfg) : (d.setCfg f).cfg = f d.cfg := (rfl)
@[simp] theorem Dev.setCfg_fuses (d : Dev) (f : Cfg → Cfg) : (d.setCfg f).fuses = d.fuses := (rfl)
@[simp] theorem Dev.setCfg_scb (d : Dev) (f : Cfg → Cfg) : (d.setCfg f).scb = d.scb := (rfl)
@[simp] theorem Dev.setCfg_lan (d : Dev) (f : Cfg → Cfg) : (d.setCfg f).lan = d.lan := (rfl)
@[simp] theorem Dev.setCfg_gpio (d : Dev) (f : Cfg → Cfg) : (d.setCfg f).gpio = d.gpio := (rfl)
@[simp] theorem Dev.setCfg_rreg (d : Dev) (f : Cfg → Cfg) (k0 : RegKind) (i0 : Nat) : (d.setCfg f).rreg k0 i0 = d.rreg k0 i0 := (rfl)
@[simp] theorem Dev.setCfg_rf (d : Dev) (f : Cfg → Cfg) (f0 : Fld) (i0 : Nat) : (d.setCfg f).rf f0 i0 = d.rf f0 i0 := (rfl)
@[simp] theorem Dev.setCfg_on (d : Dev) (f : Cfg → Cfg) (f0 : Fld) (i0 : Nat) : (d.setCfg f).on f0 i0 = d.on f0 i0 := (rfl)
@[simp] theorem Dev.setCfg_getEnc (d : Dev) (f : Cfg → Cfg) (i0 : Nat) : (d.setCfg f).getEnc i0 = d.getEnc i0 := (rfl)
@[simp] theorem Dev.setCfg_getCap (d : Dev) (f : Cfg → Cfg) (i0 : Nat) : (d.setCfg f).getCap i0 = d.getCap i0 := (rfl)
@[simp] theorem Dev.setCfg_getLtg (d : Dev) (f : Cfg → Cfg) (i0 : Nat) : (d.setCfg f).getLtg i0 = d.getLtg i0 := (rfl)
@[simp] theorem Dev.setCfg_getHcp (d : Dev) (f : Cfg → Cfg) (i0 : Nat) : (d.setCfg f).getHcp i0 = d.getHcp i0 := (rfl)
@[simp] theorem Dev.setCfg_getMcv (d : Dev) (f : Cfg → Cfg) (i0 : Nat) : (d.setCfg f).getMcv i0 = d.getMcv i0 := (rfl)
@[simp] theorem Dev.setCfg_getCmp (d : Dev) (f : Cfg → Cfg) (i0 : Nat) : (d.setCfg f).getCmp i0 = d.getCmp i0 := (rfl)
@[simp] theorem Dev.setCfg_lane (d : Dev) (f : Cfg → Cfg) (i0 : Nat) : (d.setCfg f).lane i0 = d.lane i0 := (rfl)
@[simp] theorem Dev.setCfg_pad (d : Dev) (f : Cfg → Cfg) (i0 : Nat) : (d.setCfg f).pad i0 = d.pad i0 := (rfl)
@[simp] theorem Dev.setCfg_t (d : Dev) (f : Cfg → Cfg) : (d.setCfg f).t = d.t := (rfl)

/-! `Dev.setScb` -/

@[simp] theorem Dev.setScb_now (d : Dev) (f : Scb → Scb) : (d.setScb f).now = d.now := (rfl)
@[simp] theorem Dev.setScb_tb (d : Dev) (f : Scb → Scb) : (d.setScb f).tb = d.tb := (rfl)
@[simp] theorem Dev.setScb_regs (d : Dev) (f : Scb → Scb) : (d.setScb f).regs = d.regs := (rfl)
@[simp] theorem Dev.setScb_sets (d : Dev) (f : Scb → Scb) : (d.setScb f).sets = d.sets := (rfl)
@[simp] theorem Dev.setScb_latch (d : Dev) (f : Scb → Scb) : (d.setScb f).latch = d.latch := (rfl)
@[simp] theorem Dev.setScb_rdata (d : Dev) (f : Scb → Scb) : (d.setScb f).rdata = d.rdata := (rfl)
@[simp] theorem Dev.setScb_free (d : Dev) (f : Scb → Scb) : (d.setScb f).free = d.free := (rfl)
@[simp] theorem Dev.setScb_evq (d : Dev) (f : Scb → Scb) : (d.setScb f).evq = d.evq := (rfl)
@[simp] theorem Dev.setScb_enc (d : Dev) (f : Scb → Scb) : (d.setScb f).enc = d.enc := (rfl)
@[simp] theorem Dev.setScb_cap (d : Dev) (f : Scb → Scb) : (d.setScb f).cap = d.cap := (rfl)
@[simp] theorem Dev.setScb_ltg (d : Dev) (f : Scb → Scb) : (d.setScb f).ltg = d.ltg := (rfl)
@[simp] theorem Dev.setScb_hcp (d : Dev) (f : Scb → Scb) : (d.setScb f).hcp = d.hcp := (rfl)
@[simp] theorem Dev.setScb_zlk (d : Dev) (f : Scb → Scb) : (d.setScb f).zlk = d.zlk := (rfl)
@[simp] theorem Dev.setScb_pwr (d : Dev) (f : Scb → Scb) : (d.setScb f).pwr = d.pwr := (rfl)
@[simp] theorem Dev.setScb_kw (d : Dev) (f : Scb → Scb) : (d.setScb f).kw = d.kw := (rfl)
@[simp] theorem Dev.setScb_pcu (d : Dev) (f : Scb → Scb) : (d.setScb f).pcu = d.pcu := (rfl)
@[simp] theorem Dev.setScb_cal (d : Dev) (f : Scb → Scb) : (d.setScb f).cal = d.cal := (rfl)
@[simp] theorem Dev.setScb_anx (d : Dev) (f : Scb → Scb) : (d.setScb f).anx = d.anx := (rfl)
@[simp] theorem Dev.setScb_mcv (d : Dev) (f : Scb → Scb) : (d.setScb f).mcv = d.mcv := (rfl)
@[simp] theorem Dev.setScb_bank (d : Dev) (f : Scb → Scb) : (d.setScb f).bank = d.bank := (rfl)
@[simp] theorem Dev.setScb_fab (d : Dev) (f : Scb → Scb) : (d.setScb f).fab = d.fab := (rfl)
@[simp] theorem Dev.setScb_cfg (d : Dev) (f : Scb → Scb) : (d.setScb f).cfg = d.cfg := (rfl)
@[simp] theorem Dev.setScb_fuses (d : Dev) (f : Scb → Scb) : (d.setScb f).fuses = d.fuses := (rfl)
@[simp] theorem Dev.setScb_scb (d : Dev) (f : Scb → Scb) : (d.setScb f).scb = f d.scb := (rfl)
@[simp] theorem Dev.setScb_lan (d : Dev) (f : Scb → Scb) : (d.setScb f).lan = d.lan := (rfl)
@[simp] theorem Dev.setScb_gpio (d : Dev) (f : Scb → Scb) : (d.setScb f).gpio = d.gpio := (rfl)
@[simp] theorem Dev.setScb_rreg (d : Dev) (f : Scb → Scb) (k0 : RegKind) (i0 : Nat) : (d.setScb f).rreg k0 i0 = d.rreg k0 i0 := (rfl)
@[simp] theorem Dev.setScb_rf (d : Dev) (f : Scb → Scb) (f0 : Fld) (i0 : Nat) : (d.setScb f).rf f0 i0 = d.rf f0 i0 := (rfl)
@[simp] theorem Dev.setScb_on (d : Dev) (f : Scb → Scb) (f0 : Fld) (i0 : Nat) : (d.setScb f).on f0 i0 = d.on f0 i0 := (rfl)
@[simp] theorem Dev.setScb_getEnc (d : Dev) (f : Scb → Scb) (i0 : Nat) : (d.setScb f).getEnc i0 = d.getEnc i0 := (rfl)
@[simp] theorem Dev.setScb_getCap (d : Dev) (f : Scb → Scb) (i0 : Nat) : (d.setScb f).getCap i0 = d.getCap i0 := (rfl)
@[simp] theorem Dev.setScb_getLtg (d : Dev) (f : Scb → Scb) (i0 : Nat) : (d.setScb f).getLtg i0 = d.getLtg i0 := (rfl)
@[simp] theorem Dev.setScb_getHcp (d : Dev) (f : Scb → Scb) (i0 : Nat) : (d.setScb f).getHcp i0 = d.getHcp i0 := (rfl)
@[simp] theorem Dev.setScb_getMcv (d : Dev) (f : Scb → Scb) (i0 : Nat) : (d.setScb f).getMcv i0 = d.getMcv i0 := (rfl)
@[simp] theorem Dev.setScb_getCmp (d : Dev) (f : Scb → Scb) (i0 : Nat) : (d.setScb f).getCmp i0 = d.getCmp i0 := (rfl)
@[simp] theorem Dev.setScb_lane (d : Dev) (f : Scb → Scb) (i0 : Nat) : (d.setScb f).lane i0 = d.lane i0 := (rfl)
@[simp] theorem Dev.setScb_pad (d : Dev) (f : Scb → Scb) (i0 : Nat) : (d.setScb f).pad i0 = d.pad i0 := (rfl)
@[simp] theorem Dev.setScb_t (d : Dev) (f : Scb → Scb) : (d.setScb f).t = d.t := (rfl)

/-! `Dev.setLan` -/

@[simp] theorem Dev.setLan_now (d : Dev) (f : Lan → Lan) : (d.setLan f).now = d.now := (rfl)
@[simp] theorem Dev.setLan_tb (d : Dev) (f : Lan → Lan) : (d.setLan f).tb = d.tb := (rfl)
@[simp] theorem Dev.setLan_regs (d : Dev) (f : Lan → Lan) : (d.setLan f).regs = d.regs := (rfl)
@[simp] theorem Dev.setLan_sets (d : Dev) (f : Lan → Lan) : (d.setLan f).sets = d.sets := (rfl)
@[simp] theorem Dev.setLan_latch (d : Dev) (f : Lan → Lan) : (d.setLan f).latch = d.latch := (rfl)
@[simp] theorem Dev.setLan_rdata (d : Dev) (f : Lan → Lan) : (d.setLan f).rdata = d.rdata := (rfl)
@[simp] theorem Dev.setLan_free (d : Dev) (f : Lan → Lan) : (d.setLan f).free = d.free := (rfl)
@[simp] theorem Dev.setLan_evq (d : Dev) (f : Lan → Lan) : (d.setLan f).evq = d.evq := (rfl)
@[simp] theorem Dev.setLan_enc (d : Dev) (f : Lan → Lan) : (d.setLan f).enc = d.enc := (rfl)
@[simp] theorem Dev.setLan_cap (d : Dev) (f : Lan → Lan) : (d.setLan f).cap = d.cap := (rfl)
@[simp] theorem Dev.setLan_ltg (d : Dev) (f : Lan → Lan) : (d.setLan f).ltg = d.ltg := (rfl)
@[simp] theorem Dev.setLan_hcp (d : Dev) (f : Lan → Lan) : (d.setLan f).hcp = d.hcp := (rfl)
@[simp] theorem Dev.setLan_zlk (d : Dev) (f : Lan → Lan) : (d.setLan f).zlk = d.zlk := (rfl)
@[simp] theorem Dev.setLan_pwr (d : Dev) (f : Lan → Lan) : (d.setLan f).pwr = d.pwr := (rfl)
@[simp] theorem Dev.setLan_kw (d : Dev) (f : Lan → Lan) : (d.setLan f).kw = d.kw := (rfl)
@[simp] theorem Dev.setLan_pcu (d : Dev) (f : Lan → Lan) : (d.setLan f).pcu = d.pcu := (rfl)
@[simp] theorem Dev.setLan_cal (d : Dev) (f : Lan → Lan) : (d.setLan f).cal = d.cal := (rfl)
@[simp] theorem Dev.setLan_anx (d : Dev) (f : Lan → Lan) : (d.setLan f).anx = d.anx := (rfl)
@[simp] theorem Dev.setLan_mcv (d : Dev) (f : Lan → Lan) : (d.setLan f).mcv = d.mcv := (rfl)
@[simp] theorem Dev.setLan_bank (d : Dev) (f : Lan → Lan) : (d.setLan f).bank = d.bank := (rfl)
@[simp] theorem Dev.setLan_fab (d : Dev) (f : Lan → Lan) : (d.setLan f).fab = d.fab := (rfl)
@[simp] theorem Dev.setLan_cfg (d : Dev) (f : Lan → Lan) : (d.setLan f).cfg = d.cfg := (rfl)
@[simp] theorem Dev.setLan_fuses (d : Dev) (f : Lan → Lan) : (d.setLan f).fuses = d.fuses := (rfl)
@[simp] theorem Dev.setLan_scb (d : Dev) (f : Lan → Lan) : (d.setLan f).scb = d.scb := (rfl)
@[simp] theorem Dev.setLan_lan (d : Dev) (f : Lan → Lan) : (d.setLan f).lan = f d.lan := (rfl)
@[simp] theorem Dev.setLan_gpio (d : Dev) (f : Lan → Lan) : (d.setLan f).gpio = d.gpio := (rfl)
@[simp] theorem Dev.setLan_rreg (d : Dev) (f : Lan → Lan) (k0 : RegKind) (i0 : Nat) : (d.setLan f).rreg k0 i0 = d.rreg k0 i0 := (rfl)
@[simp] theorem Dev.setLan_rf (d : Dev) (f : Lan → Lan) (f0 : Fld) (i0 : Nat) : (d.setLan f).rf f0 i0 = d.rf f0 i0 := (rfl)
@[simp] theorem Dev.setLan_on (d : Dev) (f : Lan → Lan) (f0 : Fld) (i0 : Nat) : (d.setLan f).on f0 i0 = d.on f0 i0 := (rfl)
@[simp] theorem Dev.setLan_getEnc (d : Dev) (f : Lan → Lan) (i0 : Nat) : (d.setLan f).getEnc i0 = d.getEnc i0 := (rfl)
@[simp] theorem Dev.setLan_getCap (d : Dev) (f : Lan → Lan) (i0 : Nat) : (d.setLan f).getCap i0 = d.getCap i0 := (rfl)
@[simp] theorem Dev.setLan_getLtg (d : Dev) (f : Lan → Lan) (i0 : Nat) : (d.setLan f).getLtg i0 = d.getLtg i0 := (rfl)
@[simp] theorem Dev.setLan_getHcp (d : Dev) (f : Lan → Lan) (i0 : Nat) : (d.setLan f).getHcp i0 = d.getHcp i0 := (rfl)
@[simp] theorem Dev.setLan_getMcv (d : Dev) (f : Lan → Lan) (i0 : Nat) : (d.setLan f).getMcv i0 = d.getMcv i0 := (rfl)
@[simp] theorem Dev.setLan_getCmp (d : Dev) (f : Lan → Lan) (i0 : Nat) : (d.setLan f).getCmp i0 = d.getCmp i0 := (rfl)
@[simp] theorem Dev.setLan_pad (d : Dev) (f : Lan → Lan) (i0 : Nat) : (d.setLan f).pad i0 = d.pad i0 := (rfl)
@[simp] theorem Dev.setLan_t (d : Dev) (f : Lan → Lan) : (d.setLan f).t = d.t := (rfl)

/-! `Dev.setGpio` -/

@[simp] theorem Dev.setGpio_now (d : Dev) (f : Gpio → Gpio) : (d.setGpio f).now = d.now := (rfl)
@[simp] theorem Dev.setGpio_tb (d : Dev) (f : Gpio → Gpio) : (d.setGpio f).tb = d.tb := (rfl)
@[simp] theorem Dev.setGpio_regs (d : Dev) (f : Gpio → Gpio) : (d.setGpio f).regs = d.regs := (rfl)
@[simp] theorem Dev.setGpio_sets (d : Dev) (f : Gpio → Gpio) : (d.setGpio f).sets = d.sets := (rfl)
@[simp] theorem Dev.setGpio_latch (d : Dev) (f : Gpio → Gpio) : (d.setGpio f).latch = d.latch := (rfl)
@[simp] theorem Dev.setGpio_rdata (d : Dev) (f : Gpio → Gpio) : (d.setGpio f).rdata = d.rdata := (rfl)
@[simp] theorem Dev.setGpio_free (d : Dev) (f : Gpio → Gpio) : (d.setGpio f).free = d.free := (rfl)
@[simp] theorem Dev.setGpio_evq (d : Dev) (f : Gpio → Gpio) : (d.setGpio f).evq = d.evq := (rfl)
@[simp] theorem Dev.setGpio_enc (d : Dev) (f : Gpio → Gpio) : (d.setGpio f).enc = d.enc := (rfl)
@[simp] theorem Dev.setGpio_cap (d : Dev) (f : Gpio → Gpio) : (d.setGpio f).cap = d.cap := (rfl)
@[simp] theorem Dev.setGpio_ltg (d : Dev) (f : Gpio → Gpio) : (d.setGpio f).ltg = d.ltg := (rfl)
@[simp] theorem Dev.setGpio_hcp (d : Dev) (f : Gpio → Gpio) : (d.setGpio f).hcp = d.hcp := (rfl)
@[simp] theorem Dev.setGpio_zlk (d : Dev) (f : Gpio → Gpio) : (d.setGpio f).zlk = d.zlk := (rfl)
@[simp] theorem Dev.setGpio_pwr (d : Dev) (f : Gpio → Gpio) : (d.setGpio f).pwr = d.pwr := (rfl)
@[simp] theorem Dev.setGpio_kw (d : Dev) (f : Gpio → Gpio) : (d.setGpio f).kw = d.kw := (rfl)
@[simp] theorem Dev.setGpio_pcu (d : Dev) (f : Gpio → Gpio) : (d.setGpio f).pcu = d.pcu := (rfl)
@[simp] theorem Dev.setGpio_cal (d : Dev) (f : Gpio → Gpio) : (d.setGpio f).cal = d.cal := (rfl)
@[simp] theorem Dev.setGpio_anx (d : Dev) (f : Gpio → Gpio) : (d.setGpio f).anx = d.anx := (rfl)
@[simp] theorem Dev.setGpio_mcv (d : Dev) (f : Gpio → Gpio) : (d.setGpio f).mcv = d.mcv := (rfl)
@[simp] theorem Dev.setGpio_bank (d : Dev) (f : Gpio → Gpio) : (d.setGpio f).bank = d.bank := (rfl)
@[simp] theorem Dev.setGpio_fab (d : Dev) (f : Gpio → Gpio) : (d.setGpio f).fab = d.fab := (rfl)
@[simp] theorem Dev.setGpio_cfg (d : Dev) (f : Gpio → Gpio) : (d.setGpio f).cfg = d.cfg := (rfl)
@[simp] theorem Dev.setGpio_fuses (d : Dev) (f : Gpio → Gpio) : (d.setGpio f).fuses = d.fuses := (rfl)
@[simp] theorem Dev.setGpio_scb (d : Dev) (f : Gpio → Gpio) : (d.setGpio f).scb = d.scb := (rfl)
@[simp] theorem Dev.setGpio_lan (d : Dev) (f : Gpio → Gpio) : (d.setGpio f).lan = d.lan := (rfl)
@[simp] theorem Dev.setGpio_gpio (d : Dev) (f : Gpio → Gpio) : (d.setGpio f).gpio = f d.gpio := (rfl)
@[simp] theorem Dev.setGpio_rreg (d : Dev) (f : Gpio → Gpio) (k0 : RegKind) (i0 : Nat) : (d.setGpio f).rreg k0 i0 = d.rreg k0 i0 := (rfl)
@[simp] theorem Dev.setGpio_rf (d : Dev) (f : Gpio → Gpio) (f0 : Fld) (i0 : Nat) : (d.setGpio f).rf f0 i0 = d.rf f0 i0 := (rfl)
@[simp] theorem Dev.setGpio_on (d : Dev) (f : Gpio → Gpio) (f0 : Fld) (i0 : Nat) : (d.setGpio f).on f0 i0 = d.on f0 i0 := (rfl)
@[simp] theorem Dev.setGpio_getEnc (d : Dev) (f : Gpio → Gpio) (i0 : Nat) : (d.setGpio f).getEnc i0 = d.getEnc i0 := (rfl)
@[simp] theorem Dev.setGpio_getCap (d : Dev) (f : Gpio → Gpio) (i0 : Nat) : (d.setGpio f).getCap i0 = d.getCap i0 := (rfl)
@[simp] theorem Dev.setGpio_getLtg (d : Dev) (f : Gpio → Gpio) (i0 : Nat) : (d.setGpio f).getLtg i0 = d.getLtg i0 := (rfl)
@[simp] theorem Dev.setGpio_getHcp (d : Dev) (f : Gpio → Gpio) (i0 : Nat) : (d.setGpio f).getHcp i0 = d.getHcp i0 := (rfl)
@[simp] theorem Dev.setGpio_getMcv (d : Dev) (f : Gpio → Gpio) (i0 : Nat) : (d.setGpio f).getMcv i0 = d.getMcv i0 := (rfl)
@[simp] theorem Dev.setGpio_getCmp (d : Dev) (f : Gpio → Gpio) (i0 : Nat) : (d.setGpio f).getCmp i0 = d.getCmp i0 := (rfl)
@[simp] theorem Dev.setGpio_lane (d : Dev) (f : Gpio → Gpio) (i0 : Nat) : (d.setGpio f).lane i0 = d.lane i0 := (rfl)
@[simp] theorem Dev.setGpio_t (d : Dev) (f : Gpio → Gpio) : (d.setGpio f).t = d.t := (rfl)

/-! `Dev.inc` -/

@[simp] theorem Dev.inc_now (d : Dev) (f : Fld) (i n : Nat) : (d.inc f i n).now = d.now := (rfl)
@[simp] theorem Dev.inc_tb (d : Dev) (f : Fld) (i n : Nat) : (d.inc f i n).tb = d.tb := (rfl)
@[simp] theorem Dev.inc_latch (d : Dev) (f : Fld) (i n : Nat) : (d.inc f i n).latch = d.latch := (rfl)
@[simp] theorem Dev.inc_rdata (d : Dev) (f : Fld) (i n : Nat) : (d.inc f i n).rdata = d.rdata := (rfl)
@[simp] theorem Dev.inc_free (d : Dev) (f : Fld) (i n : Nat) : (d.inc f i n).free = d.free := (rfl)
@[simp] theorem Dev.inc_evq (d : Dev) (f : Fld) (i n : Nat) : (d.inc f i n).evq = d.evq := (rfl)
@[simp] theorem Dev.inc_enc (d : Dev) (f : Fld) (i n : Nat) : (d.inc f i n).enc = d.enc := (rfl)
@[simp] theorem Dev.inc_cap (d : Dev) (f : Fld) (i n : Nat) : (d.inc f i n).cap = d.cap := (rfl)
@[simp] theorem Dev.inc_ltg (d : Dev) (f : Fld) (i n : Nat) : (d.inc f i n).ltg = d.ltg := (rfl)
@[simp] theorem Dev.inc_hcp (d : Dev) (f : Fld) (i n : Nat) : (d.inc f i n).hcp = d.hcp := (rfl)
@[simp] theorem Dev.inc_zlk (d : Dev) (f : Fld) (i n : Nat) : (d.inc f i n).zlk = d.zlk := (rfl)
@[simp] theorem Dev.inc_pwr (d : Dev) (f : Fld) (i n : Nat) : (d.inc f i n).pwr = d.pwr := (rfl)
@[simp] theorem Dev.inc_kw (d : Dev) (f : Fld) (i n : Nat) : (d.inc f i n).kw = d.kw := (rfl)
@[simp] theorem Dev.inc_pcu (d : Dev) (f : Fld) (i n : Nat) : (d.inc f i n).pcu = d.pcu := (rfl)
@[simp] theorem Dev.inc_cal (d : Dev) (f : Fld) (i n : Nat) : (d.inc f i n).cal = d.cal := (rfl)
@[simp] theorem Dev.inc_anx (d : Dev) (f : Fld) (i n : Nat) : (d.inc f i n).anx = d.anx := (rfl)
@[simp] theorem Dev.inc_mcv (d : Dev) (f : Fld) (i n : Nat) : (d.inc f i n).mcv = d.mcv := (rfl)
@[simp] theorem Dev.inc_bank (d : Dev) (f : Fld) (i n : Nat) : (d.inc f i n).bank = d.bank := (rfl)
@[simp] theorem Dev.inc_fab (d : Dev) (f : Fld) (i n : Nat) : (d.inc f i n).fab = d.fab := (rfl)
@[simp] theorem Dev.inc_cfg (d : Dev) (f : Fld) (i n : Nat) : (d.inc f i n).cfg = d.cfg := (rfl)
@[simp] theorem Dev.inc_fuses (d : Dev) (f : Fld) (i n : Nat) : (d.inc f i n).fuses = d.fuses := (rfl)
@[simp] theorem Dev.inc_scb (d : Dev) (f : Fld) (i n : Nat) : (d.inc f i n).scb = d.scb := (rfl)
@[simp] theorem Dev.inc_lan (d : Dev) (f : Fld) (i n : Nat) : (d.inc f i n).lan = d.lan := (rfl)
@[simp] theorem Dev.inc_gpio (d : Dev) (f : Fld) (i n : Nat) : (d.inc f i n).gpio = d.gpio := (rfl)
@[simp] theorem Dev.inc_getEnc (d : Dev) (f : Fld) (i n : Nat) (i0 : Nat) : (d.inc f i n).getEnc i0 = d.getEnc i0 := (rfl)
@[simp] theorem Dev.inc_getCap (d : Dev) (f : Fld) (i n : Nat) (i0 : Nat) : (d.inc f i n).getCap i0 = d.getCap i0 := (rfl)
@[simp] theorem Dev.inc_getLtg (d : Dev) (f : Fld) (i n : Nat) (i0 : Nat) : (d.inc f i n).getLtg i0 = d.getLtg i0 := (rfl)
@[simp] theorem Dev.inc_getHcp (d : Dev) (f : Fld) (i n : Nat) (i0 : Nat) : (d.inc f i n).getHcp i0 = d.getHcp i0 := (rfl)
@[simp] theorem Dev.inc_getMcv (d : Dev) (f : Fld) (i n : Nat) (i0 : Nat) : (d.inc f i n).getMcv i0 = d.getMcv i0 := (rfl)
@[simp] theorem Dev.inc_getCmp (d : Dev) (f : Fld) (i n : Nat) (i0 : Nat) : (d.inc f i n).getCmp i0 = d.getCmp i0 := (rfl)
@[simp] theorem Dev.inc_lane (d : Dev) (f : Fld) (i n : Nat) (i0 : Nat) : (d.inc f i n).lane i0 = d.lane i0 := (rfl)
@[simp] theorem Dev.inc_pad (d : Dev) (f : Fld) (i n : Nat) (i0 : Nat) : (d.inc f i n).pad i0 = d.pad i0 := (rfl)
@[simp] theorem Dev.inc_t (d : Dev) (f : Fld) (i n : Nat) : (d.inc f i n).t = d.t := (rfl)

/-! `Dev.incWrap` -/

@[simp] theorem Dev.incWrap_now (d : Dev) (f : Fld) (i n : Nat) : (d.incWrap f i n).now = d.now := (rfl)
@[simp] theorem Dev.incWrap_tb (d : Dev) (f : Fld) (i n : Nat) : (d.incWrap f i n).tb = d.tb := (rfl)
@[simp] theorem Dev.incWrap_latch (d : Dev) (f : Fld) (i n : Nat) : (d.incWrap f i n).latch = d.latch := (rfl)
@[simp] theorem Dev.incWrap_rdata (d : Dev) (f : Fld) (i n : Nat) : (d.incWrap f i n).rdata = d.rdata := (rfl)
@[simp] theorem Dev.incWrap_free (d : Dev) (f : Fld) (i n : Nat) : (d.incWrap f i n).free = d.free := (rfl)
@[simp] theorem Dev.incWrap_evq (d : Dev) (f : Fld) (i n : Nat) : (d.incWrap f i n).evq = d.evq := (rfl)
@[simp] theorem Dev.incWrap_enc (d : Dev) (f : Fld) (i n : Nat) : (d.incWrap f i n).enc = d.enc := (rfl)
@[simp] theorem Dev.incWrap_cap (d : Dev) (f : Fld) (i n : Nat) : (d.incWrap f i n).cap = d.cap := (rfl)
@[simp] theorem Dev.incWrap_ltg (d : Dev) (f : Fld) (i n : Nat) : (d.incWrap f i n).ltg = d.ltg := (rfl)
@[simp] theorem Dev.incWrap_hcp (d : Dev) (f : Fld) (i n : Nat) : (d.incWrap f i n).hcp = d.hcp := (rfl)
@[simp] theorem Dev.incWrap_zlk (d : Dev) (f : Fld) (i n : Nat) : (d.incWrap f i n).zlk = d.zlk := (rfl)
@[simp] theorem Dev.incWrap_pwr (d : Dev) (f : Fld) (i n : Nat) : (d.incWrap f i n).pwr = d.pwr := (rfl)
@[simp] theorem Dev.incWrap_kw (d : Dev) (f : Fld) (i n : Nat) : (d.incWrap f i n).kw = d.kw := (rfl)
@[simp] theorem Dev.incWrap_pcu (d : Dev) (f : Fld) (i n : Nat) : (d.incWrap f i n).pcu = d.pcu := (rfl)
@[simp] theorem Dev.incWrap_cal (d : Dev) (f : Fld) (i n : Nat) : (d.incWrap f i n).cal = d.cal := (rfl)
@[simp] theorem Dev.incWrap_anx (d : Dev) (f : Fld) (i n : Nat) : (d.incWrap f i n).anx = d.anx := (rfl)
@[simp] theorem Dev.incWrap_mcv (d : Dev) (f : Fld) (i n : Nat) : (d.incWrap f i n).mcv = d.mcv := (rfl)
@[simp] theorem Dev.incWrap_bank (d : Dev) (f : Fld) (i n : Nat) : (d.incWrap f i n).bank = d.bank := (rfl)
@[simp] theorem Dev.incWrap_fab (d : Dev) (f : Fld) (i n : Nat) : (d.incWrap f i n).fab = d.fab := (rfl)
@[simp] theorem Dev.incWrap_cfg (d : Dev) (f : Fld) (i n : Nat) : (d.incWrap f i n).cfg = d.cfg := (rfl)
@[simp] theorem Dev.incWrap_fuses (d : Dev) (f : Fld) (i n : Nat) : (d.incWrap f i n).fuses = d.fuses := (rfl)
@[simp] theorem Dev.incWrap_scb (d : Dev) (f : Fld) (i n : Nat) : (d.incWrap f i n).scb = d.scb := (rfl)
@[simp] theorem Dev.incWrap_lan (d : Dev) (f : Fld) (i n : Nat) : (d.incWrap f i n).lan = d.lan := (rfl)
@[simp] theorem Dev.incWrap_gpio (d : Dev) (f : Fld) (i n : Nat) : (d.incWrap f i n).gpio = d.gpio := (rfl)
@[simp] theorem Dev.incWrap_getEnc (d : Dev) (f : Fld) (i n : Nat) (i0 : Nat) : (d.incWrap f i n).getEnc i0 = d.getEnc i0 := (rfl)
@[simp] theorem Dev.incWrap_getCap (d : Dev) (f : Fld) (i n : Nat) (i0 : Nat) : (d.incWrap f i n).getCap i0 = d.getCap i0 := (rfl)
@[simp] theorem Dev.incWrap_getLtg (d : Dev) (f : Fld) (i n : Nat) (i0 : Nat) : (d.incWrap f i n).getLtg i0 = d.getLtg i0 := (rfl)
@[simp] theorem Dev.incWrap_getHcp (d : Dev) (f : Fld) (i n : Nat) (i0 : Nat) : (d.incWrap f i n).getHcp i0 = d.getHcp i0 := (rfl)
@[simp] theorem Dev.incWrap_getMcv (d : Dev) (f : Fld) (i n : Nat) (i0 : Nat) : (d.incWrap f i n).getMcv i0 = d.getMcv i0 := (rfl)
@[simp] theorem Dev.incWrap_getCmp (d : Dev) (f : Fld) (i n : Nat) (i0 : Nat) : (d.incWrap f i n).getCmp i0 = d.getCmp i0 := (rfl)
@[simp] theorem Dev.incWrap_lane (d : Dev) (f : Fld) (i n : Nat) (i0 : Nat) : (d.incWrap f i n).lane i0 = d.lane i0 := (rfl)
@[simp] theorem Dev.incWrap_pad (d : Dev) (f : Fld) (i n : Nat) (i0 : Nat) : (d.incWrap f i n).pad i0 = d.pad i0 := (rfl)
@[simp] theorem Dev.incWrap_t (d : Dev) (f : Fld) (i n : Nat) : (d.incWrap f i n).t = d.t := (rfl)

/-! `Dev.wfi` -/

@[simp] theorem Dev.wfi_now (d : Dev) (f : Fld) (i : Nat) (z : Int) : (d.wfi f i z).now = d.now := (rfl)
@[simp] theorem Dev.wfi_tb (d : Dev) (f : Fld) (i : Nat) (z : Int) : (d.wfi f i z).tb = d.tb := (rfl)
@[simp] theorem Dev.wfi_latch (d : Dev) (f : Fld) (i : Nat) (z : Int) : (d.wfi f i z).latch = d.latch := (rfl)
@[simp] theorem Dev.wfi_rdata (d : Dev) (f : Fld) (i : Nat) (z : Int) : (d.wfi f i z).rdata = d.rdata := (rfl)
@[simp] theorem Dev.wfi_free (d : Dev) (f : Fld) (i : Nat) (z : Int) : (d.wfi f i z).free = d.free := (rfl)
@[simp] theorem Dev.wfi_evq (d : Dev) (f : Fld) (i : Nat) (z : Int) : (d.wfi f i z).evq = d.evq := (rfl)
@[simp] theorem Dev.wfi_enc (d : Dev) (f : Fld) (i : Nat) (z : Int) : (d.wfi f i z).enc = d.enc := (rfl)
@[simp] theorem Dev.wfi_cap (d : Dev) (f : Fld) (i : Nat) (z : Int) : (d.wfi f i z).cap = d.cap := (rfl)
@[simp] theorem Dev.wfi_ltg (d : Dev) (f : Fld) (i : Nat) (z : Int) : (d.wfi f i z).ltg = d.ltg := (rfl)
@[simp] theorem Dev.wfi_hcp (d : Dev) (f : Fld) (i : Nat) (z : Int) : (d.wfi f i z).hcp = d.hcp := (rfl)
@[simp] theorem Dev.wfi_zlk (d : Dev) (f : Fld) (i : Nat) (z : Int) : (d.wfi f i z).zlk = d.zlk := (rfl)
@[simp] theorem Dev.wfi_pwr (d : Dev) (f : Fld) (i : Nat) (z : Int) : (d.wfi f i z).pwr = d.pwr := (rfl)
@[simp] theorem Dev.wfi_kw (d : Dev) (f : Fld) (i : Nat) (z : Int) : (d.wfi f i z).kw = d.kw := (rfl)
@[simp] theorem Dev.wfi_pcu (d : Dev) (f : Fld) (i : Nat) (z : Int) : (d.wfi f i z).pcu = d.pcu := (rfl)
@[simp] theorem Dev.wfi_cal (d : Dev) (f : Fld) (i : Nat) (z : Int) : (d.wfi f i z).cal = d.cal := (rfl)
@[simp] theorem Dev.wfi_anx (d : Dev) (f : Fld) (i : Nat) (z : Int) : (d.wfi f i z).anx = d.anx := (rfl)
@[simp] theorem Dev.wfi_mcv (d : Dev) (f : Fld) (i : Nat) (z : Int) : (d.wfi f i z).mcv = d.mcv := (rfl)
@[simp] theorem Dev.wfi_bank (d : Dev) (f : Fld) (i : Nat) (z : Int) : (d.wfi f i z).bank = d.bank := (rfl)
@[simp] theorem Dev.wfi_fab (d : Dev) (f : Fld) (i : Nat) (z : Int) : (d.wfi f i z).fab = d.fab := (rfl)
@[simp] theorem Dev.wfi_cfg (d : Dev) (f : Fld) (i : Nat) (z : Int) : (d.wfi f i z).cfg = d.cfg := (rfl)
@[simp] theorem Dev.wfi_fuses (d : Dev) (f : Fld) (i : Nat) (z : Int) : (d.wfi f i z).fuses = d.fuses := (rfl)
@[simp] theorem Dev.wfi_scb (d : Dev) (f : Fld) (i : Nat) (z : Int) : (d.wfi f i z).scb = d.scb := (rfl)
@[simp] theorem Dev.wfi_lan (d : Dev) (f : Fld) (i : Nat) (z : Int) : (d.wfi f i z).lan = d.lan := (rfl)
@[simp] theorem Dev.wfi_gpio (d : Dev) (f : Fld) (i : Nat) (z : Int) : (d.wfi f i z).gpio = d.gpio := (rfl)
@[simp] theorem Dev.wfi_getEnc (d : Dev) (f : Fld) (i : Nat) (z : Int) (i0 : Nat) : (d.wfi f i z).getEnc i0 = d.getEnc i0 := (rfl)
@[simp] theorem Dev.wfi_getCap (d : Dev) (f : Fld) (i : Nat) (z : Int) (i0 : Nat) : (d.wfi f i z).getCap i0 = d.getCap i0 := (rfl)
@[simp] theorem Dev.wfi_getLtg (d : Dev) (f : Fld) (i : Nat) (z : Int) (i0 : Nat) : (d.wfi f i z).getLtg i0 = d.getLtg i0 := (rfl)
@[simp] theorem Dev.wfi_getHcp (d : Dev) (f : Fld) (i : Nat) (z : Int) (i0 : Nat) : (d.wfi f i z).getHcp i0 = d.getHcp i0 := (rfl)
@[simp] theorem Dev.wfi_getMcv (d : Dev) (f : Fld) (i : Nat) (z : Int) (i0 : Nat) : (d.wfi f i z).getMcv i0 = d.getMcv i0 := (rfl)
@[simp] theorem Dev.wfi_getCmp (d : Dev) (f : Fld) (i : Nat) (z : Int) (i0 : Nat) : (d.wfi f i z).getCmp i0 = d.getCmp i0 := (rfl)
@[simp] theorem Dev.wfi_lane (d : Dev) (f : Fld) (i : Nat) (z : Int) (i0 : Nat) : (d.wfi f i z).lane i0 = d.lane i0 := (rfl)
@[simp] theorem Dev.wfi_pad (d : Dev) (f : Fld) (i : Nat) (z : Int) (i0 : Nat) : (d.wfi f i z).pad i0 = d.pad i0 := (rfl)
@[simp] theorem Dev.wfi_t (d : Dev) (f : Fld) (i : Nat) (z : Int) : (d.wfi f i z).t = d.t := (rfl)

/-! `Dev.wbit` -/

@[simp] theorem Dev.wbit_now (d : Dev) (f : Fld) (i b : Nat) (v : Bool) : (d.wbit f i b v).now = d.now := (rfl)
@[simp] theorem Dev.wbit_tb (d : Dev) (f : Fld) (i b : Nat) (v : Bool) : (d.wbit f i b v).tb = d.tb := (rfl)
@[simp] theorem Dev.wbit_latch (d : Dev) (f : Fld) (i b : Nat) (v : Bool) : (d.wbit f i b v).latch = d.latch := (rfl)
@[simp] theorem Dev.wbit_rdata (d : Dev) (f : Fld) (i b : Nat) (v : Bool) : (d.wbit f i b v).rdata = d.rdata := (rfl)
@[simp] theorem Dev.wbit_free (d : Dev) (f : Fld) (i b : Nat) (v : Bool) : (d.wbit f i b v).free = d.free := (rfl)
@[simp] theorem Dev.wbit_evq (d : Dev) (f : Fld) (i b : Nat) (v : Bool) : (d.wbit f i b v).evq = d.evq := (rfl)
@[simp] theorem Dev.wbit_enc (d : Dev) (f : Fld) (i b : Nat) (v : Bool) : (d.wbit f i b v).enc = d.enc := (rfl)
@[simp] theorem Dev.wbit_cap (d : Dev) (f : Fld) (i b : Nat) (v : Bool) : (d.wbit f i b v).cap = d.cap := (rfl)
@[simp] theorem Dev.wbit_ltg (d : Dev) (f : Fld) (i b : Nat) (v : Bool) : (d.wbit f i b v).ltg = d.ltg := (rfl)
@[simp] theorem Dev.wbit_hcp (d : Dev) (f : Fld) (i b : Nat) (v : Bool) : (d.wbit f i b v).hcp = d.hcp := (rfl)
@[simp] theorem Dev.wbit_zlk (d : Dev) (f : Fld) (i b : Nat) (v : Bool) : (d.wbit f i b v).zlk = d.zlk := (rfl)
@[simp] theorem Dev.wbit_pwr (d : Dev) (f : Fld) (i b : Nat) (v : Bool) : (d.wbit f i b v).pwr = d.pwr := (rfl)
@[simp] theorem Dev.wbit_kw (d : Dev) (f : Fld) (i b : Nat) (v : Bool) : (d.wbit f i b v).kw = d.kw := (rfl)
@[simp] theorem Dev.wbit_pcu (d : Dev) (f : Fld) (i b : Nat) (v : Bool) : (d.wbit f i b v).pcu = d.pcu := (rfl)
@[simp] theorem Dev.wbit_cal (d : Dev) (f : Fld) (i b : Nat) (v : Bool) : (d.wbit f i b v).cal = d.cal := (rfl)
@[simp] theorem Dev.wbit_anx (d : Dev) (f : Fld) (i b : Nat) (v : Bool) : (d.wbit f i b v).anx = d.anx := (rfl)
@[simp] theorem Dev.wbit_mcv (d : Dev) (f : Fld) (i b : Nat) (v : Bool) : (d.wbit f i b v).mcv = d.mcv := (rfl)
@[simp] theorem Dev.wbit_bank (d : Dev) (f : Fld) (i b : Nat) (v : Bool) : (d.wbit f i b v).bank = d.bank := (rfl)
@[simp] theorem Dev.wbit_fab (d : Dev) (f : Fld) (i b : Nat) (v : Bool) : (d.wbit f i b v).fab = d.fab := (rfl)
@[simp] theorem Dev.wbit_cfg (d : Dev) (f : Fld) (i b : Nat) (v : Bool) : (d.wbit f i b v).cfg = d.cfg := (rfl)
@[simp] theorem Dev.wbit_fuses (d : Dev) (f : Fld) (i b : Nat) (v : Bool) : (d.wbit f i b v).fuses = d.fuses := (rfl)
@[simp] theorem Dev.wbit_scb (d : Dev) (f : Fld) (i b : Nat) (v : Bool) : (d.wbit f i b v).scb = d.scb := (rfl)
@[simp] theorem Dev.wbit_lan (d : Dev) (f : Fld) (i b : Nat) (v : Bool) : (d.wbit f i b v).lan = d.lan := (rfl)
@[simp] theorem Dev.wbit_gpio (d : Dev) (f : Fld) (i b : Nat) (v : Bool) : (d.wbit f i b v).gpio = d.gpio := (rfl)
@[simp] theorem Dev.wbit_getEnc (d : Dev) (f : Fld) (i b : Nat) (v : Bool) (i0 : Nat) : (d.wbit f i b v).getEnc i0 = d.getEnc i0 := (rfl)
@[simp] theorem Dev.wbit_getCap (d : Dev) (f : Fld) (i b : Nat) (v : Bool) (i0 : Nat) : (d.wbit f i b v).getCap i0 = d.getCap i0 := (rfl)
@[simp] theorem Dev.wbit_getLtg (d : Dev) (f : Fld) (i b : Nat) (v : Bool) (i0 : Nat) : (d.wbit f i b v).getLtg i0 = d.getLtg i0 := (rfl)
@[simp] theorem Dev.wbit_getHcp (d : Dev) (f : Fld) (i b : Nat) (v : Bool) (i0 : Nat) : (d.wbit f i b v).getHcp i0 = d.getHcp i0 := (rfl)
@[simp] theorem Dev.wbit_getMcv (d : Dev) (f : Fld) (i b : Nat) (v : Bool) (i0 : Nat) : (d.wbit f i b v).getMcv i0 = d.getMcv i0 := (rfl)
@[simp] theorem Dev.wbit_getCmp (d : Dev) (f : Fld) (i b : Nat) (v : Bool) (i0 : Nat) : (d.wbit f i b v).getCmp i0 = d.getCmp i0 := (rfl)
@[simp] theorem Dev.wbit_lane (d : Dev) (f : Fld) (i b : Nat) (v : Bool) (i0 : Nat) : (d.wbit f i b v).lane i0 = d.lane i0 := (rfl)
@[simp] theorem Dev.wbit_pad (d : Dev) (f : Fld) (i b : Nat) (v : Bool) (i0 : Nat) : (d.wbit f i b v).pad i0 = d.pad i0 := (rfl)
@[simp] theorem Dev.wbit_t (d : Dev) (f : Fld) (i b : Nat) (v : Bool) : (d.wbit f i b v).t = d.t := (rfl)

/-! `Dev.levelFall` -/

@[simp] theorem Dev.levelFall_now (d : Dev) (src : Nat) : (d.levelFall src).now = d.now := (rfl)
@[simp] theorem Dev.levelFall_tb (d : Dev) (src : Nat) : (d.levelFall src).tb = d.tb := (rfl)
@[simp] theorem Dev.levelFall_regs (d : Dev) (src : Nat) : (d.levelFall src).regs = d.regs := (rfl)
@[simp] theorem Dev.levelFall_sets (d : Dev) (src : Nat) : (d.levelFall src).sets = d.sets := (rfl)
@[simp] theorem Dev.levelFall_latch (d : Dev) (src : Nat) : (d.levelFall src).latch = d.latch := (rfl)
@[simp] theorem Dev.levelFall_rdata (d : Dev) (src : Nat) : (d.levelFall src).rdata = d.rdata := (rfl)
@[simp] theorem Dev.levelFall_free (d : Dev) (src : Nat) : (d.levelFall src).free = d.free := (rfl)
@[simp] theorem Dev.levelFall_enc (d : Dev) (src : Nat) : (d.levelFall src).enc = d.enc := (rfl)
@[simp] theorem Dev.levelFall_cap (d : Dev) (src : Nat) : (d.levelFall src).cap = d.cap := (rfl)
@[simp] theorem Dev.levelFall_ltg (d : Dev) (src : Nat) : (d.levelFall src).ltg = d.ltg := (rfl)
@[simp] theorem Dev.levelFall_hcp (d : Dev) (src : Nat) : (d.levelFall src).hcp = d.hcp := (rfl)
@[simp] theorem Dev.levelFall_zlk (d : Dev) (src : Nat) : (d.levelFall src).zlk = d.zlk := (rfl)
@[simp] theorem Dev.levelFall_pwr (d : Dev) (src : Nat) : (d.levelFall src).pwr = d.pwr := (rfl)
@[simp] theorem Dev.levelFall_kw (d : Dev) (src : Nat) : (d.levelFall src).kw = d.kw := (rfl)
@[simp] theorem Dev.levelFall_pcu (d : Dev) (src : Nat) : (d.levelFall src).pcu = d.pcu := (rfl)
@[simp] theorem Dev.levelFall_cal (d : Dev) (src : Nat) : (d.levelFall src).cal = d.cal := (rfl)
@[simp] theorem Dev.levelFall_anx (d : Dev) (src : Nat) : (d.levelFall src).anx = d.anx := (rfl)
@[simp] theorem Dev.levelFall_mcv (d : Dev) (src : Nat) : (d.levelFall src).mcv = d.mcv := (rfl)
@[simp] theorem Dev.levelFall_bank (d : Dev) (src : Nat) : (d.levelFall src).bank = d.bank := (rfl)
@[simp] theorem Dev.levelFall_fab (d : Dev) (src : Nat) : (d.levelFall src).fab = d.fab := (rfl)
@[simp] theorem Dev.levelFall_cfg (d : Dev) (src : Nat) : (d.levelFall src).cfg = d.cfg := (rfl)
@[simp] theorem Dev.levelFall_fuses (d : Dev) (src : Nat) : (d.levelFall src).fuses = d.fuses := (rfl)
@[simp] theorem Dev.levelFall_scb (d : Dev) (src : Nat) : (d.levelFall src).scb = d.scb := (rfl)
@[simp] theorem Dev.levelFall_lan (d : Dev) (src : Nat) : (d.levelFall src).lan = d.lan := (rfl)
@[simp] theorem Dev.levelFall_gpio (d : Dev) (src : Nat) : (d.levelFall src).gpio = d.gpio := (rfl)
@[simp] theorem Dev.levelFall_rreg (d : Dev) (src : Nat) (k0 : RegKind) (i0 : Nat) : (d.levelFall src).rreg k0 i0 = d.rreg k0 i0 := (rfl)
@[simp] theorem Dev.levelFall_rf (d : Dev) (src : Nat) (f0 : Fld) (i0 : Nat) : (d.levelFall src).rf f0 i0 = d.rf f0 i0 := (rfl)
@[simp] theorem Dev.levelFall_on (d : Dev) (src : Nat) (f0 : Fld) (i0 : Nat) : (d.levelFall src).on f0 i0 = d.on f0 i0 := (rfl)
@[simp] theorem Dev.levelFall_getEnc (d : Dev) (src : Nat) (i0 : Nat) : (d.levelFall src).getEnc i0 = d.getEnc i0 := (rfl)
@[simp] theorem Dev.levelFall_getCap (d : Dev) (src : Nat) (i0 : Nat) : (d.levelFall src).getCap i0 = d.getCap i0 := (rfl)
@[simp] theorem Dev.levelFall_getLtg (d : Dev) (src : Nat) (i0 : Nat) : (d.levelFall src).getLtg i0 = d.getLtg i0 := (rfl)
@[simp] theorem Dev.levelFall_getHcp (d : Dev) (src : Nat) (i0 : Nat) : (d.levelFall src).getHcp i0 = d.getHcp i0 := (rfl)
@[simp] theorem Dev.levelFall_getMcv (d : Dev) (src : Nat) (i0 : Nat) : (d.levelFall src).getMcv i0 = d.getMcv i0 := (rfl)
@[simp] theorem Dev.levelFall_getCmp (d : Dev) (src : Nat) (i0 : Nat) : (d.levelFall src).getCmp i0 = d.getCmp i0 := (rfl)
@[simp] theorem Dev.levelFall_lane (d : Dev) (src : Nat) (i0 : Nat) : (d.levelFall src).lane i0 = d.lane i0 := (rfl)
@[simp] theorem Dev.levelFall_pad (d : Dev) (src : Nat) (i0 : Nat) : (d.levelFall src).pad i0 = d.pad i0 := (rfl)
@[simp] theorem Dev.levelFall_t (d : Dev) (src : Nat) : (d.levelFall src).t = d.t := (rfl)

/-! `Dev.postRec` -/

@[simp] theorem Dev.postRec_now (d : Dev) (r : EvRec) : (d.postRec r).now = d.now := by unfold Dev.postRec; split <;> rfl
@[simp] theorem Dev.postRec_tb (d : Dev) (r : EvRec) : (d.postRec r).tb = d.tb := by unfold Dev.postRec; split <;> rfl
@[simp] theorem Dev.postRec_regs (d : Dev) (r : EvRec) : (d.postRec r).regs = d.regs := by unfold Dev.postRec; split <;> rfl
@[simp] theorem Dev.postRec_sets (d : Dev) (r : EvRec) : (d.postRec r).sets = d.sets := by unfold Dev.postRec; split <;> rfl
@[simp] theorem Dev.postRec_latch (d : Dev) (r : EvRec) : (d.postRec r).latch = d.latch := by unfold Dev.postRec; split <;> rfl
@[simp] theorem Dev.postRec_rdata (d : Dev) (r : EvRec) : (d.postRec r).rdata = d.rdata := by unfold Dev.postRec; split <;> rfl
@[simp] theorem Dev.postRec_free (d : Dev) (r : EvRec) : (d.postRec r).free = d.free := by unfold Dev.postRec; split <;> rfl
@[simp] theorem Dev.postRec_enc (d : Dev) (r : EvRec) : (d.postRec r).enc = d.enc := by unfold Dev.postRec; split <;> rfl
@[simp] theorem Dev.postRec_cap (d : Dev) (r : EvRec) : (d.postRec r).cap = d.cap := by unfold Dev.postRec; split <;> rfl
@[simp] theorem Dev.postRec_ltg (d : Dev) (r : EvRec) : (d.postRec r).ltg = d.ltg := by unfold Dev.postRec; split <;> rfl
@[simp] theorem Dev.postRec_hcp (d : Dev) (r : EvRec) : (d.postRec r).hcp = d.hcp := by unfold Dev.postRec; split <;> rfl
@[simp] theorem Dev.postRec_zlk (d : Dev) (r : EvRec) : (d.postRec r).zlk = d.zlk := by unfold Dev.postRec; split <;> rfl
@[simp] theorem Dev.postRec_pwr (d : Dev) (r : EvRec) : (d.postRec r).pwr = d.pwr := by unfold Dev.postRec; split <;> rfl
@[simp] theorem Dev.postRec_kw (d : Dev) (r : EvRec) : (d.postRec r).kw = d.kw := by unfold Dev.postRec; split <;> rfl
@[simp] theorem Dev.postRec_pcu (d : Dev) (r : EvRec) : (d.postRec r).pcu = d.pcu := by unfold Dev.postRec; split <;> rfl
@[simp] theorem Dev.postRec_cal (d : Dev) (r : EvRec) : (d.postRec r).cal = d.cal := by unfold Dev.postRec; split <;> rfl
@[simp] theorem Dev.postRec_anx (d : Dev) (r : EvRec) : (d.postRec r).anx = d.anx := by unfold Dev.postRec; split <;> rfl
@[simp] theorem Dev.postRec_mcv (d : Dev) (r : EvRec) : (d.postRec r).mcv = d.mcv := by unfold Dev.postRec; split <;> rfl
@[simp] theorem Dev.postRec_bank (d : Dev) (r : EvRec) : (d.postRec r).bank = d.bank := by unfold Dev.postRec; split <;> rfl
@[simp] theorem Dev.postRec_fab (d : Dev) (r : EvRec) : (d.postRec r).fab = d.fab := by unfold Dev.postRec; split <;> rfl
@[simp] theorem Dev.postRec_cfg (d : Dev) (r : EvRec) : (d.postRec r).cfg = d.cfg := by unfold Dev.postRec; split <;> rfl
@[simp] theorem Dev.postRec_fuses (d : Dev) (r : EvRec) : (d.postRec r).fuses = d.fuses := by unfold Dev.postRec; split <;> rfl
@[simp] theorem Dev.postRec_scb (d : Dev) (r : EvRec) : (d.postRec r).scb = d.scb := by unfold Dev.postRec; split <;> rfl
@[simp] theorem Dev.postRec_lan (d : Dev) (r : EvRec) : (d.postRec r).lan = d.lan := by unfold Dev.postRec; split <;> rfl
@[simp] theorem Dev.postRec_gpio (d : Dev) (r : EvRec) : (d.postRec r).gpio = d.gpio := by unfold Dev.postRec; split <;> rfl
@[simp] theorem Dev.postRec_rreg (d : Dev) (r : EvRec) (k0 : RegKind) (i0 : Nat) : (d.postRec r).rreg k0 i0 = d.rreg k0 i0 := by unfold Dev.postRec; split <;> rfl
@[simp] theorem Dev.postRec_rf (d : Dev) (r : EvRec) (f0 : Fld) (i0 : Nat) : (d.postRec r).rf f0 i0 = d.rf f0 i0 := by unfold Dev.postRec; split <;> rfl
@[simp] theorem Dev.postRec_on (d : Dev) (r : EvRec) (f0 : Fld) (i0 : Nat) : (d.postRec r).on f0 i0 = d.on f0 i0 := by unfold Dev.postRec; split <;> rfl
@[simp] theorem Dev.postRec_getEnc (d : Dev) (r : EvRec) (i0 : Nat) : (d.postRec r).getEnc i0 = d.getEnc i0 := by unfold Dev.postRec; split <;> rfl
@[simp] theorem Dev.postRec_getCap (d : Dev) (r : EvRec) (i0 : Nat) : (d.postRec r).getCap i0 = d.getCap i0 := by unfold Dev.postRec; split <;> rfl
@[simp] theorem Dev.postRec_getLtg (d : Dev) (r : EvRec) (i0 : Nat) : (d.postRec r).getLtg i0 = d.getLtg i0 := by unfold Dev.postRec; split <;> rfl
@[simp] theorem Dev.postRec_getHcp (d : Dev) (r : EvRec) (i0 : Nat) : (d.postRec r).getHcp i0 = d.getHcp i0 := by unfold Dev.postRec; split <;> rfl
@[simp] theorem Dev.postRec_getMcv (d : Dev) (r : EvRec) (i0 : Nat) : (d.postRec r).getMcv i0 = d.getMcv i0 := by unfold Dev.postRec; split <;> rfl
@[simp] theorem Dev.postRec_getCmp (d : Dev) (r : EvRec) (i0 : Nat) : (d.postRec r).getCmp i0 = d.getCmp i0 := by unfold Dev.postRec; split <;> rfl
@[simp] theorem Dev.postRec_lane (d : Dev) (r : EvRec) (i0 : Nat) : (d.postRec r).lane i0 = d.lane i0 := by unfold Dev.postRec; split <;> rfl
@[simp] theorem Dev.postRec_pad (d : Dev) (r : EvRec) (i0 : Nat) : (d.postRec r).pad i0 = d.pad i0 := by unfold Dev.postRec; split <;> rfl
@[simp] theorem Dev.postRec_t (d : Dev) (r : EvRec) : (d.postRec r).t = d.t := by unfold Dev.postRec; split <;> rfl

/-! `Dev.postAt` -/

@[simp] theorem Dev.postAt_now (d : Dev) (k : RecKind) (a b c : Nat) : (d.postAt k a b c).now = d.now := by unfold Dev.postAt Dev.postRec; split <;> rfl
@[simp] theorem Dev.postAt_tb (d : Dev) (k : RecKind) (a b c : Nat) : (d.postAt k a b c).tb = d.tb := by unfold Dev.postAt Dev.postRec; split <;> rfl
@[simp] theorem Dev.postAt_regs (d : Dev) (k : RecKind) (a b c : Nat) : (d.postAt k a b c).regs = d.regs := by unfold Dev.postAt Dev.postRec; split <;> rfl
@[simp] theorem Dev.postAt_sets (d : Dev) (k : RecKind) (a b c : Nat) : (d.postAt k a b c).sets = d.sets := by unfold Dev.postAt Dev.postRec; split <;> rfl
@[simp] theorem Dev.postAt_latch (d : Dev) (k : RecKind) (a b c : Nat) : (d.postAt k a b c).latch = d.latch := by unfold Dev.postAt Dev.postRec; split <;> rfl
@[simp] theorem Dev.postAt_rdata (d : Dev) (k : RecKind) (a b c : Nat) : (d.postAt k a b c).rdata = d.rdata := by unfold Dev.postAt Dev.postRec; split <;> rfl
@[simp] theorem Dev.postAt_free (d : Dev) (k : RecKind) (a b c : Nat) : (d.postAt k a b c).free = d.free := by unfold Dev.postAt Dev.postRec; split <;> rfl
@[simp] theorem Dev.postAt_enc (d : Dev) (k : RecKind) (a b c : Nat) : (d.postAt k a b c).enc = d.enc := by unfold Dev.postAt Dev.postRec; split <;> rfl
@[simp] theorem Dev.postAt_cap (d : Dev) (k : RecKind) (a b c : Nat) : (d.postAt k a b c).cap = d.cap := by unfold Dev.postAt Dev.postRec; split <;> rfl
@[simp] theorem Dev.postAt_ltg (d : Dev) (k : RecKind) (a b c : Nat) : (d.postAt k a b c).ltg = d.ltg := by unfold Dev.postAt Dev.postRec; split <;> rfl
@[simp] theorem Dev.postAt_hcp (d : Dev) (k : RecKind) (a b c : Nat) : (d.postAt k a b c).hcp = d.hcp := by unfold Dev.postAt Dev.postRec; split <;> rfl
@[simp] theorem Dev.postAt_zlk (d : Dev) (k : RecKind) (a b c : Nat) : (d.postAt k a b c).zlk = d.zlk := by unfold Dev.postAt Dev.postRec; split <;> rfl
@[simp] theorem Dev.postAt_pwr (d : Dev) (k : RecKind) (a b c : Nat) : (d.postAt k a b c).pwr = d.pwr := by unfold Dev.postAt Dev.postRec; split <;> rfl
@[simp] theorem Dev.postAt_kw (d : Dev) (k : RecKind) (a b c : Nat) : (d.postAt k a b c).kw = d.kw := by unfold Dev.postAt Dev.postRec; split <;> rfl
@[simp] theorem Dev.postAt_pcu (d : Dev) (k : RecKind) (a b c : Nat) : (d.postAt k a b c).pcu = d.pcu := by unfold Dev.postAt Dev.postRec; split <;> rfl
@[simp] theorem Dev.postAt_cal (d : Dev) (k : RecKind) (a b c : Nat) : (d.postAt k a b c).cal = d.cal := by unfold Dev.postAt Dev.postRec; split <;> rfl
@[simp] theorem Dev.postAt_anx (d : Dev) (k : RecKind) (a b c : Nat) : (d.postAt k a b c).anx = d.anx := by unfold Dev.postAt Dev.postRec; split <;> rfl
@[simp] theorem Dev.postAt_mcv (d : Dev) (k : RecKind) (a b c : Nat) : (d.postAt k a b c).mcv = d.mcv := by unfold Dev.postAt Dev.postRec; split <;> rfl
@[simp] theorem Dev.postAt_bank (d : Dev) (k : RecKind) (a b c : Nat) : (d.postAt k a b c).bank = d.bank := by unfold Dev.postAt Dev.postRec; split <;> rfl
@[simp] theorem Dev.postAt_fab (d : Dev) (k : RecKind) (a b c : Nat) : (d.postAt k a b c).fab = d.fab := by unfold Dev.postAt Dev.postRec; split <;> rfl
@[simp] theorem Dev.postAt_cfg (d : Dev) (k : RecKind) (a b c : Nat) : (d.postAt k a b c).cfg = d.cfg := by unfold Dev.postAt Dev.postRec; split <;> rfl
@[simp] theorem Dev.postAt_fuses (d : Dev) (k : RecKind) (a b c : Nat) : (d.postAt k a b c).fuses = d.fuses := by unfold Dev.postAt Dev.postRec; split <;> rfl
@[simp] theorem Dev.postAt_scb (d : Dev) (k : RecKind) (a b c : Nat) : (d.postAt k a b c).scb = d.scb := by unfold Dev.postAt Dev.postRec; split <;> rfl
@[simp] theorem Dev.postAt_lan (d : Dev) (k : RecKind) (a b c : Nat) : (d.postAt k a b c).lan = d.lan := by unfold Dev.postAt Dev.postRec; split <;> rfl
@[simp] theorem Dev.postAt_gpio (d : Dev) (k : RecKind) (a b c : Nat) : (d.postAt k a b c).gpio = d.gpio := by unfold Dev.postAt Dev.postRec; split <;> rfl
@[simp] theorem Dev.postAt_rreg (d : Dev) (k : RecKind) (a b c : Nat) (k0 : RegKind) (i0 : Nat) : (d.postAt k a b c).rreg k0 i0 = d.rreg k0 i0 := by unfold Dev.postAt Dev.postRec; split <;> rfl
@[simp] theorem Dev.postAt_rf (d : Dev) (k : RecKind) (a b c : Nat) (f0 : Fld) (i0 : Nat) : (d.postAt k a b c).rf f0 i0 = d.rf f0 i0 := by unfold Dev.postAt Dev.postRec; split <;> rfl
@[simp] theorem Dev.postAt_on (d : Dev) (k : RecKind) (a b c : Nat) (f0 : Fld) (i0 : Nat) : (d.postAt k a b c).on f0 i0 = d.on f0 i0 := by unfold Dev.postAt Dev.postRec; split <;> rfl
@[simp] theorem Dev.postAt_getEnc (d : Dev) (k : RecKind) (a b c : Nat) (i0 : Nat) : (d.postAt k a b c).getEnc i0 = d.getEnc i0 := by unfold Dev.postAt Dev.postRec; split <;> rfl
@[simp] theorem Dev.postAt_getCap (d : Dev) (k : RecKind) (a b c : Nat) (i0 : Nat) : (d.postAt k a b c).getCap i0 = d.getCap i0 := by unfold Dev.postAt Dev.postRec; split <;> rfl
@[simp] theorem Dev.postAt_getLtg (d : Dev) (k : RecKind) (a b c : Nat) (i0 : Nat) : (d.postAt k a b c).getLtg i0 = d.getLtg i0 := by unfold Dev.postAt Dev.postRec; split <;> rfl
@[simp] theorem Dev.postAt_getHcp (d : Dev) (k : RecKind) (a b c : Nat) (i0 : Nat) : (d.postAt k a b c).getHcp i0 = d.getHcp i0 := by unfold Dev.postAt Dev.postRec; split <;> rfl
@[simp] theorem Dev.postAt_getMcv (d : Dev) (k : RecKind) (a b c : Nat) (i0 : Nat) : (d.postAt k a b c).getMcv i0 = d.getMcv i0 := by unfold Dev.postAt Dev.postRec; split <;> rfl
@[simp] theorem Dev.postAt_getCmp (d : Dev) (k : RecKind) (a b c : Nat) (i0 : Nat) : (d.postAt k a b c).getCmp i0 = d.getCmp i0 := by unfold Dev.postAt Dev.postRec; split <;> rfl
@[simp] theorem Dev.postAt_lane (d : Dev) (k : RecKind) (a b c : Nat) (i0 : Nat) : (d.postAt k a b c).lane i0 = d.lane i0 := by unfold Dev.postAt Dev.postRec; split <;> rfl
@[simp] theorem Dev.postAt_pad (d : Dev) (k : RecKind) (a b c : Nat) (i0 : Nat) : (d.postAt k a b c).pad i0 = d.pad i0 := by unfold Dev.postAt Dev.postRec; split <;> rfl
@[simp] theorem Dev.postAt_t (d : Dev) (k : RecKind) (a b c : Nat) : (d.postAt k a b c).t = d.t := by unfold Dev.postAt Dev.postRec; split <;> rfl

/-! `Dev.post` -/

@[simp] theorem Dev.post_now (d : Dev) (k : RecKind) (a b : Nat) : (d.post k a b).now = d.now := by unfold Dev.post Dev.postRec; split <;> rfl
@[simp] theorem Dev.post_tb (d : Dev) (k : RecKind) (a b : Nat) : (d.post k a b).tb = d.tb := by unfold Dev.post Dev.postRec; split <;> rfl
@[simp] theorem Dev.post_regs (d : Dev) (k : RecKind) (a b : Nat) : (d.post k a b).regs = d.regs := by unfold Dev.post Dev.postRec; split <;> rfl
@[simp] theorem Dev.post_sets (d : Dev) (k : RecKind) (a b : Nat) : (d.post k a b).sets = d.sets := by unfold Dev.post Dev.postRec; split <;> rfl
@[simp] theorem Dev.post_latch (d : Dev) (k : RecKind) (a b : Nat) : (d.post k a b).latch = d.latch := by unfold Dev.post Dev.postRec; split <;> rfl
@[simp] theorem Dev.post_rdata (d : Dev) (k : RecKind) (a b : Nat) : (d.post k a b).rdata = d.rdata := by unfold Dev.post Dev.postRec; split <;> rfl
@[simp] theorem Dev.post_free (d : Dev) (k : RecKind) (a b : Nat) : (d.post k a b).free = d.free := by unfold Dev.post Dev.postRec; split <;> rfl
@[simp] theorem Dev.post_enc (d : Dev) (k : RecKind) (a b : Nat) : (d.post k a b).enc = d.enc := by unfold Dev.post Dev.postRec; split <;> rfl
@[simp] theorem Dev.post_cap (d : Dev) (k : RecKind) (a b : Nat) : (d.post k a b).cap = d.cap := by unfold Dev.post Dev.postRec; split <;> rfl
@[simp] theorem Dev.post_ltg (d : Dev) (k : RecKind) (a b : Nat) : (d.post k a b).ltg = d.ltg := by unfold Dev.post Dev.postRec; split <;> rfl
@[simp] theorem Dev.post_hcp (d : Dev) (k : RecKind) (a b : Nat) : (d.post k a b).hcp = d.hcp := by unfold Dev.post Dev.postRec; split <;> rfl
@[simp] theorem Dev.post_zlk (d : Dev) (k : RecKind) (a b : Nat) : (d.post k a b).zlk = d.zlk := by unfold Dev.post Dev.postRec; split <;> rfl
@[simp] theorem Dev.post_pwr (d : Dev) (k : RecKind) (a b : Nat) : (d.post k a b).pwr = d.pwr := by unfold Dev.post Dev.postRec; split <;> rfl
@[simp] theorem Dev.post_kw (d : Dev) (k : RecKind) (a b : Nat) : (d.post k a b).kw = d.kw := by unfold Dev.post Dev.postRec; split <;> rfl
@[simp] theorem Dev.post_pcu (d : Dev) (k : RecKind) (a b : Nat) : (d.post k a b).pcu = d.pcu := by unfold Dev.post Dev.postRec; split <;> rfl
@[simp] theorem Dev.post_cal (d : Dev) (k : RecKind) (a b : Nat) : (d.post k a b).cal = d.cal := by unfold Dev.post Dev.postRec; split <;> rfl
@[simp] theorem Dev.post_anx (d : Dev) (k : RecKind) (a b : Nat) : (d.post k a b).anx = d.anx := by unfold Dev.post Dev.postRec; split <;> rfl
@[simp] theorem Dev.post_mcv (d : Dev) (k : RecKind) (a b : Nat) : (d.post k a b).mcv = d.mcv := by unfold Dev.post Dev.postRec; split <;> rfl
@[simp] theorem Dev.post_bank (d : Dev) (k : RecKind) (a b : Nat) : (d.post k a b).bank = d.bank := by unfold Dev.post Dev.postRec; split <;> rfl
@[simp] theorem Dev.post_fab (d : Dev) (k : RecKind) (a b : Nat) : (d.post k a b).fab = d.fab := by unfold Dev.post Dev.postRec; split <;> rfl
@[simp] theorem Dev.post_cfg (d : Dev) (k : RecKind) (a b : Nat) : (d.post k a b).cfg = d.cfg := by unfold Dev.post Dev.postRec; split <;> rfl
@[simp] theorem Dev.post_fuses (d : Dev) (k : RecKind) (a b : Nat) : (d.post k a b).fuses = d.fuses := by unfold Dev.post Dev.postRec; split <;> rfl
@[simp] theorem Dev.post_scb (d : Dev) (k : RecKind) (a b : Nat) : (d.post k a b).scb = d.scb := by unfold Dev.post Dev.postRec; split <;> rfl
@[simp] theorem Dev.post_lan (d : Dev) (k : RecKind) (a b : Nat) : (d.post k a b).lan = d.lan := by unfold Dev.post Dev.postRec; split <;> rfl
@[simp] theorem Dev.post_gpio (d : Dev) (k : RecKind) (a b : Nat) : (d.post k a b).gpio = d.gpio := by unfold Dev.post Dev.postRec; split <;> rfl
@[simp] theorem Dev.post_rreg (d : Dev) (k : RecKind) (a b : Nat) (k0 : RegKind) (i0 : Nat) : (d.post k a b).rreg k0 i0 = d.rreg k0 i0 := by unfold Dev.post Dev.postRec; split <;> rfl
@[simp] theorem Dev.post_rf (d : Dev) (k : RecKind) (a b : Nat) (f0 : Fld) (i0 : Nat) : (d.post k a b).rf f0 i0 = d.rf f0 i0 := by unfold Dev.post Dev.postRec; split <;> rfl
@[simp] theorem Dev.post_on (d : Dev) (k : RecKind) (a b : Nat) (f0 : Fld) (i0 : Nat) : (d.post k a b).on f0 i0 = d.on f0 i0 := by unfold Dev.post Dev.postRec; split <;> rfl
@[simp] theorem Dev.post_getEnc (d : Dev) (k : RecKind) (a b : Nat) (i0 : Nat) : (d.post k a b).getEnc i0 = d.getEnc i0 := by unfold Dev.post Dev.postRec; split <;> rfl
@[simp] theorem Dev.post_getCap (d : Dev) (k : RecKind) (a b : Nat) (i0 : Nat) : (d.post k a b).getCap i0 = d.getCap i0 := by unfold Dev.post Dev.postRec; split <;> rfl
@[simp] theorem Dev.post_getLtg (d : Dev) (k : RecKind) (a b : Nat) (i0 : Nat) : (d.post k a b).getLtg i0 = d.getLtg i0 := by unfold Dev.post Dev.postRec; split <;> rfl
@[simp] theorem Dev.post_getHcp (d : Dev) (k : RecKind) (a b : Nat) (i0 : Nat) : (d.post k a b).getHcp i0 = d.getHcp i0 := by unfold Dev.post Dev.postRec; split <;> rfl
@[simp] theorem Dev.post_getMcv (d : Dev) (k : RecKind) (a b : Nat) (i0 : Nat) : (d.post k a b).getMcv i0 = d.getMcv i0 := by unfold Dev.post Dev.postRec; split <;> rfl
@[simp] theorem Dev.post_getCmp (d : Dev) (k : RecKind) (a b : Nat) (i0 : Nat) : (d.post k a b).getCmp i0 = d.getCmp i0 := by unfold Dev.post Dev.postRec; split <;> rfl
@[simp] theorem Dev.post_lane (d : Dev) (k : RecKind) (a b : Nat) (i0 : Nat) : (d.post k a b).lane i0 = d.lane i0 := by unfold Dev.post Dev.postRec; split <;> rfl
@[simp] theorem Dev.post_pad (d : Dev) (k : RecKind) (a b : Nat) (i0 : Nat) : (d.post k a b).pad i0 = d.pad i0 := by unfold Dev.post Dev.postRec; split <;> rfl
@[simp] theorem Dev.post_t (d : Dev) (k : RecKind) (a b : Nat) : (d.post k a b).t = d.t := by unfold Dev.post Dev.postRec; split <;> rfl

/-! `State.onDev` -/

@[simp] theorem State.onDev_dev (s : State) (f : Dev → Dev) : (s.onDev f).dev = f s.dev := (rfl)

@[simp] theorem State.onDev_mem (s : State) (f : Dev → Dev) : (s.onDev f).mem = s.mem := (rfl)

@[simp] theorem State.onDev_pending (s : State) (f : Dev → Dev) : (s.onDev f).pending = s.pending := (rfl)

end Sys2Proof.Machine
end

