-- ==== Sys2Proof/Laws/Tab.lean ====
section
/-! SUPPORT. Finite maps and bit fields: a read after a write, and the canonical form. -/

namespace Sys2Proof.Machine

/-! Finite maps -/

theorem tfind_terase_self {α : Type} (t : Tab α) (k : Nat) : tfind (terase t k) k = none := by
  induction t with
  | nil => rfl
  | cons e r ih =>
    obtain ⟨a, x⟩ := e
    by_cases h : a = k
    · simpa [terase, h] using ih
    · simpa [terase, h, tfind] using ih

theorem tfind_terase_ne {α : Type} (t : Tab α) {j k : Nat} (h : j ≠ k) : tfind (terase t k) j = tfind t j := by
  induction t with
  | nil => rfl
  | cons e r ih =>
    obtain ⟨a, x⟩ := e
    by_cases hk : a = k
    · have : a ≠ j := fun e => h (e ▸ hk)
      simpa [terase, hk, tfind, this, Ne.symm h] using ih
    · by_cases hj : a = j
      · subst hj
        simp [terase, tfind, h]
      · simpa [terase, hk, tfind, hj] using ih

theorem tfind_tinsert_self {α : Type} (t : Tab α) (k : Nat) (v : α) (h : tfind t k = none) :
    tfind (tinsert t k v) k = some v := by
  induction t with
  | nil => simp [tinsert, tfind]
  | cons e r ih =>
    obtain ⟨a, x⟩ := e
    by_cases hk : k < a
    · simp [tinsert, hk, tfind]
    · by_cases ha : a = k
      · simp [tfind, ha] at h
      · simp only [tfind, ha, if_false] at h
        simpa [tinsert, hk, tfind, ha] using ih h

theorem tfind_tinsert_ne {α : Type} (t : Tab α) {j k : Nat} (v : α) (h : j ≠ k) :
    tfind (tinsert t k v) j = tfind t j := by
  induction t with
  | nil => simp [tinsert, tfind, Ne.symm h]
  | cons e r ih =>
    obtain ⟨a, x⟩ := e
    by_cases hk : k < a
    · simp [tinsert, hk, tfind, Ne.symm h]
    · by_cases ha : a = j
      · subst ha
        simp [tinsert, hk, tfind]
      · simpa [tinsert, hk, tfind, ha] using ih

/-- A read after a write to the same key. -/
@[simp] theorem tget_tset_self {α : Type} [DecidableEq α] (t : Tab α) (d : α) (k : Nat) (v : α) :
    tget (tset t d k v) d k = v := by
  unfold tget tset
  by_cases h : v = d
  · simp [h, tfind_terase_self]
  · simp [h, tfind_tinsert_self _ _ _ (tfind_terase_self t k)]

/-- A write leaves every other key. -/
theorem tget_tset_ne {α : Type} [DecidableEq α] (t : Tab α) (d d' : α) {j k : Nat} (v : α) (h : j ≠ k) :
    tget (tset t d k v) d' j = tget t d' j := by
  unfold tget tset
  by_cases hv : v = d
  · simp [hv, tfind_terase_ne _ h]
  · simp [hv, tfind_tinsert_ne _ _ h, tfind_terase_ne _ h]

theorem tcanon_filter {α : Type} [DecidableEq α] (d : α) (p : Nat × α → Bool) (t : Tab α) (h : tcanon d t = true) :
    tcanon d (t.filter p) = true := by
  induction t with
  | nil => rfl
  | cons e r ih =>
    obtain ⟨a, x⟩ := e
    simp only [tcanon, Bool.and_eq_true] at h
    obtain ⟨⟨h1, h2⟩, h3⟩ := h
    by_cases hp : p (a, x) = true
    · simp only [List.filter_cons, hp, if_true, tcanon, Bool.and_eq_true]
      refine ⟨⟨h1, ?_⟩, ih h3⟩
      simp only [List.all_eq_true, List.mem_filter] at h2 ⊢
      exact fun e he => h2 e he.1
    · simpa [List.filter_cons, hp] using ih h3

theorem mem_tinsert {α : Type} (t : Tab α) (k : Nat) (v : α) (e : Nat × α) (h : e ∈ tinsert t k v) :
    e = (k, v) ∨ e ∈ t := by
  induction t with
  | nil => simpa [tinsert] using h
  | cons f r ih =>
    obtain ⟨a, x⟩ := f
    by_cases hk : k < a
    · simpa [tinsert, hk] using h
    · simp only [tinsert, hk, if_false, List.mem_cons] at h
      rcases h with h | h
      · exact .inr (by simp [h])
      · rcases ih h with h | h
        · exact .inl h
        · exact .inr (by simp [h])

theorem tcanon_tinsert {α : Type} [DecidableEq α] (d : α) (t : Tab α) (k : Nat) (v : α) (hv : v ≠ d)
    (hk : ∀ e ∈ t, e.1 ≠ k) (h : tcanon d t = true) : tcanon d (tinsert t k v) = true := by
  induction t with
  | nil => simp [tinsert, tcanon, hv]
  | cons e r ih =>
    obtain ⟨a, x⟩ := e
    simp only [tcanon, Bool.and_eq_true, decide_eq_true_eq, List.all_eq_true] at h
    obtain ⟨⟨h1, h2⟩, h3⟩ := h
    by_cases ha : k < a
    · simp only [tinsert, ha, if_true, tcanon, Bool.and_eq_true, decide_eq_true_eq, List.all_eq_true]
      refine ⟨⟨hv, ?_⟩, ⟨⟨h1, h2⟩, h3⟩⟩
      intro e he
      rcases List.mem_cons.1 he with rfl | he
      · exact ha
      · exact Nat.lt_trans ha (h2 e he)
    · simp only [tinsert, ha, if_false, tcanon, Bool.and_eq_true, decide_eq_true_eq, List.all_eq_true]
      refine ⟨⟨h1, ?_⟩, ih (fun e he => hk e (List.mem_cons_of_mem _ he)) h3⟩
      intro e he
      rcases mem_tinsert r k v e he with rfl | he
      · have := hk (a, x) (List.mem_cons_self ..)
        simp at this ⊢; omega
      · exact h2 e he

/-- A write keeps the canonical form. -/
theorem tcanon_tset {α : Type} [DecidableEq α] (d : α) (t : Tab α) (k : Nat) (v : α) (h : tcanon d t = true) :
    tcanon d (tset t d k v) = true := by
  unfold tset
  by_cases hv : v = d
  · simpa [hv, terase] using tcanon_filter d _ t h
  · simp only [hv, if_false]
    refine tcanon_tinsert d _ k v hv ?_ (tcanon_filter d _ t h)
    intro e he
    simpa [terase] using (List.mem_filter.1 he).2

/-! Bit fields -/

/-- A field read after it was written. -/
theorem bitsOf_setBits_self (n l w v : Nat) : bitsOf (setBits n l w v) l w = v % 2 ^ w := by
  unfold bitsOf setBits
  have h1 : n / 2 ^ (l + w) * 2 ^ (l + w) + v % 2 ^ w * 2 ^ l + n % 2 ^ l
      = n % 2 ^ l + 2 ^ l * (n / 2 ^ (l + w) * 2 ^ w + v % 2 ^ w) := by
    rw [Nat.pow_add]; ring
  rw [h1, Nat.add_mul_div_left _ _ (Nat.two_pow_pos l), Nat.div_eq_of_lt (Nat.mod_lt _ (Nat.two_pow_pos l)),
    Nat.zero_add, Nat.mul_add_mod_self_right, Nat.mod_mod]

/-- A bit outside a field keeps its value when the field is written. -/
theorem testBit_setBits (n l w v i : Nat) :
    (setBits n l w v).testBit i = if l ≤ i ∧ i < l + w then v.testBit (i - l) else n.testBit i := by
  unfold setBits
  have h1 : n / 2 ^ (l + w) * 2 ^ (l + w) + v % 2 ^ w * 2 ^ l + n % 2 ^ l
      = 2 ^ l * (2 ^ w * (n / 2 ^ (l + w)) + v % 2 ^ w) + n % 2 ^ l := by
    rw [Nat.pow_add]; ring
  rw [h1, Nat.testBit_two_pow_mul_add _ (Nat.mod_lt _ (Nat.two_pow_pos l)),]
  by_cases hi : i < l
  · simp [hi, Nat.not_le.2 hi, Nat.testBit_mod_two_pow]
  · rw [if_neg hi, Nat.testBit_two_pow_mul_add _ (Nat.mod_lt _ (Nat.two_pow_pos w))]
    by_cases hw : i - l < w
    · have : l ≤ i ∧ i < l + w := by omega
      simp [hw, this, Nat.testBit_mod_two_pow]
    · have : ¬ (l ≤ i ∧ i < l + w) := by omega
      rw [if_neg hw, if_neg this, Nat.testBit_div_two_pow]
      congr 1; omega

/-- A field that shares no bit with a written one keeps its value. -/
theorem bitsOf_setBits_ne (n l w v l' w' : Nat) (h : l' + w' ≤ l ∨ l + w ≤ l') :
    bitsOf (setBits n l w v) l' w' = bitsOf n l' w' := by
  apply Nat.eq_of_testBit_eq
  intro i
  unfold bitsOf
  rw [Nat.testBit_mod_two_pow, Nat.testBit_mod_two_pow, Nat.testBit_div_two_pow, Nat.testBit_div_two_pow, testBit_setBits]
  by_cases hi : i < w'
  · have : ¬ (l ≤ l' + i ∧ l' + i < l + w) := by omega
    simp [hi, Nat.add_comm i l', this]
  · simp [hi]

theorem bitsOf_lt (n l w : Nat) : bitsOf n l w < 2 ^ w := Nat.mod_lt _ (Nat.two_pow_pos w)

theorem setBits_lt {n l w v m : Nat} (hn : n < 2 ^ m) (h : l + w ≤ m) : setBits n l w v < 2 ^ m := by
  apply Nat.lt_pow_two_of_testBit
  intro i hi
  rw [testBit_setBits]
  have : ¬ (l ≤ i ∧ i < l + w) := by omega
  rw [if_neg this]
  exact Nat.testBit_lt_two_pow (Nat.lt_of_lt_of_le hn (Nat.pow_le_pow_right (by omega) hi))

end Sys2Proof.Machine
end

