-- ==== Sys2Proof/Laws/Ops.lean ====
section
/-! SUPPORT. What the register operations do: a field read after a write, what a write leaves, and what the posting of a
record, a refusal and a handle change. -/

namespace Sys2Proof.Machine

/-! Registers -/

/-- Registers of different kinds have different keys. -/
theorem regKey_inj {k k' : RegKind} {i i' : Nat} (hi : i < 65536) (hi' : i' < 65536) (h : regKey k i = regKey k' i') :
    k = k' ∧ i = i' := by
  unfold regKey at h
  have h1 : k.ctorIdx = k'.ctorIdx := by omega
  refine ⟨?_, by omega⟩
  rw [← RegKind.ofNat_ctorIdx k, h1, RegKind.ofNat_ctorIdx]

theorem regKey_inj_idx {k : RegKind} {i i' : Nat} (h : regKey k i = regKey k i') : i = i' := by
  unfold regKey at h; omega

/-- A register read after it was written. -/
@[simp] theorem Dev.rreg_wreg_self (d : Dev) (k : RegKind) (i : Nat) (v : Word) : (d.wreg k i v).rreg k i = v := by
  simp [Dev.rreg, rregOf]

/-- Another element of the register keeps its value. -/
theorem Dev.rreg_wreg_idx (d : Dev) (k : RegKind) {i j : Nat} (v : Word) (h : j ≠ i) :
    (d.wreg k i v).rreg k j = d.rreg k j := by
  have : regKey k j ≠ regKey k i := fun e => h (regKey_inj_idx e)
  simp [Dev.rreg, rregOf, tget_tset_ne _ _ _ _ this]

/-- Another register keeps its value. -/
theorem Dev.rreg_wreg_kind (d : Dev) {k k' : RegKind} {i j : Nat} (v : Word) (h : k' ≠ k) (hi : i < 65536)
    (hj : j < 65536) : (d.wreg k i v).rreg k' j = d.rreg k' j := by
  have : regKey k' j ≠ regKey k i := fun e => h (regKey_inj hj hi e).1
  simp [Dev.rreg, rregOf, tget_tset_ne _ _ _ _ this]

theorem Dev.rf_eq (d : Dev) (f : Fld) (i : Nat) : d.rf f i = bitsOf (d.rreg f.kind i).toNat f.lsb f.width := rfl

theorem Dev.putF_eq (d : Dev) (f : Fld) (i n : Nat) :
    d.putF f i n = d.wreg f.kind i (BitVec.ofNat 32 (setBits (d.rreg f.kind i).toNat f.lsb f.width n)) := rfl

/-- What the device puts into a field changes the register map as any put does; only the notes of R7 come beside it. -/
theorem Dev.wf_regs (d : Dev) (f : Fld) (i n : Nat) : (d.wf f i n).regs = (d.putF f i n).regs := rfl

theorem Dev.rreg_wf (d : Dev) (f : Fld) (i n : Nat) (k : RegKind) (j : Nat) :
    (d.wf f i n).rreg k j = (d.putF f i n).rreg k j := rfl

theorem Dev.rf_wf (d : Dev) (f : Fld) (i n : Nat) (g : Fld) (j : Nat) : (d.wf f i n).rf g j = (d.putF f i n).rf g j := rfl

theorem Dev.rf_lt (d : Dev) (f : Fld) (i : Nat) : d.rf f i < 2 ^ f.width := bitsOf_lt _ _ _

/-- A field read after a number was put into it. -/
theorem Dev.rf_putF_self (d : Dev) (f : Fld) (i n : Nat) (h : f.lsb + f.width ≤ 32) :
    (d.putF f i n).rf f i = n % 2 ^ f.width := by
  rw [Dev.rf_eq, Dev.putF_eq, Dev.rreg_wreg_self, BitVec.toNat_ofNat,
    Nat.mod_eq_of_lt (setBits_lt (d.rreg f.kind i).isLt h), bitsOf_setBits_self]

/-- The same field of another element keeps its value, and so does every field of another element. -/
theorem Dev.rf_putF_idx (d : Dev) (f g : Fld) {i j : Nat} (n : Nat) (hk : g.kind = f.kind) (h : j ≠ i) :
    (d.putF f i n).rf g j = d.rf g j := by
  rw [Dev.rf_eq, Dev.putF_eq, hk, Dev.rreg_wreg_idx _ _ _ h, ← hk, ← Dev.rf_eq]

/-- A field of another register keeps its value. -/
theorem Dev.rf_putF_kind (d : Dev) (f g : Fld) {i j : Nat} (n : Nat) (h : g.kind ≠ f.kind) (hi : i < 65536)
    (hj : j < 65536) : (d.putF f i n).rf g j = d.rf g j := by
  rw [Dev.rf_eq, Dev.putF_eq, Dev.rreg_wreg_kind _ _ h hi hj, ← Dev.rf_eq]

/-- A field of the same register that shares no bit keeps its value. -/
theorem Dev.rf_putF_bits (d : Dev) (f g : Fld) (i n : Nat) (hk : g.kind = f.kind) (h : f.lsb + f.width ≤ 32)
    (hb : g.lsb + g.width ≤ f.lsb ∨ f.lsb + f.width ≤ g.lsb) : (d.putF f i n).rf g i = d.rf g i := by
  rw [Dev.rf_eq, Dev.putF_eq, hk, Dev.rreg_wreg_self, BitVec.toNat_ofNat,
    Nat.mod_eq_of_lt (setBits_lt (d.rreg f.kind i).isLt h), bitsOf_setBits_ne _ _ _ _ _ _ hb, ← hk, ← Dev.rf_eq]

/-- A field read after it was written. -/
theorem Dev.rf_wf_self (d : Dev) (f : Fld) (i n : Nat) (h : f.lsb + f.width ≤ 32) :
    (d.wf f i n).rf f i = n % 2 ^ f.width := d.rf_putF_self f i n h

/-- The same field of another element keeps its value, and so does every field of another element. -/
theorem Dev.rf_wf_idx (d : Dev) (f g : Fld) {i j : Nat} (n : Nat) (hk : g.kind = f.kind) (h : j ≠ i) :
    (d.wf f i n).rf g j = d.rf g j := d.rf_putF_idx f g n hk h

/-- A field of another register keeps its value. -/
theorem Dev.rf_wf_kind (d : Dev) (f g : Fld) {i j : Nat} (n : Nat) (h : g.kind ≠ f.kind) (hi : i < 65536)
    (hj : j < 65536) : (d.wf f i n).rf g j = d.rf g j := d.rf_putF_kind f g n h hi hj

/-- A field of the same register that shares no bit keeps its value. -/
theorem Dev.rf_wf_bits (d : Dev) (f g : Fld) (i n : Nat) (hk : g.kind = f.kind) (h : f.lsb + f.width ≤ 32)
    (hb : g.lsb + g.width ≤ f.lsb ∨ f.lsb + f.width ≤ g.lsb) : (d.wf f i n).rf g i = d.rf g i :=
  d.rf_putF_bits f g i n hk h hb

/-- A one-bit field set. -/
theorem Dev.on_wf_one (d : Dev) (f : Fld) (i : Nat) (h : f.lsb + f.width ≤ 32) (hw : 0 < f.width) :
    (d.wf f i 1).on f i = true := by
  have h1 : 1 < 2 ^ f.width := Nat.one_lt_two_pow (by omega)
  simp [Dev.on, Dev.rf_wf_self d f i 1 h, Nat.mod_eq_of_lt h1]

/-- A field cleared. -/
theorem Dev.on_wf_zero (d : Dev) (f : Fld) (i : Nat) (h : f.lsb + f.width ≤ 32) : (d.wf f i 0).on f i = false := by
  simp [Dev.on, Dev.rf_wf_self d f i 0 h]

/-- A one-bit field written with a truth value. -/
theorem Dev.on_wf_b2n (d : Dev) (f : Fld) (i : Nat) (b : Bool) (h : f.lsb + f.width ≤ 32) (hw : 0 < f.width) :
    (d.wf f i (b2n b)).on f i = b := by
  cases b
  · exact Dev.on_wf_zero d f i h
  · exact Dev.on_wf_one d f i h hw

/-- A counter after a step of it. -/
theorem Dev.rf_inc_self (d : Dev) (f : Fld) (i n : Nat) (h : f.lsb + f.width ≤ 32) :
    (d.inc f i n).rf f i = min (d.rf f i + n) (2 ^ f.width - 1) := by
  have h0 := Nat.two_pow_pos f.width
  exact (Dev.rf_wf_self d f i _ h).trans (Nat.mod_eq_of_lt (by omega))

/-- A bit of another register keeps its value. -/
theorem Dev.on_wf_kind (d : Dev) (f g : Fld) {i j : Nat} (n : Nat) (h : g.kind ≠ f.kind) (hi : i < 65536)
    (hj : j < 65536) : (d.wf f i n).on g j = d.on g j := by simp [Dev.on, Dev.rf_wf_kind d f g n h hi hj]

/-- A bit of the same register outside the field keeps its value. -/
theorem Dev.on_wf_bits (d : Dev) (f g : Fld) (i n : Nat) (hk : g.kind = f.kind) (h : f.lsb + f.width ≤ 32)
    (hb : g.lsb + g.width ≤ f.lsb ∨ f.lsb + f.width ≤ g.lsb) : (d.wf f i n).on g i = d.on g i := by
  simp [Dev.on, Dev.rf_wf_bits d f g i n hk h hb]

/-- A bit of another element keeps its value. -/
theorem Dev.on_wf_idx (d : Dev) (f g : Fld) {i j : Nat} (n : Nat) (hk : g.kind = f.kind) (h : j ≠ i) :
    (d.wf f i n).on g j = d.on g j := by simp [Dev.on, Dev.rf_wf_idx d f g n hk h]

/-- A whole register of another kind keeps its value. -/
theorem Dev.rreg_wf_kind (d : Dev) (f : Fld) {k : RegKind} {i j : Nat} (n : Nat) (h : k ≠ f.kind) (hi : i < 65536)
    (hj : j < 65536) : (d.wf f i n).rreg k j = d.rreg k j := Dev.rreg_wreg_kind _ _ h hi hj

/-- A field is its value as `on` reads it. -/
theorem Dev.on_iff (d : Dev) (f : Fld) (i : Nat) : d.on f i = true ↔ d.rf f i ≠ 0 := by simp [Dev.on]

/-! Maps of the device -/

@[simp] theorem Dev.getEnc_setEnc (d : Dev) (p : Nat) (e : EncPort) : (d.setEnc p e).getEnc p = e := by
  simp [Dev.getEnc, Dev.setEnc]

@[simp] theorem Dev.getCap_setCap (d : Dev) (k : Nat) (l : List CapEntry) : (d.setCap k l).getCap k = l := by
  simp [Dev.getCap, Dev.setCap]

@[simp] theorem Dev.getLtg_setLtg (d : Dev) (h : Nat) (l : Ltg) : (d.setLtg h l).getLtg h = l := by
  simp [Dev.getLtg, Dev.setLtg]

@[simp] theorem Dev.getHcp_setHcp (d : Dev) (h : Nat) (p : Hcp) : (d.setHcp h p).getHcp h = p := by
  simp [Dev.getHcp, Dev.setHcp]

/-! Records, refusals, handles -/

/-- A record is posted while the firmware runs, and changes only what is on its way to the queue. -/
theorem Dev.postRec_evq (d : Dev) (r : EvRec) (h : d.pwr.booted = true) :
    (d.postRec r).evq.inFlight = d.evq.inFlight ++ [r] := by simp [Dev.postRec, h]

/-- A new handle is listed, running, with its opcode. -/
theorem Dev.openHandle_listed (d : Dev) (op : Nat) :
    ⟨(d.openHandle op).1, op, false, d.t⟩ ∈ (d.openHandle op).2.kw.handles := by simp [Dev.openHandle]

/-! The working memory -/

theorem memByte_memPut_self (m : List Host.Cell) (a : Nat) (b : BitVec 8) : memByte (memPut m a b) a = b := by
  simp [memByte, memPut]

theorem memByte_memPut_ne (m : List Host.Cell) {a x : Nat} (b : BitVec 8) (h : x ≠ a) :
    memByte (memPut m a b) x = memByte m x := by simp [memByte, memPut, tget_tset_ne _ _ _ _ h]

/-- A write of `n` bytes leaves every byte outside them. -/
theorem memByte_memWrite_out (m : List Host.Cell) (a n v x : Nat) (h : x < a ∨ a + n ≤ x) :
    memByte (memWrite m a n v) x = memByte m x := by
  induction n generalizing m a v with
  | zero => rfl
  | succ n ih =>
    rw [memWrite, ih _ _ _ (by omega), memByte_memPut_ne]
    omega

/-- Bytes written read back. -/
theorem memRead_memWrite (m : List Host.Cell) (a n v : Nat) : memRead (memWrite m a n v) a n = v % 256 ^ n := by
  induction n generalizing m a v with
  | zero => simp [memRead, Nat.mod_one]
  | succ n ih =>
    rw [memRead, memWrite, ih, memByte_memWrite_out _ _ _ _ _ (by omega), memByte_memPut_self, BitVec.toNat_ofNat,
      Nat.pow_succ' (m := 256) (n := n), Nat.mod_mul (a := 256) (b := 256 ^ n)]

/-- Every memory operation keeps the canonical form. -/
theorem wf_memPut (m : List Host.Cell) (a : Nat) (b : BitVec 8) (h : Memory.wf m = true) : Memory.wf (memPut m a b) = true :=
  tcanon_tset _ _ _ _ h

theorem wf_memWrite (m : List Host.Cell) (a n v : Nat) (h : Memory.wf m = true) : Memory.wf (memWrite m a n v) = true := by
  induction n generalizing m a v with
  | zero => exact h
  | succ n ih => exact ih _ _ _ (wf_memPut _ _ _ h)

theorem wf_memZero (m : List Host.Cell) (a n : Nat) (h : Memory.wf m = true) : Memory.wf (memZero m a n) = true :=
  tcanon_filter _ _ _ h

theorem wf_zeroed (s : State) (a n : Nat) (h : Memory.wf s.mem = true) : Memory.wf (s.zeroed a n).mem = true :=
  wf_memZero _ _ _ h

theorem wf_bankZero (s : State) (b : Nat) (h : Memory.wf s.mem = true) : Memory.wf (s.bankZero b).mem = true :=
  wf_zeroed s _ _ h

theorem wf_nil : Memory.wf [] = true := rfl

theorem wf_reset : Memory.wf State.reset.mem = true := rfl

end Sys2Proof.Machine
end

