-- ==== Sys2Proof/Laws/Access.lean ====
section
/-! SUPPORT. Accesses: an address names the register it was made from, and what an accepted write or a served read does on
either path. -/

namespace Sys2Proof.Machine

set_option maxRecDepth 100000

/-- Every element of the register has an aligned address below the tables that names it. -/
def addrGood (k : RegKind) : Bool :=
  (List.range (regCount k)).all (fun i =>
    decide (decodeAddr (regAddr k i) = some (k, i)) && decide (regAddr k i % 4 = 0) && decide (regAddr k i < 0x180000))

theorem addr_good (k : RegKind) : addrGood k = true := by
  cases k <;> decide +kernel

theorem target_regAddr {k : RegKind} {i : Nat} (h : i < regCount k) :
    target (regAddr k i) = .reg k i ∧ regAddr k i % 4 = 0 := by
  have g := addr_good k
  unfold addrGood at g
  rw [List.all_eq_true] at g
  have := g i (List.mem_range.mpr h)
  simp only [Bool.and_eq_true, decide_eq_true_eq] at this
  obtain ⟨⟨h1, h2⟩, h3⟩ := this
  exact ⟨by simp only [target, h1, if_pos h3], h2⟩

/-- A host transaction of a device that is powered and neither asleep nor waking is just its access. -/
theorem State.hostDoes_awake (s : State) (f : State → State) (h : s.dev.takes .direct) : s.hostDoes f = f s := by
  obtain ⟨h1, h2, h3⟩ := h
  have hw : s.dev.wakeBegins 4 = s.dev := by
    unfold Dev.wakeBegins
    split <;> simp_all
  unfold State.hostDoes Dev.hostMeets
  split <;> simp_all [State.onDev]

theorem maskedValue_all (s : State) (a v : Nat) (e : MemEcc) (hv : v < 2 ^ 32) :
    s.maskedValue ⟨0, 0, a, 2 ^ 32 - 1, v, e⟩ = v := by
  have h1 : ∀ n : Nat, Nat.land n (2 ^ 32 - 1 - (2 ^ 32 - 1)) = 0 := fun n => by
    rw [Nat.sub_self]; exact Nat.and_zero n
  have h2 : Nat.land v (2 ^ 32 - 1) = v := by
    have := Nat.and_two_pow_sub_one_of_lt_two_pow hv
    exact this
  unfold State.maskedValue
  simp only [h1, h2]
  split
  · rw [show ∀ n : Nat, Nat.land 0 n = 0 from fun n => Nat.zero_and n]; exact Nat.zero_or v
  · exact Nat.zero_or v

/-- A register with something to write is not inert. -/
theorem Dev.inert_of_writable (d : Dev) (k : RegKind) (h : k.writable = true) : d.inert k = false := by
  simp [Dev.inert, h]

/-- An accepted write of a register takes effect, on either path (the pin masks and the isolation requests, whose writes
are refused bit by bit, apart). -/
theorem State.regWrite_accepted (s : State) (pth : Path) (k : RegKind) (i : Nat) (v : Word) (h : s.accepts pth k i v)
    (hk : k ≠ .GPIO_MOUT ∧ k ≠ .GPIO_MOE ∧ k ≠ .RGN_ISOLATE) :
    s.regWrite pth k i v = s.applyWrite pth k i v.toNat := by
  obtain ⟨⟨ht, hi, hr, -⟩, hw, hn⟩ := h
  have hw := Dev.inert_of_writable s.dev k hw
  obtain ⟨ha, hm⟩ := target_regAddr hi
  cases pth with
  | direct =>
    simp [State.regWrite, State.pathWrite, State.hostDoes_awake _ _ ht, State.directWrite, hm, ha, hr,
      State.directRegWrite, hw, hn, hk]
  | kweave =>
    have hv := maskedValue_all s (regAddr k i) v.toNat .clean v.isLt
    norm_num at hv
    have hf : s.dev.pktWriteFault (regAddr k i) v.toNat = none := by
      simp [Dev.pktWriteFault, Dev.addressFault, hm, ha, hr, hw, hn, hk]
    have ht' : s.dev.managementOn = true := ht
    simp [State.regWrite, State.pathWrite, ht', State.managementWrite, State.groupRun, hv, hf, State.pktWrite, ha]

/-- A served read of a register returns what the register shows to its path and sets off the read's effect. -/
theorem State.regRead_served (s : State) (pth : Path) (k : RegKind) (i : Nat) (h : s.serves pth k i) :
    s.regRead pth k i = s.onDev (fun d => (d.readEffect pth k i).setRdata (d.peek pth k i)) := by
  obtain ⟨ht, hi, hr, hsn⟩ := h
  obtain ⟨ha, hm⟩ := target_regAddr hi
  cases pth with
  | direct =>
    simp [State.regRead, State.pathRead, State.hostDoes_awake _ _ ht, State.directRead, hm, ha, hr, Dev.readReg, State.onDev]
    exact fun hk hf => absurd (hsn hk) (by simp [hf])
  | kweave =>
    have ht' : s.dev.managementOn = true := ht
    have hf : s.dev.readFault (regAddr k i) = none := by
      simp only [Dev.readFault, Dev.addressFault, hm, ha, hr]
      simp
      exact fun hk _ => hsn hk
    simp [State.regRead, State.pathRead, ht', State.managementRead, hf, ha, State.pktRead, Dev.readReg, State.onDev]

/-- What a write puts into the registers: the registers of other kinds and the other elements stay. -/
theorem Dev.rreg_wreg_ne (d : Dev) {k k' : RegKind} {i j : Nat} (v : Word) (h : (k', j) ≠ (k, i)) (hi : i < 65536)
    (hj : j < 65536) : (d.wreg k i v).rreg k' j = d.rreg k' j := by
  have : regKey k' j ≠ regKey k i := fun e => h (by obtain ⟨h1, h2⟩ := regKey_inj hj hi e; rw [h1, h2])
  simp [Dev.rreg, rregOf, tget_tset_ne _ _ _ _ this]

theorem Dev.rreg_wf_ne (d : Dev) (f : Fld) {k : RegKind} {i j : Nat} (n : Nat) (h : (k, j) ≠ (f.kind, i)) (hi : i < 65536)
    (hj : j < 65536) : (d.wf f i n).rreg k j = d.rreg k j := Dev.rreg_wreg_ne _ _ h hi hj

end Sys2Proof.Machine
end

