-- ==== Sys2Proof/Laws/Packet.lean ====
section
/-! SUPPORT. Packets: what an answer leaves when no word waits and the reply finds room, and what a short, a reporting and
a long operation come to once their checks pass. -/

namespace Sys2Proof.Machine

/-- Nothing but this packet occupies the mailbox, and a reply of `n` results finds room. -/
def Dev.quiet (d : Dev) (n : Nat) : Prop :=
  d.kw.fifo = [] ∧ d.kw.waiting = [] ∧ d.kw.pend = [] ∧ d.kw.out.length + 5 + n ≤ kwOutSize

/-- The mailbox after an answer. -/
def Kw.answer (k : Kw) (h : Nat) (ws : List Nat) : Kw :=
  { k with cur := none, out := k.out ++ ws, pend := [], replyHandle := h }

theorem replyWords_length (w1 st h : Nat) (loc : Option (Nat × Nat)) (r : List Nat) :
    (replyWords w1 st h loc r).length = 5 + r.length := by simp [replyWords]; omega

/-- Results go with OK and ACCEPTED only. -/
def sentResults (st : Nat) (r : List Nat) : List Nat := if st = stOK ∨ st = stACCEPTED then r else []

theorem sentResults_length (st : Nat) (r : List Nat) : (sentResults st r).length ≤ r.length := by
  unfold sentResults; split <;> simp

theorem Dev.reply_quiet (d : Dev) (w1 st h : Nat) (loc : Option (Nat × Nat)) (r : List Nat) (hq : d.quiet r.length) :
    d.reply w1 st h loc r = d.setKw (fun k => { k with
      out := k.out ++ replyWords w1 st h loc (sentResults st r), pend := [], replyHandle := h }) := by
  obtain ⟨h1, h2, h3, h4⟩ := hq
  have hl : (replyWords w1 st h loc (sentResults st r)).length ≤ kwOutSize - d.kw.out.length := by
    rw [replyWords_length]; have := sentResults_length st r; omega
  unfold sentResults at hl ⊢
  unfold Dev.reply Dev.replyFlow
  simp only [Dev.setKw]
  rw [List.take_of_length_le hl, List.drop_eq_nil_of_le hl]

/-- An answer in a quiet mailbox: the packet is over and the words of the reply stand in the reply FIFO. -/
theorem State.answered_quiet (s : State) (l : List Nat) (a : Answer) (hq : s.dev.quiet a.results.length) :
    s.answered l a = s.onDev (fun d => d.setKw (fun k =>
      k.answer a.handle (replyWords (l.getD 1 0) a.status a.handle a.loc (sentResults a.status a.results)))) := by
  unfold State.answered State.onDev
  beta_reduce
  rw [Dev.reply_quiet _ _ _ _ _ _ hq]
  obtain ⟨h1, h2, h3, h4⟩ := hq
  simp [Dev.kwAnswered, Dev.kwRun, Dev.setKw, h1, h2, Dev.kwPump, Kw.answer]

theorem State.interprets_packetFor {s : State} {op n : Nat} {l : List Nat} (h : s.interprets op l n) :
    s.dev.packetFor op = some l := by
  unfold Dev.packetFor
  rw [h.1]
  exact if_pos ⟨h.2.1, h.2.2.2.2.2.2⟩

theorem State.interprets_quiet {s : State} {op n : Nat} {l : List Nat} (h : s.interprets op l n) : s.dev.quiet n :=
  ⟨h.2.2.1, h.2.2.2.1, h.2.2.2.2.1, h.2.2.2.2.2.1⟩

theorem Dev.quiet_mono {d : Dev} {m n : Nat} (h : d.quiet n) (hm : m ≤ n) : d.quiet m :=
  ⟨h.1, h.2.1, h.2.2.1, by have := h.2.2.2; omega⟩

/-- A short operation whose checks pass. -/
theorem State.short_ok (s : State) (op n : Nat) (bad : List Nat → Option (Nat × Nat))
    (run : List Nat → State → State × Answer) (l : List Nat) (hp : s.dev.packetFor op = some l)
    (h2 : wordTwoFault l false = none) (hl : l.length = 4 + n) (hb : bad l = none) :
    s.short op n bad run = (run l s).1.answered l (run l s).2 := by
  simp [State.short, hp, firstFault, h2, lenFault, hl, hb]

/-- A reporting operation whose checks pass. -/
theorem State.report_ok (s : State) (op n : Nat) (bad : List Nat → Option (Nat × Nat)) (r : List Nat → Dev → List Nat)
    (l : List Nat) (hp : s.dev.packetFor op = some l) (h2 : wordTwoFault l false = none) (hl : l.length = 4 + n)
    (hb : bad l = none) : s.report op n bad r = s.answered l (okWith (r l s.dev)) :=
  State.short_ok s op n bad _ l hp h2 hl hb

/-- A long operation whose checks pass, in a state that does not bar it, with a handle free and DRY clear. -/
theorem State.long_ok (s : State) (op n : Nat) (bad : List Nat → Option (Nat × Nat))
    (barred : List Nat → Dev → Option Answer) (start : List Nat → Nat → State → State) (l : List Nat)
    (hp : s.dev.packetFor op = some l) (h2 : wordTwoFault l true = none) (hl : l.length = 4 + n) (hb : bad l = none)
    (hs : barred l s.dev = none) (hf : s.dev.handleFree = true) (hd : dry l = false) :
    s.long op n bad barred start =
      (start l (s.dev.openHandle op).1 (s.onDev (fun _ => (s.dev.openHandle op).2.reply (l.getD 1 0) stACCEPTED
        (s.dev.openHandle op).1 none []))).onDev (fun d => d.kwAnswered) := by
  simp [State.long, hp, firstFault, h2, lenFault, hl, hb, hs, hf, hd]

end Sys2Proof.Machine
end

