-- ==== Sys2Proof/Laws/Write.lean ====
section
/-! SUPPORT. What a write puts into a register before it sets anything off: each field by its access type, every other
register and everything outside the register map left alone. -/

namespace Sys2Proof.Machine

set_option maxRecDepth 100000

/-- The fields of a register belong to it, lie within 32 bits, and share no bit. -/
def fieldsGood (k : RegKind) : Bool :=
  k.fields.all (fun f => decide (f.kind = k) && decide (f.lsb + f.width ≤ 32)) &&
    decide (k.fields.Pairwise (fun f g => f.lsb + f.width ≤ g.lsb ∨ g.lsb + g.width ≤ f.lsb))

theorem fields_good (k : RegKind) : fieldsGood k = true := by
  cases k <;> decide +kernel

theorem field_kind {k : RegKind} {f : Fld} (h : f ∈ k.fields) : f.kind = k := by
  have g := fields_good k
  simp only [fieldsGood, Bool.and_eq_true, List.all_eq_true, decide_eq_true_eq] at g
  exact (g.1 f h).1

theorem field_fits {k : RegKind} {f : Fld} (h : f ∈ k.fields) : f.lsb + f.width ≤ 32 := by
  have g := fields_good k
  simp only [fieldsGood, Bool.and_eq_true, List.all_eq_true, decide_eq_true_eq] at g
  exact (g.1 f h).2

theorem fields_disjoint (k : RegKind) :
    k.fields.Pairwise (fun f g => f.lsb + f.width ≤ g.lsb ∨ g.lsb + g.width ≤ f.lsb) := by
  have g := fields_good k
  simp only [fieldsGood, Bool.and_eq_true, decide_eq_true_eq] at g
  exact g.2

theorem Fld.after_lt (f : Fld) {old new : Nat} (set : Nat) (ho : old < 2 ^ f.width) (hn : new < 2 ^ f.width) :
    f.after old new set < 2 ^ f.width := by
  have h0 := Nat.two_pow_pos f.width
  unfold Fld.after
  split
  · split
    · exact hn
    · split
      · exact Nat.mod_lt _ h0
      · omega
  · exact hn
  · exact lt_of_le_of_lt (Nat.sub_le _ _) ho
  · exact Nat.or_lt_two_pow ho hn
  · exact ho
  · exact ho

/-- The writes of a list of fields, in order. -/
def Dev.writeFields (d : Dev) (i v : Nat) (l : List Fld) : Dev :=
  l.foldl (fun d f => d.putF f i (f.after (d.rf f i) (bitsOf v f.lsb f.width) (d.setNow f i))) d

theorem Dev.writeAll_eq (d : Dev) (k : RegKind) (i v : Nat) : d.writeAll k i v = d.writeFields i v k.fields := rfl

/-- Only the register map changes. -/
theorem Dev.writeFields_regs (d : Dev) (i v : Nat) (l : List Fld) :
    d.writeFields i v l = { d with regs := (d.writeFields i v l).regs } := by
  induction l generalizing d with
  | nil => rfl
  | cons f l ih => exact ih (d.putF f i (f.after (d.rf f i) (bitsOf v f.lsb f.width) (d.setNow f i)))

/-- A field that shares no bit with the written ones keeps its value. -/
theorem Dev.rf_writeFields_out (d : Dev) (i v : Nat) (l : List Fld) (g : Fld)
    (hl : ∀ f ∈ l, f.kind = g.kind ∧ f.lsb + f.width ≤ 32 ∧ (g.lsb + g.width ≤ f.lsb ∨ f.lsb + f.width ≤ g.lsb)) :
    (d.writeFields i v l).rf g i = d.rf g i := by
  induction l generalizing d with
  | nil => rfl
  | cons f l ih =>
    have h := hl f (by simp)
    exact (ih _ (fun x hx => hl x (by simp [hx]))).trans (Dev.rf_putF_bits _ _ _ _ _ h.1.symm h.2.1 h.2.2)

theorem Dev.rf_writeFields (d : Dev) (k : RegKind) (i v : Nat) (l : List Fld) (f : Fld) (hf : f ∈ l)
    (hk : ∀ f ∈ l, f.kind = k ∧ f.lsb + f.width ≤ 32)
    (hp : l.Pairwise (fun f g => f.lsb + f.width ≤ g.lsb ∨ g.lsb + g.width ≤ f.lsb)) :
    (d.writeFields i v l).rf f i = f.after (d.rf f i) (bitsOf v f.lsb f.width) (d.setNow f i) := by
  induction l generalizing d with
  | nil => simp at hf
  | cons g l ih =>
    rw [List.pairwise_cons] at hp
    have hg := hk g (by simp)
    rcases List.mem_cons.mp hf with rfl | hf
    · refine (Dev.rf_writeFields_out _ i v l f (fun x hx => ⟨?_, (hk x (by simp [hx])).2, hp.1 x hx⟩)).trans ?_
      · rw [(hk x (by simp [hx])).1, hg.1]
      · rw [Dev.rf_putF_self _ _ _ _ hg.2, Nat.mod_eq_of_lt (Fld.after_lt _ _ (Dev.rf_lt _ _ _) (bitsOf_lt _ _ _))]
    · refine (ih _ hf (fun x hx => hk x (by simp [hx])) hp.2).trans ?_
      rw [Dev.rf_putF_bits _ _ _ _ _ ((hk f (by simp [hf])).1.trans hg.1.symm) hg.2 (Or.symm (hp.1 f hf))]
      rfl

/-- Each field of the written register, by its access type (R6); what the device sets or counts at that instant stays (R7,
R428). -/
theorem Dev.rf_writeAll (d : Dev) (k : RegKind) (i v : Nat) (f : Fld) (hf : f ∈ k.fields) :
    (d.writeAll k i v).rf f i = f.after (d.rf f i) (bitsOf v f.lsb f.width) (d.setNow f i) :=
  Dev.rf_writeFields d k i v k.fields f hf (fun _ h => ⟨field_kind h, field_fits h⟩) (fields_disjoint k)

/-- A field that the host sets takes the value carried, unless the device counts in it at that instant. -/
theorem Dev.rf_writeAll_rw (d : Dev) (k : RegKind) (i v : Nat) (f : Fld) (hf : f ∈ k.fields)
    (ha : f.acc = .RW ∧ d.setNow f i = 0 ∨ f.acc = .RWL) : (d.writeAll k i v).rf f i = bitsOf v f.lsb f.width := by
  rw [Dev.rf_writeAll d k i v f hf]; rcases ha with ⟨ha, hs⟩ | ha <;> simp [Fld.after, *]

/-- A read-only field, and one that only acts when written, keep their value. -/
theorem Dev.rf_writeAll_ro (d : Dev) (k : RegKind) (i v : Nat) (f : Fld) (hf : f ∈ k.fields)
    (ha : f.acc = .RO ∨ f.acc = .WO) : (d.writeAll k i v).rf f i = d.rf f i := by
  rw [Dev.rf_writeAll d k i v f hf]; rcases ha with ha | ha <;> simp [Fld.after, ha]

theorem Dev.on_writeAll_rw (d : Dev) (k : RegKind) (i v : Nat) (f : Fld) (hf : f ∈ k.fields)
    (ha : f.acc = .RW ∧ d.setNow f i = 0 ∨ f.acc = .RWL) : (d.writeAll k i v).on f i = decide (bitsOf v f.lsb f.width ≠ 0) := by
  unfold Dev.on; rw [Dev.rf_writeAll_rw d k i v f hf ha]

theorem Dev.on_writeAll_ro (d : Dev) (k : RegKind) (i v : Nat) (f : Fld) (hf : f ∈ k.fields)
    (ha : f.acc = .RO ∨ f.acc = .WO) : (d.writeAll k i v).on f i = d.on f i := by
  unfold Dev.on; rw [Dev.rf_writeAll_ro d k i v f hf ha]

/-- Every other register keeps its value. -/
theorem Dev.rreg_writeAll_ne (d : Dev) {k k' : RegKind} {i j : Nat} (v : Nat) (h : (k', j) ≠ (k, i)) (hi : i < 65536)
    (hj : j < 65536) : (d.writeAll k i v).rreg k' j = d.rreg k' j := by
  have key : ∀ (l : List Fld) (d : Dev), (∀ f ∈ l, f.kind = k) → (d.writeFields i v l).rreg k' j = d.rreg k' j := by
    intro l
    induction l with
    | nil => intro d _; rfl
    | cons f l ih =>
      intro d hl
      exact (ih _ (fun x hx => hl x (by simp [hx]))).trans
        (Dev.rreg_wf_ne _ _ _ (by rw [hl f (by simp)]; exact h) hi hj)
  exact key k.fields d (fun _ hf => field_kind hf)

theorem Dev.rf_writeAll_kind (d : Dev) {k : RegKind} {i j : Nat} (v : Nat) (f : Fld) (h : f.kind ≠ k) (hi : i < 65536)
    (hj : j < 65536) : (d.writeAll k i v).rf f j = d.rf f j := by
  rw [Dev.rf_eq, Dev.rf_eq, Dev.rreg_writeAll_ne d v (fun e => h (Prod.mk.inj e).1) hi hj]

theorem Dev.on_writeAll_kind (d : Dev) {k : RegKind} {i j : Nat} (v : Nat) (f : Fld) (h : f.kind ≠ k) (hi : i < 65536)
    (hj : j < 65536) : (d.writeAll k i v).on f j = d.on f j := by
  unfold Dev.on; rw [Dev.rf_writeAll_kind d v f h hi hj]

/-! Outside the register map -/

@[simp] theorem Dev.writeAll_now (d : Dev) (k : RegKind) (i v : Nat) : (d.writeAll k i v).now = d.now := by
  rw [Dev.writeAll_eq, Dev.writeFields_regs]

@[simp] theorem Dev.writeAll_tb (d : Dev) (k : RegKind) (i v : Nat) : (d.writeAll k i v).tb = d.tb := by
  rw [Dev.writeAll_eq, Dev.writeFields_regs]

@[simp] theorem Dev.writeAll_sets (d : Dev) (k : RegKind) (i v : Nat) : (d.writeAll k i v).sets = d.sets := by
  rw [Dev.writeAll_eq, Dev.writeFields_regs]

@[simp] theorem Dev.writeAll_latch (d : Dev) (k : RegKind) (i v : Nat) : (d.writeAll k i v).latch = d.latch := by
  rw [Dev.writeAll_eq, Dev.writeFields_regs]

@[simp] theorem Dev.writeAll_rdata (d : Dev) (k : RegKind) (i v : Nat) : (d.writeAll k i v).rdata = d.rdata := by
  rw [Dev.writeAll_eq, Dev.writeFields_regs]

@[simp] theorem Dev.writeAll_free (d : Dev) (k : RegKind) (i v : Nat) : (d.writeAll k i v).free = d.free := by
  rw [Dev.writeAll_eq, Dev.writeFields_regs]

@[simp] theorem Dev.writeAll_evq (d : Dev) (k : RegKind) (i v : Nat) : (d.writeAll k i v).evq = d.evq := by
  rw [Dev.writeAll_eq, Dev.writeFields_regs]

@[simp] theorem Dev.writeAll_enc (d : Dev) (k : RegKind) (i v : Nat) : (d.writeAll k i v).enc = d.enc := by
  rw [Dev.writeAll_eq, Dev.writeFields_regs]

@[simp] theorem Dev.writeAll_cap (d : Dev) (k : RegKind) (i v : Nat) : (d.writeAll k i v).cap = d.cap := by
  rw [Dev.writeAll_eq, Dev.writeFields_regs]

@[simp] theorem Dev.writeAll_ltg (d : Dev) (k : RegKind) (i v : Nat) : (d.writeAll k i v).ltg = d.ltg := by
  rw [Dev.writeAll_eq, Dev.writeFields_regs]

@[simp] theorem Dev.writeAll_hcp (d : Dev) (k : RegKind) (i v : Nat) : (d.writeAll k i v).hcp = d.hcp := by
  rw [Dev.writeAll_eq, Dev.writeFields_regs]

@[simp] theorem Dev.writeAll_zlk (d : Dev) (k : RegKind) (i v : Nat) : (d.writeAll k i v).zlk = d.zlk := by
  rw [Dev.writeAll_eq, Dev.writeFields_regs]

@[simp] theorem Dev.writeAll_pwr (d : Dev) (k : RegKind) (i v : Nat) : (d.writeAll k i v).pwr = d.pwr := by
  rw [Dev.writeAll_eq, Dev.writeFields_regs]

@[simp] theorem Dev.writeAll_kw (d : Dev) (k : RegKind) (i v : Nat) : (d.writeAll k i v).kw = d.kw := by
  rw [Dev.writeAll_eq, Dev.writeFields_regs]

@[simp] theorem Dev.writeAll_pcu (d : Dev) (k : RegKind) (i v : Nat) : (d.writeAll k i v).pcu = d.pcu := by
  rw [Dev.writeAll_eq, Dev.writeFields_regs]

@[simp] theorem Dev.writeAll_cal (d : Dev) (k : RegKind) (i v : Nat) : (d.writeAll k i v).cal = d.cal := by
  rw [Dev.writeAll_eq, Dev.writeFields_regs]

@[simp] theorem Dev.writeAll_anx (d : Dev) (k : RegKind) (i v : Nat) : (d.writeAll k i v).anx = d.anx := by
  rw [Dev.writeAll_eq, Dev.writeFields_regs]

@[simp] theorem Dev.writeAll_mcv (d : Dev) (k : RegKind) (i v : Nat) : (d.writeAll k i v).mcv = d.mcv := by
  rw [Dev.writeAll_eq, Dev.writeFields_regs]

@[simp] theorem Dev.writeAll_bank (d : Dev) (k : RegKind) (i v : Nat) : (d.writeAll k i v).bank = d.bank := by
  rw [Dev.writeAll_eq, Dev.writeFields_regs]

@[simp] theorem Dev.writeAll_fab (d : Dev) (k : RegKind) (i v : Nat) : (d.writeAll k i v).fab = d.fab := by
  rw [Dev.writeAll_eq, Dev.writeFields_regs]

@[simp] theorem Dev.writeAll_cfg (d : Dev) (k : RegKind) (i v : Nat) : (d.writeAll k i v).cfg = d.cfg := by
  rw [Dev.writeAll_eq, Dev.writeFields_regs]

@[simp] theorem Dev.writeAll_fuses (d : Dev) (k : RegKind) (i v : Nat) : (d.writeAll k i v).fuses = d.fuses := by
  rw [Dev.writeAll_eq, Dev.writeFields_regs]

@[simp] theorem Dev.writeAll_scb (d : Dev) (k : RegKind) (i v : Nat) : (d.writeAll k i v).scb = d.scb := by
  rw [Dev.writeAll_eq, Dev.writeFields_regs]

@[simp] theorem Dev.writeAll_lan (d : Dev) (k : RegKind) (i v : Nat) : (d.writeAll k i v).lan = d.lan := by
  rw [Dev.writeAll_eq, Dev.writeFields_regs]

@[simp] theorem Dev.writeAll_gpio (d : Dev) (k : RegKind) (i v : Nat) : (d.writeAll k i v).gpio = d.gpio := by
  rw [Dev.writeAll_eq, Dev.writeFields_regs]

@[simp] theorem Dev.writeAll_getEnc (d : Dev) (k : RegKind) (i v : Nat) (n : Nat) : (d.writeAll k i v).getEnc n = d.getEnc n := by
  unfold Dev.getEnc; rw [Dev.writeAll_enc]

@[simp] theorem Dev.writeAll_getCap (d : Dev) (k : RegKind) (i v : Nat) (n : Nat) : (d.writeAll k i v).getCap n = d.getCap n := by
  unfold Dev.getCap; rw [Dev.writeAll_cap]

@[simp] theorem Dev.writeAll_getLtg (d : Dev) (k : RegKind) (i v : Nat) (n : Nat) : (d.writeAll k i v).getLtg n = d.getLtg n := by
  unfold Dev.getLtg; rw [Dev.writeAll_ltg]

@[simp] theorem Dev.writeAll_getHcp (d : Dev) (k : RegKind) (i v : Nat) (n : Nat) : (d.writeAll k i v).getHcp n = d.getHcp n := by
  unfold Dev.getHcp; rw [Dev.writeAll_hcp]

@[simp] theorem Dev.writeAll_getMcv (d : Dev) (k : RegKind) (i v : Nat) (n : Nat) : (d.writeAll k i v).getMcv n = d.getMcv n := by
  unfold Dev.getMcv; rw [Dev.writeAll_mcv]

@[simp] theorem Dev.writeAll_getCmp (d : Dev) (k : RegKind) (i v : Nat) (n : Nat) : (d.writeAll k i v).getCmp n = d.getCmp n := by
  unfold Dev.getCmp; rw [Dev.writeAll_anx]

@[simp] theorem Dev.writeAll_lane (d : Dev) (k : RegKind) (i v : Nat) (n : Nat) : (d.writeAll k i v).lane n = d.lane n := by
  unfold Dev.lane; rw [Dev.writeAll_lan]

@[simp] theorem Dev.writeAll_pad (d : Dev) (k : RegKind) (i v : Nat) (n : Nat) : (d.writeAll k i v).pad n = d.pad n := by
  unfold Dev.pad; rw [Dev.writeAll_gpio]

@[simp] theorem Dev.writeAll_t (d : Dev) (k : RegKind) (i v : Nat) : (d.writeAll k i v).t = d.t := by
  unfold Dev.t; rw [Dev.writeAll_tb]

end Sys2Proof.Machine
end

