-- ==== Sys2Proof/Laws/Cmd.lean ====
section
/-! SUPPORT. The guards around the meanings of rows, once: what a row of a unit does when the unit's domain runs and when it
does not; and induction over the heads, channels and ports that an effect walks through. -/

namespace Sys2Proof.Machine

theorem State.within_live {s : State} {n : Nat} {f : State → State} (h : s.dev.live n = true) :
    s.within n f = .next (f s) := by simp [State.within, h]

theorem State.within_dead {s : State} {n : Nat} {f : State → State} (h : s.dev.live n = false) :
    s.within n f = .next s := by simp [State.within, h]

theorem State.devWithin_live {s : State} {n : Nat} {f : Dev → Dev} (h : s.dev.live n = true) :
    s.devWithin n f = .next (s.onDev f) := State.within_live h

theorem State.devWithin_dead {s : State} {n : Nat} {f : Dev → Dev} (h : s.dev.live n = false) :
    s.devWithin n f = .next s := State.within_dead h

theorem State.calRow_on {s : State} {f : Dev → Dev} (h : s.dev.managementOn = true) :
    s.calRow f = .next (s.onDev (fun d => (f d).calStep)) := by simp [State.calRow, h]

theorem State.calRow_off {s : State} {f : Dev → Dev} (h : s.dev.managementOn = false) : s.calRow f = .next s := by
  simp [State.calRow, h]

/-- An effect on the device leaves the memory and the queue. -/
theorem State.sameStore_onDev (s : State) (f : Dev → Dev) : s.sameStore (s.onDev f) := ⟨rfl, rfl⟩

/-- What each step of a walk keeps, the walk keeps. -/
theorem foldl_keeps {α β : Type} (P : β → Prop) (f : β → α → β) (l : List α) (b : β) (h0 : P b)
    (h : ∀ b a, a ∈ l → P b → P (f b a)) : P (l.foldl f b) := by
  induction l generalizing b with
  | nil => exact h0
  | cons a l ih => exact ih _ (h b a (by simp) h0) (fun b x hx => h b x (by simp [hx]))

/-- A register that keeps its value keeps its fields. -/
theorem Dev.rf_of_rreg {d d' : Dev} {f : Fld} {i : Nat} (h : d'.rreg f.kind i = d.rreg f.kind i) :
    d'.rf f i = d.rf f i := by rw [Dev.rf_eq, Dev.rf_eq, h]

theorem Dev.on_of_rreg {d d' : Dev} {f : Fld} {i : Nat} (h : d'.rreg f.kind i = d.rreg f.kind i) :
    d'.on f i = d.on f i := by unfold Dev.on; rw [Dev.rf_of_rreg h]

end Sys2Proof.Machine
end

