-- ==== Sys2Proof/WellFormed.lean ====
section
/-! DEFINITION. Well-formed commands: every unit number names a unit of the device (Chapter 1), every operand fits the
bits the manual gives it, and a command row that stands for one bit of a register has that bit set in the value it
writes. `exec` gives ill-formed commands a meaning too; the outside world only sends well-formed ones. -/

namespace Sys2Proof

/-- What a measurement found has the shape of its item (R142, R144): 16 levels; the four channels of a head. -/
def CalMeas.wf : CalMeas → Bool
  | .ladder _ levels => decide (levels.length = 16)
  | .slice _ _ _ _ _ _ => true
  | .afe legs trim pga => decide (legs.length = 4) && decide (trim.length = 4) && decide (pga.length = 4)
  | .offset _ => true
  | .coef _ _ => true

/-- How many selectors of a kind there are (R177). -/
def Selector.count : Selector → Nat
  | .ax => 32
  | .cell => 32
  | .tap => 32
  | .comparator => 48

/-- The requester exists (R275). -/
def Requester.wf : Requester → Bool
  | .management => true
  | .region p n => decide (p < 2) && decide (n < 16)
  | .writer h => decide (h < 24)
  | .dma m => decide (m < 2)

/-- Row numbers of a bank, rising (R273, R293). -/
def rowsWf : List Nat → Bool
  | [] => true
  | r :: rest => decide (r < 2048) && rest.all (fun q => decide (r < q)) && rowsWf rest

/-- The operands of a command are in range. -/
def Instr.wf : Instr → Bool
  | .registerWrite _ _ => true
  | .encEdgeAccepted p _ _ _ _ _ _ => decide (p < 8)
  | .encLosBegin p => decide (p < 8)
  | .encLosEnd p => decide (p < 8)
  | .encStall p => decide (p < 8)
  | .encCtrlWrite _ p _ => decide (p < 8)
  | .encPositionLoad _ p v => decide (p < 8) && v.getLsbD 31
  | .encPosRead _ p => decide (p < 8)
  | .tbRead _ => true
  | .tbLoad _ v => v.getLsbD 0
  | .ltgEvaluate h => decide (h < 24)
  | .ltgTimerExpiry h => decide (h < 24)
  | .ltgDeferredIssue h => decide (h < 24)
  | .ltgCoastExpiry h => decide (h < 24)
  | .ltgCtrlArm _ h v => decide (h < 24) && v.getLsbD 0
  | .ltgCtrlDisarm _ h v => decide (h < 24) && !v.getLsbD 0
  | .ltgSwt _ h v => decide (h < 24) && v.getLsbD 31
  | .lineFire h => decide (h < 24)
  | .strobeStart h => decide (h < 24)
  | .strobeEnd h => decide (h < 24)
  | .capture src _ ts => decide (src < 144) && decide (ts < 2 ^ 64)
  | .captureRead _ k => decide (k < 32)
  | .capturePop _ k v => decide (k < 32) && v.getLsbD 4
  | .zlkSuperframeSend => true
  | .zlkHeaderReceive _ chars at64 =>
    decide (chars.length = 256) && chars.all (fun c => decide (c < 512)) && decide (at64 < 2 ^ 70)
  | .ringLine _ j => decide (j < 8)
  | .ringEcho _ j => decide (j < 8)
  | .echoReply _ j => decide (j < 8)
  | .ringOffset _ j => decide (j < 8)
  | .ringStartMessage _ j => decide (j < 8)
  | .zlkInputLost _ => true
  | .zlkLockLost => true
  | .zlkStartTimeout => true
  | .zlkCtrlStart _ v => v.getLsbD 31
  | .zlkRposRead _ => true
  | .pixelWord c num _ _ _ _ => decide (c < 96) && decide (num < 2 ^ 32)
  | .afeScanStart _ v => v.getLsbD 24
  | .afeScanStop _ v => v.getLsbD 25
  | .afeScandataRead _ => true
  | .tableEntryFetch c _ => decide (c < 96)
  | .tableTargetWrite _ pct i _ => decide (i < 98304) && (pct || decide (i % 4 = 0))
  | .tableWriteResume g => decide (g < 8)
  | .tsyncCopy _ _ => true
  | .tsyncCopyDone h errs => decide (h < 24) && errs.all (fun e => decide (e.1 < 98304))
  | .statsLatchRead _ h => decide (h < 24)
  | .histogramLatch _ v => v.getLsbD 31
  | .histogramRead _ => true
  | .lineWriterEnable _ h v => decide (h < 24) && v.getLsbD 0
  | .mittenLineResult g _ _ _ _ => decide (g < 8)
  | .mittenMaxlnExpiry g => decide (g < 8)
  | .sliceRefCalDone g _ _ _ _ _ _ => decide (g < 8)
  | .mittenIdleHandover g _ _ _ => decide (g < 8)
  | .afeCalStep h => decide (h < 24)
  | .calTempPoll => true
  | .calContextCheck => true
  | .learnMeasureStart h => decide (h < 24)
  | .learnMeasureDone h => decide (h < 24)
  | .learnNoLinesTimeout h => decide (h < 24)
  | .calItemComplete kind item m => decide (kind < 8) && decide (item < Machine.kindItems kind) && m.wf
  | .calStoreDone _ => true
  | .calStoreInterval => true
  | .aswSelectorWrite _ sel i _ => decide (i < sel.count)
  | .abusTrip b => decide (b < 64)
  | .abusRelease _ _ _ => true
  | .cacConfigWrite _ _ n _ => decide (n < 32)
  | .cacSettled n _ _ => decide (n < 32)
  | .cacReset _ n v => decide (n < 32) && v.getLsbD 15
  | .cacResetEnd n => decide (n < 32)
  | .cmpDecision n _ _ => decide (n < 48)
  | .cmpStart _ n v => decide (n < 48) && v.getLsbD 0
  | .cmpClear _ n _ => decide (n < 48)
  | .cmpWakeTick n _ _ => decide (n < 48)
  | .mcvRegularTrigger m => decide (m < 2)
  | .mcvInjectedTrigger m => decide (m < 2)
  | .mcvGo _ m v => decide (m < 2) && v.getLsbD 8
  | .mcvIgo _ m v => decide (m < 2) && v.getLsbD 9
  | .mcvEnable _ m _ => decide (m < 2)
  | .mcvDelayExpiry m _ => decide (m < 2)
  | .mcvConversionDone m _ => decide (m < 2)
  | .mcvIdleExpiry m => decide (m < 2)
  | .mcvHousekeeping => true
  | .mcvRidxWrite _ m _ => decide (m < 2)
  | .streamLineArrival h => decide (h < 24)
  | .fabOutputWord n p => decide (n < 16) && decide (p < 4)
  | .pairedLineVerdict n p => decide (n < 8) && decide (p < 4)
  | .fabEventOutput n => decide (n < 16)
  | .memPortRequest who => who.wf
  | .memRequestPerform b _ _ _ _ => decide (b < 8)
  | .writebackPerform b => decide (b < 8)
  | .bankHostAccess _ _ _ _ => true
  | .scratchpadHostAccess _ _ _ _ => true
  | .marchStart _ b v => decide (b < 8) && v.getLsbD 0
  | .marchStop _ b v => decide (b < 8) && v.getLsbD 2
  | .marchDone b rows bad _ => decide (b < 8) && rowsWf rows && decide (bad < 16)
  | .snapshotArm _ v => v.getLsbD 29
  | .snapshotTake n => decide (n < 16)
  | .snapshotResume _ v => v.getLsbD 30
  | .snapshotCancel _ v => v.getLsbD 31
  | .snapdataRead _ => true
  | .regionIsolate _ _ => true
  | .progn => true
  | .cfgClearDone => true
  | .cfgWaitTimeout => true
  | .cfgFifoWrite _ _ => true
  | .cfgWordTimeout => true
  | .imageHeader => true
  | .frameWrite => true
  | .frameRepeat => true
  | .regionBegin => true
  | .regionEnd => true
  | .memInit => true
  | .startupOrder => true
  | .check => true
  | .tag => true
  | .chainNext => true
  | .cfgdoneRise => true
  | .cfgSyncTimeout => true
  | .startupLock => true
  | .pllLockTimeout => true
  | .startupOutrel => true
  | .startupGsrrel => true
  | .startupWen => true
  | .startupAnarel => true
  | .startupDone => true
  | .regionPowerUpDone => true
  | .regionStartupDone n => decide (n < 16)
  | .goldenFlashTimeout => true
  | .cfgRetryClear _ v => v.getLsbD 8
  | .scrubFrameCheck _ _ _ _ _ => true
  | .scrubWatchdogMiss => true
  | .scrubRestart _ v => v.getLsbD 31
  | .scrubEnable _ _ => true
  | .scrubInject _ v => v.getLsbD 31
  | .porAssert => true
  | .coldStart _ _ _ _ _ => true
  | .rstnAssert => true
  | .warmStart => true
  | .lockstepMismatch => true
  | .powerFailWarning src => decide (1 ≤ src) && decide (src ≤ 3)
  | .pfailRecovery => true
  | .powerStateRequest _ _ => true
  | .powerTransitionDone => true
  | .groupPowerDown _ _ => true
  | .groupPowerUp _ _ => true
  | .groupReloadDone g => decide (g < 8)
  | .bankPowerDown _ _ => true
  | .bankPowerUp _ _ => true
  | .laneQuadPower _ _ => true
  | .wakeCapture k _ => decide (k < 32)
  | .wakeRingLoss => true
  | .wakeRingLine head => decide (head < 24)
  | .wakeHost => true
  | .wakeDone => true
  | .refclkLost => true
  | .pllLockLost i => decide (i < 11)
  | .holdoverEnd => true
  | .testenAssert => true
  | .jtagRegacc _ _ => true
  | .kweaveWordWrite _ _ => true
  | .kweaveWordTimeout => true
  | .kweaveReplyRead _ => true
  | .kweaveResync _ v => v.getLsbD 0
  | .kweaveFlush _ v => v.getLsbD 1
  | .sessionTimeout => true
  | .nop => true
  | .getInfo => true
  | .softReset => true
  | .sessionUnlock => true
  | .sessionLock => true
  | .abort => true
  | .handleQuery => true
  | .handleList => true
  | .keyLoad => true
  | .keyZero => true
  | .echo => true
  | .pwrState => true
  | .pwrDomains => true
  | .pwrStatus => true
  | .cfgProgram => true
  | .cfgPartial => true
  | .cfgGolden => true
  | .cfgStatus => true
  | .calRun => true
  | .calStore => true
  | .calPart => true
  | .calResult => true
  | .calDue => true
  | .regRead _ => true
  | .regWrite _ => true
  | .regMaskwrite _ => true
  | .regReadblock _ => true
  | .regWriteblock _ => true
  | .ltgArm => true
  | .ltgDisarm => true
  | .ltgPosload => true
  | .ltgSwtrig => true
  | .ltgSnap => true
  | .ltgTbload => true
  | .ltgStatus => true
  | .zlkStart => true
  | .zlkStatus => true
  | .memMarch => true
  | .memFill => true
  | .memFillDone h => decide (1 ≤ h) && decide (h ≤ 4095)
  | .memStatus => true
  | .evqConfig => true
  | .evqStatus => true
  | .telRead => true
  | .telConfig => true
  | .telCounters => true
  | .eventRecordWrite src => decide (src < 4096)
  | .evqTailWrite _ _ => true
  | .evqHostsleepWrite _ _ => true
  | .levelRevoke => true
  | .telemetryPeriod => true
  | .gpioCfgWrite _ p _ => decide (p < 64)
  | .gpioClaimChange p => decide (p < 64)
  | .gpioMaskedWrite _ _ k _ => decide (k < 4)
  | .twowireGo _ h v => decide (h < 24) && v.getLsbD 31
  | .twowireDone h _ nbytes read => decide (h < 24) && decide (nbytes < 16) && decide (read.length ≤ nbytes) && read.all (fun x => decide (x < 256))
  | .twowireTimeout h nbytes => decide (h < 24) && decide (nbytes < 16)
  | .lanePacketStore src => decide (src < 88)
  | .freePacketTimeout n p => decide (n < 16) && decide (p < 4)
  | .lanePacketSend l => decide (l < 12)
  | .laneFlowBlock r mask => decide (r < 2) && decide (mask < 4096)
  | .laneRxLost r => decide (r < 2)
  | .laneEnable _ l _ => decide (l < 12)
  | .laneTrainDone l => decide (l < 12)
  | .quadLock q => decide (q < 3)
  | .wordCellCycle n _ _ _ => decide (n < 16)
  | .returnPairIdle r => decide (r < 2)
  | .prognRise => true
  | .refclkReturn => true
  | .vbatLoss => true
  | .railSet ser12 => decide (ser12 < 256)
  | .temperatureSetTimeout => true
  | .extestInstruction _ => true

/-- The unit a command addresses, and how many units of its kind the device has; (0, 1) where it addresses the device. -/
def Instr.unit : Instr → Nat × Nat
  | .registerWrite _ _ => (0, 1)
  | .encEdgeAccepted p _ _ _ _ _ _ => (p, 8)
  | .encLosBegin p => (p, 8)
  | .encLosEnd p => (p, 8)
  | .encStall p => (p, 8)
  | .encCtrlWrite _ p _ => (p, 8)
  | .encPositionLoad _ p _ => (p, 8)
  | .encPosRead _ p => (p, 8)
  | .tbRead _ => (0, 1)
  | .tbLoad _ _ => (0, 1)
  | .ltgEvaluate h => (h, 24)
  | .ltgTimerExpiry h => (h, 24)
  | .ltgDeferredIssue h => (h, 24)
  | .ltgCoastExpiry h => (h, 24)
  | .ltgCtrlArm _ h _ => (h, 24)
  | .ltgCtrlDisarm _ h _ => (h, 24)
  | .ltgSwt _ h _ => (h, 24)
  | .lineFire h => (h, 24)
  | .strobeStart h => (h, 24)
  | .strobeEnd h => (h, 24)
  | .capture src _ _ => (src, 144)
  | .captureRead _ k => (k, 32)
  | .capturePop _ k _ => (k, 32)
  | .zlkSuperframeSend => (0, 1)
  | .zlkHeaderReceive _ _ _ => (0, 1)
  | .ringLine _ j => (j, 8)
  | .ringEcho _ j => (j, 8)
  | .echoReply _ j => (j, 8)
  | .ringOffset _ j => (j, 8)
  | .ringStartMessage _ j => (j, 8)
  | .zlkInputLost _ => (0, 1)
  | .zlkLockLost => (0, 1)
  | .zlkStartTimeout => (0, 1)
  | .zlkCtrlStart _ _ => (0, 1)
  | .zlkRposRead _ => (0, 1)
  | .pixelWord c _ _ _ _ _ => (c, 96)
  | .afeScanStart _ _ => (0, 1)
  | .afeScanStop _ _ => (0, 1)
  | .afeScandataRead _ => (0, 1)
  | .tableEntryFetch c _ => (c, 96)
  | .tableTargetWrite _ _ i _ => (i, 98304)
  | .tableWriteResume g => (g, 8)
  | .tsyncCopy _ _ => (0, 1)
  | .tsyncCopyDone h _ => (h, 24)
  | .statsLatchRead _ h => (h, 24)
  | .histogramLatch _ _ => (0, 1)
  | .histogramRead _ => (0, 1)
  | .lineWriterEnable _ h _ => (h, 24)
  | .mittenLineResult g _ _ _ _ => (g, 8)
  | .mittenMaxlnExpiry g => (g, 8)
  | .sliceRefCalDone g _ _ _ _ _ _ => (g, 8)
  | .mittenIdleHandover g _ _ _ => (g, 8)
  | .afeCalStep h => (h, 24)
  | .calTempPoll => (0, 1)
  | .calContextCheck => (0, 1)
  | .learnMeasureStart h => (h, 24)
  | .learnMeasureDone h => (h, 24)
  | .learnNoLinesTimeout h => (h, 24)
  | .calItemComplete kind _ _ => (kind, 8)
  | .calStoreDone _ => (0, 1)
  | .calStoreInterval => (0, 1)
  | .aswSelectorWrite _ sel i _ => (i, sel.count)
  | .abusTrip b => (b, 64)
  | .abusRelease _ _ _ => (0, 1)
  | .cacConfigWrite _ _ n _ => (n, 32)
  | .cacSettled n _ _ => (n, 32)
  | .cacReset _ n _ => (n, 32)
  | .cacResetEnd n => (n, 32)
  | .cmpDecision n _ _ => (n, 48)
  | .cmpStart _ n _ => (n, 48)
  | .cmpClear _ n _ => (n, 48)
  | .cmpWakeTick n _ _ => (n, 48)
  | .mcvRegularTrigger m => (m, 2)
  | .mcvInjectedTrigger m => (m, 2)
  | .mcvGo _ m _ => (m, 2)
  | .mcvIgo _ m _ => (m, 2)
  | .mcvEnable _ m _ => (m, 2)
  | .mcvDelayExpiry m _ => (m, 2)
  | .mcvConversionDone m _ => (m, 2)
  | .mcvIdleExpiry m => (m, 2)
  | .mcvHousekeeping => (0, 1)
  | .mcvRidxWrite _ m _ => (m, 2)
  | .streamLineArrival h => (h, 24)
  | .fabOutputWord n _ => (n, 16)
  | .pairedLineVerdict n _ => (n, 8)
  | .fabEventOutput n => (n, 16)
  | .memPortRequest _ => (0, 1)
  | .memRequestPerform b _ _ _ _ => (b, 8)
  | .writebackPerform b => (b, 8)
  | .bankHostAccess _ _ _ _ => (0, 1)
  | .scratchpadHostAccess _ _ _ _ => (0, 1)
  | .marchStart _ b _ => (b, 8)
  | .marchStop _ b _ => (b, 8)
  | .marchDone b _ _ _ => (b, 8)
  | .snapshotArm _ _ => (0, 1)
  | .snapshotTake n => (n, 16)
  | .snapshotResume _ _ => (0, 1)
  | .snapshotCancel _ _ => (0, 1)
  | .snapdataRead _ => (0, 1)
  | .regionIsolate _ _ => (0, 1)
  | .progn => (0, 1)
  | .cfgClearDone => (0, 1)
  | .cfgWaitTimeout => (0, 1)
  | .cfgFifoWrite _ _ => (0, 1)
  | .cfgWordTimeout => (0, 1)
  | .imageHeader => (0, 1)
  | .frameWrite => (0, 1)
  | .frameRepeat => (0, 1)
  | .regionBegin => (0, 1)
  | .regionEnd => (0, 1)
  | .memInit => (0, 1)
  | .startupOrder => (0, 1)
  | .check => (0, 1)
  | .tag => (0, 1)
  | .chainNext => (0, 1)
  | .cfgdoneRise => (0, 1)
  | .cfgSyncTimeout => (0, 1)
  | .startupLock => (0, 1)
  | .pllLockTimeout => (0, 1)
  | .startupOutrel => (0, 1)
  | .startupGsrrel => (0, 1)
  | .startupWen => (0, 1)
  | .startupAnarel => (0, 1)
  | .startupDone => (0, 1)
  | .regionPowerUpDone => (0, 1)
  | .regionStartupDone n => (n, 16)
  | .goldenFlashTimeout => (0, 1)
  | .cfgRetryClear _ _ => (0, 1)
  | .scrubFrameCheck _ _ _ _ _ => (0, 1)
  | .scrubWatchdogMiss => (0, 1)
  | .scrubRestart _ _ => (0, 1)
  | .scrubEnable _ _ => (0, 1)
  | .scrubInject _ _ => (0, 1)
  | .porAssert => (0, 1)
  | .coldStart _ _ _ _ _ => (0, 1)
  | .rstnAssert => (0, 1)
  | .warmStart => (0, 1)
  | .lockstepMismatch => (0, 1)
  | .powerFailWarning _ => (0, 1)
  | .pfailRecovery => (0, 1)
  | .powerStateRequest _ _ => (0, 1)
  | .powerTransitionDone => (0, 1)
  | .groupPowerDown _ _ => (0, 1)
  | .groupPowerUp _ _ => (0, 1)
  | .groupReloadDone g => (g, 8)
  | .bankPowerDown _ _ => (0, 1)
  | .bankPowerUp _ _ => (0, 1)
  | .laneQuadPower _ _ => (0, 1)
  | .wakeCapture k _ => (k, 32)
  | .wakeRingLoss => (0, 1)
  | .wakeRingLine head => (head, 24)
  | .wakeHost => (0, 1)
  | .wakeDone => (0, 1)
  | .refclkLost => (0, 1)
  | .pllLockLost i => (i, 11)
  | .holdoverEnd => (0, 1)
  | .testenAssert => (0, 1)
  | .jtagRegacc _ _ => (0, 1)
  | .kweaveWordWrite _ _ => (0, 1)
  | .kweaveWordTimeout => (0, 1)
  | .kweaveReplyRead _ => (0, 1)
  | .kweaveResync _ _ => (0, 1)
  | .kweaveFlush _ _ => (0, 1)
  | .sessionTimeout => (0, 1)
  | .nop => (0, 1)
  | .getInfo => (0, 1)
  | .softReset => (0, 1)
  | .sessionUnlock => (0, 1)
  | .sessionLock => (0, 1)
  | .abort => (0, 1)
  | .handleQuery => (0, 1)
  | .handleList => (0, 1)
  | .keyLoad => (0, 1)
  | .keyZero => (0, 1)
  | .echo => (0, 1)
  | .pwrState => (0, 1)
  | .pwrDomains => (0, 1)
  | .pwrStatus => (0, 1)
  | .cfgProgram => (0, 1)
  | .cfgPartial => (0, 1)
  | .cfgGolden => (0, 1)
  | .cfgStatus => (0, 1)
  | .calRun => (0, 1)
  | .calStore => (0, 1)
  | .calPart => (0, 1)
  | .calResult => (0, 1)
  | .calDue => (0, 1)
  | .regRead _ => (0, 1)
  | .regWrite _ => (0, 1)
  | .regMaskwrite _ => (0, 1)
  | .regReadblock _ => (0, 1)
  | .regWriteblock _ => (0, 1)
  | .ltgArm => (0, 1)
  | .ltgDisarm => (0, 1)
  | .ltgPosload => (0, 1)
  | .ltgSwtrig => (0, 1)
  | .ltgSnap => (0, 1)
  | .ltgTbload => (0, 1)
  | .ltgStatus => (0, 1)
  | .zlkStart => (0, 1)
  | .zlkStatus => (0, 1)
  | .memMarch => (0, 1)
  | .memFill => (0, 1)
  | .memFillDone _ => (0, 1)
  | .memStatus => (0, 1)
  | .evqConfig => (0, 1)
  | .evqStatus => (0, 1)
  | .telRead => (0, 1)
  | .telConfig => (0, 1)
  | .telCounters => (0, 1)
  | .eventRecordWrite src => (src, 4096)
  | .evqTailWrite _ _ => (0, 1)
  | .evqHostsleepWrite _ _ => (0, 1)
  | .levelRevoke => (0, 1)
  | .telemetryPeriod => (0, 1)
  | .gpioCfgWrite _ p _ => (p, 64)
  | .gpioClaimChange p => (p, 64)
  | .gpioMaskedWrite _ _ k _ => (k, 4)
  | .twowireGo _ h _ => (h, 24)
  | .twowireDone h _ _ _ => (h, 24)
  | .twowireTimeout h _ => (h, 24)
  | .lanePacketStore src => (src, 88)
  | .freePacketTimeout n _ => (n, 16)
  | .lanePacketSend l => (l, 12)
  | .laneFlowBlock r _ => (r, 2)
  | .laneRxLost r => (r, 2)
  | .laneEnable _ l _ => (l, 12)
  | .laneTrainDone l => (l, 12)
  | .quadLock q => (q, 3)
  | .wordCellCycle n _ _ _ => (n, 16)
  | .returnPairIdle r => (r, 2)
  | .prognRise => (0, 1)
  | .refclkReturn => (0, 1)
  | .vbatLoss => (0, 1)
  | .railSet ser12 => (ser12, 256)
  | .temperatureSetTimeout => (0, 1)
  | .extestInstruction _ => (0, 1)

end Sys2Proof
end

