-- ==== Sys2Proof/Laws/PerInstr.lean ====
section
/-! SUPPORT. Per command: a well-formed command addresses a unit the device has. -/

namespace Sys2Proof.Laws.Units

/-- A well-formed command's unit is one of its kind's. -/
def Statement (i : Instr) : Prop := i.wf = true → i.unit.1 < i.unit.2

theorem left_true {a b : Bool} (h : (a && b) = true) : a = true := by cases a <;> simp_all

theorem registerWrite (a : Access) (v : Word) : Statement (.registerWrite a v) := fun _ => Nat.zero_lt_one
theorem encEdgeAccepted (p : Nat) (a b z : Bool) (na nb nz : Nat) :
    Statement (.encEdgeAccepted p a b z na nb nz) := fun h => of_decide_eq_true h
theorem encLosBegin (p : Nat) : Statement (.encLosBegin p) := fun h => of_decide_eq_true h
theorem encLosEnd (p : Nat) : Statement (.encLosEnd p) := fun h => of_decide_eq_true h
theorem encStall (p : Nat) : Statement (.encStall p) := fun h => of_decide_eq_true h
theorem encCtrlWrite (pth : Path) (p : Nat) (v : Word) : Statement (.encCtrlWrite pth p v) := fun h => of_decide_eq_true h
theorem encPositionLoad (pth : Path) (p : Nat) (v : Word) : Statement (.encPositionLoad pth p v) := fun h => of_decide_eq_true (left_true h)
theorem encPosRead (pth : Path) (p : Nat) : Statement (.encPosRead pth p) := fun h => of_decide_eq_true h
theorem tbRead (pth : Path) : Statement (.tbRead pth) := fun _ => Nat.zero_lt_one
theorem tbLoad (pth : Path) (v : Word) : Statement (.tbLoad pth v) := fun _ => Nat.zero_lt_one
theorem ltgEvaluate (h : Nat) : Statement (.ltgEvaluate h) := fun h => of_decide_eq_true h
theorem ltgTimerExpiry (h : Nat) : Statement (.ltgTimerExpiry h) := fun h => of_decide_eq_true h
theorem ltgDeferredIssue (h : Nat) : Statement (.ltgDeferredIssue h) := fun h => of_decide_eq_true h
theorem ltgCoastExpiry (h : Nat) : Statement (.ltgCoastExpiry h) := fun h => of_decide_eq_true h
theorem ltgCtrlArm (pth : Path) (h : Nat) (v : Word) : Statement (.ltgCtrlArm pth h v) := fun h => of_decide_eq_true (left_true h)
theorem ltgCtrlDisarm (pth : Path) (h : Nat) (v : Word) : Statement (.ltgCtrlDisarm pth h v) := fun h => of_decide_eq_true (left_true h)
theorem ltgSwt (pth : Path) (h : Nat) (v : Word) : Statement (.ltgSwt pth h v) := fun h => of_decide_eq_true (left_true h)
theorem lineFire (h : Nat) : Statement (.lineFire h) := fun h => of_decide_eq_true h
theorem strobeStart (h : Nat) : Statement (.strobeStart h) := fun h => of_decide_eq_true h
theorem strobeEnd (h : Nat) : Statement (.strobeEnd h) := fun h => of_decide_eq_true h
theorem capture (src : Nat) (rising : Bool) (ts : Nat) : Statement (.capture src rising ts) := fun h => of_decide_eq_true (left_true h)
theorem captureRead (pth : Path) (k : Nat) : Statement (.captureRead pth k) := fun h => of_decide_eq_true h
theorem capturePop (pth : Path) (k : Nat) (v : Word) : Statement (.capturePop pth k v) := fun h => of_decide_eq_true (left_true h)
theorem zlkSuperframeSend : Statement (.zlkSuperframeSend) := fun _ => Nat.zero_lt_one
theorem zlkHeaderReceive (ring : Bool) (chars : List Nat) (at64 : Nat) :
    Statement (.zlkHeaderReceive ring chars at64) := fun _ => Nat.zero_lt_one
theorem ringLine (ring : Bool) (j : Nat) :
    Statement (.ringLine ring j) := fun h => of_decide_eq_true h
theorem ringEcho (ring : Bool) (j : Nat) :
    Statement (.ringEcho ring j) := fun h => of_decide_eq_true h
theorem echoReply (ring : Bool) (j : Nat) :
    Statement (.echoReply ring j) := fun h => of_decide_eq_true h
theorem ringOffset (ring : Bool) (j : Nat) :
    Statement (.ringOffset ring j) := fun h => of_decide_eq_true h
theorem ringStartMessage (ring : Bool) (j : Nat) :
    Statement (.ringStartMessage ring j) := fun h => of_decide_eq_true h
theorem zlkInputLost (ring : Bool) : Statement (.zlkInputLost ring) := fun _ => Nat.zero_lt_one
theorem zlkLockLost : Statement (.zlkLockLost) := fun _ => Nat.zero_lt_one
theorem zlkStartTimeout : Statement (.zlkStartTimeout) := fun _ => Nat.zero_lt_one
theorem zlkCtrlStart (pth : Path) (v : Word) : Statement (.zlkCtrlStart pth v) := fun _ => Nat.zero_lt_one
theorem zlkRposRead (pth : Path) : Statement (.zlkRposRead pth) := fun _ => Nat.zero_lt_one
theorem pixelWord (c num : Nat) (k : Int) (sample reset : Balls) (dev : Int) :
    Statement (.pixelWord c num k sample reset dev) := fun h => of_decide_eq_true (left_true h)
theorem afeScanStart (pth : Path) (v : Word) : Statement (.afeScanStart pth v) := fun _ => Nat.zero_lt_one
theorem afeScanStop (pth : Path) (v : Word) : Statement (.afeScanStop pth v) := fun _ => Nat.zero_lt_one
theorem afeScandataRead (pth : Path) : Statement (.afeScandataRead pth) := fun _ => Nat.zero_lt_one
theorem tableEntryFetch (c : Nat) (err : TableEcc) : Statement (.tableEntryFetch c err) := fun h => of_decide_eq_true h
theorem tableTargetWrite (pth : Path) (pct : Bool) (i : Nat) (v : Word) : Statement (.tableTargetWrite pth pct i v) := fun h => of_decide_eq_true (left_true h)
theorem tableWriteResume (g : Nat) : Statement (.tableWriteResume g) := fun h => of_decide_eq_true h
theorem tsyncCopy (pth : Path) (v : Word) : Statement (.tsyncCopy pth v) := fun _ => Nat.zero_lt_one
theorem tsyncCopyDone (h : Nat) (errs : List (Nat × TableEcc)) :
    Statement (.tsyncCopyDone h errs) := fun h => of_decide_eq_true (left_true h)
theorem statsLatchRead (pth : Path) (h : Nat) : Statement (.statsLatchRead pth h) := fun h => of_decide_eq_true h
theorem histogramLatch (pth : Path) (v : Word) : Statement (.histogramLatch pth v) := fun _ => Nat.zero_lt_one
theorem histogramRead (pth : Path) : Statement (.histogramRead pth) := fun _ => Nat.zero_lt_one
theorem lineWriterEnable (pth : Path) (h : Nat) (v : Word) : Statement (.lineWriterEnable pth h v) := fun h => of_decide_eq_true (left_true h)
theorem mittenLineResult (g : Nat) (mean : Int) (rms peak : Nat) (gdiff : Int) : Statement (.mittenLineResult g mean rms peak gdiff) := fun h => of_decide_eq_true h
theorem mittenMaxlnExpiry (g : Nat) : Statement (.mittenMaxlnExpiry g) := fun h => of_decide_eq_true h
theorem sliceRefCalDone (g : Nat) (ok : Bool) (ofs gain apt : Int) (resid spur : Nat) : Statement (.sliceRefCalDone g ok ofs gain apt resid spur) := fun h => of_decide_eq_true h
theorem mittenIdleHandover (g : Nat) (mean : Int) (rms peak : Nat) : Statement (.mittenIdleHandover g mean rms peak) := fun h => of_decide_eq_true h
theorem afeCalStep (h : Nat) : Statement (.afeCalStep h) := fun h => of_decide_eq_true h
theorem calTempPoll : Statement (.calTempPoll) := fun _ => Nat.zero_lt_one
theorem calContextCheck : Statement (.calContextCheck) := fun _ => Nat.zero_lt_one
theorem learnMeasureStart (h : Nat) : Statement (.learnMeasureStart h) := fun h => of_decide_eq_true h
theorem learnMeasureDone (h : Nat) : Statement (.learnMeasureDone h) := fun h => of_decide_eq_true h
theorem learnNoLinesTimeout (h : Nat) : Statement (.learnNoLinesTimeout h) := fun h => of_decide_eq_true h
theorem calItemComplete (kind item : Nat) (m : CalMeas) :
    Statement (.calItemComplete kind item m) := fun h => of_decide_eq_true (left_true (left_true h))
theorem calStoreDone (ok : Bool) : Statement (.calStoreDone ok) := fun _ => Nat.zero_lt_one
theorem calStoreInterval : Statement (.calStoreInterval) := fun _ => Nat.zero_lt_one
theorem aswSelectorWrite (pth : Path) (sel : Selector) (i : Nat) (v : Word) : Statement (.aswSelectorWrite pth sel i v) := fun h => of_decide_eq_true h
theorem abusTrip (b : Nat) : Statement (.abusTrip b) := fun h => of_decide_eq_true h
theorem abusRelease (pth : Path) (high : Bool) (v : Word) : Statement (.abusRelease pth high v) := fun _ => Nat.zero_lt_one
theorem cacConfigWrite (pth : Path) (net : Bool) (n : Nat) (v : Word) : Statement (.cacConfigWrite pth net n v) := fun h => of_decide_eq_true h
theorem cacSettled (n : Nat) (ilim rail : Bool) : Statement (.cacSettled n ilim rail) := fun h => of_decide_eq_true h
theorem cacReset (pth : Path) (n : Nat) (v : Word) : Statement (.cacReset pth n v) := fun h => of_decide_eq_true (left_true h)
theorem cacResetEnd (n : Nat) : Statement (.cacResetEnd n) := fun h => of_decide_eq_true h
theorem cmpDecision (n : Nat) (vp vn : Int) : Statement (.cmpDecision n vp vn) := fun h => of_decide_eq_true h
theorem cmpStart (pth : Path) (n : Nat) (v : Word) : Statement (.cmpStart pth n v) := fun h => of_decide_eq_true (left_true h)
theorem cmpClear (pth : Path) (n : Nat) (v : Word) : Statement (.cmpClear pth n v) := fun h => of_decide_eq_true h
theorem cmpWakeTick (n : Nat) (vp vn : Int) : Statement (.cmpWakeTick n vp vn) := fun h => of_decide_eq_true h
theorem mcvRegularTrigger (m : Nat) : Statement (.mcvRegularTrigger m) := fun h => of_decide_eq_true h
theorem mcvInjectedTrigger (m : Nat) : Statement (.mcvInjectedTrigger m) := fun h => of_decide_eq_true h
theorem mcvGo (pth : Path) (m : Nat) (v : Word) : Statement (.mcvGo pth m v) := fun h => of_decide_eq_true (left_true h)
theorem mcvIgo (pth : Path) (m : Nat) (v : Word) : Statement (.mcvIgo pth m v) := fun h => of_decide_eq_true (left_true h)
theorem mcvEnable (pth : Path) (m : Nat) (v : Word) : Statement (.mcvEnable pth m v) := fun h => of_decide_eq_true h
theorem mcvDelayExpiry (m : Nat) (inj : Bool) : Statement (.mcvDelayExpiry m inj) := fun h => of_decide_eq_true h
theorem mcvConversionDone (m : Nat) (v : Int) :
    Statement (.mcvConversionDone m v) := fun h => of_decide_eq_true h
theorem mcvIdleExpiry (m : Nat) : Statement (.mcvIdleExpiry m) := fun h => of_decide_eq_true h
theorem mcvHousekeeping : Statement (.mcvHousekeeping) := fun _ => Nat.zero_lt_one
theorem mcvRidxWrite (pth : Path) (m : Nat) (v : Word) : Statement (.mcvRidxWrite pth m v) := fun h => of_decide_eq_true h
theorem streamLineArrival (h : Nat) : Statement (.streamLineArrival h) := fun h => of_decide_eq_true h
theorem fabOutputWord (n p : Nat) : Statement (.fabOutputWord n p) := fun h => of_decide_eq_true (left_true h)
theorem pairedLineVerdict (n p : Nat) : Statement (.pairedLineVerdict n p) := fun h => of_decide_eq_true (left_true h)
theorem fabEventOutput (n : Nat) : Statement (.fabEventOutput n) := fun h => of_decide_eq_true h
theorem memPortRequest (who : Requester) : Statement (.memPortRequest who) := fun _ => Nat.zero_lt_one
theorem memRequestPerform (b : Nat) (p0 p1 : Bool) (e0 e1 : MemEcc) : Statement (.memRequestPerform b p0 p1 e0 e1) := fun h => of_decide_eq_true h
theorem writebackPerform (b : Nat) : Statement (.writebackPerform b) := fun h => of_decide_eq_true h
theorem bankHostAccess (a : Access) (wr : Bool) (v : Word) (e : MemEcc) : Statement (.bankHostAccess a wr v e) := fun _ => Nat.zero_lt_one
theorem scratchpadHostAccess (a : Access) (wr : Bool) (v : Word) (e : MemEcc) : Statement (.scratchpadHostAccess a wr v e) := fun _ => Nat.zero_lt_one
theorem marchStart (pth : Path) (b : Nat) (v : Word) : Statement (.marchStart pth b v) := fun h => of_decide_eq_true (left_true h)
theorem marchStop (pth : Path) (b : Nat) (v : Word) : Statement (.marchStop pth b v) := fun h => of_decide_eq_true (left_true h)
theorem marchDone (b : Nat) (rows : List Nat) (bad : Nat) (col : Bool) : Statement (.marchDone b rows bad col) := fun h => of_decide_eq_true (left_true (left_true h))
theorem snapshotArm (pth : Path) (v : Word) : Statement (.snapshotArm pth v) := fun _ => Nat.zero_lt_one
theorem snapshotTake (n : Nat) : Statement (.snapshotTake n) := fun h => of_decide_eq_true h
theorem snapshotResume (pth : Path) (v : Word) : Statement (.snapshotResume pth v) := fun _ => Nat.zero_lt_one
theorem snapshotCancel (pth : Path) (v : Word) : Statement (.snapshotCancel pth v) := fun _ => Nat.zero_lt_one
theorem snapdataRead (pth : Path) : Statement (.snapdataRead pth) := fun _ => Nat.zero_lt_one
theorem regionIsolate (pth : Path) (v : Word) : Statement (.regionIsolate pth v) := fun _ => Nat.zero_lt_one
theorem progn : Statement (.progn) := fun _ => Nat.zero_lt_one
theorem cfgClearDone : Statement (.cfgClearDone) := fun _ => Nat.zero_lt_one
theorem cfgWaitTimeout : Statement (.cfgWaitTimeout) := fun _ => Nat.zero_lt_one
theorem cfgFifoWrite (pth : Path) (v : Word) : Statement (.cfgFifoWrite pth v) := fun _ => Nat.zero_lt_one
theorem cfgWordTimeout : Statement (.cfgWordTimeout) := fun _ => Nat.zero_lt_one
theorem imageHeader : Statement (.imageHeader) := fun _ => Nat.zero_lt_one
theorem frameWrite : Statement (.frameWrite) := fun _ => Nat.zero_lt_one
theorem frameRepeat : Statement (.frameRepeat) := fun _ => Nat.zero_lt_one
theorem regionBegin : Statement (.regionBegin) := fun _ => Nat.zero_lt_one
theorem regionEnd : Statement (.regionEnd) := fun _ => Nat.zero_lt_one
theorem memInit : Statement (.memInit) := fun _ => Nat.zero_lt_one
theorem startupOrder : Statement (.startupOrder) := fun _ => Nat.zero_lt_one
theorem check : Statement (.check) := fun _ => Nat.zero_lt_one
theorem tag : Statement (.tag) := fun _ => Nat.zero_lt_one
theorem chainNext : Statement (.chainNext) := fun _ => Nat.zero_lt_one
theorem cfgdoneRise : Statement (.cfgdoneRise) := fun _ => Nat.zero_lt_one
theorem cfgSyncTimeout : Statement (.cfgSyncTimeout) := fun _ => Nat.zero_lt_one
theorem startupLock : Statement (.startupLock) := fun _ => Nat.zero_lt_one
theorem pllLockTimeout : Statement (.pllLockTimeout) := fun _ => Nat.zero_lt_one
theorem startupOutrel : Statement (.startupOutrel) := fun _ => Nat.zero_lt_one
theorem startupGsrrel : Statement (.startupGsrrel) := fun _ => Nat.zero_lt_one
theorem startupWen : Statement (.startupWen) := fun _ => Nat.zero_lt_one
theorem startupAnarel : Statement (.startupAnarel) := fun _ => Nat.zero_lt_one
theorem startupDone : Statement (.startupDone) := fun _ => Nat.zero_lt_one
theorem regionPowerUpDone : Statement (.regionPowerUpDone) := fun _ => Nat.zero_lt_one
theorem regionStartupDone (n : Nat) : Statement (.regionStartupDone n) := fun h => of_decide_eq_true h
theorem goldenFlashTimeout : Statement (.goldenFlashTimeout) := fun _ => Nat.zero_lt_one
theorem cfgRetryClear (pth : Path) (v : Word) : Statement (.cfgRetryClear pth v) := fun _ => Nat.zero_lt_one
theorem scrubFrameCheck (flip cwFlip : Nat) (hard : Bool) (ram : RamEcc) (votes : Nat) : Statement (.scrubFrameCheck flip cwFlip hard ram votes) := fun _ => Nat.zero_lt_one
theorem scrubWatchdogMiss : Statement (.scrubWatchdogMiss) := fun _ => Nat.zero_lt_one
theorem scrubRestart (pth : Path) (v : Word) : Statement (.scrubRestart pth v) := fun _ => Nat.zero_lt_one
theorem scrubEnable (pth : Path) (v : Word) : Statement (.scrubEnable pth v) := fun _ => Nat.zero_lt_one
theorem scrubInject (pth : Path) (v : Word) : Statement (.scrubInject pth v) := fun _ => Nat.zero_lt_one
theorem porAssert : Statement (.porAssert) := fun _ => Nat.zero_lt_one
theorem coldStart (hpsel bbramOk : Bool) (refFails pllFails bootFails : Nat) : Statement (.coldStart hpsel bbramOk refFails pllFails bootFails) := fun _ => Nat.zero_lt_one
theorem rstnAssert : Statement (.rstnAssert) := fun _ => Nat.zero_lt_one
theorem warmStart : Statement (.warmStart) := fun _ => Nat.zero_lt_one
theorem lockstepMismatch : Statement (.lockstepMismatch) := fun _ => Nat.zero_lt_one
theorem powerFailWarning (src : Nat) : Statement (.powerFailWarning src) := fun _ => Nat.zero_lt_one
theorem pfailRecovery : Statement (.pfailRecovery) := fun _ => Nat.zero_lt_one
theorem powerStateRequest (pth : Path) (v : Word) : Statement (.powerStateRequest pth v) := fun _ => Nat.zero_lt_one
theorem powerTransitionDone : Statement (.powerTransitionDone) := fun _ => Nat.zero_lt_one
theorem groupPowerDown (pth : Path) (v : Word) : Statement (.groupPowerDown pth v) := fun _ => Nat.zero_lt_one
theorem groupPowerUp (pth : Path) (v : Word) : Statement (.groupPowerUp pth v) := fun _ => Nat.zero_lt_one
theorem groupReloadDone (g : Nat) : Statement (.groupReloadDone g) := fun h => of_decide_eq_true h
theorem bankPowerDown (pth : Path) (v : Word) : Statement (.bankPowerDown pth v) := fun _ => Nat.zero_lt_one
theorem bankPowerUp (pth : Path) (v : Word) : Statement (.bankPowerUp pth v) := fun _ => Nat.zero_lt_one
theorem laneQuadPower (pth : Path) (v : Word) : Statement (.laneQuadPower pth v) := fun _ => Nat.zero_lt_one
theorem wakeCapture (k : Nat) (rising : Bool) : Statement (.wakeCapture k rising) := fun h => of_decide_eq_true h
theorem wakeRingLoss : Statement (.wakeRingLoss) := fun _ => Nat.zero_lt_one
theorem wakeRingLine (head : Nat) : Statement (.wakeRingLine head) := fun h => of_decide_eq_true h
theorem wakeHost : Statement (.wakeHost) := fun _ => Nat.zero_lt_one
theorem wakeDone : Statement (.wakeDone) := fun _ => Nat.zero_lt_one
theorem refclkLost : Statement (.refclkLost) := fun _ => Nat.zero_lt_one
theorem pllLockLost (i : Nat) : Statement (.pllLockLost i) := fun h => of_decide_eq_true h
theorem holdoverEnd : Statement (.holdoverEnd) := fun _ => Nat.zero_lt_one
theorem testenAssert : Statement (.testenAssert) := fun _ => Nat.zero_lt_one
theorem jtagRegacc (dr : BitVec 66) (e : MemEcc) : Statement (.jtagRegacc dr e) := fun _ => Nat.zero_lt_one
theorem kweaveWordWrite (pth : Path) (v : Word) : Statement (.kweaveWordWrite pth v) := fun _ => Nat.zero_lt_one
theorem kweaveWordTimeout : Statement (.kweaveWordTimeout) := fun _ => Nat.zero_lt_one
theorem kweaveReplyRead (pth : Path) : Statement (.kweaveReplyRead pth) := fun _ => Nat.zero_lt_one
theorem kweaveResync (pth : Path) (v : Word) : Statement (.kweaveResync pth v) := fun _ => Nat.zero_lt_one
theorem kweaveFlush (pth : Path) (v : Word) : Statement (.kweaveFlush pth v) := fun _ => Nat.zero_lt_one
theorem sessionTimeout : Statement (.sessionTimeout) := fun _ => Nat.zero_lt_one
theorem nop : Statement (.nop) := fun _ => Nat.zero_lt_one
theorem getInfo : Statement (.getInfo) := fun _ => Nat.zero_lt_one
theorem softReset : Statement (.softReset) := fun _ => Nat.zero_lt_one
theorem sessionUnlock : Statement (.sessionUnlock) := fun _ => Nat.zero_lt_one
theorem sessionLock : Statement (.sessionLock) := fun _ => Nat.zero_lt_one
theorem abort : Statement (.abort) := fun _ => Nat.zero_lt_one
theorem handleQuery : Statement (.handleQuery) := fun _ => Nat.zero_lt_one
theorem handleList : Statement (.handleList) := fun _ => Nat.zero_lt_one
theorem keyLoad : Statement (.keyLoad) := fun _ => Nat.zero_lt_one
theorem keyZero : Statement (.keyZero) := fun _ => Nat.zero_lt_one
theorem echo : Statement (.echo) := fun _ => Nat.zero_lt_one
theorem pwrState : Statement (.pwrState) := fun _ => Nat.zero_lt_one
theorem pwrDomains : Statement (.pwrDomains) := fun _ => Nat.zero_lt_one
theorem pwrStatus : Statement (.pwrStatus) := fun _ => Nat.zero_lt_one
theorem cfgProgram : Statement (.cfgProgram) := fun _ => Nat.zero_lt_one
theorem cfgPartial : Statement (.cfgPartial) := fun _ => Nat.zero_lt_one
theorem cfgGolden : Statement (.cfgGolden) := fun _ => Nat.zero_lt_one
theorem cfgStatus : Statement (.cfgStatus) := fun _ => Nat.zero_lt_one
theorem calRun : Statement (.calRun) := fun _ => Nat.zero_lt_one
theorem calStore : Statement (.calStore) := fun _ => Nat.zero_lt_one
theorem calPart : Statement (.calPart) := fun _ => Nat.zero_lt_one
theorem calResult : Statement (.calResult) := fun _ => Nat.zero_lt_one
theorem calDue : Statement (.calDue) := fun _ => Nat.zero_lt_one
theorem regRead (e : List MemEcc) : Statement (.regRead e) := fun _ => Nat.zero_lt_one
theorem regWrite (e : List MemEcc) : Statement (.regWrite e) := fun _ => Nat.zero_lt_one
theorem regMaskwrite (e : List MemEcc) : Statement (.regMaskwrite e) := fun _ => Nat.zero_lt_one
theorem regReadblock (e : List MemEcc) : Statement (.regReadblock e) := fun _ => Nat.zero_lt_one
theorem regWriteblock (e : List MemEcc) : Statement (.regWriteblock e) := fun _ => Nat.zero_lt_one
theorem ltgArm : Statement (.ltgArm) := fun _ => Nat.zero_lt_one
theorem ltgDisarm : Statement (.ltgDisarm) := fun _ => Nat.zero_lt_one
theorem ltgPosload : Statement (.ltgPosload) := fun _ => Nat.zero_lt_one
theorem ltgSwtrig : Statement (.ltgSwtrig) := fun _ => Nat.zero_lt_one
theorem ltgSnap : Statement (.ltgSnap) := fun _ => Nat.zero_lt_one
theorem ltgTbload : Statement (.ltgTbload) := fun _ => Nat.zero_lt_one
theorem ltgStatus : Statement (.ltgStatus) := fun _ => Nat.zero_lt_one
theorem zlkStart : Statement (.zlkStart) := fun _ => Nat.zero_lt_one
theorem zlkStatus : Statement (.zlkStatus) := fun _ => Nat.zero_lt_one
theorem memMarch : Statement (.memMarch) := fun _ => Nat.zero_lt_one
theorem memFill : Statement (.memFill) := fun _ => Nat.zero_lt_one
theorem memFillDone (h : Nat) : Statement (.memFillDone h) := fun _ => Nat.zero_lt_one
theorem memStatus : Statement (.memStatus) := fun _ => Nat.zero_lt_one
theorem evqConfig : Statement (.evqConfig) := fun _ => Nat.zero_lt_one
theorem evqStatus : Statement (.evqStatus) := fun _ => Nat.zero_lt_one
theorem telRead : Statement (.telRead) := fun _ => Nat.zero_lt_one
theorem telConfig : Statement (.telConfig) := fun _ => Nat.zero_lt_one
theorem telCounters : Statement (.telCounters) := fun _ => Nat.zero_lt_one
theorem eventRecordWrite (src : Nat) : Statement (.eventRecordWrite src) := fun h => of_decide_eq_true h
theorem evqTailWrite (pth : Path) (v : Word) : Statement (.evqTailWrite pth v) := fun _ => Nat.zero_lt_one
theorem evqHostsleepWrite (pth : Path) (v : Word) : Statement (.evqHostsleepWrite pth v) := fun _ => Nat.zero_lt_one
theorem levelRevoke : Statement (.levelRevoke) := fun _ => Nat.zero_lt_one
theorem telemetryPeriod : Statement (.telemetryPeriod) := fun _ => Nat.zero_lt_one
theorem gpioCfgWrite (pth : Path) (p : Nat) (v : Word) : Statement (.gpioCfgWrite pth p v) := fun h => of_decide_eq_true h
theorem gpioClaimChange (p : Nat) : Statement (.gpioClaimChange p) := fun h => of_decide_eq_true h
theorem gpioMaskedWrite (pth : Path) (oe : Bool) (k : Nat) (v : Word) : Statement (.gpioMaskedWrite pth oe k v) := fun h => of_decide_eq_true h
theorem twowireGo (pth : Path) (h : Nat) (v : Word) : Statement (.twowireGo pth h v) := fun h => of_decide_eq_true (left_true h)
theorem twowireDone (h : Nat) (how : TwoWireEnd) (nbytes : Nat) (read : List Nat) : Statement (.twowireDone h how nbytes read) := fun h => of_decide_eq_true (left_true (left_true (left_true h)))
theorem twowireTimeout (h nbytes : Nat) : Statement (.twowireTimeout h nbytes) := fun h => of_decide_eq_true (left_true h)
theorem lanePacketStore (src : Nat) : Statement (.lanePacketStore src) := fun h => of_decide_eq_true h
theorem freePacketTimeout (n p : Nat) : Statement (.freePacketTimeout n p) := fun h => of_decide_eq_true (left_true h)
theorem lanePacketSend (l : Nat) : Statement (.lanePacketSend l) := fun h => of_decide_eq_true h
theorem laneFlowBlock (r mask : Nat) : Statement (.laneFlowBlock r mask) := fun h => of_decide_eq_true (left_true h)
theorem laneRxLost (r : Nat) : Statement (.laneRxLost r) := fun h => of_decide_eq_true h
theorem laneEnable (pth : Path) (l : Nat) (v : Word) : Statement (.laneEnable pth l v) := fun h => of_decide_eq_true h
theorem laneTrainDone (l : Nat) : Statement (.laneTrainDone l) := fun h => of_decide_eq_true h
theorem quadLock (q : Nat) : Statement (.quadLock q) := fun h => of_decide_eq_true h
theorem wordCellCycle (n pads : Nat) (raw : List (Nat × Nat)) (errs : List (Nat × MemEcc)) : Statement (.wordCellCycle n pads raw errs) := fun h => of_decide_eq_true h
theorem returnPairIdle (r : Nat) : Statement (.returnPairIdle r) := fun h => of_decide_eq_true h
theorem prognRise : Statement (.prognRise) := fun _ => Nat.zero_lt_one
theorem refclkReturn : Statement (.refclkReturn) := fun _ => Nat.zero_lt_one
theorem vbatLoss : Statement (.vbatLoss) := fun _ => Nat.zero_lt_one
theorem railSet (ser12 : Nat) : Statement (.railSet ser12) := fun h => of_decide_eq_true h
theorem temperatureSetTimeout : Statement (.temperatureSetTimeout) := fun _ => Nat.zero_lt_one
theorem extestInstruction (on_ : Bool) : Statement (.extestInstruction on_) := fun _ => Nat.zero_lt_one

end Sys2Proof.Laws.Units
end

