-- ==== Sys2Proof/Tests/Slice0.lean ====
section
/-! SUPPORT. Tests: small states, for every statement with hypotheses a state and operands that meet them clause by clause
(`test_meets_<statement>`), an ill-formed command for every check of `Instr.wf`, and the worked examples of the manual. -/

namespace Sys2Proof.Tests

open Sys2Proof Sys2Proof.Machine

set_option maxRecDepth 4000
set_option Elab.async false

/-! Small states -/

/-- The device in RUN, one second after power-on. -/
def runDev : Dev :=
  { Dev.reset with now := 1000000000, tb := 1000000000, pwr := { Pwr.reset with st := .run, booted := true } }

/-- That device with some fields written, and with what `f` changes beside its registers. -/
def on (l : List (Fld × Nat × Nat)) (f : Dev → Dev) : State :=
  { State.reset with dev := f (l.foldl (fun d x => d.wf x.1 x.2.1 x.2.2) runDev) }

/-- The words of a packet, before its CRC: opcode and parameters. -/
def pkt (op : Nat) (ps : List Nat) : List Nat := [0x4B570004 + ps.length, op, 0] ++ ps ++ [0]

/-- That device while it interprets a packet. -/
def asking (l : List (Fld × Nat × Nat)) (op : Nat) (ps : List Nat) : State :=
  on l (fun d => { d with kw := { d.kw with cur := some (pkt op ps) } })

/-- A register value with these fields. -/
def word (l : List (Fld × Nat)) : Word := BitVec.ofNat 32 (l.foldl (fun n x => setBits n x.1.lsb x.1.width x.2) 0)

/-- The device with calibration by temperature switched off, so that its scheduler has nothing to start. -/
def still (l : List (Fld × Nat × Nat)) (f : Dev → Dev) : State := on ((CAL_CTRL_TRIG, 0, 0) :: l) f

/-- The configured device in RUN. -/
def cfgd (l : List (Fld × Nat × Nat)) (f : Dev → Dev) : State := on ((CFG_STATUS_STATE, 0, csDONE) :: l) f

/-- The device in a power state. -/
def inState (st : PState) (l : List (Fld × Nat × Nat)) (f : Dev → Dev) : State :=
  on l (fun d => f { d with pwr := { d.pwr with st := st } })

/-- The configured device with region `n` running. -/
def rgn (n : Nat) (l : List (Fld × Nat × Nat)) (f : Dev → Dev) : State :=
  on ([(CFG_STATUS_STATE, 0, csDONE), (FAB_RCLK_FSEL, n, 1), (RGN_STAT_STATE, n, rsRUNNING)] ++ l) (fun d =>
    f { d with fab := { d.fab with gsr := 65535, wen := 65535 } })

/-- A line of head 5 on its way to port 2 of region 9. -/
def outLine : LineOut :=
  { head := 5, num := 4, s := 999999000, pos := 7, gap := false, stale := false, region := some 9, lane := none,
    stream := [⟨100, false, false, false, 20⟩], packet := [], laneData := 0, stats := .reset, streamRec := false,
    data := 0, mask := 0, port := some 2, laneStats := false, bin := 0, npix := 1 }

/-- A line that has left port `p` of region `n` with signature `sig`. -/
def fabLine (n p sig : Nat) : FabLine :=
  { region := n, port := p, tag := some ⟨5, 4, 999999000, 7, false, false⟩, tb := 999999000, words := [1, 2], eol := 0,
    ovf := false, trunc := false, discard := false, mismatch := false, cyc := .none, sig := sig, pol := 0, verdict := false }

/-- A request at bank 7 for its last word. -/
def req (who : Requester) (write : Bool) (data id : Nat) : MemReq := ⟨who, 7, 131071, write, data, id, none⟩

/-- A bank holds a word. -/
def stored (s : State) (b w v : Nat) : State := { s with mem := memWrite s.mem (bankAddr b w) 8 v }

/-- The device in LOAD, a full image in standard mode under the header `hdr`, with these words at the head. -/
def loading (hdr : ImgHdr) (l : List (Fld × Nat × Nat)) (ws : List Nat) (f : Load → Load) : State :=
  on ((CFG_STATUS_STATE, 0, csLOAD) :: l) (fun d => { d with cfg := { d.cfg with
    load := f { Load.reset with isOpen := true, hdr := some hdr, words := ws, pos := 64, setDone := true, lastNow := 1000000000 } } })

/-- A header with room for a body of 64 KiB. -/
def plainHdr : ImgHdr := { ImgHdr.reset with bodylen := 65536 }

/-- The words of a header, its CRC last. -/
def hdrWords (w : List Nat) : List Nat := w ++ [crcWords w]

/-- The header of an encrypted image with an empty body. -/
def sealedHdr : ImgHdr := { ImgHdr.reset with enc := true, bodylen := 20 }

/-- A load of that image that has come to its TAG packet, with these words for the tag. -/
def sealedLoad (ws : List Nat) : State :=
  let s := loading sealedHdr [] ([0x409] ++ ws) (fun l => { l with order := 4, head := List.replicate 16 0 })
  { s with dev := { s.dev with cfg := { s.dev.cfg with fuseKey := List.replicate 32 0 } } }

/-- The tag that AES-256 in GCM mode gives it, as words. -/
def tagWords : List Nat :=
  let t := gcmTag (List.replicate 32 0) (List.replicate 12 0) (List.replicate 64 0) []
  (List.range 4).map (fun k => ((t.drop (4 * k)).take 4).foldr (fun b acc => b + 256 * acc) 0)

/-- A header with a different value in every field. -/
def hdrEx : RingHdr := ⟨1, 2, 3, 4, 5, 6, 7, 8, 9, 10, 11⟩

/-- The device with the ring enabled under ID 7, the superframe of `hdrEx` passing at input `ring`: message `m` in slot `j`, IDLE
slots elsewhere. -/
def slotted (ring : Bool) (j : Nat) (m : RingMsg) (l : List (Fld × Nat × Nat)) (f : Dev → Dev) : State :=
  on ([(ZLK_CTRL_EN, 0, 1), (ZLK_CTRL_ID, 0, 7)] ++ l) (fun d => f (d.setRingIn ring { d.ringIn ring with
    chars := hdrEx.chars ++ ((List.range 8).map (fun i => (if i = j then m else .idle : RingMsg).chars)).flatten
    at64 := 64 * 999999000, atDev := 64 * 999999000 }))

/-! Completion and the hypotheses that are not decided as they stand -/

/-- What a statement's conclusion says of completion: the command answers a next state. -/
def Runs (c : Instr) (s : State) : Prop := ∃ t, exec c s = .next t

theorem runs {c : Instr} {s : State} {P : State → Prop} (h : ∃ t, exec c s = .next t ∧ P t) : Runs c s :=
  let ⟨t, e, _⟩ := h; ⟨t, e⟩

/-- `Dev.takes` as a test. -/
def takesB (d : Dev) (pth : Path) : Bool :=
  match pth with
  | .direct => decide (d.pwr.st ≠ .off) && decide (d.pwr.st ≠ .sleep) && decide (d.pwr.st ≠ .waking)
  | .kweave => d.managementOn

theorem takes {d : Dev} {pth : Path} (h : takesB d pth = true) : d.takes pth := by
  cases pth <;> simpa [takesB, Dev.takes, and_assoc] using h

theorem serves {s : State} {pth : Path} {k : RegKind} {i : Nat}
    (h : takesB s.dev pth = true ∧ i < regCount k ∧ s.dev.reachable k i = true ∧
      (k = .FAB_SNAPDATA → s.dev.snapReadable pth = true)) : s.serves pth k i := ⟨takes h.1, h.2⟩

theorem accepts {s : State} {pth : Path} {k : RegKind} {i : Nat} {v : Word}
    (h : (takesB s.dev pth = true ∧ i < regCount k ∧ s.dev.reachable k i = true ∧
      (k = .FAB_SNAPDATA → s.dev.snapReadable pth = true)) ∧ k.writable = true ∧
      s.dev.writeRefusal pth k i v.toNat = none) : s.accepts pth k i v := ⟨serves h.1, h.2⟩

theorem ready {d : Dev} {h b : Nat} (x : (d.getLtg h).held = none ∧ d.imode h = .fire ∧ d.followers h = [] ∧
    (d.getLtg h).sPrev = none) : d.readyToFire h b :=
  ⟨x.1, x.2.1, x.2.2.1, fun _ e => nomatch (x.2.2.2.symm.trans e)⟩

theorem noErrs {s : State} (e : s.dev.bank.errs = []) :
    ∀ x w, x < 256 → w < 1024 → tget s.dev.bank.errs 0 (spAddr x w) = 0 := by
  intros; rw [e]; rfl

/-! The hypotheses of the statements can be met -/

theorem test_meets_EncoderPulses (h : Obligations.EncoderPulses) :
    Runs (.encLosBegin 3) (on [] id) ∧
    Runs (.encLosEnd 3) (on [(ENC_STAT_LOS, 3, 1)] id) ∧
    Runs (.encStall 3) (on [(ENC_CTRL_EN, 3, 1), (ENC_STAT_VALID, 3, 1)] (fun d => d.setEnc 3 { d.getEnc 3 with v := 5 })) ∧
    Runs (.encEdgeAccepted 3 true true true 5 5 9) (on [(ENC_FILT_ABW, 3, 5), (ENC_FILT_ZW, 3, 9)] id) ∧
    Runs (.encLosBegin 3) (on [(ENC_CTRL_EN, 3, 1), (LTG_CTRL_ARM, 5, 1), (LTG_CTRL_ENC, 5, 3), (LTG_CTRL_LOSS, 5, 1)] id) ∧
    Runs (.encLosBegin 3) (on [(ENC_CTRL_EN, 3, 1), (LTG_CTRL_ARM, 5, 1), (LTG_CTRL_ENC, 5, 3)] id) ∧
    Runs (.encEdgeAccepted 3 true false false 9 9 0) (on [] id) ∧
    Runs (.encEdgeAccepted 3 true true false 9 10 0) (on [(ENC_CTRL_EN, 3, 1)] id) ∧
    Runs (.encEdgeAccepted 3 true false false 9 10 0) (on [(ENC_CTRL_EN, 3, 1)] id) ∧
    Runs (.encEdgeAccepted 7 false true false 9 10 0) (on [(ENC_CTRL_EN, 7, 1)] id) :=
  ⟨runs ((h.1 _ 3 (by decide +kernel) (by decide +kernel)).1 (by decide +kernel)),
   runs ((h.1 _ 3 (by decide +kernel) (by decide +kernel)).2.1 (by decide +kernel)),
   runs ((h.1 _ 3 (by decide +kernel) (by decide +kernel)).2.2 (by decide +kernel)),
   (by refine runs ((h.2 _ 3 true true true 5 5 9 ?_ ?_).1 ?_ ?_ ?_) <;> decide +kernel),
   runs ((h.1 _ 3 (by decide +kernel) (by decide +kernel)).1 (by decide +kernel)),
   runs ((h.1 _ 3 (by decide +kernel) (by decide +kernel)).1 (by decide +kernel)),
   (by refine runs (((h.2 _ 3 true false false 9 9 0 ?_ ?_).2 ?_ ?_ ?_).1 ?_) <;> decide +kernel),
   (by refine runs (((h.2 _ 3 true true false 9 10 0 ?_ ?_).2 ?_ ?_ ?_).2.1 ?_ ?_ ?_ ?_) <;> decide +kernel),
   (by refine runs ((((h.2 _ 3 true false false 9 10 0 ?_ ?_).2 ?_ ?_ ?_).2.2 ?_ ?_ ?_ ?_ (.inl rfl)).1 ?_) <;> decide +kernel),
   (by refine runs ((((h.2 _ 7 false true false 9 10 0 ?_ ?_).2 ?_ ?_ ?_).2.2 ?_ ?_ ?_ ?_ (.inl rfl)).2 ?_) <;> decide +kernel)⟩

theorem test_meets_EncoderIllegalTransition (h : Obligations.EncoderIllegalTransition) :
    Runs (.encEdgeAccepted 3 true true false 9 10 0) (on [(ENC_CTRL_EN, 3, 1), (ENC_ERRCNT_QERRS, 3, 65535)] id) :=
  (by refine runs (h _ 3 true true false 9 10 0 ?_ ?_ ?_ ?_ ?_ ?_ ?_ ?_ ?_) <;> decide +kernel)

theorem test_meets_EncoderRegisters (h : Obligations.EncoderRegisters) :
    Runs (.encCtrlWrite .direct 3 1#32) (on [] id) ∧
    Runs (.encPositionLoad .direct 3 2147483653#32) (on [(ENC_CTRL_EN, 3, 1), (ENC_POSSET_VAL, 3, 77)] id) ∧
    Runs (.encPosRead .kweave 7) (on [] (fun d => d.setEnc 7 { d.getEnc 7 with pos := 0x123456789AB })) :=
  ⟨(by refine runs ((h _ .direct 3 1#32 ?_).1 (accepts ?_) ?_ ?_) <;> decide +kernel),
   runs ((h _ .direct 3 0x80000005#32 (by decide +kernel)).2.1 (accepts (by decide +kernel)) (by decide +kernel)),
   runs ((h _ .kweave 7 0 (by decide +kernel)).2.2 (serves (by decide +kernel)))⟩

theorem test_meets_TimebaseReadsAsOneInstant (h : Obligations.TimebaseReadsAsOneInstant) :
    Runs (.tbRead .direct) (on [] (fun d => { d with tb := 0x123456789AB })) :=
  runs (h _ .direct (serves (by decide +kernel)))

theorem test_meets_TimebaseLoad (h : Obligations.TimebaseLoad) :
    Runs (.tbLoad .direct 1#32) (on [(LTG_TBSETH_SETH, 0, 5), (LTG_TBSET_SET, 0, 6)] id) ∧
    Runs (.tbLoad .direct 1#32) (on [(LTG_CTRL_ARM, 23, 1)] id) ∧
    Runs (.regWrite []) (asking [(LTG_CTRL_ARM, 23, 1)] 0x401 [1, 0x000A1010, 1]) :=
  ⟨(by refine runs ((h _ 1#32 ?_).1 .direct (serves ?_) ?_ ?_) <;> decide +kernel),
   (by refine runs (((h _ 1#32 ?_).2 (.inr ⟨23, ?_, ?_⟩)).1 (serves ?_) ?_) <;> decide +kernel),
   (by refine runs (((h _ 1#32 ?_).2 (.inr ⟨23, ?_, ?_⟩)).2 (pkt 0x401 [1, 0x000A1010, 1]) [] (serves ?_) (by unfold State.asks State.interprets; decide +kernel) ?_ ?_ ?_) <;> decide +kernel)⟩

theorem test_meets_LineTriggers (h : Obligations.LineTriggers) :
    Runs (.ltgEvaluate 5) (on [(LTG_CTRL_ARM, 5, 1)] id) ∧
    Runs (.ltgEvaluate 5) (on [(LTG_CTRL_ARM, 5, 1), (ENC_CTRL_EN, 0, 1), (ENC_STAT_VALID, 0, 1), (LTG_STAT_SLOW, 5, 1)] (fun
      d => (d.setEnc 0 { d.getEnc 0 with v := 65536 }).setLtg 5
      { d.getLtg 5 with target := ((d.lead + 17 + d.centre 5 : Nat) : Int) })) ∧
    Runs (.ltgEvaluate 5) (on [(LTG_CTRL_ARM, 5, 1), (ENC_CTRL_EN, 0, 1), (ENC_STAT_VALID, 0, 1), (LTG_STAT_SLOW, 5, 1)] (fun
      d => (d.setEnc 0 { d.getEnc 0 with v := 65536 }).setLtg 5
      { d.getLtg 5 with target := ((d.lead + 16 + d.centre 5 : Nat) : Int) })) ∧
    Runs (.ltgTimerExpiry 5) (on [(LTG_CTRL_ARM, 5, 1), (LTG_CTRL_SRC, 5, 1)] (fun d => d.setLtg 5
      { d.getLtg 5 with nominal := 1000000100 })) ∧
    Runs (.ltgDeferredIssue 5) (on [(LTG_CTRL_ARM, 5, 1), (LTG_CTRL_SRC, 5, 1)] (fun d => d.setLtg 5
      { d.getLtg 5 with held := some ⟨4, 1000000200, false, none⟩ })) ∧
    Runs (.ltgCoastExpiry 5) (on [(LTG_CTRL_ARM, 5, 1), (LTG_STAT_COASTING, 5, 1)] id) ∧
    Runs (.ltgCtrlArm .direct 5 (word [(LTG_CTRL_ARM, 1), (LTG_CTRL_SRC, 1)])) (on [] id) ∧
    Runs (.ltgCtrlDisarm .kweave 23 0#32) (on [(LTG_CTRL_ARM, 23, 1)] id) ∧
    Runs (.ltgSwt .direct 5 (word [(LTG_CTRL_ARM, 1), (LTG_CTRL_SRC, 4), (LTG_CTRL_SWT, 1)])) (on [(LTG_CTRL_ARM, 5, 1),
      (LTG_CTRL_SRC, 5, 4)] id) :=
  ⟨(by refine runs ((h.1 _ 5 ?_ ?_).1 ?_ ?_ ?_ ?_ ?_ ?_ ?_) <;> decide +kernel),
   (by refine runs (((h.1 _ 5 ?_ ?_).2.1 ?_ ?_ ?_ ?_ ?_ ((on [(LTG_CTRL_ARM, 5, 1), (ENC_CTRL_EN, 0, 1), (ENC_STAT_VALID, 0, 1), (LTG_STAT_SLOW, 5, 1)] (fun d => (d.setEnc 0 { d.getEnc 0 with v := 65536 }).setLtg 5 { d.getLtg 5 with target := ((d.lead + 17 + d.centre 5 : Nat) : Int) })).dev.t + (on [(LTG_CTRL_ARM, 5, 1), (ENC_CTRL_EN, 0, 1), (ENC_STAT_VALID, 0, 1), (LTG_STAT_SLOW, 5, 1)] (fun d => (d.setEnc 0 { d.getEnc 0 with v := 65536 }).setLtg 5 { d.getLtg 5 with target := ((d.lead + 17 + d.centre 5 : Nat) : Int) })).dev.lead + 17) ?_).1 ?_) <;> decide +kernel),
   (by refine runs (((h.1 _ 5 ?_ ?_).2.1 ?_ ?_ ?_ ?_ ?_ ((on [(LTG_CTRL_ARM, 5, 1), (ENC_CTRL_EN, 0, 1), (ENC_STAT_VALID, 0, 1), (LTG_STAT_SLOW, 5, 1)] (fun d => (d.setEnc 0 { d.getEnc 0 with v := 65536 }).setLtg 5 { d.getLtg 5 with target := ((d.lead + 16 + d.centre 5 : Nat) : Int) })).dev.t + (on [(LTG_CTRL_ARM, 5, 1), (ENC_CTRL_EN, 0, 1), (ENC_STAT_VALID, 0, 1), (LTG_STAT_SLOW, 5, 1)] (fun d => (d.setEnc 0 { d.getEnc 0 with v := 65536 }).setLtg 5 { d.getLtg 5 with target := ((d.lead + 16 + d.centre 5 : Nat) : Int) })).dev.lead + 16) ?_).2 ?_ ?_ (ready ?_)) <;> decide +kernel),
   (by refine runs ((h.1 _ 5 ?_ ?_).2.2.1 ?_ ?_ ?_ (ready ?_)) <;> decide +kernel),
   (by refine runs ((h.1 _ 5 ?_ ?_).2.2.2.1 ⟨4, 1000000200, false, none⟩ rfl rfl rfl ?_ ?_ ?_ ?_) <;> decide +kernel),
   runs ((h.1 _ 5 (by decide +kernel) (by decide +kernel)).2.2.2.2 (by decide +kernel)),
   (by refine runs ((h.2 _ .direct 5 (word [(LTG_CTRL_ARM, 1), (LTG_CTRL_SRC, 1)]) ?_ (accepts ?_)).1 ?_ ?_ ?_) <;> decide +kernel),
   (by refine runs ((h.2 _ .kweave 23 0#32 ?_ (accepts ?_)).2.1 ?_ ?_ ?_) <;> decide +kernel),
   (by refine runs ((h.2 _ .direct 5 (word [(LTG_CTRL_ARM, 1), (LTG_CTRL_SRC, 4), (LTG_CTRL_SWT, 1)]) ?_ (accepts ?_)).2.2 ?_ ?_ ?_ ?_ (ready ?_)) <;> decide +kernel)⟩

theorem test_meets_LineBoundaryAndStrobes (h : Obligations.LineBoundaryAndStrobes) :
    Runs (.lineFire 5) (on [(HCP_CTRL_EN, 5, 1), (AFE_CH_EN, 20, 1)] (fun d => d.setLtg 5
      { d.getLtg 5 with issued := [⟨4, 1000000000, 0, false, none, d.regs⟩] })) ∧
    Runs (.lineFire 5) (on [(AFE_CH_EN, 20, 1)] (fun d => d.setLtg 5
      { d.getLtg 5 with issued := [⟨4, 1000000000, 0, false, none, d.regs⟩] })) ∧
    Runs (.lineFire 5) (on [(ZLK_STAT_ROLE, 0, 2), (HCP_CTRL_EN, 5, 1)] (fun d => d.setLtg 5
      { d.getLtg 5 with issued := [⟨4, 1000000000, 0, false, none, d.regs⟩] })) ∧
    Runs (.strobeEnd 5) (on [(HCP_CTRL_EN, 5, 1), (HCP_TSTAT_LEDON, 5, 1)] (fun d => d.setHcp 5
      { d.getHcp 5 with led := some ⟨999999000, 1000000000⟩, ledOn := true })) :=
  ⟨(by refine runs (((h _ 5 ?_ ?_).1 (((on [(HCP_CTRL_EN, 5, 1), (AFE_CH_EN, 20, 1)] (fun d => d.setLtg 5 { d.getLtg 5 with issued := [⟨4, 1000000000, 0, false, none, d.regs⟩] })).dev.getLtg 5).issued.headD ⟨0, 0, 0, false, none, []⟩) ((on [(HCP_CTRL_EN, 5, 1), (AFE_CH_EN, 20, 1)] (fun d => d.setLtg 5 { d.getLtg 5 with issued := [⟨4, 1000000000, 0, false, none, d.regs⟩] })).dev.getLtg 5).issued.tail ?_ ?_ ?_ ?_ ?_).1 ?_) <;> decide +kernel),
   (by refine runs (((h _ 5 ?_ ?_).1 (((on [(AFE_CH_EN, 20, 1)] (fun d => d.setLtg 5 { d.getLtg 5 with issued := [⟨4, 1000000000, 0, false, none, d.regs⟩] })).dev.getLtg 5).issued.headD ⟨0, 0, 0, false, none, []⟩) ((on [(AFE_CH_EN, 20, 1)] (fun d => d.setLtg 5 { d.getLtg 5 with issued := [⟨4, 1000000000, 0, false, none, d.regs⟩] })).dev.getLtg 5).issued.tail ?_ ?_ ?_ ?_ ?_).2 ?_) <;> decide +kernel),
   (by refine runs ((h _ 5 ?_ ?_).2.1 (((on [(ZLK_STAT_ROLE, 0, 2), (HCP_CTRL_EN, 5, 1)] (fun d => d.setLtg 5 { d.getLtg 5 with issued := [⟨4, 1000000000, 0, false, none, d.regs⟩] })).dev.getLtg 5).issued.headD ⟨0, 0, 0, false, none, []⟩) ((on [(ZLK_STAT_ROLE, 0, 2), (HCP_CTRL_EN, 5, 1)] (fun d => d.setLtg 5 { d.getLtg 5 with issued := [⟨4, 1000000000, 0, false, none, d.regs⟩] })).dev.getLtg 5).issued.tail ?_ ?_ ?_) <;> decide +kernel),
   (by refine runs ((h _ 5 ?_ ?_).2.2 ⟨999999000, 1000000000⟩ ?_ ?_ ?_) <;> decide +kernel)⟩

theorem test_meets_StrobeStartsAndClips (h : Obligations.StrobeStartsAndClips) :
    Runs (.strobeStart 5) (on [(HCP_CTRL_EN, 5, 1)] (fun d => d.setHcp 5
      { d.getHcp 5 with strobes := [⟨1000000001, 1000000100⟩] })) ∧
    Runs (.strobeStart 5) (on [(HCP_CTRL_EN, 5, 1)] (fun d => d.setHcp 5
      { d.getHcp 5 with strobes := [⟨1000000000, 1000000100⟩], led := some ⟨999999000, 1000000050⟩, ledOn := true })) :=
  ⟨(by refine ⟨_, (h _ 5 ⟨1000000001, 1000000100⟩ [] ?_ ?_ ?_ ?_).1 ?_⟩ <;> decide +kernel),
   (by refine runs ((h _ 5 ⟨1000000000, 1000000100⟩ [] ?_ ?_ ?_ ?_).2 ?_) <;> decide +kernel)⟩

theorem test_meets_CaptureUnits (h : Obligations.CaptureUnits) :
    Runs (.capture 48 true 999999999) (on [(ENC_CAPCTRL_EN, 31, 1), (ENC_CAPCTRL_SRC, 31, 48)] id) ∧
    Runs (.capture 48 true 999999999) (on [(ENC_CAPCTRL_EN, 31, 1), (ENC_CAPCTRL_SRC, 31, 48)] (fun d => d.setCap 31 [⟨1, 1⟩,
      ⟨2, 2⟩, ⟨3, 3⟩, ⟨4, 4⟩])) ∧
    Runs (.captureRead .direct 31) (on [] (fun d => d.setCap 31 [⟨0x123456789, 0x987654321⟩])) ∧
    Runs (.capturePop .direct 31 (word [(ENC_CAPSTAT_POP, 1)])) (on [(ENC_CAPCTRL_EN, 31, 1)] (fun d => d.setCap 31 [⟨1, 1⟩,
      ⟨2, 2⟩])) :=
  ⟨(by refine runs (((h _ .direct 31 0 ?_).1 48 true 999999999 ?_ ?_ rfl ?_ ?_ ?_).1 ?_) <;> decide +kernel),
   (by refine runs (((h _ .direct 31 0 ?_).1 48 true 999999999 ?_ ?_ rfl ?_ ?_ ?_).2 ?_) <;> decide +kernel),
   runs ((h _ .direct 31 0 (by decide +kernel)).2.1 (serves (by decide +kernel)) ⟨0x123456789, 0x987654321⟩ []
    (by decide +kernel)),
   runs ((h _ .direct 31 (word [(ENC_CAPSTAT_POP, 1)]) (by decide +kernel)).2.2 (accepts (by decide +kernel))
    (by decide +kernel))⟩

theorem test_meets_RingHeaders (h : Obligations.RingHeaders) :
    Runs (.zlkSuperframeSend) (on [(ZLK_CTRL_EN, 0, 1), (ZLK_CTRL_ID, 0, 7), (ZLK_STAT_ROLE, 0, 1), (ZLK_STAT_PHASE, 0, 2),
      (ZLK_CTRL_TRACK, 0, 0)] (fun d =>
      { d with tb := 1000000512, zlk := { d.zlk with originating := true, sfn := 255, txLines := [.line 5 4 3 2] } })) ∧
    Runs (.zlkHeaderReceive true (List.replicate 256 7) 64000000000) (on [(ZLK_CTRL_EN, 0, 1), (ZLK_ERRCNT_HDR, 0, 65535)]
      id) ∧
    Runs (.zlkHeaderReceive true (hdrEx.chars ++ (List.replicate 8 RingMsg.idle.chars).flatten) 64000000000) (on
      [(ZLK_CTRL_EN, 0, 1), (ZLK_CTRL_ID, 0, 7), (ZLK_STAT_ROLE, 0, 2)] id) :=
  ⟨(by refine runs ((h.2 _ ?_ ?_).1 ?_ ?_ ?_) <;> decide +kernel),
   runs ((h.2 _ (by decide +kernel) (by decide +kernel)).2.1 true (List.replicate 256 7) 64000000000 (by decide +kernel)),
   (by refine runs ((h.2 _ ?_ ?_).2.2 true (hdrEx.chars ++ (List.replicate 8 RingMsg.idle.chars).flatten) 64000000000 hdrEx ?_ ?_ ?_ ?_) <;> decide +kernel)⟩

theorem test_meets_RingMessages_1 (h : Obligations.RingMessages) :
    Runs (.ringLine true 9) (slotted true 3 .idle [] id) ∧
    Runs (.ringEcho true 9) (slotted true 3 .idle [] id) ∧
    Runs (.echoReply true 9) (slotted true 3 .idle [] id) ∧
    Runs (.ringOffset true 9) (slotted true 3 .idle [] id) ∧
    Runs (.ringStartMessage true 9) (slotted true 3 .idle [] id) ∧
    Runs (.ringEcho true 3) (slotted true 3 (.echo 7 9 0) [] id) ∧
    Runs (.ringEcho true 3) (slotted true 3 (.echo 7 9 0) [] (fun d => (d.setRingIn false
      { d.ringIn false with atDev := 64 * 999999500 }).setZ (fun z =>
      { z with out0 := hdrEx.chars ++ (List.replicate 8 RingMsg.idle.chars).flatten }))) ∧
    Runs (.echoReply true 3) (slotted true 3 (.echoReply 3 9 6400) [(ZLK_STAT_ROLE, 0, 1)] (fun d =>
      { d with zlk := { d.zlk with originating := true, echoes := [⟨3, 1, 9, 500⟩] } })) ∧
    Runs (.echoReply true 3) (slotted true 3 (.echoReply 3 9 6400) [(ZLK_STAT_ROLE, 0, 1), (ZLK_STAT_PHASE, 0, 2)] (fun d =>
      { d with zlk := { d.zlk with originating := true, echoes := [⟨3, 1, 9, 500⟩], accs := [⟨3, 0, 15, 1000⟩] } })) ∧
    Runs (.ringOffset true 3) (slotted true 3 (.offset 7 0 0x12345) [] id) ∧
    Runs (.ringOffset true 7) (slotted true 7 (.offset 7 1 0x12345) [] id) ∧
    Runs (.ringOffset true 3) (slotted true 3 (.offset 8 0 0x12345) [] id) :=
  ⟨⟨_, (h.1 _ true 9 (by decide +kernel)).1 (by decide +kernel) _ (.inl rfl)⟩,
   ⟨_, (h.1 _ true 9 (by decide +kernel)).1 (by decide +kernel) _ (.inr (.inl rfl))⟩,
   ⟨_, (h.1 _ true 9 (by decide +kernel)).1 (by decide +kernel) _ (.inr (.inr (.inl rfl)))⟩,
   ⟨_, (h.1 _ true 9 (by decide +kernel)).1 (by decide +kernel) _ (.inr (.inr (.inr (.inl rfl))))⟩,
   ⟨_, (h.1 _ true 9 (by decide +kernel)).1 (by decide +kernel) _ (.inr (.inr (.inr (.inr rfl))))⟩,
   runs (((h.1 _ true 3 (by decide +kernel)).2.1 9 (by decide +kernel) (by decide +kernel))),
   runs (((h.1 _ true 3 (by decide +kernel)).2.1 9 (by decide +kernel) (by decide +kernel))),
   (by refine runs ((h.1 _ true 3 ?_).2.2.1 ⟨3, 1, 9, 500⟩ 6400 ?_ ?_ ?_ ?_) <;> decide +kernel),
   (by refine runs ((h.1 _ true 3 ?_).2.2.1 ⟨3, 1, 9, 500⟩ 6400 ?_ ?_ ?_ ?_) <;> decide +kernel),
   runs (((h.1 _ true 3 (by decide +kernel)).2.2.2.1 0x12345).1 (by decide +kernel)),
   runs (((h.1 _ true 7 (by decide +kernel)).2.2.2.1 0x12345).2.1 (by decide +kernel)),
   runs (((h.1 _ true 3 (by decide +kernel)).2.2.2.1 0x12345).2.2 8 0 (by decide +kernel) (by decide +kernel))⟩

theorem test_meets_RingMessages_2 (h : Obligations.RingMessages) :
    Runs (.ringStartMessage false 0) (slotted false 0 (.start 5000 300) [(ZLK_STAT_ROLE, 0, 4), (ZLK_OFSP_OFS, 0, 6400)] id) ∧
    Runs (.ringLine true 3) (slotted true 3 (.line 9 4 1000000200 77) [(ZLK_STAT_ROLE, 0, 2), (ZLK_STAT_LOCKED, 0, 1),
      (LTG_CTRL_ARM, 5, 1), (LTG_CTRL_SRC, 5, 3), (LTG_CTRL_REF, 5, 9)] id) ∧
    Runs (.ringLine true 3) (slotted true 3 (.line 9 7 1000000199 77) [(ZLK_STAT_ROLE, 0, 2)] (fun d =>
      { d with zlk := { d.zlk with lastLine := [(9, 5)] } })) ∧
    Runs (.ringLine true 3) (slotted true 3 (.line 9 7 1000000199 77) [(ZLK_STAT_ROLE, 0, 2), (ZLK_STAT_LOCKED, 0, 1),
      (LTG_CTRL_ARM, 5, 1), (LTG_CTRL_SRC, 5, 3), (LTG_CTRL_REF, 5, 9)] (fun d =>
      { d with zlk := { d.zlk with lastLine := [(9, 5)] } })) ∧
    Runs (.ringLine true 3) (slotted true 3 (.line 9 4 1000000199 77) [(ZLK_STAT_ROLE, 0, 2)] (fun d =>
      { d with zlk := { d.zlk with lastLine := [(9, 5)], recent := [(9, [(4, 999999000)])] } })) ∧
    Runs (.ringLine true 3) (slotted true 3 (.line 9 4 1000000199 77) [(ZLK_STAT_ROLE, 0, 1)] id) :=
  ⟨(by refine runs ((h.1 _ false 0 ?_).2.2.2.2 5000 300 ?_ ?_ ?_) <;> decide +kernel),
   (by refine runs (((h.2 _ true 3 9 4 1000000200 77 ?_ ?_).1 ?_ ?_).1 ?_ ?_ ?_ 5 ?_ (ready ?_)) <;> decide +kernel),
   (by refine runs (((h.2 _ true 3 9 7 1000000199 77 ?_ ?_).1 ?_ ?_).2.1 4 ?_ ?_ ?_ ?_) <;> decide +kernel),
   (by refine runs (((h.2 _ true 3 9 7 1000000199 77 ?_ ?_).1 ?_ ?_).2.2 ?_ 5 ?_) <;> decide +kernel),
   (by refine runs ((h.2 _ true 3 9 4 1000000199 77 ?_ ?_).2 (.inl ⟨(4, 999999000), ?_, ?_, ?_⟩)) <;> decide +kernel),
   runs ((h.2 _ true 3 9 4 1000000199 77 (by decide +kernel) (by decide +kernel)).2 (.inr (.inr (.inl (by decide +kernel)))))⟩

theorem test_meets_RingBreaks (h : Obligations.RingBreaks) :
    Runs (.zlkInputLost false) (on [(ZLK_CTRL_EN, 0, 1), (ZLK_STAT_ROLE, 0, 2), (ZLK_STAT_PRIOK, 0, 1), (ZLK_STAT_REVOK, 0,
      1)] id) ∧
    Runs (.zlkInputLost true) (on [(ZLK_CTRL_EN, 0, 1), (ZLK_STAT_ROLE, 0, 2), (ZLK_STAT_REVOK, 0, 1), (LTG_CTRL_ARM, 5, 1),
      (LTG_CTRL_SRC, 5, 3)] id) ∧
    Runs (.zlkLockLost) (on [(ZLK_CTRL_EN, 0, 1), (ZLK_STAT_ROLE, 0, 2), (ZLK_STAT_LOCKED, 0, 1)] id) ∧
    Runs (.zlkStartTimeout) (on [(ZLK_CTRL_EN, 0, 1), (ZLK_STAT_ROLE, 0, 4)] (fun d =>
      { d with now := 90000000000, zlk := { d.zlk with startHandle := some 9 } })) ∧
    Runs (.zlkStartTimeout) (on [(ZLK_CTRL_EN, 0, 1), (ZLK_STAT_ROLE, 0, 4)] (fun d =>
      { d with now := 90000000000, zlk := { d.zlk with startHandle := some 9, originating := true, pri := { d.zlk.pri with own := 64 } } })) ∧
    Runs (.zlkCtrlStart .direct (word [(ZLK_CTRL_EN, 1), (ZLK_CTRL_START, 1), (ZLK_CTRL_TRACK, 1)])) (on [(ZLK_CTRL_EN, 0,
      1)] id) ∧
    Runs (.zlkRposRead .kweave) (on [] (fun d => { d with zlk := { d.zlk with rpos := 0x123456789AB } })) :=
  ⟨(by refine runs (((h _ ?_).1 false ?_ ?_ ?_).1 ?_ ?_) <;> decide +kernel),
   (by refine runs (((h _ ?_).1 true ?_ ?_ ?_).2 ?_) <;> decide +kernel),
   runs ((h _ (by decide +kernel)).2.1 (by decide +kernel) (by decide +kernel)),
   (by refine runs ((h _ ?_).2.2.1 ?_ ?_ ?_ ?_) <;> decide +kernel),
   (by refine runs ((h _ ?_).2.2.1 ?_ ?_ ?_ ?_) <;> decide +kernel),
   (by refine runs ((h _ ?_).2.2.2.1 .direct (word [(ZLK_CTRL_EN, 1), (ZLK_CTRL_START, 1), (ZLK_CTRL_TRACK, 1)]) (accepts ?_) ?_ ?_ ?_) <;> decide +kernel),
   runs ((h _ (by decide +kernel)).2.2.2.2 .kweave (serves (by decide +kernel)))⟩

theorem test_meets_PixelWords (h : Obligations.PixelWords) :
    Runs (.pixelWord 20 4 ↑9 { p := 1500000, n := 0, ref := 1000000 } { p := 1, n := 2, ref := 3 } 3) (on ([(AFE_CH_EN, 20,
      1), (AFE_HNPIX_NPIX, 5, 32)] ++ [(CNV_SOFS_OFS, 21, 5)]) (fun d => ((d.setAnx (fun a =>
      { a with released := true })).setWork 5 [⟨⟨4, 999000000, 0, false, none, d.regs⟩, [], [], [], none, [], [], [], [],
      false, false, true⟩]))) ∧
    Runs (.pixelWord 20 4 ↑9 { p := 1500000, n := 1400000, ref := 1000000 } { p := 1200000, n := 1300000, ref := 3 } (-2))
      (on ([(AFE_CH_EN, 20, 1), (AFE_HNPIX_NPIX, 5, 32)] ++ [(AFE_CH_SAMP, 20, 1), (AFE_CH_INMODE, 20, 1), (AFE_CH_POL, 20,
      1), (PCU_WIN_LEN, 20, 10), (AFE_CH_TRIMEN, 20, 1), (AFE_CLP_VAL, 20, 1000), (AFE_CLPTGT_TGT, 20, 500)]) (fun d =>
      ((d.setAnx (fun a => { a with released := true })).setWork 5 [⟨⟨4, 999000000, 0, false, none, d.regs⟩, [(pixKey 20 9,
      0x80123)], [(pixKey 20 9, 250)], [], none, [], [], [], [], false, false, true⟩]))) ∧
    Runs (.pixelWord 20 4 ↑9 { p := 2700001, n := 0, ref := 0 } { p := 1, n := 2, ref := 3 } 0) (on ([(AFE_CH_EN, 20, 1),
      (AFE_HNPIX_NPIX, 5, 32)] ++ [(PCU_HCFG_BYPASS, 5, 1), (AFE_OVRCNT_PIX, 20, 7)]) (fun d => ((d.setAnx (fun a =>
      { a with released := true })).setWork 5 [⟨⟨4, 999000000, 0, false, none, d.regs⟩, [], [], [], none, [], [], [], [],
      false, false, true⟩]))) :=
  ⟨(by refine runs (h.2 _ 20 4 9 ⟨1500000, 0, 1000000⟩ ⟨1, 2, 3⟩ 3 ⟨⟨4, 999000000, 0, false, none, (on ([(AFE_CH_EN, 20, 1), (AFE_HNPIX_NPIX, 5, 32)] ++ [(CNV_SOFS_OFS, 21, 5)]) (fun d => ((d.setAnx (fun a => { a with released := true })).setWork 5 [⟨⟨4, 999000000, 0, false, none, d.regs⟩, [], [], [], none, [], [], [], [], false, false, true⟩]))).dev.regs⟩, [], [], [], none, [], [], [], [], false, false, true⟩ ?_ ?_ ?_ ?_ ?_ ?_ ?_ ?_ ?_ ?_ ?_ ?_ ?_ ?_ ?_) <;> decide +kernel),
   (by refine runs (h.2 _ 20 4 9 ⟨1500000, 1400000, 1000000⟩ ⟨1200000, 1300000, 3⟩ (-2) ⟨⟨4, 999000000, 0, false, none, (on ([(AFE_CH_EN, 20, 1), (AFE_HNPIX_NPIX, 5, 32)] ++ [(AFE_CH_SAMP, 20, 1), (AFE_CH_INMODE, 20, 1), (AFE_CH_POL, 20, 1), (PCU_WIN_LEN, 20, 10), (AFE_CH_TRIMEN, 20, 1), (AFE_CLP_VAL, 20, 1000), (AFE_CLPTGT_TGT, 20, 500)]) (fun d => ((d.setAnx (fun a => { a with released := true })).setWork 5 [⟨⟨4, 999000000, 0, false, none, d.regs⟩, [(pixKey 20 9, 0x80123)], [(pixKey 20 9, 250)], [], none, [], [], [], [], false, false, true⟩]))).dev.regs⟩, [(pixKey 20 9, 0x80123)], [(pixKey 20 9, 250)], [], none, [], [], [], [], false, false, true⟩ ?_ ?_ ?_ ?_ ?_ ?_ ?_ ?_ ?_ ?_ ?_ ?_ ?_ ?_ ?_) <;> decide +kernel),
   (by refine runs (h.2 _ 20 4 9 ⟨2700001, 0, 0⟩ ⟨1, 2, 3⟩ 0 ⟨⟨4, 999000000, 0, false, none, (on ([(AFE_CH_EN, 20, 1), (AFE_HNPIX_NPIX, 5, 32)] ++ [(PCU_HCFG_BYPASS, 5, 1), (AFE_OVRCNT_PIX, 20, 7)]) (fun d => ((d.setAnx (fun a => { a with released := true })).setWork 5 [⟨⟨4, 999000000, 0, false, none, d.regs⟩, [], [], [], none, [], [], [], [], false, false, true⟩]))).dev.regs⟩, [], [], [], none, [], [], [], [], false, false, true⟩ ?_ ?_ ?_ ?_ ?_ ?_ ?_ ?_ ?_ ?_ ?_ ?_ ?_ ?_ ?_) <;> decide +kernel)⟩

theorem test_meets_ScanAndStatistics (h : Obligations.ScanAndStatistics) :
    Runs (.afeScanStart .direct (word [(AFE_SCANCTRL_START, 1), (AFE_SCANCTRL_CH, 20)])) (on [(AFE_CH_EN, 20, 1)] id) ∧
    Runs (.afeScanStop .direct (word [(AFE_SCANCTRL_STOP, 1), (AFE_SCANCTRL_CH, 20)])) (on [(AFE_CH_EN, 20, 1),
      (AFE_SCANCTRL_BUSY, 0, 1), (AFE_SCANCTRL_CH, 0, 20)] id) ∧
    Runs (.afeScandataRead .direct) (on [(AFE_SCANCTRL_BUSY, 0, 1)] id) ∧
    Runs (.afeScandataRead .direct) (on [] (fun d => d.setPcu (fun p => { p with scan := ⟨[(63, 777)], 63, 0⟩ }))) ∧
    Runs (.statsLatchRead .kweave 23) (on [] (fun d => d.setPcu (fun p =>
      { p with stats := [(23, ⟨9, 1, 2, 3, 4, [(5, 6)]⟩)] }))) ∧
    Runs (.histogramLatch .direct (word [(PCU_HSEL_HEAD, 23), (PCU_HSEL_BIN, 254), (PCU_HSEL_LATCH, 1)])) (on [] (fun d =>
      d.setPcu (fun p => { p with stats := [(23, ⟨9, 1, 2, 3, 4, [(5, 6)]⟩)] }))) ∧
    Runs (.histogramRead .direct) (on [(PCU_HSEL_BIN, 0, 255)] (fun d => d.setPcu (fun p =>
      { p with hbuf := [(254, 11), (255, 12)] }))) ∧
    Runs (.lineWriterEnable .direct 5 (word [(PCU_LWCTRL_EN, 1), (PCU_LWCTRL_DEPTH, 16)])) (on [(AFE_CH_EN, 20, 1)] id) :=
  ⟨runs ((h.1 _ .direct (word [(AFE_SCANCTRL_START, 1), (AFE_SCANCTRL_CH, 20)])).1 (accepts (by decide +kernel))
    (by decide +kernel) (by decide +kernel)),
   (by refine runs ((h.1 _ .direct (word [(AFE_SCANCTRL_STOP, 1), (AFE_SCANCTRL_CH, 20)])).2.1 (accepts ?_) ?_ ?_ ?_) <;> decide +kernel),
   runs (((h.1 _ .direct 0).2.2 (serves (by decide +kernel))).1 (by decide +kernel)),
   runs (((h.1 _ .direct 0).2.2 (serves (by decide +kernel))).2 (by decide +kernel)),
   runs ((h.2 _ .kweave 23 0 (by decide +kernel)).1 (serves (by decide +kernel))),
   runs ((h.2 _ .direct 0 (word [(PCU_HSEL_HEAD, 23), (PCU_HSEL_BIN, 254), (PCU_HSEL_LATCH, 1)]) (by decide +kernel)).2.1
    (accepts (by decide +kernel)) (by decide +kernel)),
   runs ((h.2 _ .direct 0 0 (by decide +kernel)).2.2.1 (serves (by decide +kernel))),
   (by refine runs ((h.2 _ .direct 5 (word [(PCU_LWCTRL_EN, 1), (PCU_LWCTRL_DEPTH, 16)]) ?_).2.2.2 (accepts ?_) ?_ ?_) <;> decide +kernel)⟩

theorem test_meets_CoefficientTables (h : Obligations.CoefficientTables) :
    Runs (.tableTargetWrite .direct true 98303 305419896#32) (on [] id) ∧
    Runs (.tableTargetWrite .kweave false 98300 305419896#32) (on [] id) ∧
    Runs (.tableTargetWrite .direct true 3 4) (on [(AFE_CH_EN, 0, 1), (LTG_CTRL_ARM, 0, 1), (PCU_WIN_LEN, 0, 8)] (fun d =>
      d.setPcu (fun p =>
      { p with tables := { p.tables with fetch := [(0, [⟨4, 2, 0, 8, false, 999000000, 0, 1000000⟩])] } }))) ∧
    Runs (.tableWriteResume 7) (on [] (fun d => d.setPcu (fun p =>
      { p with tables := { p.tables with waiting := [⟨true, 98303, none, 0, 55, false⟩] } }))) ∧
    Runs (.tsyncCopy .direct 8388608#32) (on [(PCU_WIN_LEN, 92, 8)] id) ∧
    Runs (.tsyncCopyDone 23 []) (on [(PCU_TSYNC_HEADS, 0, 0x800000)] (fun d => d.setPcu (fun p =>
      { p with tables := { p.tables with pctT := [(86016 + 3, 99)], tsync := [(23, some ⟨[(2, 4)], 0, 999000000⟩)] } }))) ∧
    Runs (.tableEntryFetch 60 TableEcc.clean) (on [] (fun d => (d.setPcu (fun p =>
      { p with tables := { p.tables with pctT := [(61440 + 7, 99)], pttT := [(61440 + 7, 5)], fetch := [(60, [⟨4, 2, 5, 100, false, 999000000, 0, 1000000⟩])] } })).setWork
      15 [⟨⟨4, 999000000, 0, false, none, d.regs⟩, [], [], [], none, [], [], [], [], false, false, true⟩])) ∧
    Runs (.tableEntryFetch 60 TableEcc.clean) (on [] (fun d => (d.setPcu (fun p =>
      { p with tables := { p.tables with pctT := [(61440 + 7, 99)], pttT := [(61440 + 7, 5)], fetch := [(60, [⟨4, 2, 5, 100, true, 999000000, 0, 1000000⟩])] } })).setWork
      15 [⟨⟨4, 999000000, 0, false, none, d.regs⟩, [], [], [], none, [], [], [], [], false, false, true⟩])) ∧
    Runs (.tableEntryFetch 60 { pctLive := .double, pctTarget := .clean, pttLive := .double, pttTarget := .clean }) (on []
      (fun d => (d.setPcu (fun p =>
      { p with tables := { p.tables with pctT := [(61440 + 7, 99)], pttT := [(61440 + 7, 5)], fetch := [(60, [⟨4, 2, 5, 100, false, 999000000, 0, 1000000⟩])] } })).setWork
      15 [⟨⟨4, 999000000, 0, false, none, d.regs⟩, [], [], [], none, [], [], [], [], false, false, true⟩])) ∧
    Runs (.tableEntryFetch 60 { pctLive := .clean, pctTarget := .double, pttLive := .clean, pttTarget := .clean }) (on []
      (fun d => (d.setPcu (fun p =>
      { p with tables := { p.tables with pctT := [(61440 + 7, 99)], pttT := [(61440 + 7, 5)], fetch := [(60, [⟨4, 2, 5, 100, false, 999000000, 0, 1000000⟩])] } })).setWork
      15 [⟨⟨4, 999000000, 0, false, none, d.regs⟩, [], [], [], none, [], [], [], [], false, false, true⟩])) ∧
    Runs (.tableTargetWrite .direct true 3 3) (on [] id) ∧
    Runs (.tsyncCopyDone 23 []) (on [(PCU_TSYNC_HEADS, 0, 0x800000)] (fun d => d.setPcu (fun p =>
      { p with tables := { p.tables with pctT := [(86016 + 3, 99)], tsync := [(23, some ⟨[(2, 4)], 0, 999999999⟩)] } }))) :=
  ⟨(by refine runs ((((h.2.1 _ ?_).1 .direct true 98303 0x12345678#32 (takes ?_) ?_ ?_ ?_ ?_).1 ?_ ?_ ?_)) <;> decide +kernel),
   (by refine runs ((((h.2.1 _ ?_).1 .kweave false 98300 0x12345678#32 (takes ?_) ?_ ?_ ?_ ?_).2.1 ?_ ?_)) <;> decide +kernel),
   (by refine runs ((((h.2.1 _ ?_).1 .direct true 3 4 (takes ?_) ?_ ?_ ?_ ?_).2.2.1 0 4 ?_ ?_ ?_)) <;> decide +kernel),
   (by refine runs ((h.2.1 _ ?_).2.1 7 ⟨true, 98303, none, 0, 55, false⟩ ?_ ?_ rfl ?_ ?_ ?_ ?_) <;> decide +kernel),
   (by refine runs ((h.2.1 _ ?_).2.2 .direct 0x00800000#32 23 ?_ (accepts ?_) ?_ ?_ ?_) <;> decide +kernel),
   (by refine runs (((h.2.2 _ 23 ⟨[(2, 4)], 0, 999000000⟩ ?_ ?_ ?_).2 ?_ ?_)) <;> decide +kernel),
   (by refine runs ((h.1 _ 60 ⟨4, 2, 5, 100, false, 999000000, 0, 1000000⟩ ?_ ?_ ?_ ?_ ?_ ?_ ?_ ?_).1) <;> decide +kernel),
   (by refine runs ((h.1 _ 60 ⟨4, 2, 5, 100, true, 999000000, 0, 1000000⟩ ?_ ?_ ?_ ?_ ?_ ?_ ?_ ?_).1) <;> decide +kernel),
   (by refine runs ((h.1 _ 60 ⟨4, 2, 5, 100, false, 999000000, 0, 1000000⟩ ?_ ?_ ?_ ?_ ?_ ?_ ?_ ?_).2.1 ?_) <;> decide +kernel),
   (by refine runs ((h.1 _ 60 ⟨4, 2, 5, 100, false, 999000000, 0, 1000000⟩ ?_ ?_ ?_ ?_ ?_ ?_ ?_ ?_).2.2 ?_) <;> decide +kernel),
   (by refine runs ((((h.2.1 _ ?_).1 .direct true 3 3 (takes ?_) ?_ ?_ ?_ ?_).2.2.2 ?_ ?_ ?_ ?_)) <;> decide +kernel),
   (by refine ⟨_, ((h.2.2 _ 23 ⟨[(2, 4)], 0, 999999999⟩ ?_ ?_ ?_).1 ?_)⟩ <;> decide +kernel)⟩

theorem test_meets_MittenRotation (h : Obligations.MittenRotation) :
    Runs (.mittenLineResult 7 2 24 128 5) (still [(CNV_MIT_STATE, 7, 1), (CNV_MIT_SLICE, 7, 3), (CNV_MITCNT_PASS, 7, 7)] id) ∧
    Runs (.mittenLineResult 7 3 24 128 5) (still [(CNV_MIT_STATE, 7, 3), (CNV_MIT_SLICE, 7, 3), (CNV_MITCNT_PASS, 7, 7)] id) ∧
    Runs (.mittenMaxlnExpiry 7) (still [(CNV_MIT_STATE, 7, 1), (CNV_MIT_SLICE, 7, 3), (CNV_MIT_LINES, 7, 4096)] id) ∧
    Runs (.sliceRefCalDone 7 true 1 2 3 4 5) (still [(CNV_MIT_STATE, 7, 2), (CNV_MIT_SLICE, 7, 3)] id) ∧
    Runs (.sliceRefCalDone 7 false 1 2 3 4 5) (still [(CNV_MIT_STATE, 7, 2), (CNV_MIT_SLICE, 7, 3), (CAL_STORECFG_AUTO, 0,
      0)] id) ∧
    Runs (.mittenIdleHandover 7 2 24 128) (still [(CNV_MIT_STATE, 7, 1), (CNV_MIT_SLICE, 7, 3)] id) :=
  ⟨runs ((h _ 7 (by decide +kernel) (by unfold Dev.calIdle; decide +kernel) (by decide +kernel)).1 2 24 128 5 (.inl
    (by decide +kernel))),
   runs ((h _ 7 (by decide +kernel) (by unfold Dev.calIdle; decide +kernel) (by decide +kernel)).1 3 24 128 5 (.inr
    (by decide +kernel))),
   (by refine runs ((h _ 7 ?_ (by unfold Dev.calIdle; decide +kernel) ?_).2.1 ?_ ?_ ?_) <;> decide +kernel),
   runs (((h _ 7 (by decide +kernel) (by unfold Dev.calIdle; decide +kernel) (by decide +kernel)).2.2.1 1 2 3 4 5
    (by decide +kernel)).1),
   (by refine runs (((h _ 7 ?_ (by unfold Dev.calIdle; decide +kernel) ?_).2.2.1 1 2 3 4 5 ?_).2 ?_) <;> decide +kernel),
   (by refine runs ((h _ 7 ?_ (by unfold Dev.calIdle; decide +kernel) ?_).2.2.2 2 24 128 ?_ ?_ ?_) <;> decide +kernel)⟩

theorem test_meets_CalibrationPolls (h : Obligations.CalibrationPolls) :
    Runs (.afeCalStep 23) (still [] (fun d => d.setCal (fun c => { c with items := [⟨2, 23, false, 0, 63, none⟩] }))) ∧
    Runs (.calTempPoll) (on [(CAL_CTRL_TRIG, 0, 1), (CAL_CTRL_SUSPEND, 0, 1)] (fun d => d.setCal (fun c =>
      { c with lastTemps := [(0, [50, 60])] }))) ∧
    Runs (.calContextCheck) (still [] (fun d => d.setCal (fun c => { c with parts := [(3, ⟨1, 0, 0, .reset⟩)] }))) ∧
    Runs (.calStoreDone true) (still [] (fun d => d.setCal (fun c =>
      { c with store := some ⟨0x00FC0000, 7, { StorePair.reset with seq := 9 }, [], false⟩ }))) ∧
    Runs (.calStoreDone false) (still [] (fun d => d.setCal (fun c =>
      { c with store := some ⟨0x00FC0000, 7, { StorePair.reset with seq := 9 }, [], true⟩ }))) ∧
    Runs (.calStoreInterval) (still [(CAL_STORECFG_AUTO, 0, 1)] (fun d =>
      { d with now := 600000000000000, cal := { d.cal with changed := true } })) :=
  ⟨(by refine runs (((h.1 _ (by unfold Dev.calIdle; decide +kernel) ?_).1 23 ⟨2, 23, false, 0, 63, none⟩ ?_ ?_ ?_ ?_ ?_).1 (.inl ⟨?_, ?_⟩)) <;> decide +kernel),
   runs ((h.1 _ (by unfold Dev.calIdle; decide +kernel) (by decide +kernel)).2.1 (by decide +kernel)),
   runs ((h.1 _ (by unfold Dev.calIdle; decide +kernel) (by decide +kernel)).2.2),
   runs (((h.2 _ (by unfold Dev.calIdle; decide +kernel)).1 ((still [] (fun d => d.setCal (fun c =>
    { c with store := some ⟨0x00FC0000, 7, { StorePair.reset with seq := 9 }, [], false⟩ }))).dev.cal.store.getD ⟨0, 0,
    .reset, [], false⟩) (by decide +kernel) (by decide +kernel)).1 (by decide +kernel)),
   runs (((h.2 _ (by unfold Dev.calIdle; decide +kernel)).1 ((still [] (fun d => d.setCal (fun c =>
    { c with store := some ⟨0x00FC0000, 7, { StorePair.reset with seq := 9 }, [], true⟩ }))).dev.cal.store.getD ⟨0, 0,
    .reset, [], false⟩) (by decide +kernel) (by decide +kernel)).2 (by decide +kernel)),
   (by refine runs ((h.2 _ (by unfold Dev.calIdle; decide +kernel)).2 0 ?_ ?_ ?_ ?_ ?_ ?_) <;> decide +kernel)⟩

theorem test_meets_Learning (h : Obligations.Learning) :
    Runs (.learnMeasureStart 23) (still [(AFE_CH_EN, 92, 1)] (fun d => d.setCal (fun c =>
      { c with learns := [⟨23, 4, 0, 0, [], [], [], [], 0, 16, [], [], [], [], 0⟩] }))) ∧
    Runs (.learnMeasureDone 23) (still [(AFE_CH_EN, 92, 1), (PCU_WIN_LEN, 92, 2), (AFE_HNPIX_NPIX, 23, 16)] (fun d =>
      d.setCal (fun c => { c with learns := [⟨23, 4, 1, 0, [], [], [], [], 0, 16, [], [], [], [], 0⟩] }))) ∧
    Runs (.learnMeasureDone 23) (still [(AFE_CH_EN, 92, 1), (PCU_WIN_LEN, 92, 1), (AFE_HNPIX_NPIX, 23, 16)] (fun d =>
      d.setCal (fun c =>
      { c with learns := [⟨23, 4, 1, 0, [(pixKey 92 0, 640000)], [(pixKey 92 0, 16)], [], [(pixKey 92 0, 160000)], 0, 16, [], [], [], [], 0⟩] }))) ∧
    Runs (.learnMeasureDone 23) (still [(AFE_CH_EN, 92, 1), (PCU_WIN_LEN, 92, 1), (AFE_HNPIX_NPIX, 23, 16)] (fun d =>
      d.setCal (fun c =>
      { c with learns := [⟨23, 3, 1, 0, [(pixKey 92 0, 1600)], [(pixKey 92 0, 16)], [], [], 0, 16, [], [], [], [], 0⟩] }))) ∧
    Runs (.learnMeasureDone 23) (still [(AFE_CH_EN, 92, 1), (PCU_WIN_LEN, 92, 1), (AFE_HNPIX_NPIX, 23, 16)] (fun d =>
      d.setCal (fun c =>
      { c with learns := [⟨23, 3, 1, 0, [(pixKey 92 0, 160000)], [(pixKey 92 0, 16)], [], [], 0, 16, [], [], [], [], 0⟩] }))) ∧
    Runs (.learnNoLinesTimeout 23) (still [(AFE_CH_EN, 92, 1)] (fun d => d.setCal (fun c =>
      { c with learns := [⟨23, 3, 1, 5, [], [], [], [], 0, 16, [], [], [], [], 0⟩] }))) :=
  ⟨(by refine runs ((h _ 23 ⟨23, 4, 0, 0, [], [], [], [], 0, 16, [], [], [], [], 0⟩ ?_ (by unfold Dev.calIdle; decide +kernel) ?_).1 ?_ ?_) <;> decide +kernel),
   (by refine runs (((h _ 23 ⟨23, 4, 1, 0, [], [], [], [], 0, 16, [], [], [], [], 0⟩ ?_ (by unfold Dev.calIdle; decide +kernel) ?_).2.1 ?_ ?_ ?_ ?_).2 4 0 0 ?_ ?_) <;> decide +kernel),
   (by refine runs (((h _ 23 ⟨23, 4, 1, 0, [(pixKey 92 0, 640000)], [(pixKey 92 0, 16)], [], [(pixKey 92 0, 160000)], 0, 16, [], [], [], [], 0⟩ ?_ (by unfold Dev.calIdle; decide +kernel) ?_).2.1 ?_ ?_ ?_ ?_).1 0 ?_) <;> decide +kernel),
   (by refine runs (((h _ 23 ⟨23, 3, 1, 0, [(pixKey 92 0, 1600)], [(pixKey 92 0, 16)], [], [], 0, 16, [], [], [], [], 0⟩ ?_ (by unfold Dev.calIdle; decide +kernel) ?_).2.2.1 ?_ ?_ ?_ ?_).1 ?_) <;> decide +kernel),
   (by refine runs (((h _ 23 ⟨23, 3, 1, 0, [(pixKey 92 0, 160000)], [(pixKey 92 0, 16)], [], [], 0, 16, [], [], [], [], 0⟩ ?_ (by unfold Dev.calIdle; decide +kernel) ?_).2.2.1 ?_ ?_ ?_ ?_).2 1 9488 ?_ ?_) <;> decide +kernel),
   (by refine runs ((h _ 23 ⟨23, 3, 1, 5, [], [], [], [], 0, 16, [], [], [], [], 0⟩ ?_ (by unfold Dev.calIdle; decide +kernel) ?_).2.2.2 (.inl ?_) ?_) <;> decide +kernel)⟩

theorem test_meets_CalibrationItems (h : Obligations.CalibrationItems) :
    Runs (.calItemComplete 0 0 (.ladder 100000 (List.map (fun k => 1000 * k) (List.range 16)))) (still [] (fun d => d.setCal
      (fun c => { c with items := [⟨0, 0, false, 0, 0, none⟩] }))) ∧
    Runs (.calItemComplete 0 0 (.ladder 110000 (List.map (fun k => 1000 * k) (List.range 16)))) (still [] (fun d => d.setCal
      (fun c => { c with ladder := [5], items := [⟨0, 0, false, 0, 0, none⟩] }))) ∧
    Runs (.calItemComplete 1 103 (.slice true (-5) 6 7 8 9)) (still [] (fun d => d.setCal (fun c =>
      { c with items := [⟨1, 103, false, 1, 0, none⟩] }))) ∧
    Runs (.calItemComplete 2 23 (.afe [(1, 2), (3, 4), (5, 6), (7, 8)] [5, 6, 7, 8] [7, 8, 9, 10])) (still [] (fun d =>
      d.setCal (fun c => { c with items := [⟨2, 23, false, 0, 64, none⟩] }))) ∧
    Runs (.calItemComplete 5 47 (.offset (-3))) (still [] (fun d => d.setCal (fun c =>
      { c with items := [⟨5, 47, false, 0, 0, none⟩] }))) ∧
    Runs (.calItemComplete 7 31 (.offset (-3))) (still [] (fun d => d.setCal (fun c =>
      { c with items := [⟨7, 31, false, 0, 0, none⟩] }))) ∧
    Runs (.calItemComplete 6 1 (.coef (-3) 9)) (still [(MCV_STAT_CALBUSY, 1, 1)] (fun d => d.setCal (fun c =>
      { c with items := [⟨6, 1, false, 0, 0, none⟩] }))) :=
  ⟨runs (((h _ (by unfold Dev.calIdle; decide +kernel)).1 100000 ((List.range 16).map (fun k => 1000 * k))
    (by decide +kernel)).1 (by decide +kernel) (by decide +kernel)),
   runs (((h _ (by unfold Dev.calIdle; decide +kernel)).1 110000 ((List.range 16).map (fun k => 1000 * k))
    (by decide +kernel)).2 (.inr (by decide +kernel)) (by decide +kernel)),
   runs ((h _ (by unfold Dev.calIdle; decide +kernel)).2.1 103 ⟨1, 103, false, 1, 0, none⟩ (-5) 6 7 8 9 (by decide +kernel)
    (by decide +kernel) (by decide +kernel)),
   runs ((h _ (by unfold Dev.calIdle; decide +kernel)).2.2.1 23 ⟨2, 23, false, 0, 64, none⟩ [(1, 2), (3, 4), (5, 6), (7, 8)]
    [5, 6, 7, 8] [7, 8, 9, 10] (by decide +kernel) (by decide +kernel) (by decide +kernel)),
   runs ((h _ (by unfold Dev.calIdle; decide +kernel)).2.2.2.1 47 (-3) (by decide +kernel) (by decide +kernel)),
   runs ((h _ (by unfold Dev.calIdle; decide +kernel)).2.2.2.2.2 31 (-3) (by decide +kernel) (by decide +kernel)),
   runs ((h _ (by unfold Dev.calIdle; decide +kernel)).2.2.2.2.1 1 (-3) 9 (by decide +kernel) (by decide +kernel)
    (by decide +kernel))⟩

theorem test_meets_AnalogueBusAndCells (h : Obligations.AnalogueBusAndCells) :
    Runs (.aswSelectorWrite .direct .ax 31 (word [(ASW_AX_BUS, 63), (ASW_AX_DIR, 1)])) (cfgd [] id) ∧
    Runs (.aswSelectorWrite .direct .cell 31 (word [(CAC_SEL_PBUS, 63), (CAC_SEL_NBUS, 127), (CAC_SEL_OBUS, 5)])) (cfgd []
      id) ∧
    Runs (.aswSelectorWrite .direct .tap 31 (word [(ASW_MTAP_BUS, 63)])) (cfgd [] id) ∧
    Runs (.aswSelectorWrite .direct .comparator 47 (word [(CMP_CFG_INP, 71), (CMP_CFG_INN, 127)])) (cfgd [] id) ∧
    Runs (.abusTrip 63) (cfgd [(ASW_TRIP0_BUS, 0, 1)] id) ∧
    Runs (.abusRelease .direct true 2147483648#32) (cfgd [(ASW_TRIP1_BUS, 0, 0x80000001)] id) ∧
    Runs (.cacConfigWrite .direct false 31 (word [(CAC_CFG_FUNC, 1)])) (cfgd [] id) ∧
    Runs (.cacConfigWrite .direct true 31 (word [(CAC_NET_RA, 5), (CAC_NET_RB, 63), (CAC_NET_CA, 31), (CAC_NET_CB, 31)]))
      (cfgd [] id) ∧
    Runs (.cacSettled 31 true false) (cfgd [(CAC_CFG_FUNC, 31, 5)] (fun d => d.setAnx (fun a =>
      { a with cacOpen := [(31, 1000000000)] }))) ∧
    Runs (.cacReset .direct 31 (word [(CAC_CFG_FUNC, 5), (CAC_CFG_RST, 1)])) (cfgd [(CAC_CFG_FUNC, 31, 5), (CAC_NET_RA, 31,
      5), (CAC_NET_CA, 31, 5), (CAC_NET_CB, 31, 5)] id) ∧
    Runs (.cacResetEnd 31) (cfgd [(CAC_CFG_FUNC, 31, 5)] (fun d => d.setAnx (fun a =>
      { a with cacRst := [(31, 1000000000)] }))) :=
  ⟨runs ((h.1 _ .direct 31 (word [(ASW_AX_BUS, 63), (ASW_AX_DIR, 1)])).1 (by decide +kernel) (accepts (by decide +kernel))),
   runs ((h.1 _ .direct 31 (word [(CAC_SEL_PBUS, 63), (CAC_SEL_NBUS, 127), (CAC_SEL_OBUS, 5)])).2.1 (by decide +kernel)
    (accepts (by decide +kernel))),
   runs ((h.1 _ .direct 31 (word [(ASW_MTAP_BUS, 63)])).2.2.1 (by decide +kernel) (accepts (by decide +kernel))),
   runs ((h.1 _ .direct 47 (word [(CMP_CFG_INP, 71), (CMP_CFG_INN, 127)])).2.2.2.1 (by decide +kernel) (accepts
    (by decide +kernel)) (by decide +kernel)),
   runs ((h.1 _ .direct 0 0).2.2.2.2.1 63 (by decide +kernel) (by decide +kernel) (by decide +kernel)),
   runs ((h.1 _ .direct 0 0x80000000#32).2.2.2.2.2 true (accepts (by decide +kernel))),
   (by refine runs (((h.2 _ .direct 31 (word [(CAC_CFG_FUNC, 1)]) ?_).1 1000000000 ?_ ?_ ?_).1 (accepts ?_) ?_) <;> decide +kernel),
   (by refine runs (((h.2 _ .direct 31 (word [(CAC_NET_RA, 5), (CAC_NET_RB, 63), (CAC_NET_CA, 31), (CAC_NET_CB, 31)]) ?_).1 1000000000 ?_ ?_ ?_).2 (accepts ?_)) <;> decide +kernel),
   (by refine runs ((h.2 _ .direct 31 0 ?_).2.1 true false ?_ ?_ ?_) <;> decide +kernel),
   (by refine runs ((h.2 _ .direct 31 (word [(CAC_CFG_FUNC, 5), (CAC_CFG_RST, 1)]) ?_).2.2.1 (accepts ?_) ?_ (.inl ?_)) <;> decide +kernel),
   (by refine runs ((h.2 _ .direct 31 0 ?_).2.2.2 ?_ ?_ ?_) <;> decide +kernel)⟩

theorem test_meets_Comparators (h : Obligations.Comparators) :
    Runs (.cmpDecision 47 9000000 0) (cfgd [(CMP_CFG_EN, 47, 1), (CMP_CFG_INP, 47, 3)] (fun d => (d.setAnx (fun a =>
      { a with released := true })).setCmp 47 { d.getCmp 47 with phase := 2 ^ 32 - 1, since := 999999999 })) ∧
    Runs (.cmpDecision 47 9000000 0) (cfgd [(CMP_CFG_EN, 47, 1), (CMP_CFG_INP, 47, 3), (CMP_STAT_SETTLED, 47, 1),
      (CMP_FILT_CLASS, 47, 0)] (fun d => (d.setAnx (fun a => { a with released := true })).setCmp 47
      { d.getCmp 47 with phase := 2 ^ 32 - 1, since := 999999999 })) ∧
    Runs (.cmpStart .direct 47 (word [(CMP_CFG_EN, 1), (CMP_CFG_STARTLVL, 1), (CMP_CFG_INP, 127), (CMP_CFG_INN, 127)])) (cfgd
      [] id) ∧
    Runs (.cmpClear .direct 47 (word [(CMP_STAT_CLR, 1)])) (cfgd [(CMP_CFG_EN, 47, 1), (CMP_CFG_LMODE, 47, 1), (CMP_STAT_OUT,
      47, 1)] id) ∧
    Runs (.cmpWakeTick 47 9000000 0) (cfgd [(CMP_CFG_EN, 47, 1), (CMP_CFG_INP, 47, 3), (CMP_CFG_WAKE, 47, 1),
      (PWR_WAKECFG_CMP, 0, 1)] (fun d => (d.setAnx (fun a => { a with sleepAt := 999900000 })).setPwr (fun p =>
      { p with st := .sleep }))) :=
  ⟨(by refine runs (((h _ .direct 47 0 ?_).1 9000000 0 true ?_ ?_ ?_ ?_ ?_ ?_ ?_ ?_).1 ?_ ?_) <;> decide +kernel),
   (by refine runs (((h _ .direct 47 0 ?_).1 9000000 0 true ?_ ?_ ?_ ?_ ?_ ?_ ?_ ?_).2 ?_ ?_ ?_ ?_ ?_ ?_) <;> decide +kernel),
   (by refine runs ((h _ .direct 47 (word [(CMP_CFG_EN, 1), (CMP_CFG_STARTLVL, 1), (CMP_CFG_INP, 127), (CMP_CFG_INN, 127)]) ?_).2.1 (accepts ?_) ?_ ?_) <;> decide +kernel),
   (by refine runs ((h _ .direct 47 (word [(CMP_STAT_CLR, 1)]) ?_).2.2.1 (accepts ?_) ?_ ?_ ?_) <;> decide +kernel),
   (by refine runs ((h _ .direct 47 0 ?_).2.2.2 9000000 0 ?_ ?_ ?_ ?_ ?_ ?_ ?_ ?_ ?_ ?_ ?_) <;> decide +kernel)⟩

theorem test_meets_ConverterTriggers (h : Obligations.ConverterTriggers) :
    Runs (.mcvRegularTrigger 1) (cfgd [(MCV_CTRL_EN, 1, 1), (MCV_MASK0_MASK, 1, 6), (MCV_INJ_EN 3, 1, 1)] (fun d => d.setMcv
      1 { d.getMcv 1 with trigs := [⟨999999000, 999999001, true⟩] })) ∧
    Runs (.mcvInjectedTrigger 1) (cfgd [(MCV_CTRL_IEN, 1, 1), (MCV_MASK0_MASK, 1, 6), (MCV_INJ_EN 3, 1, 1)] (fun d =>
      d.setMcv 1 { d.getMcv 1 with itrigs := [⟨999999000, 999999001, true⟩] })) ∧
    Runs (.mcvGo .direct 1 (word [(MCV_CTRL_EN, 1), (MCV_CTRL_GO, 1)])) (cfgd [(MCV_CTRL_EN, 1, 1), (MCV_MASK0_MASK, 1, 6),
      (MCV_INJ_EN 3, 1, 1)] id) ∧
    Runs (.mcvIgo .direct 1 (word [(MCV_CTRL_IEN, 1), (MCV_CTRL_IGO, 1)])) (cfgd [(MCV_CTRL_IEN, 1, 1), (MCV_MASK0_MASK, 1,
      6), (MCV_INJ_EN 3, 1, 1)] id) ∧
    Runs (.mcvEnable .direct 1 (word [(MCV_CTRL_EN, 1)])) (cfgd [(MCV_TRIG_SRC, 1, 4), (MCV_MASK0_MASK, 1, 6), (MCV_INJ_EN 3,
      1, 1)] id) :=
  ⟨(by refine runs ((h _ .direct 1 0 ?_ ?_ ?_ ?_ ?_).1 ?_ ?_ ⟨999999000, 999999001, true⟩ [] ?_) <;> decide +kernel),
   (by refine runs ((h _ .direct 1 0 ?_ ?_ ?_ ?_ ?_).2.1 ?_ ?_ ⟨999999000, 999999001, true⟩ [] ?_) <;> decide +kernel),
   (by refine runs ((h _ .direct 1 (word [(MCV_CTRL_EN, 1), (MCV_CTRL_GO, 1)]) ?_ ?_ ?_ ?_ ?_).2.2.1 (accepts ?_) ?_ ?_ ?_ ?_ ?_) <;> decide +kernel),
   (by refine runs ((h _ .direct 1 (word [(MCV_CTRL_IEN, 1), (MCV_CTRL_IGO, 1)]) ?_ ?_ ?_ ?_ ?_).2.2.2.1 (accepts ?_) ?_ ?_ ?_ ?_ ?_) <;> decide +kernel),
   (by refine runs ((h _ .direct 1 (word [(MCV_CTRL_EN, 1)]) ?_ ?_ ?_ ?_ ?_).2.2.2.2 (accepts ?_) ?_ ?_ ?_ ?_ ?_ ?_) <;> decide +kernel)⟩

theorem test_meets_ConverterEvents (h : Obligations.ConverterEvents) :
    Runs (.mcvDelayExpiry 1 false) (cfgd [(MCV_CTRL_EN, 1, 1)] (fun d => d.setMcv 1
      { d.getMcv 1 with due := some 8000000000, scan := some [1, 2] })) ∧
    Runs (.mcvConversionDone 1 777) (cfgd [(MCV_CTRL_EN, 1, 1), (MCV_BUF_SIZE, 1, 4), (MCV_WIDX_WIDX, 1, 3), (MCV_RIDX_RIDX,
      1, 2), (MCV_STAT_PWR, 1, 1)] (fun d => d.setMcv 1
      { d.getMcv 1 with run := some ⟨.regular, 1, 0, false, 8000000000, none⟩, scan := some [1, 2] })) ∧
    Runs (.mcvConversionDone 1 777) (cfgd [(MCV_CTRL_EN, 1, 1), (MCV_BUF_SIZE, 1, 4), (MCV_WIDX_WIDX, 1, 3), (MCV_RIDX_RIDX,
      1, 0), (MCV_STAT_PWR, 1, 1)] (fun d => d.setMcv 1
      { d.getMcv 1 with run := some ⟨.regular, 1, 0, false, 8000000000, none⟩, scan := some [1] })) ∧
    Runs (.mcvIdleExpiry 1) (cfgd [(MCV_STAT_PWR, 1, 1)] id) ∧
    Runs (.mcvHousekeeping) (cfgd [(MCV_SYS_CONV, 0, 0)] id) ∧
    Runs (.railSet 5) (cfgd [(MCV_SYS_CONV, 0, 1)] id) ∧
    Runs (.mcvRidxWrite .kweave 1 1) (cfgd [(MCV_BUF_SIZE, 1, 4), (MCV_WIDX_WIDX, 1, 3), (MCV_WMARK_WMARK, 1, 2)] id) ∧
    Runs (.temperatureSetTimeout) (cfgd [] id) ∧
    Runs (.mcvHousekeeping) (cfgd [(MCV_SYS_CONV, 0, 0)] (fun d => d.setCal (fun c => { c with hkAt := some 999999000 }))) :=
  ⟨(by refine runs ((h _ 1 ?_ ?_).1 8000000000 1 [2] ?_ ?_ ?_ ?_ ?_ ?_ ?_ ?_ ?_) <;> decide +kernel),
   (by refine runs (((h _ 1 ?_ ?_).2.2.1 ⟨.regular, 1, 0, false, 8000000000, none⟩ 777 ?_ ?_ ?_ ?_ ?_).1 ?_ ?_) <;> decide +kernel),
   (by refine runs (((h _ 1 ?_ ?_).2.2.1 ⟨.regular, 1, 0, false, 8000000000, none⟩ 777 ?_ ?_ ?_ ?_ ?_).2 ?_) <;> decide +kernel),
   (by refine runs ((h _ 1 ?_ ?_).2.2.2.1 ?_ ?_) <;> decide +kernel),
   (by refine runs (((h _ 1 ?_ ?_).2.2.2.2.1 ?_ ?_ ?_).1 ?_) <;> decide +kernel),
   (by refine runs (((h _ 0 ?_ ?_).2.2.2.2.1 ?_ ?_ ?_).2.2 5 ?_) <;> decide +kernel),
   runs ((h _ 1 (by decide +kernel) (by decide +kernel)).2.2.2.2.2.1 .kweave 1 (accepts (by decide +kernel))),
   (by refine runs ((h _ 1 ?_ ?_).2.2.2.2.2.2 ?_ ?_) <;> decide +kernel),
   (by refine ⟨_, ((h _ 1 ?_ ?_).2.2.2.2.1 ?_ ?_ ?_).2.1 999999000 ?_ ?_⟩ <;> decide +kernel)⟩

theorem test_meets_PowerLossAndStarts (h : Obligations.PowerLossAndStarts) :
    Runs (.porAssert) (on [(CFG_GOLDADDR_ADDR, 0, 0x1000), (ENC_CTRL_EN, 0, 1)] id) ∧
    Runs (.testenAssert) (on [(ENC_CTRL_EN, 0, 1)] id) ∧
    Runs (.vbatLoss) (inState .off [(CFG_GOLDADDR_ADDR, 0, 0x1000)] (fun d =>
      { d with cfg := { d.cfg with bbrKey := [1] } })) ∧
    Runs (.coldStart false true 3 3 3) (inState .cold [] id) ∧
    Runs (.coldStart false true 4 0 0) (inState .cold [] id) ∧
    Runs (.coldStart true false 3 4 0) (inState .off [] id) ∧
    Runs (.coldStart true true 3 3 4) (inState .off [] id) ∧
    Runs (.rstnAssert) (on [(ENC_CTRL_EN, 0, 1)] id) ∧
    Runs (.warmStart) (inState .held [(ENC_CTRL_EN, 0, 1)] id) ∧
    Runs (.lockstepMismatch) (on [(ENC_CTRL_EN, 0, 1)] id) ∧
    Runs (.powerFailWarning 1) (on [(ENC_CTRL_EN, 0, 1)] id) ∧
    Runs (.pfailRecovery) (inState .pfhold [] id) :=
  ⟨runs ((h.1 _).1),
   runs ((h.1 _).2.1),
   runs ((h.1 _).2.2.1 (by decide +kernel)),
   (by refine runs (((h.1 _).2.2.2 (.inr ?_) ?_ false true 3 3 3).1 ?_ ?_ ?_) <;> decide +kernel),
   runs (((h.1 _).2.2.2 (.inr (by decide +kernel)) (by decide +kernel) false true 4 0 0).2.1 (by decide +kernel)),
   (by refine runs (((h.1 _).2.2.2 (.inl ?_) ?_ true false 3 4 0).2.2.1 ?_ ?_) <;> decide +kernel),
   (by refine runs (((h.1 _).2.2.2 (.inl ?_) ?_ true true 3 3 4).2.2.2 ?_ ?_ ?_) <;> decide +kernel),
   runs ((h.2 _).1 (.inl (by decide +kernel))),
   runs ((h.2 _).2.1 (by decide +kernel)),
   runs ((h.2 _).2.2.1 (by decide +kernel)),
   runs ((h.2 _).2.2.2.1 (by decide +kernel)),
   runs ((h.2 _).2.2.2.2 (by decide +kernel))⟩

theorem test_meets_PowerStatesAndWakes (h : Obligations.PowerStatesAndWakes) :
    Runs (.powerStateRequest .direct (word [(PWR_REQ_TGT, 2)])) (cfgd [(LTG_CTRL_ARM, 5, 1)] id) ∧
    Runs (.powerStateRequest .direct (word [(PWR_REQ_TGT, 1)])) (inState .hold [(LTG_CTRL_ARM, 5, 1), (PWR_STATE_CUR, 0, 2),
      (CFG_STATUS_STATE, 0, csDONE)] id) ∧
    Runs (.powerTransitionDone) (on [] (fun d => { d with pwr := { d.pwr with trans := some (2, .register) } })) ∧
    Runs (.powerTransitionDone) (inState .nap [] (fun d => { d with pwr := { d.pwr with trans := some (4, .register) } })) ∧
    Runs (.wakeDone) (inState .waking [(PWR_WAKECFG_RETURN, 0, 2)] id) ∧
    Runs (.wakeDone) (inState .waking [(PWR_WAKESTAT_SRC, 0, 32)] id) ∧
    Runs (.wakeDone) (inState .waking [] id) ∧
    Runs (.wakeHost) (inState .sleep [] id) ∧
    Runs (.wakeRingLoss) (inState .sleep [(PWR_WAKECFG_RLOSS, 0, 1)] id) ∧
    Runs (.wakeRingLine 23) (inState .sleep [(PWR_WAKECFG_RLINE, 0, 1), (PWR_WAKECFG_RHEAD, 0, 23)] id) ∧
    Runs (.wakeCapture 31 true) (inState .sleep [(PWR_WAKECFG_CAP, 0, 1), (ENC_CAPCTRL_EN, 31, 1), (ENC_CAPCTRL_WAKE, 31, 1),
      (ENC_CAPCTRL_SRC, 31, 111)] id) :=
  ⟨runs (((h.1 _).1 .direct (word [(PWR_REQ_TGT, 2)]) (accepts (by decide +kernel))).1 (by decide +kernel) (by decide +kernel)),
   runs (((h.1 _).1 .direct (word [(PWR_REQ_TGT, 1)]) (accepts (by decide +kernel))).2 (by decide +kernel)
    (by decide +kernel)),
   runs ((h.1 _).2.1 (by decide +kernel) (by decide +kernel) (by decide +kernel)),
   runs ((h.1 _).2.2.1 (by decide +kernel) (by decide +kernel)),
   runs (((h.1 _).2.2.2 (by decide +kernel)).2 (by decide +kernel)),
   runs (((h.1 _).2.2.2 (by decide +kernel)).1 (by decide +kernel)),
   runs (((h.1 _).2.2.2 (by decide +kernel)).2 (by decide +kernel)),
   runs (h.2 _ (by decide +kernel) .wakeHost 4 (.inl ⟨rfl, rfl⟩)),
   runs (h.2 _ (by decide +kernel) .wakeRingLoss 2 (.inr (.inl ⟨rfl, rfl, (by decide +kernel)⟩))),
   runs (h.2 _ (by decide +kernel) (.wakeRingLine 23) 3 (.inr (.inr (.inl ⟨23, rfl, rfl, (by decide +kernel),
    (by decide +kernel)⟩)))),
   (by refine runs (h.2 _ ?_ (.wakeCapture 31 true) 1 (.inr (.inr (.inr ⟨31, true, ?_, rfl, rfl, ?_, ?_, ?_, ?_, ?_⟩)))) <;> decide +kernel)⟩

theorem test_meets_PowerDomains (h : Obligations.PowerDomains) :
    Runs (.groupPowerDown .direct (word [(PWR_DOMEN_GRP, 254), (PWR_DOMEN_MEM, 255), (PWR_DOMEN_SER, 7)])) (on [] id) ∧
    Runs (.groupPowerUp .direct (word [(PWR_DOMEN_GRP, 255), (PWR_DOMEN_MEM, 255), (PWR_DOMEN_SER, 7)])) (on [(PWR_DOMEN_GRP,
      0, 254)] id) ∧
    Runs (.bankPowerDown .kweave (word [(PWR_DOMEN_GRP, 255), (PWR_DOMEN_MEM, 127), (PWR_DOMEN_SER, 7)])) (on [] id) ∧
    Runs (.bankPowerUp .direct (word [(PWR_DOMEN_GRP, 255), (PWR_DOMEN_MEM, 255), (PWR_DOMEN_SER, 7)])) (on [(PWR_DOMEN_MEM,
      0, 127)] id) ∧
    Runs (.laneQuadPower .direct (word [(PWR_DOMEN_GRP, 255), (PWR_DOMEN_MEM, 255), (PWR_DOMEN_SER, 3)])) (on [] id) ∧
    Runs (.groupReloadDone 7) (on [(PWR_DOMEN_GRP, 0, 127)] (fun d => { d with pwr := { d.pwr with grpBusy := 128 } })) :=
  ⟨runs ((h _).1 .direct (word [(PWR_DOMEN_GRP, 254), (PWR_DOMEN_MEM, 255), (PWR_DOMEN_SER, 7)]) (.groupPowerDown .direct (word
    [(PWR_DOMEN_GRP, 254), (PWR_DOMEN_MEM, 255), (PWR_DOMEN_SER, 7)])) (accepts (by decide +kernel)) (.inl
    (by decide +kernel))),
   runs ((h _).1 .direct (word [(PWR_DOMEN_GRP, 255), (PWR_DOMEN_MEM, 255), (PWR_DOMEN_SER, 7)]) (.groupPowerUp .direct (word
    [(PWR_DOMEN_GRP, 255), (PWR_DOMEN_MEM, 255), (PWR_DOMEN_SER, 7)])) (accepts (by decide +kernel)) (.inr (.inl
    (by decide +kernel)))),
   runs ((h _).1 .kweave (word [(PWR_DOMEN_GRP, 255), (PWR_DOMEN_MEM, 127), (PWR_DOMEN_SER, 7)]) (.bankPowerDown .kweave
    (word [(PWR_DOMEN_GRP, 255), (PWR_DOMEN_MEM, 127), (PWR_DOMEN_SER, 7)])) (accepts (by decide +kernel)) (.inr (.inr (.inl
    (by decide +kernel))))),
   runs ((h _).1 .direct (word [(PWR_DOMEN_GRP, 255), (PWR_DOMEN_MEM, 255), (PWR_DOMEN_SER, 7)]) (.bankPowerUp .direct (word
    [(PWR_DOMEN_GRP, 255), (PWR_DOMEN_MEM, 255), (PWR_DOMEN_SER, 7)])) (accepts (by decide +kernel)) (.inr (.inr (.inr (.inl
    (by decide +kernel)))))),
   runs ((h _).1 .direct (word [(PWR_DOMEN_GRP, 255), (PWR_DOMEN_MEM, 255), (PWR_DOMEN_SER, 3)]) (.laneQuadPower .direct
    (word [(PWR_DOMEN_GRP, 255), (PWR_DOMEN_MEM, 255), (PWR_DOMEN_SER, 3)])) (accepts (by decide +kernel)) (.inr (.inr (.inr
    (.inr (by decide +kernel)))))),
   (by refine runs ((h _).2 7 ?_ ?_ ?_ ?_) <;> decide +kernel)⟩

theorem test_meets_ClocksAndTest (h : Obligations.ClocksAndTest) :
    Runs (.refclkLost) (on [(CLK_REFSTAT_REFOK, 0, 1), (CLK_REFSTAT_LOSSCNT, 0, 255)] id) ∧
    Runs (.pllLockLost 10) (on [(CLK_PLLSTAT_LOCK, 0, 2047)] id) ∧
    Runs (.refclkReturn) (on [(CLK_REFSTAT_REFOK, 0, 0)] id) ∧
    Runs (.holdoverEnd) (on [(CLK_REFSTAT_REFOK, 0, 1), (CLK_REFSTAT_HOLDOVER, 0, 1), (LTG_CTRL_ARM, 5, 1)] (fun d =>
      { d with pwr := { d.pwr with refBack := some 999000000 } })) ∧
    Runs (.extestInstruction true) (on [] id) ∧
    Runs (.extestInstruction false) (on [] (fun d => { d with gpio := { d.gpio with extest := true } })) ∧
    Runs (.jtagRegacc 55340232221128654863 .clean) (on [] id) :=
  ⟨runs ((h _).1 (by decide +kernel) (by decide +kernel)),
   runs ((h _).2.1 10 (by decide +kernel) (by decide +kernel) (by decide +kernel)),
   runs ((h _).2.2.1 (by decide +kernel)),
   (by refine runs ((h _).2.2.2.1 999000000 ?_ ?_ ?_ ?_) <;> decide +kernel),
   runs ((h _).2.2.2.2.1 true (by intro x; cases x)),
   runs ((h _).2.2.2.2.1 false (fun _ => (by decide +kernel))),
   ⟨_, (h _).2.2.2.2.2 0x3000000000000000F .clean (takes (by decide +kernel)) (by decide +kernel)⟩⟩

theorem test_meets_StreamAndVerdicts (h : Obligations.StreamAndVerdicts) :
    Runs (.streamLineArrival 5) (rgn 9 [] (fun d => d.setPcu (fun p => { p with outs := [outLine] }))) ∧
    Runs (.streamLineArrival 5) (rgn 9 [(FAB_SNAPSTAT_FROZEN, 0, 512)] (fun d => d.setPcu (fun p =>
      { p with outs := [outLine] }))) ∧
    Runs (.streamLineArrival 5) (rgn 9 [(RGN_STAT_STATE, 9, rsLOADING)] (fun d => d.setPcu (fun p =>
      { p with outs := [outLine] }))) ∧
    Runs (.pairedLineVerdict 7 3) (rgn 7 [(SYS_STATUS_PAIRED, 0, 1)] (fun d => d.setFab (fun f =>
      { f with lines := [fabLine 7 3 99, fabLine 15 3 99] }))) ∧
    Runs (.pairedLineVerdict 7 3) (rgn 7 [(SYS_STATUS_PAIRED, 0, 1)] (fun d => d.setFab (fun f =>
      { f with lines := [fabLine 7 3 99, fabLine 15 3 98] }))) :=
  ⟨(by refine runs ((h.1 _ 5 9 2 outLine ?_ ?_ ?_ ?_ ?_ ?_ ?_).1 ?_ ?_ ?_) <;> decide +kernel),
   (by refine runs ((h.1 _ 5 9 2 outLine ?_ ?_ ?_ ?_ ?_ ?_ ?_).2.1 ?_ (.inl ?_)) <;> decide +kernel),
   (by refine runs ((h.1 _ 5 9 2 outLine ?_ ?_ ?_ ?_ ?_ ?_ ?_).2.2 ?_) <;> decide +kernel),
   (by refine runs ((h.2 _ 7 3 (fabLine 7 3 99) (fabLine 15 3 99) ?_ ?_ ?_ ?_ ?_).1 ?_ ?_ ?_) <;> decide +kernel),
   (by refine runs ((h.2 _ 7 3 (fabLine 7 3 99) (fabLine 15 3 98) ?_ ?_ ?_ ?_ ?_).2 (.inl ?_) ?_) <;> decide +kernel)⟩

theorem test_meets_FabricOutputs (h : Obligations.FabricOutputs) :
    Runs (.fabOutputWord 15 3) (rgn 15 [] (fun d => d.setSo 15 3
      { SoPort.reset with pend := [⟨.eol, 3, none⟩], ovf := true })) ∧
    Runs (.fabOutputWord 15 3) (rgn 15 [] (fun d => d.setSo 15 3
      { SoPort.reset with pend := [⟨.data, 3, none⟩], queue := List.replicate 8 ⟨.data, 9, none⟩ })) ∧
    Runs (.fabEventOutput 15) (rgn 15 [] (fun d => d.setFab (fun f =>
      { f with evPend := [(15, [(0x7F0003, 1000)])], evLast := [(63, 1)] }))) ∧
    Runs (.fabEventOutput 15) (rgn 15 [] (fun d => d.setFab (fun f =>
      { f with evPend := [(15, [(0x7F0003, 999)])], evLast := [(63, 1)] }))) :=
  ⟨(by refine runs ((h.1 _ 15 3 ⟨.eol, 3, none⟩ [] ?_ ?_ ?_ ?_).1 ?_) <;> decide +kernel),
   (by refine runs ((h.1 _ 15 3 ⟨.data, 3, none⟩ [] ?_ ?_ ?_ ?_).2 ?_) <;> decide +kernel),
   (by refine runs ((h.2 _ 15 0x7F0003 1000 [] ?_ ?_ ?_).1 (.inr ?_) ?_) <;> decide +kernel),
   (by refine runs ((h.2 _ 15 0x7F0003 999 [] ?_ ?_ ?_).2 ?_ ?_) <;> decide +kernel)⟩

theorem test_meets_RegionClockEdge (h : Obligations.RegionClockEdge) :
    Runs (.wordCellCycle 9 0 [] []) (rgn 9 [] id) ∧
    Runs (.wordCellCycle 7 0 [] []) (rgn 7 [(SYS_STATUS_PAIRED, 0, 1), (FAB_RCLK_FSEL, 15, 1), (RGN_STAT_STATE, 15,
      rsRUNNING)] id) :=
  ⟨(by refine runs (h _ 9 0 [] ?_ ?_ ?_ ?_ ?_ (noErrs ?_)) <;> decide +kernel),
   (by refine runs (h _ 7 0 [] ?_ ?_ ?_ ?_ ?_ (noErrs ?_)) <;> decide +kernel)⟩

theorem test_meets_MemoryRequests (h : Obligations.MemoryRequests) :
    Runs (.memPortRequest (Requester.region 1 9)) (rgn 9 [] (fun d => d.setFab (fun f =>
      { f with mpOut := [(portKey 1 9, [⟨false, 0xFFFFF, 0⟩])] }))) ∧
    Runs (.memPortRequest (Requester.region 1 9)) (rgn 9 [(PWR_DOMEN_MEM, 0, 127)] (fun d => d.setFab (fun f =>
      { f with mpOut := [(portKey 1 9, [⟨false, 0xFFFFF, 0⟩])] }))) ∧
    Runs (.memPortRequest (Requester.writer 23)) (on [] (fun d => d.setBank (fun m =>
      { m with jobs := [(23, [⟨4, 0, 7, 131071, [55]⟩])] }))) ∧
    Runs (.memPortRequest (Requester.writer 23)) (on [(PWR_DOMEN_MEM, 0, 127)] (fun d => d.setBank (fun m =>
      { m with jobs := [(23, [⟨4, 0, 7, 131071, [55]⟩])] }))) ∧
    Runs (.memPortRequest (Requester.dma 1)) (on [] (fun d => d.setMcv 1 { d.getMcv 1 with dma := [(7, 131071, 55)] })) ∧
    Runs (.memPortRequest (Requester.dma 1)) (on [(PWR_DOMEN_MEM, 0, 127)] (fun d => d.setMcv 1
      { d.getMcv 1 with dma := [(7, 131071, 55)] })) ∧
    Runs (.memPortRequest Requester.management) (on [] (fun d => d.setBank (fun m =>
      { m with fills := [⟨9, 7, 100, 5, 77, false⟩] }))) :=
  ⟨(by refine runs (((h _ ?_).1 1 9 ⟨false, 0xFFFFF, 0⟩ [] ?_ ?_ ?_ ?_).1 ⟨?_, ?_⟩ ?_) <;> decide +kernel),
   (by refine runs (((h _ ?_).1 1 9 ⟨false, 0xFFFFF, 0⟩ [] ?_ ?_ ?_ ?_).2 (by unfold Dev.grants; decide +kernel)) <;> decide +kernel),
   (by refine runs (((h _ ?_).2.1 23 ⟨4, 0, 7, 131071, [55]⟩ [] 55 [] ?_ ?_ ?_ ?_).1 ⟨?_, ?_⟩) <;> decide +kernel),
   (by refine runs (((h _ ?_).2.1 23 ⟨4, 0, 7, 131071, [55]⟩ [] 55 [] ?_ ?_ ?_ ?_).2 (by unfold Dev.grants; decide +kernel)) <;> decide +kernel),
   (by refine runs (((h _ ?_).2.2.1 1 7 131071 55 [] ?_ ?_).1 ⟨?_, ?_⟩) <;> decide +kernel),
   ⟨_, ((h _ (by decide +kernel)).2.2.1 1 7 131071 55 [] (by decide +kernel) (by decide +kernel)).2
    (by unfold Dev.grants; decide +kernel)⟩,
   (by refine runs ((h _ ?_).2.2.2 ⟨9, 7, 100, 5, 77, false⟩ ?_ ?_ ?_) <;> decide +kernel)⟩

theorem test_meets_BankCycles_1 (h : Obligations.BankCycles) :
    Runs (.memRequestPerform 7 (decide (0 = 0)) (decide (0 = 1)) .clean .clean) (stored (on [] (fun d => d.setBank (fun m =>
      { m with reqs := [req (.region 0 9) true 0x1122334455667788 3], wbq := [(7, [131071])] }))) 7 131071 99) ∧
    Runs (.memRequestPerform 7 (decide (1 = 0)) (decide (1 = 1)) .clean .clean) (stored (on [] (fun d => d.setBank (fun m =>
      { m with reqs := [req (.region 1 9) true 0x1122334455667788 3] }))) 7 131071 99) ∧
    Runs (.memRequestPerform 7 (decide (0 = 0)) (decide (0 = 1)) .clean .clean) (stored (on [] (fun d => d.setBank (fun m =>
      { m with reqs := [req (.region 0 9) false 0 3], rets := [(portKey 0 9, [⟨3, false, 0, false, false, false⟩])] }))) 7
      131071 99) ∧
    Runs (.memRequestPerform 7 (decide (0 = 0)) (decide (0 = 1)) .single .clean) (stored (on [] (fun d => d.setBank (fun m =>
      { m with reqs := [req (.region 0 9) false 0 3], rets := [(portKey 0 9, [⟨3, false, 0, false, false, false⟩])] }))) 7
      131071 99) ∧
    Runs (.memRequestPerform 7 (decide (1 = 0)) (decide (1 = 1)) .clean (.double 5)) (stored (on [] (fun d => d.setBank (fun
      m => { m with reqs := [req (.region 1 9) false 0 3], rets := [(portKey 1 9, [⟨3, false, 0, false, false, false⟩])] })))
      7 131071 99) ∧
    Runs (.memRequestPerform 7 true true .clean .clean) (on [] (fun d => d.setBank (fun m =>
      { m with reqs := [req (.region 0 9) true 1 3, req (.region 1 9) true 2 3] }))) ∧
    Runs (.writebackPerform 7) (on [] (fun d => d.setBank (fun m => { m with wbq := [(7, [5, 6])] }))) ∧
    Runs (.memRequestPerform 7 (decide (1 = 0)) (decide (1 = 1)) .clean .clean) (stored (on [] (fun d => d.setBank (fun m =>
      { m with reqs := [{ req (.writer 23) true 0x1122334455667788 3 with last := some (23, 5, 262143) }] }))) 7 131071 99) ∧
    Runs (.memRequestPerform 7 (decide (0 = 0)) (decide (0 = 1)) .single .clean) (stored (on [] (fun d => d.setBank (fun m =>
      { m with reqs := [req (.region 0 9) false 0 3], rets := [(portKey 0 9, [⟨3, false, 0, false, false, false⟩])], wbq := [(7, [1, 2, 3, 4])] })))
      7 131071 99) ∧
    Runs (.memRequestPerform 7 (decide (0 = 0)) (decide (0 = 1)) .clean .clean) (on [(MEM_BSTAT_STATE, 7, bsMARCHD)] (fun d
      => d.setBank (fun m =>
      { m with reqs := [req (.region 0 9) false 0 3], rets := [(portKey 0 9, [⟨3, false, 0, false, false, false⟩])] }))) ∧
    Runs (.memRequestPerform 7 true true .clean .clean) (stored (on [] (fun d => d.setBank (fun m =>
      { m with reqs := [req (.region 0 9) false 1 3, req (.region 1 9) true 2 3], rets := [(portKey 0 9, [⟨3, false, 0, false, false, false⟩])] })))
      7 131071 99) ∧
    Runs (.memRequestPerform 7 true true .clean .clean) (stored (on [] (fun d => d.setBank (fun m =>
      { m with reqs := [req (.region 0 9) true 1 3, req (.region 1 9) false 2 3], rets := [(portKey 1 9, [⟨3, false, 0, false, false, false⟩])] })))
      7 131071 99) :=
  ⟨(by refine runs ((((h _ 7 .clean .clean ?_ ?_).1 0 (req (.region 0 9) true 0x1122334455667788 3) (10, 1) ?_ ?_).1 ?_).1 ?_ ?_) <;> decide +kernel),
   (by refine runs ((((h _ 7 .clean .clean ?_ ?_).1 1 (req (.region 1 9) true 0x1122334455667788 3) (35, 1) ?_ ?_).1 ?_).1 ?_ ?_) <;> decide +kernel),
   (by refine runs ((((h _ 7 .clean .clean ?_ ?_).1 0 (req (.region 0 9) false 0 3) (10, 1) ?_ ?_).1 ?_).2.2.1 ?_ ?_) <;> decide +kernel),
   (by refine runs ((((h _ 7 .single .clean ?_ ?_).1 0 (req (.region 0 9) false 0 3) (10, 1) ?_ ?_).1 ?_).2.2.2.1 ?_ ?_) <;> decide +kernel),
   (by refine runs ((((h _ 7 .clean (.double 5) ?_ ?_).1 1 (req (.region 1 9) false 0 3) (35, 1) ?_ ?_).1 ?_).2.2.2.2 5 ?_ ?_ ?_) <;> decide +kernel),
   (by refine runs (((h _ 7 .clean .clean ?_ ?_).2.1 ?_ (req (.region 0 9) true 1 3) (req (.region 1 9) true 2 3) (10, 1) (35, 1) ?_ ?_ ?_ ?_ ?_).1 ?_ ?_) <;> decide +kernel),
   (by refine runs ((h _ 7 .clean .clean ?_ ?_).2.2.1 5 [6] ?_ ?_ ?_) <;> decide +kernel),
   (by refine runs ((((h _ 7 .clean .clean ?_ ?_).1 1 { req (.writer 23) true 0x1122334455667788 3 with last := some (23, 5, 262143) } (23, 1) ?_ ?_).1 ?_).2.1 23 5 262143 ?_ ?_ ?_) <;> decide +kernel),
   (by refine runs ((((h _ 7 .single .clean ?_ ?_).1 0 (req (.region 0 9) false 0 3) (10, 1) ?_ ?_).1 ?_).2.2.2.1 ?_ ?_) <;> decide +kernel),
   (by refine runs (((h _ 7 .clean .clean ?_ ?_).1 0 (req (.region 0 9) false 0 3) (10, 1) ?_ ?_).2 9 ?_ ?_ ?_) <;> decide +kernel),
   (by refine runs (((h _ 7 .clean .clean ?_ ?_).2.1 ?_ (req (.region 0 9) false 1 3) (req (.region 1 9) true 2 3) (10, 1) (35, 1) ?_ ?_ ?_ ?_ ?_).2.1 ?_ ?_ ?_) <;> decide +kernel),
   (by refine runs (((h _ 7 .clean .clean ?_ ?_).2.1 ?_ (req (.region 0 9) true 1 3) (req (.region 1 9) false 2 3) (10, 1) (35, 1) ?_ ?_ ?_ ?_ ?_).2.2 ?_ ?_ ?_) <;> decide +kernel)⟩

theorem test_meets_BankCycles_2 (h : Obligations.BankCycles) :
    Runs (.writebackPerform 7) (on [] (fun d => d.setBank (fun m =>
      { m with wbq := [(7, [5, 6])], reqs := [req (.region 1 9) true 2 3] }))) :=
  (by refine ⟨_, (h _ 7 .clean .clean ?_ ?_).2.2.2 5 [6] ?_ ?_ ?_⟩ <;> decide +kernel)

theorem test_meets_MemoryWindows_1 (h : Obligations.MemoryWindows) :
    Runs (.bankHostAccess (.spi 2 41943036 0) true 2578103244 .clean) (stored (on [] id) 7 131071 0x1122334455667788) ∧
    Runs (.bankHostAccess (.spi 11 41943036 0) false 0 .clean) (stored (on [] id) 7 131071 0x1122334455667788) ∧
    Runs (.bankHostAccess (.spi 11 41943036 0) false 0 .clean) (on [(PWR_DOMEN_MEM, 0, 127)] id) ∧
    Runs (.bankHostAccess (.spi 2 41943036 0) true 0 .clean) (on [(MEM_BSTAT_STATE, 7, 1)] id) :=
  ⟨(by refine runs (((h _ (.spi 0x02 0x027FFFFC 0) 0x99AABBCC 7 131071 1).1 true ?_ ?_ ?_ ⟨takes ?_, by decide +kernel⟩).1 ?_ ?_ ?_ ?_) <;> decide +kernel),
   (by refine runs (((h _ (.spi 0x0B 0x027FFFFC 0) 0 7 131071 1).1 false ?_ ?_ ?_ ⟨takes ?_, by decide +kernel⟩).2.1 ?_ ?_ ?_ ?_) <;> decide +kernel),
   (by refine runs (((h _ (.spi 0x0B 0x027FFFFC 0) 0 7 131071 1).1 false ?_ ?_ ?_ ⟨takes ?_, by decide +kernel⟩).2.2.2 (.inl ?_)) <;> decide +kernel),
   (by refine runs (((h _ (.spi 0x02 0x027FFFFC 0) 0 7 131071 1).1 true ?_ ?_ ?_ ⟨takes ?_, by decide +kernel⟩).2.2.2 (.inr ?_)) <;> decide +kernel)⟩

theorem test_meets_MemoryWindows_2 (h : Obligations.MemoryWindows) :
    Runs (.scratchpadHostAccess (.spi 2 51380220 0) true 2578103244 .clean) (rgn 15 [(RGN_STAT_STATE, 15, rsISOLATED)] id) ∧
    Runs (.scratchpadHostAccess (.spi 11 51380220 0) false 0 .clean) (rgn 15 [(RGN_STAT_STATE, 15, rsISOLATED)] id) ∧
    Runs (.scratchpadHostAccess (.spi 11 51380220 0) false 0 .clean) (rgn 15 [] id) ∧
    Runs (.bankHostAccess (.spi 2 41943036 0) true 2578103244 (.double 5)) (stored (on [] (fun d => d.setBank (fun m =>
      { m with errs := [(bankAddr 7 131071, 2)] }))) 7 131071 0x1122334455667788) :=
  ⟨(by refine runs (((h _ (.spi 0x02 0x030FFFFC 0) 0x99AABBCC 0 1023 0).2 true 255 ?_ ?_ ⟨takes ?_, by decide +kernel⟩).1 ?_ ?_ ?_) <;> decide +kernel),
   (by refine runs (((h _ (.spi 0x0B 0x030FFFFC 0) 0 0 1023 0).2 false 255 ?_ ?_ ⟨takes ?_, by decide +kernel⟩).2.1 ?_ ?_ ?_ ?_) <;> decide +kernel),
   (by refine runs (((h _ (.spi 0x0B 0x030FFFFC 0) 0 0 1023 0).2 false 255 ?_ ?_ ⟨takes ?_, by decide +kernel⟩).2.2 (.inr ?_)) <;> decide +kernel),
   (by refine runs (((h _ (.spi 0x02 0x027FFFFC 0) 0x99AABBCC 7 131071 1).1 true ?_ ?_ ?_ ⟨takes ?_, by decide +kernel⟩).2.2.1 5 ?_ ?_ ?_) <;> decide +kernel)⟩

theorem test_meets_MarchesAndFills (h : Obligations.MarchesAndFills) :
    Runs (.marchStart .direct 7 (word [(MEM_BCTRL_MSTART, 1), (MEM_BCTRL_MMODE, 1)])) (on [] id) ∧
    Runs (.marchStop .direct 7 (word [(MEM_BCTRL_MSTOP, 1)])) (on [(MEM_BSTAT_STATE, 7, 2)] id) ∧
    Runs (.marchDone 7 [] 0 false) (stored (on [(MEM_BSTAT_STATE, 7, 1)] id) 7 131071 99) ∧
    Runs (.marchDone 7 [] 0 false) (stored (on [(MEM_BSTAT_STATE, 7, 2)] id) 7 131071 99) ∧
    Runs (.marchDone 7 [2047] 0 false) (on [(MEM_BSTAT_STATE, 7, 1)] id) ∧
    Runs (.memFillDone 9) (on [] (fun d =>
      { d with bank := { d.bank with fills := [⟨9, 7, 100, 0, 77, false⟩] }, kw := { d.kw with handles := [⟨9, 0x701, false, 1⟩] } })) ∧
    Runs (.marchStop .direct 7 (word [(MEM_BCTRL_MSTOP, 1)])) (stored (on [(MEM_BSTAT_STATE, 7, 1)] id) 7 131071 99) ∧
    Runs (.marchDone 7 [2047] 0 false) (on [(MEM_BSTAT_STATE, 7, 1), (MEM_BSTAT_SPUSED, 7, 15)] id) :=
  ⟨(by refine runs ((h _ .direct 7 (word [(MEM_BCTRL_MSTART, 1), (MEM_BCTRL_MMODE, 1)]) ?_).1 (accepts ?_) ?_ ?_) <;> decide +kernel),
   (by refine runs ((h _ .direct 7 (word [(MEM_BCTRL_MSTOP, 1)]) ?_).2.1 (accepts ?_) ?_ ?_ ?_) <;> decide +kernel),
   runs (((h _ .direct 7 0 (by decide +kernel)).2.2.2.1 (by decide +kernel) (.inl (by decide +kernel))).1 0),
   runs (((h _ .direct 7 0 (by decide +kernel)).2.2.2.1 (by decide +kernel) (.inr (by decide +kernel))).1 0),
   (by refine runs ((((h _ .direct 7 0 ?_).2.2.2.1 ?_ (.inl ?_)).2 2047 ?_ ?_).1 ?_ ?_) <;> decide +kernel),
   (by refine runs ((h _ .direct 7 0 ?_).2.2.2.2 ⟨9, 7, 100, 0, 77, false⟩ ?_ ?_ ?_ ?_) <;> decide +kernel),
   (by refine runs ((h _ .direct 7 (word [(MEM_BCTRL_MSTOP, 1)]) ?_).2.2.1 (accepts ?_) ?_ ?_ ?_) <;> decide +kernel),
   (by refine runs ((((h _ .direct 7 0 ?_).2.2.2.1 ?_ (.inl ?_)).2 2047 ?_ ?_).2 ?_ ?_) <;> decide +kernel)⟩

theorem test_meets_SnapshotsAndIsolation (h : Obligations.SnapshotsAndIsolation) :
    Runs (.snapshotArm .direct (word [(FAB_SNAPCTRL_ARM, 1), (FAB_SNAPCTRL_REGIONS, 49152)])) (rgn 15 [] id) ∧
    Runs (.snapshotCancel .direct (word [(FAB_SNAPCTRL_CANCEL, 1)])) (rgn 15 [(FAB_SNAPSTAT_ARMED, 0, 1)] (fun d => d.setFab
      (fun f => { f with snapLeft := 32768 }))) ∧
    Runs (.snapshotResume .direct (word [(FAB_SNAPCTRL_RESUME, 1)])) (rgn 15 [(FAB_SNAPSTAT_FROZEN, 0, 32768)] id) ∧
    Runs (.snapshotTake 15) (rgn 15 [(FAB_SNAPSTAT_ARMED, 0, 1), (FAB_SNAPCTRL_REGIONS, 0, 32768), (FAB_SNAPCTRL_FREEZE, 0,
      1)] (fun d => d.setFab (fun f => { f with snapLeft := 32768, cells := [(16 * tileOf 15 3 + 5, (77, true))] }))) ∧
    Runs (.snapdataRead .direct) (rgn 15 [(FAB_SNAPADDR_TILE, 0, 255), (FAB_SNAPADDR_CELL, 0, 15)] (fun d => d.setFab (fun f
      => { f with snap := [(4095, 5)] }))) ∧
    Runs (.snapdataRead .direct) (rgn 15 [(CFG_STATUS_ENC, 0, 1)] id) ∧
    Runs (.regionIsolate .direct 32768#32) (rgn 15 [] id) ∧
    Runs (.regionIsolate .direct 0) (rgn 15 [(RGN_ISOLATE_REGION, 0, 32768), (RGN_STAT_STATE, 15, rsISOLATED)] id) :=
  ⟨(by refine runs (((h _ .direct (word [(FAB_SNAPCTRL_ARM, 1), (FAB_SNAPCTRL_REGIONS, 0xC000)])).1 (accepts ?_)).1 ?_ ?_ ?_ ⟨15, ?_, ?_, ?_⟩) <;> decide +kernel),
   (by refine runs (((h _ .direct (word [(FAB_SNAPCTRL_CANCEL, 1)])).1 (accepts ?_)).2.1 ?_ ?_ ?_) <;> decide +kernel),
   (by refine runs (((h _ .direct (word [(FAB_SNAPCTRL_RESUME, 1)])).1 (accepts ?_)).2.2 ?_ ?_ ?_) <;> decide +kernel),
   (by refine runs ((h _ .direct 0).2.1 15 ?_ ?_ ?_ ?_ ?_ ?_ ?_) <;> decide +kernel),
   runs ((h _ .direct 0).2.2.1 (serves (by decide +kernel))),
   (by refine runs ((h _ .direct 0).2.2.2.1 (takes ?_) ?_ ?_ ?_) <;> decide +kernel),
   runs ((h _ .direct 0x00008000#32).2.2.2.2 (accepts (by decide +kernel)) (by decide +kernel)),
   runs ((h _ .direct 0).2.2.2.2 (accepts (by decide +kernel)) (by decide +kernel))⟩

theorem test_meets_ConfigurationStart (h : Obligations.ConfigurationStart) :
    Runs (.progn) (rgn 9 [] id) ∧
    Runs (.prognRise) (on [] (fun d => { d with cfg := { d.cfg with progn := false } })) ∧
    Runs (.cfgClearDone) (on [(CFG_STATUS_STATE, 0, csCLEAR)] id) ∧
    Runs (.cfgClearDone) (on [(CFG_STATUS_STATE, 0, csFAILED)] (fun d => { d with cfg := { d.cfg with after := 1 } })) ∧
    Runs (.cfgClearDone) (on [(CFG_STATUS_STATE, 0, csFAILED)] (fun d => { d with cfg := { d.cfg with after := 2 } })) ∧
    Runs (.cfgWaitTimeout) (on [(CFG_STATUS_STATE, 0, csWAIT), (CFG_WAITTMO_MS, 0, 500)] id) :=
  ⟨runs ((h _ (by decide +kernel)).1),
   runs ((h _ (by decide +kernel)).2.1),
   (by refine runs ((h _ ?_).2.2.1 (.inl ?_) ?_ ?_) <;> decide +kernel),
   (by refine runs ((h _ ?_).2.2.1 (.inr ?_) ?_ ?_) <;> decide +kernel),
   (by refine runs ((h _ ?_).2.2.1 (.inr ?_) ?_ ?_) <;> decide +kernel),
   (by refine runs ((h _ ?_).2.2.2 ?_ ?_ ?_) <;> decide +kernel)⟩

theorem test_meets_ImageWords (h : Obligations.ImageWords) :
    Runs (.cfgFifoWrite .direct 1464421703#32) (on [(CFG_STATUS_STATE, 0, csWAIT)] (fun d =>
      { d with cfg := { d.cfg with load := { Load.reset with isOpen := true, handle := some 5 } } })) ∧
    Runs (.cfgFifoWrite .direct 5) (on [(CFG_STATUS_STATE, 0, csDONE)] id) ∧
    Runs (.cfgWordTimeout) (loading plainHdr [(CFG_RETRY_COUNT, 0, 3)] [] (fun l => { l with lastNow := 1 })) ∧
    Runs (.cfgWordTimeout) (on [(CFG_STATUS_STATE, 0, csDONE), (FAB_RCLK_FSEL, 9, 1), (RGN_STAT_STATE, 9, rsLOADING)] (fun d
      =>
      { d with cfg := { d.cfg with load := { Load.reset with isOpen := true, partialLoad := true, hdr := some plainHdr, opened := 512 } } })) ∧
    Runs (.goldenFlashTimeout) (loading plainHdr [] [] (fun l => { l with golden := true, lastNow := 900000000 })) ∧
    Runs (.cfgRetryClear .direct (word [(CFG_RETRY_CLR, 1)])) (on [(CFG_RETRY_COUNT, 0, 3)] id) ∧
    Runs (.chainNext) (on [(CFG_CHAIN_FWD, 0, 1)] (fun d =>
      { d with cfg := { d.cfg with fifo := [5, 6], chainLeft := 1, chainAt := 7 } })) ∧
    Runs (.cfgFifoWrite .direct 5) (let s := loading plainHdr [] [] (fun l => l);
      { s with dev := { s.dev with cfg := { s.dev.cfg with fifo := List.replicate 1024 5 } } }) ∧
    Runs (.cfgFifoWrite .direct 65288#32) (on [(CFG_STATUS_STATE, 0, csDONE)] (fun d =>
      { d with cfg := { d.cfg with chainWait := true } })) :=
  ⟨(by refine runs (((h _ .direct 0x57494D47#32).1 (accepts ?_) ?_ ?_).1 ?_ ?_ ?_) <;> decide +kernel),
   (by refine runs (((h _ .direct 5).1 (accepts ?_) ?_ ?_).2.1 ?_) <;> decide +kernel),
   (by refine runs (((h _ .direct 5).2.2.1 ?_ ?_ ?_ ?_).1 ?_ ?_) <;> decide +kernel),
   (by refine runs (((h _ .direct 5).2.2.1 ?_ ?_ ?_ ?_).2 ?_) <;> decide +kernel),
   (by refine runs ((h _ .direct 5).2.2.2.1 ?_ ?_ ?_ ?_) <;> decide +kernel),
   runs ((h _ .direct (word [(CFG_RETRY_CLR, 1)])).2.2.2.2.1 (accepts (by decide +kernel)) (by decide +kernel)),
   (by refine runs ((h _ .direct 5).2.2.2.2.2 5 [6] ?_ ?_ ?_ ?_ ?_) <;> decide +kernel),
   (by refine runs (((h _ .direct 5).1 (accepts ?_) ?_ ?_).2.2 ?_ ?_ ?_ ?_ ?_) <;> decide +kernel),
   (by refine runs ((h _ .direct 0x0000FF08#32).2.1 (accepts ?_) ?_ ?_ ?_ ?_ ?_) <;> decide +kernel)⟩

theorem test_meets_ImagePackets_1 (h : Obligations.ImagePackets) :
    Runs (.imageHeader) (on [(CFG_STATUS_STATE, 0, csLOAD)] (fun d =>
      { d with cfg := { d.cfg with load := { Load.reset with isOpen := true, words := hdrWords [0x57494D47, 0x00100001, 0x9604, 0x24, 64, 5, 6, 7, 8, 0, 0, 0, 0, 0, 0], count := 16 } } })) ∧
    Runs (.imageHeader) (on [(CFG_STATUS_STATE, 0, csLOAD)] (fun d =>
      { d with cfg := { d.cfg with load := { Load.reset with isOpen := true, words := hdrWords [0x57494D47, 0x00100001, 0x9605, 0x24, 64, 5, 6, 7, 8, 0, 0, 0, 0, 0, 0], count := 16 } } })) ∧
    Runs (.startupOrder) (loading plainHdr [] [0x106, 0x543210] id) ∧
    Runs (.startupOrder) (loading plainHdr [] [0x106, 0x543211] id) :=
  ⟨(by refine runs (((h.1 _ ?_).1 ?_ ?_ ?_ ?_ ?_).1 ?_ ?_) <;> decide +kernel),
   (by refine runs (((h.1 _ ?_).1 ?_ ?_ ?_ ?_ ?_).2 rnDEVICE ?_) <;> decide +kernel),
   (by refine runs (((h.1 _ ?_).2.1 [0x543210] ?_ ?_).1 ?_ ⟨?_, ?_⟩) <;> decide +kernel),
   (by refine runs (((h.1 _ ?_).2.1 [0x543211] ?_ ?_).2 ?_) <;> decide +kernel)⟩

theorem test_meets_ImagePackets_2 (h : Obligations.ImagePackets) :
    Runs (.regionEnd) (loading plainHdr [] [4] (fun l => { l with order := 3, region := some 9 })) ∧
    Runs (.regionBegin) (loading plainHdr [] ([0x21103, 9] ++ List.replicate 528 0) (fun l => { l with order := 2 })) ∧
    Runs (.regionBegin) (loading plainHdr [] ([0x21103, 9] ++ List.replicate 528 0) (fun l =>
      { l with order := 4, seen := 512 })) ∧
    Runs (.check) (loading { plainHdr with bodylen := 8 } [] [0x107, crcWords []] (fun l => { l with order := 4 })) :=
  ⟨(by refine runs ((h.1 _ ?_).2.2.1 ?_ ⟨?_, ?_⟩) <;> decide +kernel),
   (by refine runs (((h.1 _ ?_).2.2.2 ([9] ++ List.replicate 528 0) 9 ?_ ?_ ?_ ⟨?_, ?_⟩).2.1 ?_ ?_) <;> decide +kernel),
   (by refine runs (((h.1 _ ?_).2.2.2 ([9] ++ List.replicate 528 0) 9 ?_ ?_ ?_ ⟨?_, ?_⟩).2.2 rnFORMAT none ?_ ?_) <;> decide +kernel),
   (by refine runs (((h.2 _ [crcWords []] { plainHdr with bodylen := 8 } ?_ ?_ ?_).1 ?_).1 ?_ ?_) <;> decide +kernel)⟩

theorem test_meets_ImagePackets_3 (h : Obligations.ImagePackets) :
    Runs (.check) (loading { plainHdr with bodylen := 8, donewait := true } [] [0x107, crcWords []] (fun l =>
      { l with order := 4 })) ∧
    Runs (.check) (loading { plainHdr with bodylen := 8 } [] [0x107, 5] (fun l => { l with order := 4 })) ∧
    Runs (.tag) (sealedLoad tagWords) ∧
    Runs (.tag) (sealedLoad [1, 2, 3, 4]) :=
  ⟨(by refine runs (((h.2 _ [crcWords []] { plainHdr with bodylen := 8, donewait := true } ?_ ?_ ?_).1 ?_).1 ?_ ?_) <;> decide +kernel),
   (by refine runs (((h.2 _ [5] { plainHdr with bodylen := 8 } ?_ ?_ ?_).1 ?_).2.1 ?_ ?_) <;> decide +kernel),
   (by refine runs (((h.2 _ tagWords sealedHdr ?_ ?_ ?_).2 ?_ ?_).1 ?_) <;> decide +kernel),
   (by refine runs (((h.2 _ [1, 2, 3, 4] sealedHdr ?_ ?_ ?_).2 ?_ ?_).2 ?_) <;> decide +kernel)⟩

theorem test_meets_ImagePackets_4 (h : Obligations.ImagePackets) :
    Runs (.regionBegin) (loading plainHdr [] ([0x21103, 9] ++ List.replicate 528 0) (fun l =>
      { l with order := 2, setDone := false, held := [(10240, 2 ^ 1023)] })) :=
  (by refine runs (((h.1 _ ?_).2.2.2 ([9] ++ List.replicate 528 0) 9 ?_ ?_ ?_ ⟨?_, ?_⟩).1 rnFRAME_CODE ?_ ?_) <;> decide +kernel)

theorem test_meets_ImageFrames_1 (h : Obligations.ImageFrames) :
    Runs (.frameWrite) (loading plainHdr [] ([0x2201, 5765] ++ List.replicate 33 0) (fun l =>
      { l with order := 3, region := some 9 })) ∧
    Runs (.frameWrite) (loading plainHdr [] ([0x2201, 10240] ++ List.replicate 33 0) (fun l => { l with order := 2 })) ∧
    Runs (.frameWrite) (loading plainHdr [] ([0x2201, 5765, 1] ++ List.replicate 32 0) (fun l =>
      { l with order := 3, region := some 9 })) :=
  ⟨(by refine runs (((h _ ([5765] ++ List.replicate 33 0) ?_ ?_).1 ?_ ⟨?_, ?_⟩).1 ?_) <;> decide +kernel),
   (by refine runs (((h _ ([10240] ++ List.replicate 33 0) ?_ ?_).1 ?_ ⟨?_, ?_⟩).2.1 ?_ ?_ ?_) <;> decide +kernel),
   (by refine runs (((h _ ([5765, 1] ++ List.replicate 32 0) ?_ ?_).1 ?_ ⟨?_, ?_⟩).2.2 rnFRAME_CHECK ?_ ?_) <;> decide +kernel)⟩

theorem test_meets_ImageFrames_2 (h : Obligations.ImageFrames) :
    Runs (.frameRepeat) (loading plainHdr [] ([0x2402, 2] ++ List.replicate 33 0 ++ [5765, 5770]) (fun l =>
      { l with order := 3, region := some 9 })) ∧
    Runs (.memInit) (loading plainHdr [] [0x305, tileOf 9 3 + 1022 * 256 + 2 * 2 ^ 18, 77, 0xFFFFFF] (fun l =>
      { l with order := 3, region := some 9 })) ∧
    Runs (.memInit) (loading plainHdr [] [0x305, tileOf 9 3 + 1022 * 256 + 2 * 2 ^ 18, 77, 0xFFFFFF] (fun l =>
      { l with order := 3, region := some 8 })) :=
  ⟨(by refine runs ((h _ ([2] ++ List.replicate 33 0 ++ [5765, 5770]) ?_ ?_).2.1 ?_ ⟨?_, ?_⟩ ?_) <;> decide +kernel),
   (by refine runs (((h _ [tileOf 9 3 + 1022 * 256 + 2 * 2 ^ 18, 77, 0xFFFFFF] ?_ ?_).2.2 ?_ ⟨?_, ?_⟩).1 ?_ ?_ ?_ ?_) <;> decide +kernel),
   (by refine runs (((h _ [tileOf 9 3 + 1022 * 256 + 2 * 2 ^ 18, 77, 0xFFFFFF] ?_ ?_).2.2 ?_ ⟨?_, ?_⟩).2 ?_ ?_) <;> decide +kernel)⟩

theorem test_meets_ImageFrames_3 (h : Obligations.ImageFrames) :
    Runs (.memInit) (loading plainHdr [(SYS_STATUS_PAIRED, 0, 1)] [0x305, tileOf 7 3 + 1022 * 256 + 2 * 2 ^ 18, 77, 0xFFFFFF]
      (fun l => { l with order := 3, region := some 7 })) :=
  (by refine runs (((h _ [tileOf 7 3 + 1022 * 256 + 2 * 2 ^ 18, 77, 0xFFFFFF] ?_ ?_).2.2 ?_ ⟨?_, ?_⟩).1 ?_ ?_ ?_ ?_) <;> decide +kernel)

theorem test_meets_StartupSteps_1 (h : Obligations.StartupSteps) :
    Runs (.regionPowerUpDone) (on [(CFG_STATUS_STATE, 0, csLOAD)] (fun d =>
      { d with cfg := { d.cfg with load := { Load.reset with isOpen := true, pauseTo := 1000000000 } } })) ∧
    Runs (.regionStartupDone 15) (rgn 15 [(RGN_STAT_STATE, 15, rsSTARTING)] id) ∧
    Runs (.regionStartupDone 0) (rgn 0 [(RGN_STAT_STATE, 0, rsSTARTING), (RGN_ISOLATE_REGION, 0, 1)] id) ∧
    Runs (.cfgdoneRise) (on [(CFG_STATUS_STATE, 0, csSYNC)] id) ∧
    Runs (.cfgSyncTimeout) (on [(CFG_STATUS_STATE, 0, csSYNC), (CFG_TIMEOUT_MS, 0, 1000)] id) ∧
    Runs (.pllLockTimeout) (on [(CFG_STATUS_STATE, 0, csSTARTUP)] id) ∧
    Runs (.startupLock) (rgn 9 [(CFG_STATUS_STATE, 0, csSTARTUP), (CLK_PLLSTAT_LOCK, 0, 2047), (CFG_STARTUP_ORDER, 0,
      0x541032), (CFG_STARTUP_NEXT, 0, 2)] (fun d =>
      { d with cfg := { d.cfg with recorded := [2, 3] }, fab := { d.fab with gsr := 0, wen := 0 } })) ∧
    Runs (.startupOutrel) (on [(CFG_STATUS_STATE, 0, csSTARTUP), (CFG_STARTUP_NEXT, 0, 1)] id) ∧
    Runs (.startupGsrrel) (rgn 9 [(CFG_STATUS_STATE, 0, csSTARTUP), (CFG_STARTUP_NEXT, 0, 2)] (fun d =>
      { d with fab := { d.fab with gsr := 0, wen := 0 } })) ∧
    Runs (.startupGsrrel) (rgn 9 [(CFG_STATUS_STATE, 0, csSTARTUP), (CFG_STARTUP_ORDER, 0, 0x540132)] id) ∧
    Runs (.startupWen) (rgn 9 [(CFG_STATUS_STATE, 0, csSTARTUP), (CFG_STARTUP_NEXT, 0, 3)] (fun d =>
      { d with fab := { d.fab with gsr := 65535, wen := 0 } })) ∧
    Runs (.startupWen) (rgn 9 [(CFG_STATUS_STATE, 0, csSTARTUP), (CFG_STARTUP_ORDER, 0, 0x540123)] id) :=
  ⟨(by refine runs ((h.1 _ ?_).1 ?_ ?_ ?_ ?_ ?_ ?_) <;> decide +kernel),
   (by refine runs ((h.1 _ ?_).2 15 ?_ ?_ ?_) <;> decide +kernel),
   (by refine runs ((h.1 _ ?_).2 0 ?_ ?_ ?_) <;> decide +kernel),
   runs ((h.2 _ (by decide +kernel)).1 (by decide +kernel)),
   runs ((h.2 _ (by decide +kernel)).2.1 (by decide +kernel) (by decide +kernel)),
   (by refine runs ((h.2 _ ?_).2.2.1 ?_ ?_ ?_) <;> decide +kernel),
   runs ((h.2 _ (by decide +kernel)).2.2.2.1 (by decide +kernel) (by decide +kernel)),
   runs ((h.2 _ (by decide +kernel)).2.2.2.2.1 (by decide +kernel)),
   runs ((h.2 _ (by decide +kernel)).2.2.2.2.2.1 (by decide +kernel)),
   runs ((h.2 _ (by decide +kernel)).2.2.2.2.2.1 (by decide +kernel)),
   runs ((h.2 _ (by decide +kernel)).2.2.2.2.2.2.1 (by decide +kernel)),
   runs ((h.2 _ (by decide +kernel)).2.2.2.2.2.2.1 (by decide +kernel))⟩

theorem test_meets_StartupSteps_2 (h : Obligations.StartupSteps) :
    Runs (.startupAnarel) (on [(CFG_STATUS_STATE, 0, csSTARTUP), (CFG_STARTUP_NEXT, 0, 4)] id) ∧
    Runs (.startupDone) (rgn 9 [(CFG_STATUS_STATE, 0, csSTARTUP), (CFG_STARTUP_NEXT, 0, 5), (RGN_STAT_STATE, 3, rsRUNNING)]
      id) :=
  ⟨runs ((h.2 _ (by decide +kernel)).2.2.2.2.2.2.2.1 (by decide +kernel)),
   runs ((h.2 _ (by decide +kernel)).2.2.2.2.2.2.2.2 (by decide +kernel))⟩

theorem test_meets_FrameChecks (h : Obligations.FrameChecks) :
    Runs (.scrubFrameCheck 0 0 false .clean 3) (rgn 9 [(SCB_CTRL_EN, 0, 1), (SCB_STAT_STATE, 0, 1), (SCB_POS_FRAME, 0,
      10238)] id) ∧
    Runs (.scrubFrameCheck (2 ^ 1023) 0 false .clean 0) (rgn 9 [(SCB_CTRL_EN, 0, 1), (SCB_STAT_STATE, 0, 1), (SCB_POS_FRAME,
      0, 5765)] id) ∧
    Runs (.scrubFrameCheck (2 ^ 0 + 2 ^ 1023) 0 false .clean 0) (rgn 9 [(SCB_CTRL_EN, 0, 1), (SCB_STAT_STATE, 0, 1),
      (SCB_POS_FRAME, 0, 5765), (SCB_STAT_CLEAN, 0, 1), (SCB_CTRL_DBEACT, 0, 0)] id) ∧
    Runs (.scrubFrameCheck 0 1024 false .clean 0) (rgn 9 [(SCB_CTRL_EN, 0, 1), (SCB_STAT_STATE, 0, 1), (SCB_POS_FRAME, 0,
      5765)] id) ∧
    Runs (.scrubFrameCheck (2 ^ 1023) 0 true .clean 0) (rgn 9 [(SCB_CTRL_EN, 0, 1), (SCB_STAT_STATE, 0, 1), (SCB_POS_FRAME,
      0, 5765), (SCB_STAT_CLEAN, 0, 1), (SCB_CTRL_DBEACT, 0, 1)] id) ∧
    Runs (.scrubFrameCheck (2 ^ 0 + 2 ^ 1023) 0 false .clean 0) (rgn 7 [(SYS_STATUS_PAIRED, 0, 1), (SCB_CTRL_EN, 0, 1),
      (SCB_STAT_STATE, 0, 1), (SCB_POS_FRAME, 0, 4485), (SCB_STAT_CLEAN, 0, 1)] id) :=
  ⟨(by refine runs ((h _ 10238 ?_ ?_ ?_ ?_ ?_ ?_ ?_ ?_ ?_).1 3) <;> decide +kernel),
   (by refine runs ((h _ 5765 ?_ ?_ ?_ ?_ ?_ ?_ ?_ ?_ ?_).2.1 1023 ?_) <;> decide +kernel),
   (by refine runs ((h _ 5765 ?_ ?_ ?_ ?_ ?_ ?_ ?_ ?_ ?_).2.2.2.1 0 1023 ?_ ?_ ?_ ?_) <;> decide +kernel),
   (by refine runs ((h _ 5765 ?_ ?_ ?_ ?_ ?_ ?_ ?_ ?_ ?_).2.2.1 1024 ?_ ?_) <;> decide +kernel),
   (by refine runs ((h _ 5765 ?_ ?_ ?_ ?_ ?_ ?_ ?_ ?_ ?_).2.2.2.2.1 1023 ?_ ?_ ?_ ?_ ?_) <;> decide +kernel),
   (by refine runs ((h _ 4485 ?_ ?_ ?_ ?_ ?_ ?_ ?_ ?_ ?_).2.2.2.2.2 0 1023 ?_ ?_ ?_) <;> decide +kernel)⟩

theorem test_meets_ScrubControl (h : Obligations.ScrubControl) :
    Runs (.scrubWatchdogMiss) (rgn 9 [(SCB_CTRL_EN, 0, 1), (SCB_STAT_STATE, 0, 1), (SCB_SWEEP_LIMIT_MS, 0, 100),
      (SCB_CTRL_ESCALATE, 0, 1)] (fun d => { d with scb := { d.scb with wdNow := some 1, misses := 1 } })) ∧
    Runs (.scrubWatchdogMiss) (rgn 9 [(SCB_CTRL_EN, 0, 1), (SCB_STAT_STATE, 0, 1), (SCB_SWEEP_LIMIT_MS, 0, 100),
      (SCB_CTRL_ESCALATE, 0, 1)] (fun d => { d with scb := { d.scb with wdNow := some 1 } })) ∧
    Runs (.scrubRestart .direct (word [(SCB_CTRL_EN, 1), (SCB_CTRL_RESTART, 1)])) (rgn 9 [(SCB_CTRL_EN, 0, 1),
      (SCB_STAT_STATE, 0, 1), (SCB_POS_FRAME, 0, 55)] id) ∧
    Runs (.scrubEnable .direct (word [(SCB_CTRL_EN, 1)])) (rgn 9 [(SCB_CTRL_EN, 0, 0), (SCB_STAT_STATE, 0, 0),
      (SCB_POS_FRAME, 0, 55)] id) ∧
    Runs (.scrubEnable .direct 0) (rgn 9 [(SCB_CTRL_EN, 0, 1), (SCB_STAT_STATE, 0, 1), (SCB_STAT_CLEAN, 0, 1)] id) ∧
    Runs (.scrubInject .kweave (word [(SCB_INJECT_FRAME, 10239), (SCB_INJECT_BIT, 1023), (SCB_INJECT_GO, 1)])) (rgn 9 [] (fun
      d => { d with kw := { d.kw with secure := true } })) ∧
    Runs (.scrubInject .kweave (word [(SCB_INJECT_FRAME, 10240), (SCB_INJECT_BIT, 0), (SCB_INJECT_GO, 1)])) (rgn 9 [] (fun d
      => { d with kw := { d.kw with secure := true } })) :=
  ⟨runs ((h _ .direct 0).1 1 (by decide +kernel) (by decide +kernel) (by decide +kernel)),
   runs ((h _ .direct 0).1 1 (by decide +kernel) (by decide +kernel) (by decide +kernel)),
   (by refine runs (((h _ .direct (word [(SCB_CTRL_EN, 1), (SCB_CTRL_RESTART, 1)])).2.1 (accepts ?_)).1 ?_ ?_ ?_) <;> decide +kernel),
   (by refine runs (((h _ .direct (word [(SCB_CTRL_EN, 1)])).2.1 (accepts ?_)).2.1 ?_ ?_ ?_ ?_ ?_) <;> decide +kernel),
   (by refine runs (((h _ .direct 0).2.1 (accepts ?_)).2.2 ?_ ?_ ?_ ?_) <;> decide +kernel),
   runs ((h _ .kweave (word [(SCB_INJECT_FRAME, 10239), (SCB_INJECT_BIT, 1023), (SCB_INJECT_GO, 1)])).2.2.1 (accepts
    (by decide +kernel)) (by decide +kernel) (by decide +kernel)),
   (by refine runs ((h _ .kweave (word [(SCB_INJECT_FRAME, 10240), (SCB_INJECT_BIT, 0), (SCB_INJECT_GO, 1)])).2.2.2 .CAC_CFG 0 (accepts ?_) ?_ ?_ ?_ ?_) <;> decide +kernel)⟩

theorem test_meets_Mailbox (h : Obligations.Mailbox) :
    Runs (.kweaveWordWrite .direct 1263992836#32) (on [(SYS_KWSTAT_READY, 0, 0)] id) ∧
    Runs (.kweaveWordWrite .direct 1263992836#32) (on [(SYS_KWSTAT_READY, 0, 1)] id) ∧
    Runs (.kweaveWordWrite .direct 1263927300#32) (on [(SYS_KWSTAT_READY, 0, 1)] id) ∧
    Runs (.kweaveWordWrite .direct (BitVec.ofNat 32 (crcWords [1263992836, 65537, 0]))) (on [(SYS_KWSTAT_READY, 0, 1)] (fun d
      => { d with kw := { d.kw with part := [0x4B570004, 0x10001, 0], partNow := 999999999 } })) ∧
    Runs (.kweaveWordWrite .direct 5) (on [(SYS_KWSTAT_READY, 0, 1)] (fun d =>
      { d with kw := { d.kw with part := [0x4B570004, 0x10001, 0], partNow := 999999999 } })) ∧
    Runs (.kweaveWordTimeout) (on [] (fun d => { d with kw := { d.kw with part := [0x4B570004, 0x10001], lastNow := 1 } })) ∧
    Runs (.kweaveReplyRead .direct) (on [] (fun d => { d with kw := { d.kw with out := [7, 8] } })) ∧
    Runs (.kweaveReplyRead .direct) (on [] id) ∧
    Runs (.kweaveResync .direct (word [(SYS_KWCTRL_RESYNC, 1)])) (on [] (fun d =>
      { d with kw := { d.kw with part := [0x4B570004] } })) ∧
    Runs (.kweaveFlush .direct (word [(SYS_KWCTRL_FLUSH, 1)])) (on [] (fun d =>
      { d with kw := { d.kw with out := [7, 8] } })) ∧
    Runs (.sessionTimeout) (on [] (fun d => { d with now := 20000000000, kw := { d.kw with secure := true, lastPkt := 1 } })) :=
  ⟨(by refine runs (((h _ .direct 0x4B570004#32).1 (accepts ?_) ?_ ?_ ?_ ?_).1 ?_) <;> decide +kernel),
   (by refine runs (((h _ .direct 0x4B570004#32).1 (accepts ?_) ?_ ?_ ?_ ?_).2.1 ?_ ?_ ?_) <;> decide +kernel),
   (by refine runs (((h _ .direct 0x4B560004#32).1 (accepts ?_) ?_ ?_ ?_ ?_).2.2.1 ?_ ?_ ?_) <;> decide +kernel),
   (by refine runs ((((h _ .direct (BitVec.ofNat 32 (crcWords [0x4B570004, 0x10001, 0]))).1 (accepts ?_) ?_ ?_ ?_ ?_).2.2.2 0x4B570004 0x10001 [0] ?_ ?_ ?_ ?_).1 ?_ ?_) <;> decide +kernel),
   (by refine runs ((((h _ .direct 5).1 (accepts ?_) ?_ ?_ ?_ ?_).2.2.2 0x4B570004 0x10001 [0] ?_ ?_ ?_ ?_).2 ?_ ?_) <;> decide +kernel),
   (by refine runs ((h _ .direct 5).2.1 ?_ ?_ ?_ ?_ ?_ ?_) <;> decide +kernel),
   (by refine runs (((h _ .direct 5).2.2.1 (serves ?_) ?_ ?_ ?_).1 7 [8] ?_) <;> decide +kernel),
   (by refine runs (((h _ .direct 5).2.2.1 (serves ?_) ?_ ?_ ?_).2 ?_) <;> decide +kernel),
   (by refine runs (((h _ .direct (word [(SYS_KWCTRL_RESYNC, 1)])).2.2.2.1 (accepts ?_) ?_).1 ?_ ?_) <;> decide +kernel),
   (by refine runs (((h _ .direct (word [(SYS_KWCTRL_FLUSH, 1)])).2.2.2.1 (accepts ?_) ?_).2 ?_ ?_ ?_ ?_) <;> decide +kernel),
   runs ((h _ .direct 5).2.2.2.2 (by decide +kernel))⟩

theorem test_meets_ReportPackets_1 (h : Obligations.ReportPackets) :
    Runs (.nop) (asking [] 0x000 []) ∧
    Runs (.getInfo) (asking [] 0x001 []) ∧
    Runs (.handleQuery) (asking [] 0x006 [4095]) ∧
    Runs (.echo) (asking [] 0x00A [1, 2, 3]) ∧
    Runs (.handleList) (asking [] 0x007 []) ∧
    Runs (.pwrStatus) (asking [] 0x102 []) ∧
    Runs (.cfgStatus) (asking [] 0x203 []) ∧
    Runs (.calPart) (asking [] 0x302 [255, 23]) ∧
    Runs (.calResult) (asking [] 0x303 [7]) ∧
    Runs (.calDue) (asking [] 0x304 []) ∧
    Runs (.ltgSnap) (asking [] 0x504 []) ∧
    Runs (.ltgStatus) (asking [] 0x506 [23]) :=
  ⟨runs ((h _ (pkt 0x000 [])).1 .nop _ _ _ _ (List.mem_of_getElem? (i := 0) rfl)
    (by unfold State.asks State.interprets; decide +kernel) (by decide +kernel)),
   runs ((h _ (pkt 0x001 [])).1 .getInfo _ _ _ _ (List.mem_of_getElem? (i := 1) rfl)
    (by unfold State.asks State.interprets; decide +kernel) (by decide +kernel)),
   runs ((h _ (pkt 0x006 [4095])).1 .handleQuery _ _ _ _ (List.mem_of_getElem? (i := 2) rfl)
    (by unfold State.asks State.interprets; decide +kernel) (by decide +kernel)),
   runs ((h _ (pkt 0x00A [1, 2, 3])).2 (by unfold State.interprets; decide +kernel) (by decide +kernel) (by decide +kernel)
    (by decide +kernel)),
   runs ((h _ (pkt 0x007 [])).1 .handleList _ _ _ _ (List.mem_of_getElem? (i := 3) rfl)
    (by unfold State.asks State.interprets; decide +kernel) (by decide +kernel)),
   runs ((h _ (pkt 0x102 [])).1 .pwrStatus _ _ _ _ (List.mem_of_getElem? (i := 4) rfl)
    (by unfold State.asks State.interprets; decide +kernel) (by decide +kernel)),
   runs ((h _ (pkt 0x203 [])).1 .cfgStatus _ _ _ _ (List.mem_of_getElem? (i := 5) rfl)
    (by unfold State.asks State.interprets; decide +kernel) (by decide +kernel)),
   runs ((h _ (pkt 0x302 [255, 23])).1 .calPart _ _ _ _ (List.mem_of_getElem? (i := 6) rfl)
    (by unfold State.asks State.interprets; decide +kernel) (by decide +kernel)),
   runs ((h _ (pkt 0x303 [7])).1 .calResult _ _ _ _ (List.mem_of_getElem? (i := 7) rfl)
    (by unfold State.asks State.interprets; decide +kernel) (by decide +kernel)),
   runs ((h _ (pkt 0x304 [])).1 .calDue _ _ _ _ (List.mem_of_getElem? (i := 8) rfl)
    (by unfold State.asks State.interprets; decide +kernel) (by decide +kernel)),
   runs ((h _ (pkt 0x504 [])).1 .ltgSnap _ _ _ _ (List.mem_of_getElem? (i := 9) rfl)
    (by unfold State.asks State.interprets; decide +kernel) (by decide +kernel)),
   runs ((h _ (pkt 0x506 [23])).1 .ltgStatus _ _ _ _ (List.mem_of_getElem? (i := 10) rfl)
    (by unfold State.asks State.interprets; decide +kernel) (by decide +kernel))⟩

theorem test_meets_ReportPackets_2 (h : Obligations.ReportPackets) :
    Runs (.zlkStatus) (asking [] 0x601 []) ∧
    Runs (.memStatus) (asking [] 0x702 [7]) ∧
    Runs (.evqStatus) (asking [] 0x801 []) ∧
    Runs (.telRead) (asking [] 0x900 []) ∧
    Runs (.telCounters) (asking [] 0x902 []) :=
  ⟨runs ((h _ (pkt 0x601 [])).1 .zlkStatus _ _ _ _ (List.mem_of_getElem? (i := 11) rfl)
    (by unfold State.asks State.interprets; decide +kernel) (by decide +kernel)),
   runs ((h _ (pkt 0x702 [7])).1 .memStatus _ _ _ _ (List.mem_of_getElem? (i := 12) rfl)
    (by unfold State.asks State.interprets; decide +kernel) (by decide +kernel)),
   runs ((h _ (pkt 0x801 [])).1 .evqStatus _ _ _ _ (List.mem_of_getElem? (i := 13) rfl)
    (by unfold State.asks State.interprets; decide +kernel) (by decide +kernel)),
   runs ((h _ (pkt 0x900 [])).1 .telRead _ _ _ _ (List.mem_of_getElem? (i := 14) rfl)
    (by unfold State.asks State.interprets; decide +kernel) (by decide +kernel)),
   runs ((h _ (pkt 0x902 [])).1 .telCounters _ _ _ _ (List.mem_of_getElem? (i := 15) rfl)
    (by unfold State.asks State.interprets; decide +kernel) (by decide +kernel))⟩

theorem test_meets_SessionPackets (h : Obligations.SessionPackets) :
    Runs (.softReset) (asking [] 0x002 [0xA55A]) ∧
    Runs (.softReset) (asking [] 0x002 [0xA55B]) ∧
    Runs (.sessionUnlock) (let s := asking [] 0x003 [5, 6];
      { s with dev := { s.dev with fuses := { s.dev.fuses with unlock := some 0x600000005 } } }) ∧
    Runs (.sessionUnlock) (let s := asking [] 0x003 [4, 6];
      { s with dev := { s.dev with fuses := { s.dev.fuses with unlock := some 0x600000005 }, kw := { s.dev.kw with fails := 15 } } }) ∧
    Runs (.sessionLock) (asking [] 0x004 []) ∧
    Runs (.abort) (asking [] 0x005 [4095]) ∧
    Runs (.abort) (let s := asking [] 0x005 [1];
      { s with dev := { s.dev with kw := { s.dev.kw with handles := [⟨1, 0x701, true, 5⟩] } } }) ∧
    Runs (.abort) (let s := asking [] 0x005 [1];
      { s with dev := { s.dev with kw := { s.dev.kw with handles := [⟨1, 0x701, false, 5⟩] }, bank := { s.dev.bank with fills := [⟨1, 7, 100, 50, 9, false⟩] } } }) ∧
    Runs (.keyLoad) (let s := asking [] 0x008 [1, 2, 3, 4, 5, 6, 7, 8];
      { s with dev := { s.dev with kw := { s.dev.kw with secure := true } } }) ∧
    Runs (.keyLoad) (asking [] 0x008 [1, 2, 3, 4, 5, 6, 7, 8]) ∧
    Runs (.keyZero) (let s := asking [(CFG_FUSE_BKEY, 0, 1)] 0x009 [];
      { s with dev := { s.dev with kw := { s.dev.kw with secure := true }, cfg := { s.dev.cfg with bbrKey := [1, 2] } } }) ∧
    Runs (.keyZero) (asking [] 0x009 []) :=
  ⟨runs (((h _ (pkt 0x002 [0xA55A])).1 (by unfold State.asks State.interprets; decide +kernel)).1 (by decide +kernel)),
   runs (((h _ (pkt 0x002 [0xA55B])).1 (by unfold State.asks State.interprets; decide +kernel)).2 (by decide +kernel)
    (by decide +kernel)),
   (by refine runs (((h _ (pkt 0x003 [5, 6])).2.1 0x600000005 (by unfold State.asks State.interprets; decide +kernel) ?_ ?_ ?_).1 ?_) <;> decide +kernel),
   (by refine runs (((h _ (pkt 0x003 [4, 6])).2.1 0x600000005 (by unfold State.asks State.interprets; decide +kernel) ?_ ?_ ?_).2 ?_) <;> decide +kernel),
   runs ((h _ (pkt 0x004 [])).2.2.1 (by unfold State.asks State.interprets; decide +kernel)),
   runs (((h _ (pkt 0x005 [4095])).2.2.2.1 (by unfold State.asks State.interprets; decide +kernel) (by decide +kernel)
    (by decide +kernel)).1 (by decide +kernel)),
   (by refine runs (((h _ (pkt 0x005 [1])).2.2.2.1 (by unfold State.asks State.interprets; decide +kernel) ?_ ?_).2.1 ⟨1, 0x701, true, 5⟩ ?_ ?_) <;> decide +kernel),
   (by refine runs (((h _ (pkt 0x005 [1])).2.2.2.1 (by unfold State.asks State.interprets; decide +kernel) ?_ ?_).2.2 ⟨1, 0x701, false, 5⟩ ⟨1, 7, 100, 50, 9, false⟩ ?_ ?_ ?_ ?_ ?_ ?_ ?_) <;> decide +kernel),
   runs (((h _ (pkt 0x008 [1, 2, 3, 4, 5, 6, 7, 8])).2.2.2.2.1 (by unfold State.asks State.interprets; decide +kernel)
    (by decide +kernel)).1 (by decide +kernel)),
   runs (((h _ (pkt 0x008 [1, 2, 3, 4, 5, 6, 7, 8])).2.2.2.2.1 (by unfold State.asks State.interprets; decide +kernel)
    (by decide +kernel)).2 (by decide +kernel)),
   runs (((h _ (pkt 0x009 [])).2.2.2.2.2 (by unfold State.asks State.interprets; decide +kernel)).1 (by decide +kernel)),
   runs (((h _ (pkt 0x009 [])).2.2.2.2.2 (by unfold State.asks State.interprets; decide +kernel)).2 (by decide +kernel))⟩

theorem test_meets_TimingPackets (h : Obligations.TimingPackets) :
    Runs (.ltgArm) (asking [(LTG_CTRL_SRC, 23, 4)] 0x500 [2 ^ 23]) ∧
    Runs (.ltgArm) (asking [(LTG_CTRL_SRC, 5, 0)] 0x500 [32]) ∧
    Runs (.ltgDisarm) (asking [(LTG_CTRL_SRC, 23, 4), (LTG_CTRL_ARM, 23, 1)] 0x501 [2 ^ 23]) ∧
    Runs (.ltgPosload) (asking [] 0x502 [7, 0xFFFFFFFF, 0xFFFF]) ∧
    Runs (.ltgSwtrig) (asking [(LTG_CTRL_SRC, 0, 4), (LTG_CTRL_ARM, 0, 1)] 0x503 [1]) ∧
    Runs (.ltgSwtrig) (asking [(LTG_CTRL_SRC, 0, 1), (LTG_CTRL_ARM, 0, 1)] 0x503 [1]) ∧
    Runs (.ltgTbload) (asking [] 0x505 [5, 6]) ∧
    Runs (.ltgTbload) (asking [(LTG_CTRL_ARM, 9, 1)] 0x505 [5, 6]) ∧
    Runs (.evqConfig) (asking [] 0x800 [1024]) ∧
    Runs (.telConfig) (asking [] 0x901 [3600, 15]) :=
  ⟨(by refine runs (((h _ (pkt 0x500 [2 ^ 23]) 23 ?_).1 (by unfold State.asks State.interprets; decide +kernel) ?_ ?_).1 ?_) <;> decide +kernel),
   (by refine runs (((h _ (pkt 0x500 [32]) 5 ?_).1 (by unfold State.asks State.interprets; decide +kernel) ?_ ?_).2 ?_) <;> decide +kernel),
   runs ((h _ (pkt 0x501 [2 ^ 23]) 23 (by decide +kernel)).2.1 (by unfold State.asks State.interprets; decide +kernel)
    (by decide +kernel) (by decide +kernel)),
   (by refine runs ((h _ (pkt 0x502 [7, 0xFFFFFFFF, 0xFFFF]) 0 ?_).2.2.1 (by unfold State.asks State.interprets; decide +kernel) ?_ ?_ ?_) <;> decide +kernel),
   (by refine runs (((h _ (pkt 0x503 [1]) 0 ?_).2.2.2.1 (by unfold State.asks State.interprets; decide +kernel) ?_).1 ?_ ?_ (ready ?_)) <;> decide +kernel),
   runs (((h _ (pkt 0x503 [1]) 0 (by decide +kernel)).2.2.2.1 (by unfold State.asks State.interprets; decide +kernel)
    (by decide +kernel)).2 (.inr (by decide +kernel))),
   runs (((h _ (pkt 0x505 [5, 6]) 0 (by decide +kernel)).2.2.2.2.1 (by unfold State.asks State.interprets; decide +kernel)).1
    (by decide +kernel)),
   runs (((h _ (pkt 0x505 [5, 6]) 0 (by decide +kernel)).2.2.2.2.1 (by unfold State.asks State.interprets; decide +kernel)).2
    (by decide +kernel)),
   (by refine runs ((h _ (pkt 0x800 [1024]) 0 ?_).2.2.2.2.2.1 (by unfold State.asks State.interprets; decide +kernel) ?_ ?_ ?_ ?_) <;> decide +kernel),
   runs ((h _ (pkt 0x901 [3600, 15]) 0 (by decide +kernel)).2.2.2.2.2.2
    (by unfold State.asks State.interprets; decide +kernel) (by decide +kernel) (by decide +kernel))⟩

theorem test_meets_RegisterPackets (h : Obligations.RegisterPackets) :
    Runs (.regRead []) (asking [] 0x400 [1, regAddr .ENC_FILT 7]) ∧
    Runs (.regReadblock []) (asking [] 0x403 [regAddr .ENC_POS 7, 1, 4]) ∧
    Runs (.regWrite []) (asking [] 0x401 [1, regAddr .ENC_STALL 7, 5000]) ∧
    Runs (.regWrite []) (on [] (fun d =>
      { d with kw := { d.kw with cur := some ([0x4B570007, 0x401, 1, 1, regAddr .ENC_STALL 7, 5000, 0]) } })) ∧
    Runs (.regWrite []) (asking [] 0x401 [2, regAddr .ENC_STALL 7, 5000, 3, 4]) ∧
    Runs (.regWriteblock []) (asking [] 0x404 [regAddr .ENC_STALL 0, 4, 5000]) ∧
    Runs (.regMaskwrite []) (asking [] 0x402 [1, regAddr .MEM_WGT 7, 15, 9]) :=
  ⟨(by refine runs (((h _ (pkt 0x400 [1, regAddr .ENC_FILT 7]) .ENC_FILT 7 []).1 (serves ?_) ?_).1 (by unfold State.asks State.interprets; decide +kernel) ?_ ?_) <;> decide +kernel),
   (by refine runs (((h _ (pkt 0x403 [regAddr .ENC_POS 7, 1, 4]) .ENC_POS 7 []).1 (serves ?_) ?_).2 (by unfold State.asks State.interprets; decide +kernel) ?_ ?_ (.inr ?_)) <;> decide +kernel),
   (by refine runs (((h _ (pkt 0x401 [1, regAddr .ENC_STALL 7, 5000]) .ENC_STALL 7 []).2.1 5000 (accepts ?_) ?_ ?_).1 (by unfold State.asks State.interprets; decide +kernel) ?_ ?_ ?_) <;> decide +kernel),
   (by refine runs (((h _ [0x4B570007, 0x401, 1, 1, regAddr .ENC_STALL 7, 5000, 0] .ENC_STALL 7 []).2.1 5000 (accepts ?_) ?_ ?_).2.1 (by unfold State.interprets; decide +kernel) ?_ ?_ ?_ ?_ ?_) <;> decide +kernel),
   (by refine runs (((h _ (pkt 0x401 [2, regAddr .ENC_STALL 7, 5000, 3, 4]) .ENC_STALL 7 []).2.1 5000 (accepts ?_) ?_ ?_).2.2.1 (by unfold State.asks State.interprets; decide +kernel) ?_ ?_ ?_ ?_) <;> decide +kernel),
   (by refine runs (((h _ (pkt 0x404 [regAddr .ENC_STALL 0, 4, 5000]) .ENC_STALL 0 []).2.1 5000 (accepts ?_) ?_ ?_).2.2.2 (by unfold State.asks State.interprets; decide +kernel) ?_ (.inr ?_) ?_) <;> decide +kernel),
   (by refine runs ((h _ (pkt 0x402 [1, regAddr .MEM_WGT 7, 15, 9]) .SYS_DEVID 0 []).2.2 7 9 ?_ ?_ ?_ ?_ (accepts ?_) (by unfold State.asks State.interprets; decide +kernel) ?_ ?_ ?_ ?_) <;> decide +kernel)⟩

theorem test_meets_LongOperations_1 (h : Obligations.LongOperations) :
    Runs (.pwrState) (asking [(CFG_STATUS_STATE, 0, csDONE)] 0x100 [2]) ∧
    Runs (.pwrState) (asking [] 0x100 [1]) ∧
    Runs (.pwrDomains) (asking [] 0x101 [0x7FF80]) ∧
    Runs (.cfgProgram) (asking [] 0x200 []) ∧
    Runs (.cfgGolden) (asking [] 0x202 []) ∧
    Runs (.cfgPartial) (asking [(CFG_STATUS_STATE, 0, csDONE)] 0x201 []) ∧
    Runs (.cfgPartial) (asking [] 0x201 []) ∧
    Runs (.calRun) (asking [(CAL_CTRL_TRIG, 0, 0)] 0x300 [0, 1, 0, 0, 0]) ∧
    Runs (.calRun) (let s := asking [] 0x300 [0, 1, 0, 0, 0];
      { s with dev := { s.dev with cal := { s.dev.cal with cmds := [⟨9, 0, [0], none, 0, 0⟩] } } }) ∧
    Runs (.calStore) (asking [] 0x301 []) ∧
    Runs (.calStore) (let s := asking [] 0x301 [];
      { s with dev := { s.dev with cal := { s.dev.cal with store := some ⟨1, 1, .reset, [], false⟩ } } }) ∧
    Runs (.zlkStart) (asking [(ZLK_CTRL_EN, 0, 1)] 0x600 []) :=
  ⟨(by refine runs (((h _ (pkt 0x100 [2]) ?_).1 (by unfold State.asks State.interprets; decide +kernel) ?_).1 ?_ ?_) <;> decide +kernel),
   (by refine runs (((h _ (pkt 0x100 [1]) ?_).1 (by unfold State.asks State.interprets; decide +kernel) ?_).2.1 ?_ ?_) <;> decide +kernel),
   runs ((h _ (pkt 0x101 [0x7FF80]) (by decide +kernel)).2.1 (by unfold State.asks State.interprets; decide +kernel)
    (by decide +kernel) (by decide +kernel)),
   runs ((h _ (pkt 0x200 []) (by decide +kernel)).2.2.1 (by unfold State.asks State.interprets; decide +kernel)),
   runs ((h _ (pkt 0x202 []) (by decide +kernel)).2.2.2.1 (by unfold State.asks State.interprets; decide +kernel)),
   runs (((h _ (pkt 0x201 []) (by decide +kernel)).2.2.2.2.1 (by unfold State.asks State.interprets; decide +kernel)).1
    (by decide +kernel)),
   runs (((h _ (pkt 0x201 []) (by decide +kernel)).2.2.2.2.1 (by unfold State.asks State.interprets; decide +kernel)).2
    stBAD_STATE (by decide +kernel)),
   (by refine runs (((h _ (pkt 0x300 [0, 1, 0, 0, 0]) ?_).2.2.2.2.2.1 (by unfold State.asks State.interprets; decide +kernel) ?_ ?_ ?_ ?_ ?_).1 ?_ (by unfold Dev.calIdle; decide +kernel)) <;> decide +kernel),
   (by refine runs (((h _ (pkt 0x300 [0, 1, 0, 0, 0]) ?_).2.2.2.2.2.1 (by unfold State.asks State.interprets; decide +kernel) ?_ ?_ ?_ ?_ ?_).2 stBUSY 0 ?_ ?_) <;> decide +kernel),
   (by refine runs (((h _ (pkt 0x301 []) ?_).2.2.2.2.2.2.1 (by unfold State.asks State.interprets; decide +kernel)).2 0 ?_ ?_ ?_ ?_) <;> decide +kernel),
   runs (((h _ (pkt 0x301 []) (by decide +kernel)).2.2.2.2.2.2.1 (by unfold State.asks State.interprets; decide +kernel)).1
    (by decide +kernel)),
   runs (((h _ (pkt 0x600 []) (by decide +kernel)).2.2.2.2.2.2.2.1 (by unfold State.asks State.interprets; decide +kernel)).1
    (by decide +kernel) (by decide +kernel))⟩

theorem test_meets_LongOperations_2 (h : Obligations.LongOperations) :
    Runs (.zlkStart) (asking [] 0x600 []) ∧
    Runs (.zlkStart) (let s := asking [(ZLK_CTRL_EN, 0, 1)] 0x600 [];
      { s with dev := { s.dev with zlk := { s.dev.zlk with startReq := true } } }) ∧
    Runs (.memMarch) (asking [] 0x700 [128, 0]) ∧
    Runs (.memMarch) (asking [] 0x700 [1, 1]) ∧
    Runs (.memMarch) (asking [(MEM_BSTAT_STATE, 7, 1)] 0x700 [128, 1]) ∧
    Runs (.memFill) (asking [] 0x701 [7, 131071, 1, 5, 6]) ∧
    Runs (.memFill) (asking [(PWR_DOMEN_MEM, 0, 0)] 0x701 [7, 0, 131072, 5, 6]) ∧
    Runs (.pwrState) (asking [] 0x100 [2]) :=
  ⟨runs (((h _ (pkt 0x600 []) (by decide +kernel)).2.2.2.2.2.2.2.1 (by unfold State.asks State.interprets; decide +kernel)).2.1
    (by decide +kernel)),
   runs (((h _ (pkt 0x600 []) (by decide +kernel)).2.2.2.2.2.2.2.1
    (by unfold State.asks State.interprets; decide +kernel)).2.2 (by decide +kernel) (by decide +kernel)),
   (by refine runs (((h _ (pkt 0x700 [128, 0]) ?_).2.2.2.2.2.2.2.2.1 7 ?_ (by unfold State.asks State.interprets; decide +kernel) ?_ ?_).1 ?_) <;> decide +kernel),
   (by refine runs (((h _ (pkt 0x700 [1, 1]) ?_).2.2.2.2.2.2.2.2.1 0 ?_ (by unfold State.asks State.interprets; decide +kernel) ?_ ?_).1 ?_) <;> decide +kernel),
   (by refine runs (((h _ (pkt 0x700 [128, 1]) ?_).2.2.2.2.2.2.2.2.1 7 ?_ (by unfold State.asks State.interprets; decide +kernel) ?_ ?_).2 stBUSY ?_) <;> decide +kernel),
   (by refine runs (((h _ (pkt 0x701 [7, 131071, 1, 5, 6]) ?_).2.2.2.2.2.2.2.2.2 (by unfold State.asks State.interprets; decide +kernel) ?_ ?_ ?_ ?_).1 ?_) <;> decide +kernel),
   (by refine runs (((h _ (pkt 0x701 [7, 0, 131072, 5, 6]) ?_).2.2.2.2.2.2.2.2.2 (by unfold State.asks State.interprets; decide +kernel) ?_ ?_ ?_ ?_).2 ?_) <;> decide +kernel),
   (by refine runs (((h _ (pkt 0x100 [2]) ?_).1 (by unfold State.asks State.interprets; decide +kernel) ?_).2.2 stBAD_STATE ?_ ?_ ?_) <;> decide +kernel)⟩

theorem test_meets_EventQueue (h : Obligations.EventQueue) :
    Runs (.eventRecordWrite 341) (on [(EVQ_CTRL_HOSTSLEEP, 0, 1), (EVQ_HEAD_HEAD, 0, 2047), (EVQ_TAIL_TAIL, 0, 2046),
      (EVQ_STAT_SEQ, 0, 255)] (fun d => { d with evq := { d.evq with inFlight := [⟨.edge, 0x155, true, false, 9, 77⟩] } })) ∧
    Runs (.eventRecordWrite 341) (on [(EVQ_HEAD_HEAD, 0, 1024)] (fun d =>
      { d with evq := { d.evq with inFlight := [⟨.edge, 0x155, true, false, 9, 77⟩] } })) ∧
    Runs (.evqTailWrite .direct (word [(EVQ_TAIL_TAIL, 20)])) (on [(EVQ_HEAD_HEAD, 0, 20)] id) ∧
    Runs (.evqHostsleepWrite .direct (word [(EVQ_CTRL_HOSTSLEEP, 1)])) (on [(EVQ_HEAD_HEAD, 0, 20)] id) ∧
    Runs (.levelRevoke) (on [(EVQ_HEAD_HEAD, 0, 20)] (fun d => { d with evq := { d.evq with revoke := [⟨7, 0x155⟩] } })) ∧
    Runs (.levelRevoke) (on [(EVQ_HEAD_HEAD, 0, 20), (EVQ_TAIL_TAIL, 0, 8)] (fun d =>
      { d with evq := { d.evq with revoke := [⟨7, 0x155⟩] } })) ∧
    Runs (.telemetryPeriod) (on [] (fun d =>
      { d with kw := { d.kw with telPeriod := 1000000000, telNext := 1000000000, telContent := 4 } })) :=
  ⟨(by refine runs (((h _ .direct 5).1 0x155 ⟨.edge, 0x155, true, false, 9, 77⟩ ?_ ?_ ?_ ?_).1 ?_ ?_ ?_) <;> decide +kernel),
   (by refine runs (((h _ .direct 5).1 0x155 ⟨.edge, 0x155, true, false, 9, 77⟩ ?_ ?_ ?_ ?_).2 ?_) <;> decide +kernel),
   runs ((h _ .direct (word [(EVQ_TAIL_TAIL, 20)])).2.1 (accepts (by decide +kernel)) (by decide +kernel)),
   runs ((h _ .direct (word [(EVQ_CTRL_HOSTSLEEP, 1)])).2.2.1 (accepts (by decide +kernel))),
   runs (((h _ .direct 0).2.2.2.1 ⟨7, 0x155⟩ [] (by decide +kernel) (by decide +kernel)).2 (by decide +kernel)),
   runs (((h _ .direct 0).2.2.2.1 ⟨7, 0x155⟩ [] (by decide +kernel) (by decide +kernel)).1 (by decide +kernel)),
   (by refine runs ((h _ .direct 0).2.2.2.2 ?_ ?_ ?_ ?_ ?_ ?_ ?_) <;> decide +kernel)⟩

theorem test_meets_PinsAndTwoWire (h : Obligations.PinsAndTwoWire) :
    Runs (.gpioCfgWrite .direct 63 (word [(GPIO_CFG_FUNC, 1), (GPIO_CFG_SEL, 0)])) (cfgd [] (fun d =>
      { d with gpio := { d.gpio with released := true } })) ∧
    Runs (.gpioClaimChange 5) (on [(GPIO_CFG_FUNC, 5, 1)] (fun d => { d with gpio := { d.gpio with released := true } })) ∧
    Runs (.gpioMaskedWrite .direct false 3 2147581953#32) (on [] id) ∧
    Runs (.gpioMaskedWrite .direct true 0 4294923605#32) (on [] id) ∧
    Runs (.twowireGo .direct 23 (word [(HCP_TWCMD_GO, 1), (HCP_TWCMD_ADDR, 127), (HCP_TWCMD_RLEN, 1)])) (on [(HCP_TWCFG_EN,
      23, 1), (HCP_CTRL_EN, 23, 1)] id) ∧
    Runs (.twowireDone 23 .done 2 [255]) (on [(HCP_TWSTAT_BUSY, 23, 1), (HCP_TWCMD_RLEN, 23, 1)] id) ∧
    Runs (.twowireDone 23 .nack 2 [255]) (on [(HCP_TWSTAT_BUSY, 23, 1), (HCP_TWCMD_RLEN, 23, 1)] id) ∧
    Runs (.twowireDone 0 .stuck 2 [255]) (on [(HCP_TWSTAT_BUSY, 0, 1), (HCP_TWCMD_RLEN, 0, 1)] id) ∧
    Runs (.twowireTimeout 0 16) (on [(HCP_TWSTAT_BUSY, 0, 1)] id) ∧
    Runs (.twowireDone 23 .done 2 [5]) (on [(HCP_TWSTAT_BUSY, 23, 1), (HCP_TWCMD_RLEN, 23, 1), (HCP_TWCFG_GAPONLY, 23, 1)]
      (fun d => d.setHcp 23 { d.getHcp 23 with grid := some (1, 1), readTo := 1000000000000000000 })) :=
  ⟨runs ((h _ .direct 63 (word [(GPIO_CFG_FUNC, 1), (GPIO_CFG_SEL, 0)]) (by decide +kernel)).1 (accepts (by decide +kernel))),
   (by refine runs ((h _ .direct 5 0 ?_).2.1 0 false ?_ ?_ ?_) <;> decide +kernel),
   (by refine runs ((h _ .direct 0 0x80018001#32 ?_).2.2.1 false 3 ?_ (accepts ?_) ?_) <;> decide +kernel),
   (by refine runs ((h _ .direct 0 0xFFFF5555#32 ?_).2.2.1 true 0 ?_ (accepts ?_) ?_) <;> decide +kernel),
   (by refine runs ((h _ .direct 0 (word [(HCP_TWCMD_GO, 1), (HCP_TWCMD_ADDR, 127), (HCP_TWCMD_RLEN, 1)]) ?_).2.2.2.1 23 ?_ (accepts ?_) ?_ ?_) <;> decide +kernel),
   (by refine runs (((h _ .direct 0 0 ?_).2.2.2.2.2 23 2 ?_ ?_ ?_ ?_).1 .done 255 ?_) <;> decide +kernel),
   (by refine runs (((h _ .direct 0 0 ?_).2.2.2.2.2 23 2 ?_ ?_ ?_ ?_).1 .nack 255 ?_) <;> decide +kernel),
   (by refine runs (((h _ .direct 0 0 ?_).2.2.2.2.2 0 2 ?_ ?_ ?_ ?_).1 .stuck 255 ?_) <;> decide +kernel),
   (by refine runs (((h _ .direct 0 0 ?_).2.2.2.2.2 0 16 ?_ ?_ ?_ ?_).2) <;> decide +kernel),
   (by refine runs (((h _ .direct 0 0 ?_).2.2.2.2.1 23 .done 2 [5] ?_ ?_ ?_).1) <;> decide +kernel)⟩

theorem test_meets_LanePackets (h : Obligations.LanePackets) :
    Runs (.lanePacketStore 69) (on [(LAN_STAT_STATE, 11, lsRUN)] (fun d =>
      { d with pcu := { d.pcu with outs := [{ outLine with lane := some 11, region := none }] } })) ∧
    Runs (.lanePacketStore 69) (on [] (fun d =>
      { d with pcu := { d.pcu with outs := [{ outLine with lane := some 0, region := none }] } })) ∧
    Runs (.lanePacketStore 69) (on [(LAN_STAT_STATE, 11, lsRUN)] (fun d =>
      { d with pcu := { d.pcu with outs := [{ outLine with lane := some 11, region := none }] }, lan := { d.lan with lanes := [(11, { Lane.reset with fifo := List.replicate 2 ⟨69, 1, 5, 3, 0, 0, 0, List.replicate 32768 0⟩ })] } })) ∧
    Runs (.lanePacketStore 63) (rgn 15 [(LAN_STAT_STATE, 3, lsRUN), (LAN_SOMAP_EN 3, 15, 1), (LAN_SOMAP_LANE 3, 15, 3)] (fun
      d => { d with fab := { d.fab with lines := [{ fabLine 15 3 7 with verdict := true }] } })) ∧
    Runs (.freePacketTimeout 15 0) (rgn 15 [] (fun d =>
      { d with fab := { d.fab with frames := [(10224, 15 * 2 ^ 56)], so := [(60, { SoPort.reset with words := [5, 6], firstNow := 999990000 })] } })) ∧
    Runs (.lanePacketSend 11) (on [(LAN_STAT_STATE, 11, lsRUN), (LAN_CTRL_EN, 11, 1)] (fun d =>
      { d with lan := { d.lan with lanes := [(11, { Lane.reset with fifo := [⟨69, 1, 5, 3, 0, 0, 0, [1, 2, 3]⟩] })] } })) :=
  ⟨(by refine runs (((h _).1 69 11 _ ?_ (.inl ⟨{ outLine with lane := some 11, region := none }, ?_, ?_, ?_, rfl⟩) ?_).1 ?_ ?_ ?_) <;> decide +kernel),
   (by refine runs (((h _).1 69 0 _ ?_ (.inl ⟨{ outLine with lane := some 0, region := none }, ?_, ?_, ?_, rfl⟩) ?_).2.1 ?_) <;> decide +kernel),
   (by refine runs (((h _).1 69 11 _ ?_ (.inl ⟨{ outLine with lane := some 11, region := none }, ?_, ?_, ?_, rfl⟩) ?_).2.2 ?_ ?_ ?_) <;> decide +kernel),
   (by refine runs (((h _).1 63 3 _ ?_ (.inr ⟨{ fabLine 15 3 7 with verdict := true }, ?_, ?_, ?_, ?_, ?_, ?_, rfl⟩) ?_).1 ?_ ?_ ?_) <;> decide +kernel),
   (by refine runs ((h _).2.1 15 0 ?_ ?_ ?_ ?_ ?_ ?_) <;> decide +kernel),
   (by refine runs ((h _).2.2 11 ⟨69, 1, 5, 3, 0, 0, 0, [1, 2, 3]⟩ [] ?_ ?_ ?_ ?_ ?_ ?_ ?_) <;> decide +kernel)⟩

theorem test_meets_LaneStates (h : Obligations.LaneStates) :
    Runs (.laneFlowBlock 1 4095) (on [(LAN_RXCFG_EN1, 0, 1)] id) ∧
    Runs (.returnPairIdle 0) (on [(LAN_RXCFG_EN0, 0, 1)] (fun d => { d with lan := { d.lan with rxMask := [(0, 5)] } })) ∧
    Runs (.laneRxLost 0) (on [(LAN_RXCFG_EN0, 0, 1), (LAN_RXSTAT_VALID0, 0, 1), (LAN_RXSTAT_XOFF, 0, 5), (LAN_STAT_XOFF, 0,
      1)] (fun d => { d with lan := { d.lan with rxMask := [(0, 5)] } })) ∧
    Runs (.laneEnable .direct 11 (word [(LAN_CTRL_EN, 1)])) (on [(LAN_QSTAT_LOCK, 2, 1), (LAN_STAT_STATE, 11, lsIDLE)] (fun d
      => { d with gpio := { d.gpio with released := true } })) ∧
    Runs (.laneEnable .direct 11 0) (on [(LAN_CTRL_EN, 11, 1), (LAN_STAT_STATE, 11, lsRUN)] (fun d =>
      { d with gpio := { d.gpio with released := true }, lan := { d.lan with lanes := [(11, { Lane.reset with fifo := [⟨69, 1, 5, 3, 0, 0, 0, [1, 2, 3]⟩] })] } })) ∧
    Runs (.laneTrainDone 0) (on [(LAN_STAT_STATE, 0, lsTRAIN)] id) ∧
    Runs (.quadLock 2) (on [(LAN_CTRL_EN, 11, 1)] (fun d => { d with gpio := { d.gpio with released := true } })) ∧
    Runs (.laneEnable .direct 11 0) (on [(LAN_CTRL_EN, 11, 1), (LAN_QSTAT_LOCK, 2, 1), (LAN_STAT_STATE, 11, lsRUN)] (fun d =>
      { d with gpio := { d.gpio with released := true }, lan := { d.lan with lanes := [(11, { Lane.reset with wireTo := 1000000001 })] } })) :=
  ⟨(by refine runs (((h _).1 1 ?_ ?_ ?_ ?_).1 0xFFF ?_) <;> decide +kernel),
   (by refine runs (((h _).1 0 ?_ ?_ ?_ ?_).2.1 ?_) <;> decide +kernel),
   (by refine runs (((h _).1 0 ?_ ?_ ?_ ?_).2.2 ?_ ?_) <;> decide +kernel),
   (by refine runs (((h _).2.1 .direct 11 (word [(LAN_CTRL_EN, 1)]) ?_ (accepts ?_) ?_ ?_).1 ?_ ?_ ?_ ?_) <;> decide +kernel),
   (by refine runs (((h _).2.1 .direct 11 0 ?_ (accepts ?_) ?_ ?_).2.2 ?_ ?_ ?_) <;> decide +kernel),
   (by refine runs ((h _).2.2.1 0 ?_ ?_ ?_ ?_) <;> decide +kernel),
   runs ((h _).2.2.2 2 (by decide +kernel) (by decide +kernel)),
   (by refine runs (((h _).2.1 .direct 11 0 ?_ (accepts ?_) ?_ ?_).2.1 ?_ ?_ ?_ ?_ ?_) <;> decide +kernel)⟩

theorem test_meets_RegisterAccesses (h : Obligations.RegisterAccesses) :
    Runs (.registerWrite (.spi 2 (BitVec.ofNat 32 (regAddr .ENC_STALL 7)) 0) 5000) (on [] id) ∧
    Runs (.registerWrite (.spi 50 4099 0) 5) (on [] id) ∧
    Runs (.registerWrite (.spi 2 4294967292 0) 5) (on [] id) ∧
    Runs (.registerWrite (.spi 2 (BitVec.ofNat 32 (regAddr .LAN_CTRL 11)) 0) 5) (on [(PWR_DOMEN_SER, 0, 3)] id) ∧
    Runs (.registerWrite (.spi 2 (BitVec.ofNat 32 (regAddr .SCB_INJECT 0)) 0) 4294967295#32) (on [] id) ∧
    Runs (.registerWrite (.spi 2 (BitVec.ofNat 32 (regAddr .SCB_INJECT 0)) 0) 2147483648#32) (on [] id) :=
  ⟨runs (h.1 _ (.spi 0x02 (BitVec.ofNat 32 (regAddr .ENC_STALL 7)) 0) .ENC_STALL 7 5000 (by decide +kernel) (accepts
    (by decide +kernel)) (by decide +kernel)),
   (by refine runs (h.2 _ (.spi 0x32 0x1003 0) 0x1003 5 ?_ (takes ?_) ?_ ?_ 2 (.inl ?_)) <;> decide +kernel),
   (by refine runs (h.2 _ (.spi 0x02 0xFFFFFFFC 0) 0xFFFFFFFC 5 ?_ (takes ?_) ?_ ?_ 1 (.inr (.inl ?_))) <;> decide +kernel),
   (by refine runs (h.2 _ (.spi 0x02 (BitVec.ofNat 32 (regAddr .LAN_CTRL 11)) 0) _ 5 ?_ (takes ?_) ?_ ?_ 5 (.inr (.inr (.inl ⟨.LAN_CTRL, 11, ?_, rfl, ?_, rfl⟩)))) <;> decide +kernel),
   (by refine runs (h.2 _ (.spi 0x02 (BitVec.ofNat 32 (regAddr .SCB_INJECT 0)) 0) _ 0xFFFFFFFF#32 ?_ (takes ?_) ?_ ?_ 3 (.inr (.inr (.inr (.inl ⟨.SCB_INJECT, 0, ⟨.value, stBAD_PARAM, 0⟩, ?_, rfl, ?_, ?_, ?_, ?_, .inl ?_⟩))))) <;> decide +kernel),
   (by refine runs (h.2 _ (.spi 0x02 (BitVec.ofNat 32 (regAddr .SCB_INJECT 0)) 0) _ 0x80000000#32 ?_ (takes ?_) ?_ ?_ 4 (.inr (.inr (.inr (.inl ⟨.SCB_INJECT, 0, ⟨.state, stNOT_SECURE, 0⟩, ?_, rfl, ?_, ?_, ?_, ?_, .inr ?_⟩))))) <;> decide +kernel)⟩

theorem test_meets_StandardModeRegisters (h : Obligations.StandardModeRegisters) :
    Runs (.registerWrite (.spi 11 (BitVec.ofNat 32 (regAddr .RGN_SIG 31)) 0) 5) (on [] id) ∧
    Runs (.registerWrite (.spi 2 (BitVec.ofNat 32 (regAddr .RGN_GAUNTLET 0)) 0) 5) (on [] id) ∧
    Runs (.regRead []) (asking [] 0x400 [1, regAddr .RGN_MMCNT 7]) ∧
    Runs (.regWrite []) (asking [] 0x401 [1, regAddr .RGN_SIG 31, 0]) :=
  ⟨(by refine runs ((h _ .RGN_SIG 31 ?_ ?_ ?_).1 (.spi 0x0B (BitVec.ofNat 32 (regAddr .RGN_SIG 31)) 0) 5 (serves ?_) ?_) <;> decide +kernel),
   (by refine runs ((h _ .RGN_GAUNTLET 0 ?_ ?_ ?_).2.1 (.spi 0x02 (BitVec.ofNat 32 (regAddr .RGN_GAUNTLET 0)) 0) 5 (serves ?_) ?_ ?_) <;> decide +kernel),
   (by refine runs ((h _ .RGN_MMCNT 7 ?_ ?_ ?_).2.2.1 (pkt 0x400 [1, regAddr .RGN_MMCNT 7]) [] (serves ?_) (by unfold State.asks State.interprets; decide +kernel) ?_ ?_) <;> decide +kernel),
   (by refine runs ((h _ .RGN_SIG 31 ?_ ?_ ?_).2.2.2 (pkt 0x401 [1, regAddr .RGN_SIG 31, 0]) [] (serves ?_) (by unfold State.asks State.interprets; decide +kernel) ?_ ?_ ?_ ?_) <;> decide +kernel)⟩

/-- A header whose every field is at its greatest value. -/
def hdrFull : RingHdr := ⟨1, 3, 3, 31, 255, 255, 2 ^ 48 - 1, 2 ^ 64 - 1, 2 ^ 32 - 1, 2 ^ 32 - 1, 15⟩

theorem test_meets_RingCharacters (h : Obligations.RingHeaders) : hdrOf (hdrFull.chars ++ [9]) = some hdrFull ∧
    msgOf (RingMsg.line 31 (2 ^ 32 - 1) (2 ^ 64 - 1) (2 ^ 64 - 1)).chars =
      some (.line 31 (2 ^ 32 - 1) (2 ^ 64 - 1) (2 ^ 64 - 1)) ∧
    msgOf (RingMsg.echo 31 255 1).chars = some (.echo 31 255 1) ∧
    msgOf (RingMsg.echoReply 31 255 (2 ^ 32 - 1)).chars = some (.echoReply 31 255 (2 ^ 32 - 1)) ∧
    msgOf (RingMsg.offset 31 1 (2 ^ 32 - 1)).chars = some (.offset 31 1 (2 ^ 32 - 1)) ∧
    msgOf (RingMsg.start (2 ^ 64 - 1) (2 ^ 32 - 1)).chars = some (.start (2 ^ 64 - 1) (2 ^ 32 - 1)) := by
  obtain ⟨hdr, line, echo, reply, offset, start⟩ := h.1
  refine ⟨(hdr hdrFull [9] ?_ ?_ ?_ ?_ ?_ ?_ ?_ ?_ ?_ ?_ ?_).2, line _ _ _ _ ?_ ?_ ?_ ?_, echo _ _ _ ?_ ?_ ?_,
    reply _ _ _ ?_ ?_ ?_, offset _ _ _ ?_ ?_ ?_, start _ _ ?_ ?_⟩ <;> decide

theorem test_meets_GainCode (h : Obligations.PixelWords) : pgaCode 9000 160 (5000 : Nat) ≤ 16383 ∧
    pgaCode 9000 160 (-((5000 : Nat) : Int)) ≤ 9000 :=
  have x := h.1 9000 160 5000 (by decide)
  ⟨x.1.2.1, (x.2 (by decide)).1⟩

theorem test_meets_ConverterCode (h : Obligations.ConverterEvents) : (on [] id).dev.mcvCode 1 1250000 = 8000 :=
  (h (on [] id) 1 (by decide) (by decide +kernel)).2.1 1250000 (by decide +kernel)

theorem test_meets_IdleStepPassesTime (h : Obligations.IdleStepPassesTime) : ∃ t, step (on [] id) = .next t :=
  let ⟨t, e, _⟩ := h (on [] id) rfl; ⟨t, e⟩

theorem test_meets_EveryStepKeepsMemoryCanonical (h : Obligations.EveryStepKeepsMemoryCanonical) :
    ∃ t, step (stored (on [] id) 7 131071 0x1122334455667788) = .next t ∧ t.memWf :=
  ⟨_, rfl, h (stored (on [] id) 7 131071 0x1122334455667788) _ (by unfold State.memWf; decide +kernel) rfl⟩

/-! Ill-formed commands: one for every check -/

theorem test_illFormed_timing : ([
    .encEdgeAccepted 8 true true true 0 0 0, .encLosBegin 8, .encLosEnd 8, .encStall 8,
    .encCtrlWrite .direct 8 0, .encPositionLoad .direct 8 0x80000000, .encPositionLoad .direct 7 0, .encPosRead .direct 8,
    .tbLoad .direct 0, .ltgEvaluate 24, .ltgTimerExpiry 24, .ltgDeferredIssue 24, .ltgCoastExpiry 24, .ltgCtrlArm .direct 24 1,
    .ltgCtrlArm .direct 23 0, .ltgCtrlDisarm .direct 24 0, .ltgCtrlDisarm .direct 23 1, .ltgSwt .direct 24 0x80000000,
    .ltgSwt .direct 23 0, .lineFire 24, .strobeStart 24, .strobeEnd 24, .capture 144 true 0, .capture 143 true (2 ^ 64),
    .captureRead .direct 32, .capturePop .direct 32 16, .capturePop .direct 31 0] : List Instr).all (fun c => !c.wf) = true := by
  decide

theorem test_illFormed_ring : ([
    .zlkHeaderReceive true [1, 2] 0, .zlkHeaderReceive true (List.replicate 256 512) 0,
    .zlkHeaderReceive true (List.replicate 256 7) (2 ^ 70), .ringLine true 8, .ringEcho true 8, .echoReply true 8,
    .ringOffset true 8, .ringStartMessage true 8, .zlkCtrlStart .direct 0] : List Instr).all (fun c => !c.wf) = true := by
  decide +kernel

theorem test_illFormed_pixels : ([
    .pixelWord 96 0 0 ⟨0, 0, 0⟩ ⟨0, 0, 0⟩ 0, .pixelWord 0 (2 ^ 32) 0 ⟨0, 0, 0⟩ ⟨0, 0, 0⟩ 0,
    .afeScanStart .direct 0, .afeScanStop .direct 0, .tableEntryFetch 96 .clean, .tableTargetWrite .direct true 98304 0,
    .tableTargetWrite .direct false 5 0, .tableWriteResume 8, .tsyncCopyDone 24 [], .tsyncCopyDone 23 [(98304, .clean)], .statsLatchRead .direct 24,
    .histogramLatch .direct 0, .lineWriterEnable .direct 24 1, .lineWriterEnable .direct 23 0, .mittenLineResult 8 0 0 0 0,
    .mittenMaxlnExpiry 8, .sliceRefCalDone 8 true 0 0 0 0 0, .mittenIdleHandover 8 0 0 0, .afeCalStep 24, .learnMeasureStart 24,
    .learnMeasureDone 24, .learnNoLinesTimeout 24, .calItemComplete 8 0 (.offset 0), .calItemComplete 6 2 (.coef 0 0), .calItemComplete 0 0 (.ladder 0 [])] :
    List Instr).all (fun c => !c.wf) = true := by decide

theorem test_illFormed_analogue : ([
    .aswSelectorWrite .direct .ax 32 0, .aswSelectorWrite .direct .cell 32 0, .aswSelectorWrite .direct .tap 32 0,
    .aswSelectorWrite .direct .comparator 48 0, .abusTrip 64, .cacConfigWrite .direct true 32 0, .cacSettled 32 false false,
    .cacReset .direct 32 0x8000, .cacReset .direct 31 0, .cacResetEnd 32, .cmpDecision 48 0 0, .cmpStart .direct 48 1,
    .cmpStart .direct 47 0, .cmpClear .direct 48 0, .cmpWakeTick 48 0 0, .mcvRegularTrigger 2, .mcvInjectedTrigger 2,
    .mcvGo .direct 2 0x100, .mcvGo .direct 1 0, .mcvIgo .direct 2 0x200, .mcvIgo .direct 1 0, .mcvEnable .direct 2 0,
    .mcvDelayExpiry 2 false, .mcvConversionDone 2 0, .mcvIdleExpiry 2, .mcvRidxWrite .direct 2 0,
    .railSet 256] : List Instr).all (fun c => !c.wf) = true := by decide

theorem test_illFormed_fabric : ([
    .streamLineArrival 24, .fabOutputWord 16 0, .fabOutputWord 0 4, .pairedLineVerdict 8 0, .pairedLineVerdict 0 4,
    .fabEventOutput 16, .memPortRequest (.region 2 0), .memPortRequest (.region 0 16), .memPortRequest (.writer 24),
    .memPortRequest (.dma 2), .memRequestPerform 8 false false .clean .clean, .writebackPerform 8, .marchStart .direct 8 1,
    .marchStart .direct 7 0, .marchStop .direct 8 4, .marchStop .direct 7 0, .marchDone 8 [] 0 false, .marchDone 7 [2048] 0 false,
    .marchDone 7 [5, 5] 0 false, .marchDone 7 [] 16 false, .snapshotArm .direct 0, .snapshotTake 16, .snapshotResume .direct 0,
    .snapshotCancel .direct 0, .wordCellCycle 16 0 [] []] : List Instr).all (fun c => !c.wf) = true := by decide

theorem test_illFormed_device : ([
    .regionStartupDone 16, .cfgRetryClear .direct 0, .scrubRestart .direct 0, .scrubInject .direct 0, .powerFailWarning 0,
    .powerFailWarning 4, .groupReloadDone 8, .wakeCapture 32 false, .wakeRingLine 24, .pllLockLost 11, .kweaveResync .direct 0,
    .kweaveFlush .direct 0, .memFillDone 0, .memFillDone 4096, .eventRecordWrite 4096, .gpioCfgWrite .direct 64 0,
    .gpioClaimChange 64, .gpioMaskedWrite .direct true 4 0, .twowireGo .direct 24 0x80000000, .twowireGo .direct 23 0,
    .twowireDone 24 .done 0 [], .twowireDone 23 .done 16 [], .twowireDone 23 .done 1 [1, 2], .twowireDone 23 .done 1 [256],
    .twowireTimeout 24 0, .twowireTimeout 23 16, .lanePacketStore 88, .freePacketTimeout 16 0, .freePacketTimeout 0 4,
    .lanePacketSend 12, .laneFlowBlock 2 0, .laneFlowBlock 0 4096, .laneRxLost 2, .laneEnable .direct 12 0, .laneTrainDone 12,
    .quadLock 3, .returnPairIdle 2] : List Instr).all (fun c => !c.wf) = true := by decide

/-! Worked examples of the manual -/

/-- Chapter 5, one pixel of Line A: code 3,000 gives 11,814, the dark level 0. -/
theorem test_example_pixel : correct 3000 0x8A3D0900 = 11814 ∧ correct 265 0x8A3D0900 = 0 := by decide

/-- Chapter 18, three addresses from the parallel port: `CAL.RSTAT[3]`, PCT target 81,919 and `SYS.KWIN`. -/
theorem test_example_page : ((on [(SYS_PAGE_PAGE, 0, 0x1E)] id).dev.windowAddr 0x0118 = 0x000F0118 ∧ regAddr .CAL_RSTAT 3 = 0x000F0118) ∧
    (on [(SYS_PAGE_PAGE, 0, 0x209)] id).dev.windowAddr 0x7FFC = 0x0104FFFC ∧
    (on [(SYS_PAGE_PAGE, 0, 7)] id).dev.windowAddr 0x8100 = regAddr .SYS_KWIN 0 := by decide +kernel

/-- Chapter 15, the reply to CAL_RUN: ACCEPTED with handle 0x02A. -/
theorem test_example_reply : (replyWords 0x00110300 stACCEPTED 0x02A none []).take 4 = [0x4B570005, 0x00110300, 0x00002A01, 0] := by
  decide +kernel

/-- Chapter 16, the record of CMP00 as first written and its word 0 as rewritten. -/
theorem test_example_record :
    (EvRec.mk .level 0x060 false false 1 (0x174876E800 + 6149)).slot 0x37 = ⟨0x03060037, 0x00000001, 0x48770005, 0x00000017⟩ ∧
    setBits 0x03060037 24 8 6 = 0x06060037 := by decide +kernel

end Sys2Proof.Tests
end

section
/-! SUPPORT. Register writes: what an accepted write leaves where it sets nothing off, and what a counted refusal leaves. -/

namespace Sys2Proof.Machine

/-! Bits -/

theorem tbit_eq_testBit (n i : Nat) : tbit n i = n.testBit i := Nat.testBit_eq_decide_div_mod_eq.symm

/-- Taking away the bits that a number shares with another leaves those it does not share. -/
theorem testBit_sub_and (a b i : Nat) : (a - (a &&& b)).testBit i = (a.testBit i && !(b.testBit i)) := by
  induction i generalizing a b with
  | zero =>
    have hle : a &&& b ≤ a := Nat.and_le_left
    have hone := Nat.and_mod_two_eq_one (a := a) (b := b)
    generalize a &&& b = c at hle hone ⊢
    simp only [Nat.testBit_zero]
    by_cases ha : a % 2 = 1 <;> by_cases hb : b % 2 = 1 <;> simp [ha, hb] at hone ⊢ <;> omega
  | succ i ih =>
    have hle : a / 2 &&& b / 2 ≤ a / 2 := Nat.and_le_left
    have hdiv : (a &&& b) / 2 = a / 2 &&& b / 2 := Nat.and_div_two
    have hone := Nat.and_mod_two_eq_one (a := a) (b := b)
    have hsub : (a - (a &&& b)) / 2 = a / 2 - (a / 2 &&& b / 2) := by
      generalize a &&& b = c, a / 2 &&& b / 2 = e at hle hdiv hone ⊢
      omega
    rw [Nat.testBit_add_one, Nat.testBit_add_one, Nat.testBit_add_one, hsub, ih]

/-! An accepted write that sets nothing off -/

/-- No register has more than 65,536 elements. -/
theorem regCount_le (k : RegKind) : regCount k ≤ 65536 := by
  cases k <;> decide

/-- A W1C field after a write: the bits written 1 clear, but for those that the device sets at that instant (R6, R7). -/
theorem Fld.tbit_after_w1c (f : Fld) (old new set b : Nat) (hf : f.acc = .W1C) :
    tbit (f.after old new set) b = (tbit old b && (!(tbit new b) || tbit set b)) := by
  have h : f.after old new set = old - (old &&& (new - (new &&& set))) := by simp only [Fld.after, hf]; rfl
  simp only [h, tbit_eq_testBit, testBit_sub_and, Bool.not_and, Bool.not_not]

/-- A counter after a write: what is carried, with what it counts at that instant added (R428). -/
theorem Fld.after_rw (f : Fld) {old new : Nat} (set : Nat) (hf : f.acc = .RW) (hp : f ≠ LAN_TXCNT_PKTS)
    (hn : new < 2 ^ f.width) : f.after old new set = min (new + set) (2 ^ f.width - 1) := by
  simp only [Fld.after, hf, hp, if_false]
  split <;> omega

/-- Fields written and nothing set off: the state is as `State.written` says. -/
theorem State.written_writeAll (s : State) {k : RegKind} {i : Nat} (v : Word) (hi : i < regCount k) :
    s.written (s.onDev (fun d => d.writeAll k i v.toNat)) k i v := by
  have hi' := Nat.lt_of_lt_of_le hi (regCount_le k)
  refine ⟨⟨s.sameStore_onDev _, fun k' j hj hne => ?_⟩, fun f hf => ⟨?_, ?_, ?_, ?_⟩⟩
  · exact Dev.rreg_writeAll_ne s.dev v.toNat (by simpa using hne) hi' hj
  · exact fun ha => Dev.rf_writeAll_rw s.dev k i _ f hf ha.symm
  · rintro ⟨ha, hp⟩
    exact (Dev.rf_writeAll s.dev k i _ f hf).trans (f.after_rw _ ha hp (bitsOf_lt _ _ _))
  · exact Dev.rf_writeAll_ro s.dev k i _ f hf
  · intro ha b _
    exact (congrArg (tbit · b) (Dev.rf_writeAll s.dev k i _ f hf)).trans (f.tbit_after_w1c _ _ _ b ha)

/-! A write of a register outside `actingKinds` sets nothing off: each block, and then the whole -/

section

variable (o d : Dev) {k : RegKind} (i v : Nat) (hk : k ∉ actingKinds)
include hk

theorem Dev.afterSys_of_not_acting : d.afterSys k v = d := by
  unfold Dev.afterSys
  split <;> simp [actingKinds] at hk ⊢

theorem Dev.afterScb_of_not_acting : o.afterScb d k v = d := by
  unfold Dev.afterScb
  split <;> simp [actingKinds] at hk ⊢

theorem Dev.afterPins_of_not_acting : d.afterPins k i = d := by
  unfold Dev.afterPins
  split <;> simp [actingKinds] at hk ⊢

theorem Dev.afterHcp_of_not_acting : o.afterHcp d k i v = d := by
  unfold Dev.afterHcp
  split <;> simp [actingKinds] at hk ⊢

theorem Dev.afterTiming_of_not_acting : o.afterTiming d k i v = d := by
  unfold Dev.afterTiming
  split <;> simp [actingKinds] at hk ⊢

theorem Dev.afterZlk_of_not_acting : o.afterZlk d k v = d := by
  unfold Dev.afterZlk
  split <;> simp [actingKinds] at hk ⊢

theorem Dev.afterPixel_of_not_acting : o.afterPixel d k i v = d := by
  unfold Dev.afterPixel
  split <;> simp [actingKinds] at hk ⊢

theorem Dev.afterAnx_of_not_acting : o.afterAnx d k i v = d := by
  unfold Dev.afterAnx
  split <;> simp [actingKinds] at hk ⊢

theorem Dev.afterMcv_of_not_acting : o.afterMcv d k i v = d := by
  unfold Dev.afterMcv
  split <;> simp [actingKinds] at hk ⊢

theorem Dev.afterFab_of_not_acting : o.afterFab d k i v = d := by
  unfold Dev.afterFab
  split <;> simp [actingKinds] at hk ⊢

/-- The write of a register that sets nothing off has no effect beside its fields. -/
theorem Dev.afterWrite_of_not_acting : o.afterWrite d k i v = d := by
  unfold Dev.afterWrite
  split
  · exact d.afterSys_of_not_acting v hk
  · have hr : k ≠ .CFG_RETRY := fun h => hk (h ▸ by decide)
    simp [Dev.onlyIf, hr]
  · exact o.afterScb_of_not_acting d v hk
  · exact d.afterPins_of_not_acting i hk
  · exact d.afterPins_of_not_acting i hk
  · exact o.afterHcp_of_not_acting d i v hk
  · exact o.afterTiming_of_not_acting d i v hk
  · exact o.afterTiming_of_not_acting d i v hk
  · exact o.afterZlk_of_not_acting d v hk
  · exact o.afterPixel_of_not_acting d i v hk
  · exact o.afterPixel_of_not_acting d i v hk
  · exact o.afterAnx_of_not_acting d i v hk
  · exact o.afterAnx_of_not_acting d i v hk
  · exact o.afterAnx_of_not_acting d i v hk
  · exact o.afterMcv_of_not_acting d i v hk
  · exact o.afterFab_of_not_acting d i v hk
  · exact o.afterFab_of_not_acting d i v hk
  · exact o.afterFab_of_not_acting d i v hk
  · rfl

theorem State.applyWrite_of_not_acting (s : State) (pth : Path) :
    s.applyWrite pth k i v = s.onDev (fun d => d.writeAll k i v) := by
  unfold State.applyWrite
  split
  case h_8 => simp only [Dev.afterWrite_of_not_acting _ _ _ _ hk]
  all_goals simp [actingKinds] at hk

end

/-- An accepted write of a register that sets nothing off fills its fields in. -/
theorem State.regWrite_of_not_acting (s : State) (pth : Path) {k : RegKind} {i : Nat} {v : Word}
    (h : s.accepts pth k i v) (hk : k ∉ actingKinds) :
    s.regWrite pth k i v = s.onDev (fun d => d.writeAll k i v.toNat) := by
  have hne : k ≠ .GPIO_MOUT ∧ k ≠ .GPIO_MOE ∧ k ≠ .RGN_ISOLATE := by
    refine ⟨?_, ?_, ?_⟩ <;> rintro rfl <;> exact hk (by decide)
  rw [State.regWrite_accepted s pth k i v h hne, State.applyWrite_of_not_acting _ _ hk]

/-! What a counted refusal leaves -/

/-- `SYS.ACCERR.PATH` of a path. -/
def pathBit : Path → Nat
  | .direct => 0
  | .kweave => 1

/-- A refusal with a cause of `SYS.ACCERR`. -/
theorem Dev.countRefusal_eq (d : Dev) {c : Cause} (p : Path) (a : Nat) (hc : c.code ≠ 0) :
    d.countRefusal c p a = (((d.wf SYS_ACCADDR_ADDR 0 a).inc SYS_ACCERR_COUNT 0 1).wf SYS_ACCERR_CAUSE 0 c.code).wf
      SYS_ACCERR_PATH 0 (pathBit p) := by
  cases c with
  | nowner => exact absurd rfl hc
  | rwl => exact absurd rfl hc
  | _ => simp only [Dev.countRefusal]; cases p <;> rfl

theorem Cause.code_lt (c : Cause) : c.code < 16 := by cases c <;> decide

theorem pathBit_lt (p : Path) : pathBit p < 2 := by cases p <;> decide

/-- A step of a counter leaves every other register. -/
theorem Dev.rreg_inc_ne (d : Dev) (f : Fld) {k : RegKind} {i j : Nat} (n : Nat) (h : (k, j) ≠ (f.kind, i)) (hi : i < 65536)
    (hj : j < 65536) : (d.inc f i n).rreg k j = d.rreg k j := d.rreg_wf_ne f _ h hi hj

theorem Dev.rf_inc_kind (d : Dev) (f g : Fld) {i j : Nat} (n : Nat) (h : g.kind ≠ f.kind) (hi : i < 65536)
    (hj : j < 65536) : (d.inc f i n).rf g j = d.rf g j := d.rf_wf_kind f g _ h hi hj

/-- A counted refusal changes only `SYS.ACCERR` and `SYS.ACCADDR`, which tell it (R433). -/
theorem Dev.countRefusal_counts (d : Dev) {c : Cause} (p : Path) {a : Nat} (hc : c.code ≠ 0) (ha : a < 2 ^ 32) :
    d.onlyRegs (d.countRefusal c p a) [(.SYS_ACCERR, 0), (.SYS_ACCADDR, 0)] ∧
      d.counts (d.countRefusal c p a) SYS_ACCERR_COUNT 0 1 ∧ (d.countRefusal c p a).rf SYS_ACCERR_CAUSE 0 = c.code ∧
      (d.countRefusal c p a).rf SYS_ACCERR_PATH 0 = pathBit p ∧ (d.countRefusal c p a).rf SYS_ACCADDR_ADDR 0 = a := by
  rw [d.countRefusal_eq p a hc]
  refine ⟨fun k i hi hne => ?_, ?_, ?_, ?_, ?_⟩
  · simp only [List.mem_cons, List.not_mem_nil, or_false, not_or] at hne
    obtain ⟨herr, haddr⟩ := hne
    rw [Dev.rreg_wf_ne _ _ _ herr (by decide) hi, Dev.rreg_wf_ne _ _ _ herr (by decide) hi,
      Dev.rreg_inc_ne _ _ _ herr (by decide) hi, Dev.rreg_wf_ne _ _ _ haddr (by decide) hi]
  · simp (disch := decide) only [Dev.counts, Dev.rf_wf_bits, Dev.rf_inc_self, Dev.rf_wf_kind]
  · simp (disch := decide) only [Dev.rf_wf_bits, Dev.rf_wf_self]
    exact Nat.mod_eq_of_lt c.code_lt
  · simp (disch := decide) only [Dev.rf_wf_self]
    exact Nat.mod_eq_of_lt (pathBit_lt p)
  · simp (disch := decide) only [Dev.rf_wf_kind, Dev.rf_inc_kind, Dev.rf_wf_self]
    exact Nat.mod_eq_of_lt ha

/-! Direct writes -/

/-- A host transaction that writes, of a device that takes accesses, is a direct write. -/
theorem exec_registerWrite_write {s : State} {a : Access} {x : Nat} (v : Word) (ht : s.dev.takes .direct)
    (ha : s.dev.hostOp a true = .write x) : exec (.registerWrite a v) s = .next (s.directWrite x v.toNat .clean) := by
  show Host.Outcome.next (s.hostAccess a true v.toNat .clean) = _
  simp only [State.hostAccess, ha, State.hostDoes_awake _ _ ht]

theorem State.directWrite_regAddr {s : State} {k : RegKind} {i : Nat} (v : Word) (ht : s.dev.takes .direct) :
    s.directWrite (regAddr k i) v.toNat .clean = s.regWrite .direct k i v :=
  (s.hostDoes_awake (fun s => s.directWrite (regAddr k i) v.toNat .clean) ht).symm

section

variable {s : State} {x v : Nat} {e : MemEcc}

theorem State.directWrite_unaligned (h : x % 4 ≠ 0) :
    s.directWrite x v e = s.onDev (fun d => d.counted .align .direct x) := if_pos h

theorem State.directWrite_hole (h : x % 4 = 0) (ht : target x = .hole) :
    s.directWrite x v e = s.onDev (fun d => d.counted .noreg .direct x) := by
  simp [State.directWrite, h, ht]

theorem State.directWrite_event {o : Nat} (h : x % 4 = 0) (ht : target x = .event o) :
    s.directWrite x v e = s.onDev (fun d => d.counted .window .direct x) := by
  simp [State.directWrite, h, ht]

theorem State.directWrite_unreachable {k : RegKind} {i : Nat} (hi : i < regCount k) (hr : s.dev.reachable k i = false) :
    s.directWrite (regAddr k i) v e = s.onDev (fun d => d.counted .domain .direct (regAddr k i)) := by
  obtain ⟨ht, ha⟩ := target_regAddr hi
  simp [State.directWrite, ha, ht, hr]

/-- A write that a check refuses, and that sets up no ownership conflict, is only counted (R177, R433). -/
theorem State.directWrite_refused {k : RegKind} {i : Nat} {r : Refused} (hi : i < regCount k)
    (hr : s.dev.reachable k i = true) (hw : k.writable = true) (hx : s.dev.writeRefusal .direct k i v = some r)
    (hc : s.dev.conflictOf k i v = none) :
    s.directWrite (regAddr k i) v e = s.onDev (fun d => d.counted r.cause .direct (regAddr k i)) := by
  obtain ⟨ht, ha⟩ := target_regAddr hi
  simp [State.directWrite, ha, ht, hr, State.directRegWrite, Dev.inert_of_writable _ _ hw, hx, hc, State.onDev,
    Dev.conflictNote]

end

/-- Settles O6: an accepted write fills the fields in, and every refusal is one counted refusal. -/
theorem registerAccesses : Obligations.RegisterAccesses := by
  refine ⟨fun s a k i v ha hacc hk => ?_, fun s a x v hx ht hd ha cause hcause => ?_⟩
  · have ht := hacc.1.1
    refine ⟨_, exec_registerWrite_write v ht ha, ?_⟩
    rw [State.directWrite_regAddr v ht, State.regWrite_of_not_acting s .direct hacc hk]
    exact ⟨s.written_writeAll v hacc.1.2.1, by simp [State.onDev]⟩
  · obtain ⟨c, hcode, hne, hw⟩ : ∃ c : Cause, c.code = cause ∧ c.code ≠ 0 ∧
        s.directWrite x v.toNat .clean = s.onDev (fun d => d.counted c .direct x) := by
      obtain ⟨hal, rfl⟩ | ⟨hal, htg, rfl⟩ | ⟨k, i, hi, rfl, hr, rfl⟩ | ⟨k, i, r, hi, rfl, hr, hwr, hrf, hcf, hcs⟩ |
        ⟨o, hal, htg, rfl⟩ := hcause
      · exact ⟨.align, rfl, by decide, State.directWrite_unaligned hal⟩
      · exact ⟨.noreg, rfl, by decide, State.directWrite_hole hal htg⟩
      · exact ⟨.domain, rfl, by decide, State.directWrite_unreachable hi hr⟩
      · refine ⟨r.cause, ?_, ?_, State.directWrite_refused hi hr hwr hrf hcf⟩ <;>
          obtain ⟨hrc, rfl⟩ | ⟨hrc, rfl⟩ := hcs <;> simp [hrc, Cause.code]
      · exact ⟨.window, rfl, by decide, State.directWrite_event hal htg⟩
    subst hcode
    refine ⟨_, exec_registerWrite_write v ht ha, ?_⟩
    rw [hw]
    obtain ⟨honly, hrest⟩ := s.dev.countRefusal_counts .direct hne hx
    simp only [State.onDev, Dev.counted, hd, if_true]
    exact ⟨⟨⟨rfl, rfl⟩, honly⟩, hrest⟩

end Sys2Proof.Machine
end

section
/-! SUPPORT. Register packets: a masked write of an instant at which the state notes a count in the written field. -/

namespace Sys2Proof.Machine

/-- REG_MASKWRITE of bank 0's weight of the management controller with 9 under the mask 15; the CRC, checked before the
packet is interpreted, is left 0. -/
def weightPacket : List Nat := [0x4B570008, 0x402, 0, 1, regAddr .MEM_WGT 0, 15, 9, 0]

/-- The device in RUN that interprets `weightPacket`, with a count of 1 noted at this instant in the field it writes. -/
def notedWeight : State :=
  { State.reset with dev := { Dev.reset with
      sets := [(regKey .MEM_WGT 0, 1)], pwr := { Pwr.reset with st := .run, booted := true }
      kw := { Kw.reset with cur := some weightPacket } } }

theorem notedWeight_accepts : notedWeight.accepts .kweave .MEM_WGT 0
    (BitVec.ofNat 32 (setBits (notedWeight.dev.rreg .MEM_WGT 0).toNat 0 4 9)) :=
  ⟨⟨show notedWeight.dev.managementOn = true by decide +kernel, by decide +kernel, by decide +kernel, nofun⟩,
    by decide +kernel, by decide +kernel⟩

theorem notedWeight_asks : notedWeight.asks 0x402 weightPacket 0 4 := by
  unfold State.asks State.interprets; decide +kernel

/-- The noted count is added to the value that the packet carries (R428). -/
theorem opRegMaskwrite_notedWeight : (notedWeight.opRegMaskwrite []).dev.rf MEM_WGT_P0MGT 0 = 10 := by decide +kernel

/-- Refutes O55: its clause on REG_MASKWRITE leaves out the premise `setNow = 0` of `State.written`. Where the state notes
a count of 1 in the written field at this instant, the packet's 9 becomes 10 (R428), as in `notedWeight`. `MEM.WGT` has no
counter, so that no run from reset should note one there; the statement speaks of every state. -/
theorem not_registerPackets : ¬ Obligations.RegisterPackets := by
  intro h
  obtain ⟨-, -, hmask⟩ := h notedWeight weightPacket .MEM_WGT 0 []
  obtain ⟨t, ht, -, -, hfield, -⟩ := hmask 0 9 (by decide) (by decide) (by decide) (by decide +kernel)
    notedWeight_accepts notedWeight_asks (by decide +kernel) (by decide +kernel) (by decide +kernel) (by decide +kernel)
  have hrun : exec (.regMaskwrite []) notedWeight = .next (notedWeight.opRegMaskwrite []) := rfl
  obtain rfl : notedWeight.opRegMaskwrite [] = t := Host.Outcome.next.inj (hrun.symm.trans ht)
  exact absurd (opRegMaskwrite_notedWeight.symm.trans hfield) (by decide)

end Sys2Proof.Machine
end

section
/-! SUPPORT. Host accesses of the memory windows: halves of a word, what a read and a write of a word of a bank or of a
scratchpad leave, and what a transaction that names such a word comes to. -/

namespace Sys2Proof.Machine

/-! Halves of a word -/

theorem memRead_add (m : List Host.Cell) (a n k : Nat) :
    memRead m a (n + k) = memRead m a n + 256 ^ n * memRead m (a + n) k := by
  induction n generalizing a with
  | zero => simp [memRead]
  | succ n ih =>
    rw [Nat.succ_add, memRead, memRead, ih, Nat.add_right_comm a 1 n, Nat.add_assoc a n 1, pow_succ]
    ring

theorem memRead_lt (m : List Host.Cell) (a n : Nat) : memRead m a n < 256 ^ n := by
  induction n generalizing a with
  | zero => simp [memRead]
  | succ n ih =>
    have hb := (memByte m a).isLt
    have hr := ih (a + 1)
    rw [memRead, pow_succ]
    omega

/-- Four bytes of a word of 8 are a half of its number. -/
theorem memRead_half (m : List Host.Cell) (a : Nat) {half : Nat} (h : half < 2) :
    memRead m (a + 4 * half) 4 = bitsOf (memRead m a 8) (32 * half) 32 := by
  have hw : memRead m a 8 = memRead m a 4 + 256 ^ 4 * memRead m (a + 4) 4 := memRead_add m a 4 4
  have hlo := memRead_lt m a 4
  have hhi := memRead_lt m (a + 4) 4
  rw [hw, bitsOf]
  obtain rfl | rfl : half = 0 ∨ half = 1 := by omega
  · norm_num at *; omega
  · norm_num at *; omega

/-- A half of a word of 8 bytes that has been written. -/
theorem memRead_half_memWrite (m : List Host.Cell) (a v : Nat) {half : Nat} (h : half < 2) :
    memRead (memWrite m a 8 v) (a + 4 * half) 4 = bitsOf v (32 * half) 32 := by
  rw [memRead_half _ _ h, memRead_memWrite, bitsOf, bitsOf]
  obtain rfl | rfl : half = 0 ∨ half = 1 := by omega
  · norm_num
  · norm_num; omega

/-! What stays -/

theorem State.stores.trans {s t u : State} {a n : Nat} (h : s.stores t a n) (h' : t.stores u a n) : s.stores u a n :=
  ⟨h'.1.trans h.1, fun x hx => (h'.2 x hx).trans (h.2 x hx)⟩

/-- A write of `n` bytes stores there only. -/
theorem State.stores_memWrite (s : State) (d : Dev) (a n v : Nat) :
    s.stores { s with dev := d, mem := memWrite s.mem a n v } a n :=
  ⟨rfl, fun x hx => memByte_memWrite_out _ _ _ _ x hx⟩

/-! What a word shows -/

theorem Dev.shown_clean {d : Dev} {a : Nat} (h : tget d.bank.errs 0 a = 0) : d.shown a .clean = .clean := by
  rw [Dev.shown, h, eccJoined]

theorem Dev.shown_double (d : Dev) (a flip : Nat) : d.shown a (.double flip) = .double flip := by
  rw [Dev.shown, eccJoined] <;> simp

@[simp] theorem Dev.setErr_rreg (d : Dev) (a n : Nat) (k : RegKind) (i : Nat) : (d.setErr a n).rreg k i = d.rreg k i := rfl

@[simp] theorem Dev.setErr_rf (d : Dev) (a n : Nat) (f : Fld) (i : Nat) : (d.setErr a n).rf f i = d.rf f i := rfl

/-- Which registers a double-bit error of a bank changes, and its count (R283). -/
theorem Dev.doubleError_counts (d : Dev) {b : Nat} (w src rport : Nat) (hb : b < 65536) :
    d.onlyRegs (d.doubleError b w src rport) [(.MEM_ECCCNT, b), (.MEM_ERRADDR, b)] ∧
      d.counts (d.doubleError b w src rport) MEM_ECCCNT_DBE b 1 := by
  have hregs : ∀ k i, (d.doubleError b w src rport).rreg k i = (((((d.inc MEM_ECCCNT_DBE b 1).wf MEM_ERRADDR_WORD b w).wf
      MEM_ERRADDR_SRC b src).wf MEM_ERRADDR_RPORT b rport).wf MEM_ERRADDR_VALID b 1).rreg k i := by
    intro k i
    unfold Dev.doubleError
    dsimp only
    split <;> simp
  refine ⟨fun k i hi hne => ?_, ?_⟩
  · simp only [List.mem_cons, List.not_mem_nil, or_false, not_or] at hne
    obtain ⟨hcnt, haddr⟩ := hne
    rw [hregs, Dev.rreg_wf_ne _ _ _ haddr hb hi, Dev.rreg_wf_ne _ _ _ haddr hb hi, Dev.rreg_wf_ne _ _ _ haddr hb hi,
      Dev.rreg_wf_ne _ _ _ haddr hb hi, Dev.rreg_inc_ne _ _ _ hcnt hb hi]
  · rw [Dev.counts, Dev.rf_of_rreg (hregs _ b), Dev.rf_wf_kind _ _ _ _ (by decide) hb hb,
      Dev.rf_wf_kind _ _ _ _ (by decide) hb hb, Dev.rf_wf_kind _ _ _ _ (by decide) hb hb,
      Dev.rf_wf_kind _ _ _ _ (by decide) hb hb, Dev.rf_inc_self _ _ _ _ (by decide)]

/-! A word of a bank -/

section

variable (s : State) (b w : Nat)

theorem State.readWord_clean {e : MemEcc} (src rport : Nat) (h : s.dev.shown (bankAddr b w) e = .clean) :
    s.readWord b w e src rport = (s.onDev (fun d => d.setErr (bankAddr b w) 0), memRead s.mem (bankAddr b w) 8) := by
  simp only [State.readWord, h, eccWrong]; rfl

/-- What a word read with a double-bit error leaves: the error is told, and the wrong bits stay in the word (R283). -/
theorem State.readWord_double {e : MemEcc} {flip : Nat} (src rport : Nat) (h : s.dev.shown (bankAddr b w) e = .double flip) :
    (s.readWord b w e src rport).1 = { s with
      dev := (s.dev.setErr (bankAddr b w) 2).doubleError b w src rport
      mem := memWrite s.mem (bankAddr b w) 8 (Nat.xor (memRead s.mem (bankAddr b w) 8) (flip % 2 ^ 64)) } := by
  simp only [State.readWord, h, eccWrong]

/-- A read that finds a double-bit error changes that word only, and counts the error. -/
theorem State.readWord_double_counts {e : MemEcc} {flip : Nat} (src rport : Nat)
    (h : s.dev.shown (bankAddr b w) e = .double flip) (hb : b < 65536) :
    s.stores (s.readWord b w e src rport).1 (bankAddr b w) 8 ∧
      s.dev.onlyRegs (s.readWord b w e src rport).1.dev [(.MEM_ECCCNT, b), (.MEM_ERRADDR, b)] ∧
      s.dev.counts (s.readWord b w e src rport).1.dev MEM_ECCCNT_DBE b 1 := by
  obtain ⟨honly, hcount⟩ := (s.dev.setErr (bankAddr b w) 2).doubleError_counts w src rport hb
  simp only [Dev.onlyRegs, Dev.counts, Dev.setErr_rreg, Dev.setErr_rf] at honly hcount
  rw [s.readWord_double b w src rport h]
  exact ⟨s.stores_memWrite _ _ _ _, honly, hcount⟩

theorem State.writeWord_stores (v : Nat) : s.stores (s.writeWord b w v) (bankAddr b w) 8 := s.stores_memWrite _ _ _ _

theorem State.writeWord_half (v : Nat) {half : Nat} (h : half < 2) :
    memRead (s.writeWord b w v).mem (bankAddr b w + 4 * half) 4 = bitsOf v (32 * half) 32 := memRead_half_memWrite _ _ _ h

theorem State.writeWord_rreg (v : Nat) (k : RegKind) (i : Nat) : (s.writeWord b w v).dev.rreg k i = s.dev.rreg k i := rfl

theorem State.writeWord_rf (v : Nat) (f : Fld) (i : Nat) : (s.writeWord b w v).dev.rf f i = s.dev.rf f i := rfl

/-- A written word has fresh check bits. -/
theorem State.writeWord_errs (v : Nat) : tget (s.writeWord b w v).dev.bank.errs 0 (bankAddr b w) = 0 := by
  simp [State.writeWord, Dev.setErr]

/-- A write-back of a written word is no longer pending. -/
theorem State.writeWord_wbq (v : Nat) : w ∉ tget (s.writeWord b w v).dev.bank.wbq [] b := by
  simp [State.writeWord]

/-- A half is written into a good word. -/
theorem State.bankHalfWrite_clean {e : MemEcc} (half v : Nat) (h : s.dev.shown (bankAddr b w) e = .clean) :
    s.bankHalfWrite b w half v e = (s.onDev (fun d => d.setErr (bankAddr b w) 0)).writeWord b w
      (setBits (memRead s.mem (bankAddr b w) 8) (32 * half) 32 v) := by
  simp only [State.bankHalfWrite, s.readWord_clean b w 0 0 h, h]

/-- A half is written into a word with a double-bit error: the other half becomes 0 (R283). -/
theorem State.bankHalfWrite_double {e : MemEcc} {flip : Nat} (half v : Nat)
    (h : s.dev.shown (bankAddr b w) e = .double flip) :
    s.bankHalfWrite b w half v e = (s.readWord b w e 0 0).1.writeWord b w (setBits 0 (32 * half) 32 v) := by
  simp only [State.bankHalfWrite, h]

end

/-! What a transaction comes to -/

theorem bankAddr_half_coords {b w half : Nat} (hb : b < 8) (hw : w < 131072) (hh : half < 2) :
    (bankAddr b w + 4 * half - 0x02000000) / 0x100000 % 8 = b ∧ (bankAddr b w + 4 * half) % 0x100000 / 8 = w ∧
      (bankAddr b w + 4 * half) % 8 / 4 = half := by
  unfold bankAddr; omega

theorem target_bankAddr {b w half : Nat} (hb : b < 8) (hw : w < 131072) (hh : half < 2) :
    target (bankAddr b w + 4 * half) = .bank := by
  unfold target bankAddr
  repeat rw [if_neg (by omega)]
  rw [if_pos (by omega)]

theorem spAddr_coords {x w : Nat} (hx : x < 256) (hw : w < 1024) :
    (spAddr x w - 0x03000000) / 0x1000 % 256 = x ∧ spAddr x w % 0x1000 / 4 = w := by
  unfold spAddr; omega

theorem target_spAddr {x w : Nat} (hx : x < 256) (hw : w < 1024) : target (spAddr x w) = .pad := by
  unfold target spAddr
  repeat rw [if_neg (by omega)]
  rw [if_pos (by omega)]

section

variable {s : State} {a : Access} {wr : Bool} {x : Nat} (ht : s.hostTaken a wr x)
include ht

/-- A taken transaction of a word of a bank window is an access of that bank. -/
theorem State.hostAccess_bank (htg : target x = .bank) (v : Nat) (e : MemEcc) :
    s.hostAccess a wr v e = s.bankAccess .direct x wr v e := by
  obtain ⟨htakes, hdom, hal, hop⟩ := ht
  cases wr
  · simp [State.hostAccess, hop, s.hostDoes_awake _ htakes, State.directRead, hal, htg, hdom, State.bankAccess]
  · simp [State.hostAccess, hop, s.hostDoes_awake _ htakes, State.directWrite, hal, htg, hdom]

/-- A taken transaction of a word of a scratchpad window is an access of that scratchpad. -/
theorem State.hostAccess_pad (htg : target x = .pad) (v : Nat) (e : MemEcc) :
    s.hostAccess a wr v e = s.spAccess .direct x wr v e := by
  obtain ⟨htakes, hdom, hal, hop⟩ := ht
  cases wr
  · simp [State.hostAccess, hop, s.hostDoes_awake _ htakes, State.directRead, hal, htg, hdom, State.spAccess]
  · simp [State.hostAccess, hop, s.hostDoes_awake _ htakes, State.directWrite, hal, htg, hdom]

end

section

variable {s : State} {a : Access} {wr : Bool} {b w half : Nat} (hb : b < 8) (hw : w < 131072) (hh : half < 2)
  (ht : s.hostTaken a wr (bankAddr b w + 4 * half)) (v : Word) (e : MemEcc)
include hb hw hh ht

theorem exec_bankHostAccess_write (hdom : s.dev.domOn (26 + b) = true) (hsv : s.dev.bankServes b = true) (hwr : wr = true) :
    exec (.bankHostAccess a wr v e) s = .next (s.bankHalfWrite b w half v.toNat e) := by
  subst hwr
  show Host.Outcome.next (s.hostAccess a _ v.toNat e) = _
  obtain ⟨hbank, hword, hhalf⟩ := bankAddr_half_coords hb hw hh
  rw [s.hostAccess_bank ht (target_bankAddr hb hw hh)]
  simp [State.bankAccess, hbank, hword, hhalf, hdom, hsv]

theorem exec_bankHostAccess_read (hdom : s.dev.domOn (26 + b) = true) (hsv : s.dev.bankServes b = true) (hwr : wr = false) :
    exec (.bankHostAccess a wr v e) s = .next ((s.readWord b w e 0 0).1.onDev (fun d =>
      d.setRdata (bitsOf (s.readWord b w e 0 0).2 (32 * half) 32))) := by
  subst hwr
  show Host.Outcome.next (s.hostAccess a _ v.toNat e) = _
  obtain ⟨hbank, hword, hhalf⟩ := bankAddr_half_coords hb hw hh
  rw [s.hostAccess_bank ht (target_bankAddr hb hw hh)]
  simp [State.bankAccess, hbank, hword, hhalf, hdom, hsv, State.onDev]

/-- An access of a bank that is off or does not serve is refused (R17, R289). -/
theorem exec_bankHostAccess_refused (h : s.dev.domOn (26 + b) = false ∨ s.dev.bankServes b = false) :
    exec (.bankHostAccess a wr v e) s = .next (s.onDev (fun d =>
      d.refuseAccess (if s.dev.domOn (26 + b) then .state else .domain) .direct (bankAddr b w + 4 * half))) := by
  show Host.Outcome.next (s.hostAccess a wr v.toNat e) = _
  obtain ⟨hbank, hword, hhalf⟩ := bankAddr_half_coords hb hw hh
  rw [s.hostAccess_bank ht (target_bankAddr hb hw hh), State.bankAccess, hbank]
  cases hdom : s.dev.domOn (26 + b) with
  | false => simp [State.onDev]
  | true =>
    have hsv : s.dev.bankServes b = false := h.resolve_left (by simp [hdom])
    simp [hsv, State.onDev]

end

section

variable {s : State} {a : Access} {wr : Bool} {x w : Nat} (hx : x < 256) (hw : w < 1024)
  (ht : s.hostTaken a wr (spAddr x w)) (v : Word) (e : MemEcc)
include hx hw ht

theorem exec_scratchpadHostAccess_write (hpow : s.dev.spPowered (tileRegion x) = true)
    (hopen : s.dev.spOpen (tileRegion x) = true) (hwr : wr = true) :
    exec (.scratchpadHostAccess a wr v e) s = .next (s.spWrite x w v.toNat) := by
  subst hwr
  show Host.Outcome.next (s.hostAccess a _ v.toNat e) = _
  obtain ⟨htile, hword⟩ := spAddr_coords hx hw
  rw [s.hostAccess_pad ht (target_spAddr hx hw)]
  simp [State.spAccess, htile, hword, hpow, hopen]

theorem exec_scratchpadHostAccess_read (hpow : s.dev.spPowered (tileRegion x) = true)
    (hopen : s.dev.spOpen (tileRegion x) = true) (hwr : wr = false) :
    exec (.scratchpadHostAccess a wr v e) s =
      .next ((s.spRead x w e).1.onDev (fun d => d.setRdata (s.spRead x w e).2)) := by
  subst hwr
  show Host.Outcome.next (s.hostAccess a _ v.toNat e) = _
  obtain ⟨htile, hword⟩ := spAddr_coords hx hw
  rw [s.hostAccess_pad ht (target_spAddr hx hw)]
  simp [State.spAccess, htile, hword, hpow, hopen, State.onDev]

/-- An access of a scratchpad whose region is off or closed to the host is refused (R17, R256, R286). -/
theorem exec_scratchpadHostAccess_refused
    (h : s.dev.spPowered (tileRegion x) = false ∨ s.dev.spOpen (tileRegion x) = false) :
    exec (.scratchpadHostAccess a wr v e) s = .next (s.onDev (fun d =>
      d.refuseAccess (if s.dev.spPowered (tileRegion x) then .state else .domain) .direct (spAddr x w))) := by
  show Host.Outcome.next (s.hostAccess a wr v.toNat e) = _
  obtain ⟨htile, hword⟩ := spAddr_coords hx hw
  rw [s.hostAccess_pad ht (target_spAddr hx hw), State.spAccess, htile]
  cases hpow : s.dev.spPowered (tileRegion x) with
  | false => simp [State.onDev]
  | true =>
    have hopen : s.dev.spOpen (tileRegion x) = false := h.resolve_left (by simp [hpow])
    simp [hopen, State.onDev]

end

/-- A scratchpad word without an error is read as it stands. -/
theorem State.spRead_clean (s : State) {x w : Nat} {e : MemEcc} (h : s.dev.shown (spAddr x w) e = .clean) :
    s.spRead x w e = (s.onDev (fun d => d.setErr (spAddr x w) 0), memRead s.mem (spAddr x w) 3) := by
  simp only [State.spRead, h, eccWrong, Dev.spError]; rfl

/-- What a refused access of a memory window leaves: a count with its cause and address, and 0 read (R17, R433). -/
theorem Dev.refuseAccess_counts {d d' : Dev} {p : Bool} {x : Nat} (hx : x < 2 ^ 32)
    (h : d.refuseAccess (if p then .state else .domain) .direct x = d') :
    d.onlyRegs d' [(.SYS_ACCERR, 0), (.SYS_ACCADDR, 0)] ∧ d'.rdata = 0 ∧ d'.rf SYS_ACCADDR_ADDR 0 = x ∧
      d.counts d' SYS_ACCERR_COUNT 0 1 ∧ d'.rf SYS_ACCERR_CAUSE 0 = (if p then 4 else 5) := by
  subst h
  have hcode : (if p then Cause.state else .domain).code = if p then 4 else 5 := by cases p <;> rfl
  obtain ⟨honly, hcount, hcause, -, haddr⟩ :=
    d.countRefusal_counts .direct (c := if p then .state else .domain) (by cases p <;> decide) hx
  exact ⟨honly, rfl, haddr, hcount, hcause.trans hcode⟩

/-- Settles O41: each access is a read or a write of one word, or one counted refusal. -/
theorem memoryWindows : Obligations.MemoryWindows := by
  intro s a v b w half
  refine ⟨fun wr hb hw hh ht => ⟨fun hdom hsv herr hwr => ?_, fun hdom hsv herr hwr => ?_, fun flip hdom hsv hwr => ?_,
    fun hoff => ?_⟩, fun wr x hx hw ht => ⟨fun hpow hopen hwr => ?_, fun hpow hopen herr hwr => ?_, fun hoff => ?_⟩⟩
  · refine ⟨_, exec_bankHostAccess_write hb hw hh ht v .clean hdom hsv hwr, ?_⟩
    rw [s.bankHalfWrite_clean b w half v.toNat (Dev.shown_clean herr)]
    refine ⟨State.writeWord_stores _ b w _, fun k i _ _ => State.writeWord_rreg _ b w _ k i, ?_, ?_,
      State.writeWord_wbq _ b w _⟩
    · rw [State.writeWord_half _ b w _ hh, bitsOf_setBits_self, Nat.mod_eq_of_lt v.isLt]
    · rw [State.writeWord_half _ b w _ (by omega), bitsOf_setBits_ne _ _ _ _ _ _ (by omega), memRead_half _ _ (by omega)]
  · refine ⟨_, exec_bankHostAccess_read hb hw hh ht v .clean hdom hsv hwr, ?_⟩
    rw [s.readWord_clean b w 0 0 (Dev.shown_clean herr)]
    refine ⟨⟨⟨rfl, rfl⟩, fun k i _ _ => rfl⟩, ?_⟩
    exact (Nat.mod_eq_of_lt (bitsOf_lt _ _ _)).trans (memRead_half _ _ hh).symm
  · refine ⟨_, exec_bankHostAccess_write hb hw hh ht v (.double flip) hdom hsv hwr, ?_⟩
    have hshown := s.dev.shown_double (bankAddr b w) flip
    obtain ⟨hstores, honly, hcount⟩ := s.readWord_double_counts b w 0 0 hshown (by omega)
    rw [s.bankHalfWrite_double b w half v.toNat hshown]
    refine ⟨hstores.trans (State.writeWord_stores _ b w _), fun k i hi hne => ?_, ?_, ?_, ?_, State.writeWord_errs _ b w _⟩
    · rw [State.writeWord_rreg, honly k i hi hne]
    · rw [State.writeWord_half _ b w _ hh, bitsOf_setBits_self, Nat.mod_eq_of_lt v.isLt]
    · rw [State.writeWord_half _ b w _ (by omega), bitsOf_setBits_ne _ _ _ _ _ _ (by omega)]
      simp [bitsOf]
    · rw [Dev.counts, State.writeWord_rf, hcount]
  · obtain ⟨honly, hrest⟩ := Dev.refuseAccess_counts (d := s.dev) (p := s.dev.domOn (26 + b))
      (x := bankAddr b w + 4 * half) (by unfold bankAddr; omega) rfl
    exact ⟨_, exec_bankHostAccess_refused hb hw hh ht v .clean hoff, ⟨⟨rfl, rfl⟩, honly⟩, hrest⟩
  · refine ⟨_, exec_scratchpadHostAccess_write hx hw ht v .clean hpow hopen hwr, s.stores_memWrite _ _ _ _,
      fun k i _ _ => rfl, ?_⟩
    exact (memRead_memWrite _ _ _ _).trans (by norm_num)
  · refine ⟨_, exec_scratchpadHostAccess_read hx hw ht v .clean hpow hopen hwr, ?_⟩
    rw [s.spRead_clean (Dev.shown_clean herr)]
    refine ⟨⟨⟨rfl, rfl⟩, fun k i _ _ => rfl⟩, ?_⟩
    exact Nat.mod_eq_of_lt ((memRead_lt _ _ 3).trans (by norm_num))
  · obtain ⟨honly, hrest⟩ := Dev.refuseAccess_counts (d := s.dev) (p := s.dev.spPowered (tileRegion x))
      (x := spAddr x w) (by unfold spAddr; omega) rfl
    exact ⟨_, exec_scratchpadHostAccess_refused hx hw ht v .clean hoff, ⟨⟨rfl, rfl⟩, honly⟩, hrest⟩

end Sys2Proof.Machine
end

section
/-! SUPPORT. The passing of time: what the end of a disabled lane's packet changes, and that the twelve lanes take their turns
apart from each other. -/

namespace Sys2Proof.Machine

/-- The registers of a lane that its settling and its emptying change. -/
def laneKinds : List RegKind := [.LAN_STAT, .LAN_DROP, .LAN_FILL, .LAN_PEAK]

/-- Those registers of lane `l`. -/
def laneRegs (l : Nat) : List (RegKind × Nat) := laneKinds.map (fun k => (k, l))

theorem mem_laneRegs {l i : Nat} {k : RegKind} : (k, i) ∈ laneRegs l ↔ k ∈ laneKinds ∧ l = i := by
  simp [laneRegs]

/-- Only the listed lanes and their registers have changed, and neither time nor power nor the event queue. -/
structure Dev.onlyLanes (d d' : Dev) (ls : List Nat) : Prop where
  now : d'.now = d.now
  tb : d'.tb = d.tb
  evq : d'.evq = d.evq
  pwr : d'.pwr = d.pwr
  gpio : d'.gpio = d.gpio
  regs : d.onlyRegs d' (ls.flatMap laneRegs)
  lanes : ∀ j, j ∉ ls → d'.lane j = d.lane j

namespace Dev.onlyLanes

theorem refl (d : Dev) (ls : List Nat) : d.onlyLanes d ls :=
  ⟨rfl, rfl, rfl, rfl, rfl, fun _ _ _ _ => rfl, fun _ _ => rfl⟩

theorem trans {d d' d'' : Dev} {ls ms ns : List Nat} (h : d.onlyLanes d' ls) (h' : d'.onlyLanes d'' ms)
    (hl : ls ⊆ ns) (hm : ms ⊆ ns) : d.onlyLanes d'' ns where
  now := h'.now.trans h.now
  tb := h'.tb.trans h.tb
  evq := h'.evq.trans h.evq
  pwr := h'.pwr.trans h.pwr
  gpio := h'.gpio.trans h.gpio
  regs k i hi hne := by
    have hin : ∀ {xs : List Nat}, xs ⊆ ns → (k, i) ∉ xs.flatMap laneRegs := fun hs hx => by
      obtain ⟨l, hl, hx⟩ := List.mem_flatMap.mp hx
      exact hne (List.mem_flatMap.mpr ⟨l, hs hl, hx⟩)
    exact (h'.regs k i hi (hin hm)).trans (h.regs k i hi (hin hl))
  lanes j hj := (h'.lanes j fun hx => hj (hm hx)).trans (h.lanes j fun hx => hj (hl hx))

/-- Two changes of one lane. -/
theorem next {d d' d'' : Dev} {l : Nat} (h : d.onlyLanes d' [l]) (h' : d'.onlyLanes d'' [l]) : d.onlyLanes d'' [l] :=
  h.trans h' (List.Subset.refl _) (List.Subset.refl _)

/-- A register of an unlisted lane, and any register that is none of a lane's four, keeps its value. -/
theorem rreg_out {d d' : Dev} {ls : List Nat} (h : d.onlyLanes d' ls) {k : RegKind} {i : Nat} (hi : i < 65536)
    (hne : i ∉ ls ∨ k ∉ laneKinds) : d'.rreg k i = d.rreg k i := by
  refine h.regs k i hi fun hx => ?_
  obtain ⟨l, hl, hx⟩ := List.mem_flatMap.mp hx
  obtain ⟨hk, rfl⟩ := mem_laneRegs.mp hx
  exact hne.elim (· hl) (· hk)

theorem rf_out {d d' : Dev} {ls : List Nat} (h : d.onlyLanes d' ls) {f : Fld} {i : Nat} (hi : i < 65536)
    (hne : i ∉ ls ∨ f.kind ∉ laneKinds) : d'.rf f i = d.rf f i :=
  Dev.rf_of_rreg (h.rreg_out hi hne)

theorem on_out {d d' : Dev} {ls : List Nat} (h : d.onlyLanes d' ls) {f : Fld} {i : Nat} (hi : i < 65536)
    (hne : i ∉ ls ∨ f.kind ∉ laneKinds) : d'.on f i = d.on f i :=
  Dev.on_of_rreg (h.rreg_out hi hne)

/-- The power of a lane's quad stays. -/
theorem domOn_quad {d d' : Dev} {ls : List Nat} (h : d.onlyLanes d' ls) {q : Nat} (hq : q < 3) :
    d'.domOn (7 + q) = d.domOn (7 + q) := by
  have hser : d'.rf PWR_DOMEN_SER 0 = d.rf PWR_DOMEN_SER 0 := h.rf_out (by decide) (.inr (by decide))
  have hnormal : d'.domNormal (7 + q) = d.domNormal (7 + q) := by
    simp only [Dev.domNormal, if_neg (show ¬ 7 + q ≤ 6 by omega), if_pos (show 7 + q ≤ 9 by omega), hser]
  simp only [Dev.domOn, h.pwr, hnormal]

end Dev.onlyLanes

/-! One lane -/

section

variable (d : Dev) (l : Nat)

theorem Dev.onlyLanes_wf (f : Fld) (n : Nat) (hf : f.kind ∈ laneKinds)
    (hl : l < 65536) : d.onlyLanes (d.wf f l n) [l] := by
  refine ⟨rfl, rfl, rfl, rfl, rfl, fun k i hi hne => d.rreg_wf_ne f n (fun hx => hne ?_) hl hi, fun _ _ => rfl⟩
  obtain ⟨rfl, rfl⟩ := Prod.mk.inj hx
  simpa using mem_laneRegs.mpr ⟨hf, rfl⟩

theorem Dev.onlyLanes_inc (f : Fld) (n : Nat) (hf : f.kind ∈ laneKinds)
    (hl : l < 65536) : d.onlyLanes (d.inc f l n) [l] :=
  ⟨rfl, rfl, rfl, rfl, rfl, (d.onlyLanes_wf l f _ hf hl).regs, fun _ _ => rfl⟩

theorem Dev.onlyLanes_setLane (x : Lane) : d.onlyLanes (d.setLane l x) [l] :=
  ⟨rfl, rfl, rfl, rfl, rfl, fun _ _ _ _ => rfl, fun _ hj => tget_tset_ne _ _ _ _ (by simpa using hj)⟩

theorem Dev.lane_setLane (x : Lane) : (d.setLane l x).lane l = x := tget_tset_self _ _ _ _

theorem Dev.packetDropped_lane (src j : Nat) : (d.packetDropped l src).lane j = d.lane j := rfl

theorem Dev.onlyLanes_packetDropped (src : Nat) (hl : l < 65536) : d.onlyLanes (d.packetDropped l src) [l] :=
  ⟨rfl, rfl, rfl, rfl, rfl, (d.onlyLanes_wf l LAN_STAT_DROPSEEN 1 (by decide) hl).regs, fun _ _ => rfl⟩

theorem Dev.onlyLanes_showFill (hl : l < 65536) : d.onlyLanes (d.showFill l) [l] := by
  unfold Dev.showFill
  have hfill := d.onlyLanes_wf l LAN_FILL_BYTES (min (d.lane l).fill (2 ^ 17 - 1)) (by decide) hl
  dsimp only
  split
  · exact hfill.next (Dev.onlyLanes_wf _ l LAN_PEAK_BYTES _ (by decide) hl)
  · exact hfill

/-- A stored packet of lane `l` is dropped and counted. -/
def Dev.dropPacket (d : Dev) (l : Nat) (p : LanePkt) : Dev := (d.inc LAN_DROP_FULL l 1).packetDropped l p.src

theorem Dev.onlyLanes_dropPacket (p : LanePkt) (hl : l < 65536) : d.onlyLanes (d.dropPacket l p) [l] :=
  (d.onlyLanes_inc l LAN_DROP_FULL 1 (by decide) hl).next (Dev.onlyLanes_packetDropped _ l p.src hl)

theorem Dev.dropPacket_lane (p : LanePkt) (j : Nat) : (d.dropPacket l p).lane j = d.lane j := by
  rw [Dev.dropPacket, Dev.packetDropped_lane, Dev.inc_lane]

theorem Dev.dropPacket_counts (p : LanePkt) (hl : l < 65536) : d.counts (d.dropPacket l p) LAN_DROP_FULL l 1 := by
  rw [Dev.counts, Dev.dropPacket, Dev.packetDropped, Dev.rf_wf_kind _ _ _ _ (by decide) hl hl, Dev.setLan_rf,
    Dev.rf_inc_self _ _ _ _ (by decide)]

/-- The packets of a FIFO, each dropped and counted. -/
def Dev.dropPackets (d : Dev) (l : Nat) (ps : List LanePkt) : Dev := ps.foldl (fun d p => d.dropPacket l p) d

theorem Dev.dropPackets_cons (p : LanePkt) (ps : List LanePkt) :
    d.dropPackets l (p :: ps) = (d.dropPacket l p).dropPackets l ps := by
  rw [Dev.dropPackets, List.foldl_cons, Dev.dropPackets]

theorem Dev.onlyLanes_dropPackets (ps : List LanePkt) (hl : l < 65536) : d.onlyLanes (d.dropPackets l ps) [l] := by
  induction ps generalizing d with
  | nil => exact .refl d _
  | cons p ps ih =>
    rw [Dev.dropPackets_cons]
    exact (d.onlyLanes_dropPacket l p hl).next (ih _)

theorem Dev.dropPackets_lane (ps : List LanePkt) (j : Nat) : (d.dropPackets l ps).lane j = d.lane j := by
  induction ps generalizing d with
  | nil => rfl
  | cons p ps ih => rw [Dev.dropPackets_cons, ih, Dev.dropPacket_lane]

/-- Every drop counts, up to the counter's maximum (R428). -/
theorem Dev.dropPackets_counts (ps : List LanePkt) (hl : l < 65536) :
    d.counts (d.dropPackets l ps) LAN_DROP_FULL l ps.length := by
  induction ps generalizing d with
  | nil => exact (Nat.min_eq_left (Nat.le_sub_one_of_lt (d.rf_lt LAN_DROP_FULL l))).symm
  | cons p ps ih =>
    have hone := d.dropPacket_counts l p hl
    have hrest := ih (d.dropPacket l p)
    rw [Dev.counts] at hone hrest ⊢
    rw [Dev.dropPackets_cons, hrest, hone, List.length_cons]
    omega

theorem Dev.showFill_rf (f : Fld) (hf : f.kind ∉ [RegKind.LAN_FILL, .LAN_PEAK]) (hl : l < 65536) :
    (d.showFill l).rf f l = d.rf f l := by
  simp only [List.mem_cons, List.not_mem_nil, or_false, not_or] at hf
  obtain ⟨hfill, hpeak⟩ := hf
  unfold Dev.showFill
  dsimp only
  split
  · rw [Dev.rf_wf_kind _ _ _ _ hpeak hl hl, Dev.rf_wf_kind _ _ _ _ hfill hl hl]
  · exact Dev.rf_wf_kind _ _ _ _ hfill hl hl

theorem Dev.showFill_lane (j : Nat) : (d.showFill l).lane j = d.lane j := by
  unfold Dev.showFill
  dsimp only
  split
  · rw [Dev.wf_lane, Dev.wf_lane]
  · rw [Dev.wf_lane]

theorem Dev.laneEmpty_eq : d.laneEmpty l true =
    ((d.dropPackets l (d.lane l).fifo).setLane l { (d.dropPackets l (d.lane l).fifo).lane l with fifo := [] }).showFill l := by
  unfold Dev.laneEmpty Dev.dropPackets Dev.dropPacket
  simp only [if_true]

theorem Dev.onlyLanes_laneEmpty (hl : l < 65536) : d.onlyLanes (d.laneEmpty l true) [l] := by
  rw [Dev.laneEmpty_eq]
  exact ((d.onlyLanes_dropPackets l _ hl).next (Dev.onlyLanes_setLane _ l _)).next (Dev.onlyLanes_showFill _ l hl)

/-- A lane after its FIFO has been emptied. -/
theorem Dev.laneEmpty_lane : (d.laneEmpty l true).lane l = { d.lane l with fifo := [] } := by
  rw [Dev.laneEmpty_eq, Dev.showFill_lane, Dev.lane_setLane, Dev.dropPackets_lane]

theorem Dev.setLane_rf (x : Lane) (f : Fld) (i : Nat) : (d.setLane l x).rf f i = d.rf f i := rfl

theorem Dev.laneEmpty_counts (hl : l < 65536) :
    d.counts (d.laneEmpty l true) LAN_DROP_FULL l (d.lane l).fifo.length := by
  rw [Dev.laneEmpty_eq, Dev.counts, Dev.showFill_rf _ _ _ (by decide) hl, Dev.setLane_rf]
  exact d.dropPackets_counts l _ hl

theorem Dev.onlyLanes_laneSettle (hl : l < 65536) : d.onlyLanes (d.laneSettle l) [l] := by
  have hstate (e : Dev) (n : Nat) : e.onlyLanes (e.wf LAN_STAT_STATE l n) [l] := e.onlyLanes_wf l _ n (by decide) hl
  unfold Dev.laneSettle
  dsimp only
  split
  · exact hstate _ _
  split
  · exact .refl d _
  split
  · exact hstate _ _
  split
  · exact .refl d _
  · exact (d.onlyLanes_setLane l _).next (hstate _ _)

/-- A disabled lane in a powered quad whose packet has left the wire is idle (R420). -/
theorem Dev.laneSettle_disabled (hrel : d.gpio.released = true) (hdom : d.domOn (7 + l / 4) = true)
    (hen : d.on LAN_CTRL_EN l = false) (hwire : (d.lane l).wireTo ≤ d.now) :
    d.laneSettle l = d.wf LAN_STAT_STATE l lsIDLE := by
  have hending : d.laneEnding l = false := by simp [Dev.laneEnding, Nat.not_lt.mpr hwire]
  simp [Dev.laneSettle, hrel, hdom, hending, Dev.laneReady, hen]

theorem Dev.onlyLanes_laneEnds (hl : l < 65536) : d.onlyLanes (d.laneEnds l) [l] := by
  unfold Dev.laneEnds
  split
  · exact (d.onlyLanes_laneEmpty l hl).next (Dev.onlyLanes_laneSettle _ l hl)
  · exact .refl d _

theorem Dev.laneEnds_of_not
    (h : d.rf LAN_STAT_STATE l ≠ lsRUN ∨ d.on LAN_CTRL_EN l = true ∨ d.now < (d.lane l).wireTo) : d.laneEnds l = d := by
  rw [Dev.laneEnds, if_neg]
  rintro ⟨hrun, hen, hwire⟩
  obtain h | h | h := h
  · exact h hrun
  · simp [hen] at h
  · omega

/-- A disabled lane whose packet has left the wire: idle, empty, and its packets counted as dropped (R420). -/
theorem Dev.laneEnds_ended (hl : l < 12) (hrun : d.rf LAN_STAT_STATE l = lsRUN) (hen : d.on LAN_CTRL_EN l = false)
    (hwire : (d.lane l).wireTo ≤ d.now) (hrel : d.gpio.released = true) (hdom : d.domOn (7 + l / 4) = true) :
    (d.laneEnds l).rf LAN_STAT_STATE l = lsIDLE ∧ ((d.laneEnds l).lane l).fifo = [] ∧
      d.counts (d.laneEnds l) LAN_DROP_FULL l (d.lane l).fifo.length := by
  have hl' : l < 65536 := by omega
  have hempty := d.onlyLanes_laneEmpty l hl'
  have hlane := d.laneEmpty_lane l
  have hidle : d.laneEnds l = (d.laneEmpty l true).wf LAN_STAT_STATE l lsIDLE := by
    rw [Dev.laneEnds, if_pos ⟨hrun, hen, hwire⟩]
    refine Dev.laneSettle_disabled _ l (by rw [hempty.gpio, hrel]) (by rw [hempty.domOn_quad (by omega), hdom]) ?_ ?_
    · rw [hempty.on_out hl' (.inr (by decide)), hen]
    · rw [hlane, hempty.now]; exact hwire
  rw [hidle]
  refine ⟨Dev.rf_wf_self _ _ _ _ (by decide), ?_, ?_⟩
  · rw [Dev.wf_lane, hlane]
  · rw [Dev.counts, Dev.rf_wf_kind _ _ _ _ (by decide) hl' hl']
    exact d.laneEmpty_counts l hl'

end

/-! The lanes in turn -/

/-- The lanes of a list take their turns. -/
def Dev.lanesEnd (d : Dev) (ls : List Nat) : Dev := ls.foldl (fun d l => d.laneEnds l) d

theorem Dev.onlyLanes_lanesEnd (d : Dev) (ls : List Nat) (hls : ∀ l ∈ ls, l < 65536) : d.onlyLanes (d.lanesEnd ls) ls :=
  foldl_keeps (fun e => d.onlyLanes e ls) _ ls d (.refl d _) fun e l hl he =>
    he.trans (e.onlyLanes_laneEnds l (hls l hl)) (List.Subset.refl _) (by simpa using hl)

/-- A lane's turn meets the lane as it was at first, and what it leaves of the lane stays. -/
theorem Dev.lanesEnd_turn (d : Dev) {ls : List Nat} (hls : ∀ l ∈ ls, l < 65536) (hnd : ls.Nodup) {l : Nat} (hl : l ∈ ls) :
    ∃ e before after, d.onlyLanes e before ∧ l ∉ before ∧ (e.laneEnds l).onlyLanes (d.lanesEnd ls) after ∧ l ∉ after := by
  obtain ⟨before, after, rfl⟩ := List.append_of_mem hl
  obtain ⟨-, htail, hdisj⟩ := List.nodup_append.mp hnd
  refine ⟨d.lanesEnd before, before, after, d.onlyLanes_lanesEnd _ fun j hj => hls j (by simp [hj]),
    fun h => hdisj l h l (by simp) rfl, ?_, (List.nodup_cons.mp htail).1⟩
  have hsplit : d.lanesEnd (before ++ l :: after) = ((d.lanesEnd before).laneEnds l).lanesEnd after := by
    simp [Dev.lanesEnd]
  rw [hsplit]
  exact Dev.onlyLanes_lanesEnd _ _ fun j hj => hls j (by simp [hj])

/-- What the turns of the twelve lanes leave of each. -/
theorem Dev.lanesEnd_lane (d : Dev) {l : Nat} (hl : l < 12) :
    ((d.rf LAN_STAT_STATE l ≠ lsRUN ∨ d.on LAN_CTRL_EN l = true ∨ d.now < (d.lane l).wireTo) →
      (d.lanesEnd (List.range 12)).rreg .LAN_STAT l = d.rreg .LAN_STAT l ∧
        (d.lanesEnd (List.range 12)).lane l = d.lane l) ∧
    (d.rf LAN_STAT_STATE l = lsRUN → d.on LAN_CTRL_EN l = false → (d.lane l).wireTo ≤ d.now → d.gpio.released = true →
      d.domOn (7 + l / 4) = true → (d.lanesEnd (List.range 12)).rf LAN_STAT_STATE l = lsIDLE ∧
        ((d.lanesEnd (List.range 12)).lane l).fifo = [] ∧
        d.counts (d.lanesEnd (List.range 12)) LAN_DROP_FULL l (d.lane l).fifo.length) := by
  have hl' : l < 65536 := by omega
  obtain ⟨e, before, after, hbefore, hlb, hafter, hla⟩ := d.lanesEnd_turn (ls := List.range 12)
    (fun j hj => by have := List.mem_range.mp hj; omega) List.nodup_range (List.mem_range.mpr hl)
  have hstate : e.rf LAN_STAT_STATE l = d.rf LAN_STAT_STATE l := hbefore.rf_out hl' (.inl hlb)
  have hen : e.on LAN_CTRL_EN l = d.on LAN_CTRL_EN l := hbefore.on_out hl' (.inl hlb)
  have hlane : e.lane l = d.lane l := hbefore.lanes l hlb
  refine ⟨fun h => ?_, fun hrun hoff hwire hrel hdom => ?_⟩
  · rw [← hstate, ← hen, ← hlane, ← hbefore.now] at h
    rw [e.laneEnds_of_not l h] at hafter
    exact ⟨(hafter.rreg_out hl' (.inl hla)).trans (hbefore.rreg_out hl' (.inl hlb)), (hafter.lanes l hla).trans hlane⟩
  · obtain ⟨hidle, hfifo, hcount⟩ := e.laneEnds_ended l hl (hstate.trans hrun) (hen.trans hoff)
      (by rw [hlane, hbefore.now]; exact hwire) (by rw [hbefore.gpio, hrel])
      (by rw [hbefore.domOn_quad (by omega), hdom])
    refine ⟨(hafter.rf_out hl' (.inl hla)).trans hidle, by rw [hafter.lanes l hla, hfifo], ?_⟩
    rw [Dev.counts, hafter.rf_out hl' (.inl hla), hcount, hbefore.rf_out hl' (.inl hlb), hlane]

/-! The whole step -/

/-- A sample instant of a converter changes the converters only. -/
theorem Dev.mcvSample_eq (d : Dev) (m : Nat) : d.mcvSample m = { d with mcv := (d.mcvSample m).mcv } := by
  unfold Dev.mcvSample
  split
  · rfl
  · split <;> rfl

/-- What TB shows when the clock has gone on by 1 ns to `now` (R26, R41). -/
def tbAfter (st : PState) (now : Nat) (tb : BitVec 64) : BitVec 64 :=
  match st with
  | .starting | .run | .hold | .nap => tb + 1
  | .sleep | .waking => if now % 40 = 0 then tb + 40 else tb
  | _ => tb

/-- The device 1 ns later, before its lanes take their turns and TB counts. -/
def Dev.aged (d : Dev) : Dev := (({ d with now := d.now + 1, sets := [] } : Dev).mcvSample 0).mcvSample 1

theorem Dev.aged_eq (d : Dev) : d.aged = { d with now := d.now + 1, sets := [], mcv := d.aged.mcv } := by
  rw [Dev.aged, Dev.mcvSample_eq, Dev.mcvSample_eq]

/-- A tick: the device ages, its lanes take their turns, and TB counts. -/
theorem Dev.tick_eq (d : Dev) {e : Dev} (he : d.aged.lanesEnd (List.range 12) = e) :
    d.tick = { e with tb := tbAfter e.pwr.st e.now e.tb } := by
  have hturns : (List.range 12).foldl (fun (d : Dev) l => d.laneEnds l)
      ((({ d with now := d.now + 1, sets := [] } : Dev).mcvSample 0).mcvSample 1) = e := he
  simp only [Dev.tick, hturns]
  cases e.pwr.st
  case sleep | waking => dsimp only [tbAfter]; split <;> rfl
  all_goals rfl

/-- Settles O2: a step on an empty queue is one tick, in which only the lanes that end change registers. -/
theorem idleStepPassesTime : Obligations.IdleStepPassesTime := by
  intro s hs
  have hall := s.dev.aged.onlyLanes_lanesEnd (List.range 12) fun l hl => by have := List.mem_range.mp hl; omega
  have hlane := fun l (hl : l < 12) => s.dev.aged.lanesEnd_lane hl
  have hstep : step s = .next { s with dev := s.dev.tick } := by simp only [step, hs]
  refine ⟨_, hstep, ⟨rfl, rfl⟩, ?_⟩
  generalize he : s.dev.aged.lanesEnd (List.range 12) = e at hall hlane
  rw [s.dev.tick_eq he]
  rw [Dev.aged_eq] at hall hlane
  refine ⟨hall.now, hall.evq, hall.pwr, hall.regs, hlane, ?_⟩
  show tbAfter e.pwr.st e.now e.tb = _
  rw [hall.pwr, hall.now, hall.tb]
  cases s.dev.pwr.st <;> rfl

end Sys2Proof.Machine
end

section
/-! SUPPORT. Encoder samples: which registers a change leaves alone, and what a sample counts. -/

namespace Sys2Proof.Machine

/-! Which registers change -/

section

variable {d d' d'' : Dev} {l m : List (RegKind × Nat)}

/-- A change outside the register map. -/
theorem Dev.onlyRegs_of_regs (h : d'.regs = d.regs) : d.onlyRegs d' l := fun _ _ _ _ => by
  rw [Dev.rreg, h, Dev.rreg]

theorem Dev.onlyRegs.trans (h : d.onlyRegs d' l) (h' : d'.onlyRegs d'' l) : d.onlyRegs d'' l :=
  fun k i hi hne => (h' k i hi hne).trans (h k i hi hne)

theorem Dev.onlyRegs.mono (h : d.onlyRegs d' l) (hs : l ⊆ m) : d.onlyRegs d' m :=
  fun k i hi hne => h k i hi fun hx => hne (hs hx)

/-- A field of a register outside the list keeps its value. -/
theorem Dev.onlyRegs.rf (h : d.onlyRegs d' l) {f : Fld} {i : Nat} (hi : i < 65536) (hne : (f.kind, i) ∉ l) :
    d'.rf f i = d.rf f i := Dev.rf_of_rreg (h _ i hi hne)

theorem Dev.onlyRegs.on (h : d.onlyRegs d' l) {f : Fld} {i : Nat} (hi : i < 65536) (hne : (f.kind, i) ∉ l) :
    d'.on f i = d.on f i := Dev.on_of_rreg (h _ i hi hne)

theorem Dev.onlyRegs_wf (d : Dev) (f : Fld) {i : Nat} (n : Nat) (hi : i < 65536) (hm : (f.kind, i) ∈ l) :
    d.onlyRegs (d.wf f i n) l := fun _ _ hj hne => d.rreg_wf_ne f n (fun h => hne (h ▸ hm)) hi hj

theorem Dev.onlyRegs_inc (d : Dev) (f : Fld) {i : Nat} (n : Nat) (hi : i < 65536) (hm : (f.kind, i) ∈ l) :
    d.onlyRegs (d.inc f i n) l := fun _ _ hj hne => d.rreg_inc_ne f n (fun h => hne (h ▸ hm)) hi hj

/-- What each step of a walk leaves alone, the walk leaves alone. -/
theorem Dev.onlyRegs_foldl {α : Type} (d : Dev) (f : Dev → α → Dev) (xs : List α)
    (h : ∀ (e : Dev) x, x ∈ xs → e.onlyRegs (f e x) l) : d.onlyRegs (xs.foldl f d) l :=
  foldl_keeps (fun e => d.onlyRegs e l) f xs d (Dev.onlyRegs_of_regs rfl) fun e x hx he => he.trans (h e x hx)

end

/-- Two fields share no bit of a register: other registers, or other bits. -/
def Fld.apart (f g : Fld) : Bool :=
  decide (g.kind ≠ f.kind) ||
    decide (g.kind = f.kind ∧ f.lsb + f.width ≤ 32 ∧ (g.lsb + g.width ≤ f.lsb ∨ f.lsb + f.width ≤ g.lsb))

section

variable (d : Dev) {i j : Nat} (hi : i < 65536) (hj : j < 65536) (f g : Fld) (n : Nat) (h : f.apart g = true)
include hi hj h

/-- A field apart from the written one keeps its value, whichever elements the two are of. -/
theorem Dev.rf_wf_apart : (d.wf f i n).rf g j = d.rf g j := by
  simp only [Fld.apart, Bool.or_eq_true, decide_eq_true_eq] at h
  obtain hk | ⟨hk, hfit, hbits⟩ := h
  · exact d.rf_wf_kind f g n hk hi hj
  · by_cases hij : j = i
    · exact hij ▸ d.rf_wf_bits f g j n hk hfit hbits
    · exact d.rf_wf_idx f g n hk hij

theorem Dev.on_wf_apart : (d.wf f i n).on g j = d.on g j := by
  unfold Dev.on; rw [d.rf_wf_apart hi hj f g n h]

theorem Dev.rf_inc_apart : (d.inc f i n).rf g j = d.rf g j := d.rf_wf_apart hi hj f g _ h

theorem Dev.on_inc_apart : (d.inc f i n).on g j = d.on g j := d.on_wf_apart hi hj f g _ h

end

/-! Samples of an encoder port -/

theorem accepted_of_le {old new : Bool} {n filt : Nat} (h : n ≤ filt) : accepted old new n filt = old := by
  rw [accepted, if_neg (by omega)]

theorem accepted_of_lt {old new : Bool} {n filt : Nat} (h : filt < n) : accepted old new n filt = new := by
  rw [accepted, if_pos (by omega)]

/-- The port once these levels are accepted. -/
def EncPort.withLevels (e : EncPort) (a b z : Bool) : EncPort := { e with a := a, b := b, z := z, zLow := e.zLow || !z }

/-! What a level change means (R32, R33) -/

theorem encDecode_same (mode : Nat) (inv a b : Bool) : encDecode mode inv a b a b = .nothing := by
  unfold encDecode
  split <;> cases a <;> cases b <;> rfl

theorem encDecode_both {a b a' b' : Bool} (inv : Bool) (ha : a ≠ a') (hb : b ≠ b') :
    encDecode 0 inv a b a' b' = .illegal := by
  revert a b a' b' inv; decide

theorem encDecode_forward {a b a' b' : Bool} (h : (a, b, a', b') ∈ quadForward) :
    encDecode 0 false a b a' b' = .forward := by
  revert a b a' b'; decide

theorem encDecode_backward {a b a' b' : Bool} (h : (a', b', a, b) ∈ quadForward) :
    encDecode 0 false a b a' b' = .backward := by
  revert a b a' b'; decide

/-! A sample that leaves Z as it is: what it comes to -/

section

variable {d : Dev} {p : Nat} {a b z : Bool} (t tz : Nat) (hz : (d.getEnc p).z = z)
include hz

/-- A disabled port only takes the levels. -/
theorem Dev.encEdge_off (hen : d.on ENC_CTRL_EN p = false) :
    d.encEdge p a b z t tz = d.setEnc p ((d.getEnc p).withLevels a b z) := by
  simp [Dev.encEdge, hen, hz, EncPort.withLevels]

variable (hen : d.on ENC_CTRL_EN p = true)
include hen

theorem Dev.encEdge_nothing
    (hdec : encDecode (d.rf ENC_CTRL_MODE p) (d.on ENC_CTRL_INV p) (d.getEnc p).a (d.getEnc p).b a b = .nothing) :
    d.encEdge p a b z t tz = d.setEnc p ((d.getEnc p).withLevels a b z) := by
  simp [Dev.encEdge, hen, hz, hdec, EncPort.withLevels]

theorem Dev.encEdge_illegal
    (hdec : encDecode (d.rf ENC_CTRL_MODE p) (d.on ENC_CTRL_INV p) (d.getEnc p).a (d.getEnc p).b a b = .illegal) :
    d.encEdge p a b z t tz =
      ((d.setEnc p ((d.getEnc p).withLevels a b z)).wf ENC_STAT_QERR p 1).inc ENC_ERRCNT_QERRS p 1 := by
  simp [Dev.encEdge, hen, hz, hdec, EncPort.withLevels]

end

/-- What tells which triggers a port drives: `LTG.CTRL`, the island's port, and which of them run locally. -/
theorem Dev.ltgsOn_congr {d d' : Dev} (p : Nat) (hctrl : ∀ h, h < 24 → d'.rreg .LTG_CTRL h = d.rreg .LTG_CTRL h)
    (hisl : d'.rreg .ZLK_ISLAND 0 = d.rreg .ZLK_ISLAND 0) (hltg : d'.ltg = d.ltg) : d'.ltgsOn p = d.ltgsOn p := by
  refine List.filter_congr fun h hh => ?_
  have hc := hctrl h (List.mem_range.mp hh)
  have hf : ∀ f : Fld, f.kind = .LTG_CTRL → d'.rf f h = d.rf f h := fun f hk => Dev.rf_of_rreg (hk ▸ hc)
  have hsrc : d'.ltgSrc h = d.ltgSrc h := by
    simp only [Dev.ltgSrc]; rw [hf LTG_CTRL_SRC rfl, Dev.getLtg, hltg, Dev.getLtg]
  have hport : d'.ltgPort h = d.ltgPort h := by
    simp only [Dev.ltgPort]
    rw [hf LTG_CTRL_SRC rfl, hf LTG_CTRL_ENC rfl, Dev.rf_of_rreg (f := ZLK_ISLAND_ENC) hisl]
  rw [Dev.on_of_rreg (f := LTG_CTRL_ARM) hc, hsrc, hport]

/-- The registers of encoder port `p` that a count may change. -/
def encRegs (p : Nat) : List (RegKind × Nat) := [(.ENC_STAT, p), (.ENC_ERRCNT, p)]

theorem Dev.ltgsOn_of_encRegs {d d' : Dev} {p : Nat} (hregs : d.onlyRegs d' (encRegs p)) (hltg : d'.ltg = d.ltg) :
    d'.ltgsOn p = d.ltgsOn p :=
  Dev.ltgsOn_congr p (fun h hh => hregs _ h (by omega) (by simp [encRegs])) (hregs _ 0 (by omega) (by simp [encRegs])) hltg

/-! A count -/

section

variable (d : Dev) (p : Nat)

/-- The minimum spacing of counts, checked (R34). -/
def Dev.spacingCheck (t : Nat) : Dev :=
  match (d.getEnc p).last8 with
  | c :: _ => if t < c.t + 25 then (d.wf ENC_STAT_OVSP p 1).inc ENC_ERRCNT_OVSPS p 1 else d
  | [] => d

theorem Dev.spacingCheck_cases (t : Nat) :
    d.spacingCheck p t = d ∨ d.spacingCheck p t = (d.wf ENC_STAT_OVSP p 1).inc ENC_ERRCNT_OVSPS p 1 := by
  unfold Dev.spacingCheck
  split
  · split
    · exact .inr rfl
    · exact .inl rfl
  · exact .inl rfl

theorem Dev.rateCheck_cases : d.rateCheck p = d ∨ d.rateCheck p = d.wf ENC_STAT_RATE p 1 := by
  unfold Dev.rateCheck
  dsimp only
  split
  · exact .inr rfl
  · exact .inl rfl

/-- The position after a count. -/
def countedPos (fwd : Bool) (pos : Pos) : Pos := if fwd then pos + 1 else pos - 1

/-- The port after a count, and its VALID (R38). -/
def Dev.portCounted (fwd : Bool) (t : Nat) : EncPort × Bool :=
  let np := countedPos fwd (d.getEnc p).pos
  let r := ((d.getEnc p).remember t np.toInt).estimate (!fwd) (d.on ENC_STAT_REV p) (d.on ENC_STAT_VALID p) t np.toInt
    (d.rf ENC_CTRL_VWIN p) (d.rf ENC_CTRL_VSHIFT p)
  ({ r.1 with pos := np, lastNow := d.now }, r.2)

/-- The count stored: the port and its flags (R32, R38, R40). -/
def Dev.countStored (fwd : Bool) (t : Nat) : Dev :=
  (((d.setEnc p (d.portCounted p fwd t).1).wf ENC_STAT_VALID p (b2n (d.portCounted p fwd t).2)).wf ENC_STAT_REV p
    (b2n (!fwd))).wf ENC_STAT_STALLED p 0

theorem Dev.encCount_eq (fwd : Bool) (t : Nat) :
    d.encCount p fwd t = ((d.spacingCheck p t).countStored p fwd t).rateCheck p := by
  have he : (d.spacingCheck p t).getEnc p = d.getEnc p := by
    obtain h | h := d.spacingCheck_cases p t <;> rw [h]
    simp
  unfold Dev.countStored Dev.portCounted countedPos
  rw [he]
  rfl

theorem EncPort.estimate_last8 (e : EncPort) (revNow revLast valid : Bool) (t : Nat) (q : Int) (vwin vshift : Nat) :
    (e.estimate revNow revLast valid t q vwin vshift).1.last8 = e.last8 := by
  unfold EncPort.estimate
  dsimp only
  split <;> rfl

theorem Dev.portCounted_time (fwd : Bool) (t : Nat) : ((d.portCounted p fwd t).1.last8.headD ⟨0, 0⟩).t = t := by
  simp [Dev.portCounted, EncPort.estimate_last8, EncPort.remember]

end

/-- What a count leaves of the device (R32, R34, R38, R40). -/
structure Dev.countsTo (d d' : Dev) (p : Nat) (fwd : Bool) (t : Nat) : Prop where
  regs : d.onlyRegs d' (encRegs p)
  ltg : d'.ltg = d.ltg
  pos : (d'.getEnc p).pos = countedPos fwd (d.getEnc p).pos
  time : ((d'.getEnc p).last8.headD ⟨0, 0⟩).t = t
  rev : d'.on ENC_STAT_REV p = !fwd
  stalled : d'.on ENC_STAT_STALLED p = false

section

variable (d : Dev) {p : Nat} (hp : p < 65536)
include hp

theorem Dev.onlyRegs_encStat (f : Fld) (n : Nat) (hf : f.kind = .ENC_STAT) : d.onlyRegs (d.wf f p n) (encRegs p) :=
  d.onlyRegs_wf f n hp (by simp [encRegs, hf])

theorem Dev.onlyRegs_spacingCheck (t : Nat) : d.onlyRegs (d.spacingCheck p t) (encRegs p) := by
  obtain h | h := d.spacingCheck_cases p t <;> rw [h]
  · exact Dev.onlyRegs_of_regs rfl
  · exact (d.onlyRegs_encStat hp _ _ rfl).trans (Dev.onlyRegs_inc _ _ _ hp (by simp [encRegs, ENC_ERRCNT_OVSPS]))

theorem Dev.countsTo_countStored (fwd : Bool) (t : Nat) : d.countsTo (d.countStored p fwd t) p fwd t where
  regs := by
    have hport : d.onlyRegs (d.setEnc p (d.portCounted p fwd t).1) (encRegs p) := Dev.onlyRegs_of_regs rfl
    exact ((hport.trans (Dev.onlyRegs_encStat _ hp _ _ rfl)).trans (Dev.onlyRegs_encStat _ hp _ _ rfl)).trans
      (Dev.onlyRegs_encStat _ hp _ _ rfl)
  ltg := by simp [Dev.countStored]
  pos := by simp [Dev.countStored, Dev.portCounted]
  time := by simp only [Dev.countStored, Dev.wf_getEnc, Dev.getEnc_setEnc, Dev.portCounted_time]
  rev := by
    rw [Dev.countStored, Dev.on_wf_apart _ hp hp _ _ _ (by decide), Dev.on_wf_b2n _ _ _ _ (by decide) (by decide)]
  stalled := Dev.on_wf_zero _ _ _ (by decide)

theorem Dev.countsTo_encCount (fwd : Bool) (t : Nat) : d.countsTo (d.encCount p fwd t) p fwd t := by
  rw [d.encCount_eq]
  have hs := d.onlyRegs_spacingCheck hp t
  have hc := (d.spacingCheck p t).countsTo_countStored hp fwd t
  have hsame : (d.spacingCheck p t).ltg = d.ltg ∧ (d.spacingCheck p t).getEnc p = d.getEnc p := by
    obtain h | h := d.spacingCheck_cases p t <;> simp [h]
  generalize d.spacingCheck p t = e at hs hc hsame ⊢
  obtain ⟨hltg, hget⟩ := hsame
  generalize e.countStored p fwd t = x at hc ⊢
  have hpos := hc.pos
  rw [hget] at hpos
  obtain h | h := x.rateCheck_cases p <;> rw [h]
  · exact ⟨hs.trans hc.regs, hc.ltg.trans hltg, hpos, hc.time, hc.rev, hc.stalled⟩
  · refine ⟨(hs.trans hc.regs).trans (x.onlyRegs_encStat hp _ _ rfl), hc.ltg.trans hltg, ?_, ?_, ?_, ?_⟩
    · rw [Dev.wf_getEnc, hpos]
    · rw [Dev.wf_getEnc, hc.time]
    · rw [Dev.on_wf_apart _ hp hp _ _ _ (by decide), hc.rev]
    · rw [Dev.on_wf_apart _ hp hp _ _ _ (by decide), hc.stalled]

end

/-! Counts of a port -/

/-- The index is taken, if it has come (R35). -/
def Dev.indexIf (d : Dev) (p : Nat) (c : Bool) : Dev := if c then d.encIndex p else d

/-- The triggers that the port drives take a count (R51, R53). -/
def Dev.triggersCount (d : Dev) (p : Nat) (fwd : Bool) (pBefore : Int) : Dev :=
  (d.ltgsOn p).foldl (fun d h => d.ltgCount h fwd pBefore) d

theorem Dev.triggersCount_none {d : Dev} {p : Nat} (h : d.ltgsOn p = []) (fwd : Bool) (pBefore : Int) :
    d.triggersCount p fwd pBefore = d := by
  rw [Dev.triggersCount, h, List.foldl_nil]

section

variable {d : Dev} {p : Nat} {a b z : Bool} (t tz : Nat) (hz : (d.getEnc p).z = z) (hen : d.on ENC_CTRL_EN p = true)
include hz hen

theorem Dev.encEdge_forward
    (hdec : encDecode (d.rf ENC_CTRL_MODE p) (d.on ENC_CTRL_INV p) (d.getEnc p).a (d.getEnc p).b a b = .forward) :
    d.encEdge p a b z t tz = (((d.setEnc p ((d.getEnc p).withLevels a b z)).encCount p true t).indexIf p
      (z && (d.getEnc p).zLow)).triggersCount p true (d.getEnc p).pLast := by
  simp only [Dev.encEdge, hz, Dev.setEnc_on, Dev.setEnc_rf, hen, hdec, if_true, bne_self_eq_false, Bool.false_eq_true,
    if_false]
  rfl

theorem Dev.encEdge_backward
    (hdec : encDecode (d.rf ENC_CTRL_MODE p) (d.on ENC_CTRL_INV p) (d.getEnc p).a (d.getEnc p).b a b = .backward) :
    d.encEdge p a b z t tz = ((d.setEnc p ((d.getEnc p).withLevels a b z)).encCount p false t).triggersCount p false
      (d.getEnc p).pLast := by
  simp only [Dev.encEdge, hz, Dev.setEnc_on, Dev.setEnc_rf, hen, hdec, if_true, bne_self_eq_false, Bool.false_eq_true,
    if_false]
  rfl

end

/-- A port that ignores the index takes note of the level of Z only (R35). -/
theorem Dev.encIndex_ignored {d : Dev} {p : Nat} (h : d.rf ENC_CTRL_IDX p = 0) :
    d.encIndex p = d.setEnc p { d.getEnc p with zLow := false } := by
  simp [Dev.encIndex, h]

section

variable {d d' : Dev} {p : Nat} {fwd : Bool} {t : Nat}

/-- The levels that come with a count change nothing else of it. -/
theorem Dev.countsTo.withLevels {a b z : Bool}
    (h : (d.setEnc p ((d.getEnc p).withLevels a b z)).countsTo d' p fwd t) : d.countsTo d' p fwd t where
  regs := (Dev.onlyRegs_of_regs rfl).trans h.regs
  ltg := h.ltg
  pos := by have hpos := h.pos; rwa [Dev.getEnc_setEnc] at hpos
  time := h.time
  rev := h.rev
  stalled := h.stalled

/-- An index that the port ignores leaves the count as it is. -/
theorem Dev.countsTo.indexIf (h : d.countsTo d' p fwd t) (hp : p < 65536) {c : Bool}
    (hc : c = false ∨ d.rf ENC_CTRL_IDX p = 0) : d.countsTo (d'.indexIf p c) p fwd t := by
  cases c with
  | false => exact h
  | true =>
    have hidx : d'.rf ENC_CTRL_IDX p = 0 := by
      rw [h.regs.rf hp (by simp [encRegs, ENC_CTRL_IDX]), hc.resolve_left (by simp)]
    rw [Dev.indexIf, if_pos rfl, Dev.encIndex_ignored hidx]
    refine ⟨h.regs.trans (Dev.onlyRegs_of_regs rfl), h.ltg, ?_, ?_, h.rev, h.stalled⟩ <;> rw [Dev.getEnc_setEnc]
    · exact h.pos
    · exact h.time

/-- A port that drives no trigger counts for itself alone. -/
theorem Dev.countsTo.triggersCount (h : d.countsTo d' p fwd t) (hno : d.ltgsOn p = []) (q : Int) :
    d.countsTo (d'.triggersCount p fwd q) p fwd t := by
  rwa [Dev.triggersCount_none (by rw [Dev.ltgsOn_of_encRegs h.regs h.ltg, hno])]

end

/-! A sample -/

section

variable {s : State} {p : Nat} (hlive : s.dev.live 4 = true) (a b z : Bool) {na nb nz : Nat}
include hlive

/-- A sample while PD_TIM runs: the levels that the filters accept (R31). -/
theorem exec_encEdgeAccepted : exec (.encEdgeAccepted p a b z na nb nz) s = .next (s.onDev (fun d =>
    d.encEdge p (d.encSample p a b z na nb nz).1.1 (d.encSample p a b z na nb nz).1.2.1
      (d.encSample p a b z na nb nz).1.2.2 (d.encSample p a b z na nb nz).2.1 (d.encSample p a b z na nb nz).2.2)) := by
  show execEncEdgeAccepted p a b z na nb nz s = _
  simp [execEncEdgeAccepted, State.onDev, hlive]

/-- Levels that have not been stable for long enough change nothing. -/
theorem exec_encEdgeAccepted_wait (hna : na ≤ s.dev.rf ENC_FILT_ABW p) (hnb : nb ≤ s.dev.rf ENC_FILT_ABW p)
    (hnz : nz ≤ s.dev.rf ENC_FILT_ZW p) :
    exec (.encEdgeAccepted p a b z na nb nz) s = .next (s.onDev (fun d =>
      d.setEnc p ((d.getEnc p).withLevels (d.getEnc p).a (d.getEnc p).b (d.getEnc p).z))) := by
  rw [exec_encEdgeAccepted hlive]
  simp only [Dev.encSample, State.onDev, accepted_of_le hna, accepted_of_le hnb, accepted_of_le hnz]
  cases hen : s.dev.on ENC_CTRL_EN p with
  | false => rw [Dev.encEdge_off _ _ rfl hen]
  | true => rw [Dev.encEdge_nothing _ _ rfl hen (encDecode_same _ _ _ _)]

/-- Levels of A and B that the filters accept, Z being as before. -/
theorem exec_encEdgeAccepted_taken (hna : s.dev.rf ENC_FILT_ABW p < na) (hnb : s.dev.rf ENC_FILT_ABW p < nb)
    (hz : (s.dev.getEnc p).z = z) :
    exec (.encEdgeAccepted p a b z na nb nz) s = .next (s.onDev (fun d =>
      d.encEdge p a b z (d.edgeTime p (if a = (d.getEnc p).a then nb else na)) (d.edgeTime p nz))) := by
  have hkeep : accepted (s.dev.getEnc p).z z nz (s.dev.rf ENC_FILT_ZW p) = z := by simp [accepted, hz]
  rw [exec_encEdgeAccepted hlive]
  simp only [Dev.encSample, State.onDev, accepted_of_lt hna, accepted_of_lt hnb, hkeep]
  simp

end

/-- A and B changing together on an enabled X4 port: flagged and counted, neither count nor direction moves (R33). -/
theorem Dev.encEdge_both {d : Dev} {p : Nat} {a b z : Bool} (t tz : Nat) (hp : p < 65536) (hz : (d.getEnc p).z = z)
    (hen : d.on ENC_CTRL_EN p = true) (hmode : d.rf ENC_CTRL_MODE p = 0) (ha : (d.getEnc p).a ≠ a)
    (hb : (d.getEnc p).b ≠ b) :
    d.onlyRegs (d.encEdge p a b z t tz) (encRegs p) ∧ ((d.encEdge p a b z t tz).getEnc p).pos = (d.getEnc p).pos ∧
      (d.encEdge p a b z t tz).on ENC_STAT_REV p = d.on ENC_STAT_REV p ∧
      d.counts (d.encEdge p a b z t tz) ENC_ERRCNT_QERRS p 1 ∧ (d.encEdge p a b z t tz).on ENC_STAT_QERR p = true := by
  rw [Dev.encEdge_illegal t tz hz hen (by rw [hmode]; exact encDecode_both _ ha hb)]
  refine ⟨?_, ?_, ?_, ?_, ?_⟩
  · exact ((Dev.onlyRegs_of_regs rfl).trans (Dev.onlyRegs_encStat _ hp _ _ rfl)).trans
      (Dev.onlyRegs_inc _ _ _ hp (by simp [encRegs, ENC_ERRCNT_QERRS]))
  · rw [Dev.inc_getEnc, Dev.wf_getEnc, Dev.getEnc_setEnc]; rfl
  · rw [Dev.on_inc_apart _ hp hp _ _ _ (by decide), Dev.on_wf_apart _ hp hp _ _ _ (by decide)]; rfl
  · rw [Dev.counts, Dev.rf_inc_self _ _ _ _ (by decide), Dev.rf_wf_apart _ hp hp _ _ _ (by decide)]; rfl
  · rw [Dev.on_inc_apart _ hp hp _ _ _ (by decide), Dev.on_wf_one _ _ _ (by decide) (by decide)]

/-- Settles O9: the two changed levels decode as an illegal transition, which is only flagged and counted. -/
theorem encoderIllegalTransition : Obligations.EncoderIllegalTransition := by
  intro s p a b z na nb nz hp hlive hen hmode ha hb hz hna hnb
  obtain ⟨hregs, hpos, hrev, hcount, hqerr⟩ := Dev.encEdge_both
    (s.dev.edgeTime p (if a = (s.dev.getEnc p).a then nb else na)) (s.dev.edgeTime p nz) (by omega) hz hen hmode ha hb
  exact ⟨_, exec_encEdgeAccepted_taken hlive a b z hna hnb hz, ⟨s.sameStore_onDev _, hregs⟩, hpos, hrev, hcount, hqerr⟩

end Sys2Proof.Machine
end

section
/-! SUPPORT. Stopping line triggers: what one changes, alone and in a walk over several. -/

namespace Sys2Proof.Machine

/-! What stopping a trigger changes -/

/-- The registers that a trigger's stop may change. -/
def stopKinds : List RegKind := [.LTG_CTRL, .LTG_STAT, .LTG_OVRCNT, .HCP_TSTAT]

theorem mem_ltgStopRegs {k : RegKind} {g i : Nat} : (k, i) ∈ ltgStopRegs g ↔ k ∈ stopKinds ∧ i = g := by
  simp only [ltgStopRegs, stopKinds, List.mem_cons, Prod.mk.injEq, List.not_mem_nil, or_false]
  tauto

/-- The stops of the triggers `hs`: no encoder changes, and of the other triggers neither `LTG.CTRL` nor COASTING and
STOPPED (R54). -/
structure Dev.stopsOnly (d d' : Dev) (hs : List Nat) : Prop where
  enc : d'.enc = d.enc
  regs : d.onlyRegs d' ((List.range 24).flatMap ltgStopRegs)
  ctrl : ∀ g, g < 24 → g ∉ hs → d'.rreg .LTG_CTRL g = d.rreg .LTG_CTRL g
  coasting : ∀ g, g < 24 → g ∉ hs → d'.on LTG_STAT_COASTING g = d.on LTG_STAT_COASTING g
  stopped : ∀ g, g < 24 → g ∉ hs → d'.on LTG_STAT_STOPPED g = d.on LTG_STAT_STOPPED g

section

variable {d d' d'' : Dev} {hs ms : List Nat}

theorem Dev.stopsOnly.trans (h : d.stopsOnly d' hs) (h' : d'.stopsOnly d'' ms) (hsub : hs ⊆ ms) : d.stopsOnly d'' ms where
  enc := h'.enc.trans h.enc
  regs := h.regs.trans h'.regs
  ctrl g hg hne := (h'.ctrl g hg hne).trans (h.ctrl g hg fun hx => hne (hsub hx))
  coasting g hg hne := (h'.coasting g hg hne).trans (h.coasting g hg fun hx => hne (hsub hx))
  stopped g hg hne := (h'.stopped g hg hne).trans (h.stopped g hg fun hx => hne (hsub hx))

theorem Dev.stopsOnly.mono (h : d.stopsOnly d' hs) (hsub : hs ⊆ ms) : d.stopsOnly d' ms where
  enc := h.enc
  regs := h.regs
  ctrl g hg hne := h.ctrl g hg fun hx => hne (hsub hx)
  coasting g hg hne := h.coasting g hg fun hx => hne (hsub hx)
  stopped g hg hne := h.stopped g hg fun hx => hne (hsub hx)

/-- A change of neither registers nor encoders. -/
theorem Dev.stopsOnly_of_regs (hr : d'.regs = d.regs) (he : d'.enc = d.enc) : d.stopsOnly d' hs :=
  have hregs (k : RegKind) (g : Nat) : d'.rreg k g = d.rreg k g := by rw [Dev.rreg, hr, Dev.rreg]
  ⟨he, Dev.onlyRegs_of_regs hr, fun g _ _ => hregs _ g, fun g _ _ => Dev.on_of_rreg (hregs _ g),
    fun g _ _ => Dev.on_of_rreg (hregs _ g)⟩

/-- What each step of a walk over triggers leaves, the walk leaves. -/
theorem Dev.stopsOnly_foldl (d : Dev) (f : Dev → Nat → Dev) (xs : List Nat)
    (h : ∀ (e : Dev) x, x ∈ xs → e.stopsOnly (f e x) hs) : d.stopsOnly (xs.foldl f d) hs :=
  foldl_keeps (fun e => d.stopsOnly e hs) f xs d (Dev.stopsOnly_of_regs rfl rfl)
    fun e x hx he => he.trans (h e x hx) (List.Subset.refl _)

end

section

variable (d : Dev) {g : Nat} (hg : g < 24)
include hg

theorem Dev.onlyRegs_stop_wf (f : Fld) (n : Nat) (hf : f.kind ∈ stopKinds) :
    d.onlyRegs (d.wf f g n) ((List.range 24).flatMap ltgStopRegs) :=
  d.onlyRegs_wf f n (by omega)
    (List.mem_flatMap.mpr ⟨g, List.mem_range.mpr hg, mem_ltgStopRegs.mpr ⟨hf, rfl⟩⟩)

/-- A field of trigger `g` itself. -/
theorem Dev.stopsOnly_wf_own (f : Fld) (n : Nat) (hf : f.kind ∈ stopKinds) : d.stopsOnly (d.wf f g n) [g] where
  enc := rfl
  regs := d.onlyRegs_stop_wf hg f n hf
  ctrl j hj hne := d.rreg_wf_ne f n (fun h => hne (by simp [(Prod.mk.inj h).2])) (by omega) (by omega)
  coasting j hj hne := Dev.on_of_rreg (d.rreg_wf_ne f n (fun h => hne (by simp [(Prod.mk.inj h).2])) (by omega) (by omega))
  stopped j hj hne := Dev.on_of_rreg (d.rreg_wf_ne f n (fun h => hne (by simp [(Prod.mk.inj h).2])) (by omega) (by omega))

/-- A status or counter field that tells neither that a trigger coasts nor that it has stopped. -/
def sideField (f : Fld) : Bool :=
  decide (f.kind ∈ stopKinds) && decide (f.kind ≠ .LTG_CTRL) && f.apart LTG_STAT_COASTING && f.apart LTG_STAT_STOPPED

theorem Dev.stopsOnly_wf_side (f : Fld) (n : Nat) (hf : sideField f = true) : d.stopsOnly (d.wf f g n) [] := by
  simp only [sideField, Bool.and_eq_true, decide_eq_true_eq] at hf
  obtain ⟨⟨⟨hkind, hctrl⟩, hcoast⟩, hstop⟩ := hf
  exact ⟨rfl, d.onlyRegs_stop_wf hg f n hkind, fun j hj _ => d.rreg_wf_kind f n (Ne.symm hctrl) (by omega) (by omega),
    fun j hj _ => d.on_wf_apart (by omega) (by omega) f _ n hcoast,
    fun j hj _ => d.on_wf_apart (by omega) (by omega) f _ n hstop⟩

/-- A held line is cancelled: its drop is counted, and a gap is pending. -/
theorem Dev.stopsOnly_cancelHeld : d.stopsOnly (d.cancelHeld g) [] := by
  unfold Dev.cancelHeld Dev.dropLine Dev.setGap
  split
  · have hset : d.stopsOnly (d.setLtg g { d.getLtg g with held := none }) [] := Dev.stopsOnly_of_regs rfl rfl
    have hinc (e : Dev) : e.stopsOnly (e.inc LTG_OVRCNT_DROP g 1) [] :=
      (e.stopsOnly_wf_side hg LTG_OVRCNT_DROP _ (by decide)).trans (Dev.stopsOnly_of_regs rfl rfl) (List.Subset.refl _)
    exact ((hset.trans (hinc _) (List.Subset.refl _)).trans (Dev.stopsOnly_wf_side _ hg LTG_STAT_GAPPEND 1 (by decide))
      (List.Subset.refl _)).trans (Dev.stopsOnly_wf_side _ hg LTG_STAT_HELD 0 (by decide)) (List.Subset.refl _)
  · exact Dev.stopsOnly_of_regs rfl rfl

/-- The trigger's own status once ARM is 0, before what tells that it no longer coasts. -/
def Dev.armCleared (d : Dev) (h : Nat) : Dev :=
  let e := (d.wf LTG_CTRL_ARM h 0).cancelHeld h
  (e.setHcp h { e.getHcp h with firedSinceArm := false }).ledShow h

omit hg in
theorem Dev.disarm_eq (h : Nat) :
    d.disarm h = (((d.armCleared h).wf LTG_STAT_HELD h 0).wf LTG_STAT_COASTING h 0).wf LTG_STAT_SLOW h 0 := rfl

theorem Dev.stopsOnly_armCleared : d.stopsOnly (d.armCleared g) [g] := by
  have hcancel : (d.wf LTG_CTRL_ARM g 0).stopsOnly ((d.wf LTG_CTRL_ARM g 0).cancelHeld g) [g] :=
    (Dev.stopsOnly_cancelHeld _ hg).mono (by simp)
  have hled (e : Dev) : e.stopsOnly (e.ledShow g) [g] := e.stopsOnly_wf_own hg _ _ (by decide)
  have hset (e : Dev) (x : Hcp) : e.stopsOnly (e.setHcp g x) [g] := Dev.stopsOnly_of_regs rfl rfl
  exact (((d.stopsOnly_wf_own hg LTG_CTRL_ARM 0 (by decide)).trans hcancel (List.Subset.refl _)).trans (hset _ _)
    (List.Subset.refl _)).trans (hled _) (List.Subset.refl _)

/-- A disarmed trigger (R54). -/
theorem Dev.stopsOnly_disarm : d.stopsOnly (d.disarm g) [g] := by
  rw [Dev.disarm_eq]
  exact (((d.stopsOnly_armCleared hg).trans (Dev.stopsOnly_wf_own _ hg _ _ (by decide)) (List.Subset.refl _)).trans
    (Dev.stopsOnly_wf_own _ hg _ _ (by decide)) (List.Subset.refl _)).trans (Dev.stopsOnly_wf_own _ hg _ _ (by decide))
    (List.Subset.refl _)

theorem Dev.disarm_status : (d.disarm g).on LTG_CTRL_ARM g = false ∧ (d.disarm g).on LTG_STAT_COASTING g = false := by
  have hg' : g < 65536 := by omega
  have harm : (d.armCleared g).on LTG_CTRL_ARM g = false := by
    have hc := (d.wf LTG_CTRL_ARM g 0).stopsOnly_cancelHeld hg
    have hz : ((d.wf LTG_CTRL_ARM g 0).cancelHeld g).on LTG_CTRL_ARM g = false := by
      rw [Dev.on_of_rreg (f := LTG_CTRL_ARM) (hc.ctrl g hg (by simp)), Dev.on_wf_zero _ _ _ (by decide)]
    exact (Dev.on_wf_apart _ hg' hg' _ _ _ (by decide)).trans hz
  rw [Dev.disarm_eq]
  constructor
  · rw [Dev.on_wf_apart _ hg' hg' _ _ _ (by decide), Dev.on_wf_apart _ hg' hg' _ _ _ (by decide),
      Dev.on_wf_apart _ hg' hg' _ _ _ (by decide), harm]
  · rw [Dev.on_wf_apart _ hg' hg' _ _ _ (by decide), Dev.on_wf_zero _ _ _ (by decide)]

/-- The lines that the followers of a stopping trigger hold are cancelled (R54). -/
def Dev.followersCancel (d : Dev) (h : Nat) : Dev :=
  ((List.range 24).filter (fun g => d.follows h 24 g)).foldl (fun d g => d.cancelHeld g) d

omit hg in
theorem Dev.stopsOnly_followersCancel (h : Nat) : d.stopsOnly (d.followersCancel h) [] :=
  d.stopsOnly_foldl _ _ fun e _ hx => e.stopsOnly_cancelHeld (List.mem_range.mp (List.mem_filter.mp hx).1)

omit hg in
theorem Dev.ltgStop_eq (h : Nat) : d.ltgStop h =
    (((d.followersCancel h).disarm h).wf LTG_STAT_STOPPED h 1).post .edge (0x010 + h) (prevNum (d.rf LTG_LINE_LINE h)) := rfl

/-- A trigger that stops changes, of the others, only what they hold. -/
theorem Dev.stopsOnly_ltgStop : d.stopsOnly (d.ltgStop g) [g] := by
  rw [Dev.ltgStop_eq]
  have hpost (e : Dev) (r v : Nat) : e.stopsOnly (e.post .edge r v) [g] :=
    Dev.stopsOnly_of_regs (Dev.post_regs ..) (Dev.post_enc ..)
  exact (((d.stopsOnly_followersCancel g).trans (Dev.stopsOnly_disarm _ hg) (by simp)).trans
    (Dev.stopsOnly_wf_own _ hg _ _ (by decide)) (List.Subset.refl _)).trans (hpost _ _ _) (List.Subset.refl _)

theorem Dev.ltgStop_status : (d.ltgStop g).on LTG_CTRL_ARM g = false ∧ (d.ltgStop g).on LTG_STAT_STOPPED g = true ∧
    (d.ltgStop g).on LTG_STAT_COASTING g = false := by
  have hg' : g < 65536 := by omega
  obtain ⟨harm, hcoast⟩ := (d.followersCancel g).disarm_status hg
  rw [Dev.ltgStop_eq, Dev.post_on, Dev.post_on, Dev.post_on]
  refine ⟨?_, Dev.on_wf_one _ _ _ (by decide) (by decide), ?_⟩
  · rw [Dev.on_wf_apart _ hg' hg' _ _ _ (by decide), harm]
  · rw [Dev.on_wf_apart _ hg' hg' _ _ _ (by decide), hcoast]

theorem Dev.stopsOnly_ltgLoss : d.stopsOnly (d.ltgLoss g) [g] := by
  unfold Dev.ltgLoss
  split
  · have hset (x : Ltg) : d.stopsOnly (d.setLtg g x) [g] := Dev.stopsOnly_of_regs rfl rfl
    exact (hset _).trans (Dev.stopsOnly_wf_own _ hg _ _ (by decide)) (List.Subset.refl _)
  · exact d.stopsOnly_ltgStop hg

/-- With LOSS 1 a trigger whose port loses its signal stays armed and coasts; otherwise it stops (R54). -/
theorem Dev.ltgLoss_status :
    (d.rf LTG_CTRL_LOSS g = 1 → (d.ltgLoss g).on LTG_CTRL_ARM g = d.on LTG_CTRL_ARM g ∧
      (d.ltgLoss g).on LTG_STAT_COASTING g = true) ∧
    (d.rf LTG_CTRL_LOSS g ≠ 1 → (d.ltgLoss g).on LTG_CTRL_ARM g = false ∧ (d.ltgLoss g).on LTG_STAT_STOPPED g = true) := by
  have hg' : g < 65536 := by omega
  unfold Dev.ltgLoss
  constructor <;> intro hloss
  · rw [if_pos hloss]
    exact ⟨Dev.on_wf_apart _ hg' hg' _ _ _ (by decide), Dev.on_wf_one _ _ _ (by decide) (by decide)⟩
  · rw [if_neg hloss]
    exact ⟨(d.ltgStop_status hg).1, (d.ltgStop_status hg).2.1⟩

end

/-! Walks over several triggers -/

/-- An element's turn in a walk without repetition: what comes before it and after it. -/
theorem foldl_turn {β : Type} (f : β → Nat → β) (b : β) {xs : List Nat} (hnd : xs.Nodup) {x : Nat} (hx : x ∈ xs) :
    ∃ before after, xs.foldl f b = after.foldl f (f (before.foldl f b) x) ∧ x ∉ before ∧ x ∉ after ∧ before ⊆ xs ∧
      after ⊆ xs := by
  obtain ⟨before, after, rfl⟩ := List.append_of_mem hx
  obtain ⟨-, htail, hdisj⟩ := List.nodup_append.mp hnd
  exact ⟨before, after, by simp, fun h => hdisj x h x (by simp) rfl, (List.nodup_cons.mp htail).1, by simp,
    fun y hy => by simp [hy]⟩

section

variable {f : Dev → Nat → Dev} (hf : ∀ (e : Dev) g, g < 24 → e.stopsOnly (f e g) [g])
include hf

theorem Dev.stopsOnly_walk (d : Dev) {hs : List Nat} (hlt : ∀ g ∈ hs, g < 24) : d.stopsOnly (hs.foldl f d) hs :=
  d.stopsOnly_foldl f hs fun e g hg => (hf e g (hlt g hg)).mono (by simpa using hg)

/-- A trigger's turn meets its `LTG.CTRL`, COASTING and STOPPED as they were, and what it leaves of them stays. -/
theorem Dev.stopsOnly_turn (d : Dev) {hs : List Nat} (hlt : ∀ g ∈ hs, g < 24) (hnd : hs.Nodup) {h : Nat} (hh : h ∈ hs) :
    ∃ e before after, d.stopsOnly e before ∧ h ∉ before ∧ (f e h).stopsOnly (hs.foldl f d) after ∧ h ∉ after := by
  obtain ⟨before, after, heq, hb, ha, hbs, has⟩ := foldl_turn f d hnd hh
  refine ⟨before.foldl f d, before, after, d.stopsOnly_walk hf fun g hg => hlt g (hbs hg), hb, ?_, ha⟩
  rw [heq]
  exact Dev.stopsOnly_walk hf _ fun g hg => hlt g (has hg)

end

theorem Dev.ltgsOn_lt {d : Dev} {p h : Nat} (hh : h ∈ d.ltgsOn p) : h < 24 := List.mem_range.mp (List.mem_filter.mp hh).1

theorem Dev.ltgsOn_armed {d : Dev} {p h : Nat} (hh : h ∈ d.ltgsOn p) : d.on LTG_CTRL_ARM h = true := by
  have := (List.mem_filter.mp hh).2
  simp only [Bool.and_eq_true] at this
  exact this.1.1

theorem Dev.ltgsOn_nodup (d : Dev) (p : Nat) : (d.ltgsOn p).Nodup := List.nodup_range.filter _

end Sys2Proof.Machine
end

section
/-! SUPPORT. Loss of signal of an encoder port, its end, and a stall. -/

namespace Sys2Proof.Machine

/-! Loss of a port's signal -/

section

variable (d : Dev) (p : Nat)

/-- What a loss holds on to for coasting: position, velocity and time of the last count (R54). -/
def Dev.lossFrozen : Dev :=
  let e := d.getEnc p
  d.setEnc p { e with
    lossP := e.pLast, lossV := e.vEff d.t
    lossT := match e.last8 with
      | c :: _ => c.t
      | [] => d.t }

/-- The flags of a loss (R30, R36). -/
def Dev.lossFlagged : Dev := (((d.lossFrozen p).wf ENC_STAT_LOS p 1).wf ENC_STAT_LOSSEEN p 1).wf ENC_STAT_POSVALID p 0

/-- The loss recorded, where the port asks for it (R30). -/
def Dev.lossNoted : Dev :=
  let e := d.lossFlagged p
  if e.on ENC_CTRL_EN p && e.on ENC_CTRL_LOSEVT p then e.losRecord p else e

theorem Dev.losBegin_eq (h : d.on ENC_STAT_LOS p = false) :
    d.losBegin p = (((d.lossNoted p).ltgsOn p).foldl (fun d h => d.ltgLoss h) (d.lossNoted p)) := by
  rw [Dev.losBegin, if_neg (by simp [h])]
  rfl

theorem Dev.lossNoted_eq : d.lossNoted p = { d.lossFlagged p with evq := (d.lossNoted p).evq } := by
  unfold Dev.lossNoted
  dsimp only
  split
  · simp only [Dev.losRecord, Dev.post, Dev.postRec]
    split <;> rfl
  · rfl

theorem Dev.lossNoted_pos : ((d.lossNoted p).getEnc p).pos = (d.getEnc p).pos := by
  have henc : (d.lossNoted p).enc = (d.lossFlagged p).enc := by rw [Dev.lossNoted_eq]
  rw [Dev.getEnc, henc]
  show ((d.lossFlagged p).getEnc p).pos = _
  simp [Dev.lossFlagged, Dev.lossFrozen]

theorem Dev.lossNoted_ltg : (d.lossNoted p).ltg = d.ltg := by
  rw [Dev.lossNoted_eq]; simp [Dev.lossFlagged, Dev.lossFrozen]

theorem Dev.lossNoted_regs : (d.lossNoted p).regs = (d.lossFlagged p).regs := by rw [Dev.lossNoted_eq]

variable {p} (hp : p < 65536)
include hp

theorem Dev.onlyRegs_lossNoted : d.onlyRegs (d.lossNoted p) [(.ENC_STAT, p)] := by
  have hstat (e : Dev) (f : Fld) (n : Nat) (hf : f.kind = .ENC_STAT) : e.onlyRegs (e.wf f p n) [(.ENC_STAT, p)] :=
    e.onlyRegs_wf f n hp (by simp [hf])
  have hfrozen : d.onlyRegs (d.lossFrozen p) [(.ENC_STAT, p)] := Dev.onlyRegs_of_regs rfl
  exact (((hfrozen.trans (hstat _ _ _ rfl)).trans (hstat _ _ _ rfl)).trans (hstat _ _ _ rfl)).trans
    (Dev.onlyRegs_of_regs (d.lossNoted_regs p))

theorem Dev.lossNoted_flags : (d.lossNoted p).on ENC_STAT_LOS p = true ∧ (d.lossNoted p).on ENC_STAT_LOSSEEN p = true ∧
    (d.lossNoted p).on ENC_STAT_POSVALID p = false := by
  have hon (f : Fld) : (d.lossNoted p).on f p = (d.lossFlagged p).on f p := by
    rw [Dev.on, Dev.rf, Dev.lossNoted_regs]; rfl
  refine ⟨?_, ?_, ?_⟩ <;> rw [hon]
  · exact ((Dev.on_wf_apart _ hp hp _ _ _ (by decide)).trans (Dev.on_wf_apart _ hp hp _ _ _ (by decide))).trans
      (Dev.on_wf_one _ _ _ (by decide) (by decide))
  · exact (Dev.on_wf_apart _ hp hp _ _ _ (by decide)).trans (Dev.on_wf_one _ _ _ (by decide) (by decide))
  · exact Dev.on_wf_zero _ _ _ (by decide)

theorem Dev.ltgsOn_lossNoted : (d.lossNoted p).ltgsOn p = d.ltgsOn p :=
  have hregs := d.onlyRegs_lossNoted hp
  Dev.ltgsOn_congr p (fun h hh => hregs _ h (by omega) (by simp)) (hregs _ 0 (by omega) (by simp)) (d.lossNoted_ltg p)

end

/-- No register of an encoder port is one that a trigger's stop changes. -/
theorem not_mem_stopRegs {k : RegKind} {i : Nat} (hk : k ∉ stopKinds) : (k, i) ∉ (List.range 24).flatMap ltgStopRegs := by
  intro h
  obtain ⟨g, -, hg⟩ := List.mem_flatMap.mp h
  exact hk (mem_ltgStopRegs.mp hg).1

/-- The registers that the begin or the end of a loss may change. -/
def lossRegs (p : Nat) : List (RegKind × Nat) := (.ENC_STAT, p) :: (List.range 24).flatMap (fun g => ltgStopRegs g)

/-- What the begin of a loss leaves of the device (R30, R36, R54). -/
theorem Dev.losBegin_leaves (d : Dev) {p : Nat} (hp : p < 65536) (hlos : d.on ENC_STAT_LOS p = false) :
    d.onlyRegs (d.losBegin p) (lossRegs p) ∧
      (d.ltgsOn p = [] → d.onlyRegs (d.losBegin p) [(.ENC_STAT, p)]) ∧
      (∀ h ∈ d.ltgsOn p,
        (d.rf LTG_CTRL_LOSS h = 1 → (d.losBegin p).on LTG_CTRL_ARM h = true ∧ (d.losBegin p).on LTG_STAT_COASTING h = true) ∧
        (d.rf LTG_CTRL_LOSS h ≠ 1 → (d.losBegin p).on LTG_CTRL_ARM h = false ∧ (d.losBegin p).on LTG_STAT_STOPPED h = true)) ∧
      (d.losBegin p).on ENC_STAT_LOS p = true ∧ (d.losBegin p).on ENC_STAT_LOSSEEN p = true ∧
      (d.losBegin p).on ENC_STAT_POSVALID p = false ∧ ((d.losBegin p).getEnc p).pos = (d.getEnc p).pos := by
  have hnoted := d.onlyRegs_lossNoted hp
  obtain ⟨hl, hseen, hposv⟩ := d.lossNoted_flags hp
  have hpos := d.lossNoted_pos p
  have hloss (e : Dev) (g : Nat) (hg : g < 24) : e.stopsOnly (e.ltgLoss g) [g] := e.stopsOnly_ltgLoss hg
  rw [d.losBegin_eq p hlos, d.ltgsOn_lossNoted hp]
  generalize d.lossNoted p = e at hnoted hl hseen hposv hpos ⊢
  have hwalk := e.stopsOnly_walk hloss (fun g hg => Dev.ltgsOn_lt hg : ∀ g ∈ d.ltgsOn p, g < 24)
  have hflag (f : Fld) (hf : f.kind ∉ stopKinds) : ((d.ltgsOn p).foldl (fun d h => d.ltgLoss h) e).on f p = e.on f p :=
    hwalk.regs.on hp (not_mem_stopRegs hf)
  refine ⟨(hnoted.mono (by simp [lossRegs])).trans (hwalk.regs.mono (List.subset_cons_self _ _)), fun hno => ?_,
    fun h hh => ?_, ?_, ?_, ?_, ?_⟩
  · rw [hno]; exact hnoted
  · have hh24 := Dev.ltgsOn_lt hh
    obtain ⟨x, before, after, hbefore, hb, hafter, ha⟩ :=
      e.stopsOnly_turn hloss (fun g hg => Dev.ltgsOn_lt hg) (d.ltgsOn_nodup p) hh
    have hctrl : x.rreg .LTG_CTRL h = d.rreg .LTG_CTRL h :=
      (hbefore.ctrl h hh24 hb).trans (hnoted _ h (by omega) (by simp))
    have harm := Dev.on_of_rreg (f := LTG_CTRL_ARM) (hafter.ctrl h hh24 ha)
    obtain ⟨hone, hother⟩ := x.ltgLoss_status hh24
    rw [Dev.rf_of_rreg (f := LTG_CTRL_LOSS) hctrl] at hone hother
    rw [harm, hafter.coasting h hh24 ha, hafter.stopped h hh24 ha]
    refine ⟨fun h1 => ⟨?_, (hone h1).2⟩, hother⟩
    rw [(hone h1).1, Dev.on_of_rreg (f := LTG_CTRL_ARM) hctrl, Dev.ltgsOn_armed hh]
  · rw [hflag _ (by decide), hl]
  · rw [hflag _ (by decide), hseen]
  · rw [hflag _ (by decide), hposv]
  · rw [Dev.getEnc, hwalk.enc]; exact hpos

/-! Its end -/

/-- LOS cleared and its record revoked (R30, R391). -/
def Dev.lossOver (d : Dev) (p : Nat) : Dev := (d.wf ENC_STAT_LOS p 0).levelFall p

/-- The triggers of a port that coast. -/
def Dev.coastingOn (d : Dev) (p : Nat) : List Nat := (d.ltgsOn p).filter (fun h => d.on LTG_STAT_COASTING h)

theorem Dev.losEnd_eq (d : Dev) (p : Nat) (h : d.on ENC_STAT_LOS p = true) :
    d.losEnd p = ((d.lossOver p).coastingOn p).foldl (fun d h => d.ltgStop h) (d.lossOver p) := by
  rw [Dev.losEnd, if_pos h]
  rfl

theorem Dev.coastingOn_lossOver (d : Dev) {p : Nat} (hp : p < 65536) : (d.lossOver p).coastingOn p = d.coastingOn p := by
  have hregs : d.onlyRegs (d.lossOver p) [(.ENC_STAT, p)] :=
    (d.onlyRegs_wf ENC_STAT_LOS 0 hp (by simp [ENC_STAT_LOS])).trans (Dev.onlyRegs_of_regs rfl)
  unfold Dev.coastingOn
  rw [Dev.ltgsOn_congr p (fun h hh => hregs _ h (by omega) (by simp)) (hregs _ 0 (by omega) (by simp)) rfl]
  exact List.filter_congr fun h hh =>
    hregs.on (by have := Dev.ltgsOn_lt hh; omega) (by simp [LTG_STAT_COASTING])

/-- What the end of a loss leaves of the device (R30, R54). -/
theorem Dev.losEnd_leaves (d : Dev) {p : Nat} (hp : p < 65536) (hlos : d.on ENC_STAT_LOS p = true) :
    d.onlyRegs (d.losEnd p) (lossRegs p) ∧
      (∀ h ∈ d.ltgsOn p, (d.losEnd p).on LTG_CTRL_ARM h = !(d.on LTG_STAT_COASTING h)) ∧
      (d.losEnd p).on ENC_STAT_LOS p = false ∧ (d.losEnd p).on ENC_STAT_POSVALID p = d.on ENC_STAT_POSVALID p ∧
      (d.losEnd p).enc = d.enc := by
  have hstop (e : Dev) (g : Nat) (hg : g < 24) : e.stopsOnly (e.ltgStop g) [g] := e.stopsOnly_ltgStop hg
  have hlt : ∀ g ∈ d.coastingOn p, g < 24 := fun g hg => Dev.ltgsOn_lt (List.mem_filter.mp hg).1
  have hregs : d.onlyRegs (d.lossOver p) [(.ENC_STAT, p)] :=
    (d.onlyRegs_wf ENC_STAT_LOS 0 hp (by simp [ENC_STAT_LOS])).trans (Dev.onlyRegs_of_regs rfl)
  have hoff : (d.lossOver p).on ENC_STAT_LOS p = false := by
    rw [Dev.lossOver, Dev.levelFall_on, Dev.on_wf_zero _ _ _ (by decide)]
  have hposv : (d.lossOver p).on ENC_STAT_POSVALID p = d.on ENC_STAT_POSVALID p := by
    rw [Dev.lossOver, Dev.levelFall_on, Dev.on_wf_apart _ hp hp _ _ _ (by decide)]
  have henc : (d.lossOver p).enc = d.enc := rfl
  rw [d.losEnd_eq p hlos, d.coastingOn_lossOver hp]
  generalize d.lossOver p = e at hregs hoff hposv henc ⊢
  have hwalk := e.stopsOnly_walk hstop hlt
  have hflag (f : Fld) (hf : f.kind ∉ stopKinds) : ((d.coastingOn p).foldl (fun d h => d.ltgStop h) e).on f p = e.on f p :=
    hwalk.regs.on hp (not_mem_stopRegs hf)
  refine ⟨(hregs.mono (by simp [lossRegs])).trans (hwalk.regs.mono (List.subset_cons_self _ _)), fun h hh => ?_, ?_, ?_,
    hwalk.enc.trans henc⟩
  · have hh24 := Dev.ltgsOn_lt hh
    cases hcoast : d.on LTG_STAT_COASTING h with
    | false =>
      have hnot : h ∉ d.coastingOn p := fun hx => by have := (List.mem_filter.mp hx).2; simp [hcoast] at this
      rw [Dev.on_of_rreg (f := LTG_CTRL_ARM) (hwalk.ctrl h hh24 hnot), hregs.on (by omega) (by simp [LTG_CTRL_ARM]),
        Dev.ltgsOn_armed hh, Bool.not_false]
    | true =>
      obtain ⟨x, before, after, -, -, hafter, ha⟩ :=
        e.stopsOnly_turn hstop hlt ((d.ltgsOn_nodup p).filter _) (List.mem_filter.mpr ⟨hh, hcoast⟩)
      rw [Dev.on_of_rreg (f := LTG_CTRL_ARM) (hafter.ctrl h hh24 ha), (x.ltgStop_status hh24).1, Bool.not_true]
  · rw [hflag _ (by decide), hoff]
  · rw [hflag _ (by decide), hposv]

/-! A stall -/

/-- What a stall leaves of the device (R40). -/
theorem Dev.encStall_leaves (d : Dev) {p : Nat} (hp : p < 65536) :
    d.onlyRegs (d.encStall p) [(.ENC_STAT, p)] ∧ (d.encStall p).on ENC_STAT_VALID p = false ∧
      (d.encStall p).on ENC_STAT_STALLED p = true ∧
      (d.encStall p).getEnc p = { d.getEnc p with hist := [], v := 0 } := by
  have hstat (e : Dev) (f : Fld) (n : Nat) (hf : f.kind = .ENC_STAT) : e.onlyRegs (e.wf f p n) [(.ENC_STAT, p)] :=
    e.onlyRegs_wf f n hp (by simp [hf])
  have hport : d.onlyRegs (d.setEnc p { d.getEnc p with hist := [], v := 0 }) [(.ENC_STAT, p)] := Dev.onlyRegs_of_regs rfl
  unfold Dev.encStall
  refine ⟨(hport.trans (hstat _ _ _ rfl)).trans (hstat _ _ _ rfl), ?_, Dev.on_wf_one _ _ _ (by decide) (by decide), ?_⟩
  · rw [Dev.on_wf_apart _ hp hp _ _ _ (by decide), Dev.on_wf_zero _ _ _ (by decide)]
  · rw [Dev.wf_getEnc, Dev.wf_getEnc, Dev.getEnc_setEnc]

section

variable {d : Dev} {p : Nat} {a b z : Bool} (t tz : Nat) (hp : p < 65536) (hz : (d.getEnc p).z = z)
  (hen : d.on ENC_CTRL_EN p = true) (hno : d.ltgsOn p = [])
include hp hz hen hno

/-- A forward count of a port that drives no trigger and takes no index. -/
theorem Dev.countsTo_encEdge_forward (hidx : z = false ∨ d.rf ENC_CTRL_IDX p = 0)
    (hdec : encDecode (d.rf ENC_CTRL_MODE p) (d.on ENC_CTRL_INV p) (d.getEnc p).a (d.getEnc p).b a b = .forward) :
    d.countsTo (d.encEdge p a b z t tz) p true t := by
  rw [Dev.encEdge_forward t tz hz hen hdec]
  exact ((Dev.countsTo_encCount _ hp true t).withLevels.indexIf hp (hidx.imp_left fun h => by simp [h])).triggersCount hno _

/-- A backward count of a port that drives no trigger. -/
theorem Dev.countsTo_encEdge_backward
    (hdec : encDecode (d.rf ENC_CTRL_MODE p) (d.on ENC_CTRL_INV p) (d.getEnc p).a (d.getEnc p).b a b = .backward) :
    d.countsTo (d.encEdge p a b z t tz) p false t := by
  rw [Dev.encEdge_backward t tz hz hen hdec]
  exact (Dev.countsTo_encCount _ hp false t).withLevels.triggersCount hno _

end

/-- Settles O8: loss, its end and a stall by what each leaves of the device, and a sample by what its levels decode to. -/
theorem encoderPulses : Obligations.EncoderPulses := by
  refine ⟨fun s p hp hlive => ⟨fun hlos => ?_, fun hlos => ?_, fun hdue => ?_⟩, fun s p a b z na nb nz hp hlive => ?_⟩
  · obtain ⟨hregs, hrest⟩ := s.dev.losBegin_leaves (p := p) (by omega) hlos
    exact ⟨_, State.devWithin_live hlive, ⟨s.sameStore_onDev _, hregs⟩,
      ⟨fun hno => ⟨s.sameStore_onDev _, hrest.1 hno⟩, hrest.2⟩⟩
  · obtain ⟨hregs, hrest⟩ := s.dev.losEnd_leaves (p := p) (by omega) hlos
    exact ⟨_, State.devWithin_live hlive, ⟨s.sameStore_onDev _, hregs⟩, hrest⟩
  · obtain ⟨hregs, hvalid, hstalled, hport⟩ := s.dev.encStall_leaves (p := p) (by omega)
    refine ⟨_, State.devWithin_live hlive, ?_⟩
    simp only [State.onDev, hdue, if_true]
    exact ⟨⟨⟨rfl, rfl⟩, hregs⟩, hvalid, hstalled, by rw [hport], by rw [hport], by rw [hport]⟩
  · intro e w
    have hp' : p < 65536 := by omega
    refine ⟨fun hna hnb hnz => ?_, fun hna hnb hz => ⟨fun hen => ?_, fun hen hmode ha hb => ?_,
      fun hen hmode hinv hno hidx => ?_⟩⟩
    · refine ⟨_, exec_encEdgeAccepted_wait hlive a b z hna hnb hnz, ⟨s.sameStore_onDev _, Dev.onlyRegs_of_regs rfl⟩, ?_⟩
      simp [State.onDev, EncPort.withLevels, e]
    · refine ⟨_, exec_encEdgeAccepted_taken hlive a b z hna hnb hz, ?_⟩
      simp only [State.onDev, Dev.encEdge_off _ _ hz hen]
      exact ⟨⟨⟨rfl, rfl⟩, Dev.onlyRegs_of_regs rfl⟩, by simp [EncPort.withLevels, e]⟩
    · obtain ⟨hregs, hpos, -, hcount, hqerr⟩ := Dev.encEdge_both
        (s.dev.edgeTime p (if a = (s.dev.getEnc p).a then nb else na)) (s.dev.edgeTime p nz) hp' hz hen hmode ha hb
      exact ⟨_, exec_encEdgeAccepted_taken hlive a b z hna hnb hz, ⟨s.sameStore_onDev _, hregs⟩, hqerr, hcount, hpos⟩
    · have hstep : ∀ {fwd}, s.dev.countsTo (s.dev.encEdge p a b z (s.dev.edgeTime p (if a = e.a then nb else na))
          (s.dev.edgeTime p nz)) p fwd (s.dev.edgeTime p (if a = e.a then nb else na)) →
          ∃ t, exec (.encEdgeAccepted p a b z na nb nz) s = .next t ∧ s.onlyRegs t [(.ENC_STAT, p), (.ENC_ERRCNT, p)] ∧
            t.dev.ltg = s.dev.ltg ∧ (t.dev.getEnc p).pos = countedPos fwd e.pos ∧ t.dev.on ENC_STAT_REV p = !fwd ∧
            t.dev.on ENC_STAT_STALLED p = false ∧
            ((t.dev.getEnc p).last8.headD ⟨0, 0⟩).t = s.dev.edgeTime p (if a = e.a then nb else na) := fun hc =>
        ⟨_, exec_encEdgeAccepted_taken hlive a b z hna hnb hz, ⟨s.sameStore_onDev _, hc.regs⟩, hc.ltg, hc.pos, hc.rev,
          hc.stalled, hc.time⟩
      exact ⟨fun hq => hstep (Dev.countsTo_encEdge_forward _ _ hp' hz hen hno hidx
          (by rw [hmode, hinv]; exact encDecode_forward hq)),
        fun hq => hstep (Dev.countsTo_encEdge_backward _ _ hp' hz hen hno
          (by rw [hmode, hinv]; exact encDecode_backward hq))⟩

end Sys2Proof.Machine
end

section
/-! SUPPORT. Latched reads and capture units. -/

namespace Sys2Proof.Machine

/-! Latches of registers that are read in parts (R427) -/

theorem latchKey_inj {k k' : RegKind} {i j : Nat} {p : Path} (hi : i < 65536) (hj : j < 65536)
    (h : latchKey k i p = latchKey k' j p) : k = k' ∧ i = j :=
  regKey_inj hi hj (by unfold latchKey at h; omega)

@[simp] theorem Dev.rlatch_wlatch_self (d : Dev) (k : RegKind) (i : Nat) (p : Path) (v : Nat) :
    (d.wlatch k i p v).rlatch k i p = v := tget_tset_self ..

theorem Dev.rlatch_wlatch_kind (d : Dev) {k k' : RegKind} {i : Nat} (p : Path) (v : Nat) (h : k' ≠ k) (hi : i < 65536) :
    (d.wlatch k i p v).rlatch k' i p = d.rlatch k' i p :=
  tget_tset_ne _ _ _ _ fun hk => h (latchKey_inj hi hi hk).1

theorem Dev.rlatch_setRdata (d : Dev) (k : RegKind) (i : Nat) (p : Path) (v : Nat) :
    (d.setRdata v).rlatch k i p = d.rlatch k i p := rfl

/-- Settles O11: the read of `LTG.TB` leaves the upper word of TB in the latch that `LTG.TBH` shows. -/
theorem timebaseReadsAsOneInstant : Obligations.TimebaseReadsAsOneInstant := by
  intro s pth hserves
  refine ⟨s.onDev (fun d => (d.wlatch .LTG_TBH 0 pth (d.t / 2 ^ 32)).setRdata (d.t % 2 ^ 32)),
    congrArg Host.Outcome.next (s.regRead_served pth .LTG_TB 0 hserves), ⟨s.sameStore_onDev _, Dev.onlyRegs_of_regs rfl⟩, rfl,
    Nat.mod_mod _ _, fun u hu => ?_⟩
  calc u.dev.peek pth .LTG_TBH 0 = u.dev.rlatch .LTG_TBH 0 pth := rfl
    _ = s.dev.tb.toNat / 2 ^ 32 := hu.trans ((Dev.rlatch_setRdata ..).trans (Dev.rlatch_wlatch_self ..))

/-! Capture units -/

theorem filter_range_eq_singleton {n k : Nat} {q : Nat → Bool} (hk : k < n) (h : ∀ j, j < n → (q j = true ↔ j = k)) :
    (List.range n).filter q = [k] := by
  have hq : (List.range n).filter q = (List.range n).filter (· == k) :=
    List.filter_congr fun j hj => by
      rw [Bool.eq_iff_iff, h j (List.mem_range.mp hj), beq_iff_eq]
  rw [hq, List.filter_beq, List.count_eq_one_of_mem List.nodup_range (List.mem_range.mpr hk), List.replicate_one]

/-- A converter trigger changes the converters alone. -/
theorem Dev.mcvTrigger_keeps (d : Dev) (src sel ts slack : Nat) :
    (d.mcvTrigger src sel ts slack).regs = d.regs ∧ (d.mcvTrigger src sel ts slack).cap = d.cap :=
  foldl_keeps (fun e : Dev => e.regs = d.regs ∧ e.cap = d.cap) _ _ _ ⟨rfl, rfl⟩ fun e m _ he => by
    dsimp only; split <;> exact he

section

variable {d : Dev} {k : Nat} (ts : Nat)

/-- No trigger issues on a capture where none that follows captures references the unit. -/
theorem Dev.captureLines_none (h : ∀ g, g < 24 → d.rf LTG_CTRL_SRC g = 2 → d.rf LTG_CTRL_REF g ≠ k) :
    d.captureLines k ts = d := by
  have hno : (List.range 24).filter (fun h => d.on LTG_CTRL_ARM h && decide (d.rf LTG_CTRL_SRC h = 2) &&
      decide (d.rf LTG_CTRL_REF h = k)) = [] :=
    List.filter_eq_nil_iff.mpr fun g hg => by
      have := h g (List.mem_range.mp hg)
      simp only [Bool.and_eq_true, decide_eq_true_eq]
      tauto
  rw [Dev.captureLines, hno, List.foldl_nil]

/-- What a unit enters for an edge: its time and the position of the unit's port at that time (R59). -/
def Dev.captureEntry (d : Dev) (k ts : Nat) : CapEntry :=
  ⟨ts, ux 48 ((d.getEnc (d.rf ENC_CAPCTRL_PSEL k)).pExt ts / 65536)⟩

variable (hno : ∀ g, g < 24 → d.rf LTG_CTRL_SRC g = 2 → d.rf LTG_CTRL_REF g ≠ k)
include hno

/-- An edge at a unit with room in its FIFO is entered. -/
theorem Dev.captureTake_room (h : (d.getCap k).length < 4) :
    (d.captureTake k ts).regs = d.regs ∧
      (d.captureTake k ts).getCap k = d.getCap k ++ [d.captureEntry k ts] := by
  have hstore : ∀ e : Dev, e.regs = d.regs → e.getCap k = d.getCap k ++ [d.captureEntry k ts] →
      ((e.mcvTrigger mcvCAPTURE k ts 20).captureLines k ts).regs = d.regs ∧
        ((e.mcvTrigger mcvCAPTURE k ts 20).captureLines k ts).getCap k = d.getCap k ++ [d.captureEntry k ts] := by
    intro e hregs hcap
    obtain ⟨hr, hc⟩ := e.mcvTrigger_keeps mcvCAPTURE k ts 20
    generalize e.mcvTrigger mcvCAPTURE k ts 20 = x at hr hc ⊢
    have hrf (f : Fld) (g : Nat) : x.rf f g = d.rf f g := by unfold Dev.rf; rw [hr, hregs]
    rw [Dev.captureLines_none ts fun g hg => by rw [hrf, hrf]; exact hno g hg]
    exact ⟨hr.trans hregs, by rw [Dev.getCap, hc]; exact hcap⟩
  unfold Dev.captureTake
  dsimp only
  rw [if_neg (by omega)]
  split
  · exact hstore _ (by simp) (by simp [Dev.captureEntry])
  · exact hstore _ (by simp) (by simp [Dev.captureEntry])

/-- An edge at a unit whose FIFO is full sets OVF. -/
theorem Dev.captureTake_full (hk : k < 65536) (h : 4 ≤ (d.getCap k).length) :
    d.captureTake k ts = d.wf ENC_CAPSTAT_OVF k 1 := by
  unfold Dev.captureTake
  dsimp only
  rw [if_pos h, Dev.captureLines_none]
  intro g hg
  rw [Dev.rf_wf_apart _ hk (by omega) _ _ _ (by decide), Dev.rf_wf_apart _ hk (by omega) _ _ _ (by decide)]
  exact hno g hg

end

/-- An edge that one enabled unit selects is that unit's. -/
theorem Dev.captureEdge_one {d : Dev} {k src : Nat} {rising : Bool} (ts : Nat) (hk : k < 32)
    (hen : d.on ENC_CAPCTRL_EN k = true) (hsrc : d.rf ENC_CAPCTRL_SRC k = src) (hsel : d.captureSel k rising = true)
    (hone : ∀ j, j < 32 → j ≠ k → d.rf ENC_CAPCTRL_SRC j ≠ src) : d.captureEdge src rising ts = d.captureTake k ts := by
  unfold Dev.captureEdge
  rw [filter_range_eq_singleton hk fun j hj => ?_, List.foldl_cons, List.foldl_nil]
  simp only [Bool.and_eq_true, decide_eq_true_eq]
  exact ⟨fun h => by_contra fun hne => hone j hj hne h.1.1, fun h => h ▸ ⟨⟨hsrc, hen⟩, hsel⟩⟩

/-- A read of `ENC.CAPTS` latches the rest of the oldest entry (R60). -/
theorem Dev.captureRead_latches {d : Dev} {k : Nat} (pth : Path) {e : CapEntry} {rest : List CapEntry} (hk : k < 65536)
    (h : d.getCap k = e :: rest) :
    (d.captureRead k pth).2.rlatch .ENC_CAPTSH k pth = e.ts / 2 ^ 32 ∧
      (d.captureRead k pth).2.rlatch .ENC_CAPPOS k pth = e.pos % 2 ^ 32 ∧
      (d.captureRead k pth).2.rlatch .ENC_CAPPOSH k pth = e.pos / 2 ^ 32 := by
  simp only [Dev.captureRead, h, List.headD_cons]
  refine ⟨?_, ?_, Dev.rlatch_wlatch_self ..⟩
  · rw [Dev.rlatch_wlatch_kind _ _ _ (by decide) hk, Dev.rlatch_wlatch_kind _ _ _ (by decide) hk, Dev.rlatch_wlatch_self]
  · rw [Dev.rlatch_wlatch_kind _ _ _ (by decide) hk, Dev.rlatch_wlatch_self]

/-- A write of a register changes no other. -/
theorem Dev.onlyRegs_writeAll (d : Dev) (k : RegKind) {i : Nat} (v : Nat) (hi : i < 65536) :
    d.onlyRegs (d.writeAll k i v) [(k, i)] :=
  fun _ _ hj hne => Dev.rreg_writeAll_ne d v (by simpa using hne) hi hj

/-- A field that is carried as 1 is written. -/
theorem wrote_of_carried {v : Word} {f : Fld} (h : carried v f = 1) : wrote v.toNat f = true :=
  decide_eq_true (by rw [show bitsOf v.toNat f.lsb f.width = 1 from h]; decide)

/-- A write of `ENC.CAPSTAT` that carries POP removes the oldest entry. -/
theorem State.regWrite_capturePop {s : State} {pth : Path} {k : Nat} {v : Word} (h : s.accepts pth .ENC_CAPSTAT k v)
    (hpop : carried v ENC_CAPSTAT_POP = 1) :
    s.regWrite pth .ENC_CAPSTAT k v = s.onDev (fun d => (d.writeAll .ENC_CAPSTAT k v.toNat).capturePop k) := by
  rw [State.regWrite_accepted s pth .ENC_CAPSTAT k v h (by decide)]
  show s.onDev (fun d => (d.writeAll .ENC_CAPSTAT k v.toNat).onlyIf (wrote v.toNat ENC_CAPSTAT_POP)
    (fun d => d.capturePop k)) = _
  rw [wrote_of_carried hpop]
  rfl

/-- Settles O16: the one unit that selects the edge takes it, a read latches the oldest entry and POP removes it. -/
theorem captureUnits : Obligations.CaptureUnits := by
  intro s pth k v hk
  have hk' : k < 65536 := by omega
  refine ⟨fun src rising ts hlive hen hsrc hsel hone hno => ?_, fun hserves e rest hcap => ?_, fun hacc hpop => ?_⟩
  · have hexec : exec (.capture src rising ts) s = .next (s.onDev (fun d => d.captureTake k ts)) := by
      show s.devWithin 4 _ = _
      rw [State.devWithin_live hlive, State.onDev, Dev.captureEdge_one ts hk hen hsrc hsel hone]
      rfl
    refine ⟨fun hroom => ⟨_, hexec, ?_⟩, fun hfull => ⟨_, hexec, ?_⟩⟩
    · obtain ⟨hregs, hstored⟩ := Dev.captureTake_room ts hno hroom
      exact ⟨⟨s.sameStore_onDev _, Dev.onlyRegs_of_regs hregs⟩, hstored⟩
    · simp only [State.onDev, Dev.captureTake_full ts hno hk' hfull]
      exact ⟨⟨⟨rfl, rfl⟩, s.dev.onlyRegs_wf _ _ hk' (by simp [ENC_CAPSTAT_OVF])⟩,
        Dev.on_wf_one _ _ _ (by decide) (by decide), by simp⟩
  · obtain ⟨htsh, hpos, hposh⟩ := Dev.captureRead_latches pth hk' hcap
    refine ⟨s.onDev (fun d => (d.captureRead k pth).2.setRdata (((d.getCap k).headD ⟨0, 0⟩).ts % 2 ^ 32)),
      congrArg Host.Outcome.next (s.regRead_served pth .ENC_CAPTS k hserves),
      ⟨s.sameStore_onDev _, Dev.onlyRegs_of_regs rfl⟩, rfl, ?_, htsh, hpos, hposh⟩
    simp [State.onDev, Dev.setRdata, hcap]
  · have hregs := s.dev.onlyRegs_writeAll .ENC_CAPSTAT v.toNat hk'
    refine ⟨_, congrArg Host.Outcome.next (State.regWrite_capturePop hacc hpop),
      ⟨s.sameStore_onDev _, hregs.trans (Dev.onlyRegs_of_regs rfl)⟩, ?_⟩
    simp [State.onDev, Dev.capturePop]

end Sys2Proof.Machine
end

section
/-! SUPPORT. A load of the timebase, and what a refused write leaves on either path. -/

namespace Sys2Proof.Machine

/-! A load of the timebase -/

theorem bitsOf_flag_le (n lsb : Nat) : bitsOf n lsb 1 ≤ 1 := Nat.le_of_lt_succ (bitsOf_lt n lsb 1)

/-- The fields of `LTG.TBCTRL` take every value. -/
theorem rangeChecks_tbCtrl (v : Nat) : rangeChecks .LTG_TBCTRL v = [] := by
  have hfields : RegKind.fields .LTG_TBCTRL = [LTG_TBCTRL_LOAD, LTG_TBCTRL_RING, LTG_TBCTRL_SLEPT] := rfl
  simp [rangeChecks, hfields, LTG_TBCTRL_LOAD, LTG_TBCTRL_RING, LTG_TBCTRL_SLEPT, Fld.admits, bitsOf_flag_le]

theorem Dev.tbLoadOk_iff (d : Dev) : d.tbLoadOk = true ↔ d.zrole = 0 ∧ ∀ h, h < 24 → d.on LTG_CTRL_ARM h = false := by
  simp [Dev.tbLoadOk, Dev.zrole]

/-- A load of TB is refused with LOAD as its place, unless it is accepted (R43). -/
theorem Dev.writeRefusal_tbLoad {d : Dev} {v : Word} (pth : Path) (h : carried v LTG_TBCTRL_LOAD = 1) :
    d.writeRefusal pth .LTG_TBCTRL 0 v.toNat = if d.tbLoadOk then none else some (stateAt 0) := by
  have hload : bitsOf v.toNat LTG_TBCTRL_LOAD.lsb LTG_TBCTRL_LOAD.width = 1 := h
  have hlock : d.lockChecks .LTG_TBCTRL 0 v.toNat = [] := by
    unfold Dev.lockChecks; split <;> rfl
  have hheld : d.loadChecks .LTG_TBCTRL = [] := if_neg fun hx => absurd hx.2 (by decide)
  have hch : chapterChecks ⟨d, pth, 0, v.toNat, (d.writeAll .LTG_TBCTRL 0 v.toNat).regs⟩ .LTG_TBCTRL =
      only (!(d.tbLoadOk)) (stateAt 0) := by
    show only (Wr.one _ LTG_TBCTRL_LOAD && !(d.tbLoadOk)) (stateAt 0) = _
    simp [Wr.one, Wr.new, hload]
  rw [Dev.writeRefusal, rangeChecks_tbCtrl, hlock, hheld, hch]
  cases d.tbLoadOk <;> rfl

/-- TB once it is loaded from TBSETH and TBSET. -/
def Dev.tbSet (d : Dev) : BitVec 64 := BitVec.ofNat 64 (d.rf LTG_TBSETH_SETH 0 * 2 ^ 32 + d.rf LTG_TBSET_SET 0)

/-- The write of `LTG.TBCTRL` leaves what TB is loaded from. -/
theorem Dev.tbSet_writeAll (d : Dev) (v : Nat) : (d.writeAll .LTG_TBCTRL 0 v).tbSet = d.tbSet := by
  have hf (f : Fld) (hf : f.kind ≠ .LTG_TBCTRL) : (d.writeAll .LTG_TBCTRL 0 v).rf f 0 = d.rf f 0 :=
    Dev.rf_of_rreg (Dev.rreg_writeAll_ne d v (by simp [hf]) (by decide) (by decide))
  rw [Dev.tbSet, hf _ (by decide), hf _ (by decide)]
  rfl

/-- The device with TB set. -/
def Dev.setTb (d : Dev) (x : BitVec 64) : Dev := { d with tb := x }

theorem Dev.setTb_regs (d : Dev) (x : BitVec 64) : (d.setTb x).regs = d.regs := rfl

theorem Dev.setTb_keeps (d : Dev) (x : BitVec 64) : (d.setTb x).cap = d.cap ∧ (d.setTb x).ltg = d.ltg := ⟨rfl, rfl⟩

/-- The device after an accepted load. -/
def Dev.tbLoaded (d : Dev) (v : Nat) : Dev :=
  (d.writeAll .LTG_TBCTRL 0 v).setTb (d.writeAll .LTG_TBCTRL 0 v).tbSet

theorem Dev.tbLoaded_tb (d : Dev) (v : Nat) : (d.tbLoaded v).tb = d.tbSet := d.tbSet_writeAll v

theorem Dev.onlyRegs_tbLoaded (d : Dev) (v : Nat) : d.onlyRegs (d.tbLoaded v) [(.LTG_TBCTRL, 0)] :=
  (d.onlyRegs_writeAll .LTG_TBCTRL v (by decide)).trans (Dev.onlyRegs_of_regs (Dev.setTb_regs _ _))

theorem Dev.tbLoaded_keeps (d : Dev) (v : Nat) : (d.tbLoaded v).cap = d.cap ∧ (d.tbLoaded v).ltg = d.ltg := by
  obtain ⟨hcap, hltg⟩ := (d.writeAll .LTG_TBCTRL 0 v).setTb_keeps (d.writeAll .LTG_TBCTRL 0 v).tbSet
  exact ⟨hcap.trans (d.writeAll_cap ..), hltg.trans (d.writeAll_ltg ..)⟩

theorem State.regWrite_tbLoad {s : State} {pth : Path} {v : Word} (h : s.accepts pth .LTG_TBCTRL 0 v)
    (hload : carried v LTG_TBCTRL_LOAD = 1) :
    s.regWrite pth .LTG_TBCTRL 0 v = s.onDev (fun d => d.tbLoaded v.toNat) := by
  rw [State.regWrite_accepted s pth .LTG_TBCTRL 0 v h (by decide)]
  show s.onDev (fun d => (d.writeAll .LTG_TBCTRL 0 v.toNat).onlyIf (wrote v.toNat LTG_TBCTRL_LOAD)
    (fun d => d.setTb d.tbSet)) = _
  rw [wrote_of_carried hload]
  rfl

/-- A refused write of a packet is counted, where the management's counters are on. -/
theorem State.groupRefused_counted (s : State) (w : Nat) (f : PktFault) (a : Nat) :
    s.groupRefused ⟨w, f, a, none, none⟩ = s.onDev (fun d => d.counted f.cause .kweave a) := rfl

@[simp] theorem sentResults_nil (st : Nat) : sentResults st [] = [] := by unfold sentResults; split <;> rfl

theorem regAddr_lt {k : RegKind} {i : Nat} (h : i < regCount k) : regAddr k i < 2 ^ 32 := by
  have hgood := addr_good k
  rw [addrGood, List.all_eq_true] at hgood
  have hi := hgood i (List.mem_range.mpr h)
  simp only [Bool.and_eq_true, decide_eq_true_eq] at hi
  omega

/-- What a counted refusal changes: the registers that tell it. -/
theorem Dev.counted_keeps (d : Dev) {c : Cause} (p : Path) {a : Nat} (hc : c.code ≠ 0) (ha : a < 2 ^ 32) :
    d.onlyRegs (d.counted c p a) [(.SYS_ACCERR, 0), (.SYS_ACCADDR, 0)] ∧ (d.counted c p a).kw = d.kw ∧
      (d.counted c p a).tb = d.tb := by
  unfold Dev.counted
  split
  · refine ⟨(d.countRefusal_counts p hc ha).1, ?_, ?_⟩ <;> rw [d.countRefusal_eq p a hc] <;> simp
  · exact ⟨Dev.onlyRegs_of_regs rfl, rfl, rfl⟩

/-- One write of a packet, refused for its value. -/
theorem State.groupRun_refused {s : State} {w : PktWrite} {k : RegKind} {i : Nat} {f : PktFault} {v : Nat}
    (ht : target w.addr = .reg k i) (hk : k ≠ .RGN_ISOLATE) (hv : s.maskedValue w = v)
    (hf : s.dev.pktWriteFault w.addr v = some f) (hval : f.atAddr = false) (hc : s.dev.conflictOf k i v = none) :
    s.groupRun [w] = (s, some ⟨w.valWord, f, w.addr, none, none⟩) := by
  have hiso : ¬ (target w.addr = .reg .RGN_ISOLATE 0) := by rw [ht]; simp [hk]
  simp only [State.groupRun, hv, hf]
  simp [ht, hval, hc, hk]

section

variable {s : State} {l : List Nat} {e : List MemEcc} {k : RegKind} {i : Nat} {v : Word} {r : Refused}

/-- A refused value of a register that a packet reaches. -/
theorem Dev.pktWriteFault_refused (hserves : s.serves .kweave k i) (hw : k.writable = true)
    (hr : s.dev.writeRefusal .kweave k i v.toNat = some r) :
    s.dev.pktWriteFault (regAddr k i) v.toNat = some ⟨r.cause, r.status, false, r.lsb⟩ := by
  obtain ⟨-, hi, hreach, -⟩ := hserves
  obtain ⟨ht, hm⟩ := target_regAddr hi
  simp [Dev.pktWriteFault, Dev.addressFault, hm, ht, hreach, Dev.inert_of_writable _ _ hw, hr]

/-- A REG_WRITE of one register runs its one write. -/
theorem State.opRegWrite_one (hasks : s.asks 0x401 l 0 3) (h0 : param l 0 = 1) :
    s.opRegWrite e = s.groupWrite l [⟨4, 5, param l 1, 2 ^ 32 - 1, param l 2, e.getD 0 .clean⟩] := by
  obtain ⟨hint, hlen, hword⟩ := hasks
  have hcount : countFault l 2 1024 = none := by simp [countFault, firstFault, lenFault, paramFault, hlen, h0]
  have hw2 : wordTwoFault l true = none := by rw [wordTwoFault, hword]; rfl
  unfold State.opRegWrite State.writePacket
  simp only [State.interprets_packetFor hint, hw2, hcount, firstFault, h0]
  rfl

/-- A REG_WRITE of one register whose value is refused: counted and answered at the value's word. -/
theorem State.opRegWrite_refused (hserves : s.serves .kweave k i) (hw : k.writable = true) (hk : k ≠ .RGN_ISOLATE)
    (hr : s.dev.writeRefusal .kweave k i v.toNat = some r) (hc : s.dev.conflictOf k i v.toNat = none)
    (hasks : s.asks 0x401 l 0 3) (h0 : param l 0 = 1) (h1 : param l 1 = regAddr k i) (h2 : param l 2 = v.toNat) :
    s.opRegWrite e = (s.onDev (fun d => d.counted r.cause .kweave (regAddr k i))).answered l
      (refuseAt r.status 5 r.lsb) := by
  have hdry : dry l = false := by rw [dry, hasks.2.2]; rfl
  have hvalue : s.maskedValue ⟨4, 5, regAddr k i, 2 ^ 32 - 1, v.toNat, e.getD 0 .clean⟩ = v.toNat :=
    maskedValue_all s (regAddr k i) v.toNat (e.getD 0 .clean) v.isLt
  have hrun := State.groupRun_refused (target_regAddr hserves.2.1).1 hk hvalue (Dev.pktWriteFault_refused hserves hw hr)
    rfl hc
  rw [State.opRegWrite_one hasks h0, h1, h2, State.groupWrite, hrun]
  simp [hdry, State.groupRefused_counted]

/-- What such a packet leaves (R379, R433). -/
theorem State.opRegWrite_refused_leaves (hserves : s.serves .kweave k i) (hw : k.writable = true) (hk : k ≠ .RGN_ISOLATE)
    (hr : s.dev.writeRefusal .kweave k i v.toNat = some r) (hc : s.dev.conflictOf k i v.toNat = none)
    (hcause : r.cause.code ≠ 0) (hasks : s.asks 0x401 l 0 3) (h0 : param l 0 = 1) (h1 : param l 1 = regAddr k i)
    (h2 : param l 2 = v.toNat) :
    s.onlyRegs (s.opRegWrite e) [(.SYS_ACCERR, 0), (.SYS_ACCADDR, 0)] ∧
      s.repliesNo (s.opRegWrite e) l r.status (some (5, r.lsb)) ∧ (s.opRegWrite e).dev.tb = s.dev.tb := by
  obtain ⟨hregs, hkw, htb⟩ := s.dev.counted_keeps .kweave hcause (regAddr_lt hserves.2.1)
  rw [State.opRegWrite_refused hserves hw hk hr hc hasks h0 h1 h2]
  have hquiet : (s.onDev (fun d => d.counted r.cause .kweave (regAddr k i))).dev.quiet 0 := by
    unfold Dev.quiet; rw [State.onDev_dev, hkw]; exact State.interprets_quiet hasks.1
  rw [State.answered_quiet _ l (refuseAt r.status 5 r.lsb) hquiet]
  refine ⟨⟨⟨rfl, rfl⟩, fun k i hi hne => hregs k i hi hne⟩, ⟨rfl, ?_, rfl⟩, htb⟩
  simp only [State.onDev, Dev.setKw, Kw.answer, hkw]
  rw [refuseAt, sentResults_nil]

/-- A refused direct write of a register that a host reaches. -/
theorem State.regWrite_refused (hserves : s.serves .direct k i) (hd : s.dev.domOn 2 = true) (hw : k.writable = true)
    (hr : s.dev.writeRefusal .direct k i v.toNat = some r) (hc : s.dev.conflictOf k i v.toNat = none) :
    s.regWrite .direct k i v = s.onDev (fun d => d.countRefusal r.cause .direct (regAddr k i)) := by
  obtain ⟨ht, hi, hreach, -⟩ := hserves
  rw [← State.directWrite_regAddr v ht, State.directWrite_refused hi hreach hw hr hc]
  simp [State.onDev, Dev.counted, hd]

/-- What it leaves (R433). -/
theorem State.regWrite_refused_leaves (hserves : s.serves .direct k i) (hd : s.dev.domOn 2 = true)
    (hw : k.writable = true) (hr : s.dev.writeRefusal .direct k i v.toNat = some r)
    (hc : s.dev.conflictOf k i v.toNat = none) (hcause : r.cause.code ≠ 0) :
    s.onlyRegs (s.regWrite .direct k i v) [(.SYS_ACCERR, 0), (.SYS_ACCADDR, 0)] ∧
      s.dev.counts (s.regWrite .direct k i v).dev SYS_ACCERR_COUNT 0 1 ∧ (s.regWrite .direct k i v).dev.tb = s.dev.tb := by
  have haddr := regAddr_lt hserves.2.1
  rw [State.regWrite_refused hserves hd hw hr hc]
  generalize regAddr k i = a at haddr
  obtain ⟨hregs, hcount, -⟩ := s.dev.countRefusal_counts .direct hcause haddr
  refine ⟨⟨s.sameStore_onDev _, hregs⟩, hcount, ?_⟩
  rw [State.onDev_dev, s.dev.countRefusal_eq .direct a hcause]
  simp

end

/-- Settles O12: the one check of the write is `tbLoadOk`; what it refuses is counted, on either path. -/
theorem timebaseLoad : Obligations.TimebaseLoad := by
  intro s v hload
  refine ⟨fun pth hserves hrole harm => ?_, fun hbar => ?_⟩
  · have hok : s.dev.tbLoadOk = true := s.dev.tbLoadOk_iff.mpr ⟨hrole, harm⟩
    have hacc : s.accepts pth .LTG_TBCTRL 0 v :=
      ⟨hserves, by decide, by rw [Dev.writeRefusal_tbLoad pth hload, if_pos hok]⟩
    obtain ⟨hcap, hltg⟩ := s.dev.tbLoaded_keeps v.toNat
    refine ⟨_, congrArg Host.Outcome.next (State.regWrite_tbLoad hacc hload), ?_⟩
    rw [State.onDev_dev]
    exact ⟨⟨s.sameStore_onDev _, s.dev.onlyRegs_tbLoaded v.toNat⟩, s.dev.tbLoaded_tb v.toNat, hcap, hltg⟩
  · have hno : s.dev.tbLoadOk = false := by
      rw [Bool.eq_false_iff, Ne, Dev.tbLoadOk_iff, not_and_or, not_forall]
      refine hbar.imp_right fun ⟨h, hh, harm⟩ => ⟨h, fun hoff => ?_⟩
      simp [hoff hh] at harm
    have href (pth : Path) : s.dev.writeRefusal pth .LTG_TBCTRL 0 v.toNat = some (stateAt 0) := by
      rw [Dev.writeRefusal_tbLoad pth hload, hno]; rfl
    exact ⟨fun hserves hdom =>
        ⟨_, rfl, State.regWrite_refused_leaves hserves hdom (by decide) (href _) rfl (by decide)⟩,
      fun l e hserves hasks h0 h1 h2 => ⟨_, rfl, State.opRegWrite_refused_leaves hserves (by decide) (by decide) (href _)
        rfl (by decide) hasks h0 h1 h2⟩⟩

end Sys2Proof.Machine
end

section
/-! SUPPORT. Writes of an encoder port and of a line trigger at an instant at which the state notes a count in a written field. -/

namespace Sys2Proof.Machine

/-- The device in RUN, with a count of 2 noted at this instant in `ENC.CTRL[0].IDX`. -/
def notedIndex : State :=
  { State.reset with dev := { Dev.reset with
      sets := [(regKey .ENC_CTRL 0, 2 * 2 ^ 4)], pwr := { Pwr.reset with st := .run, booted := true } } }

theorem notedIndex_accepts : notedIndex.accepts .kweave .ENC_CTRL 0 1#32 :=
  ⟨⟨show notedIndex.dev.managementOn = true by decide +kernel, by decide +kernel, by decide +kernel, nofun⟩,
    by decide +kernel, by decide +kernel⟩

/-- The write carries IDX 0, the register takes the noted 2, and the port waits for its index. -/
theorem regWrite_notedIndex : (notedIndex.regWrite .kweave .ENC_CTRL 0 1#32).dev.on ENC_STAT_POSVALID 0 = false := by
  decide +kernel

/-- Refutes O10: its clause on `ENC.CTRL` leaves out the premise `setNow = 0` of `State.written`. Where the state notes a
count of 2 in IDX at this instant, a write that carries IDX 0 leaves IDX 2 (R428), and POSVALID stays clear, as in
`notedIndex`. `ENC.CTRL` has no counter, so that no run from reset should note one there; the statement speaks of every
state. -/
theorem not_encoderRegisters : ¬ Obligations.EncoderRegisters := by
  intro h
  obtain ⟨hctrl, -, -⟩ := h notedIndex .kweave 0 1#32 (by decide)
  obtain ⟨t, ht, -, -, -, hposv, -⟩ := hctrl notedIndex_accepts (by decide +kernel) (by decide)
  have hrun : exec (.encCtrlWrite .kweave 0 1#32) notedIndex = .next (notedIndex.regWrite .kweave .ENC_CTRL 0 1#32) := rfl
  obtain rfl : notedIndex.regWrite .kweave .ENC_CTRL 0 1#32 = t := Host.Outcome.next.inj (hrun.symm.trans ht)
  exact absurd (regWrite_notedIndex.symm.trans (hposv.mpr (by decide))) (by decide)

/-- The device in RUN, with a count of 1 noted at this instant in `LTG.CTRL[0].SRC`. -/
def notedSource : State :=
  { State.reset with dev := { Dev.reset with
      sets := [(regKey .LTG_CTRL 0, 1 * 2 ^ 1)], pwr := { Pwr.reset with st := .run, booted := true } } }

/-- Head 0 armed with SRC 1. -/
def armWord : Word := 3#32

theorem notedSource_accepts : notedSource.accepts .kweave .LTG_CTRL 0 armWord :=
  ⟨⟨show notedSource.dev.managementOn = true by decide +kernel, by decide +kernel, by decide +kernel, nofun⟩,
    by decide +kernel, by decide +kernel⟩

/-- The write carries SRC 1, and the noted count is added to it. -/
theorem regWrite_notedSource : (notedSource.regWrite .kweave .LTG_CTRL 0 armWord).dev.rf LTG_CTRL_SRC 0 = 2 := by
  decide +kernel

/-- Refutes O13: its clause on arming leaves out the premise `setNow = 0` of `State.written`. Where the state notes a count
of 1 in SRC at this instant, a write that carries SRC 1 leaves SRC 2 (R428), as in `notedSource`. `LTG.CTRL` has no counter,
so that no run from reset should note one there; the statement speaks of every state. -/
theorem not_lineTriggers : ¬ Obligations.LineTriggers := by
  rintro ⟨-, h⟩
  obtain ⟨harm, -, -⟩ := h notedSource .kweave 0 armWord (by decide) notedSource_accepts
  obtain ⟨t, ht, -, -, hsrc, -⟩ := harm (by decide +kernel) (by decide) (by decide)
  have hrun : exec (.ltgCtrlArm .kweave 0 armWord) notedSource =
      .next (notedSource.regWrite .kweave .LTG_CTRL 0 armWord) := rfl
  obtain rfl : notedSource.regWrite .kweave .LTG_CTRL 0 armWord = t := Host.Outcome.next.inj (hrun.symm.trans ht)
  exact absurd (regWrite_notedSource.symm.trans hsrc) (by decide)

end Sys2Proof.Machine
end

section
/-! SUPPORT. Timing packets: a state in which the line that a software trigger issues changes a register of another head. -/

namespace Sys2Proof.Machine

/-- A channel number past the last, which the register map does not tell from the first element of `CAC.CFG`. -/
def strayChannel : Nat := regKey .CAC_CFG 0 - regKey .AFE_CH 0

/-- A learn of head 0 whose results take effect with the head's next line, and that enables the trim of `strayChannel`. -/
def strayLearn : Learn :=
  { head := 0, kind := 2, phase := 5, left := 0, sum := [], cnt := [], ovr := [], sumX := [], lastNow := 0, cfg := 0,
    newPct := [], newDef := [], newPtt := [], trimOn := [strayChannel], val := 0 }

/-- LTG_SWTRIG of head 0; the CRC, checked before the packet is interpreted, is left 0. -/
def swtrigPacket : List Nat := [0x4B570005, 0x503, 0, 1, 0]

/-- The device in RUN with head 0 armed on its software trigger, `strayLearn` under way and `swtrigPacket` at hand. -/
def straySwtrig : State :=
  { State.reset with dev := { Dev.reset with
      regs := [(regKey .LTG_CTRL 0, 9#32)], pwr := { Pwr.reset with st := .run, booted := true }
      cal := { Cal.reset with learns := [strayLearn] }, kw := { Kw.reset with cur := some swtrigPacket } } }

theorem straySwtrig_asks : straySwtrig.asks 0x503 swtrigPacket 2 1 := by
  unfold State.asks State.interprets; decide +kernel

theorem straySwtrig_ready : straySwtrig.dev.readyToFire 0 (straySwtrig.dev.t + straySwtrig.dev.lead) :=
  ⟨by decide +kernel, by decide +kernel, by decide +kernel, nofun⟩

/-- The line commits the learn, and the trim enable of the stray channel falls on `CAC.CFG`. -/
theorem opLtgSwtrig_straySwtrig :
    straySwtrig.opLtgSwtrig.dev.rreg .CAC_CFG 0 ≠ straySwtrig.dev.rreg .CAC_CFG 0 := by decide +kernel

/-- Refutes O54: its clause on LTG_SWTRIG lets a line change, outside the pixel and calibration blocks, two registers of
its trigger only. In `straySwtrig` the line commits a learn that names a channel the device does not have, and the write of
its trim enable falls on `CAC.CFG`. No run should start such a learn; the statement speaks of every state. -/
theorem not_timingPackets : ¬ Obligations.TimingPackets := by
  intro h
  obtain ⟨-, -, -, hswt, -⟩ := h straySwtrig swtrigPacket 0 (by decide)
  obtain ⟨t, ht, -, ⟨-, -, hregs, -⟩, -⟩ := (hswt straySwtrig_asks (by decide)).1 (by decide +kernel) (by decide +kernel)
    straySwtrig_ready
  have hrun : exec .ltgSwtrig straySwtrig = .next straySwtrig.opLtgSwtrig := rfl
  obtain rfl : straySwtrig.opLtgSwtrig = t := Host.Outcome.next.inj (hrun.symm.trans ht)
  exact opLtgSwtrig_straySwtrig (hregs .CAC_CFG 0 (by decide) (by decide) (by decide))

end Sys2Proof.Machine
end

section
/-! SUPPORT. A wake of a state whose register map names a register twice. -/

namespace Sys2Proof.Machine

/-- The device waking, its register map naming `LTG.VMIN[0]` twice: the reset value before another. -/
def twiceNamed : State :=
  { State.reset with dev := { Dev.reset with
      regs := [(regKey .LTG_VMIN 0, regReset .LTG_VMIN 0), (regKey .LTG_VMIN 0, 1#32)]
      pwr := { Pwr.reset with st := .waking, booted := true } } }

theorem twiceNamed_vmin : twiceNamed.dev.rf LTG_VMIN_VMIN 0 = 4295 := by decide +kernel

/-- The wake drops the entry that tells the reset value, and the other shows. -/
theorem wakeDone_twiceNamed : twiceNamed.wakeDone.dev.rf LTG_VMIN_VMIN 0 = 1 := by decide +kernel

/-- Refutes O32: its clause on a wake keeps every setting, but `rstFields` drops the entries of the register map that come
to tell a reset value, and what an entry behind them tells of the same register then shows. In `twiceNamed` `LTG.VMIN` reads
4,295 before the wake and 1 after it. A run writes through `tset`, which keeps one entry a register, so that none should
reach such a map; the statement speaks of every state. -/
theorem not_powerStatesAndWakes : ¬ Obligations.PowerStatesAndWakes := by
  rintro ⟨h, -⟩
  obtain ⟨-, -, -, hwake⟩ := h twiceNamed
  obtain ⟨t, ht, -, hkept, -⟩ := (hwake (by decide)).2 (by decide +kernel)
  have hrun : exec .wakeDone twiceNamed = .next twiceNamed.wakeDone := rfl
  obtain rfl : twiceNamed.wakeDone = t := Host.Outcome.next.inj (hrun.symm.trans ht)
  have hvmin := hkept .LTG_VMIN 0 (by decide) (by decide) LTG_VMIN_VMIN (by decide) (.inl rfl) (by decide) (by decide)
  rw [wakeDone_twiceNamed, if_neg (by simp), twiceNamed_vmin] at hvmin
  exact absurd hvmin (by decide)

end Sys2Proof.Machine
end

section
/-! SUPPORT. Ring messages: a state in which the line that a LINE message issues changes a register of another block. -/

namespace Sys2Proof.Machine

/-- The row of a message that the slot holds has its effect, and the message is taken (R67). -/
theorem State.devWithin_slotRow {s : State} {ring : Bool} {j : Nat} {m : RingMsg} {f : Dev → RingMsg → Option Dev} {e : Dev}
    (hlive : s.dev.live 4 = true) (hm : s.dev.slotMsg ring j = some m) (hf : f s.dev m = some e) :
    s.devWithin 4 (fun d => d.slotRow ring j f) = .next { s with dev := e.slotDone ring j } := by
  rw [State.devWithin_live hlive, State.onDev, Dev.slotRow, hm, Option.bind_some, hf]

/-- A LINE message of head 0 with number 0, whose boundary leaves a member at TB 0 just 200 ns. -/
def strayMessage : RingMsg := .line 0 0 200 0

/-- A locked member in RUN with head 0 armed on the ring, `strayLearn` under way, and `strayMessage` in slot 0 of the
superframe that passes its primary input. -/
def strayRing : State :=
  { State.reset with dev := { Dev.reset with
      regs := [(regKey .LTG_CTRL 0, 7#32), (regKey .ZLK_CTRL 0, 1#32), (regKey .ZLK_STAT 0, 258#32)]
      pwr := { Pwr.reset with st := .run, booted := true }
      cal := { Cal.reset with learns := [strayLearn] }
      zlk := { Zlk.reset with pri := { Zlk.reset.pri with chars := List.replicate 32 0 ++ strayMessage.chars } } } }

theorem strayRing_ready : strayRing.dev.readyToFire 0 200 :=
  ⟨by decide +kernel, by decide +kernel, by decide +kernel, nofun⟩

/-- The device once the LINE message is taken. -/
def strayRingTaken : State := { strayRing with dev := (strayRing.dev.lineReceive 0 0 200 0).slotDone false 0 }

theorem exec_ringLine_strayRing : exec (.ringLine false 0) strayRing = .next strayRingTaken :=
  State.devWithin_slotRow (m := strayMessage) (by decide +kernel) (by decide +kernel) rfl

/-- The line commits the learn, and the trim enable of the stray channel falls on `CAC.CFG`. -/
theorem strayRingTaken_cacCfg : strayRingTaken.dev.rreg .CAC_CFG 0 ≠ strayRing.dev.rreg .CAC_CFG 0 := by decide +kernel

/-- Refutes O18: its clause on a LINE message that is issued lets a line change, outside the pixel and calibration blocks, two
registers of its trigger only. In `strayRing` the line commits a learn that names a channel the device does not have, and the
write of its trim enable falls on `CAC.CFG`. No run should start such a learn; the statement speaks of every state. -/
theorem not_ringMessages : ¬ Obligations.RingMessages := by
  rintro ⟨-, hline⟩
  obtain ⟨hmember, -⟩ := hline strayRing false 0 0 0 200 0 (by decide +kernel) (by decide +kernel)
  obtain ⟨hissue, -, -⟩ := hmember (by decide +kernel) nofun
  obtain ⟨t, ht, ⟨-, -, hregs, -⟩, -⟩ :=
    hissue (by decide) (by decide +kernel) (by decide +kernel) 0 (by decide +kernel) strayRing_ready
  obtain rfl : strayRingTaken = t := Host.Outcome.next.inj (exec_ringLine_strayRing.symm.trans ht)
  exact strayRingTaken_cacCfg (hregs .CAC_CFG 0 (by decide) (by decide) (by decide))

end Sys2Proof.Machine
end

section
/-! SUPPORT. A write of the ring's control register at an instant at which the state notes a count in the written field. -/

namespace Sys2Proof.Machine

/-- The device in RUN, with a count of 1 noted at this instant in `ZLK.CTRL.ROLE`. -/
def notedRole : State :=
  { State.reset with dev := { Dev.reset with
      sets := [(regKey .ZLK_CTRL 0, 1 * 2 ^ 1)], pwr := { Pwr.reset with st := .run, booted := true } } }

/-- EN and START with ROLE 1. -/
def startWord : Word := 0x80000003#32

theorem notedRole_accepts : notedRole.accepts .kweave .ZLK_CTRL 0 startWord :=
  ⟨⟨show notedRole.dev.managementOn = true by decide +kernel, by decide +kernel, by decide +kernel, nofun⟩,
    by decide +kernel, by decide +kernel⟩

/-- The write carries ROLE 1, the register takes 2, and the device does not originate. -/
theorem regWrite_notedRole : (notedRole.regWrite .kweave .ZLK_CTRL 0 startWord).dev.zlk.originating = false := by
  decide +kernel

/-- Refutes O19: its clause on a start leaves out the premise `setNow = 0` of `State.written`. Where the state notes a count of
1 in ROLE at this instant, a write that carries ROLE 1 leaves ROLE 2 (R428), and the device starts as one that does not
originate, as in `notedRole`. `ZLK.CTRL` has no counter, so that no run from reset should note one there; the statement speaks
of every state. -/
theorem not_ringBreaks : ¬ Obligations.RingBreaks := by
  intro h
  obtain ⟨-, -, -, hstart, -⟩ := h notedRole (by decide +kernel)
  obtain ⟨t, ht, -, -, -, -, -, horig⟩ :=
    hstart .kweave startWord notedRole_accepts (by decide) (by decide) (by decide +kernel)
  have hrun : exec (.zlkCtrlStart .kweave startWord) notedRole =
      .next (notedRole.regWrite .kweave .ZLK_CTRL 0 startWord) := rfl
  obtain rfl : notedRole.regWrite .kweave .ZLK_CTRL 0 startWord = t := Host.Outcome.next.inj (hrun.symm.trans ht)
  exact absurd (regWrite_notedRole.symm.trans horig) (by decide)

end Sys2Proof.Machine
end

section
/-! SUPPORT. Zoras superframes as characters: headers and messages are read back from the characters they are sent as. -/

namespace Sys2Proof.Machine

/-! Bytes of a number -/

@[simp] theorem length_leBytes (n v : Nat) : (leBytes n v).length = n := by
  induction n generalizing v with
  | zero => rfl
  | succ n ih => rw [leBytes, List.length_cons, ih]

theorem leBytes_lt (n v : Nat) : ∀ c ∈ leBytes n v, c < 256 := by
  induction n generalizing v with
  | zero => simp [leBytes]
  | succ n ih => exact List.forall_mem_cons.mpr ⟨Nat.mod_lt _ (by decide), ih _⟩

theorem forall_mem_leBytes (n v : Nat) : (∀ c ∈ leBytes n v, c < 256) ↔ True := iff_true_intro (leBytes_lt n v)

theorem leNat_leBytes {n v : Nat} (h : v < 256 ^ n) : leNat (leBytes n v) = v := by
  induction n generalizing v with
  | zero => rw [leBytes, leNat]; omega
  | succ n ih =>
    have hv : v / 256 < 256 ^ n := Nat.div_lt_of_lt_mul (by rwa [pow_succ'] at h)
    rw [leBytes, leNat, ih hv]
    omega

theorem leNat_lt (l : List Nat) : leNat l < 256 ^ l.length := by
  induction l with
  | nil => simp [leNat]
  | cons b r ih => rw [leNat, List.length_cons, pow_succ]; omega

theorem leNat_lt_word {l : List Nat} (h : l.length = 4) : leNat l < 2 ^ 32 := by
  have hlt := leNat_lt l
  rwa [h] at hlt

/-! CRC-32C stays in 32 bits -/

theorem crcBit_lt {c : Nat} (h : c < 2 ^ 32) : crcBit c < 2 ^ 32 := by
  have hhalf : c / 2 < 2 ^ 32 := by omega
  unfold crcBit
  split
  · exact Nat.xor_lt_two_pow hhalf (by decide)
  · exact hhalf

theorem crcByte_lt {c : Nat} (b : Nat) (h : c < 2 ^ 32) : crcByte c b < 2 ^ 32 :=
  crcBit_lt (crcBit_lt (crcBit_lt (crcBit_lt (crcBit_lt (crcBit_lt (crcBit_lt (crcBit_lt
    (Nat.xor_lt_two_pow h (by omega)))))))))

theorem crcChars_lt (l : List Nat) : crcChars l < 2 ^ 32 :=
  Nat.xor_lt_two_pow (foldl_keeps (· < 2 ^ 32) crcByte l _ (by decide) fun _ b _ h => crcByte_lt b h) (by decide)

/-! Frames -/

@[simp] theorem length_framed (k : Nat) (body : List Nat) : (framed k body).length = body.length + 5 := by
  simp [framed]

/-- A frame of bytes is taken, and its body is what was framed. -/
theorem bodyOf_framed (k : Nat) {body : List Nat} {n : Nat} (hn : body.length + 5 = n) (h : ∀ c ∈ body, c < 256) :
    bodyOf k n (framed k body) = some body := by
  subst hn
  have hbody : ((framed k body).drop 1).take (body.length + 5 - 5) = body := List.take_left' rfl
  have hcrc : (framed k body).drop (body.length + 5 - 4) = leBytes 4 (crcChars body) := List.drop_left' rfl
  have hall : ((framed k body).drop 1).all (fun c => decide (c < 256)) = true := by
    rw [List.all_eq_true]
    exact fun c hc => decide_eq_true ((List.mem_append.mp hc).elim (h c) (leBytes_lt _ _ c))
  rw [bodyOf, hbody, hcrc, if_pos ⟨length_framed k body, rfl, hall, leNat_leBytes (crcChars_lt body)⟩]

/-- What a taken frame carries: as many bytes as its length leaves. -/
theorem bodyOf_eq_some {k n : Nat} {l b : List Nat} (h : bodyOf k n l = some b) :
    b = (l.drop 1).take (n - 5) ∧ l.length = n ∧ ∀ c ∈ b, c < 256 := by
  simp only [bodyOf, Option.ite_none_right_eq_some, Option.some.injEq] at h
  obtain ⟨⟨hlen, -, hall, -⟩, rfl⟩ := h
  exact ⟨rfl, hlen, fun c hc => of_decide_eq_true (List.all_eq_true.mp hall c (List.mem_of_mem_take hc))⟩

/-! Headers -/

/-- A header's fields by the parts of its characters 1 to 27: two characters of flags and ID, the hop count, the superframe
number with TB and position, the two masks, and the error code (R65). -/
theorem hdrOfBody_parts (c0 c1 hops sfn errf : Nat) {tb pos alive lock : List Nat} (htb : tb.length = 6)
    (hpos : pos.length = 8) (halive : alive.length = 4) (hlock : lock.length = 4) :
    hdrOfBody ([c0, c1, hops, sfn] ++ tb ++ pos ++ alive ++ lock ++ [errf]) =
      { dir := c0 / 8 % 2, phase := c0 / 2 % 4, rank := c1 / 64 % 4, mid := c1 % 32, hops := hops, sfn := sfn
        tb := leNat tb, pos := leNat pos, alive := leNat alive, lockmask := leNat lock, errf := errf % 16 } := by
  simp only [List.cons_append, List.nil_append, List.append_assoc]
  simp [hdrOfBody, htb, hpos, halive, hlock, List.drop_append, List.drop_eq_nil_of_le]

/-- Every field is at a value that a header can carry. -/
structure RingHdr.Fits (h : RingHdr) : Prop where
  dir : h.dir < 2
  phase : h.phase < 4
  rank : h.rank < 4
  mid : h.mid < 32
  hops : h.hops < 256
  sfn : h.sfn < 256
  tb : h.tb < 2 ^ 48
  pos : h.pos < 2 ^ 64
  alive : h.alive < 2 ^ 32
  lockmask : h.lockmask < 2 ^ 32
  errf : h.errf < 16

theorem RingHdr.body_lt (h : RingHdr) : ∀ c ∈ h.body, c < 256 := by
  simp only [RingHdr.body, List.forall_mem_append, List.forall_mem_cons, List.not_mem_nil, false_implies, implies_true,
    forall_mem_leBytes, and_true]
  omega

theorem RingHdr.length_body (h : RingHdr) : h.body.length = 27 := by simp [RingHdr.body]

theorem RingHdr.length_chars (h : RingHdr) : h.chars.length = 32 := by
  rw [RingHdr.chars, length_framed, h.length_body]

theorem hdrOfBody_body {h : RingHdr} (hf : h.Fits) : hdrOfBody h.body = h := by
  obtain ⟨hdir, hphase, hrank, hmid, hhops, hsfn, htb, hpos, halive, hlock, herrf⟩ := hf
  rw [RingHdr.body, hdrOfBody_parts _ _ _ _ _ (length_leBytes ..) (length_leBytes ..) (length_leBytes ..)
      (length_leBytes ..),
    leNat_leBytes htb, leNat_leBytes hpos, leNat_leBytes halive, leNat_leBytes hlock]
  obtain ⟨dir, phase, rank, mid, hops, sfn, tb, pos, alive, lock, errf⟩ := h
  simp only [RingHdr.mk.injEq, true_and]
  dsimp only at *
  omega

/-- The header of a superframe that begins with the frame of these 27 bytes. -/
theorem hdrOf_framed {body : List Nat} (hlen : body.length = 27) (h : ∀ c ∈ body, c < 256) (rest : List Nat) :
    hdrOf (framed kSof body ++ rest) = some (hdrOfBody body) := by
  have htake : (framed kSof body ++ rest).take 32 = framed kSof body := List.take_left' (by simp [hlen])
  rw [hdrOf, htake, bodyOf_framed kSof (by rw [hlen]) h, Option.map_some]

theorem hdrOf_chars {h : RingHdr} (hf : h.Fits) (rest : List Nat) : hdrOf (h.chars ++ rest) = some h := by
  rw [RingHdr.chars, hdrOf_framed h.length_body h.body_lt, hdrOfBody_body hf]

/-! Messages -/

theorem RingMsg.length_body (m : RingMsg) : m.body.length = 23 := by
  cases m <;> simp [RingMsg.body]

theorem RingMsg.length_chars (m : RingMsg) : m.chars.length = 28 := by
  rw [RingMsg.chars, length_framed, m.length_body]

theorem RingMsg.body_lt (m : RingMsg) : ∀ c ∈ m.body, c < 256 := by
  cases m <;> simp only [RingMsg.body, List.forall_mem_append, List.forall_mem_cons, List.not_mem_nil, false_implies,
    implies_true, List.forall_mem_replicate, forall_mem_leBytes, and_true] <;> omega

/-- A slot carries the message that its characters 1 to 23 tell. -/
theorem msgOf_chars (m : RingMsg) : msgOf m.chars = msgOfBody m.body := by
  rw [msgOf, RingMsg.chars, bodyOf_framed kSlot (by rw [m.length_body]) m.body_lt, Option.bind_some]

theorem msgOf_line {head num fire pos : Nat} (hhead : head < 32) (hnum : num < 2 ^ 32) (hfire : fire < 2 ^ 64)
    (hpos : pos < 2 ^ 64) : msgOf (RingMsg.line head num fire pos).chars = some (.line head num fire pos) := by
  have hbody : msgOfBody (RingMsg.line head num fire pos).body = some (.line (head % 32 % 32) (leNat (leBytes 4 num))
      (leNat (leBytes 8 fire)) (leNat (leBytes 8 pos))) := rfl
  rw [msgOf_chars, hbody, Nat.mod_mod, Nat.mod_eq_of_lt hhead, leNat_leBytes hnum, leNat_leBytes hfire, leNat_leBytes hpos]

theorem msgOf_echo {id seq ring : Nat} (hid : id < 32) (hseq : seq < 256) (hring : ring < 2) :
    msgOf (RingMsg.echo id seq ring).chars = some (.echo id seq ring) := by
  have hbody : msgOfBody (RingMsg.echo id seq ring).body = some (.echo (id % 32 % 32) (seq % 256) (ring % 2 % 2)) := rfl
  rw [msgOf_chars, hbody, Nat.mod_mod, Nat.mod_mod, Nat.mod_eq_of_lt hid, Nat.mod_eq_of_lt hseq, Nat.mod_eq_of_lt hring]

theorem msgOf_echoReply {id seq turn : Nat} (hid : id < 32) (hseq : seq < 256) (hturn : turn < 2 ^ 32) :
    msgOf (RingMsg.echoReply id seq turn).chars = some (.echoReply id seq turn) := by
  have hbody : msgOfBody (RingMsg.echoReply id seq turn).body =
      some (.echoReply (id % 32 % 32) (seq % 256) (leNat (leBytes 4 turn))) := rfl
  rw [msgOf_chars, hbody, Nat.mod_mod, Nat.mod_eq_of_lt hid, Nat.mod_eq_of_lt hseq, leNat_leBytes hturn]

theorem msgOf_offset {id ring ofs : Nat} (hid : id < 32) (hring : ring < 2) (hofs : ofs < 2 ^ 32) :
    msgOf (RingMsg.offset id ring ofs).chars = some (.offset id ring ofs) := by
  have hbody : msgOfBody (RingMsg.offset id ring ofs).body =
      some (.offset (id % 32 % 32) (ring % 2 % 2) (leNat (leBytes 4 ofs))) := rfl
  rw [msgOf_chars, hbody, Nat.mod_mod, Nat.mod_mod, Nat.mod_eq_of_lt hid, Nat.mod_eq_of_lt hring, leNat_leBytes hofs]

theorem msgOf_start {tb lead : Nat} (htb : tb < 2 ^ 64) (hlead : lead < 2 ^ 32) :
    msgOf (RingMsg.start tb lead).chars = some (.start tb lead) := by
  have hbody : msgOfBody (RingMsg.start tb lead).body = some (.start (leNat (leBytes 8 tb)) (leNat (leBytes 4 lead))) := rfl
  rw [msgOf_chars, hbody, leNat_leBytes htb, leNat_leBytes hlead]

/-! What a member makes of a header -/

/-- The characters 1 to 27 of a header by their parts. -/
theorem hdrBody_cases {b : List Nat} (h : b.length = 27) : ∃ c0 c1 hops sfn errf, ∃ tb pos alive lock : List Nat,
    tb.length = 6 ∧ pos.length = 8 ∧ alive.length = 4 ∧ lock.length = 4 ∧
      b = [c0, c1, hops, sfn] ++ tb ++ pos ++ alive ++ lock ++ [errf] := by
  match b, h with
  | c0 :: c1 :: hops :: sfn :: r, h =>
    simp only [List.length_cons] at h
    obtain ⟨errf, herrf⟩ := List.length_eq_one_iff.mp (show (r.drop 22).length = 1 by rw [List.length_drop]; omega)
    refine ⟨c0, c1, hops, sfn, errf, r.take 6, (r.drop 6).take 8, (r.drop 14).take 4, (r.drop 18).take 4,
      ?_, ?_, ?_, ?_, ?_⟩
    · simp; omega
    · simp; omega
    · simp; omega
    · simp; omega
    · have h14 : r.drop 14 = (r.drop 14).take 4 ++ r.drop 18 := by
        rw [← List.drop_drop (i := 4) (j := 14), List.take_append_drop]
      have h6 : r.drop 6 = (r.drop 6).take 8 ++ r.drop 14 := by
        rw [← List.drop_drop (i := 8) (j := 6), List.take_append_drop]
      have h18 : r.drop 18 = (r.drop 18).take 4 ++ [errf] := by
        rw [← herrf, ← List.drop_drop (i := 4) (j := 18), List.take_append_drop]
      simp only [List.cons_append, List.nil_append, List.append_assoc]
      rw [← h18, ← h14, ← h6, List.take_append_drop]

/-- The characters of a header that was taken (R65). -/
theorem hdrOf_eq_some {l : List Nat} {hdr : RingHdr} (h : hdrOf l = some hdr) :
    ((l.drop 1).take 27).length = 27 ∧ (∀ c ∈ (l.drop 1).take 27, c < 256) ∧ hdrOfBody ((l.drop 1).take 27) = hdr := by
  obtain ⟨b, hb, hhdr⟩ := Option.map_eq_some_iff.mp h
  obtain ⟨hbody, hlen, hlt⟩ := bodyOf_eq_some hb
  have hcut : b = (l.drop 1).take 27 := by rw [hbody, List.drop_take, List.take_take]; rfl
  subst hcut
  refine ⟨?_, hlt, hhdr⟩
  rw [List.length_take] at hlen ⊢
  rw [List.length_drop]
  omega

/-- The ID and the masks of a header that was taken. -/
theorem hdrOf_fits {l : List Nat} {hdr : RingHdr} (h : hdrOf l = some hdr) :
    hdr.mid < 32 ∧ hdr.alive < 2 ^ 32 ∧ hdr.lockmask < 2 ^ 32 := by
  obtain ⟨hlen, -, rfl⟩ := hdrOf_eq_some h
  obtain ⟨c0, c1, hops, sfn, errf, tb, pos, alive, lock, htb, hpos, halive, hlock, hb⟩ := hdrBody_cases hlen
  rw [hb, hdrOfBody_parts _ _ _ _ _ htb hpos halive hlock]
  exact ⟨Nat.mod_lt _ (by decide), leNat_lt_word halive, leNat_lt_word hlock⟩

/-- A header with a right CRC as a member without an error code of its own sends it on: one more hop, the bits of the member
set, the rest as it came, and a right CRC again (R66). -/
theorem hdrOf_repeatHdr {l : List Nat} {hdr : RingHdr} {alive lock : Nat} (h : hdrOf l = some hdr) (halive : alive < 2 ^ 32)
    (hlock : lock < 2 ^ 32) (rest : List Nat) : hdrOf (repeatHdr l alive lock 0 ++ rest) = some { hdr with
      hops := (hdr.hops + 1) % 256, alive := Nat.lor hdr.alive alive, lockmask := Nat.lor hdr.lockmask lock } := by
  obtain ⟨hlen, hlt, hhdr⟩ := hdrOf_eq_some h
  obtain ⟨c0, c1, hops, sfn, errf, tb, pos, al, lk, htb, hpos, hal, hlk, hb⟩ := hdrBody_cases hlen
  rw [hb, hdrOfBody_parts _ _ _ _ _ htb hpos hal hlk] at hhdr
  subst hhdr
  have hrep : repeatHdr l alive lock 0 = framed kSof ([c0, c1, (hops + 1) % 256, sfn] ++ tb ++ pos ++
      leBytes 4 (Nat.lor (leNat al) alive) ++ leBytes 4 (Nat.lor (leNat lk) lock) ++ [errf]) := by
    rw [repeatHdr, hb, hdrOfBody_parts _ _ _ _ _ htb hpos hal hlk]
    simp [htb, hpos, hal, hlk, List.take_append, List.take_of_length_le]
  have hmask {m : List Nat} {bit : Nat} (hm : m.length = 4) (hbit : bit < 2 ^ 32) :
      leNat (leBytes 4 (Nat.lor (leNat m) bit)) = Nat.lor (leNat m) bit :=
    leNat_leBytes (Nat.or_lt_two_pow (leNat_lt_word hm) hbit)
  rw [hb] at hlt
  simp only [List.forall_mem_append, List.forall_mem_cons] at hlt
  obtain ⟨⟨⟨⟨⟨⟨h0, h1, -, hsfn, -⟩, hbtb⟩, hbpos⟩, -⟩, -⟩, herrf, -⟩ := hlt
  rw [hrep, hdrOf_framed, hdrOfBody_parts _ _ _ _ _ htb hpos (length_leBytes ..) (length_leBytes ..), hmask hal halive,
    hmask hlk hlock]
  · simp [htb, hpos]
  · simp only [List.forall_mem_append, List.forall_mem_cons]
    exact ⟨⟨⟨⟨⟨⟨h0, h1, Nat.mod_lt _ (by decide), hsfn, by simp⟩, hbtb⟩, hbpos⟩, leBytes_lt _ _⟩, leBytes_lt _ _⟩,
      herrf, by simp⟩

end Sys2Proof.Machine
end

section
/-! SUPPORT. What an originator sends: the header and the slots of a superframe. -/

namespace Sys2Proof.Machine

/-- The characters of the superframe on an output. -/
def Dev.ringOut (d : Dev) (ring : Bool) : List Nat := if ring then d.zlk.out1 else d.zlk.out0

/-- The own bit is one of 32. -/
theorem Dev.zbit_lt (d : Dev) : d.zbit < 2 ^ 32 := Nat.pow_lt_pow_right (by decide) (d.rf_lt ZLK_CTRL_ID 0)

theorem ux_lt (w : Nat) (z : Int) : ux w z < 2 ^ w := by
  have hpos : (0 : Int) < (2 ^ w : Nat) := by exact_mod_cast Nat.two_pow_pos w
  have hlt := Int.emod_lt_of_pos z hpos
  have hge := Int.emod_nonneg z hpos.ne'
  unfold ux
  omega

/-- The superframe number of a header goes out modulo 256. -/
theorem RingHdr.chars_sfn (h : RingHdr) : h.chars = RingHdr.chars { h with sfn := h.sfn % 256 } := by
  rw [RingHdr.chars, RingHdr.chars, RingHdr.body, RingHdr.body, Nat.mod_mod]

/-- The originator's header with the superframe number that its characters carry. -/
def Dev.headerSent (d : Dev) (errf dir : Nat) : RingHdr := { d.headerNow errf dir with sfn := d.zlk.sfn % 256 }

theorem Dev.headerSent_fits (d : Dev) {errf dir : Nat} (hdir : dir < 2) (herrf : errf < 16) : (d.headerSent errf dir).Fits where
  dir := hdir
  phase := d.rf_lt ZLK_STAT_PHASE 0
  rank := show d.rf ZLK_CTRL_ROLE 0 % 2 < 4 by omega
  mid := d.rf_lt ZLK_CTRL_ID 0
  hops := Nat.zero_lt_succ _
  sfn := Nat.mod_lt _ (by decide)
  tb := Nat.mod_lt _ (by decide)
  pos := by
    unfold Dev.headerSent Dev.headerNow
    dsimp only
    split
    · exact ux_lt 64 _
    · decide
  alive := d.zbit_lt
  lockmask := d.zbit_lt
  errf := herrf

/-- The header of a superframe that begins with the originator's header. -/
theorem Dev.hdrOf_headerNow (d : Dev) {errf dir : Nat} (hdir : dir < 2) (herrf : errf < 16) (rest : List Nat) :
    hdrOf ((d.headerNow errf dir).chars ++ rest) = some (d.headerSent errf dir) := by
  rw [RingHdr.chars_sfn]
  exact hdrOf_chars (d.headerSent_fits hdir herrf) rest

/-! The slots -/

/-- The slots of an emitted plan, as characters. -/
def planChars (sof lead : Nat) (plan : List RingMsg) : List Nat :=
  (plan.zip (List.range 8)).flatMap (fun x => (x.1.stamp (sof + slotStart x.2) lead).chars)

theorem length_planChars (sof lead : Nat) {plan : List RingMsg} (h : plan.length = 8) :
    (planChars sof lead plan).length = 224 := by
  rw [planChars, List.length_flatMap, List.map_congr_left (fun x _ => RingMsg.length_chars _), List.map_const']
  simp [h]

/-- Eight slots: the messages, and IDLE slots after them (R67). -/
def planOf (msgs : List RingMsg) : List RingMsg := msgs.take 8 ++ List.replicate (8 - msgs.length) .idle

theorem length_planOf (msgs : List RingMsg) : (planOf msgs).length = 8 := by
  simp [planOf]; omega

section

variable (d : Dev) (errf : Nat) (msgs : List RingMsg)

/-- Both outputs carry the header with their direction, then the same slots. -/
theorem Dev.superframeOut_ringOut : ∃ slots, slots.length = 224 ∧
    ∀ ring, (d.superframeOut errf msgs).ringOut ring = (d.headerNow errf (b2n ring)).chars ++ slots := by
  refine ⟨planChars d.t d.ringLead (planOf (d.zlk.txLines ++ msgs)), length_planChars _ _ (length_planOf _), fun ring => ?_⟩
  cases ring
  · exact congrArg (· ++ _) (List.take_of_length_le (RingHdr.length_chars _).le)
  · exact congrArg (· ++ _) (List.take_of_length_le (RingHdr.length_chars _).le)

theorem Dev.superframeOut_plan : (d.superframeOut errf msgs).zlk.plan = planOf (d.zlk.txLines ++ msgs) := rfl

theorem Dev.superframeOut_sfn : (d.superframeOut errf msgs).zlk.sfn = (d.zlk.sfn + 1) % 256 := rfl

theorem Dev.superframeOut_regs : (d.superframeOut errf msgs).regs = d.regs := rfl

end

/-- An originator whose start has not been broken off sends one superframe, with its error code; where MEASURE ends with it,
the phase becomes LOCK (R65, R71). -/
theorem Dev.superframe_sends (d : Dev) (h : d.zlk.abortCode = 0) : ∃ (f : Zlk → Zlk) (msgs : List RingMsg),
    (∀ z, (f z).sfn = z.sfn ∧ (f z).txLines = z.txLines) ∧
      (d.superframe = (d.setZ f).superframeOut (d.rf ZLK_STAT_ERR 0) msgs ∨
        d.superframe = ((d.setZ f).superframeOut (d.rf ZLK_STAT_ERR 0) msgs).wf ZLK_STAT_PHASE 0 2) ∧
      (d.rf ZLK_STAT_PHASE 0 = 2 → d.zlk.rejoin = false → d.zlk.startPend = false → d.on ZLK_CTRL_TRACK 0 = false →
        msgs = d.zlk.txMsgs) := by
  unfold Dev.superframe
  extract_lets z phase mem measuring rounds finished start msgs sendEcho echo echoMsg d' sent
  rw [if_neg (not_not_intro h)]
  obtain ⟨f, hf, hkeep⟩ : ∃ f, d' = d.setZ f ∧ ∀ z, (f z).sfn = z.sfn ∧ (f z).txLines = z.txLines :=
    ⟨_, rfl, fun _ => ⟨rfl, rfl⟩⟩
  have hsent : sent = (d.setZ f).superframeOut (d.rf ZLK_STAT_ERR 0) (echoMsg ++ msgs) := by
    rw [← Dev.setZ_rf d f, ← hf]
  refine ⟨f, echoMsg ++ msgs, hkeep, ?_, fun hphase hrejoin hpend htrack => ?_⟩
  · rw [hsent]
    split
    · exact .inr rfl
    · exact .inl rfl
  · have hm : measuring = false := by simp [measuring, phase, z, hphase, hrejoin]
    simp [echoMsg, msgs, echo, sendEcho, finished, start, hm, htrack, hpend, z]

end Sys2Proof.Machine
end

section
/-! SUPPORT. What a member does with a superframe: the header it sends on, and what a good header says to it. -/

namespace Sys2Proof.Machine

/-! What of the ring's state decides how a superframe passes, and what leaves -/

/-- Whether the device originates, whether a start runs, its error code, and the characters on the outputs. -/
def Zlk.passing (z : Zlk) : Bool × Bool × Option Nat × Nat × List Nat × List Nat :=
  (z.originating, z.startReq, z.startHandle, z.errCode, z.out0, z.out1)

section

variable {d e : Dev} (h : e.zlk.passing = d.zlk.passing)
include h

theorem Dev.originating_of_passing : e.zlk.originating = d.zlk.originating := congrArg (·.1) h

theorem Dev.errCode_of_passing : e.zlk.errCode = d.zlk.errCode := congrArg (·.2.2.2.1) h

theorem Dev.startRuns_of_passing : e.startRuns = d.startRuns :=
  congrArg (fun x : Bool × Bool × Option Nat × Nat × List Nat × List Nat => x.2.1 || x.2.2.1.isSome) h

theorem Dev.ringOut_of_passing (ring : Bool) : e.ringOut ring = d.ringOut ring :=
  congrArg (fun x : Bool × Bool × Option Nat × Nat × List Nat × List Nat => if ring then x.2.2.2.2.2 else x.2.2.2.2.1) h

end

@[simp] theorem Dev.setRingIn_passing (d : Dev) (ring : Bool) (r : RingIn) :
    (d.setRingIn ring r).zlk.passing = d.zlk.passing := by cases ring <;> rfl

/-- The superframe passes: the header as given, then the slots, leave on the output of the ring. -/
theorem Dev.repeatOut_ringOut (d : Dev) (ring : Bool) (hdr chars : List Nat) (at_ : Int) :
    ∃ slots, (d.repeatOut ring hdr chars at_).ringOut ring = hdr ++ slots := by
  cases ring <;> exact ⟨_, rfl⟩

/-! A superframe that enters -/

/-- The slots of a superframe that are ignored (R67). -/
def slotsIgnored (chars : List Nat) : Nat := ((slotsOf chars).filter (fun x => (msgOf x).isNone)).length

section

variable (d : Dev) (ring : Bool) (chars : List Nat) (at64 : Nat)

theorem Dev.superframeIn_regs :
    (d.superframeIn ring chars at64).regs = (d.inc ZLK_ERRCNT_SLOT 0 (slotsIgnored chars)).regs := rfl

theorem Dev.superframeIn_passing : (d.superframeIn ring chars at64).zlk.passing = d.zlk.passing := by
  rw [Dev.superframeIn, Dev.inc_zlk, Dev.setRingIn_passing]

theorem Dev.onlyRegs_superframeIn : d.onlyRegs (d.superframeIn ring chars at64) [(.ZLK_ERRCNT, 0)] :=
  (d.onlyRegs_inc ZLK_ERRCNT_SLOT _ (by decide) (by simp [ZLK_ERRCNT_SLOT])).trans
    (Dev.onlyRegs_of_regs (d.superframeIn_regs ring chars at64))

theorem Dev.superframeIn_counts : d.counts (d.superframeIn ring chars at64) ZLK_ERRCNT_SLOT 0 (slotsIgnored chars) :=
  d.rf_inc_self ZLK_ERRCNT_SLOT 0 (slotsIgnored chars) (by decide)

theorem Dev.superframeIn_hdr : (d.superframeIn ring chars at64).rf ZLK_ERRCNT_HDR 0 = d.rf ZLK_ERRCNT_HDR 0 :=
  d.rf_inc_apart (by decide) (by decide) ZLK_ERRCNT_SLOT ZLK_ERRCNT_HDR _ (by decide)

/-! A header with a wrong CRC -/

/-- The device once the header is counted and no own or valid one stands before it. -/
def Dev.headerCounted : Dev :=
  (d.inc ZLK_ERRCNT_HDR 0 1).setRingIn ring { (d.inc ZLK_ERRCNT_HDR 0 1).ringIn ring with run := 0, own := 0 }

theorem Dev.headerCounted_passing : (d.headerCounted ring).zlk.passing = d.zlk.passing := by
  rw [Dev.headerCounted, Dev.setRingIn_passing, Dev.inc_zlk]

theorem Dev.headerBad_eq : d.headerBad ring chars at64 =
    if (d.headerCounted ring).zlk.originating then d.headerCounted ring
    else (d.headerCounted ring).repeatOut ring (invertCrc chars) chars ((d.headerCounted ring).devTime at64) := rfl

theorem Dev.headerBad_regs : (d.headerBad ring chars at64).regs = (d.inc ZLK_ERRCNT_HDR 0 1).regs := by
  rw [Dev.headerBad_eq]
  split <;> rfl

theorem Dev.headerBad_repeated (h : d.zlk.originating = false) :
    ∃ slots, (d.headerBad ring chars at64).ringOut ring = invertCrc chars ++ slots := by
  rw [Dev.headerBad_eq, Dev.originating_of_passing (d.headerCounted_passing ring), h, if_neg (by simp)]
  exact Dev.repeatOut_ringOut _ _ _ _ _

theorem Dev.headerBad_originator (h : d.zlk.originating = true) (r : Bool) :
    (d.headerBad ring chars at64).ringOut r = d.ringOut r := by
  rw [Dev.headerBad_eq, Dev.originating_of_passing (d.headerCounted_passing ring), h, if_pos rfl]
  exact Dev.ringOut_of_passing (d.headerCounted_passing ring) r

end

/-! A header with a right CRC -/

/-- A step of what a header says to a device: registers of the list only, and these fields and what `Zlk.passing` tells
stay. -/
structure Dev.ringStep (d e : Dev) (l : List (RegKind × Nat)) (keep : List Fld) : Prop where
  regs : d.onlyRegs e l
  kept : ∀ f ∈ keep, e.rf f 0 = d.rf f 0
  passing : e.zlk.passing = d.zlk.passing

namespace Dev.ringStep

variable {d e e' : Dev} {l : List (RegKind × Nat)} {keep : List Fld}

theorem trans (h : d.ringStep e l keep) (h' : e.ringStep e' l keep) : d.ringStep e' l keep where
  regs := h.regs.trans h'.regs
  kept f hf := (h'.kept f hf).trans (h.kept f hf)
  passing := h'.passing.trans h.passing

/-- A change beside the registers and what `Zlk.passing` tells. -/
theorem of_regs (hregs : e.regs = d.regs) (hpass : e.zlk.passing = d.zlk.passing) : d.ringStep e l keep where
  regs := Dev.onlyRegs_of_regs hregs
  kept f _ := by rw [Dev.rf, hregs, Dev.rf]
  passing := hpass

theorem refl (d : Dev) : d.ringStep d l keep := of_regs rfl rfl

theorem wf (h : d.ringStep e l keep) (f : Fld) (n : Nat) (hf : (f.kind, 0) ∈ l) (hk : ∀ g ∈ keep, f.apart g = true) :
    d.ringStep (e.wf f 0 n) l keep :=
  h.trans {
    regs := e.onlyRegs_wf f n (by decide) hf
    kept := fun g hg => e.rf_wf_apart (by decide) (by decide) f g n (hk g hg)
    passing := by rw [Dev.wf_zlk] }

theorem setZ (h : d.ringStep e l keep) (f : Zlk → Zlk) (hf : ∀ z, (f z).passing = z.passing) :
    d.ringStep (e.setZ f) l keep := h.trans (of_regs rfl (hf _))

theorem setRingIn (h : d.ringStep e l keep) (ring : Bool) (r : RingIn) : d.ringStep (e.setRingIn ring r) l keep :=
  h.trans (of_regs rfl (e.setRingIn_passing ring r))

theorem tbAdd64 (h : d.ringStep e l keep) (x : Int) : d.ringStep (e.tbAdd64 x) l keep := h.trans (of_regs rfl rfl)

theorem post (h : d.ringStep e l keep) (k : RecKind) (src value : Nat) : d.ringStep (e.post k src value) l keep :=
  h.trans (of_regs (Dev.post_regs ..) (by rw [Dev.post_zlk]))

theorem mono {m : List (RegKind × Nat)} {kept : List Fld} (h : d.ringStep e l keep) (hl : l ⊆ m) (hk : kept ⊆ keep) :
    d.ringStep e m kept where
  regs := h.regs.mono hl
  kept f hf := h.kept f (hk hf)
  passing := h.passing

theorem ite {c : Prop} [Decidable c] (h : d.ringStep e l keep) (h' : d.ringStep e' l keep) :
    d.ringStep (if c then e else e') l keep := by
  split
  · exact h
  · exact h'

end Dev.ringStep

/-- The registers in which a member keeps what its active ring tells of the timebase. -/
def steerRegs : List (RegKind × Nat) := [(.ZLK_STAT, 0), (.ZLK_TBERR, 0)]

/-- The registers in which a member keeps what a header tells. -/
def headerRegs : List (RegKind × Nat) := [(.ZLK_STAT, 0), (.ZLK_ALIVE, 0), (.ZLK_LOCKMASK, 0), (.ZLK_TBERR, 0)]

/-- Steering of the timebase leaves alone what the ring carries (R73, R74). -/
theorem Dev.ringStep_steer (d : Dev) (ring : Bool) (hdr : RingHdr) (at64 : Nat) :
    d.ringStep (d.steer ring hdr at64) steerRegs [ZLK_STAT_MASTERID] := by
  unfold Dev.steer
  extract_lets ofs asym res d1 big d2 n d3
  have h1 : d.ringStep d1 steerRegs [ZLK_STAT_MASTERID] := (Dev.ringStep.refl d).wf _ _ (by decide) (by decide)
  have h2 : d.ringStep d2 steerRegs [ZLK_STAT_MASTERID] :=
    .ite ((h1.tbAdd64 _).wf _ _ (by decide) (by decide)) (h1.tbAdd64 _)
  have h3 : d.ringStep d3 steerRegs [ZLK_STAT_MASTERID] := h2.setZ _ fun _ => rfl
  have h4 : d.ringStep (d2.setZ (fun z => { z with lockRun := 0 })) steerRegs [ZLK_STAT_MASTERID] := h2.setZ _ fun _ => rfl
  exact .ite (.ite (h3.wf _ _ (by decide) (by decide)) h3) (h4.wf _ _ (by decide) (by decide))

/-! What a valid header says to a device, in the order in which it takes it -/

section

variable (d : Dev) (ring own active : Bool) (hdr : RingHdr) (chars : List Nat) (at64 run fault : Nat)

/-- The input counts one more valid header, and is valid where it has not been lost or is back (R68). -/
def Dev.inputHeard : Dev :=
  let r := d.ringIn ring
  let back := !r.lost || decide (64 ≤ r.run + 1)
  let e := d.setRingIn ring { r with run := r.run + 1, lastNow := d.now, lost := !back }
  if back then (e.wf (inputOk ring) 0 1).setZ (fun z => { z with bothLost := false }) else e

/-- A fault that another device's header shows is kept (R72). -/
def Dev.faultNoted : Dev := if fault ≠ 0 ∧ own = false then d.setZ (fun z => { z with errCode := fault }) else d

/-- A device that does not originate sends the superframe on (R66). -/
def Dev.passedOn : Dev :=
  if d.zlk.originating then d else d.repeatOut ring (d.repeated chars) chars (d.devTime at64)

/-- The originator measures the loop (R64). -/
def Dev.loopMeasured : Dev :=
  if own then
    let lat := at64 / 64 - (rebuildTb (at64 / 64) hdr.tb).toNat
    if ring then d.wf ZLK_LOOPLAT_REV 0 lat else d.wf ZLK_LOOPLAT_PRI 0 lat
  else d

/-- The masks of the active ring, the hops of ring 0 and the ID of the master. -/
def Dev.headerShown : Dev :=
  let e := if ring = active then (d.wf ZLK_ALIVE_MASK 0 hdr.alive).wf ZLK_LOCKMASK_MASK 0 hdr.lockmask else d
  let e := if ring = false then e.wf ZLK_STAT_HOP 0 (if own then 0 else (hdr.hops + 1) % 32) else e
  if e.zlk.originating then e else e.wf ZLK_STAT_MASTERID 0 hdr.mid

/-- Timebase, phase, position and local difference of a member (R73, R82). -/
def Dev.headerFollowed : Dev :=
  let follows := !d.zlk.originating && (decide (d.zrole = 2) || decide (d.zrole = 4))
  let e := if follows && decide (ring = active) && decide (hdr.phase = 2) && (decide (d.zrole = 2) || d.zlk.started) then
    d.steer ring hdr at64 else d
  let e := if follows && decide (ring = active) then
    (e.setZ (fun z => { z with rpos := hdr.pos })).wf ZLK_STAT_PHASE 0 hdr.phase else e
  if follows && e.on ZLK_ISLAND_MODE 0 && e.on ZLK_STAT_LOCKED 0 then
    e.setZ (fun z => { z with
      diff := some (diffQ (sx 64 hdr.pos) ((e.getEnc (e.rf ZLK_ISLAND_ENC 0)).pExt (at64 / 64))) })
  else e

/-- The automatic return to ring 0 (R80). -/
def Dev.ringReturned : Dev :=
  if ring = false ∧ d.zrole = 2 ∧ d.on ZLK_STAT_ACTIVE 0 = true ∧ d.on ZLK_CTRL_AUTOREV 0 = true ∧ 1024 ≤ run then
    let e := d.wf ZLK_STAT_ACTIVE 0 0
    e.post .edge 0x030 e.zstat
  else d

theorem Dev.headerTaken_eq : d.headerTaken ring hdr chars at64 =
    (let d1 := d.inputHeard ring
    let own := d1.zlk.originating && decide (hdr.mid = d1.rf ZLK_CTRL_ID 0)
    let fault := d1.startFault own hdr
    let d2 := ((d1.faultNoted own fault).passedOn ring chars at64).loopMeasured ring own hdr at64
    let active := d2.on ZLK_STAT_ACTIVE 0
    let d3 := ((d2.headerShown ring own active hdr).headerFollowed ring active hdr at64).ringReturned ring
      ((d.ringIn ring).run + 1)
    if d3.startRuns then d3.electAt ring hdr fault else d3) := rfl

/-- The fields of ZLK.STAT that decide how a member takes a header. -/
def memberFields : List Fld := [ZLK_STAT_LOCKED, ZLK_STAT_ACTIVE, ZLK_STAT_ROLE]

theorem Dev.ringStep_inputHeard : d.ringStep (d.inputHeard ring) [(.ZLK_STAT, 0)] memberFields := by
  unfold Dev.inputHeard
  extract_lets r back e
  have he : d.ringStep e [(.ZLK_STAT, 0)] memberFields := (Dev.ringStep.refl d).setRingIn _ _
  have hok := he.wf (inputOk ring) 1 (by cases ring <;> decide) (by cases ring <;> decide)
  exact .ite (hok.setZ _ fun _ => rfl) he

/-- The bits with which a device without an error code of its own sends a header on. -/
def Dev.repeatedHdr : List Nat := repeatHdr chars d.zbit (if d.on ZLK_STAT_LOCKED 0 then d.zbit else 0) 0

/-- A member sends the header on; its registers, and whether it originates or a start runs, stay. -/
theorem Dev.passedOn_member (horig : d.zlk.originating = false) (herr : d.zlk.errCode = 0) :
    (∃ slots, (d.passedOn ring chars at64).ringOut ring = d.repeatedHdr chars ++ slots) ∧
      (d.passedOn ring chars at64).regs = d.regs ∧ (d.passedOn ring chars at64).zlk.originating = d.zlk.originating ∧
      (d.passedOn ring chars at64).startRuns = d.startRuns := by
  have hbits : d.repeated chars = d.repeatedHdr chars := by simp [Dev.repeated, Dev.repeatedHdr, herr]
  rw [Dev.passedOn, if_neg (by simp [horig]), hbits]
  refine ⟨d.repeatOut_ringOut ring _ chars _, rfl, ?_⟩
  cases ring <;> exact ⟨rfl, rfl⟩

/-- What a member has done with a valid header once it has sent it on. -/
theorem Dev.headerPassed_member (horig : d.zlk.originating = false) (herr : d.zlk.errCode = 0) :
    let e := (d.inputHeard ring).passedOn ring chars at64
    (∃ slots, e.ringOut ring = d.repeatedHdr chars ++ slots) ∧ d.onlyRegs e [(.ZLK_STAT, 0)] ∧
      (∀ f ∈ memberFields, e.rf f 0 = d.rf f 0) ∧ e.zlk.originating = false ∧ e.startRuns = d.startRuns := by
  intro e
  have h := d.ringStep_inputHeard ring
  have horig' := (Dev.originating_of_passing h.passing).trans horig
  obtain ⟨⟨slots, hout⟩, hregs, hsame, hstart⟩ :=
    (d.inputHeard ring).passedOn_member ring chars at64 horig' ((Dev.errCode_of_passing h.passing).trans herr)
  have hlocked : (d.inputHeard ring).on ZLK_STAT_LOCKED 0 = d.on ZLK_STAT_LOCKED 0 := by
    rw [Dev.on, h.kept _ (by decide), Dev.on]
  have hbits : (d.inputHeard ring).repeatedHdr chars = d.repeatedHdr chars := by
    rw [Dev.repeatedHdr, Dev.repeatedHdr, hlocked, Dev.zbit, h.regs.rf (by decide) (by decide), Dev.zbit]
  exact ⟨⟨slots, hbits ▸ hout⟩, h.regs.trans (Dev.onlyRegs_of_regs hregs),
    fun f hf => (congrArg (fieldOf · f 0) hregs).trans (h.kept f hf), hsame.trans horig',
    hstart.trans (Dev.startRuns_of_passing h.passing)⟩

/-- What a member shows of a header that is not its own: the ID of the master, and the masks of its active ring. -/
theorem Dev.headerShown_member (horig : d.zlk.originating = false) :
    d.ringStep (d.headerShown ring false active hdr) [(.ZLK_STAT, 0), (.ZLK_ALIVE, 0), (.ZLK_LOCKMASK, 0)] [ZLK_STAT_ROLE] ∧
      (d.headerShown ring false active hdr).rf ZLK_STAT_MASTERID 0 = hdr.mid % 32 ∧
      (ring = active → (d.headerShown ring false active hdr).rf ZLK_ALIVE_MASK 0 = hdr.alive % 2 ^ 32 ∧
        (d.headerShown ring false active hdr).rf ZLK_LOCKMASK_MASK 0 = hdr.lockmask % 2 ^ 32) := by
  unfold Dev.headerShown
  extract_lets e e'
  have he : d.ringStep e [(.ZLK_STAT, 0), (.ZLK_ALIVE, 0), (.ZLK_LOCKMASK, 0)] [ZLK_STAT_ROLE] :=
    .ite (((Dev.ringStep.refl d).wf _ _ (by decide) (by decide)).wf _ _ (by decide) (by decide)) (.refl d)
  have hhop : e.ringStep e' [(.ZLK_STAT, 0)] [ZLK_STAT_ROLE] :=
    .ite ((Dev.ringStep.refl e).wf _ _ (by decide) (by decide)) (.refl e)
  have horig' : e'.zlk.originating = false := (Dev.originating_of_passing (hhop.passing.trans he.passing)).trans horig
  have he' := hhop.wf ZLK_STAT_MASTERID hdr.mid (by decide) (by decide)
  rw [if_neg (by rw [horig']; simp)]
  refine ⟨he.trans (he'.mono (by simp) (by simp)), Dev.rf_wf_self _ _ _ _ (by decide), fun hact => ?_⟩
  rw [he'.regs.rf (by decide) (by decide), he'.regs.rf (by decide) (by decide),
    show e = (d.wf ZLK_ALIVE_MASK 0 hdr.alive).wf ZLK_LOCKMASK_MASK 0 hdr.lockmask from if_pos hact]
  exact ⟨(Dev.rf_wf_apart _ (by decide) (by decide) _ _ _ (by decide)).trans (Dev.rf_wf_self _ _ _ _ (by decide)),
    Dev.rf_wf_self _ _ _ _ (by decide)⟩

/-- A member follows its active ring: the registers of the timebase, not the master's ID, and its position. -/
theorem Dev.headerFollowed_member (horig : d.zlk.originating = false) :
    d.ringStep (d.headerFollowed ring active hdr at64) steerRegs [ZLK_STAT_MASTERID] ∧
      (ring = active → d.zrole = 2 → (d.headerFollowed ring active hdr at64).zlk.rpos = hdr.pos) := by
  unfold Dev.headerFollowed
  extract_lets follows e e'
  have he : d.ringStep e steerRegs [ZLK_STAT_MASTERID] := .ite (d.ringStep_steer ring hdr at64) (.refl d)
  have hpos : d.ringStep (e.setZ (fun z => { z with rpos := hdr.pos })) steerRegs [ZLK_STAT_MASTERID] := he.setZ _ fun _ => rfl
  have he' : d.ringStep e' steerRegs [ZLK_STAT_MASTERID] := .ite (hpos.wf _ _ (by decide) (by decide)) he
  refine ⟨.ite (he'.setZ _ fun _ => rfl) he', fun hact hrole => ?_⟩
  have hrpos : e'.zlk.rpos = hdr.pos := by
    rw [show e' = _ from if_pos (by simp [follows, horig, hrole, hact])]
    rfl
  split
  · exact hrpos
  · exact hrpos

theorem Dev.ringStep_ringReturned : d.ringStep (d.ringReturned ring run) steerRegs [ZLK_STAT_MASTERID] :=
  .ite (((Dev.ringStep.refl d).wf _ _ (by decide) (by decide)).post _ _ _) (.refl d)

theorem Dev.ringReturned_zlk : (d.ringReturned ring run).zlk = d.zlk := by
  unfold Dev.ringReturned
  split
  · simp
  · rfl

/-- What a header that is not its own tells a member: the ID of the master, the masks and the position of its active ring. -/
theorem Dev.headerTold_member (horig : d.zlk.originating = false) :
    let e := ((d.headerShown ring false active hdr).headerFollowed ring active hdr at64).ringReturned ring run
    d.ringStep e headerRegs [] ∧ e.rf ZLK_STAT_MASTERID 0 = hdr.mid % 32 ∧
      (ring = active → e.rf ZLK_ALIVE_MASK 0 = hdr.alive % 2 ^ 32 ∧ e.rf ZLK_LOCKMASK_MASK 0 = hdr.lockmask % 2 ^ 32) ∧
      (ring = active → d.zrole = 2 → e.zlk.rpos = hdr.pos) := by
  intro e
  obtain ⟨hshown, hid, hmasks⟩ := d.headerShown_member ring active hdr horig
  obtain ⟨hfollowed, hpos⟩ := (d.headerShown ring false active hdr).headerFollowed_member ring active hdr at64
    ((Dev.originating_of_passing hshown.passing).trans horig)
  have hlater := hfollowed.trans (Dev.ringStep_ringReturned _ ring run)
  refine ⟨(hshown.mono (by decide) (by simp)).trans (hlater.mono (by decide) (by simp)), (hlater.kept _ (by decide)).trans hid,
    fun hact => ?_, fun hact hrole => ?_⟩
  · rw [hlater.regs.rf (by decide) (by decide), hlater.regs.rf (by decide) (by decide)]
    exact hmasks hact
  · rw [Dev.ringReturned_zlk]
    exact hpos hact ((hshown.kept ZLK_STAT_ROLE (by decide)).trans hrole)

end

/-- What a good header does at a member that runs no start and has no error code of its own (R66, R68, R70). -/
structure Dev.headerHeard (d e : Dev) (ring : Bool) (hdr : RingHdr) (chars : List Nat) : Prop where
  regs : d.onlyRegs e headerRegs
  repeated : ∃ slots, e.ringOut ring = d.repeatedHdr chars ++ slots
  masterId : e.rf ZLK_STAT_MASTERID 0 = hdr.mid % 32
  masks : ring = d.on ZLK_STAT_ACTIVE 0 →
    e.rf ZLK_ALIVE_MASK 0 = hdr.alive % 2 ^ 32 ∧ e.rf ZLK_LOCKMASK_MASK 0 = hdr.lockmask % 2 ^ 32
  position : ring = d.on ZLK_STAT_ACTIVE 0 → d.zrole = 2 → e.zlk.rpos = hdr.pos

theorem Dev.headerTaken_heard (d : Dev) (ring : Bool) (hdr : RingHdr) (chars : List Nat) (at64 : Nat)
    (horig : d.zlk.originating = false) (hstart : d.startRuns = false) (herr : d.zlk.errCode = 0) :
    d.headerHeard (d.headerTaken ring hdr chars at64) ring hdr chars := by
  obtain ⟨⟨slots, hout⟩, hregs, hfields, horig2, hstart2⟩ := d.headerPassed_member ring chars at64 horig herr
  have h1 := (d.ringStep_inputHeard ring).passing
  have horig1 := (Dev.originating_of_passing h1).trans horig
  have hfault : (d.inputHeard ring).startFault false hdr = 0 := if_pos ((Dev.startRuns_of_passing h1).trans hstart)
  have hnoted : (d.inputHeard ring).faultNoted false 0 = d.inputHeard ring := if_neg (by simp)
  have hloop (e : Dev) : e.loopMeasured ring false hdr at64 = e := rfl
  rw [Dev.headerTaken_eq]
  simp only [horig1, Bool.false_and, hfault, hnoted, hloop]
  generalize (d.inputHeard ring).passedOn ring chars at64 = e at hout hregs hfields horig2 hstart2 ⊢
  rw [show e.on ZLK_STAT_ACTIVE 0 = d.on ZLK_STAT_ACTIVE 0 by rw [Dev.on, hfields _ (by decide), Dev.on]]
  obtain ⟨htold, hid, hmasks, hpos⟩ :=
    e.headerTold_member ring (d.on ZLK_STAT_ACTIVE 0) hdr at64 ((d.ringIn ring).run + 1) horig2
  rw [if_neg (by rw [Dev.startRuns_of_passing htold.passing, hstart2, hstart]; simp)]
  exact ⟨(hregs.mono (by simp [headerRegs])).trans htold.regs,
    ⟨slots, (Dev.ringOut_of_passing htold.passing ring).trans hout⟩, hid, hmasks, fun hact hrole => hpos hact ((hfields ZLK_STAT_ROLE (by decide)).trans hrole)⟩

end Sys2Proof.Machine
end

section
/-! SUPPORT. Superframes sent and received: the rows of R65 and R66. -/

namespace Sys2Proof.Machine

/-- The row of an originator at its due instant. -/
theorem exec_zlkSuperframeSend {s : State} (hlive : s.dev.live 4 = true) (hen : s.dev.on ZLK_CTRL_EN 0 = true)
    (horig : s.dev.zlk.originating = true) (hdue : s.dev.superframeDue = true) :
    exec .zlkSuperframeSend s = .next { s with dev := s.dev.superframe } := by
  have hnow : s.dev.superframeNow = s.dev.superframe := if_pos ⟨hen, horig, hdue⟩
  rw [← hnow]
  exact State.devWithin_live hlive

/-- The row of a superframe that arrives while PD_TIM runs. -/
theorem exec_zlkHeaderReceive {s : State} (ring : Bool) (chars : List Nat) (at64 : Nat) (hlive : s.dev.live 4 = true) :
    exec (.zlkHeaderReceive ring chars at64) s = .next { s with dev := s.dev.headerReceive ring chars at64 } := by
  have hrun : exec (.zlkHeaderReceive ring chars at64) s = .next (s.onDev (fun d =>
      if d.live 4 then d.headerReceive ring chars at64 else d.crownRepeat ring chars at64)) := rfl
  rw [hrun, State.onDev, if_pos hlive]

section

variable {d : Dev} (ring : Bool) {chars : List Nat} (at64 : Nat) (hen : d.on ZLK_CTRL_EN 0 = true)
include hen

theorem Dev.headerReceive_bad (h : hdrOf chars = none) :
    d.headerReceive ring chars at64 = (d.superframeIn ring chars at64).headerBad ring chars at64 := by
  rw [Dev.headerReceive, if_neg (by simp [hen])]
  dsimp only
  rw [h]

theorem Dev.headerReceive_good {hdr : RingHdr} (h : hdrOf chars = some hdr) :
    d.headerReceive ring chars at64 = (d.superframeIn ring chars at64).headerTaken ring hdr chars at64 := by
  rw [Dev.headerReceive, if_neg (by simp [hen])]
  dsimp only
  rw [h]

end

/-- What an originator's superframe carries (R65, R67, R76). -/
theorem Dev.superframe_leaves (d : Dev) (h : d.zlk.abortCode = 0) :
    d.onlyRegs d.superframe [(.ZLK_STAT, 0)] ∧
      (∃ slots, slots.length = 224 ∧
        ∀ ring, d.superframe.ringOut ring = (d.headerNow (d.rf ZLK_STAT_ERR 0) (b2n ring)).chars ++ slots) ∧
      d.superframe.zlk.sfn = (d.zlk.sfn + 1) % 256 ∧
      (d.rf ZLK_STAT_PHASE 0 = 2 → d.zlk.rejoin = false → d.zlk.startPend = false → d.on ZLK_CTRL_TRACK 0 = false →
        d.superframe.zlk.plan = planOf (d.zlk.txLines ++ d.zlk.txMsgs)) := by
  obtain ⟨f, msgs, hf, hsends, hmsgs⟩ := d.superframe_sends h
  obtain ⟨hsfn, hlines⟩ := hf d.zlk
  have hhdr (dir : Nat) : (d.setZ f).headerNow (d.rf ZLK_STAT_ERR 0) dir = d.headerNow (d.rf ZLK_STAT_ERR 0) dir := by
    simp only [Dev.headerNow, Dev.setZ_rf, Dev.setZ_on, Dev.setZ_zlk, Dev.setZ_t, Dev.setZ_getEnc, hsfn, Dev.zbit]
  have hregs : d.onlyRegs ((d.setZ f).superframeOut (d.rf ZLK_STAT_ERR 0) msgs) [(.ZLK_STAT, 0)] :=
    Dev.onlyRegs_of_regs (Dev.superframeOut_regs ..)
  obtain ⟨slots, hlen, hout⟩ := (d.setZ f).superframeOut_ringOut (d.rf ZLK_STAT_ERR 0) msgs
  have hnum := (d.setZ f).superframeOut_sfn (d.rf ZLK_STAT_ERR 0) msgs
  have hplan := (d.setZ f).superframeOut_plan (d.rf ZLK_STAT_ERR 0) msgs
  rw [Dev.setZ_zlk, hsfn] at hnum
  rw [Dev.setZ_zlk, hlines] at hplan
  generalize (d.setZ f).superframeOut (d.rf ZLK_STAT_ERR 0) msgs = e at *
  have hleaves : d.onlyRegs d.superframe [(.ZLK_STAT, 0)] ∧ d.superframe.zlk = e.zlk := by
    obtain h | h := hsends
    · rw [h]
      exact ⟨hregs, rfl⟩
    · rw [h]
      exact ⟨hregs.trans (Dev.onlyRegs_wf _ _ _ (by decide) (by decide)), Dev.wf_zlk ..⟩
  obtain ⟨hregs', hzlk⟩ := hleaves
  refine ⟨hregs', ⟨slots, hlen, fun ring => ?_⟩, by rw [hzlk, hnum], fun hphase hrejoin hpend htrack => ?_⟩
  · rw [← hhdr, ← hout ring, Dev.ringOut, Dev.ringOut, hzlk]
  · rw [hzlk, hplan, hmsgs hphase hrejoin hpend htrack]

/-- What a superframe with a wrong header CRC leaves (R66). -/
theorem Dev.headerReceive_bad_leaves {d : Dev} (ring : Bool) {chars : List Nat} (at64 : Nat) (hen : d.on ZLK_CTRL_EN 0 = true)
    (h : hdrOf chars = none) :
    let e := d.headerReceive ring chars at64
    d.onlyRegs e [(.ZLK_ERRCNT, 0)] ∧ d.counts e ZLK_ERRCNT_HDR 0 1 ∧ d.counts e ZLK_ERRCNT_SLOT 0 (slotsIgnored chars) ∧
      (d.zlk.originating = false → ∃ slots, e.ringOut ring = invertCrc chars ++ slots) ∧
      (d.zlk.originating = true → ∀ r, e.ringOut r = d.ringOut r) := by
  rw [Dev.headerReceive_bad ring at64 hen h]
  intro e
  have hin := d.superframeIn_passing ring chars at64
  have horig := Dev.originating_of_passing hin
  have hregs : e.regs = ((d.superframeIn ring chars at64).inc ZLK_ERRCNT_HDR 0 1).regs := Dev.headerBad_regs ..
  have hfield (f : Fld) : e.rf f 0 = ((d.superframeIn ring chars at64).inc ZLK_ERRCNT_HDR 0 1).rf f 0 :=
    congrArg (fieldOf · f 0) hregs
  refine ⟨?_, ?_, ?_, fun ho => ?_, fun ho r => ?_⟩
  · exact ((d.onlyRegs_superframeIn ring chars at64).trans
      (Dev.onlyRegs_inc _ ZLK_ERRCNT_HDR 1 (by decide) (by decide))).trans (Dev.onlyRegs_of_regs hregs)
  · rw [Dev.counts, hfield, Dev.rf_inc_self _ _ _ _ (by decide), Dev.superframeIn_hdr]
  · rw [Dev.counts, hfield, Dev.rf_inc_apart _ (by decide) (by decide) _ _ _ (by decide)]
    exact d.superframeIn_counts ring chars at64
  · exact Dev.headerBad_repeated _ ring chars at64 (horig.trans ho)
  · exact (Dev.headerBad_originator _ ring chars at64 (horig.trans ho) r).trans (Dev.ringOut_of_passing hin r)

/-- What a good superframe leaves at a member that runs no start and has no error code of its own (R66 to R70). -/
theorem Dev.headerReceive_good_leaves {d : Dev} (ring : Bool) {chars : List Nat} (at64 : Nat) {hdr : RingHdr}
    (hen : d.on ZLK_CTRL_EN 0 = true) (h : hdrOf chars = some hdr) (horig : d.zlk.originating = false)
    (hstart : d.startRuns = false) (herr : d.zlk.errCode = 0) :
    let e := d.headerReceive ring chars at64
    d.onlyRegs e (headerRegs ++ [(.ZLK_ERRCNT, 0)]) ∧ (∃ slots, e.ringOut ring = d.repeatedHdr chars ++ slots) ∧
      d.counts e ZLK_ERRCNT_SLOT 0 (slotsIgnored chars) ∧ e.rf ZLK_ERRCNT_HDR 0 = d.rf ZLK_ERRCNT_HDR 0 ∧
      e.rf ZLK_STAT_MASTERID 0 = hdr.mid % 32 ∧
      (ring = d.on ZLK_STAT_ACTIVE 0 →
        e.rf ZLK_ALIVE_MASK 0 = hdr.alive % 2 ^ 32 ∧ e.rf ZLK_LOCKMASK_MASK 0 = hdr.lockmask % 2 ^ 32) ∧
      (ring = d.on ZLK_STAT_ACTIVE 0 → d.zrole = 2 → e.zlk.rpos = hdr.pos) := by
  rw [Dev.headerReceive_good ring at64 hen h]
  have hin := d.superframeIn_passing ring chars at64
  have hregs := d.onlyRegs_superframeIn ring chars at64
  have hslot := d.superframeIn_counts ring chars at64
  have hhdr := d.superframeIn_hdr ring chars at64
  generalize d.superframeIn ring chars at64 = b at hin hregs hslot hhdr ⊢
  have hheard := b.headerTaken_heard ring hdr chars at64 ((Dev.originating_of_passing hin).trans horig)
    ((Dev.startRuns_of_passing hin).trans hstart) ((Dev.errCode_of_passing hin).trans herr)
  generalize b.headerTaken ring hdr chars at64 = e at hheard ⊢
  obtain ⟨hleft, hout, hid, hmasks, hpos⟩ := hheard
  have hbits : b.repeatedHdr chars = d.repeatedHdr chars := by
    rw [Dev.repeatedHdr, Dev.repeatedHdr, hregs.on (by decide) (by decide), Dev.zbit, hregs.rf (by decide) (by decide), Dev.zbit]
  rw [hregs.on (by decide) (by decide), Dev.zrole, hregs.rf (by decide) (by decide)] at hpos
  rw [hregs.on (by decide) (by decide)] at hmasks
  refine ⟨(hregs.mono (by simp)).trans (hleft.mono (by simp)), hbits ▸ hout, ?_, ?_, hid, hmasks, hpos⟩
  · rw [Dev.counts, hleft.rf (by decide) (by decide)]
    exact hslot
  · rw [hleft.rf (by decide) (by decide), hhdr]

/-- The header that a member sends on: one more hop, its own bits, and the rest as it came (R66). -/
theorem Dev.hdrOf_repeatedHdr (d : Dev) {chars : List Nat} {hdr : RingHdr} (h : hdrOf chars = some hdr) (rest : List Nat) :
    hdrOf (d.repeatedHdr chars ++ rest) = some { hdr with
      hops := (hdr.hops + 1) % 256, alive := Nat.lor hdr.alive d.zbit
      lockmask := if d.on ZLK_STAT_LOCKED 0 then Nat.lor hdr.lockmask d.zbit else hdr.lockmask } := by
  unfold Dev.repeatedHdr
  cases d.on ZLK_STAT_LOCKED 0 with
  | true => exact hdrOf_repeatHdr h d.zbit_lt d.zbit_lt rest
  | false =>
    have hlock : Nat.lor hdr.lockmask 0 = hdr.lockmask := Nat.or_zero _
    have hrep := hdrOf_repeatHdr h d.zbit_lt (show 0 < 2 ^ 32 by decide) rest
    rwa [hlock] at hrep

/-- Settles O17: characters are read back field by field; an originator sends its header and plan, and a member sends a header
on as `repeatHdr` makes it. -/
theorem ringHeaders : Obligations.RingHeaders := by
  refine ⟨⟨fun h rest hdir hphase hrank hmid hhops hsfn htb hpos halive hlock herrf => ⟨h.length_chars,
      hdrOf_chars ⟨hdir, hphase, hrank, hmid, hhops, hsfn, htb, hpos, halive, hlock, herrf⟩ rest⟩,
    fun _ _ _ _ => msgOf_line, fun _ _ _ => msgOf_echo, fun _ _ _ => msgOf_echoReply, fun _ _ _ => msgOf_offset,
    fun _ _ => msgOf_start⟩, fun s hlive hen => ⟨fun horig hdue habort => ?_, fun ring chars at64 hbad => ?_,
      fun ring chars at64 hdr hgood horig hstart herr => ?_⟩⟩
  · obtain ⟨hregs, ⟨slots, hlen, hout⟩, hsfn, hplan⟩ := s.dev.superframe_leaves habort
    refine ⟨_, exec_zlkSuperframeSend hlive hen horig hdue, ⟨⟨rfl, rfl⟩, hregs⟩, fun ring => ?_, ?_, ?_, hsfn, hplan⟩
    · refine ⟨s.dev.headerSent (s.dev.rf ZLK_STAT_ERR 0) (b2n ring), ?_, rfl, rfl, rfl, rfl, rfl, rfl, rfl, rfl, rfl,
        fun hpos => if_neg (by simp [hpos])⟩
      exact (congrArg hdrOf (hout ring)).trans
        (s.dev.hdrOf_headerNow (by cases ring <;> decide) (s.dev.rf_lt ZLK_STAT_ERR 0) slots)
    · rw [show s.dev.superframe.zlk.out0 = _ from hout false, List.length_append, RingHdr.length_chars, hlen]
    · rw [show s.dev.superframe.zlk.out0 = _ from hout false, show s.dev.superframe.zlk.out1 = _ from hout true,
        List.drop_left' (RingHdr.length_chars _), List.drop_left' (RingHdr.length_chars _)]
  · obtain ⟨hregs, hhdr, hslot, hmember, horiginator⟩ := Dev.headerReceive_bad_leaves ring at64 hen hbad
    exact ⟨_, exec_zlkHeaderReceive ring chars at64 hlive, ⟨⟨rfl, rfl⟩, hregs⟩, hhdr, hslot, hmember,
      fun ho => funext (horiginator ho)⟩
  · obtain ⟨hregs, ⟨slots, hout⟩, hslot, hhdr, hid, hmasks, hpos⟩ :=
      Dev.headerReceive_good_leaves ring at64 hen hgood horig hstart herr
    obtain ⟨hmid, halive, hlock⟩ := hdrOf_fits hgood
    refine ⟨_, exec_zlkHeaderReceive ring chars at64 hlive, ⟨⟨rfl, rfl⟩, hregs⟩, ?_, hslot, hhdr, ?_, fun hact => ?_, hpos⟩
    · exact (congrArg hdrOf hout).trans (s.dev.hdrOf_repeatedHdr hgood slots)
    · rw [hid, Nat.mod_eq_of_lt hmid]
    · obtain ⟨ha, hl⟩ := hmasks hact
      exact ⟨ha.trans (Nat.mod_eq_of_lt halive), hl.trans (Nat.mod_eq_of_lt hlock)⟩

end Sys2Proof.Machine
end

section
/-! SUPPORT. What leaves the heads alone, and what a strobe that begins or ends leaves. -/

namespace Sys2Proof.Machine

/-! What leaves the heads and their triggers alone -/

/-- Nothing of the heads' ports and triggers and of the power state changes, and of the registers those of the list alone. -/
structure Dev.sparesHeads (d e : Dev) (l : List (RegKind × Nat)) : Prop where
  regs : d.onlyRegs e l
  ltg : e.ltg = d.ltg
  hcp : e.hcp = d.hcp
  pwr : e.pwr = d.pwr

section

variable {d e e' : Dev} {l : List (RegKind × Nat)}

theorem Dev.sparesHeads_of_regs (hregs : e.regs = d.regs) (hltg : e.ltg = d.ltg) (hhcp : e.hcp = d.hcp)
    (hpwr : e.pwr = d.pwr) : d.sparesHeads e l := ⟨Dev.onlyRegs_of_regs hregs, hltg, hhcp, hpwr⟩

theorem Dev.sparesHeads.trans (h : d.sparesHeads e l) (h' : e.sparesHeads e' l) : d.sparesHeads e' l :=
  ⟨h.regs.trans h'.regs, h'.ltg.trans h.ltg, h'.hcp.trans h.hcp, h'.pwr.trans h.pwr⟩

theorem Dev.sparesHeads.getHcp (h : d.sparesHeads e l) (g : Nat) : e.getHcp g = d.getHcp g := by
  rw [Dev.getHcp, h.hcp, Dev.getHcp]

theorem Dev.sparesHeads.getLtg (h : d.sparesHeads e l) (g : Nat) : e.getLtg g = d.getLtg g := by
  rw [Dev.getLtg, h.ltg, Dev.getLtg]

theorem Dev.sparesHeads_foldl {α : Type} (d : Dev) (f : Dev → α → Dev) (xs : List α)
    (h : ∀ (e : Dev) x, e.sparesHeads (f e x) l) : d.sparesHeads (xs.foldl f d) l :=
  foldl_keeps (fun e => d.sparesHeads e l) f xs d (Dev.sparesHeads_of_regs rfl rfl rfl rfl) fun e x _ he => he.trans (h e x)

theorem Dev.sparesHeads_wf (d : Dev) (f : Fld) {i : Nat} (n : Nat) (hi : i < 65536) :
    d.sparesHeads (d.wf f i n) [(f.kind, i)] := ⟨d.onlyRegs_wf f n hi (by simp), rfl, rfl, rfl⟩

theorem Dev.sparesHeads_inc (d : Dev) (f : Fld) {i : Nat} (n : Nat) (hi : i < 65536) :
    d.sparesHeads (d.inc f i n) [(f.kind, i)] := ⟨d.onlyRegs_inc f n hi (by simp), rfl, rfl, rfl⟩

theorem Dev.sparesHeads_setPcu (d : Dev) (f : Pcu → Pcu) : d.sparesHeads (d.setPcu f) l :=
  Dev.sparesHeads_of_regs rfl rfl rfl rfl

theorem Dev.sparesHeads_setAnx (d : Dev) (f : Anx → Anx) : d.sparesHeads (d.setAnx f) l :=
  Dev.sparesHeads_of_regs rfl rfl rfl rfl

/-- CONT mode shows by the settings and the power state, which stay. -/
theorem Dev.sparesHeads.contLed (h : d.sparesHeads e l) {g : Nat} (hg : g < 65536) (hctrl : (.HCP_CTRL, g) ∉ l)
    (harm : (.LTG_CTRL, g) ∉ l) : e.contLed g = d.contLed g := by
  unfold Dev.contLed
  rw [h.getHcp, h.pwr, h.regs.rf (f := HCP_CTRL_LEDMODE) hg hctrl, h.regs.on (f := HCP_CTRL_EN) hg hctrl,
    h.regs.on (f := LTG_CTRL_ARM) hg harm]

end

/-! A flag that is set on a condition -/

/-- The flag is set, if the condition holds. -/
def Dev.flagIf (d : Dev) (f : Fld) (i : Nat) (b : Bool) : Dev := if b then d.wf f i 1 else d

theorem Dev.sparesHeads_flagIf (d : Dev) (f : Fld) {i : Nat} (hi : i < 65536) (b : Bool) :
    d.sparesHeads (d.flagIf f i b) [(f.kind, i)] := by
  cases b
  · exact Dev.sparesHeads_of_regs rfl rfl rfl rfl
  · exact d.sparesHeads_wf f 1 hi

theorem Dev.flagIf_pcu (d : Dev) (f : Fld) (i : Nat) (b : Bool) : (d.flagIf f i b).pcu = d.pcu := by
  cases b
  · rfl
  · exact Dev.wf_pcu ..

theorem Dev.flagIf_on (d : Dev) {f : Fld} (i : Nat) (b : Bool) (hfit : f.lsb + f.width ≤ 32) (hw : 0 < f.width) :
    (d.flagIf f i b).on f i = (d.on f i || b) := by
  cases b
  · exact (Bool.or_false _).symm
  · exact (d.on_wf_one f i hfit hw).trans (Bool.or_true _).symm

theorem Dev.flagIf_on_apart (d : Dev) {f g : Fld} {i : Nat} (hi : i < 65536) (b : Bool) (h : f.apart g = true) :
    (d.flagIf f i b).on g i = d.on g i := by
  cases b
  · rfl
  · exact d.on_wf_apart hi hi f g 1 h

/-! LEDON -/

/-- LEDON after it has been shown: the strobe or CONT mode (R105). -/
theorem Dev.ledShow_shows (d : Dev) (h : Nat) :
    (d.ledShow h).on HCP_TSTAT_LEDON h = ((d.getHcp h).ledOn || d.contLed h) :=
  Dev.on_wf_b2n _ _ _ _ (by decide) (by decide)

theorem Dev.sparesHeads_ledShow (d : Dev) {h : Nat} (hh : h < 65536) : d.sparesHeads (d.ledShow h) [(.HCP_TSTAT, h)] :=
  d.sparesHeads_wf HCP_TSTAT_LEDON _ hh

/-- What a change of a head's port that shows LEDON again leaves. -/
theorem Dev.ledShow_setHcp_leaves (d : Dev) {h : Nat} (hh : h < 65536) (p : Hcp) :
    d.onlyRegs ((d.setHcp h p).ledShow h) [(.HCP_TSTAT, h)] ∧ ((d.setHcp h p).ledShow h).getHcp h = p ∧
      ((d.setHcp h p).ledShow h).on HCP_TSTAT_LEDON h = (p.ledOn || (d.setHcp h p).contLed h) ∧
      ((d.setHcp h p).ledShow h).on HCP_TSTAT_CLIP h = d.on HCP_TSTAT_CLIP h ∧
      ((d.setHcp h p).ledShow h).ltg = d.ltg ∧ ((d.setHcp h p).ledShow h).pcu = d.pcu := by
  have hshow := (d.setHcp h p).sparesHeads_ledShow hh
  refine ⟨(Dev.onlyRegs_of_regs rfl).trans hshow.regs, (hshow.getHcp h).trans (by simp), ?_, ?_, hshow.ltg, Dev.wf_pcu ..⟩
  · rw [Dev.ledShow_shows, Dev.getHcp_setHcp]
  · exact Dev.on_wf_apart _ hh hh HCP_TSTAT_LEDON HCP_TSTAT_CLIP _ (by decide)

/-- Of its own port CONT mode takes only whether a line has fired and whether it is dark. -/
theorem Dev.contLed_setHcp (d : Dev) (h : Nat) {p : Hcp} (hfired : p.firedSinceArm = (d.getHcp h).firedSinceArm)
    (hdark : p.dark = (d.getHcp h).dark) : (d.setHcp h p).contLed h = d.contLed h := by
  simp [Dev.contLed, hfired, hdark]

/-! A strobe begins and ends -/

section

variable {d : Dev} {h : Nat} {x : Strobe}

theorem Dev.strobeStart_early {rest : List Strobe} (hx : (d.getHcp h).strobes = x :: rest) (ht : d.t < x.start) :
    d.strobeStart h = d := by simp [Dev.strobeStart, hx, ht]

/-- A strobe at its instant on a port that is on: it takes the place of one still active, and CLIP tells that (R106). -/
theorem Dev.strobeStart_due {rest : List Strobe} (hx : (d.getHcp h).strobes = x :: rest) (ht : x.start ≤ d.t)
    (hen : d.on HCP_CTRL_EN h = true) : d.strobeStart h =
      ((d.flagIf HCP_TSTAT_CLIP h (d.getHcp h).ledOn).setHcp h
        { d.getHcp h with strobes := rest, led := some x, ledOn := true }).ledShow h := by
  simp [Dev.strobeStart, Dev.flagIf, hx, Nat.not_lt.mpr ht, hen]

theorem Dev.strobeEnd_due (hx : (d.getHcp h).led = some x) (hon : (d.getHcp h).ledOn = true) (ht : x.stop ≤ d.t) :
    d.strobeEnd h = (d.setHcp h { d.getHcp h with ledOn := false }).ledShow h := by
  simp [Dev.strobeEnd, hx, hon, Nat.not_lt.mpr ht]

end

/-- Settles O15: a strobe that begins takes the place of the one still active, CLIP notes it, and the port alone changes. -/
theorem strobeStartsAndClips : Obligations.StrobeStartsAndClips := by
  intro s h x rest hh hlive hen hx
  have hh' : h < 65536 := by omega
  have hexec : exec (.strobeStart h) s = .next (s.onDev (fun d => d.strobeStart h)) := by
    show s.devWithin 4 _ = _
    exact State.devWithin_live hlive
  refine ⟨fun hearly => ?_, fun hdue => ⟨_, hexec, ?_⟩⟩
  · rw [hexec, State.onDev, Dev.strobeStart_early hx hearly]
  · simp only [State.onDev, Dev.strobeStart_due hx hdue hen]
    have hclip : s.dev.sparesHeads _ [(.HCP_TSTAT, h)] :=
      s.dev.sparesHeads_flagIf HCP_TSTAT_CLIP hh' (s.dev.getHcp h).ledOn
    have hclipped := s.dev.flagIf_on (f := HCP_TSTAT_CLIP) h (s.dev.getHcp h).ledOn (by decide) (by decide)
    have hpcu := s.dev.flagIf_pcu HCP_TSTAT_CLIP h (s.dev.getHcp h).ledOn
    generalize s.dev.flagIf HCP_TSTAT_CLIP h (s.dev.getHcp h).ledOn = e at hclip hclipped hpcu ⊢
    obtain ⟨hregs, hport, hled, hkept, hltg, hrest⟩ :=
      e.ledShow_setHcp_leaves hh' { s.dev.getHcp h with strobes := rest, led := some x, ledOn := true }
    exact ⟨⟨⟨rfl, rfl⟩, hclip.regs.trans hregs⟩, by rw [hport], by rw [hport], by rw [hport], by rw [hled, Bool.true_or],
      hkept.trans hclipped, hltg.trans hclip.ltg, hrest.trans hpcu⟩

end Sys2Proof.Machine
end

section
/-! SUPPORT. Line boundaries: what a line that fires and one that does not leave of a head, and that the units which the
boundary reaches leave it alone. -/

namespace Sys2Proof.Machine

/-! The units that a line boundary reaches -/

section

variable (d : Dev) {l : List (RegKind × Nat)}

theorem Dev.sparesHeads_scanLineFires (h num : Nat) : d.sparesHeads (d.scanLineFires h num) l := by
  unfold Dev.scanLineFires
  dsimp only
  split
  · exact Dev.sparesHeads_of_regs rfl rfl rfl rfl
  · exact Dev.sparesHeads_of_regs rfl rfl rfl rfl

theorem Dev.sparesHeads_cmpLineEnd (h : Nat) : d.sparesHeads (d.cmpLineEnd h) l :=
  d.sparesHeads_foldl _ _ fun e _ => e.sparesHeads_setAnx _

theorem Dev.sparesHeads_cacResets (src sel : Nat) : d.sparesHeads (d.cacResets src sel) l :=
  d.sparesHeads_foldl _ _ fun e _ => by
    unfold Dev.cacReset
    split
    · exact e.sparesHeads_setAnx _
    · exact Dev.sparesHeads_of_regs rfl rfl rfl rfl

theorem Dev.sparesHeads_mcvTrigger (src sel ts slack : Nat) : d.sparesHeads (d.mcvTrigger src sel ts slack) l :=
  d.sparesHeads_foldl _ _ fun e _ => by
    dsimp only
    split <;> exact Dev.sparesHeads_of_regs rfl rfl rfl rfl

/-- An edge of a source that no capture unit selects is not taken. -/
theorem Dev.captureEdge_none {src : Nat} (rising : Bool) (ts : Nat) (h : ∀ k, k < 32 → d.rf ENC_CAPCTRL_SRC k ≠ src) :
    d.captureEdge src rising ts = d := by
  have hno : (List.range 32).filter (fun k => decide (d.rf ENC_CAPCTRL_SRC k = src) && d.on ENC_CAPCTRL_EN k &&
      d.captureSel k rising) = [] :=
    List.filter_eq_nil_iff.mpr fun k hk => by simp [h k (List.mem_range.mp hk)]
  rw [Dev.captureEdge, hno, List.foldl_nil]

/-- The records of a fired line touch the line count of the group alone. -/
theorem Dev.sparesHeads_countFired {h : Nat} (hh : h < 24) : d.sparesHeads (d.countFired h) [(.CNV_MIT, groupOf h)] := by
  unfold Dev.countFired
  dsimp only
  split
  · exact (d.sparesHeads_setPcu _).trans (Dev.sparesHeads_inc _ CNV_MIT_LINES _ (by unfold groupOf; omega))
  · exact d.sparesHeads_setPcu _

theorem Dev.sparesHeads_tsyncTake (h n : Nat) : d.sparesHeads (d.tsyncTake h n) l := by
  induction n generalizing d with
  | zero => exact Dev.sparesHeads_of_regs rfl rfl rfl rfl
  | succ n ih =>
    unfold Dev.tsyncTake
    split
    · exact Dev.sparesHeads_of_regs rfl rfl rfl rfl
    · refine Dev.sparesHeads.trans ?_ (ih _)
      unfold Dev.tsyncEntry
      split <;> exact Dev.sparesHeads_of_regs rfl rfl rfl rfl

theorem Dev.sparesHeads_tsyncCatch : d.sparesHeads d.tsyncCatch l :=
  d.sparesHeads_foldl _ _ fun e x => by
    split
    · exact Dev.sparesHeads_of_regs rfl rfl rfl rfl
    · exact e.sparesHeads_tsyncTake _ _

theorem Dev.sparesHeads_putTarget (pct : Bool) (i v : Nat) : d.sparesHeads (d.putTarget pct i v) l :=
  Dev.sparesHeads_of_regs rfl rfl rfl rfl

theorem Dev.sparesHeads_enterTarget (w : TabWrite) : d.sparesHeads (d.enterTarget w) l := by
  unfold Dev.enterTarget
  dsimp only
  split
  · exact d.sparesHeads_tsyncCatch.trans (Dev.sparesHeads_putTarget _ _ _ _)
  · exact d.sparesHeads_tsyncCatch.trans (Dev.sparesHeads_foldl _ _ _ fun e _ => e.sparesHeads_putTarget _ _ _)

/-- The fetches of a line are given up in the tables alone. -/
theorem Dev.sparesHeads_fetchDrop (h line : Nat) : d.sparesHeads (d.fetchDrop h line) l :=
  d.sparesHeads_foldl _ _ fun e c => by
    split
    · unfold Dev.fetchEnd
      dsimp only
      refine Dev.sparesHeads.trans ?_ (Dev.sparesHeads_foldl _ _ _ fun e w => e.sparesHeads_enterTarget w)
      exact Dev.sparesHeads_of_regs rfl rfl rfl rfl
    · exact Dev.sparesHeads_of_regs rfl rfl rfl rfl

end

/-! A line fires -/

/-- The port of head `h` after the boundary of a line that runs its grid: grid, clock and HSP run from it (R91, R92). -/
def Dev.portRun (d : Dev) (h : Nat) (l : LineRec) (dark : Bool) : Hcp :=
  let first := gridOf l.snap (4 * h) 0 0
  let last := periods64 l.snap h (first + 64 * fieldOf l.snap AFE_HNPIX_NPIX h)
  { d.getHcp h with
    firedSinceArm := true, dark := dark, readFrom := l.s + periods64Up l.snap h first, readTo := l.s + last.1 / last.2
    gapFrom := l.s + gapLeadOf l.snap (d.scanOn h) h
    grid := some (l.s, l.num), hck := some (hckOf l.snap h l.s), hspFrom := hspStart l.snap h l.s
    hspUntil := hspEnd l.snap h l.s }

section

variable (e : Dev) {h : Nat} (l : LineRec) (dark : Bool)

/-- A boundary at a port that is on: the port runs from it, GRID is set, and LEDON is shown (R91, R105). -/
theorem Dev.headFires_on (hen : e.on HCP_CTRL_EN h = true) :
    e.headFires h l dark = ((e.setHcp h (e.portRun h l dark)).wf AFE_HSTAT_GRID h 1).ledShow h := by
  unfold Dev.headFires
  exact if_neg (by simp [hen])

theorem Dev.headFires_on_leaves (hh : h < 65536) (hen : e.on HCP_CTRL_EN h = true) :
    e.onlyRegs (e.headFires h l dark) [(.AFE_HSTAT, h), (.HCP_TSTAT, h)] ∧ (e.headFires h l dark).ltg = e.ltg ∧
      (e.headFires h l dark).getHcp h = e.portRun h l dark ∧ (e.headFires h l dark).on AFE_HSTAT_GRID h = true ∧
      (e.headFires h l dark).on HCP_TSTAT_LEDON h = ((e.getHcp h).ledOn || (e.headFires h l dark).contLed h) := by
  rw [e.headFires_on l dark hen]
  have hset : e.onlyRegs (e.setHcp h (e.portRun h l dark)) [(.AFE_HSTAT, h), (.HCP_TSTAT, h)] := Dev.onlyRegs_of_regs rfl
  have hport : (e.setHcp h (e.portRun h l dark)).getHcp h = e.portRun h l dark := Dev.getHcp_setHcp ..
  have hltg : (e.setHcp h (e.portRun h l dark)).ltg = e.ltg := rfl
  generalize e.setHcp h (e.portRun h l dark) = x at hset hport hltg ⊢
  have hgrid : x.sparesHeads (x.wf AFE_HSTAT_GRID h 1) [(.AFE_HSTAT, h)] := x.sparesHeads_wf AFE_HSTAT_GRID 1 hh
  have hshow := (x.wf AFE_HSTAT_GRID h 1).sparesHeads_ledShow hh
  refine ⟨hset.trans ((hgrid.regs.mono (by simp)).trans (hshow.regs.mono (by simp))), ?_, ?_, ?_, ?_⟩
  · exact hshow.ltg.trans (hgrid.ltg.trans hltg)
  · exact (hshow.getHcp h).trans ((hgrid.getHcp h).trans hport)
  · rw [hshow.regs.on (f := AFE_HSTAT_GRID) hh (by simp [AFE_HSTAT_GRID])]
    exact Dev.on_wf_one _ _ _ (by decide) (by decide)
  · rw [Dev.ledShow_shows, hshow.contLed hh (by simp) (by simp), hgrid.getHcp, hport]
    rfl

/-- A boundary at a port in park state moves neither its grid nor its clock. -/
theorem Dev.headFires_off_leaves (hen : e.on HCP_CTRL_EN h = false) : (e.headFires h l dark).regs = e.regs ∧
    (e.headFires h l dark).ltg = e.ltg ∧ ((e.headFires h l dark).getHcp h).grid = (e.getHcp h).grid ∧
    ((e.headFires h l dark).getHcp h).hck = (e.getHcp h).hck := by
  unfold Dev.headFires
  dsimp only
  rw [if_pos hen]
  exact ⟨rfl, rfl, by rw [Dev.getHcp_setHcp], by rw [Dev.getHcp_setHcp]⟩

end

/-- A boundary changes of the registers its port's status alone, whether the port is on or not. -/
theorem Dev.onlyRegs_headFires (e : Dev) {h : Nat} (hh : h < 65536) (l : LineRec) (dark : Bool) :
    e.onlyRegs (e.headFires h l dark) [(.AFE_HSTAT, h), (.HCP_TSTAT, h)] := by
  cases hen : e.on HCP_CTRL_EN h
  · exact Dev.onlyRegs_of_regs (e.headFires_off_leaves l dark hen).1
  · exact (e.headFires_on_leaves l dark hh hen).1

/-- The work on a line whose boundary has come: it is fired, and counts for a phase scan (R91, R111). -/
def Dev.workFires (d : Dev) (h : Nat) (l : LineRec) : Dev :=
  (d.updWork h l.num (fun w => { w with fired := true })).scanLineFires h l.num

/-- What a boundary sets off beyond its head: counts, LB pulses, captures, the ends of LINE holds, cell resets and converter
triggers. -/
def Dev.boundarySpreads (d : Dev) (h : Nat) (l : LineRec) : Dev :=
  (((((d.countFired h).lbPulse h).captureEdge (120 + h) true l.s).cmpLineEnd h).cacResets 1 h).mcvTrigger mcvLINE h l.s 0

theorem Dev.sparesHeads_workFires (d : Dev) (h : Nat) (l : LineRec) : d.sparesHeads (d.workFires h l) [] :=
  have hwork (f : LineWork → LineWork) : d.sparesHeads (d.updWork h l.num f) [] :=
    Dev.sparesHeads_of_regs rfl rfl rfl rfl
  (hwork _).trans (Dev.sparesHeads_scanLineFires _ _ _)

/-- A boundary that no capture unit takes leaves every head alone beyond its own. -/
theorem Dev.sparesHeads_boundarySpreads (d : Dev) {h : Nat} (hh : h < 24) (l : LineRec)
    (hcap : ∀ k, k < 32 → d.rf ENC_CAPCTRL_SRC k ≠ 120 + h) :
    d.sparesHeads (d.boundarySpreads h l) [(.CNV_MIT, groupOf h)] := by
  have hpulse (e : Dev) : e.sparesHeads (e.lbPulse h) [(.CNV_MIT, groupOf h)] := Dev.sparesHeads_of_regs rfl rfl rfl rfl
  have hcount := (d.sparesHeads_countFired hh).trans (hpulse _)
  unfold Dev.boundarySpreads
  rw [Dev.captureEdge_none _ _ _ fun k hk => ?_]
  · exact hcount.trans ((Dev.sparesHeads_cmpLineEnd _ h).trans
      ((Dev.sparesHeads_cacResets _ 1 h).trans (Dev.sparesHeads_mcvTrigger _ mcvLINE h l.s 0)))
  · rw [hcount.regs.rf (f := ENC_CAPCTRL_SRC) (by omega) (by simp [ENC_CAPCTRL_SRC])]
    exact hcap k hk

/-- The device once a line of head `h` has been taken from the issued ones. -/
def Dev.lineTaken (d : Dev) (h : Nat) (rest : List LineRec) : Dev := d.setLtg h { d.getLtg h with issued := rest }

theorem Dev.lineTaken_lineBarred (d : Dev) (h : Nat) (rest : List LineRec) :
    (d.lineTaken h rest).lineBarred = d.lineBarred := rfl

theorem Dev.lineTaken_issued (d : Dev) (h : Nat) (rest : List LineRec) : ((d.lineTaken h rest).getLtg h).issued = rest := by
  simp [Dev.lineTaken]

section

variable {d : Dev} {h : Nat} {l : LineRec} {rest : List LineRec}
  (hissued : (d.getLtg h).issued = l :: rest) (hdue : l.s ≤ d.t)
include hissued hdue

/-- A line at its boundary, of a head with enabled channels: its head fires, and the boundary spreads. -/
theorem Dev.lineFire_free (hfree : d.lineBarred = false) (hchans : (enabledChans l.snap h).isEmpty = false) :
    d.lineFire h = (((d.lineTaken h rest).workFires h l).headFires h l
      (((d.lineTaken h rest).workFires h l).firesDark h l.num)).boundarySpreads h l := by
  have hfree' : ¬ (d.lineTaken h rest).lineBarred = true := by simp [Dev.lineTaken_lineBarred, hfree]
  unfold Dev.lineFire
  dsimp only
  rw [hissued]
  refine (if_neg (by omega)).trans ((if_neg hfree').trans ?_)
  split
  · exact if_neg (by simp [hchans])
  · rfl

theorem Dev.lineFire_barred (hbar : d.lineBarred = true) : d.lineFire h = (d.lineTaken h rest).lineUnfired h l := by
  have hbar' : (d.lineTaken h rest).lineBarred = true := by rwa [Dev.lineTaken_lineBarred]
  unfold Dev.lineFire
  dsimp only
  rw [hissued]
  exact (if_neg (by omega)).trans (if_pos hbar')

/-- At its boundary the oldest line is taken from the issued ones and fires (R91). -/
theorem Dev.lineFire_fires (hh : h < 24) (hfree : d.lineBarred = false)
    (hcap : ∀ k, k < 32 → d.rf ENC_CAPCTRL_SRC k ≠ 120 + h) (hchans : (enabledChans l.snap h).isEmpty = false) :
    ∃ e dark, (d.lineTaken h rest).sparesHeads e [] ∧
      (e.headFires h l dark).sparesHeads (d.lineFire h) [(.CNV_MIT, groupOf h)] := by
  have hwork := (d.lineTaken h rest).sparesHeads_workFires h l
  refine ⟨_, ((d.lineTaken h rest).workFires h l).firesDark h l.num, hwork, ?_⟩
  rw [Dev.lineFire_free hissued hdue hfree hchans]
  generalize (d.lineTaken h rest).workFires h l = e at hwork ⊢
  have hfired := e.onlyRegs_headFires (show h < 65536 by omega) l (e.firesDark h l.num)
  refine Dev.sparesHeads_boundarySpreads _ hh l fun k hk => ?_
  rw [hfired.rf (f := ENC_CAPCTRL_SRC) (by omega) (by simp [ENC_CAPCTRL_SRC]),
    hwork.regs.rf (f := ENC_CAPCTRL_SRC) (by omega) (by simp)]
  exact hcap k hk

end

/-! A line does not fire -/

/-- A line that is counted as late touches the count alone. -/
theorem Dev.sparesHeads_countUnfired (d : Dev) (h num : Nat) : d.sparesHeads (d.countUnfired h num) [(.ZLK_LINECNT, 0)] := by
  have hsame : d.sparesHeads d [(.ZLK_LINECNT, 0)] := Dev.sparesHeads_of_regs rfl rfl rfl rfl
  have hinc (e : Dev) := e.sparesHeads_inc ZLK_LINECNT_LATE 1 (show 0 < 65536 by decide)
  have hset (f : Zlk → Zlk) : d.sparesHeads (d.setZ f) [(.ZLK_LINECNT, 0)] := Dev.sparesHeads_of_regs rfl rfl rfl rfl
  unfold Dev.countUnfired
  split
  · exact hsame
  · split
    · dsimp only
      split
      · exact hsame
      · exact (hset _).trans (hinc _)
    · exact hinc d

/-- A line of a head that issues its own lines is counted. -/
theorem Dev.countUnfired_own {d : Dev} {h : Nat} (num : Nat) (hring : d.rf LTG_CTRL_SRC h ≠ 3)
    (hgang : d.rf LTG_CTRL_SRC h ≠ 5) : d.countUnfired h num = d.inc ZLK_LINECNT_LATE 0 1 := by
  rw [Dev.countUnfired, if_neg hgang, if_neg hring]

/-- The strobes of a head without the one of a line that does not fire. -/
def Dev.strobeDropped (d : Dev) (h : Nat) (l : LineRec) : Dev :=
  d.setHcp h { d.getHcp h with
    strobes := (d.getHcp h).strobes.filter (fun x => decide (some x ≠ strobeOf l.snap h l.s)) }

/-- An unfired line drops its strobe, its work and its fetches, is counted, and leaves a gap pending (R74). -/
theorem Dev.lineUnfired_eq (d : Dev) (h : Nat) (l : LineRec) : ∃ e, (d.strobeDropped h l).sparesHeads e [] ∧
    d.lineUnfired h l = (e.countUnfired h l.num).setGap h := by
  have hwork (x : Dev) (ws : List LineWork) : x.sparesHeads (x.setWork h ws) [] := Dev.sparesHeads_of_regs rfl rfl rfl rfl
  unfold Dev.lineUnfired
  refine ⟨_, ?_, rfl⟩
  refine Dev.sparesHeads.trans ?_ ((hwork _ _).trans (Dev.sparesHeads_fetchDrop _ _ _))
  split
  · split <;> exact Dev.sparesHeads_of_regs rfl rfl rfl rfl
  · exact Dev.sparesHeads_of_regs rfl rfl rfl rfl

theorem Dev.lineUnfired_leaves (d : Dev) {h : Nat} (hh : h < 65536) (l : LineRec) :
    d.onlyRegs (d.lineUnfired h l) [(.ZLK_LINECNT, 0), (.LTG_STAT, h)] ∧ (d.lineUnfired h l).ltg = d.ltg ∧
      (d.lineUnfired h l).on LTG_STAT_GAPPEND h = true ∧
      ((d.lineUnfired h l).getHcp h).grid = (d.getHcp h).grid ∧
      (d.rf LTG_CTRL_SRC h ≠ 3 → d.rf LTG_CTRL_SRC h ≠ 5 → d.counts (d.lineUnfired h l) ZLK_LINECNT_LATE 0 1) := by
  obtain ⟨e, hdrop, heq⟩ := d.lineUnfired_eq h l
  have hrf (f : Fld) (i : Nat) (hi : i < 65536) : e.rf f i = d.rf f i := hdrop.regs.rf hi (by simp)
  have hcount := e.sparesHeads_countUnfired h l.num
  have hgap := (e.countUnfired h l.num).sparesHeads_wf LTG_STAT_GAPPEND 1 hh
  have hset : d.onlyRegs (d.strobeDropped h l) [(.ZLK_LINECNT, 0), (.LTG_STAT, h)] := Dev.onlyRegs_of_regs rfl
  have hltg : (d.strobeDropped h l).ltg = d.ltg := rfl
  have hgrid : ((d.strobeDropped h l).getHcp h).grid = (d.getHcp h).grid := by simp [Dev.strobeDropped]
  rw [heq]
  refine ⟨hset.trans ((hdrop.regs.mono (by simp)).trans ((hcount.regs.mono (by simp)).trans
    (hgap.regs.mono (by simp [LTG_STAT_GAPPEND])))), ?_, ?_, ?_, fun hring hgang => ?_⟩
  · exact hgap.ltg.trans (hcount.ltg.trans (hdrop.ltg.trans hltg))
  · exact Dev.on_wf_one _ _ _ (by decide) (by decide)
  · rw [Dev.setGap, hgap.getHcp, hcount.getHcp, hdrop.getHcp, hgrid]
  · rw [Dev.countUnfired_own _ (by rwa [hrf _ _ hh]) (by rwa [hrf _ _ hh]), Dev.counts, Dev.setGap,
      Dev.rf_wf_apart _ hh (by decide) _ _ _ (by decide), Dev.rf_inc_self _ _ _ _ (by decide), hrf _ _ (by decide)]

/-- Settles O14: at its boundary a line fires or is suppressed by what `Dev.lineFire` comes to; a strobe that ends shows
LEDON again. -/
theorem lineBoundaryAndStrobes : Obligations.LineBoundaryAndStrobes := by
  intro s h hh hlive
  have hh' : h < 65536 := by omega
  have hfire : exec (.lineFire h) s = .next (s.onDev (fun d => d.lineFire h)) := by
    show s.devWithin 4 _ = _
    exact State.devWithin_live hlive
  have hend : exec (.strobeEnd h) s = .next (s.onDev (fun d => d.strobeEnd h)) := by
    show s.devWithin 4 _ = _
    exact State.devWithin_live hlive
  have htaken (rest : List LineRec) (l : List (RegKind × Nat)) : s.dev.onlyRegs (s.dev.lineTaken h rest) l :=
    Dev.onlyRegs_of_regs rfl
  refine ⟨fun l rest hissued hdue hfree hcap hchans => ?_, fun l rest hissued hdue hbar => ?_, fun x hx hon hstop => ?_⟩
  · obtain ⟨e, dark, hbegun, hafter⟩ := Dev.lineFire_fires hissued hdue hh hfree hcap hchans
    have hen : e.on HCP_CTRL_EN h = s.dev.on HCP_CTRL_EN h := hbegun.regs.on hh' (by simp)
    have hport : e.getHcp h = s.dev.getHcp h := hbegun.getHcp h
    have hrest (hltg : (e.headFires h l dark).ltg = e.ltg) : ((s.dev.lineFire h).getLtg h).issued = rest := by
      rw [hafter.getLtg, Dev.getLtg, hltg, ← Dev.getLtg, hbegun.getLtg]
      exact s.dev.lineTaken_issued h rest
    refine ⟨fun hon => ⟨_, hfire, ?_⟩, fun hoff => ⟨_, hfire, ?_⟩⟩
    · obtain ⟨hregs, hltg, hrun, hgrid, hled⟩ := e.headFires_on_leaves l dark hh' (hen.trans hon)
      have hrun' : (s.dev.lineFire h).getHcp h = e.portRun h l dark := (hafter.getHcp h).trans hrun
      have hfired := hregs.mono (m := [(.AFE_HSTAT, h), (.HCP_TSTAT, h), (.CNV_MIT, groupOf h)]) (by simp)
      refine ⟨⟨s.sameStore_onDev _, (htaken rest _).trans ((hbegun.regs.mono (by simp)).trans
        (hfired.trans (hafter.regs.mono (by simp))))⟩, hrest hltg, congrArg Hcp.grid hrun', ?_, congrArg Hcp.hck hrun',
        congrArg Hcp.hspFrom hrun', congrArg Hcp.hspUntil hrun', ?_, ?_⟩
      · exact (hafter.regs.on (f := AFE_HSTAT_GRID) hh' (by simp [AFE_HSTAT_GRID])).trans hgrid
      · exact (congrArg Hcp.strobes hrun').trans (by rw [← hport]; rfl)
      · rw [State.onDev, hafter.regs.on (f := HCP_TSTAT_LEDON) hh' (by simp [HCP_TSTAT_LEDON]), hled, hport,
          hafter.contLed hh' (by simp) (by simp)]
    · obtain ⟨hregs, hltg, hgrid, hhck⟩ := e.headFires_off_leaves l dark (hen.trans hoff)
      exact ⟨⟨s.sameStore_onDev _, (htaken rest _).trans ((hbegun.regs.mono (by simp)).trans
        ((Dev.onlyRegs_of_regs hregs).trans hafter.regs))⟩, hrest hltg,
        (congrArg Hcp.grid (hafter.getHcp h)).trans (hgrid.trans (congrArg Hcp.grid hport)),
        (congrArg Hcp.hck (hafter.getHcp h)).trans (hhck.trans (congrArg Hcp.hck hport))⟩
  · obtain ⟨hregs, hltg, hgap, hgrid, hlate⟩ := (s.dev.lineTaken h rest).lineUnfired_leaves hh' l
    refine ⟨_, hfire, ?_⟩
    simp only [State.onDev, Dev.lineFire_barred hissued hdue hbar]
    refine ⟨⟨⟨rfl, rfl⟩, (htaken rest _).trans hregs⟩, ?_, hgap, hgrid, hlate⟩
    rw [Dev.getLtg, hltg]
    exact s.dev.lineTaken_issued h rest
  · refine ⟨_, hend, ?_⟩
    simp only [State.onDev, Dev.strobeEnd_due hx hon hstop]
    obtain ⟨hregs, hport, hled, hclip, hltg, -⟩ := s.dev.ledShow_setHcp_leaves hh' { s.dev.getHcp h with ledOn := false }
    refine ⟨⟨⟨rfl, rfl⟩, hregs⟩, by rw [hport], ?_, hclip, hltg⟩
    rw [hled, Bool.false_or]
    exact s.dev.contLed_setHcp h rfl rfl

end Sys2Proof.Machine
end

section
/-! SUPPORT. The converter code: how many steps of the converter a voltage reaches, and the code that makes of it (R102). -/

namespace Sys2Proof.Machine

/-- A step that a voltage does not exceed by halves up: R102 with both sides raised to the 160th power. -/
theorem codeReach_round {v gain n : Nat} :
    codeReach v gain n false = true ↔ ((2 * n - 1) * 9375) ^ 160 ≤ (128 * v) ^ 160 * 10 ^ gain := by
  simp only [codeReach, Bool.false_eq_true, if_false, decide_eq_true_eq]

theorem codeReach_strict {v gain n : Nat} :
    codeReach v gain n true = true ↔ ((2 * n - 1) * 9375) ^ 160 < (128 * v) ^ 160 * 10 ^ gain := by
  simp only [codeReach, if_true, decide_eq_true_eq]

/-- Steps below a reached one are reached. -/
theorem codeReach_of_le {v gain m n : Nat} {strict : Bool} (hmn : m ≤ n) (h : codeReach v gain n strict = true) :
    codeReach v gain m strict = true := by
  have hpow : ((2 * m - 1) * 9375) ^ 160 ≤ ((2 * n - 1) * 9375) ^ 160 :=
    Nat.pow_le_pow_left (Nat.mul_le_mul_right _ (by omega)) _
  cases strict
  · exact codeReach_round.mpr (hpow.trans (codeReach_round.mp h))
  · exact codeReach_strict.mpr (hpow.trans_lt (codeReach_strict.mp h))

/-- The search adds less than its next bit. -/
theorem codeSteps_lt (v gain : Nat) (strict : Bool) (b n : Nat) : codeSteps v gain strict b n < n + 2 ^ b := by
  induction b generalizing n with
  | zero => exact Nat.lt_succ_self n
  | succ b ih =>
    have hbit := Nat.two_pow_pos b
    unfold codeSteps
    split
    · have := ih (n + 2 ^ b)
      omega
    · have := ih n
      omega

/-- The search bit by bit: from steps that are all reached up to `n`, it ends at the last step reached below `n + 2 ^ b`. -/
theorem codeSteps_search (v gain : Nat) (strict : Bool) (b n : Nat)
    (hn : ∀ m, 0 < m → m ≤ n → codeReach v gain m strict = true) {m : Nat} (h0 : 0 < m) (hm : m < n + 2 ^ b) :
    codeReach v gain m strict = true ↔ m ≤ codeSteps v gain strict b n := by
  induction b generalizing n with
  | zero => exact iff_of_true (hn m h0 (by omega)) (show m ≤ n by omega)
  | succ b ih =>
    unfold codeSteps
    split
    case isTrue hreach => exact ih _ (fun _ _ hle => codeReach_of_le hle hreach) (by omega)
    case isFalse hmiss =>
      by_cases hlow : m < n + 2 ^ b
      · exact ih n hn hlow
      · have hend := codeSteps_lt v gain strict b n
        exact iff_of_false (fun h => hmiss (codeReach_of_le (by omega) h)) (by omega)

/-- The steps counted are those reached. -/
theorem codeReach_iff {v gain m : Nat} {strict : Bool} (h0 : 0 < m) (hm : m < 2 ^ 15) :
    codeReach v gain m strict = true ↔ m ≤ codeSteps v gain strict 15 0 :=
  codeSteps_search v gain strict 15 0 (fun _ hp hz => absurd hp (by omega)) h0 (by omega)

/-- The code of a voltage at or above 0: the steps are added to the clamp target, up to the top of the range. -/
theorem pgaCode_up {tgt : Nat} (gain v : Nat) (ht : tgt ≤ 16383) :
    pgaCode tgt gain v = min (tgt + codeSteps v gain false 15 0) 16383 := by
  have hv : ¬ (v : Int) < 0 := by omega
  unfold pgaCode
  simp only [hv, decide_false, if_false, Int.natAbs_natCast]
  generalize codeSteps v gain false 15 0 = n
  unfold clampI
  split_ifs <;> omega

/-- The code of a voltage below 0: the steps are taken off the clamp target, down to 0. -/
theorem pgaCode_down {tgt gain v : Nat} (ht : tgt ≤ 16383) (hv : 0 < v) :
    pgaCode tgt gain (-(v : Int)) = tgt - codeSteps v gain true 15 0 := by
  have hneg : (-(v : Int)) < 0 := by omega
  unfold pgaCode
  simp only [hneg, decide_true, if_true, Int.natAbs_neg, Int.natAbs_natCast]
  generalize codeSteps v gain true 15 0 = n
  unfold clampI
  split_ifs <;> omega

/-- The rounding of R102 at and above the clamp target. -/
theorem pgaCode_up_rounds {tgt : Nat} (gain v : Nat) (ht : tgt ≤ 16383) :
    tgt ≤ pgaCode tgt gain v ∧ pgaCode tgt gain v ≤ 16383 ∧
      (tgt < pgaCode tgt gain v →
        ((2 * (pgaCode tgt gain v - tgt) - 1) * 9375) ^ 160 ≤ (128 * v) ^ 160 * 10 ^ gain) ∧
      (pgaCode tgt gain v < 16383 →
        (128 * v) ^ 160 * 10 ^ gain < ((2 * (pgaCode tgt gain v - tgt) + 1) * 9375) ^ 160) := by
  have hsteps {m : Nat} := codeReach_iff (v := v) (gain := gain) (m := m) (strict := false)
  rw [pgaCode_up gain v ht]
  generalize codeSteps v gain false 15 0 = n at hsteps
  refine ⟨by omega, by omega, fun hup => ?_, fun hlow => ?_⟩
  · exact codeReach_round.mp ((hsteps (by omega) (by omega)).mpr (by omega))
  · have hnext : codeReach v gain (min (tgt + n) 16383 - tgt + 1) false ≠ true := fun h =>
      absurd ((hsteps (by omega) (by omega)).mp h) (by omega)
    rw [Ne, codeReach_round, Nat.not_le] at hnext
    rwa [show 2 * (min (tgt + n) 16383 - tgt) + 1 = 2 * (min (tgt + n) 16383 - tgt + 1) - 1 by omega]

/-- The rounding of R102 below the clamp target. -/
theorem pgaCode_down_rounds {tgt gain v : Nat} (ht : tgt ≤ 16383) (hv : 0 < v) :
    pgaCode tgt gain (-(v : Int)) ≤ tgt ∧
      (pgaCode tgt gain (-(v : Int)) < tgt →
        ((2 * (tgt - pgaCode tgt gain (-(v : Int))) - 1) * 9375) ^ 160 < (128 * v) ^ 160 * 10 ^ gain) ∧
      (0 < pgaCode tgt gain (-(v : Int)) →
        (128 * v) ^ 160 * 10 ^ gain ≤ ((2 * (tgt - pgaCode tgt gain (-(v : Int))) + 1) * 9375) ^ 160) := by
  have hsteps {m : Nat} := codeReach_iff (v := v) (gain := gain) (m := m) (strict := true)
  rw [pgaCode_down ht hv]
  generalize codeSteps v gain true 15 0 = n at hsteps
  refine ⟨by omega, fun hdown => ?_, fun hhigh => ?_⟩
  · exact codeReach_strict.mp ((hsteps (by omega) (by omega)).mpr (by omega))
  · have hnext : codeReach v gain (tgt - (tgt - n) + 1) true ≠ true := fun h =>
      absurd ((hsteps (by omega) (by omega)).mp h) (by omega)
    rw [Ne, codeReach_strict, Nat.not_lt] at hnext
    rwa [show 2 * (tgt - (tgt - n)) + 1 = 2 * (tgt - (tgt - n) + 1) - 1 by omega]

end Sys2Proof.Machine
end

section
/-! SUPPORT. Pixel words: what a pixel inside its line comes to, from the balls to its record in the line. -/

namespace Sys2Proof.Machine

/-! A flagged pixel -/

/-- The AFE notes a pixel that is over range in one of the three ways (R104), `first` being the first one of its line. -/
def Dev.ovrNoted (d : Dev) (c : Nat) (inp trim code first : Bool) : Dev :=
  if inp || trim || code then d.ovrCount c inp trim code first else d

/-- What an overrange of any of the three causes shows: its flag, a count, and nothing else (R104). -/
structure Dev.showsOvr (d e : Dev) (c : Nat) (inp trim code : Bool) : Prop where
  regs : d.onlyRegs e [(.AFE_STAT, c), (.AFE_OVRCNT, c)]
  onInp : e.on AFE_STAT_OVRIN c = true ↔ d.on AFE_STAT_OVRIN c = true ∨ inp = true
  onTrim : e.on AFE_STAT_OVRTRIM c = true ↔ d.on AFE_STAT_OVRTRIM c = true ∨ trim = true
  onCode : e.on AFE_STAT_OVRCODE c = true ↔ d.on AFE_STAT_OVRCODE c = true ∨ code = true
  counts : d.counts e AFE_OVRCNT_PIX c (b2n (inp || trim || code))

/-- The three flags of a pixel. -/
def Dev.ovrFlagged (d : Dev) (c : Nat) (inp trim code : Bool) : Dev :=
  ((d.flagIf AFE_STAT_OVRIN c inp).flagIf AFE_STAT_OVRTRIM c trim).flagIf AFE_STAT_OVRCODE c code

theorem Dev.ovrCount_eq (d : Dev) (c : Nat) (inp trim code first : Bool) : d.ovrCount c inp trim code first =
    if first then ((d.ovrFlagged c inp trim code).inc AFE_OVRCNT_PIX c 1).inc AFE_OVRCNT_LINES c 1
    else (d.ovrFlagged c inp trim code).inc AFE_OVRCNT_PIX c 1 := rfl

section

variable (d : Dev) {c : Nat} (hc : c < 65536) (inp trim code : Bool)
include hc

theorem Dev.onlyRegs_ovrFlagged : d.onlyRegs (d.ovrFlagged c inp trim code) [(.AFE_STAT, c)] :=
  ((d.sparesHeads_flagIf AFE_STAT_OVRIN hc inp).trans ((Dev.sparesHeads_flagIf _ AFE_STAT_OVRTRIM hc trim).trans
    (Dev.sparesHeads_flagIf _ AFE_STAT_OVRCODE hc code))).regs

theorem Dev.ovrFlagged_flags :
    ((d.ovrFlagged c inp trim code).on AFE_STAT_OVRIN c = true ↔ d.on AFE_STAT_OVRIN c = true ∨ inp = true) ∧
    ((d.ovrFlagged c inp trim code).on AFE_STAT_OVRTRIM c = true ↔ d.on AFE_STAT_OVRTRIM c = true ∨ trim = true) ∧
    ((d.ovrFlagged c inp trim code).on AFE_STAT_OVRCODE c = true ↔ d.on AFE_STAT_OVRCODE c = true ∨ code = true) := by
  unfold Dev.ovrFlagged
  refine ⟨?_, ?_, ?_⟩
  · rw [Dev.flagIf_on_apart _ hc _ (by decide), Dev.flagIf_on_apart _ hc _ (by decide),
      Dev.flagIf_on _ _ _ (by decide) (by decide), Bool.or_eq_true]
  · rw [Dev.flagIf_on_apart _ hc _ (by decide), Dev.flagIf_on _ _ _ (by decide) (by decide), Bool.or_eq_true,
      Dev.flagIf_on_apart _ hc _ (by decide)]
  · rw [Dev.flagIf_on _ _ _ (by decide) (by decide), Bool.or_eq_true, Dev.flagIf_on_apart _ hc _ (by decide),
      Dev.flagIf_on_apart _ hc _ (by decide)]

/-- A pixel that is over range sets its flags and counts once; the first of its line counts the line too (R104). -/
theorem Dev.ovrCount_shows (first : Bool) (hany : (inp || trim || code) = true) :
    d.showsOvr (d.ovrCount c inp trim code first) c inp trim code := by
  have hflag := d.onlyRegs_ovrFlagged hc inp trim code
  obtain ⟨hinp, htrim, hcode⟩ := d.ovrFlagged_flags hc inp trim code
  rw [Dev.ovrCount_eq]
  generalize d.ovrFlagged c inp trim code = x at hflag hinp htrim hcode ⊢
  have hpix := x.onlyRegs_inc (l := [(.AFE_OVRCNT, c)]) AFE_OVRCNT_PIX 1 hc (by simp [AFE_OVRCNT_PIX])
  have hcount : (x.inc AFE_OVRCNT_PIX c 1).rf AFE_OVRCNT_PIX c =
      min (d.rf AFE_OVRCNT_PIX c + 1) (2 ^ AFE_OVRCNT_PIX.width - 1) := by
    rw [Dev.rf_inc_self _ _ _ _ (by decide), hflag.rf (f := AFE_OVRCNT_PIX) hc (by simp [AFE_OVRCNT_PIX])]
  have hlines := (x.inc AFE_OVRCNT_PIX c 1).onlyRegs_inc (l := [(.AFE_OVRCNT, c)]) AFE_OVRCNT_LINES 1 hc
    (by simp [AFE_OVRCNT_LINES])
  have hend : ∀ e : Dev, x.onlyRegs e [(.AFE_OVRCNT, c)] →
      e.rf AFE_OVRCNT_PIX c = (x.inc AFE_OVRCNT_PIX c 1).rf AFE_OVRCNT_PIX c → d.showsOvr e c inp trim code := by
    intro e hregs hrf
    refine ⟨(hflag.mono (by simp)).trans (hregs.mono (by simp)), ?_, ?_, ?_, ?_⟩
    · rwa [hregs.on (f := AFE_STAT_OVRIN) hc (by simp [AFE_STAT_OVRIN])]
    · rwa [hregs.on (f := AFE_STAT_OVRTRIM) hc (by simp [AFE_STAT_OVRTRIM])]
    · rwa [hregs.on (f := AFE_STAT_OVRCODE) hc (by simp [AFE_STAT_OVRCODE])]
    · rw [Dev.counts, hrf, hcount, hany]
      rfl
  split
  · exact hend _ (hpix.trans hlines) (Dev.rf_inc_apart _ hc hc _ _ _ (by decide))
  · exact hend _ hpix rfl

theorem Dev.ovrNoted_shows (first : Bool) : d.showsOvr (d.ovrNoted c inp trim code first) c inp trim code := by
  unfold Dev.ovrNoted
  split
  case isTrue hany => exact d.ovrCount_shows hc inp trim code first hany
  case isFalse hnone =>
    simp only [Bool.or_eq_true, not_or, Bool.not_eq_true] at hnone
    obtain ⟨⟨rfl, rfl⟩, rfl⟩ := hnone
    refine ⟨Dev.onlyRegs_of_regs rfl, by simp, by simp, by simp, ?_⟩
    have hlt := d.rf_lt AFE_OVRCNT_PIX c
    exact (Nat.min_eq_left (Nat.le_sub_one_of_lt hlt)).symm

end

/-- A flagged pixel is noted in the registers alone. -/
theorem Dev.ovrNoted_pcu (d : Dev) (c : Nat) (inp trim code first : Bool) :
    (d.ovrNoted c inp trim code first).pcu = d.pcu := by
  have hflag : (d.ovrFlagged c inp trim code).pcu = d.pcu := by simp only [Dev.ovrFlagged, Dev.flagIf_pcu]
  unfold Dev.ovrNoted
  split
  · rw [Dev.ovrCount_eq]
    split
    · rw [Dev.inc_pcu, Dev.inc_pcu, hflag]
    · rw [Dev.inc_pcu, hflag]
  · rfl

/-- What is shown is told from the registers before it alone, and from those after it. -/
theorem Dev.showsOvr.congr {d d' e e' : Dev} {c : Nat} {inp trim code : Bool} (h : d.showsOvr e c inp trim code)
    (hd : d'.regs = d.regs) (he : e'.regs = e.regs) : d'.showsOvr e' c inp trim code := by
  have hrf : (∀ f i, d'.rf f i = d.rf f i) ∧ ∀ f i, e'.rf f i = e.rf f i := by simp [Dev.rf, hd, he]
  have hon : (∀ f i, d'.on f i = d.on f i) ∧ ∀ f i, e'.on f i = e.on f i := by simp [Dev.on, hrf]
  refine ⟨(Dev.onlyRegs_of_regs hd.symm).trans (h.regs.trans (Dev.onlyRegs_of_regs he)), ?_, ?_, ?_, ?_⟩
  · rw [hon.1, hon.2]; exact h.onInp
  · rw [hon.1, hon.2]; exact h.onTrim
  · rw [hon.1, hon.2]; exact h.onCode
  · rw [Dev.counts, hrf.1, hrf.2]; exact h.counts

/-! A pixel inside its line -/

/-- A pixel of the line `w` that comes as the manual lets it, and ends neither the line nor the clamp window. -/
structure Dev.pixelComes (d : Dev) (c num k : Nat) (w : LineWork) : Prop where
  work : d.workOf (headOf c) = [w]
  isLine : w.line.num = num
  fired : w.fired = true
  unscanned : w.scanJ = none
  enabled : fieldOf w.line.snap AFE_CH_EN c ≠ 0
  inOrder : tget w.came 0 c ≤ k + fieldOf w.line.snap AFE_HTIM_HLEAD (headOf c)
  due : d.pixelDue w c k = true
  fetched : ∀ f ∈ d.fetchesOf c, f.line ≠ num
  inLine : k + 1 < fieldOf w.line.snap AFE_HNPIX_NPIX (headOf c)
  inWindow : (k : Int) ≠ sx 14 (fieldOf w.line.snap AFE_CLPWIN_FIRST c) + 2 ^ fieldOf w.line.snap AFE_CLPWIN_CNT c - 1
  room : w.px.length + 1 <
    (enabledChans w.line.snap (headOf c)).length * fieldOf w.line.snap AFE_HNPIX_NPIX (headOf c)

/-- A pixel that ends neither the line nor the clamp window changes only the sums of the window. -/
theorem Dev.clampPixel_inside (d : Dev) (w : LineWork) {c k : Nat} (x : Nat)
    (hline : k + 1 < fieldOf w.line.snap AFE_HNPIX_NPIX (headOf c))
    (hwin : (k : Int) ≠ sx 14 (fieldOf w.line.snap AFE_CLPWIN_FIRST c) + 2 ^ fieldOf w.line.snap AFE_CLPWIN_CNT c - 1) :
    ∃ sum cnt, d.clampPixel w c k x = (d, { w with clampSum := sum, clampCnt := cnt }) := by
  have hlast : (k : Int) ≠ (fieldOf w.line.snap AFE_HNPIX_NPIX (headOf c) : Int) - 1 := by omega
  unfold Dev.clampPixel
  simp only [hwin, hlast, decide_false, Bool.false_and, Bool.or_false, Bool.false_eq_true, if_false]
  split
  · exact ⟨_, _, rfl⟩
  · exact ⟨w.clampSum, w.clampCnt, rfl⟩

/-- The voltage of a pixel at the PGA (R94 to R99). -/
def Dev.pixelVolts (d : Dev) (w : LineWork) (c k : Nat) (sample reset : Balls) : Int :=
  vLeg w.line.snap c (heldOf w.line.snap c sample reset) (d.trimOf w c k)

/-- The raw code of a voltage in a converter that departs by `dev` codes (R102). -/
def rawCode (t : Tab Word) (c : Nat) (v dev : Int) : Nat :=
  (clampI 0 16383 ((pgaCode (fieldOf t AFE_CLPTGT_TGT c) (fieldOf t AFE_PGA_GAIN c) v : Int) + dev)).toNat

/-- The code of a pixel with the coefficients of the slice that converts it (R113, R116). -/
def pixelCode (t : Tab Word) (c k raw : Nat) : Nat :=
  sliceCode raw (coefOfs t (sliceIdx (c / 12) (converterOf t c k))) (coefGain t (sliceIdx (c / 12) (converterOf t c k)))

/-- The entry that corrects a pixel: a neutral one outside the window (R133, R135). -/
def LineWork.entOf (w : LineWork) (c k : Nat) : Nat :=
  if k < fieldOf w.line.snap PCU_WIN_LEN c then tget w.ents neutralPct (pixKey c k) else neutralPct

/-- The record of a pixel of code `x` (R133): uncorrected with BYPASS. -/
def LineWork.recOf (w : LineWork) (c k x : Nat) (ovr : Bool) : PixRec :=
  let bypass := decide (fieldOf w.line.snap PCU_HCFG_BYPASS (headOf c) ≠ 0)
  ⟨x, if bypass then 4 * x else correct x (w.entOf c k), ovr, if bypass then neutralPct else w.entOf c k⟩

/-- The input of a pixel is over range: at the sample, or with CDS at the reset level (R104). -/
def ovrInputs (t : Tab Word) (c : Nat) (sample reset : Balls) : Bool :=
  ovrInput t c sample || (cdsOn t c && ovrInput t c reset)

theorem length_tinsert {α : Type} (t : Tab α) (k : Nat) (x : α) : (tinsert t k x).length = t.length + 1 := by
  induction t with
  | nil => rfl
  | cons e r ih =>
    unfold tinsert
    split
    · rfl
    · simp [ih]

/-- An entry that takes the place of those of its key makes a map longer by one at most. -/
theorem length_replaced_le {α : Type} (t : Tab α) (k : Nat) (x : α) : (tinsert (terase t k) k x).length ≤ t.length + 1 := by
  rw [length_tinsert]
  exact Nat.succ_le_succ (List.length_filter_le ..)

/-- A pixel inside its line: the capacitor and the leg take its voltage, an overrange is noted, and its record joins the line
(R94 to R104, R116, R133). -/
theorem Dev.pixelWord_inside {d : Dev} {c num k : Nat} {w : LineWork} (hp : d.pixelComes c num k w) (sample reset : Balls)
    (dev : Int) : ∃ first w',
    let v := d.pixelVolts w c k sample reset
    let raw := rawCode w.line.snap c v dev
    let inp := ovrInputs w.line.snap c sample reset
    let code := decide (raw = 0 ∨ raw = 16383)
    d.pixelWord c num k sample reset dev =
      (((d.sampleStage c k (heldOf w.line.snap c sample reset) v).ovrNoted c inp (ovrTrim v) code first).updWork
        (headOf c) num (fun _ => w')) ∧
    w'.line = w.line ∧
    tfind w'.px (pixKey c k) = some (w.recOf c k (pixelCode w.line.snap c k raw) (inp || ovrTrim v || code)) := by
  have hfind : (d.workOf (headOf c)).find? (fun w => decide (w.line.num = num) && w.fired) = some w := by
    simp [hp.work, hp.isLine, hp.fired]
  have hfetch : (d.fetchesOf c).find? (fun f => decide (f.line = num)) = none :=
    List.find?_eq_none.mpr fun f hf => by simp [hp.fetched f hf]
  have hgate : ¬ (fieldOf w.line.snap AFE_CH_EN c = 0 ∨ (k : Int) < -(fieldOf w.line.snap AFE_HTIM_HLEAD (headOf c) : Int) ∨
      (fieldOf w.line.snap AFE_HNPIX_NPIX (headOf c) : Int) ≤ k ∨
      ((k : Int) + fieldOf w.line.snap AFE_HTIM_HLEAD (headOf c)).toNat < tget w.came 0 c ∨ d.pixelDue w c k = false) := by
    rintro (hoff | hlead | hpast | hcame | hearly)
    · exact hp.enabled hoff
    · omega
    · have := hp.inLine
      omega
    · have := hp.inOrder
      omega
    · exact absurd (hp.due.symm.trans hearly) (by decide)
  obtain ⟨sum, cnt, hclamp⟩ := Dev.clampPixel_inside
    (d.sampleStage c k (heldOf w.line.snap c sample reset) (d.pixelVolts w c k sample reset))
    { w with came := tset w.came 0 c (((k : Int) + fieldOf w.line.snap AFE_HTIM_HLEAD (headOf c)).toNat + 1) }
    (pixelCode w.line.snap c k (rawCode w.line.snap c (d.pixelVolts w c k sample reset) dev)) hp.inLine hp.inWindow
  unfold Dev.pixelVolts pixelCode rawCode at hclamp
  unfold Dev.pixelWord
  simp only [hfind, hfetch, if_neg hgate, hclamp]
  simp only [hp.unscanned, Int.toNat_natCast, if_neg (show ¬ (k : Int) < 0 by omega)]
  refine ⟨_, _, if_neg ?_, rfl, tfind_tinsert_self _ _ _ (tfind_terase_self ..)⟩
  exact fun hfull => (length_replaced_le w.px (pixKey c k) _).not_gt
    (lt_of_lt_of_eq hp.room (of_decide_eq_true hfull).symm)

/-! What the parts of a pixel are -/

/-- A pixel of a line that is not of a scan has the trim code that was fetched for it, inside the window and with TRIMEN
(R98 to R100). -/
theorem Dev.trimOf_unscanned (d : Dev) {w : LineWork} (c k : Nat) (hscan : w.scanJ = none) : d.trimOf w c k =
    if k < fieldOf w.line.snap PCU_WIN_LEN c ∧ fieldOf w.line.snap AFE_CH_TRIMEN c ≠ 0 then tget w.trims 0 (pixKey c k)
    else 0 := by
  unfold Dev.trimOf
  simp only [hscan, Option.isSome_none, Bool.false_and, Bool.false_eq_true, or_false, Int.toNat_natCast]
  by_cases hin : k < fieldOf w.line.snap PCU_WIN_LEN c ∧ fieldOf w.line.snap AFE_CH_TRIMEN c ≠ 0
  · obtain ⟨hlen, htrimen⟩ := hin
    rw [if_neg (by omega), if_pos ⟨hlen, htrimen⟩]
  · rw [if_pos (by omega), if_neg hin]

/-- The voltage at the PGA: what the capacitor holds and the clamp voltage, which CDS adds at the leg, less the trim of the
pixel (R94, R97, R99). -/
theorem Dev.pixelVolts_eq (d : Dev) {w : LineWork} (c k : Nat) (sample reset : Balls) (hscan : w.scanJ = none) :
    d.pixelVolts w c k sample reset =
      (if fieldOf w.line.snap AFE_CH_SAMP c ≠ 0 then
        signOf w.line.snap c * (vIn w.line.snap c sample - vIn w.line.snap c reset)
      else signOf w.line.snap c * vIn w.line.snap c sample) + vClamp w.line.snap c -
      (if k < fieldOf w.line.snap PCU_WIN_LEN c ∧ fieldOf w.line.snap AFE_CH_TRIMEN c ≠ 0 then
        sx 8 (tget w.trims 0 (pixKey c k)) * (if fieldOf w.line.snap AFE_CH_TRNG c = 0 then 500 else 2000) else 0) := by
  have htrim : sx 8 (d.trimOf w c k) =
      if k < fieldOf w.line.snap PCU_WIN_LEN c ∧ fieldOf w.line.snap AFE_CH_TRIMEN c ≠ 0 then
        sx 8 (tget w.trims 0 (pixKey c k)) else 0 := by
    rw [d.trimOf_unscanned c k hscan, apply_ite (sx 8)]
    rfl
  unfold Dev.pixelVolts vLeg heldOf
  rw [htrim, ite_mul, zero_mul]
  by_cases hcds : fieldOf w.line.snap AFE_CH_SAMP c ≠ 0
  · rw [show cdsOn w.line.snap c = true from decide_eq_true hcds, if_pos rfl, if_pos rfl, if_pos hcds]
  · rw [show cdsOn w.line.snap c = false from decide_eq_false hcds, if_neg Bool.false_ne_true, if_neg Bool.false_ne_true,
      if_neg hcds, Int.add_zero]

/-- The input is beyond its range at one instant (R104). -/
theorem ovrInput_iff (t : Tab Word) (c : Nat) (b : Balls) : ovrInput t c b = true ↔
    if fieldOf t AFE_CH_INMODE c = 0 then b.p < 200000 ∨ 2700000 < b.p else 1250000 < (vIn t c b).natAbs := by
  unfold ovrInput
  split <;> exact decide_eq_true_iff

theorem ovrInputs_iff (t : Tab Word) (c : Nat) (sample reset : Balls) : ovrInputs t c sample reset = true ↔
    ovrInput t c sample = true ∨ fieldOf t AFE_CH_SAMP c ≠ 0 ∧ ovrInput t c reset = true := by
  simp only [ovrInputs, cdsOn, Bool.or_eq_true, Bool.and_eq_true, decide_eq_true_eq]

theorem Dev.workOf_updWork_one {d : Dev} {h num : Nat} {w : LineWork} (w' : LineWork) (hwork : d.workOf h = [w])
    (hnum : w.line.num = num) : (d.updWork h num (fun _ => w')).workOf h = [w'] := by
  rw [Dev.updWork, hwork, List.map_singleton, if_pos hnum]
  exact tget_tset_self d.pcu.work [] h [w']

/-- The leg of a pixel takes its voltage (R99). -/
theorem Dev.sampleStage_leg (d : Dev) (c k : Nat) (held v : Int) :
    tget (d.sampleStage c k held v).pcu.legs 0 (2 * c + k % 2) = v := by
  have hleg : ((k : Int) % 2).toNat = k % 2 := by omega
  simp [Dev.sampleStage, Dev.setPcu, hleg]

theorem exec_pixelWord {s : State} {c : Nat} (num : Nat) (k : Int) (sample reset : Balls) (dev : Int)
    (hgroup : s.dev.groupOn (c / 12) = true) (hlive : s.dev.live 4 = true) (hrel : s.dev.anx.released = true) :
    exec (.pixelWord c num k sample reset dev) s = .next (s.onDev (fun d => d.pixelWord c num k sample reset dev)) := by
  show Host.Outcome.next (s.onDev fun d => if d.groupOn (c / 12) && d.live 4 && d.anx.released then
    d.pixelWord c num k sample reset dev else d) = _
  simp [State.onDev, hgroup, hlive, hrel]

/-- Settles O20: the code by the search for the last step reached, and the pixel by what it comes to inside its line. -/
theorem pixelWords : Obligations.PixelWords := by
  refine ⟨fun tgt gain v ht => ⟨pgaCode_up_rounds gain v ht, fun hv => pgaCode_down_rounds ht hv⟩, ?_⟩
  intro s c num k sample reset dev w hc hgroup hlive hrel hwork hnum hfired hscan hen hcame hdue hfetch hline hwin hroom
    t vin sign cds clamp trim held v raw i x beyond inp wide ent bypass
  have hv : s.dev.pixelVolts w c k sample reset = v := s.dev.pixelVolts_eq c k sample reset hscan
  obtain ⟨first, w', hword, hline', hpx⟩ := Dev.pixelWord_inside
    ⟨hwork, hnum, hfired, hscan, hen, hcame, hdue, hfetch, hline, hwin, hroom⟩ sample reset dev
  rw [hv] at hword hpx
  have hinp : ovrInputs t c sample reset = true ↔ inp := by
    rw [ovrInputs_iff, ovrInput_iff, ovrInput_iff]
    exact Iff.rfl
  have hwide : ovrTrim v = true ↔ wide := decide_eq_true_iff
  have hcode : decide (raw = 0 ∨ raw = 16383) = true ↔ raw = 0 ∨ raw = 16383 := decide_eq_true_iff
  have hshows := (s.dev.sampleStage c k (heldOf t c sample reset) v).ovrNoted_shows (show c < 65536 by omega)
    (ovrInputs t c sample reset) (ovrTrim v) (decide (raw = 0 ∨ raw = 16383)) first
  have hpcu := (s.dev.sampleStage c k (heldOf t c sample reset) v).ovrNoted_pcu c (ovrInputs t c sample reset) (ovrTrim v)
    (decide (raw = 0 ∨ raw = 16383)) first
  refine ⟨_, exec_pixelWord num k sample reset dev hgroup hlive hrel, ?_⟩
  rw [State.onDev, hword]
  have hshown := hshows.congr (d' := s.dev) (e' := Dev.updWork _ (headOf c) num fun _ => w') rfl rfl
  have hstage : (Dev.ovrNoted (s.dev.sampleStage c k (heldOf t c sample reset) v) c (ovrInputs t c sample reset) (ovrTrim v)
      (decide (raw = 0 ∨ raw = 16383)) first).workOf (headOf c) = [w] := by
    rw [Dev.workOf, hpcu]; exact hwork
  have hleg := s.dev.sampleStage_leg c k (heldOf t c sample reset) v
  rw [← hpcu] at hleg
  refine ⟨⟨⟨rfl, rfl⟩, hshown.regs⟩, ⟨_, w', ?_, Dev.workOf_updWork_one w' hstage hnum, hline', hpx, hshown.counts⟩,
    hshown.onInp.trans (or_congr_right hinp), hshown.onTrim.trans (or_congr_right hwide),
    hshown.onCode.trans (or_congr_right hcode), hleg⟩
  rw [Bool.or_eq_true, Bool.or_eq_true, hinp, hwide, or_assoc]
  exact or_congr_right (or_congr_right hcode)

end Sys2Proof.Machine
end

section
/-! SUPPORT. Calibration rows whose scheduler has nothing to start, and the coefficients, phases and results they leave. -/

namespace Sys2Proof.Machine

/-! The scheduler with nothing to start -/

/-- What tells the scheduler to start something: commands in progress and stores asked for. -/
def Cal.asked (c : Cal) : List CalCmd × Bool × List Nat := (c.cmds, c.heldStore, c.heldHandles)

/-- Nothing of what the scheduler goes by changes, but for its settings, and of the registers those of the list alone. -/
structure Dev.sparesScheduler (d e : Dev) (l : List (RegKind × Nat)) : Prop where
  regs : d.onlyRegs e l
  pwr : e.pwr = d.pwr
  asked : e.cal.asked = d.cal.asked

section

variable {d e e' : Dev} {l : List (RegKind × Nat)}

theorem Dev.sparesScheduler_of_regs (hregs : e.regs = d.regs) (hpwr : e.pwr = d.pwr)
    (hasked : e.cal.asked = d.cal.asked) : d.sparesScheduler e l := ⟨Dev.onlyRegs_of_regs hregs, hpwr, hasked⟩

theorem Dev.sparesScheduler.trans (h : d.sparesScheduler e l) (h' : e.sparesScheduler e' l) : d.sparesScheduler e' l :=
  ⟨h.regs.trans h'.regs, h'.pwr.trans h.pwr, h'.asked.trans h.asked⟩

theorem Dev.sparesScheduler.mono {m : List (RegKind × Nat)} (h : d.sparesScheduler e l) (hs : l ⊆ m) :
    d.sparesScheduler e m := ⟨h.regs.mono hs, h.pwr, h.asked⟩

theorem Dev.sparesScheduler.wf (h : d.sparesScheduler e l) (f : Fld) {i : Nat} (n : Nat) (hi : i < 65536)
    (hm : (f.kind, i) ∈ l) : d.sparesScheduler (e.wf f i n) l := h.trans ⟨e.onlyRegs_wf f n hi hm, rfl, rfl⟩

theorem Dev.sparesScheduler.wfi (h : d.sparesScheduler e l) (f : Fld) {i : Nat} (z : Int) (hi : i < 65536)
    (hm : (f.kind, i) ∈ l) : d.sparesScheduler (e.wfi f i z) l := h.wf f _ hi hm

theorem Dev.sparesScheduler.setMit (h : d.sparesScheduler e l) (g : Nat) (m : Mitten) :
    d.sparesScheduler (e.setMit g m) l := h.trans (Dev.sparesScheduler_of_regs rfl rfl rfl)

theorem Dev.sparesScheduler.setCal (h : d.sparesScheduler e l) (f : Cal → Cal) (hf : ∀ c, (f c).asked = c.asked) :
    d.sparesScheduler (e.setCal f) l := h.trans (Dev.sparesScheduler_of_regs rfl rfl (hf _))

theorem Dev.sparesScheduler.post (h : d.sparesScheduler e l) (k : RecKind) (src value : Nat) :
    d.sparesScheduler (e.post k src value) l :=
  h.trans (Dev.sparesScheduler_of_regs (by simp) (by simp) (by simp))

theorem Dev.sparesScheduler_refl (d : Dev) (l : List (RegKind × Nat)) : d.sparesScheduler d l :=
  Dev.sparesScheduler_of_regs rfl rfl rfl

/-- A scheduler with nothing to start has nothing to start after such a change. -/
theorem Dev.sparesScheduler.calIdle (h : d.sparesScheduler e l) (hl : (.CAL_CTRL, 0) ∉ l) (hidle : d.calIdle) :
    e.calIdle := by
  obtain ⟨hman, hrun, hcmds, hstore, hheld, htemp⟩ := hidle
  obtain ⟨hregs, hpwr, hasked⟩ := h
  obtain ⟨hc, hs, hh⟩ : e.cal.cmds = d.cal.cmds ∧ e.cal.heldStore = d.cal.heldStore ∧ e.cal.heldHandles = d.cal.heldHandles := by
    simpa only [Cal.asked, Prod.mk.injEq] using hasked
  refine ⟨?_, hpwr ▸ hrun, hc.trans hcmds, hs.trans hstore, hh.trans hheld, ?_⟩
  · simp only [Dev.managementOn, Dev.domOn, hrun, Dev.domNormal, hpwr] at hman ⊢
    exact hman
  · rw [← htemp, Dev.calTempOn, Dev.calTempOn, hpwr, hregs.on (f := CAL_CTRL_TRIG) (by decide) hl,
      hregs.on (f := CAL_CTRL_SUSPEND) (by decide) hl]

/-- No item is asked for. -/
theorem Dev.calWanted_idle (h : d.calIdle) (kind item : Nat) : d.calWanted kind item = false := by
  obtain ⟨-, -, hcmds, -, -, htemp⟩ := h
  simp [Dev.calWanted, Dev.cmdOf, hcmds, htemp]

theorem Dev.calStarts_idle (h : d.calIdle) : d.calStarts = d := by
  have hgo (kind n : Nat) (f : Dev → Nat → Dev) :
      (List.range n).foldl (fun e i => if e.calWanted kind i then f e i else e) d = d :=
    foldl_keeps (· = d) _ _ _ rfl fun e i _ he => by rw [he, Dev.calWanted_idle h]; rfl
  simp only [Dev.calStarts, Dev.calWanted_idle h, hgo, Bool.false_eq_true, if_false, ite_self]

/-- The firmware has nothing to go on with. -/
theorem Dev.calStep_idle (h : d.calIdle) : d.calStep = d := by
  obtain ⟨-, hrun, -, hstore, hheld, -⟩ := id h
  have hpump : d.storePump = d := by simp [Dev.storePump, hstore, hheld]
  rw [Dev.calStep, Dev.calPump, hpump, Dev.calStarts_idle h, Dev.startSettle, hrun]
  exact if_neg fun hst => by cases hst.1

end

/-- A happening of calibration that leaves the scheduler nothing to start is all that its row does. -/
theorem State.calRow_idle {s : State} {f : Dev → Dev} {l : List (RegKind × Nat)} (hidle : s.dev.calIdle)
    (h : s.dev.sparesScheduler (f s.dev) l) (hl : (.CAL_CTRL, 0) ∉ l) : s.calRow f = .next (s.onDev f) := by
  rw [State.calRow_on hidle.1]
  exact congrArg (fun e => Host.Outcome.next { s with dev := e }) (Dev.calStep_idle (h.calIdle hl hidle))

end Sys2Proof.Machine
end

section
/-! SUPPORT. The mitten's rows: the coefficients a line result brings on, the phases it enters, and the item that ends. -/

namespace Sys2Proof.Machine

/-! Signed fields -/

/-- A signed number that fits in `w` bits reads back from them. -/
theorem sx_ux {w : Nat} {z : Int} (hw : 0 < w) (hlo : -(2 ^ (w - 1) : Nat) ≤ z) (hhi : z < (2 ^ (w - 1) : Nat)) :
    sx w (ux w z) = z := by
  obtain ⟨p, hp⟩ : ∃ p, p = 2 ^ (w - 1) := ⟨_, rfl⟩
  have hpow : 2 ^ w = 2 * p := by rw [hp, ← Nat.pow_succ', Nat.succ_eq_add_one, Nat.sub_add_cancel hw]
  have hpowi : (2 : Int) ^ w = 2 * p := by exact_mod_cast hpow
  rw [← hp] at hlo hhi
  rw [sx, Nat.mod_eq_of_lt (ux_lt w z), ← hp, hpowi, ux, hpow]
  clear hp
  rcases le_or_gt 0 z with hz | hz
  · rw [Int.emod_eq_of_lt hz (by omega)]
    split <;> omega
  · rw [Int.emod_eq_add_self_emod, Int.emod_eq_of_lt (by omega) (by omega)]
    split <;> omega

theorem sx_range {w : Nat} (hw : 0 < w) (n : Nat) : -(2 ^ (w - 1) : Nat) ≤ sx w n ∧ sx w n < (2 ^ (w - 1) : Nat) := by
  obtain ⟨p, hp⟩ : ∃ p, p = 2 ^ (w - 1) := ⟨_, rfl⟩
  have hpow : 2 ^ w = 2 * p := by rw [hp, ← Nat.pow_succ', Nat.succ_eq_add_one, Nat.sub_add_cancel hw]
  have hpowi : (2 : Int) ^ w = 2 * p := by exact_mod_cast hpow
  have hlt : n % 2 ^ w < 2 * p := hpow ▸ Nat.mod_lt _ (Nat.two_pow_pos w)
  rw [sx, ← hp, hpowi]
  split <;> omega

theorem clampI_range {lo hi : Int} (x : Int) (h : lo ≤ hi) : lo ≤ clampI lo hi x ∧ clampI lo hi x ≤ hi := by
  unfold clampI
  split
  · omega
  · split <;> omega

/-- A value of a range, moved by a step of at most `k` that stops at the ends of the range, moves by at most `k`. -/
theorem natAbs_clampI_step {lo hi a : Int} (k : Nat) (x : Int) (hlo : lo ≤ a) (hhi : a ≤ hi) (hx : x.natAbs ≤ k) :
    (clampI lo hi (a + x) - a).natAbs ≤ k := by
  unfold clampI
  split
  · omega
  · split <;> omega

theorem natAbs_clampI_le (k : Nat) (x : Int) : (clampI (-(k : Int)) k x).natAbs ≤ k := by
  have := clampI_range x (show -(k : Int) ≤ k by omega)
  omega

/-- A signed field read after a number that fits was put into it. -/
theorem Dev.rfi_wfi_self (d : Dev) (f : Fld) (i : Nat) {z : Int} (hfit : f.lsb + f.width ≤ 32) (hw : 0 < f.width)
    (hlo : -(2 ^ (f.width - 1) : Nat) ≤ z) (hhi : z < (2 ^ (f.width - 1) : Nat)) : (d.wfi f i z).rfi f i = z := by
  rw [Dev.rfi, Dev.wfi, Dev.rf_wf_self d f i _ hfit, Nat.mod_eq_of_lt (ux_lt _ _), sx_ux hw hlo hhi]

/-! Coefficients -/

/-- The coefficients of a converter are put, stopped at the ends of their fields (log 55). -/
def Dev.putCoef (d : Dev) (i : Nat) (ofs gain : Int) : Dev :=
  (d.wfi CNV_SOFS_OFS i (clampI (-2048) 2047 ofs)).wfi CNV_SGAIN_GAIN i (clampI (-32768) 32767 gain)

theorem coefOfs_range (t : Tab Word) (i : Nat) : -2048 ≤ coefOfs t i ∧ coefOfs t i ≤ 2047 := by
  have := sx_range (w := 12) (by decide) (fieldOf t CNV_SOFS_OFS i)
  unfold coefOfs
  omega

theorem coefGain_range (t : Tab Word) (i : Nat) : -32768 ≤ coefGain t i ∧ coefGain t i ≤ 32767 := by
  have := sx_range (w := 16) (by decide) (fieldOf t CNV_SGAIN_GAIN i)
  unfold coefGain
  omega

theorem Dev.putCoef_gain (d : Dev) (i : Nat) (ofs gain : Int) :
    coefGain (d.putCoef i ofs gain).regs i = clampI (-32768) 32767 gain := by
  have h := clampI_range (lo := -32768) (hi := 32767) gain (by decide)
  exact Dev.rfi_wfi_self _ CNV_SGAIN_GAIN i (by decide) (by decide) (by simpa [CNV_SGAIN_GAIN] using h.1)
    (by simp only [CNV_SGAIN_GAIN]; omega)

theorem Dev.putCoef_ofs (d : Dev) {i : Nat} (hi : i < 65536) (ofs gain : Int) :
    coefOfs (d.putCoef i ofs gain).regs i = clampI (-2048) 2047 ofs := by
  have h := clampI_range (lo := -2048) (hi := 2047) ofs (by decide)
  have hkeep : (d.putCoef i ofs gain).rfi CNV_SOFS_OFS i = (d.wfi CNV_SOFS_OFS i (clampI (-2048) 2047 ofs)).rfi CNV_SOFS_OFS i :=
    congrArg (sx 12) (Dev.rf_wf_kind _ CNV_SGAIN_GAIN CNV_SOFS_OFS _ (by decide) hi hi)
  exact hkeep.trans (Dev.rfi_wfi_self d CNV_SOFS_OFS i (by decide) (by decide) (by simpa [CNV_SOFS_OFS] using h.1)
    (by simp only [CNV_SOFS_OFS]; omega))

section

variable (d : Dev) {g : Nat} (mean gdiff : Int)

/-- In SHADOW the mitten's coefficients take all of the difference (R118). -/
theorem Dev.mitAdjust_shadow (h : d.mitState g = 1) : d.mitAdjust g mean gdiff =
    d.putCoef (sliceIdx g 12) (coefOfs d.regs (sliceIdx g 12) + mean) (coefGain d.regs (sliceIdx g 12) - gdiff) := by
  rw [Dev.mitAdjust, if_pos h, Dev.putCoef]

/-- In RETURN they take a small step of it (R118). -/
theorem Dev.mitAdjust_return (h : d.mitState g = 3) : d.mitAdjust g mean gdiff =
    d.putCoef (sliceIdx g 12) (coefOfs d.regs (sliceIdx g 12) + clampI (-1) 1 mean)
      (coefGain d.regs (sliceIdx g 12) - clampI (-4) 4 gdiff) := by
  rw [Dev.mitAdjust, if_neg (by omega), Dev.putCoef]

end

/-! A line result -/

/-- The pass count after a line. -/
def Dev.passCount (d : Dev) (g : Nat) (pass : Bool) : Nat := if pass then min (d.rf CNV_MITCNT_PASS g + 1) 255 else 0

/-- The result of a line is shown, and the mitten's equality noted. -/
def Dev.lineCompared (d : Dev) (g : Nat) (mean : Int) (rms : Nat) (pass : Bool) : Dev :=
  (((d.wf CNV_MITCNT_PASS g (d.passCount g pass)).wfi CNV_MITCNT_MEAN g (clampI (-2048) 2047 mean)).wf CNV_MITCNT_RMS g
    (min rms 4095)).setMit g { d.getMit g with
      equal := pass && ((d.getMit g).equal || decide ((d.getMit g).eqLines ≤ d.passCount g pass)) }

theorem Dev.mitLine_eq (d : Dev) {g : Nat} (mean : Int) (rms peak : Nat) (gdiff : Int)
    (h : d.mitState g = 1 ∨ d.mitState g = 3) : d.mitLine g mean rms peak gdiff =
      (d.lineCompared g mean rms ((d.getMit g).passes mean rms peak)).mitAdjust g mean gdiff := by
  rw [Dev.mitLine, if_pos h]; rfl

/-- The registers that a line result changes: the counts, and the mitten's coefficients. -/
def lineResultRegs (g : Nat) : List (RegKind × Nat) :=
  [(.CNV_MITCNT, g), (.CNV_SOFS, 13 * g + 12), (.CNV_SGAIN, 13 * g + 12)]

section

variable {d e : Dev} {g : Nat} (hg : g < 8)
include hg

theorem Dev.sparesScheduler_lineCompared (mean : Int) (rms : Nat) (pass : Bool) :
    d.sparesScheduler (d.lineCompared g mean rms pass) [(.CNV_MITCNT, g)] :=
  ((((d.sparesScheduler_refl _).wf CNV_MITCNT_PASS _ (by omega) (by simp [CNV_MITCNT_PASS])).wfi CNV_MITCNT_MEAN _ (by omega)
    (by simp [CNV_MITCNT_MEAN])).wf CNV_MITCNT_RMS _ (by omega) (by simp [CNV_MITCNT_RMS])).setMit _ _

theorem Dev.sparesScheduler_putCoef (d : Dev) (ofs gain : Int) : d.sparesScheduler (d.putCoef (sliceIdx g 12) ofs gain)
    [(.CNV_SOFS, 13 * g + 12), (.CNV_SGAIN, 13 * g + 12)] :=
  ((d.sparesScheduler_refl _).wfi CNV_SOFS_OFS _ (by unfold sliceIdx; omega) (by simp [CNV_SOFS_OFS, sliceIdx])).wfi
    CNV_SGAIN_GAIN _ (by unfold sliceIdx; omega) (by simp [CNV_SGAIN_GAIN, sliceIdx])

theorem Dev.sparesScheduler_mitAdjust (d : Dev) (mean gdiff : Int) : d.sparesScheduler (d.mitAdjust g mean gdiff)
    [(.CNV_SOFS, 13 * g + 12), (.CNV_SGAIN, 13 * g + 12)] := by
  unfold Dev.mitAdjust
  dsimp only
  split <;> exact d.sparesScheduler_putCoef hg _ _

omit hg in
theorem Dev.mitAdjust_getMit (d : Dev) (mean gdiff : Int) : (d.mitAdjust g mean gdiff).getMit g = d.getMit g := by
  unfold Dev.mitAdjust
  dsimp only
  split <;> rfl

theorem Dev.lineCompared_shows (d : Dev) (mean : Int) (rms : Nat) (pass : Bool) :
    (d.lineCompared g mean rms pass).rf CNV_MITCNT_PASS g = d.passCount g pass ∧
      (d.lineCompared g mean rms pass).rf CNV_MITCNT_RMS g = min rms 4095 := by
  have hcount : d.passCount g pass < 2 ^ CNV_MITCNT_PASS.width := by
    unfold Dev.passCount
    split <;> simp only [CNV_MITCNT_PASS] <;> omega
  constructor
  · simp (disch := first | decide | omega) only [Dev.lineCompared, Dev.setMit, Dev.setPcu_rf, Dev.wfi, Dev.rf_wf_apart, Dev.rf_wf_self]
    exact Nat.mod_eq_of_lt hcount
  · rw [Dev.lineCompared, Dev.setMit, Dev.setPcu_rf, Dev.rf_wf_self _ _ _ _ (by decide)]
    exact Nat.mod_eq_of_lt (by simp only [CNV_MITCNT_RMS]; omega)

end

/-! Phases -/

/-- A phase that begins (R117): the state and the slice shown. -/
theorem Dev.mitPhase_shows (d : Dev) {g st s : Nat} (hg : g < 8) (hst : st < 8) (hs : s < 16) :
    (d.mitPhase g st s).mitState g = st ∧ (d.mitPhase g st s).mitSlice g = s := by
  simp (disch := first | decide | omega) only [Dev.mitPhase, Dev.mitState, Dev.mitSlice, Dev.rf_wf_apart, Dev.rf_wf_self]
  exact ⟨Nat.mod_eq_of_lt hst, Nat.mod_eq_of_lt hs⟩

theorem Dev.mitIdle_shows (d : Dev) {g : Nat} (hg : g < 8) :
    (d.mitIdle g).mitState g = 0 ∧ (d.mitIdle g).mitSlice g = 15 := Dev.mitPhase_shows _ hg (by decide) (by decide)

theorem Dev.mitSlice_lt (d : Dev) (g : Nat) : d.mitSlice g < 16 := d.rf_lt CNV_MIT_SLICE g

/-- The registers of the mitten of a group that a phase changes. -/
def phaseRegs (g : Nat) : List (RegKind × Nat) := [(.CNV_MIT, g), (.CNV_MITCNT, g)]

section

variable {d : Dev} {g : Nat} (hg : g < 8)
include hg

theorem Dev.sparesScheduler_mitPhase (d : Dev) (st s : Nat) : d.sparesScheduler (d.mitPhase g st s) (phaseRegs g) :=
  (((((d.sparesScheduler_refl _).setMit g _).wf CNV_MIT_STATE _ (by omega) (by simp [CNV_MIT_STATE, phaseRegs])).wf
    CNV_MIT_SLICE _ (by omega) (by simp [CNV_MIT_SLICE, phaseRegs])).wf CNV_MIT_LINES _ (by omega)
    (by simp [CNV_MIT_LINES, phaseRegs])).wf CNV_MITCNT_PASS _ (by omega) (by simp [CNV_MITCNT_PASS, phaseRegs])

theorem Dev.sparesScheduler_mitIdle (d : Dev) : d.sparesScheduler (d.mitIdle g) (phaseRegs g) :=
  ((d.sparesScheduler_refl _).setMit g _).trans (Dev.sparesScheduler_mitPhase hg _ 0 15)

theorem Dev.sparesScheduler_deliverBy (d : Dev) {s : Nat} (hs : s < 16) (mitten : Bool) :
    d.sparesScheduler (d.deliverBy g s mitten) [(.CNV_SSTAT, sliceIdx g s)] :=
  (d.sparesScheduler_refl _).wf CNV_SSTAT_COVERED _ (by unfold sliceIdx; omega) (by simp [CNV_SSTAT_COVERED])

end

/-! An item that no command names ends with a failure -/

section

variable (d : Dev) (kind item st stat val : Nat)

def Dev.itemDropped : Dev :=
  d.setCal (fun c => { c with items := c.items.filter (fun x => decide (¬ (x.kind = kind ∧ x.item = item))) })

/-- The item may start again at an instant (R157). -/
def Dev.retryFrom (at_ : Nat) : Dev := d.setCal (fun c => { c with retryAt := tset c.retryAt 0 (itemKey kind item) at_ })

theorem Dev.itemEnds_failed_eq (hcmds : d.cal.cmds = []) (hst : st ≠ stOK) : ∃ t, d.itemEnds kind item st stat val =
    (((d.itemDropped kind item).setResult kind 0 st (itemCode kind item) stat val).retryFrom kind item t).post .fault 0x0E2
      (partOf kind item) := by
  simp only [Dev.itemEnds, if_neg hst, Dev.cmdOf, Dev.setCal_cal, hcmds, List.find?_nil]
  exact ⟨_, rfl⟩

theorem Dev.retryFrom_rf (t : Nat) (f : Fld) (i : Nat) : (d.retryFrom kind item t).rf f i = d.rf f i := Dev.setCal_rf _ _ _ _

variable {kind} (hkind : kind < 65536)
include hkind

theorem Dev.sparesScheduler_setResult (handle : Nat) :
    d.sparesScheduler (d.setResult kind handle st item stat val) [(.CAL_RSTAT, kind), (.CAL_RVAL, kind)] :=
  (((((d.sparesScheduler_refl _).wf CAL_RSTAT_HANDLE _ hkind (by simp [CAL_RSTAT_HANDLE])).wf
      CAL_RSTAT_STATUS _ hkind (by simp [CAL_RSTAT_STATUS])).wf CAL_RSTAT_ITEM _ hkind (by simp [CAL_RSTAT_ITEM])).wf
      CAL_RSTAT_STAT _ hkind (by simp [CAL_RSTAT_STAT])).wf CAL_RVAL_VAL _ hkind (by simp [CAL_RVAL_VAL])

theorem Dev.setResult_shows (handle : Nat) :
    (d.setResult kind handle st item stat val).rf CAL_RSTAT_STATUS kind = st % 2 ^ 8 ∧
      (d.setResult kind handle st item stat val).rf CAL_RSTAT_STAT kind = stat % 2 ^ 4 := by
  simp (disch := first | decide | omega) only [Dev.setResult, Dev.rf_wf_apart, Dev.rf_wf_self]
  exact ⟨rfl, rfl⟩

/-- Its result is shown (R154, R155), and the scheduler has nothing more to start. -/
theorem Dev.itemEnds_failed (hcmds : d.cal.cmds = []) (hst : st ≠ stOK) :
    d.sparesScheduler (d.itemEnds kind item st stat val) [(.CAL_RSTAT, kind), (.CAL_RVAL, kind)] ∧
      (d.itemEnds kind item st stat val).rf CAL_RSTAT_STATUS kind = st % 2 ^ 8 ∧
      (d.itemEnds kind item st stat val).rf CAL_RSTAT_STAT kind = stat % 2 ^ 4 := by
  have hdrop : d.sparesScheduler (d.itemDropped kind item) [(.CAL_RSTAT, kind), (.CAL_RVAL, kind)] :=
    Dev.sparesScheduler_of_regs rfl rfl rfl
  have hlater (e : Dev) (t : Nat) : e.sparesScheduler (e.retryFrom kind item t) [(.CAL_RSTAT, kind), (.CAL_RVAL, kind)] :=
    Dev.sparesScheduler_of_regs rfl rfl rfl
  obtain ⟨t, heq⟩ := d.itemEnds_failed_eq kind item st stat val hcmds hst
  rw [heq, Dev.post_rf, Dev.post_rf, Dev.retryFrom_rf, Dev.retryFrom_rf]
  exact ⟨((hdrop.trans (Dev.sparesScheduler_setResult _ _ _ _ _ hkind 0)).trans (hlater _ _)).post _ _ _,
    (d.itemDropped kind item).setResult_shows _ _ _ _ hkind 0⟩

end

/-! A slice fails (R125) -/

/-- FAILED is set and reported. -/
def Dev.failReported (d : Dev) (g s : Nat) : Dev := (d.wf CNV_SSTAT_FAILED (sliceIdx g s) 1).post .fault (0x0C0 + g) s

/-- The mitten takes the place of the slice, and nothing is held for it. -/
def Dev.mittenTakesOver (d : Dev) (g s : Nat) : Dev :=
  (d.deliverBy g s true).setMit g { d.getMit g with held := none }

theorem Dev.wantStore_off {d : Dev} (h : d.on CAL_STORECFG_AUTO 0 = false) : d.wantStore = d := by simp [Dev.wantStore, h]

theorem Dev.sliceFails_eq (d : Dev) {g s : Nat} (h : (d.failReported g s).mitState g ≠ 4) :
    d.sliceFails g s = (((d.failReported g s).mittenTakesOver g s).mitPhase g 4 s).wantStore := if_neg h

/-- A slice that the mitten does not serve for good fails: the mitten takes its place, and no store is asked for. -/
theorem Dev.sliceFails_leaves (d : Dev) {g s : Nat} (hg : g < 8) (hs : s < 16) (hst : d.mitState g ≠ 4)
    (hauto : d.on CAL_STORECFG_AUTO 0 = false) :
    d.sparesScheduler (d.sliceFails g s) ((.CNV_SSTAT, sliceIdx g s) :: phaseRegs g) ∧
      (d.sliceFails g s).on CNV_SSTAT_FAILED (sliceIdx g s) = true ∧
      (d.sliceFails g s).mitState g = 4 ∧ (d.sliceFails g s).mitSlice g = s := by
  have hi : sliceIdx g s < 65536 := by unfold sliceIdx; omega
  have hrep : d.sparesScheduler (d.failReported g s) [(.CNV_SSTAT, sliceIdx g s)] :=
    ((d.sparesScheduler_refl _).wf CNV_SSTAT_FAILED _ hi (by simp [CNV_SSTAT_FAILED])).post _ _ _
  have hover : (d.failReported g s).sparesScheduler ((d.failReported g s).mittenTakesOver g s) [(.CNV_SSTAT, sliceIdx g s)] :=
    (Dev.sparesScheduler_deliverBy hg _ hs true).setMit _ _
  have hphase := Dev.sparesScheduler_mitPhase hg ((d.failReported g s).mittenTakesOver g s) 4 s
  have hall := ((hrep.trans hover).mono (m := (.CNV_SSTAT, sliceIdx g s) :: phaseRegs g) (by simp)).trans
    (hphase.mono (List.subset_cons_self _ _))
  have hstate : (d.failReported g s).mitState g ≠ 4 := by
    rwa [Dev.mitState, hrep.regs.rf (by omega) (by simp [CNV_MIT_STATE])]
  rw [d.sliceFails_eq hstate,
    Dev.wantStore_off (by rw [hall.regs.on (by decide) (by simp [phaseRegs, CAL_STORECFG_AUTO]), hauto])]
  refine ⟨hall, ?_, Dev.mitPhase_shows _ hg (by decide) hs⟩
  rw [hphase.regs.on hi (by simp [phaseRegs, CNV_SSTAT_FAILED]), Dev.mittenTakesOver, Dev.setMit, Dev.setPcu_on, Dev.deliverBy,
    Dev.on_wf_bits _ CNV_SSTAT_COVERED CNV_SSTAT_FAILED _ _ rfl (by decide) (by decide), Dev.failReported, Dev.post_on,
    Dev.on_wf_one _ _ _ (by decide) (by decide)]

/-! What the rows leave -/

/-- The row of a group that is on, where the scheduler has nothing to start before it and after it. -/
theorem State.calGroupRow_idle {s : State} {g : Nat} {f : Dev → Dev} {l : List (RegKind × Nat)} (hidle : s.dev.calIdle)
    (hgroup : s.dev.groupOn g = true) (h : s.dev.sparesScheduler (f s.dev) l) (hl : (.CAL_CTRL, 0) ∉ l) :
    s.calRow (fun d => if d.groupOn g then f d else d) = .next (s.onDev f) := by
  have hf : (if s.dev.groupOn g then f s.dev else s.dev) = f s.dev := if_pos hgroup
  rw [State.calRow_idle hidle (hf.symm ▸ h) hl]
  exact congrArg (fun e => Host.Outcome.next { s with dev := e }) hf

section

variable {d : Dev} {g : Nat} (hg : g < 8)
include hg

theorem Dev.lineCompared_coef (d : Dev) (mean : Int) (rms : Nat) (pass : Bool) {i : Nat} (hi : i < 65536) :
    coefOfs (d.lineCompared g mean rms pass).regs i = coefOfs d.regs i ∧
      coefGain (d.lineCompared g mean rms pass).regs i = coefGain d.regs i :=
  have hregs := (Dev.sparesScheduler_lineCompared (d := d) hg mean rms pass).regs
  ⟨congrArg (sx 12) (hregs.rf (f := CNV_SOFS_OFS) hi (by simp [CNV_SOFS_OFS])),
    congrArg (sx 16) (hregs.rf (f := CNV_SGAIN_GAIN) hi (by simp [CNV_SGAIN_GAIN]))⟩

/-- What a line result shows of the comparison, in SHADOW and in RETURN (R118). -/
theorem Dev.mitLine_shows (mean : Int) (rms peak : Nat) (gdiff : Int) (h : d.mitState g = 1 ∨ d.mitState g = 3) :
    d.sparesScheduler (d.mitLine g mean rms peak gdiff) (lineResultRegs g) ∧
      (d.mitLine g mean rms peak gdiff).rf CNV_MITCNT_PASS g = d.passCount g ((d.getMit g).passes mean rms peak) ∧
      (d.mitLine g mean rms peak gdiff).rf CNV_MITCNT_RMS g = min rms 4095 ∧
      ((d.mitLine g mean rms peak gdiff).getMit g).equal = ((d.getMit g).passes mean rms peak &&
        ((d.getMit g).equal || decide ((d.getMit g).eqLines ≤ d.passCount g ((d.getMit g).passes mean rms peak)))) := by
  rw [d.mitLine_eq mean rms peak gdiff h]
  generalize (d.getMit g).passes mean rms peak = pass
  have hcmp := Dev.sparesScheduler_lineCompared (d := d) hg mean rms pass
  have hadj := Dev.sparesScheduler_mitAdjust hg (d.lineCompared g mean rms pass) mean gdiff
  obtain ⟨hpass, hrms⟩ := Dev.lineCompared_shows hg d mean rms pass
  refine ⟨(hcmp.mono (by simp [lineResultRegs])).trans (hadj.mono (by simp [lineResultRegs])), ?_, ?_, ?_⟩
  · rw [hadj.regs.rf (by omega) (by simp [CNV_MITCNT_PASS]), hpass]
  · rw [hadj.regs.rf (by omega) (by simp [CNV_MITCNT_RMS]), hrms]
  · rw [Dev.mitAdjust_getMit, Dev.lineCompared, Dev.getMit, Dev.setMit, Dev.setPcu_pcu, tget_tset_self]

theorem Dev.lineCompared_state (d : Dev) (mean : Int) (rms : Nat) (pass : Bool) :
    (d.lineCompared g mean rms pass).mitState g = d.mitState g :=
  (Dev.sparesScheduler_lineCompared (d := d) hg mean rms pass).regs.rf (f := CNV_MIT_STATE) (by omega) (by simp [CNV_MIT_STATE])

/-- In SHADOW the mitten's coefficients take all of the difference, as far as their fields reach (R118, log 55). -/
theorem Dev.mitLine_shadow (mean : Int) (rms peak : Nat) (gdiff : Int) (h : d.mitState g = 1) :
    coefOfs (d.mitLine g mean rms peak gdiff).regs (sliceIdx g 12) =
        clampI (-2048) 2047 (coefOfs d.regs (sliceIdx g 12) + mean) ∧
      coefGain (d.mitLine g mean rms peak gdiff).regs (sliceIdx g 12) =
        clampI (-32768) 32767 (coefGain d.regs (sliceIdx g 12) - gdiff) := by
  have hi : sliceIdx g 12 < 65536 := by unfold sliceIdx; omega
  rw [d.mitLine_eq mean rms peak gdiff (.inl h), Dev.mitAdjust_shadow _ _ _ ((Dev.lineCompared_state hg d _ _ _).trans h),
    Dev.putCoef_ofs _ hi, Dev.putCoef_gain]
  obtain ⟨hofs, hgain⟩ := Dev.lineCompared_coef hg d mean rms ((d.getMit g).passes mean rms peak) hi
  rw [hofs, hgain]
  exact ⟨rfl, rfl⟩

/-- In RETURN they move by 1 and by 4 at most (R118). -/
theorem Dev.mitLine_return (mean : Int) (rms peak : Nat) (gdiff : Int) (h : d.mitState g = 3) :
    (coefOfs (d.mitLine g mean rms peak gdiff).regs (sliceIdx g 12) - coefOfs d.regs (sliceIdx g 12)).natAbs ≤ 1 ∧
      (coefGain (d.mitLine g mean rms peak gdiff).regs (sliceIdx g 12) - coefGain d.regs (sliceIdx g 12)).natAbs ≤ 4 := by
  have hi : sliceIdx g 12 < 65536 := by unfold sliceIdx; omega
  rw [d.mitLine_eq mean rms peak gdiff (.inr h), Dev.mitAdjust_return _ _ _ ((Dev.lineCompared_state hg d _ _ _).trans h),
    Dev.putCoef_ofs _ hi, Dev.putCoef_gain]
  obtain ⟨hofs, hgain⟩ := Dev.lineCompared_coef hg d mean rms ((d.getMit g).passes mean rms peak) hi
  rw [hofs, hgain, sub_eq_add_neg (coefGain d.regs _)]
  have ho := coefOfs_range d.regs (sliceIdx g 12)
  have hg' := coefGain_range d.regs (sliceIdx g 12)
  exact ⟨natAbs_clampI_step 1 _ ho.1 ho.2 (natAbs_clampI_le 1 mean),
    natAbs_clampI_step 4 _ hg'.1 hg'.2 (by rw [Int.natAbs_neg]; exact natAbs_clampI_le 4 gdiff)⟩

/-- MAXLN lines in SHADOW without equality: the mitten is idle again, and the item ends with TIMEOUT and reason 9 (R122, R155). -/
theorem Dev.mitMaxln_shadow (hlines : 4096 ≤ d.rf CNV_MIT_LINES g) (hequal : (d.getMit g).equal = false)
    (hst : d.mitState g = 1) (hcmds : d.cal.cmds = []) :
    d.sparesScheduler (d.mitMaxln g) [(.CNV_MIT, g), (.CNV_MITCNT, g), (.CAL_RSTAT, 1), (.CAL_RVAL, 1)] ∧
      (d.mitMaxln g).mitState g = 0 ∧ (d.mitMaxln g).mitSlice g = 15 ∧ (d.mitMaxln g).rf CAL_RSTAT_STATUS 1 = stTIMEOUT ∧
      (d.mitMaxln g).rf CAL_RSTAT_STAT 1 = 9 := by
  have heq : d.mitMaxln g = (d.mitIdle g).itemEnds 1 (sliceIdx g (d.mitSlice g)) stTIMEOUT 9 0 := by
    have hnot : ¬(d.rf CNV_MIT_LINES g < 4096 ∨ (d.getMit g).equal = true) := by simp [hequal]; omega
    simp only [Dev.mitMaxln, if_neg hnot, hst]
  have hidle := Dev.sparesScheduler_mitIdle hg d
  obtain ⟨hst', hsl'⟩ := d.mitIdle_shows hg
  obtain ⟨hend, hstatus, hstat⟩ := (d.mitIdle g).itemEnds_failed (kind := 1) (sliceIdx g (d.mitSlice g)) stTIMEOUT 9 0
    (by decide) ((congrArg Prod.fst hidle.asked).trans hcmds) (by decide)
  rw [heq]
  refine ⟨(hidle.mono (by simp [phaseRegs])).trans (hend.mono (by simp)), ?_, ?_, hstatus, hstat⟩
  · exact (hend.regs.rf (f := CNV_MIT_STATE) (by omega) (by simp [CNV_MIT_STATE])).trans hst'
  · exact (hend.regs.rf (f := CNV_MIT_SLICE) (by omega) (by simp [CNV_MIT_SLICE])).trans hsl'

/-- A good reference calibration in COVER: the coefficients are held aside and the quality is shown (R121). -/
theorem Dev.sliceRefDone_good (hst : d.mitState g = 2) (c : Coef) (resid spur : Nat) :
    d.sparesScheduler (d.sliceRefDone g true c resid spur) [(.CNV_SQUAL, sliceIdx g (d.mitSlice g))] ∧
      ((d.sliceRefDone g true c resid spur).getMit g).held = some c ∧
      (d.sliceRefDone g true c resid spur).rf CNV_SQUAL_RESID (sliceIdx g (d.mitSlice g)) = resid % 2 ^ 16 ∧
      (d.sliceRefDone g true c resid spur).rf CNV_SQUAL_SPUR (sliceIdx g (d.mitSlice g)) = spur % 2 ^ 16 := by
  have hs := d.mitSlice_lt g
  have heq : d.sliceRefDone g true c resid spur = ((d.setMit g { d.getMit g with held := some c }).wf CNV_SQUAL_RESID
      (sliceIdx g (d.mitSlice g)) resid).wf CNV_SQUAL_SPUR (sliceIdx g (d.mitSlice g)) spur := by
    simp only [Dev.sliceRefDone, hst, ne_eq, not_true_eq_false, if_false, if_true]
  have hi : sliceIdx g (d.mitSlice g) < 65536 := by unfold sliceIdx; omega
  rw [heq]
  refine ⟨(((d.sparesScheduler_refl _).setMit _ _).wf CNV_SQUAL_RESID _ hi (by simp [CNV_SQUAL_RESID])).wf CNV_SQUAL_SPUR _ hi
    (by simp [CNV_SQUAL_SPUR]), ?_, ?_, ?_⟩
  · rw [Dev.getMit, Dev.wf_pcu, Dev.wf_pcu, Dev.setMit, Dev.setPcu_pcu, tget_tset_self]
  · rw [Dev.rf_wf_bits _ CNV_SQUAL_SPUR CNV_SQUAL_RESID _ _ rfl (by decide) (by decide), Dev.rf_wf_self _ _ _ _ (by decide)]
    rfl
  · rw [Dev.rf_wf_self _ _ _ _ (by decide)]
    rfl

/-- A bad one: the slice is FAILED, the mitten stays in its place, and the item ends with BAD_STATE (R122, R125). -/
theorem Dev.sliceRefDone_bad (hst : d.mitState g = 2) (hauto : d.on CAL_STORECFG_AUTO 0 = false) (hcmds : d.cal.cmds = [])
    (c : Coef) (resid spur : Nat) :
    d.sparesScheduler (d.sliceRefDone g false c resid spur)
        [(.CNV_SSTAT, sliceIdx g (d.mitSlice g)), (.CNV_MIT, g), (.CNV_MITCNT, g), (.CAL_RSTAT, 1), (.CAL_RVAL, 1)] ∧
      (d.sliceRefDone g false c resid spur).on CNV_SSTAT_FAILED (sliceIdx g (d.mitSlice g)) = true ∧
      (d.sliceRefDone g false c resid spur).mitState g = 4 ∧
      (d.sliceRefDone g false c resid spur).mitSlice g = d.mitSlice g ∧
      (d.sliceRefDone g false c resid spur).rf CAL_RSTAT_STATUS 1 = stBAD_STATE := by
  have hs := d.mitSlice_lt g
  have heq : d.sliceRefDone g false c resid spur =
      (d.sliceFails g (d.mitSlice g)).itemEnds 1 (sliceIdx g (d.mitSlice g)) stBAD_STATE 10 0 := by
    simp only [Dev.sliceRefDone, hst, ne_eq, not_true_eq_false, if_false, Bool.false_eq_true]
  have hi : sliceIdx g (d.mitSlice g) < 65536 := by unfold sliceIdx; omega
  obtain ⟨hfail, hfailed, hst', hsl'⟩ := d.sliceFails_leaves hg hs (by omega) hauto
  have hcmds' : (d.sliceFails g (d.mitSlice g)).cal.cmds = [] := (congrArg Prod.fst hfail.asked).trans hcmds
  obtain ⟨hend, hstatus, -⟩ := (d.sliceFails g (d.mitSlice g)).itemEnds_failed (kind := 1) (sliceIdx g (d.mitSlice g))
    stBAD_STATE 10 0 (by decide) hcmds' (by decide)
  rw [heq]
  refine ⟨(hfail.mono (by simp [phaseRegs])).trans (hend.mono (by simp)), ?_, ?_, ?_, hstatus⟩
  · rw [hend.regs.on hi (by simp [CNV_SSTAT_FAILED]), hfailed]
  · exact (hend.regs.rf (f := CNV_MIT_STATE) (by omega) (by simp [CNV_MIT_STATE])).trans hst'
  · exact (hend.regs.rf (f := CNV_MIT_SLICE) (by omega) (by simp [CNV_MIT_SLICE])).trans hsl'

/-- A passing set of an idle head in SHADOW hands the slice over at once (R120, R123). -/
theorem Dev.mitIdleSet_handover (hquiet : d.mitQuiet g = true) (hst : d.mitState g = 1) (mean : Int) (rms peak : Nat)
    (hpass : (d.getMit g).passes mean rms peak = true) :
    d.sparesScheduler (d.mitIdleSet g mean rms peak)
        [(.CNV_SSTAT, sliceIdx g (d.mitSlice g)), (.CNV_MIT, g), (.CNV_MITCNT, g)] ∧
      (d.mitIdleSet g mean rms peak).mitState g = 2 ∧ (d.mitIdleSet g mean rms peak).mitSlice g = d.mitSlice g ∧
      (d.mitIdleSet g mean rms peak).on CNV_SSTAT_COVERED (sliceIdx g (d.mitSlice g)) = true := by
  have hs := d.mitSlice_lt g
  have heq : d.mitIdleSet g mean rms peak = (d.deliverBy g (d.mitSlice g) true).mitPhase g 2 (d.mitSlice g) := by
    simp [Dev.mitIdleSet, hquiet, hst, hpass, Dev.handover]
  have hi : sliceIdx g (d.mitSlice g) < 65536 := by unfold sliceIdx; omega
  have hdel := Dev.sparesScheduler_deliverBy hg d hs true
  have hphase := Dev.sparesScheduler_mitPhase hg (d.deliverBy g (d.mitSlice g) true) 2 (d.mitSlice g)
  obtain ⟨hst', hsl'⟩ := (d.deliverBy g (d.mitSlice g) true).mitPhase_shows hg (st := 2) (by decide) hs
  rw [heq]
  refine ⟨(hdel.mono (by simp)).trans (hphase.mono (by simp [phaseRegs])), hst', hsl', ?_⟩
  rw [hphase.regs.on hi (by simp [phaseRegs, CNV_SSTAT_COVERED]), Dev.deliverBy, Dev.on_wf_b2n _ _ _ _ (by decide) (by decide)]

end

/-- Settles O23: each row does what `Dev.mitLine`, `Dev.mitMaxln`, `Dev.sliceRefDone` and `Dev.mitIdleSet` come to, and the
scheduler, with nothing to start, adds nothing. -/
theorem mittenRotation : Obligations.MittenRotation := by
  intro s g hg hidle hgroup m i
  have hcmds : s.dev.cal.cmds = [] := hidle.2.2.1
  refine ⟨fun mean rms peak gdiff hst => ?_, fun hlines hequal hst => ?_, fun ofs gain apt resid spur hst =>
    ⟨?_, fun hauto => ?_⟩, fun mean rms peak hquiet hst hpass => ?_⟩
  · obtain ⟨hspares, hcount, hrms, hequal⟩ := Dev.mitLine_shows hg mean rms peak gdiff hst
    refine ⟨_, State.calGroupRow_idle hidle hgroup hspares (by simp [lineResultRegs]), ⟨⟨rfl, rfl⟩, hspares.regs⟩, hcount, hrms,
      Dev.mitLine_shadow hg mean rms peak gdiff, Dev.mitLine_return hg mean rms peak gdiff, hequal.trans ?_⟩
    cases m.passes mean rms peak <;> rfl
  · obtain ⟨hspares, hshows⟩ := Dev.mitMaxln_shadow hg hlines hequal hst hcmds
    exact ⟨_, State.calGroupRow_idle hidle hgroup hspares (by simp), ⟨⟨rfl, rfl⟩, hspares.regs⟩, hshows⟩
  · obtain ⟨hspares, hshows⟩ := Dev.sliceRefDone_good hg hst ⟨ofs, gain, apt⟩ resid spur
    exact ⟨_, State.calGroupRow_idle hidle hgroup hspares (by simp), ⟨⟨rfl, rfl⟩, hspares.regs⟩, hshows⟩
  · obtain ⟨hspares, hshows⟩ := Dev.sliceRefDone_bad hg hst hauto hcmds ⟨ofs, gain, apt⟩ resid spur
    exact ⟨_, State.calGroupRow_idle hidle hgroup hspares (by simp), ⟨⟨rfl, rfl⟩, hspares.regs⟩, hshows⟩
  · obtain ⟨hspares, hshows⟩ := Dev.mitIdleSet_handover hg hquiet hst mean rms peak hpass
    exact ⟨_, State.calGroupRow_idle hidle hgroup hspares (by simp), ⟨⟨rfl, rfl⟩, hspares.regs⟩, hshows⟩

end Sys2Proof.Machine
end

section
/-! SUPPORT. The correction tables: what an entry reads as after each change of them, and writes of a target. -/

namespace Sys2Proof.Machine

/-! Changes of the tables -/

@[simp] theorem Dev.setTab_tables (d : Dev) (f : Tables → Tables) : (d.setTab f).pcu.tables = f d.pcu.tables := rfl

@[simp] theorem Dev.setTab_work (d : Dev) (f : Tables → Tables) : (d.setTab f).pcu.work = d.pcu.work := rfl

@[simp] theorem Dev.setTab_regs (d : Dev) (f : Tables → Tables) : (d.setTab f).regs = d.regs := rfl

@[simp] theorem Dev.setTab_rf (d : Dev) (f : Tables → Tables) (g : Fld) (i : Nat) : (d.setTab f).rf g i = d.rf g i := rfl

theorem Dev.pctTarget_putTarget (d : Dev) (i v j : Nat) :
    (d.putTarget true i v).pctTarget j = if j = i then v else d.pctTarget j := by
  simp only [Dev.pctTarget, Dev.putTarget, Dev.setTab_tables, if_true]
  split
  · next h => rw [h, tget_tset_self]
  · next h => exact tget_tset_ne _ _ _ _ h

theorem Dev.pttTarget_putTarget (d : Dev) (i v j : Nat) :
    (d.putTarget false i v).pttTarget j = if j = i then v % 256 else d.pttTarget j := by
  simp only [Dev.pttTarget, Dev.putTarget, Dev.setTab_tables, Bool.false_eq_true, if_false]
  split
  · next h => rw [h, tget_tset_self]
  · next h => exact tget_tset_ne _ _ _ _ h

/-- With no TSYNC copy under way there is nothing to catch up on. -/
theorem Dev.tsyncCatch_none {d : Dev} (h : d.pcu.tables.tsync = []) : d.tsyncCatch = d := by
  rw [Dev.tsyncCatch, h]; rfl

/-! A target write that enters -/

section

variable {d : Dev} {w : TabWrite}

theorem Dev.enterTarget_pct (hsync : d.pcu.tables.tsync = []) (hpct : w.pct = true) :
    d.enterTarget w = d.putTarget true w.idx w.val := by
  simp only [Dev.enterTarget, Dev.tsyncCatch_none hsync, hpct, if_true]

/-- A PTT word is four entries (R127). -/
theorem Dev.enterTarget_ptt (hsync : d.pcu.tables.tsync = []) (hpct : w.pct = false) :
    d.enterTarget w = (((d.putTarget false w.idx (w.val / 2 ^ 0 % 256)).putTarget false (w.idx + 1) (w.val / 2 ^ 8 % 256)).putTarget
      false (w.idx + 2) (w.val / 2 ^ 16 % 256)).putTarget false (w.idx + 3) (w.val / 2 ^ 24 % 256) := by
  simp only [Dev.enterTarget, Dev.tsyncCatch_none hsync, hpct, Bool.false_eq_true, if_false]
  rfl

theorem Dev.pttTarget_enterTarget (hsync : d.pcu.tables.tsync = []) (hpct : w.pct = false) :
    (∀ n, n < 4 → (d.enterTarget w).pttTarget (w.idx + n) = w.val / 2 ^ (8 * n) % 256) ∧
      ∀ j, j < w.idx ∨ w.idx + 4 ≤ j → (d.enterTarget w).pttTarget j = d.pttTarget j := by
  rw [Dev.enterTarget_ptt hsync hpct]
  simp only [Dev.pttTarget_putTarget, Nat.mod_mod]
  refine ⟨fun n hn => ?_, fun j hj => ?_⟩
  · interval_cases n <;> simp
  · rw [if_neg (by omega), if_neg (by omega), if_neg (by omega), if_neg (by omega)]

/-- A write of one table leaves the other table's targets and both live copies. -/
theorem Dev.enterTarget_others (hsync : d.pcu.tables.tsync = []) :
    (d.enterTarget w).regs = d.regs ∧ (d.enterTarget w).pcu.tables.pctL = d.pcu.tables.pctL ∧
      (d.enterTarget w).pcu.tables.pttL = d.pcu.tables.pttL ∧
      (w.pct = true → (d.enterTarget w).pcu.tables.pttT = d.pcu.tables.pttT) ∧
      (w.pct = false → (d.enterTarget w).pcu.tables.pctT = d.pcu.tables.pctT) := by
  cases hp : w.pct with
  | true =>
    rw [Dev.enterTarget_pct hsync hp]
    exact ⟨rfl, rfl, rfl, fun _ => rfl, Bool.noConfusion⟩
  | false =>
    rw [Dev.enterTarget_ptt hsync hp]
    exact ⟨rfl, rfl, rfl, Bool.noConfusion, fun _ => rfl⟩

end

/-! A target write that is accepted -/

section

variable {d : Dev} {w : TabWrite}

/-- Held writes of the same target give way to one that is applied (R128). -/
def Dev.stagedDropped (d : Dev) (w : TabWrite) : Dev :=
  d.setTab (fun t => { t with staged := t.staged.filter (fun x => !(decide (x.pct = w.pct) && decide (x.idx = w.idx))) })

theorem Dev.tableAccept_free (h : d.heldWrite w.pct w.idx = none) : d.tableAccept w = (d.stagedDropped w).enterTarget w := by
  rw [Dev.tableAccept, h]; rfl

theorem Dev.tableAccept_held {c n : Nat} (h : d.heldWrite w.pct w.idx = some (c, n)) : d.tableAccept w =
    d.setTab (fun t => { t with staged := t.staged ++ [{ w with chan := some c, line := n }] }) := by
  rw [Dev.tableAccept, h]

theorem Dev.tableFull_free {pct : Bool} {i : Nat} (h : d.heldWrite pct i = none) : d.tableFull pct i = false := by
  simp [Dev.tableFull, h]

theorem Dev.tableFull_room {pct : Bool} {i : Nat} (h : (d.stagedOf (i / 12288)).length < 256) : d.tableFull pct i = false := by
  simp [Dev.tableFull, h]

/-- A write with a place, where no write waits, is accepted at once. -/
theorem Dev.tableWrite_room {pct : Bool} {i : Nat} (v : Nat) (packet : Bool) (hfull : d.tableFull pct i = false)
    (hwait : d.pcu.tables.waiting = []) : d.tableWrite pct i v packet = d.tableAccept (.of pct i v packet) := by
  simp [Dev.tableWrite, hfull, Dev.tableBehind, hwait]

/-- The only write that waits proceeds when nothing holds it. -/
theorem Dev.tableResume_free (hwait : d.pcu.tables.waiting = [w]) (hfree : d.heldWrite w.pct w.idx = none) :
    d.tableResume (w.idx / 12288) = (d.setTab (fun t => { t with waiting := [] })).tableAccept w := by
  simp [Dev.tableResume, hwait, Dev.tableFull_free hfree, Dev.setTab, Dev.setPcu]

end

/-! The rows of target writes -/

/-- The table window of an aligned target. -/
theorem target_tableAddr {pct : Bool} {i : Nat} (hi : i < 98304) (hal : pct = false → i % 4 = 0) :
    tableAddr pct i % 4 = 0 ∧ target (tableAddr pct i) = if pct then .pctT i else .pttT i := by
  cases pct with
  | true =>
    refine ⟨by simp only [tableAddr, if_true]; omega, ?_⟩
    simp only [tableAddr, target, if_true]
    rw [if_neg (by omega), if_pos (by omega), show (0x01000000 + 4 * i - 0x01000000) / 4 = i by omega]
  | false =>
    have := hal rfl
    refine ⟨by simp only [tableAddr, Bool.false_eq_true, if_false]; omega, ?_⟩
    simp only [tableAddr, target, Bool.false_eq_true, if_false]
    rw [if_neg (by omega), if_neg (by omega), if_neg (by omega), if_pos (by omega),
      Nat.add_sub_cancel_left]

section

variable {s : State} {pct : Bool} {i : Nat} (v : Word) (hi : i < 98304) (hal : pct = false → i % 4 = 0)
include hi hal

/-- A write of a table window that is not refused, on either path. -/
theorem exec_tableTargetWrite {pth : Path} (ht : s.dev.takes pth) (hopen : s.dev.tableOpen i = true)
    (hgood : pct = true → pctWriteBad v.toNat = false) : exec (.tableTargetWrite pth pct i v) s =
      .next (s.onDev (fun d => d.tableWrite pct i v.toNat (decide (pth = .kweave)))) := by
  obtain ⟨hmod, htarget⟩ := target_tableAddr hi hal
  show Host.Outcome.next (s.pathWrite pth (tableAddr pct i) v.toNat .clean) = _
  refine congrArg _ ?_
  cases pth with
  | direct =>
    rw [State.pathWrite, State.hostDoes_awake _ _ ht]
    cases pct <;> simp [State.directWrite, hmod, htarget, State.onDev, hopen, hgood]
  | kweave =>
    have hv := maskedValue_all s (tableAddr pct i) v.toNat .clean v.isLt
    norm_num at hv
    have hf : s.dev.pktWriteFault (tableAddr pct i) v.toNat = none := by
      cases pct <;> simp [Dev.pktWriteFault, Dev.addressFault, hmod, htarget, hopen, hgood]
    have ht' : s.dev.managementOn = true := ht
    cases pct <;> simp [State.pathWrite, ht', State.managementWrite, State.groupRun, hv, hf, State.pktWrite, htarget]

/-- A direct write of a PCT value with more than one replacement bit is only counted (R132, R433). -/
theorem exec_tableTargetWrite_bad (ht : s.dev.takes .direct) (hopen : s.dev.tableOpen i = true) (hpct : pct = true)
    (hbad : pctWriteBad v.toNat = true) : exec (.tableTargetWrite .direct pct i v) s =
      .next (s.onDev (fun d => d.counted .value .direct (tableAddr pct i))) := by
  obtain ⟨hmod, htarget⟩ := target_tableAddr hi hal
  show Host.Outcome.next (s.pathWrite .direct (tableAddr pct i) v.toNat .clean) = _
  rw [State.pathWrite, State.hostDoes_awake _ _ ht]
  subst hpct
  simp [State.directWrite, hmod, htarget, State.onDev, hopen, hbad]

end

theorem exec_tableWriteResume {s : State} {g : Nat} {d : Dev} (hopen : s.dev.tableOpen (12288 * g) = true)
    (hres : s.dev.tableResume g = d) (hcur : d.kw.cur = none) :
    exec (.tableWriteResume g) s = .next (s.onDev (fun _ => d)) := by
  show Host.Outcome.next (if s.dev.tableOpen (12288 * g) then (s.onDev (fun d => d.tableResume g)).owedReply else s) = _
  rw [if_pos hopen, State.owedReply, State.onDev_dev, hres, hcur]
  simp only [State.onDev, hres]

end Sys2Proof.Machine
end

section
/-! SUPPORT. The fetch of a table entry: the errors it meets, the values it takes, and what it leaves. -/

namespace Sys2Proof.Machine

/-! The errors of a fetch -/

/-- Table index of the entry that a fetch on a channel takes next. -/
def Fetch.entry (f : Fetch) (c : Nat) : Nat := tabIdx (c / 12) (f.base + f.next)

/-- Nothing of what a fetch takes values from and puts them into changes: both copies, the fetches, and the lines being
converted. -/
structure Dev.sameEntries (d e : Dev) : Prop where
  pctT : e.pcu.tables.pctT = d.pcu.tables.pctT
  pctL : e.pcu.tables.pctL = d.pcu.tables.pctL
  pttT : e.pcu.tables.pttT = d.pcu.tables.pttT
  pttL : e.pcu.tables.pttL = d.pcu.tables.pttL
  fetch : e.pcu.tables.fetch = d.pcu.tables.fetch
  work : e.pcu.work = d.pcu.work

section

variable {d e e' : Dev}

theorem Dev.sameEntries.trans (h : d.sameEntries e) (h' : e.sameEntries e') : d.sameEntries e' :=
  ⟨h'.pctT.trans h.pctT, h'.pctL.trans h.pctL, h'.pttT.trans h.pttT, h'.pttL.trans h.pttL, h'.fetch.trans h.fetch,
    h'.work.trans h.work⟩

theorem Dev.sameEntries_of_pcu (h : e.pcu = d.pcu) : d.sameEntries e := by constructor <;> rw [h]

theorem Dev.sameEntries.target (h : d.sameEntries e) (i : Nat) : e.pctTarget i = d.pctTarget i ∧ e.pttTarget i = d.pttTarget i := by
  rw [Dev.pctTarget, h.pctT, Dev.pttTarget, h.pttT]
  exact ⟨rfl, rfl⟩

theorem Dev.sameEntries.live (h : d.sameEntries e) (i : Nat) : e.pctLive i = d.pctLive i ∧ e.pttLive i = d.pttLive i := by
  rw [Dev.pctLive, h.pctL, Dev.pttLive, h.pttL]
  exact ⟨rfl, rfl⟩

theorem Dev.sameEntries.fetchesOf (h : d.sameEntries e) (c : Nat) : e.fetchesOf c = d.fetchesOf c := by
  rw [Dev.fetchesOf, h.fetch, Dev.fetchesOf]

theorem Dev.sameEntries.workOf (h : d.sameEntries e) (n : Nat) : e.workOf n = d.workOf n := by
  rw [Dev.workOf, h.work, Dev.workOf]

end

/-- The errors of an entry are counted, reported, and kept (R131). -/
def Dev.fetchErrs (d : Dev) (c : Nat) (f : Fetch) (e : TableEcc) : Dev :=
  let i := f.entry c
  let read := if f.bypass then [e.pttLive, e.pttTarget] else [e.pctLive, e.pctTarget, e.pttLive, e.pttTarget]
  let d := read.foldl (fun d x => d.eccCount (c / 12) x) d
  let d := if read.contains .double then d.tableFault (c / 12) (headOf c) f.line (f.base + f.next) else d
  let d := if f.bypass = false ∧ e.pctTarget = .double then d.targetBad true i else d
  if e.pttTarget = .double then d.targetBad false i else d

/-- A report changes no entry and no register. -/
theorem Dev.tableFault_leaves (d : Dev) (g h num j : Nat) : (d.tableFault g h num j).regs = d.regs ∧
    d.sameEntries (d.tableFault g h num j) ∧ (d.tableFault g h num j).pcu.tables.badPct = d.pcu.tables.badPct ∧
    (d.tableFault g h num j).pcu.tables.badPtt = d.pcu.tables.badPtt := by
  unfold Dev.tableFault
  dsimp only
  split
  · exact ⟨rfl, Dev.sameEntries_of_pcu rfl, rfl, rfl⟩
  · simp only [Dev.post_regs, Dev.post_pcu]
    exact ⟨rfl, ⟨by simp, by simp, by simp, by simp, by simp, by simp⟩, rfl, rfl⟩

theorem Dev.sameEntries_targetBad (d : Dev) (i : Nat) : d.sameEntries (d.targetBad true i) := ⟨rfl, rfl, rfl, rfl, rfl, rfl⟩

section

variable (d : Dev) (c : Nat) (f : Fetch)

theorem Dev.fetchErrs_clean : d.fetchErrs c f .clean = d := by
  cases hb : f.bypass <;> simp [Dev.fetchErrs, hb, TableEcc.clean, Dev.eccCount]

variable (hbypass : f.bypass = false)
include hbypass

/-- Both live copies uncorrectable: two errors are counted for the group. -/
theorem Dev.fetchErrs_live : d.fetchErrs c f ⟨.double, .clean, .double, .clean⟩ =
    ((d.inc PCU_ECCCNT_DBE (c / 12) 1).inc PCU_ECCCNT_DBE (c / 12) 1).tableFault (c / 12) (headOf c) f.line (f.base + f.next) := by
  simp [Dev.fetchErrs, hbypass, Dev.eccCount]

/-- An uncorrectable PCT target: one error is counted, and the target is kept as such. -/
theorem Dev.fetchErrs_target : d.fetchErrs c f ⟨.clean, .double, .clean, .clean⟩ =
    ((d.inc PCU_ECCCNT_DBE (c / 12) 1).tableFault (c / 12) (headOf c) f.line (f.base + f.next)).targetBad true
      (f.entry c) := by
  simp [Dev.fetchErrs, hbypass, Dev.eccCount]

end

theorem Dev.inc_inc_counts (d : Dev) (f : Fld) (i : Nat) (h : f.lsb + f.width ≤ 32) :
    d.counts ((d.inc f i 1).inc f i 1) f i 2 := by
  rw [Dev.counts, Dev.rf_inc_self _ _ _ _ h, Dev.rf_inc_self _ _ _ _ h]
  omega

/-! The values of a fetch -/

/-- The PCT value that a fetch takes (R129, R131, R135). -/
def Dev.fetchedPct (d : Dev) (c : Nat) (f : Fetch) (e : TableEcc) (sl : Nat) : Nat :=
  let i := f.entry c
  if f.bypass ∨ d.pcu.tables.badPct.contains i = true then d.pctLive i
  else if e.pctLive = .double then d.targetFor true i c f.line
  else slewPct (d.pctLive i) (d.targetFor true i c f.line) sl

/-- The PTT value that a fetch takes. -/
def Dev.fetchedPtt (d : Dev) (c : Nat) (f : Fetch) (e : TableEcc) (sl : Nat) : Nat :=
  let i := f.entry c
  if d.pcu.tables.badPtt.contains i then d.pttLive i
  else if e.pttLive = .double then d.targetFor false i c f.line
  else slewPtt (d.pttLive i) (d.targetFor false i c f.line) sl

/-- The entry was lost: its pixel is converted with neutral values (R131). -/
def Fetch.lost (f : Fetch) (e : TableEcc) : Bool := (!f.bypass && decide (e.pctLive = .double)) || decide (e.pttLive = .double)

/-- The line keeps the values for pixel `k` of a channel. -/
def LineWork.withEntry (w : LineWork) (c k pct ptt : Nat) (lost : Bool) : LineWork :=
  { w with
    ents := tset w.ents neutralPct (pixKey c k) (if lost then neutralPct else pct)
    trims := tset w.trims 0 (pixKey c k) (if lost then 0 else ptt) }

/-- The values are kept for the line and put into the live copies, and the fetch moves on. -/
def Dev.fetchPut (d : Dev) (c : Nat) (f : Fetch) (pct ptt : Nat) (lost : Bool) : Dev :=
  let i := f.entry c
  let d := d.setTab (fun t => { t with pctL := tset t.pctL neutralPct i pct, pttL := tset t.pttL 0 i ptt })
  let d := d.setFetches c ((d.fetchesOf c).map (fun x => if x.line = f.line then { f with next := f.next + 1 } else x))
  d.updWork (headOf c) f.line (fun w => w.withEntry c f.next pct ptt lost)

section

variable {d : Dev} {c : Nat} {f : Fetch}

/-- A fetch that has not come to its last entry: the errors, the values, and their places. -/
theorem Dev.fetchOne_eq (e : TableEcc) (hsync : d.pcu.tables.tsync = []) (hmore : f.next + 1 < f.len) :
    d.fetchOne c f e = (d.fetchErrs c f e).fetchPut c f ((d.fetchErrs c f e).fetchedPct c f e (d.rf CAL_SLEW_SL 0))
      ((d.fetchErrs c f e).fetchedPtt c f e (d.rf CAL_SLEW_SL 0)) (f.lost e) := by
  unfold Dev.fetchOne
  simp only [Dev.tsyncCatch_none hsync, if_pos hmore]
  rfl

theorem Dev.fetchEntry_eq (e : TableEcc) (hfetch : d.fetchesOf c = [f]) (hdue : f.due d.t = true) :
    d.fetchEntry c e = d.fetchOne c f e := by simp [Dev.fetchEntry, hfetch, hdue]

/-- With no earlier fetch on the channel, the target in force is the target itself. -/
theorem Dev.targetFor_only (hfetch : d.fetchesOf c = [f]) (pct : Bool) (i : Nat) :
    d.targetFor pct i c f.line = if pct then d.pctTarget i else d.pttTarget i := by
  have hnone : d.stagedFor pct i (fun w => decide (w.chan = some c) && ([] : List Fetch).any (fun f => decide (f.line = w.line))) = none := by
    simp [Dev.stagedFor]
  simp only [Dev.targetFor, hfetch, List.takeWhile_cons, ne_eq, not_true_eq_false, decide_false, Bool.false_eq_true, if_false, hnone,
    Option.getD_none]

end

/-- An entry has been taken with these values: both live copies have them and the line keeps them, every other entry and every
target stays, and the fetch has moved on by one. -/
structure Dev.takesEntry (d t : Dev) (c : Nat) (f : Fetch) (pct ptt : Nat) (lost : Bool) : Prop where
  others : ∀ j, j ≠ f.entry c → t.pctLive j = d.pctLive j ∧ t.pttLive j = d.pttLive j
  targets : ∀ j, t.pctTarget j = d.pctTarget j ∧ t.pttTarget j = d.pttTarget j
  moved : t.fetchesOf c = [{ f with next := f.next + 1 }]
  pctLive : t.pctLive (f.entry c) = pct
  pttLive : t.pttLive (f.entry c) = ptt
  kept : ∀ w, d.workOf (headOf c) = [w] → w.line.num = f.line → ∃ w', t.workOf (headOf c) = [w'] ∧ w'.line = w.line ∧
    tget w'.ents neutralPct (pixKey c f.next) = (if lost then neutralPct else pct) ∧
    tget w'.trims 0 (pixKey c f.next) = if lost then 0 else ptt

section

variable {d : Dev} {c : Nat} {f : Fetch}

theorem Dev.fetchPut_takes (hfetch : d.fetchesOf c = [f]) (pct ptt : Nat) (lost : Bool) :
    d.takesEntry (d.fetchPut c f pct ptt lost) c f pct ptt lost where
  others _ hj := ⟨tget_tset_ne _ _ _ _ hj, tget_tset_ne _ _ _ _ hj⟩
  targets _ := ⟨rfl, rfl⟩
  moved := by
    refine (tget_tset_self _ _ _ _).trans ((congrArg (List.map _) hfetch).trans ?_)
    rw [List.map_singleton, if_pos rfl]
  pctLive := tget_tset_self _ _ _ _
  pttLive := tget_tset_self _ _ _ _
  kept w hwork hline := by
    refine ⟨w.withEntry c f.next pct ptt lost, ?_, rfl, tget_tset_self _ _ _ _, tget_tset_self _ _ _ _⟩
    refine (tget_tset_self _ _ _ _).trans ((congrArg (List.map _) hwork).trans ?_)
    rw [List.map_singleton, if_pos hline]

/-- Errors that leave the entries leave what has been taken. -/
theorem Dev.takesEntry.of_same {e t : Dev} {pct ptt : Nat} {lost : Bool} (h : e.takesEntry t c f pct ptt lost)
    (hsame : d.sameEntries e) : d.takesEntry t c f pct ptt lost where
  others j hj := ⟨(h.others j hj).1.trans (hsame.live j).1, (h.others j hj).2.trans (hsame.live j).2⟩
  targets j := ⟨(h.targets j).1.trans (hsame.target j).1, (h.targets j).2.trans (hsame.target j).2⟩
  moved := h.moved
  pctLive := h.pctLive
  pttLive := h.pttLive
  kept w hw := h.kept w ((hsame.workOf _).trans hw)

/-- An entry that is due and not the last of its fetch is taken, whatever its errors. -/
theorem Dev.fetchEntry_takes (x : TableEcc) (hsync : d.pcu.tables.tsync = []) (hfetch : d.fetchesOf c = [f])
    (hdue : f.due d.t = true) (hmore : f.next + 1 < f.len) (hsame : d.sameEntries (d.fetchErrs c f x)) :
    d.takesEntry (d.fetchEntry c x) c f ((d.fetchErrs c f x).fetchedPct c f x (d.rf CAL_SLEW_SL 0))
      ((d.fetchErrs c f x).fetchedPtt c f x (d.rf CAL_SLEW_SL 0)) (f.lost x) ∧
      (d.fetchEntry c x).regs = (d.fetchErrs c f x).regs ∧
      (d.fetchEntry c x).pcu.tables.badPct = (d.fetchErrs c f x).pcu.tables.badPct := by
  rw [Dev.fetchEntry_eq x hfetch hdue, Dev.fetchOne_eq x hsync hmore]
  exact ⟨(Dev.fetchPut_takes ((hsame.fetchesOf c).trans hfetch) _ _ _).of_same hsame, rfl, rfl⟩

variable {x : TableEcc} (sl : Nat)

theorem Dev.fetchedPct_bypass (h : f.bypass = true) : d.fetchedPct c f x sl = d.pctLive (f.entry c) := by
  simp [Dev.fetchedPct, h]

theorem Dev.fetchedPct_bad (h : f.entry c ∈ d.pcu.tables.badPct) :
    d.fetchedPct c f x sl = d.pctLive (f.entry c) := by simp [Dev.fetchedPct, h]

/-- A PCT entry that is good and not bypassed: one step, or the target at once where the live copy is uncorrectable. -/
theorem Dev.fetchedPct_good (hfetch : d.fetchesOf c = [f]) (hbypass : f.bypass = false)
    (hgood : f.entry c ∉ d.pcu.tables.badPct) : d.fetchedPct c f x sl =
      if x.pctLive = .double then d.pctTarget (f.entry c)
      else slewPct (d.pctLive (f.entry c)) (d.pctTarget (f.entry c)) sl := by
  simp [Dev.fetchedPct, hbypass, hgood, Dev.targetFor_only hfetch]

theorem Dev.fetchedPtt_good (hfetch : d.fetchesOf c = [f])
    (hgood : f.entry c ∉ d.pcu.tables.badPtt) : d.fetchedPtt c f x sl =
      if x.pttLive = .double then d.pttTarget (f.entry c)
      else slewPtt (d.pttLive (f.entry c)) (d.pttTarget (f.entry c)) sl := by
  simp [Dev.fetchedPtt, hgood, Dev.targetFor_only hfetch]

end

theorem exec_tableEntryFetch {s : State} {c : Nat} (x : TableEcc) (hgroup : s.dev.groupOn (c / 12) = true) :
    exec (.tableEntryFetch c x) s = .next (s.onDev (fun d => d.fetchEntry c x)) := by
  show Host.Outcome.next (s.onDev fun d => if d.groupOn (c / 12) then d.fetchEntry c x else d) = _
  simp [State.onDev, hgroup]

end Sys2Proof.Machine
end

section
/-! SUPPORT. TSYNC copies: their start, the entries they take, and their end (R130). -/

namespace Sys2Proof.Machine

/-! One bit of a field -/

theorem tbit_setBit_self (n b : Nat) (v : Bool) : tbit (setBit n b v) b = v := by
  rw [tbit_eq_testBit, setBit, testBit_setBits, if_pos (by omega), Nat.sub_self]
  cases v <;> rfl

theorem Dev.tbit_wbit_self (d : Dev) (f : Fld) (i : Nat) {b : Nat} (v : Bool) (hfit : f.lsb + f.width ≤ 32) (hb : b < f.width) :
    tbit ((d.wbit f i b v).rf f i) b = v := by
  rw [show (d.wbit f i b v).rf f i = (d.putF f i (setBit (d.rf f i) b v)).rf f i from rfl, Dev.rf_putF_self _ _ _ _ hfit,
    tbit_eq_testBit, Nat.testBit_mod_two_pow, decide_eq_true hb, Bool.true_and, ← tbit_eq_testBit, tbit_setBit_self]

theorem Dev.onlyRegs_wbit (d : Dev) (f : Fld) {i : Nat} (b : Nat) (v : Bool) (hi : i < 65536) :
    d.onlyRegs (d.wbit f i b v) [(f.kind, i)] :=
  fun _ _ hj hne => Dev.rreg_wreg_ne _ _ (by simpa using hne) hi hj

/-! Windows -/

theorem winTotal_cons (w : Nat × Nat) (l : List (Nat × Nat)) : winTotal (w :: l) = w.2 + winTotal l := by
  simp only [winTotal, ← List.sum_eq_foldl, List.map_cons, List.sum_cons]

/-- The entries of some windows are as many as the windows are long. -/
theorem winEntry_of_lt {l : List (Nat × Nat)} {n : Nat} (h : n < winTotal l) : ∃ j, winEntry l n = some j := by
  induction l generalizing n with
  | nil => exact absurd h (Nat.not_lt_zero n)
  | cons w l ih =>
    rw [winTotal_cons] at h
    by_cases hn : n < w.2
    · exact ⟨w.1 + n, if_pos hn⟩
    · obtain ⟨j, hj⟩ := ih (n := n - w.2) (by omega)
      exact ⟨j, (if_neg hn).trans hj⟩

/-- The window of a channel in force stays where the settings and the trigger of its head do. -/
theorem Dev.winRange_congr {d e : Dev} {l : List (RegKind × Nat)} {c : Nat} (hc : c < 65536) (hregs : d.onlyRegs e l)
    (hltg : e.ltg = d.ltg) (hwins : e.pcu.tables.wins = d.pcu.tables.wins) (harm : (.LTG_CTRL, headOf c) ∉ l)
    (hwin : (.PCU_WIN, c) ∉ l) : e.winRange c = d.winRange c := by
  have hshadow : e.shadowed (headOf c) = d.shadowed (headOf c) := by
    rw [Dev.shadowed, Dev.shadowed, hregs.on (f := LTG_CTRL_ARM) (by unfold headOf; omega) harm, Dev.getLtg, hltg, Dev.getLtg]
  rw [Dev.winRange, Dev.winRange, Dev.winOf, Dev.winOf, hshadow, hwins, hregs _ _ hc hwin]

/-! The start of a copy -/

theorem Dev.tsyncStart_windows {d : Dev} {h : Nat} (hwin : winTotal ((chansOf h).map d.winRange) ≠ 0) : d.tsyncStart h =
    (d.wbit PCU_TSYNC_HEADS 0 h true).setTab (fun t => { t with
      tsync := tset t.tsync none h (some ⟨(chansOf h).map d.winRange, 0, d.now⟩) }) := if_neg hwin

/-- The heads that a write of `PCU.TSYNC` with one bit set names. -/
theorem filter_heads_one {v o : Nat} {h : Nat} (hh : h < 24) (hv : bitsOf v 0 24 = 2 ^ h) (ho : tbit o h = false) :
    (List.range 24).filter (fun x => tbit v x && !(tbit o x)) = [h] := by
  have hbit (x : Nat) (hx : x < 24) : tbit v x = decide (x = h) := by
    have hb : (bitsOf v 0 24).testBit x = v.testBit x := by
      rw [bitsOf, Nat.testBit_mod_two_pow, decide_eq_true hx, Bool.true_and, Nat.pow_zero, Nat.div_one]
    rw [tbit_eq_testBit, ← hb, hv, Nat.testBit_two_pow]
    simp only [eq_comm]
  have hone : ∀ h < 24, (List.range 24).filter (fun x => decide (x = h)) = [h] := by decide
  rw [← hone h hh]
  refine List.filter_congr fun x hx => ?_
  rw [hbit x (List.mem_range.mp hx)]
  by_cases hxh : x = h
  · subst hxh; simp [ho]
  · simp [hxh]

/-- A write of `PCU.TSYNC` that names one head, whose copy does not run, starts it. -/
theorem Dev.afterWrite_tsync {o : Dev} (d : Dev) {v h : Nat} (hh : h < 24) (hv : bitsOf v 0 24 = 2 ^ h)
    (hoff : tbit (o.rf PCU_TSYNC_HEADS 0) h = false) : o.afterWrite d .PCU_TSYNC 0 v = d.tsyncStart h := by
  show ((List.range 24).filter (fun x => tbit v x && !(tbit (o.rf PCU_TSYNC_HEADS 0) x))).foldl (fun d x => d.tsyncStart x) d = _
  rw [filter_heads_one hh hv hoff, List.foldl_cons, List.foldl_nil]

theorem State.regWrite_tsync {s : State} {pth : Path} {v : Word} {h : Nat} (hh : h < 24) (hacc : s.accepts pth .PCU_TSYNC 0 v)
    (hv : carried v PCU_TSYNC_HEADS = 2 ^ h) (hoff : tbit (s.dev.rf PCU_TSYNC_HEADS 0) h = false) :
    s.regWrite pth .PCU_TSYNC 0 v = s.onDev (fun d => (d.writeAll .PCU_TSYNC 0 v.toNat).tsyncStart h) := by
  rw [State.regWrite_accepted s pth .PCU_TSYNC 0 v hacc (by decide)]
  show s.onDev (fun d => d.afterWrite (d.writeAll .PCU_TSYNC 0 v.toNat) .PCU_TSYNC 0 v.toNat) = _
  rw [State.onDev, Dev.afterWrite_tsync _ hh hv hoff, State.onDev]

/-! The entries of a copy -/

/-- The copy reaches table entry `i` with one of its next `n` entries. -/
def TsyncRun.reaches (r : TsyncRun) (g n i : Nat) : Prop :=
  ∃ k j, r.next ≤ k ∧ k < r.next + n ∧ winEntry r.wins k = some j ∧ tabIdx g j = i

/-- What a copy leaves alone: registers, targets, and which of them are uncorrectable. -/
structure Dev.keepsTargets (d e : Dev) : Prop where
  regs : e.regs = d.regs
  pctT : e.pcu.tables.pctT = d.pcu.tables.pctT
  pttT : e.pcu.tables.pttT = d.pcu.tables.pttT
  badPct : e.pcu.tables.badPct = d.pcu.tables.badPct
  badPtt : e.pcu.tables.badPtt = d.pcu.tables.badPtt

theorem Dev.keepsTargets.trans {d e e' : Dev} (h : d.keepsTargets e) (h' : e.keepsTargets e') : d.keepsTargets e' :=
  ⟨h'.regs.trans h.regs, h'.pctT.trans h.pctT, h'.pttT.trans h.pttT, h'.badPct.trans h.badPct, h'.badPtt.trans h.badPtt⟩

theorem Dev.keepsTargets.target {d e : Dev} (h : d.keepsTargets e) (i : Nat) :
    e.pctTarget i = d.pctTarget i ∧ e.pttTarget i = d.pttTarget i := by
  rw [Dev.pctTarget, h.pctT, Dev.pttTarget, h.pttT]
  exact ⟨rfl, rfl⟩

/-- The live values of entry `i` are its targets, but for those that are uncorrectable. -/
def Dev.copied (d e : Dev) (i : Nat) : Prop :=
  (i ∉ d.pcu.tables.badPct → e.pctLive i = d.pctTarget i) ∧ (i ∉ d.pcu.tables.badPtt → e.pttLive i = d.pttTarget i)

/-- The live values of entry `i` stay. -/
def Dev.liveKept (d e : Dev) (i : Nat) : Prop := e.pctLive i = d.pctLive i ∧ e.pttLive i = d.pttLive i

section

variable {d : Dev} {h : Nat} {r : TsyncRun}

theorem Dev.keepsTargets_tsyncEntry : d.keepsTargets (d.tsyncEntry h r) := by
  unfold Dev.tsyncEntry
  split <;> exact ⟨rfl, rfl, rfl, rfl, rfl⟩

section

variable {j : Nat} (hj : winEntry r.wins r.next = some j)
include hj

/-- The copy moves on with each entry. -/
theorem Dev.tsyncEntry_run : tget (d.tsyncEntry h r).pcu.tables.tsync none h = some { r with next := r.next + 1 } := by
  simp only [Dev.tsyncEntry, hj, Dev.setTab_tables, tget_tset_self]

theorem Dev.tsyncEntry_copied : d.copied (d.tsyncEntry h r) (tabIdx (groupOf h) j) := by
  rw [Dev.tsyncEntry, hj]
  constructor <;> intro hgood <;> simp only [Dev.pctLive, Dev.pttLive, Dev.setTab_tables, List.contains_eq_mem, decide_eq_true_eq,
    if_neg hgood, tget_tset_self, Dev.pctTarget, Dev.pttTarget]

theorem Dev.tsyncEntry_kept {i : Nat} (hi : i ≠ tabIdx (groupOf h) j) : d.liveKept (d.tsyncEntry h r) i := by
  rw [Dev.tsyncEntry, hj]
  constructor
  · simp only [Dev.pctLive, Dev.setTab_tables]
    split
    · rfl
    · exact tget_tset_ne _ _ _ _ hi
  · simp only [Dev.pttLive, Dev.setTab_tables]
    split
    · rfl
    · exact tget_tset_ne _ _ _ _ hi

end

/-- An entry copied before stays copied. -/
theorem Dev.copied_tsyncEntry {i : Nat} {e : Dev} (hk : d.keepsTargets e) (hc : d.copied e i) :
    d.copied (e.tsyncEntry h r) i := by
  cases hj : winEntry r.wins r.next with
  | none => rw [Dev.tsyncEntry, hj]; exact hc
  | some j =>
    by_cases hi : i = tabIdx (groupOf h) j
    · have hnew := Dev.tsyncEntry_copied (d := e) (h := h) hj
      rw [← hi] at hnew
      exact ⟨fun hb => (hnew.1 (hk.badPct ▸ hb)).trans (hk.target i).1, fun hb => (hnew.2 (hk.badPtt ▸ hb)).trans (hk.target i).2⟩
    · obtain ⟨hpct, hptt⟩ := Dev.tsyncEntry_kept (d := e) hj hi
      exact ⟨fun hb => hpct.trans (hc.1 hb), fun hb => hptt.trans (hc.2 hb)⟩

end

/-- The next `n` entries of a copy: those it reaches are copied, every other live value and every target stays. -/
theorem Dev.tsyncTake_leaves {d : Dev} {h : Nat} (n : Nat) : ∀ {e : Dev} {r : TsyncRun}, d.keepsTargets e →
    tget e.pcu.tables.tsync none h = some r → r.next + n ≤ winTotal r.wins ∨ n = 0 →
    d.keepsTargets (e.tsyncTake h n) ∧
      (∀ i, r.reaches (groupOf h) n i ∨ d.copied e i → d.copied (e.tsyncTake h n) i) ∧
      ∀ i, ¬ r.reaches (groupOf h) n i → e.liveKept (e.tsyncTake h n) i := by
  induction n with
  | zero =>
    rintro e r hk - -
    refine ⟨hk, fun i hi => hi.resolve_left ?_, fun i _ => ⟨rfl, rfl⟩⟩
    rintro ⟨k, j, hlo, hhi, -⟩
    omega
  | succ n ih =>
    intro e r hk hrun hle
    obtain ⟨j, hj⟩ := winEntry_of_lt (show r.next < winTotal r.wins by omega)
    have hstep : e.tsyncTake h (n + 1) = (e.tsyncEntry h r).tsyncTake h n := by rw [Dev.tsyncTake, hrun]
    have hreach (i : Nat) : r.reaches (groupOf h) (n + 1) i ↔
        tabIdx (groupOf h) j = i ∨ ({ r with next := r.next + 1 } : TsyncRun).reaches (groupOf h) n i := by
      constructor
      · rintro ⟨k, j', hlo, hhi, hk, hi⟩
        rcases Nat.eq_or_lt_of_le hlo with rfl | hlt
        · rw [hj] at hk
          cases hk
          exact .inl hi
        · exact .inr ⟨k, j', hlt, by simp only; omega, hk, hi⟩
      · rintro (hi | ⟨k, j', hlo, hhi, hk, hi⟩)
        · exact ⟨r.next, j, le_rfl, by omega, hj, hi⟩
        · simp only at hlo hhi
          exact ⟨k, j', by omega, by omega, hk, hi⟩
    obtain ⟨hkeeps, hcopied, hkept⟩ := ih (hk.trans Dev.keepsTargets_tsyncEntry) (Dev.tsyncEntry_run (d := e) (h := h) hj)
      (.inl (by simp only; omega))
    rw [hstep]
    refine ⟨hkeeps, fun i hi => hcopied i ?_, fun i hi => ?_⟩
    · rw [hreach] at hi
      rcases hi with (rfl | hi) | hc
      · have hnew := Dev.tsyncEntry_copied (d := e) (h := h) hj
        exact .inr ⟨fun hb => (hnew.1 (hk.badPct ▸ hb)).trans (hk.target _).1, fun hb => (hnew.2 (hk.badPtt ▸ hb)).trans (hk.target _).2⟩
      · exact .inl hi
      · exact .inr (Dev.copied_tsyncEntry hk hc)
    · rw [hreach, not_or] at hi
      obtain ⟨hp, ht⟩ := hkept i hi.2
      obtain ⟨hp', ht'⟩ := Dev.tsyncEntry_kept (d := e) hj (Ne.symm hi.1)
      exact ⟨hp.trans hp', ht.trans ht'⟩

end Sys2Proof.Machine
end

section
/-! SUPPORT. The rows of the correction tables: what an entry fetch, a target write and a TSYNC copy come to. -/

namespace Sys2Proof.Machine

/-! Entry fetches -/

/-- A counter reads the same where the registers are the same. -/
theorem Dev.counts.of_regs {d e e' : Dev} {f : Fld} {i n : Nat} (h : d.counts e f i n) (hregs : e'.regs = e.regs) :
    d.counts e' f i n := by
  rwa [Dev.counts, Dev.rf, hregs]

section

variable {d : Dev} {c : Nat} {f : Fetch} (hsync : d.pcu.tables.tsync = []) (hfetch : d.fetchesOf c = [f])
  (hdue : f.due d.t = true) (hmore : f.next + 1 < f.len)
include hsync hfetch hdue hmore

/-- An entry without errors: one slew step, with BYPASS of the PTT value alone (R129, R135). -/
theorem Dev.fetchEntry_clean (hpct : f.entry c ∉ d.pcu.tables.badPct) (hptt : f.entry c ∉ d.pcu.tables.badPtt) :
    (d.fetchEntry c .clean).regs = d.regs ∧ d.takesEntry (d.fetchEntry c .clean) c f
      (if f.bypass then d.pctLive (f.entry c)
        else slewPct (d.pctLive (f.entry c)) (d.pctTarget (f.entry c)) (d.rf CAL_SLEW_SL 0))
      (slewPtt (d.pttLive (f.entry c)) (d.pttTarget (f.entry c)) (d.rf CAL_SLEW_SL 0)) false := by
  have herrs := d.fetchErrs_clean c f
  obtain ⟨htakes, hregs, -⟩ := Dev.fetchEntry_takes .clean hsync hfetch hdue hmore (Dev.sameEntries_of_pcu (by rw [herrs]))
  have hlost : f.lost .clean = false := by simp [Fetch.lost, TableEcc.clean]
  have hpctv : d.fetchedPct c f .clean (d.rf CAL_SLEW_SL 0) = if f.bypass then d.pctLive (f.entry c)
      else slewPct (d.pctLive (f.entry c)) (d.pctTarget (f.entry c)) (d.rf CAL_SLEW_SL 0) := by
    cases hb : f.bypass with
    | true => exact Dev.fetchedPct_bypass _ hb
    | false => exact Dev.fetchedPct_good _ hfetch hb hpct
  rw [herrs, hlost, hpctv, Dev.fetchedPtt_good _ hfetch hptt] at htakes
  exact ⟨hregs.trans (congrArg Dev.regs herrs), htakes⟩

variable (hc : c < 96) (hbypass : f.bypass = false)
include hc hbypass

/-- Live copies that are uncorrectable take their targets, and the entry is lost for its pixel (R131). -/
theorem Dev.fetchEntry_liveLost (hpct : f.entry c ∉ d.pcu.tables.badPct) (hptt : f.entry c ∉ d.pcu.tables.badPtt) :
    d.onlyRegs (d.fetchEntry c ⟨.double, .clean, .double, .clean⟩) [(.PCU_ECCCNT, c / 12)] ∧
      d.counts (d.fetchEntry c ⟨.double, .clean, .double, .clean⟩) PCU_ECCCNT_DBE (c / 12) 2 ∧
      d.takesEntry (d.fetchEntry c ⟨.double, .clean, .double, .clean⟩) c f (d.pctTarget (f.entry c)) (d.pttTarget (f.entry c))
        true := by
  have hinc (e : Dev) : e.onlyRegs (e.inc PCU_ECCCNT_DBE (c / 12) 1) [(.PCU_ECCCNT, c / 12)] :=
    e.onlyRegs_inc PCU_ECCCNT_DBE 1 (by omega) (by simp [PCU_ECCCNT_DBE])
  have hcounts := d.inc_inc_counts PCU_ECCCNT_DBE (c / 12) (by decide)
  obtain ⟨e, he⟩ : ∃ e, e = d.fetchErrs c f ⟨.double, .clean, .double, .clean⟩ := ⟨_, rfl⟩
  obtain ⟨hfregs, hfsame, hbadPct, hbadPtt⟩ := Dev.tableFault_leaves
    ((d.inc PCU_ECCCNT_DBE (c / 12) 1).inc PCU_ECCCNT_DBE (c / 12) 1) (c / 12) (headOf c) f.line (f.base + f.next)
  rw [← d.fetchErrs_live c f hbypass, ← he] at hfregs hfsame hbadPct hbadPtt
  simp only [Dev.inc_pcu] at hbadPct hbadPtt
  have hsame : d.sameEntries e := Dev.sameEntries.trans (Dev.sameEntries_of_pcu (by simp only [Dev.inc_pcu])) hfsame
  obtain ⟨htakes, hregs, -⟩ := Dev.fetchEntry_takes _ hsync hfetch hdue hmore (he ▸ hsame)
  have hfetch' := (hsame.fetchesOf c).trans hfetch
  rw [← he, Dev.fetchedPct_good _ hfetch' hbypass (hbadPct.symm ▸ hpct), Dev.fetchedPtt_good _ hfetch' (hbadPtt.symm ▸ hptt),
    if_pos rfl, if_pos rfl, (hsame.target _).1, (hsame.target _).2,
    show f.lost ⟨.double, .clean, .double, .clean⟩ = true by simp [Fetch.lost]] at htakes
  rw [← he] at hregs
  exact ⟨((hinc d).trans (hinc _)).trans (Dev.onlyRegs_of_regs (hregs.trans hfregs)), hcounts.of_regs (hregs.trans hfregs), htakes⟩

/-- A target that is uncorrectable leaves the live entry, and stays so until it is written (R131). -/
theorem Dev.fetchEntry_targetLost : ∃ ptt lost,
    d.onlyRegs (d.fetchEntry c ⟨.clean, .double, .clean, .clean⟩) [(.PCU_ECCCNT, c / 12)] ∧
      d.counts (d.fetchEntry c ⟨.clean, .double, .clean, .clean⟩) PCU_ECCCNT_DBE (c / 12) 1 ∧
      f.entry c ∈ (d.fetchEntry c ⟨.clean, .double, .clean, .clean⟩).pcu.tables.badPct ∧
      d.takesEntry (d.fetchEntry c ⟨.clean, .double, .clean, .clean⟩) c f (d.pctLive (f.entry c)) ptt lost := by
  have hinc : d.onlyRegs (d.inc PCU_ECCCNT_DBE (c / 12) 1) [(.PCU_ECCCNT, c / 12)] :=
    d.onlyRegs_inc PCU_ECCCNT_DBE 1 (by omega) (by simp [PCU_ECCCNT_DBE])
  have hcounts : d.counts (d.inc PCU_ECCCNT_DBE (c / 12) 1) PCU_ECCCNT_DBE (c / 12) 1 := d.rf_inc_self _ _ _ (by decide)
  obtain ⟨e, he⟩ : ∃ e, e = d.fetchErrs c f ⟨.clean, .double, .clean, .clean⟩ := ⟨_, rfl⟩
  have heq := he.trans (d.fetchErrs_target c f hbypass)
  obtain ⟨hfregs, hfsame, -⟩ := Dev.tableFault_leaves (d.inc PCU_ECCCNT_DBE (c / 12) 1) (c / 12) (headOf c) f.line (f.base + f.next)
  have hsame : d.sameEntries e := ((Dev.sameEntries_of_pcu (by simp only [Dev.inc_pcu])).trans hfsame).trans
    (heq ▸ Dev.sameEntries_targetBad _ _)
  have hbad : f.entry c ∈ e.pcu.tables.badPct := heq ▸ List.mem_cons_self ..
  obtain ⟨htakes, hregs, hbads⟩ := Dev.fetchEntry_takes _ hsync hfetch hdue hmore (he ▸ hsame)
  rw [← he, Dev.fetchedPct_bad _ hbad, (hsame.live _).1] at htakes
  rw [← he] at hregs hbads
  have hall := (hregs.trans (congrArg Dev.regs heq)).trans hfregs
  exact ⟨_, _, hinc.trans (Dev.onlyRegs_of_regs hall), hcounts.of_regs hall, hbads ▸ hbad, htakes⟩

end

/-! Target writes -/

section

variable {d : Dev} {w : TabWrite} (hsync : d.pcu.tables.tsync = [])
include hsync

/-- A PCT target is written, and nothing else of the tables' values. -/
theorem Dev.acceptFree_pct (hpct : w.pct = true) (hfree : d.heldWrite w.pct w.idx = none) :
    (d.tableAccept w).regs = d.regs ∧ (d.tableAccept w).pctTarget w.idx = w.val ∧
      (∀ j, j ≠ w.idx → (d.tableAccept w).pctTarget j = d.pctTarget j) ∧
      (d.tableAccept w).pcu.tables.pttT = d.pcu.tables.pttT ∧ (d.tableAccept w).pcu.tables.pctL = d.pcu.tables.pctL ∧
      (d.tableAccept w).pcu.tables.pttL = d.pcu.tables.pttL := by
  rw [Dev.tableAccept_free hfree]
  obtain ⟨hregs, hpctL, hpttL, hpttT, -⟩ := Dev.enterTarget_others (d := d.stagedDropped w) (w := w) hsync
  refine ⟨hregs, ?_, fun j hj => ?_, hpttT hpct, hpctL, hpttL⟩ <;>
    rw [Dev.enterTarget_pct (d := d.stagedDropped w) hsync hpct, Dev.pctTarget_putTarget]
  · exact if_pos rfl
  · exact if_neg hj

/-- The four PTT targets of a word are written, and nothing else of the tables' values. -/
theorem Dev.acceptFree_ptt (hpct : w.pct = false) (hfree : d.heldWrite w.pct w.idx = none) :
    (d.tableAccept w).regs = d.regs ∧ (∀ n, n < 4 → (d.tableAccept w).pttTarget (w.idx + n) = w.val / 2 ^ (8 * n) % 256) ∧
      (∀ j, j < w.idx ∨ w.idx + 4 ≤ j → (d.tableAccept w).pttTarget j = d.pttTarget j) ∧
      (d.tableAccept w).pcu.tables.pctT = d.pcu.tables.pctT ∧ (d.tableAccept w).pcu.tables.pctL = d.pcu.tables.pctL ∧
      (d.tableAccept w).pcu.tables.pttL = d.pcu.tables.pttL := by
  rw [Dev.tableAccept_free hfree]
  obtain ⟨hregs, hpctL, hpttL, -, hpctT⟩ := Dev.enterTarget_others (d := d.stagedDropped w) (w := w) hsync
  obtain ⟨hword, hout⟩ := Dev.pttTarget_enterTarget (d := d.stagedDropped w) (w := w) hsync hpct
  exact ⟨hregs, hword, hout, hpctT hpct, hpctL, hpttL⟩

end

theorem Dev.enterTarget_kw {d : Dev} {w : TabWrite} (hsync : d.pcu.tables.tsync = []) (hpct : w.pct = true) :
    (d.enterTarget w).kw = d.kw ∧ (d.enterTarget w).pcu.tables.waiting = d.pcu.tables.waiting := by
  rw [Dev.enterTarget_pct hsync hpct]
  exact ⟨rfl, rfl⟩

/-- The only PCT write that waits is performed when nothing holds it. -/
theorem Dev.tableResume_pct {d : Dev} {w : TabWrite} (hsync : d.pcu.tables.tsync = []) (hwait : d.pcu.tables.waiting = [w])
    (hpct : w.pct = true) (hfree : d.heldWrite w.pct w.idx = none) :
    (d.tableResume (w.idx / 12288)).regs = d.regs ∧ (d.tableResume (w.idx / 12288)).kw = d.kw ∧
      (d.tableResume (w.idx / 12288)).pcu.tables.waiting = [] ∧ (d.tableResume (w.idx / 12288)).pctTarget w.idx = w.val ∧
      (∀ j, j ≠ w.idx → (d.tableResume (w.idx / 12288)).pctTarget j = d.pctTarget j) ∧
      (d.tableResume (w.idx / 12288)).pcu.tables.pctL = d.pcu.tables.pctL := by
  rw [Dev.tableResume_free hwait hfree]
  obtain ⟨hregs, hself, hothers, -, hpctL, -⟩ :=
    Dev.acceptFree_pct (d := d.setTab (fun t => { t with waiting := [] })) (w := w) hsync hpct hfree
  obtain ⟨hkw, hw⟩ := Dev.enterTarget_kw (d := (d.setTab (fun t => { t with waiting := [] })).stagedDropped w) (w := w) hsync hpct
  rw [← Dev.tableAccept_free (d := d.setTab (fun t => { t with waiting := [] })) hfree] at hkw hw
  exact ⟨hregs, hkw, hw, hself, hothers, hpctL⟩

/-- A refusal at the port is counted where SYS is on, and the correction keeps its state (R433). -/
theorem Dev.counted_value_leaves (d : Dev) {a : Nat} (ha : a < 2 ^ 32) (hdom : d.domOn 2 = true) :
    d.onlyRegs (d.counted .value .direct a) [(.SYS_ACCERR, 0), (.SYS_ACCADDR, 0)] ∧
      d.counts (d.counted .value .direct a) SYS_ACCERR_COUNT 0 1 ∧ (d.counted .value .direct a).pcu = d.pcu := by
  obtain ⟨hregs, hcounts, -⟩ := d.countRefusal_counts .direct (c := .value) (by decide) ha
  rw [Dev.counted, if_pos hdom]
  refine ⟨hregs, hcounts, ?_⟩
  rw [d.countRefusal_eq .direct a (c := .value) (by decide)]
  simp only [Dev.wf_pcu, Dev.inc_pcu]

/-! TSYNC copies -/

/-- A write of `PCU.TSYNC` that names one head starts its copy with the windows in force (R130). -/
theorem Dev.tsyncStart_leaves {d : Dev} {h : Nat} (v : Word) (hh : h < 24) (hwin : winTotal ((chansOf h).map d.winRange) ≠ 0) :
    d.onlyRegs ((d.writeAll .PCU_TSYNC 0 v.toNat).tsyncStart h) [(.PCU_TSYNC, 0)] ∧
      tbit (((d.writeAll .PCU_TSYNC 0 v.toNat).tsyncStart h).rf PCU_TSYNC_HEADS 0) h = true ∧
      tget ((d.writeAll .PCU_TSYNC 0 v.toNat).tsyncStart h).pcu.tables.tsync none h =
        some ⟨(chansOf h).map d.winRange, 0, d.now⟩ := by
  have hwrite := d.onlyRegs_writeAll .PCU_TSYNC v.toNat (i := 0) (by decide)
  have hwins : (chansOf h).map (d.writeAll .PCU_TSYNC 0 v.toNat).winRange = (chansOf h).map d.winRange := by
    refine List.map_congr_left fun c hc => ?_
    have hc' : c < 65536 := by simp only [chansOf, List.mem_cons, List.not_mem_nil, or_false] at hc; omega
    exact Dev.winRange_congr hc' hwrite (Dev.writeAll_ltg ..) (by rw [Dev.writeAll_pcu]) (by simp) (by simp)
  rw [Dev.tsyncStart_windows (by rw [hwins]; exact hwin), hwins, Dev.writeAll_now, Dev.setTab_rf, Dev.setTab_tables]
  refine ⟨hwrite.trans ((Dev.onlyRegs_wbit _ PCU_TSYNC_HEADS h true (by decide)).trans (Dev.onlyRegs_of_regs rfl)), ?_, ?_⟩
  · exact Dev.tbit_wbit_self _ PCU_TSYNC_HEADS 0 true (by decide) hh
  · simp only [tget_tset_self]

/-- The end of a copy itself touches no entry. -/
theorem Dev.sameEntries_tsyncEnded (d : Dev) (h : Nat) :
    d.sameEntries ((d.wbit PCU_TSYNC_HEADS 0 h false).setTab (fun t => { t with tsync := tset t.tsync none h none })) := by
  constructor <;> simp only [Dev.setTab_tables, Dev.setTab_work, Dev.wbit_pcu]

section

variable {d : Dev} {h : Nat} {r : TsyncRun} (hrun : tget d.pcu.tables.tsync none h = some r)
include hrun

theorem Dev.tsyncDone_early (hnow : d.now < r.start + ceilDiv (winTotal r.wins * 16000) 8192) : d.tsyncDone h [] = d := by
  simp only [Dev.tsyncDone, hrun, if_pos hnow]

theorem Dev.tsyncDone_due (hnow : r.start + ceilDiv (winTotal r.wins * 16000) 8192 ≤ d.now) : d.tsyncDone h [] =
    ((d.tsyncTake h (winTotal r.wins - r.next)).wbit PCU_TSYNC_HEADS 0 h false).setTab (fun t => { t with
      tsync := tset t.tsync none h none }) := by
  simp only [Dev.tsyncDone, hrun, if_neg (Nat.not_lt.mpr hnow), Dev.tsyncErrs, List.foldl_nil]

/-- A copy that ends in time (R130): HEADS alone changes, the entries still to come are copied, every other live value and every
target stays. -/
theorem Dev.tsyncDone_leaves (hh : h < 24) (hnow : r.start + ceilDiv (winTotal r.wins * 16000) 8192 ≤ d.now) :
    d.onlyRegs (d.tsyncDone h []) [(.PCU_TSYNC, 0)] ∧ tbit ((d.tsyncDone h []).rf PCU_TSYNC_HEADS 0) h = false ∧
      (∀ i, r.reaches (groupOf h) (winTotal r.wins - r.next) i → d.copied (d.tsyncDone h []) i) ∧
      (∀ i, ¬ r.reaches (groupOf h) (winTotal r.wins - r.next) i → d.liveKept (d.tsyncDone h []) i) ∧
      ∀ i, (d.tsyncDone h []).pctTarget i = d.pctTarget i ∧ (d.tsyncDone h []).pttTarget i = d.pttTarget i := by
  obtain ⟨hkeeps, hcopied, hkept⟩ := Dev.tsyncTake_leaves (winTotal r.wins - r.next) (⟨rfl, rfl, rfl, rfl, rfl⟩ : d.keepsTargets d)
    hrun (by omega)
  obtain ⟨e, he⟩ : ∃ e, e = d.tsyncTake h (winTotal r.wins - r.next) := ⟨_, rfl⟩
  rw [Dev.tsyncDone_due hrun hnow]
  rw [← he] at hkeeps hcopied hkept ⊢
  have hsame := e.sameEntries_tsyncEnded h
  refine ⟨?_, ?_, fun i hi => ?_, fun i hi => ?_, fun i => ?_⟩
  · exact (Dev.onlyRegs_of_regs hkeeps.regs).trans ((Dev.onlyRegs_wbit _ PCU_TSYNC_HEADS h false (by decide)).trans
      (Dev.onlyRegs_of_regs rfl))
  · rw [Dev.setTab_rf]
    exact Dev.tbit_wbit_self _ PCU_TSYNC_HEADS 0 false (by decide) hh
  · obtain ⟨hpct, hptt⟩ := hcopied i (.inl hi)
    exact ⟨fun hb => (hsame.live i).1.trans (hpct hb), fun hb => (hsame.live i).2.trans (hptt hb)⟩
  · obtain ⟨hpct, hptt⟩ := hkept i hi
    exact ⟨(hsame.live i).1.trans hpct, (hsame.live i).2.trans hptt⟩
  · obtain ⟨hpct, hptt⟩ := hkeeps.target i
    exact ⟨(hsame.target i).1.trans hpct, (hsame.target i).2.trans hptt⟩

end

theorem exec_tsyncCopy {s : State} {pth : Path} {v : Word} {h : Nat} (hh : h < 24) (hacc : s.accepts pth .PCU_TSYNC 0 v)
    (hv : carried v PCU_TSYNC_HEADS = 2 ^ h) (hoff : tbit (s.dev.rf PCU_TSYNC_HEADS 0) h = false) :
    exec (.tsyncCopy pth v) s = .next (s.onDev (fun d => (d.writeAll .PCU_TSYNC 0 v.toNat).tsyncStart h)) := by
  show Host.Outcome.next (s.regWrite pth .PCU_TSYNC 0 v) = _
  rw [State.regWrite_tsync hh hacc hv hoff]

theorem exec_tsyncCopyDone {s : State} (h : Nat) (hlive : s.dev.live 2 = true) :
    exec (.tsyncCopyDone h []) s = .next (s.onDev (fun d => d.tsyncDone h [])) := by
  show Host.Outcome.next (s.onDev fun d => if d.live 2 then d.tsyncDone h [] else d) = _
  simp [State.onDev, hlive]

/-! The statement -/

/-- A change of the machine's own state leaves the stores (`State.onlyRegs`). -/
theorem State.onlyRegs_onDev {s : State} {f : Dev → Dev} {l : List (RegKind × Nat)} (h : s.dev.onlyRegs (f s.dev) l) :
    s.onlyRegs (s.onDev f) l :=
  ⟨s.sameStore_onDev f, h⟩

/-- Settles O22: an entry is taken as `Dev.takesEntry` says, a target write enters or is staged, and a TSYNC copy copies the
entries that it still reaches. -/
theorem coefficientTables : Obligations.CoefficientTables := by
  refine ⟨?_, ?_, ?_⟩
  · intro s c f hc hgroup hfetch hdue hmore hsync i sl others hpct hptt
    have hothers {t : Dev} {pct ptt : Nat} {lost : Bool} (h : s.dev.takesEntry t c f pct ptt lost) :
        others (s.onDev fun _ => t) := ⟨h.others, h.targets, h.moved⟩
    refine ⟨?_, fun hb => ?_, fun hb => ?_⟩
    · obtain ⟨hregs, htakes⟩ := Dev.fetchEntry_clean hsync hfetch hdue hmore hpct hptt
      refine ⟨_, exec_tableEntryFetch .clean hgroup, State.onlyRegs_onDev (Dev.onlyRegs_of_regs hregs), hothers htakes, htakes.pctLive,
        htakes.pttLive, fun w hw hl => ?_⟩
      obtain ⟨w', hw', hline, hent, htrim⟩ := htakes.kept w hw hl
      exact ⟨w', hw', hline, hent.trans htakes.pctLive.symm, htrim.trans htakes.pttLive.symm⟩
    · obtain ⟨hregs, hcounts, htakes⟩ := Dev.fetchEntry_liveLost hsync hfetch hdue hmore hc hb hpct hptt
      exact ⟨_, exec_tableEntryFetch _ hgroup, State.onlyRegs_onDev hregs, hothers htakes, htakes.pctLive, htakes.pttLive, hcounts,
        htakes.kept⟩
    · obtain ⟨ptt, lost, hregs, hcounts, hbad, htakes⟩ := Dev.fetchEntry_targetLost hsync hfetch hdue hmore hc hb
      exact ⟨_, exec_tableEntryFetch _ hgroup, State.onlyRegs_onDev hregs, hothers htakes, htakes.pctLive, hbad, hcounts⟩
  · intro s hsync
    refine ⟨fun pth pct i v ht hi hal hopen hwait => ⟨fun hfree hp hgood => ?_, fun hfree hp => ?_, fun c n hheld hroom hgood => ?_,
      fun hd hp hbad hdom => ?_⟩, fun g w hg hopen hwait hidx hp hfree hcur => ?_, fun pth v h hh hacc hv hoff hwin => ?_⟩
    · obtain ⟨hregs, hvals⟩ := Dev.acceptFree_pct (w := .of pct i v.toNat (decide (pth = .kweave))) hsync hp hfree
      rw [← Dev.tableWrite_room _ _ (Dev.tableFull_free hfree) hwait] at hregs hvals
      exact ⟨_, exec_tableTargetWrite v hi hal ht hopen fun _ => hgood, State.onlyRegs_onDev (Dev.onlyRegs_of_regs hregs), hvals⟩
    · obtain ⟨hregs, hvals⟩ := Dev.acceptFree_ptt (w := .of pct i v.toNat (decide (pth = .kweave))) hsync hp hfree
      rw [← Dev.tableWrite_room _ _ (Dev.tableFull_free hfree) hwait] at hregs hvals
      exact ⟨_, exec_tableTargetWrite v hi hal ht hopen fun h => absurd (hp.symm.trans h) (by decide),
        State.onlyRegs_onDev (Dev.onlyRegs_of_regs hregs), hvals⟩
    · have hstaged := (Dev.tableWrite_room v.toNat (decide (pth = .kweave)) (Dev.tableFull_room (pct := pct) hroom) hwait).trans
        (Dev.tableAccept_held hheld)
      refine ⟨_, exec_tableTargetWrite v hi hal ht hopen hgood, ?_⟩
      simp only [State.onDev, hstaged]
      exact ⟨⟨⟨rfl, rfl⟩, Dev.onlyRegs_of_regs rfl⟩, ⟨_, rfl, rfl, rfl, rfl, rfl, rfl⟩, rfl, rfl⟩
    · subst hd
      obtain ⟨hregs, hcounts, hpcu⟩ := s.dev.counted_value_leaves (a := tableAddr pct i) (by unfold tableAddr; split <;> omega) hdom
      exact ⟨_, exec_tableTargetWrite_bad v hi hal ht hopen hp hbad, State.onlyRegs_onDev hregs, hcounts, hpcu⟩
    · subst hidx
      obtain ⟨hregs, hkw, hvals⟩ := Dev.tableResume_pct hsync hwait hp hfree
      exact ⟨_, exec_tableWriteResume hopen rfl ((congrArg Kw.cur hkw).trans hcur), State.onlyRegs_onDev (Dev.onlyRegs_of_regs hregs), hvals⟩
    · obtain ⟨hregs, hshows⟩ := Dev.tsyncStart_leaves v hh hwin
      exact ⟨_, exec_tsyncCopy hh hacc hv hoff, State.onlyRegs_onDev hregs, hshows⟩
  · intro s h r hh hlive hrun
    refine ⟨fun hnow => ?_, fun hnow _ => ?_⟩
    · rw [exec_tsyncCopyDone h hlive, State.onDev, Dev.tsyncDone_early hrun hnow]
    · obtain ⟨hregs, hoff, hcopied, hkept, htargets⟩ := Dev.tsyncDone_leaves hrun hh hnow
      refine ⟨_, exec_tsyncCopyDone h hlive, State.onlyRegs_onDev hregs, hoff, fun n j hlo hhi hj => ?_, fun i hi => ?_, htargets⟩
      · exact hcopied _ ⟨n, j, hlo, by omega, hj, rfl⟩
      · refine hkept i ?_
        rintro ⟨k, j, -, -, hj, hidx⟩
        unfold tabIdx at hidx
        rcases hi with hout | hlow
        · exact hout k (hj.trans (by rw [← hidx, Nat.add_sub_cancel_left]))
        · omega

end Sys2Proof.Machine
end

section
/-! SUPPORT. The end of a calibration of a monitor converter for which another one is asked for already. -/

namespace Sys2Proof.Machine

/-- The device in RUN, calibration by temperature off, that calibrates monitor converter 0, the measured item, while a
further calibration of that converter waits. -/
def askedTwice : State :=
  { State.reset with dev := { (Dev.reset.wf CAL_CTRL_TRIG 0 0).wf MCV_STAT_CALBUSY 0 1 with
      pwr := { Pwr.reset with st := .run, booted := true }
      cal := { Cal.reset with items := [⟨6, 0, false, 0, 0, none⟩] }
      mcv := [(0, { Mcv.reset with calPend := true })] } }

/-- That device once the item has completed. -/
def askedTwiceDone : State := askedTwice.onDev (fun d => (d.itemMeasured 6 0 (.coef 0 0)).calStep)

theorem askedTwice_calIdle : askedTwice.dev.calIdle := by unfold Dev.calIdle; decide +kernel

theorem exec_calItemComplete_askedTwice : exec (.calItemComplete 6 0 (.coef 0 0)) askedTwice = .next askedTwiceDone :=
  State.calRow_on askedTwice_calIdle.1

/-- The end of the calibration lets the waiting one begin at once (R210). -/
theorem askedTwiceDone_calBusy : askedTwiceDone.dev.on MCV_STAT_CALBUSY 0 = true := by decide +kernel

/-- Refutes O26: its clause on the monitor converters says that CALBUSY is clear once the item has completed. In
`askedTwice` a further calibration of the converter waits while the first one runs, and it begins at the first one's end
(R210), so that CALBUSY is set again. A converter's calibration is asked for when its item starts, one at a time, so that no
run from reset should reach `askedTwice`; the statement speaks of every state. -/
theorem not_calibrationItems : ¬ Obligations.CalibrationItems := by
  intro h
  obtain ⟨-, -, -, -, hmcv, -⟩ := h askedTwice askedTwice_calIdle
  obtain ⟨t, ht, -, -, -, -, hbusy⟩ := hmcv 0 0 0 (by decide) (by decide +kernel) (by decide +kernel)
  obtain rfl : askedTwiceDone = t := Host.Outcome.next.inj (exec_calItemComplete_askedTwice.symm.trans ht)
  exact absurd (askedTwiceDone_calBusy.symm.trans hbusy) (by decide)

end Sys2Proof.Machine
end

section
/-! SUPPORT. A packet that switches a lane quad on, in a state whose register map names a register twice. -/

namespace Sys2Proof.Machine

/-- `PWR.DOMEN` with every domain on request on but the first lane quad. -/
def quadOffDomains : Word := 0x6FFFF#32

/-- PWR_DOMAINS with every domain on request on; the CRC, checked before the packet is interpreted, is left 0. -/
def quadOnPacket : List Nat := [0x4B570005, 0x101, 0, 0x7FFFF, 0]

/-- The device in RUN that interprets `quadOnPacket`, the first lane quad off, its register map naming `LTG.VMIN[0]` twice
as `twiceNamed` does. -/
def quadOnTwiceNamed : State :=
  { State.reset with dev := { Dev.reset with
      regs := (regKey .PWR_DOMEN 0, quadOffDomains) :: twiceNamed.dev.regs
      pwr := { Pwr.reset with st := .run, booted := true }, kw := { Kw.reset with cur := some quadOnPacket } } }

theorem quadOnTwiceNamed_asks : quadOnTwiceNamed.asks 0x101 quadOnPacket 0 1 := by
  unfold State.asks State.interprets; decide +kernel

/-- The quad's power-up drops the entry that tells the reset value, and the other shows. -/
theorem opPwrDomains_quadOnTwiceNamed :
    quadOnTwiceNamed.opPwrDomains.dev.rreg .LTG_VMIN 0 ≠ quadOnTwiceNamed.dev.rreg .LTG_VMIN 0 := by decide +kernel

/-- Refutes O56: its clause on PWR_DOMAINS keeps every register of the blocks that no domain on request holds, `LTG` among
them, but `rstFields`, which returns the registers of a domain that is switched on to reset (R431), drops the entries of the
register map that tell a reset value, and what an entry behind them tells of the same register then shows. In
`quadOnTwiceNamed` `LTG.VMIN` reads 4,295 before the packet and 1 after it. A run writes through `tset`, which keeps one
entry a register, so that none should reach such a map; the statement speaks of every state. -/
theorem not_longOperations : ¬ Obligations.LongOperations := by
  intro h
  obtain ⟨-, hdomains, -⟩ := h quadOnTwiceNamed quadOnPacket (by decide +kernel)
  obtain ⟨t, ht, -, -, hkeeps, -⟩ := hdomains quadOnTwiceNamed_asks (by decide +kernel) (by decide +kernel)
  have hrun : exec .pwrDomains quadOnTwiceNamed = .next quadOnTwiceNamed.opPwrDomains := rfl
  obtain rfl : quadOnTwiceNamed.opPwrDomains = t := Host.Outcome.next.inj (hrun.symm.trans ht)
  exact opPwrDomains_quadOnTwiceNamed (hkeeps .LTG_VMIN 0 (by decide) (by decide))

end Sys2Proof.Machine
end

section
/-! SUPPORT. The boot flash: what a word reads as after a stretch of words is put, and after a set is written to a pair of
the calibration store or a pair is erased. -/

namespace Sys2Proof.Machine

/-! Maps in parts -/

theorem tfind_append {α : Type} (t u : Tab α) (k : Nat) : tfind (t ++ u) k = (tfind t k).or (tfind u k) := by
  induction t with
  | nil => rfl
  | cons e r ih =>
    obtain ⟨a, x⟩ := e
    simp only [List.cons_append, tfind]
    split
    · rfl
    · exact ih

/-- The entries of the keys that a test picks. -/
theorem tfind_filter {α : Type} (t : Tab α) (p : Nat → Bool) (k : Nat) :
    tfind (t.filter (fun e => p e.1)) k = if p k then tfind t k else none := by
  induction t with
  | nil => simp [tfind]
  | cons e r ih =>
    obtain ⟨a, x⟩ := e
    by_cases ha : a = k
    · subst ha
      by_cases hp : p a = true
      · simp [hp, tfind]
      · simp [hp, ih]
    · by_cases hp : p a = true
      · simpa [List.filter_cons, hp, tfind, ha] using ih
      · simpa [List.filter_cons, hp, tfind, ha] using ih

/-! A stretch of words -/

theorem tfind_listedFrom_out (ws : List Nat) {a k : Nat} (h : k < a ∨ a + ws.length ≤ k) :
    tfind (listedFrom a ws) k = none := by
  induction ws generalizing a with
  | nil => rfl
  | cons w r ih =>
    rw [List.length_cons] at h
    have hr : tfind (listedFrom (a + 1) r) k = none := ih (by omega)
    unfold listedFrom
    split
    · exact hr
    · rw [tfind, if_neg (by omega), hr]

theorem tget_listedFrom (ws : List Nat) (a i : Nat) :
    (tfind (listedFrom a ws) (a + i)).getD erasedWord = ws.getD i erasedWord := by
  induction ws generalizing a i with
  | nil => simp [listedFrom, tfind]
  | cons w r ih =>
    unfold listedFrom
    cases i with
    | zero =>
      split
      · next hw => rw [tfind_listedFrom_out r (by omega), hw]; rfl
      · simp [tfind]
    | succ i =>
      rw [List.getD_cons_succ, ← ih (a + 1) i, show a + 1 + i = a + (i + 1) by omega]
      split
      · rfl
      · rw [tfind, if_neg (by omega)]

section

variable (f : Tab Nat) (a n : Nat) (ws : List Nat)

/-- A word outside the stretch stays. -/
theorem tget_flashPut_out {k : Nat} (h : k < a ∨ a + n ≤ k) :
    tget (flashPut f a n ws) erasedWord k = tget f erasedWord k := by
  have hlen := List.length_take_le n ws
  have hlist : tfind (listedFrom a (ws.take n)) k = none := tfind_listedFrom_out _ (by omega)
  rw [tget, tget, flashPut, tfind_append, tfind_append, hlist, tfind_filter f (fun x => decide (x < a)),
    tfind_filter f (fun x => decide (a + n ≤ x))]
  rcases h with h | h
  · have hn : ¬ a + n ≤ k := by omega
    simp [h, hn]
  · have hn : ¬ k < a := by omega
    simp [h, hn]

/-- A word of the stretch is what the list says, or erased. -/
theorem tget_flashPut_in {i : Nat} (h : i < n) : tget (flashPut f a n ws) erasedWord (a + i) = ws.getD i erasedWord := by
  have hlo : ¬ a + i < a := by omega
  have hhi : ¬ a + n ≤ a + i := by omega
  rw [tget, flashPut, tfind_append, tfind_append, tfind_filter f (fun x => decide (x < a)),
    tfind_filter f (fun x => decide (a + n ≤ x))]
  simp only [hlo, hhi, decide_false, Bool.false_eq_true, if_false, Option.none_or, Option.or_none]
  rw [tget_listedFrom, List.getD_eq_getElem?_getD, List.getD_eq_getElem?_getD, List.getElem?_take_of_lt h]

end

/-! A pair of the store -/

/-- Word `a` belongs to pair `p` of the store. -/
def inPair (base p a : Nat) : Prop := slotAt base p 0 ≤ a ∧ a < slotAt base p 0 + 2 * slotWords

theorem slotAt_succ (base p : Nat) : slotAt base p 1 = slotAt base p 0 + slotWords := by unfold slotAt; ring

theorem erasePair_out (f : Tab Nat) (base p : Nat) {a : Nat} (h : ¬ inPair base p a) :
    tget (erasePair f base p) erasedWord a = tget f erasedWord a := by
  unfold inPair at h
  exact tget_flashPut_out f _ _ _ (by omega)

theorem erasePair_in (f : Tab Nat) (base p : Nat) {a : Nat} (h : inPair base p a) :
    tget (erasePair f base p) erasedWord a = erasedWord := by
  obtain ⟨i, rfl⟩ := Nat.exists_eq_add_of_le h.1
  exact tget_flashPut_in f _ _ _ (by have := h.2; omega)

/-- A list of words for each slot is put from place `i` of the slots of a pair, slot A first. -/
def slotsPut (f : Tab Nat) (base p i : Nat) (l : Nat → List Nat) : Tab Nat :=
  flashPut (flashPut f (slotAt base p 0 + i) (l 0).length (l 0)) (slotAt base p 1 + i) (l 1).length (l 1)

section

variable (f : Tab Nat) (base p : Nat) {i : Nat} {l : Nat → List Nat} (hl : ∀ s, s < 2 → i + (l s).length ≤ slotWords)
include hl

theorem slotsPut_out {a : Nat} (h : ¬ inPair base p a) : tget (slotsPut f base p i l) erasedWord a = tget f erasedWord a := by
  have hsucc := slotAt_succ base p
  have h0 := hl 0 two_pos
  have h1 := hl 1 one_lt_two
  unfold inPair at h
  rw [slotsPut, tget_flashPut_out _ _ _ _ (by omega), tget_flashPut_out _ _ _ _ (by omega)]

/-- What a word of the pair reads as then. -/
theorem tget_slotsPut {s j : Nat} (hs : s < 2) (hj : j < slotWords) :
    tget (slotsPut f base p i l) erasedWord (slotAt base p s + j) =
      if i ≤ j ∧ j < i + (l s).length then (l s).getD (j - i) erasedWord else tget f erasedWord (slotAt base p s + j) := by
  have hsucc := slotAt_succ base p
  have h0 := hl 0 two_pos
  have h1 := hl 1 one_lt_two
  obtain rfl | rfl : s = 0 ∨ s = 1 := by omega
  · rw [slotsPut, tget_flashPut_out _ _ _ _ (by omega)]
    split
    · next h =>
      obtain ⟨n, rfl⟩ := Nat.exists_eq_add_of_le h.1
      rw [← Nat.add_assoc, tget_flashPut_in _ _ _ _ (by omega), Nat.add_sub_cancel_left]
    · exact tget_flashPut_out _ _ _ _ (by omega)
  · rw [slotsPut]
    split
    · next h =>
      obtain ⟨n, rfl⟩ := Nat.exists_eq_add_of_le h.1
      rw [← Nat.add_assoc, tget_flashPut_in _ _ _ _ (by omega), Nat.add_sub_cancel_left]
    · rw [tget_flashPut_out _ _ _ _ (by omega), tget_flashPut_out _ _ _ _ (by omega)]

end

/-! A written set -/

theorem length_slotBody_a (x : StorePair) : (slotBody x 0).length = 61440 + (partRecords x).length := by
  simp [slotBody]

theorem length_slotBody_b (x : StorePair) : (slotBody x 1).length = 61440 := by
  simp [slotBody]

/-- The first four of a list; over variables, so that the checker need not compute numbers to see it. -/
theorem getD_four (a b c d : Nat) (l : List Nat) (e : Nat) :
    (a :: b :: c :: d :: l).getD 0 e = a ∧ (a :: b :: c :: d :: l).getD 1 e = b ∧ (a :: b :: c :: d :: l).getD 2 e = c ∧
      (a :: b :: c :: d :: l).getD 3 e = d := ⟨rfl, rfl, rfl, rfl⟩

/-- The bodies of a set end before the commit word. -/
def bodiesFit (x : StorePair) : Prop := ∀ s, s < 2 → bodyAt + (slotBody x s).length ≤ commitAt

/-- So they do where the part records have the room of R165. -/
theorem bodiesFit_of_records {x : StorePair} (h : (partRecords x).length ≤ 4079) : bodiesFit x := by
  intro s hs
  obtain rfl | rfl : s = 0 ∨ s = 1 := by omega
  · rw [length_slotBody_a]; unfold bodyAt commitAt slotWords; omega
  · rw [length_slotBody_b]; decide

/-- The header of slot `s` of a set written to pair `p`. -/
def setHeader (serial p : Nat) (x : StorePair) (s : Nat) : List Nat := slotHeader serial p s x.seq x.erases (slotBody x s)

section

variable (f : Tab Nat) (serial base p : Nat) {x : StorePair}

theorem setHeader_length (s : Nat) : (setHeader serial p x s).length = bodyAt := rfl

theorem setHeader_eq (x : StorePair) (s : Nat) :
    ∃ rest, setHeader serial p x s = storeMagic :: (1 + s * 2 ^ 16 + p * 2 ^ 24) :: x.seq :: x.erases :: rest := ⟨_, rfl⟩

theorem setHeader_fits (x : StorePair) (s : Nat) (_ : s < 2) : 0 + (setHeader serial p x s).length ≤ slotWords := by
  rw [setHeader_length]; decide

theorem commit_fits (x : StorePair) (s : Nat) (_ : s < 2) : commitAt + [commitWord x.seq].length ≤ slotWords := by
  rw [List.length_singleton]; decide

variable (x) in
theorem writePair_eq : writePair f serial base p x =
    slotsPut (slotsPut (slotsPut f base p bodyAt (slotBody x)) base p 0 (setHeader serial p x)) base p commitAt
      (fun _ => [commitWord x.seq]) := rfl

variable (hfit : bodiesFit x)
include hfit

/-- A word outside the pair stays. -/
theorem writePair_out {a : Nat} (h : ¬ inPair base p a) :
    tget (writePair f serial base p x) erasedWord a = tget f erasedWord a := by
  rw [writePair_eq, slotsPut_out _ _ _ (commit_fits x) h, slotsPut_out _ _ _ (setHeader_fits serial p x) h,
    slotsPut_out _ _ _ (fun s hs => (hfit s hs).trans (by decide)) h]

/-- A word of the pair: the commit word, a word of the header or of the body, or as it was (R165, R166). -/
theorem writePair_at {s j : Nat} (hs : s < 2) (hj : j < slotWords) :
    tget (writePair f serial base p x) erasedWord (slotAt base p s + j) =
      if j = commitAt then commitWord x.seq
      else if j < bodyAt then (setHeader serial p x s).getD j erasedWord
      else if j < bodyAt + (slotBody x s).length then (slotBody x s).getD (j - bodyAt) erasedWord
      else tget f erasedWord (slotAt base p s + j) := by
  have hbody := hfit s hs
  rw [writePair_eq, tget_slotsPut _ _ _ (commit_fits x) hs hj, tget_slotsPut _ _ _ (setHeader_fits serial p x) hs hj,
    tget_slotsPut _ _ _ (fun s hs => (hfit s hs).trans (by decide)) hs hj, setHeader_length]
  simp only [List.length_singleton, Nat.zero_le, true_and, Nat.zero_add, Nat.sub_zero]
  by_cases hcommit : j = commitAt
  · rw [if_pos ⟨hcommit.ge, by omega⟩, if_pos hcommit, hcommit, Nat.sub_self]; rfl
  · have hend : ¬ (commitAt ≤ j ∧ j < commitAt + 1) := by omega
    rw [if_neg hend, if_neg hcommit]
    by_cases hhead : j < bodyAt
    · rw [if_pos hhead, if_pos hhead]
    · simp [hhead, Nat.not_lt.mp hhead]

/-- The first words of a slot: magic, slot and pair, sequence number, erase count (R166). -/
theorem writePair_header {s : Nat} (hs : s < 2) :
    tget (writePair f serial base p x) erasedWord (slotAt base p s) = storeMagic ∧
      tget (writePair f serial base p x) erasedWord (slotAt base p s + 1) = 1 + s * 2 ^ 16 + p * 2 ^ 24 ∧
      tget (writePair f serial base p x) erasedWord (slotAt base p s + 2) = x.seq ∧
      tget (writePair f serial base p x) erasedWord (slotAt base p s + 3) = x.erases := by
  have hword {j : Nat} (hj : j < bodyAt) : tget (writePair f serial base p x) erasedWord (slotAt base p s + j) =
      (setHeader serial p x s).getD j erasedWord := by
    have hbody : bodyAt ≤ commitAt := by decide
    have hslot : bodyAt ≤ slotWords := by decide
    rw [writePair_at f serial base p hfit hs (hj.trans_le hslot), if_neg (by omega), if_pos hj]
  obtain ⟨rest, hrest⟩ := setHeader_eq serial p x s
  obtain ⟨h0, h1, h2, h3⟩ := getD_four storeMagic (1 + s * 2 ^ 16 + p * 2 ^ 24) x.seq x.erases rest erasedWord
  have hfirst := hword (j := 0) (by decide)
  rw [Nat.add_zero] at hfirst
  rw [hfirst, hword (j := 1) (by decide), hword (j := 2) (by decide), hword (j := 3) (by decide), hrest]
  exact ⟨h0, h1, h2, h3⟩

theorem writePair_commit {s : Nat} (hs : s < 2) :
    tget (writePair f serial base p x) erasedWord (slotAt base p s + commitAt) = commitWord x.seq := by
  rw [writePair_at f serial base p hfit hs (by decide), if_pos rfl]

/-- The body of slot A begins with the PCT targets (R167). -/
theorem writePair_pct {i : Nat} (hi : i < 61440) :
    tget (writePair f serial base p x) erasedWord (slotAt base p 0 + bodyAt + i) = tget x.pctT neutralPct i := by
  have hbody := hfit 0 two_pos
  have hlen := length_slotBody_a x
  have hcommit : commitAt < slotWords := by decide
  rw [Nat.add_assoc, writePair_at f serial base p hfit two_pos (by omega), if_neg (by omega), if_neg (by omega),
    if_pos (by omega), Nat.add_sub_cancel_left]
  simp [slotBody, List.getD_eq_getElem?_getD, List.getElem?_append_left, hi]

end

end Sys2Proof.Machine
end

section
/-! SUPPORT. Calibration polls: a step of the AFE, and the items that a reading of the temperatures marks. -/

namespace Sys2Proof.Machine

/-! AFE steps (R146) -/

/-- Head `h`'s AFE item a step further, taken in the gap `line`; another item as it is. -/
def stepItem (h line : Nat) (y : CalItem) : CalItem :=
  if y.kind = 2 ∧ y.item = h then { y with steps := y.steps + 1, gap := some line } else y

theorem stepItem_key (h line : Nat) (y : CalItem) :
    (stepItem h line y).kind = y.kind ∧ (stepItem h line y).item = y.item := by
  unfold stepItem
  split <;> exact ⟨rfl, rfl⟩

section

variable {d : Dev} {h : Nat} {x : CalItem}

theorem Dev.afeStep_takes (hitem : d.itemAt 2 h = some x) (hsteps : x.steps < 64) (hladder : d.ladderFree (groupOf h) = true)
    (hgap : d.trigStopped h = true ∧ (d.getHcp h).gapFrom ≤ d.t ∨ d.inGap h = true ∧ x.gap ≠ some (d.getHcp h).gapFrom) :
    d.afeStep h = d.setCal fun c => { c with items := c.items.map (stepItem h (d.getHcp h).gapFrom) } := by
  rw [Dev.afeStep, hitem]
  exact if_pos ⟨hsteps, hladder, hgap⟩

/-- Not twice in one gap. -/
theorem Dev.afeStep_waits (hitem : d.itemAt 2 h = some x) (hrun : d.trigStopped h = false)
    (hgap : x.gap = some (d.getHcp h).gapFrom) : d.afeStep h = d := by
  rw [Dev.afeStep, hitem]
  exact if_neg fun ⟨_, _, hor⟩ => hor.elim (fun hs => by simp [hrun] at hs) fun hg => hg.2 hgap

theorem Dev.itemAt_stepItem {line : Nat} (hitem : d.itemAt 2 h = some x) :
    (d.setCal fun c => { c with items := c.items.map (stepItem h line) }).itemAt 2 h =
      some { x with steps := x.steps + 1, gap := some line } := by
  have hx : x.kind = 2 ∧ x.item = h := by simpa using List.find?_some hitem
  have hsame : (fun y : CalItem => decide (y.kind = 2 ∧ y.item = h)) ∘ stepItem h line =
      fun y => decide (y.kind = 2 ∧ y.item = h) := by
    funext y
    simp only [Function.comp, stepItem_key]
  rw [Dev.itemAt] at hitem
  rw [Dev.itemAt, Dev.setCal_cal, List.find?_map, hsame, hitem, Option.map_some, stepItem, if_pos hx]

end

/-! The temperature poll (R157) -/

/-- An item of the poll is to be marked: a sensor has moved, or its part is stale. -/
def Dev.toMark (d : Dev) (k i : Nat) : Prop := d.calMoved k i = true ∨ d.partStale (partOf k i) = true

/-- The poll of one item. -/
def Dev.markItem (d : Dev) (x : Nat × Nat) : Dev :=
  if d.calMoved x.1 x.2 = true ∨ d.partStale (partOf x.1 x.2) = true then d.setDue x.1 x.2 true else d

theorem Dev.isDue_setDue (d : Dev) (k i k' i' : Nat) :
    (d.setDue k i true).isDue k' i' = true ↔ d.isDue k' i' = true ∨ (k', i') = (k, i) := by
  rw [Dev.isDue, Dev.isDue, Dev.setDue, Dev.setCal_cal, Prod.mk.injEq]
  by_cases hk : k' = k
  · subst hk
    rw [tget_tset_self, tbit_eq_testBit, tbit_eq_testBit, setBit, testBit_setBits]
    by_cases hi : i' = i
    · subst hi; simp [b2n]
    · rw [if_neg (by omega)]; simp [hi]
  · rw [tget_tset_ne _ _ _ _ hk]
    simp [hk]

theorem Dev.toMark_markItem (d : Dev) (x : Nat × Nat) (k i : Nat) : (d.markItem x).toMark k i ↔ d.toMark k i := by
  unfold Dev.markItem
  split <;> rfl

theorem Dev.isDue_markItem (d : Dev) (x : Nat × Nat) (k i : Nat) :
    (d.markItem x).isDue k i = true ↔ d.isDue k i = true ∨ x = (k, i) ∧ d.toMark k i := by
  obtain ⟨a, b⟩ := x
  unfold Dev.markItem Dev.toMark
  split
  · next h =>
    rw [Dev.isDue_setDue]
    constructor
    · rintro (hd | heq)
      · exact .inl hd
      · cases heq; exact .inr ⟨rfl, h⟩
    · rintro (hd | ⟨heq, -⟩)
      · exact .inl hd
      · exact .inr heq.symm
  · next h =>
    constructor
    · exact .inl
    · rintro (hd | ⟨heq, hm⟩)
      · exact hd
      · cases heq; exact absurd hm h

/-- The poll of a list of items marks those that are to be marked. -/
theorem Dev.isDue_markItems (d : Dev) (l : List (Nat × Nat)) (k i : Nat) :
    (l.foldl Dev.markItem d).isDue k i = true ↔ d.isDue k i = true ∨ (k, i) ∈ l ∧ d.toMark k i := by
  induction l generalizing d with
  | nil => simp
  | cons x l ih =>
    rw [List.foldl_cons, ih, Dev.isDue_markItem, Dev.toMark_markItem, List.mem_cons, or_assoc, ← or_and_right,
      eq_comm (a := x)]

theorem Dev.sparesScheduler_markItems (d : Dev) (xs : List (Nat × Nat)) (l : List (RegKind × Nat)) :
    d.sparesScheduler (xs.foldl Dev.markItem d) l :=
  foldl_keeps (fun e => d.sparesScheduler e l) _ _ _ (d.sparesScheduler_refl l) fun e x _ he => by
    unfold Dev.markItem
    split
    · exact he.setCal _ fun _ => rfl
    · exact he

/-- The poll of a firmware that runs, with nothing else to start. -/
theorem Dev.calPoll_idle {d : Dev} (hidle : d.calIdle) (hdom : d.domOn 3 = true) (htrig : d.on CAL_CTRL_TRIG 0 = true) :
    d.calPoll.startSettle = tempItems.foldl Dev.markItem d := by
  have hboot : d.pwr.booted = true := (Bool.and_eq_true_iff.mp hidle.1).1
  have hoff : ¬ (d.pwr.booted = false ∨ d.domOn 3 = false) := by simp [hboot, hdom]
  have hafter : (tempItems.foldl Dev.markItem d).calIdle :=
    (d.sparesScheduler_markItems tempItems []).calIdle (by simp) hidle
  rw [Dev.calPoll, if_neg hoff, if_pos htrig]
  exact Dev.calStep_idle hafter

end Sys2Proof.Machine
end

section
/-! SUPPORT. The context check: the distance of each part from the present activity, and the state it gives the part. -/

namespace Sys2Proof.Machine

/-! What a distance goes by (R162, R163) -/

/-- The live load context and the context that each part records are the same. -/
structure Dev.sameContext (d e : Dev) : Prop where
  regs : e.regs = d.regs
  now : e.now = d.now
  pcu : e.pcu = d.pcu
  temps : e.cal.temps = d.cal.temps
  vana : e.cal.vana = d.cal.vana
  act : e.cal.act = d.cal.act
  ctx : ∀ n, (e.getPart n).ctx = (d.getPart n).ctx

section

variable {d e : Dev}

theorem Dev.sameContext_refl (d : Dev) : d.sameContext d := ⟨rfl, rfl, rfl, rfl, rfl, rfl, fun _ => rfl⟩

theorem Dev.sameContext.trans {e' : Dev} (h : d.sameContext e) (h' : e.sameContext e') : d.sameContext e' :=
  ⟨h'.regs.trans h.regs, h'.now.trans h.now, h'.pcu.trans h.pcu, h'.temps.trans h.temps, h'.vana.trans h.vana,
    h'.act.trans h.act, fun n => (h'.ctx n).trans (h.ctx n)⟩

theorem Dev.sameContext.rreg (h : d.sameContext e) (k : RegKind) (i : Nat) : e.rreg k i = d.rreg k i := by
  rw [Dev.rreg, h.regs, Dev.rreg]

theorem Dev.sameContext.rf (h : d.sameContext e) (f : Fld) (i : Nat) : e.rf f i = d.rf f i := Dev.rf_of_rreg (h.rreg _ _)

theorem Dev.sameContext.ctxOf (h : d.sameContext e) (n : Nat) : e.ctxOf n = d.ctxOf n := by
  have hcount : e.enabledCount = d.enabledCount := by simp only [Dev.enabledCount, Dev.on, h.rf]
  have hrate : e.rate = d.rate := funext fun g => by rw [Dev.rate, h.pcu, h.now, Dev.rate]
  have hsetup : e.setupOf = d.setupOf := funext fun g => by simp only [Dev.setupOf, h.rf, h.rreg]
  simp only [Dev.ctxOf, hcount, hrate, hsetup, h.temps, h.vana, h.act, h.rf]

theorem Dev.sameContext.distance (h : d.sameContext e) (n : Nat) : e.distance n = d.distance n := by
  simp only [Dev.distance, h.ctxOf n, h.ctx n, h.rf, h.regs]

end

/-! The check of one part (R163) -/

/-- The state that a distance gives a part in use. -/
def checkedState (dist was : Nat) : Nat := if 256 < dist then 2 else if dist ≤ 192 then 1 else was

section

variable {d : Dev} {n : Nat}

theorem Dev.checkPart_unused (h : (d.getPart n).state = 0) : d.checkPart n = d := by
  unfold Dev.checkPart
  exact if_pos h

variable (d n) in
/-- The part with its distance, and the state that goes with it. -/
def Dev.checkedPart : Part :=
  { d.getPart n with dist := d.distance n, state := checkedState (d.distance n) (d.getPart n).state }

/-- A part in use becomes so; a change of its state leaves a record. -/
theorem Dev.checkPart_used (h : (d.getPart n).state ≠ 0) :
    d.checkPart n = d.setPart n (d.checkedPart n) ∨ ∃ v, d.checkPart n = (d.setPart n (d.checkedPart n)).post .edge 0x0E0 v := by
  have heq : d.checkPart n = if checkedState (d.distance n) (d.getPart n).state = (d.getPart n).state then
      d.setPart n (d.checkedPart n) else (d.setPart n (d.checkedPart n)).post .edge 0x0E0
        (n + if checkedState (d.distance n) (d.getPart n).state = 2 then 256 else 0) := by
    unfold Dev.checkPart
    exact if_neg h
  rw [heq]
  split
  · exact .inl rfl
  · exact .inr ⟨_, rfl⟩

theorem Dev.getPart_setPart (d : Dev) (n : Nat) (p : Part) : (d.setPart n p).getPart n = p := tget_tset_self _ _ _ _

theorem Dev.getPart_setPart_ne (d : Dev) {n m : Nat} (p : Part) (h : m ≠ n) : (d.setPart n p).getPart m = d.getPart m :=
  tget_tset_ne _ _ _ _ h

theorem Dev.sameContext_setPart {p : Part} (hp : p.ctx = (d.getPart n).ctx) : d.sameContext (d.setPart n p) :=
  ⟨rfl, rfl, rfl, rfl, rfl, rfl, fun m => by
    by_cases hm : m = n
    · rw [hm, Dev.getPart_setPart, hp]
    · rw [Dev.getPart_setPart_ne _ _ hm]⟩

theorem Dev.sameContext_post (d : Dev) (k : RecKind) (src value : Nat) : d.sameContext (d.post k src value) := by
  constructor <;> simp [Dev.getPart]

theorem Dev.checkPart_getPart (h : (d.getPart n).state ≠ 0) : (d.checkPart n).getPart n = d.checkedPart n := by
  obtain heq | ⟨v, heq⟩ := Dev.checkPart_used h
  · rw [heq, Dev.getPart_setPart]
  · rw [heq, Dev.getPart, Dev.post_cal]; exact Dev.getPart_setPart _ _ _

theorem Dev.checkPart_getPart_ne (d : Dev) {n m : Nat} (hm : m ≠ n) : (d.checkPart n).getPart m = d.getPart m := by
  by_cases h : (d.getPart n).state = 0
  · rw [Dev.checkPart_unused h]
  · obtain heq | ⟨v, heq⟩ := Dev.checkPart_used h
    · rw [heq, Dev.getPart_setPart_ne _ _ hm]
    · rw [heq, Dev.getPart, Dev.post_cal]; exact Dev.getPart_setPart_ne _ _ hm

theorem Dev.sparesScheduler_setPart (d : Dev) (n : Nat) (p : Part) (l : List (RegKind × Nat)) :
    d.sparesScheduler (d.setPart n p) l := Dev.sparesScheduler_of_regs rfl rfl rfl

theorem Dev.sparesScheduler_checkPart (d : Dev) (n : Nat) (l : List (RegKind × Nat)) : d.sparesScheduler (d.checkPart n) l := by
  by_cases h : (d.getPart n).state = 0
  · rw [Dev.checkPart_unused h]; exact d.sparesScheduler_refl l
  · obtain heq | ⟨v, heq⟩ := Dev.checkPart_used h
    · rw [heq]; exact d.sparesScheduler_setPart n _ l
    · rw [heq]; exact (d.sparesScheduler_setPart n _ l).post _ _ _

theorem Dev.sameContext_checkPart (d : Dev) (n : Nat) : d.sameContext (d.checkPart n) := by
  by_cases h : (d.getPart n).state = 0
  · rw [Dev.checkPart_unused h]; exact d.sameContext_refl
  · have hset : d.sameContext (d.setPart n (d.checkedPart n)) := Dev.sameContext_setPart rfl
    obtain heq | ⟨v, heq⟩ := Dev.checkPart_used h
    · rw [heq]; exact hset
    · rw [heq]; exact hset.trans (Dev.sameContext_post _ _ _ _)

end

/-! The check of several parts -/

section

variable (d : Dev) (ns : List Nat)

theorem Dev.sameContext_checkParts : d.sameContext (d.checkParts ns) :=
  foldl_keeps (fun e => d.sameContext e) _ _ _ d.sameContext_refl fun e n _ he => he.trans (e.sameContext_checkPart n)

theorem Dev.sparesScheduler_checkParts (l : List (RegKind × Nat)) : d.sparesScheduler (d.checkParts ns) l :=
  foldl_keeps (fun e => d.sparesScheduler e l) _ _ _ (d.sparesScheduler_refl l) fun e n _ he =>
    he.trans (e.sparesScheduler_checkPart n l)

theorem Dev.checkParts_getPart_out {m : Nat} (hm : m ∉ ns) : (d.checkParts ns).getPart m = d.getPart m :=
  foldl_keeps (fun e : Dev => e.getPart m = d.getPart m) _ _ _ rfl fun e n hn he =>
    (e.checkPart_getPart_ne fun h : m = n => hm (h ▸ hn)).trans he

/-- Each part in use takes its distance from the context before the check, and the state that goes with it. -/
theorem Dev.checkParts_getPart {ns : List Nat} (hnd : ns.Nodup) {n : Nat} (hn : n ∈ ns) (h : (d.getPart n).state ≠ 0) :
    (d.checkParts ns).getPart n = d.checkedPart n := by
  obtain ⟨before, after, heq, hb, ha, -, -⟩ := foldl_turn (fun (e : Dev) m => e.checkPart m) d hnd hn
  have hpart : (d.checkParts before).getPart n = d.getPart n := d.checkParts_getPart_out before hb
  have hdist : (d.checkParts before).distance n = d.distance n := (d.sameContext_checkParts before).distance n
  have hturn : d.checkParts ns = ((d.checkParts before).checkPart n).checkParts after := heq
  rw [hturn, Dev.checkParts_getPart_out _ after ha, Dev.checkPart_getPart (hpart.symm ▸ h), Dev.checkedPart, hpart, hdist,
    Dev.checkedPart]

end

/-! A second passes -/

/-- The activity registers (R245). -/
def activityRegs : List (RegKind × Nat) := (List.range 16).map fun n => (.FAB_ACT, n)

theorem mem_activityRegs {n : Nat} (hn : n < 16) : (RegKind.FAB_ACT, n) ∈ activityRegs := by
  simp [activityRegs, hn]

/-- The activity of one region is shown. -/
def Dev.showActivity (d : Dev) (n : Nat) : Dev :=
  d.wf FAB_ACT_ACT n (min 255 (roundDiv ((255 * tget d.fab.actNow 0 n : Nat) : Int) 128000000000).toNat)

section

variable (d : Dev)

theorem Dev.showActivity_cal (n : Nat) : (d.showActivity n).cal = d.cal := by rw [Dev.showActivity, Dev.wf_cal]

theorem Dev.sparesScheduler_showActivity {n : Nat} (hn : n < 16) : d.sparesScheduler (d.showActivity n) activityRegs := by
  rw [Dev.showActivity]
  exact (d.sparesScheduler_refl _).wf FAB_ACT_ACT _ (by omega) (mem_activityRegs hn)

theorem Dev.activity_eq : ∃ e a f, (List.range 16).foldl Dev.showActivity d = e ∧
    d.activity = { e with cal := { e.cal with act := a }, fab := f } := by
  unfold Dev.activity
  have hshow : (fun (e : Dev) n => e.wf FAB_ACT_ACT n
      (min 255 (roundDiv ((255 * tget e.fab.actNow 0 n : Nat) : Int) 128000000000).toNat)) = Dev.showActivity := rfl
  rw [hshow]
  generalize (List.range 16).foldl Dev.showActivity d = e
  exact ⟨e, _, _, rfl, rfl⟩

/-- The regions' activity is shown in the registers, and nothing of calibration changes. -/
theorem Dev.showActivity_walk : d.sparesScheduler ((List.range 16).foldl Dev.showActivity d) activityRegs ∧
    ((List.range 16).foldl Dev.showActivity d).cal = d.cal :=
  foldl_keeps (fun e => d.sparesScheduler e activityRegs ∧ e.cal = d.cal) _ _ _ ⟨d.sparesScheduler_refl _, rfl⟩
    fun e n hn ⟨he, hcal⟩ =>
      ⟨he.trans (e.sparesScheduler_showActivity (List.mem_range.mp hn)), (e.showActivity_cal n).trans hcal⟩

theorem Dev.sparesScheduler_activity : d.sparesScheduler d.activity activityRegs := by
  obtain ⟨e, a, f, hwalk, heq⟩ := d.activity_eq
  rw [heq]
  exact (hwalk ▸ d.showActivity_walk.1).trans (Dev.sparesScheduler_of_regs rfl rfl rfl)

theorem Dev.activity_getPart (n : Nat) : d.activity.getPart n = d.getPart n := by
  obtain ⟨e, a, f, hwalk, heq⟩ := d.activity_eq
  rw [heq, Dev.getPart, Dev.getPart, ← d.showActivity_walk.2, hwalk]

end

theorem partList_nodup : partList.Nodup := List.nodup_range.filter _

theorem Dev.secondPasses_on {d : Dev} (hboot : d.pwr.booted = true) (hrun : d.pwr.st = .run) (hdom : d.domOn 3 = true) :
    d.secondPasses = d.activity.checkParts partList := by
  have hpwr := d.sparesScheduler_activity.pwr
  have hdom' : d.activity.domOn 3 = true := by rw [Dev.domOn, hpwr, hrun]; rfl
  rw [Dev.secondPasses, if_neg (by simp [hboot, hdom]), Dev.contextCheck, if_neg (by simp [hpwr, hboot, hdom'])]
  rfl

end Sys2Proof.Machine
end

section
/-! SUPPORT. The calibration store: the end of a store, its failure, and a store that begins. -/

namespace Sys2Proof.Machine

/-! Records and handles -/

/-- Only records are posted and handles freed. -/
structure Dev.tells (d e : Dev) : Prop where
  regs : e.regs = d.regs
  pwr : e.pwr = d.pwr
  cal : e.cal = d.cal
  cfg : e.cfg = d.cfg

section

variable {d e : Dev}

theorem Dev.tells_refl (d : Dev) : d.tells d := ⟨rfl, rfl, rfl, rfl⟩

theorem Dev.tells.trans {e' : Dev} (h : d.tells e) (h' : e.tells e') : d.tells e' :=
  ⟨h'.regs.trans h.regs, h'.pwr.trans h.pwr, h'.cal.trans h.cal, h'.cfg.trans h.cfg⟩

theorem Dev.tells_post (d : Dev) (k : RecKind) (src value : Nat) : d.tells (d.post k src value) := by
  constructor <;> simp

theorem Dev.tells_finish (d : Dev) (h status detail : Nat) : d.tells (d.finish h status detail) := by
  unfold Dev.finish
  split
  · exact d.tells_refl
  · exact (d.tells_post _ _ _).trans ⟨rfl, rfl, rfl, rfl⟩

theorem Dev.tells_finishEach (d : Dev) (hs : List Nat) (status detail : Nat) :
    d.tells (d.each hs fun e h => e.finish h status detail) :=
  foldl_keeps (fun e => d.tells e) _ _ _ d.tells_refl fun e h _ he => he.trans (e.tells_finish h status detail)

theorem Dev.tells.spares (h : d.tells e) (l : List (RegKind × Nat)) : d.sparesScheduler e l :=
  Dev.sparesScheduler_of_regs h.regs h.pwr (by rw [h.cal])

theorem Dev.tells.rf (h : d.tells e) (f : Fld) (i : Nat) : e.rf f i = d.rf f i :=
  Dev.rf_of_rreg (by rw [Dev.rreg, h.regs, Dev.rreg])

theorem Dev.tells.flashWord (h : d.tells e) (a : Nat) : e.flashWord a = d.flashWord a := by
  rw [Dev.flashWord, h.cfg, Dev.flashWord]

end

theorem Dev.sparesScheduler.wbit {d e : Dev} {l : List (RegKind × Nat)} (h : d.sparesScheduler e l) (f : Fld) {i : Nat}
    (b : Nat) (v : Bool) (hi : i < 65536) (hm : (f.kind, i) ∈ l) : d.sparesScheduler (e.wbit f i b v) l :=
  h.trans ⟨(e.onlyRegs_wbit f b v hi).mono (by simpa using hm), rfl, rfl⟩

/-! The pair of the next store (R169) -/

theorem Dev.choosePair_lt {d : Dev} {but : Option Nat} {p : Nat} (h : d.choosePair but = some p) : p < 8 := by
  unfold Dev.choosePair at h
  refine foldl_keeps (fun b : Option Nat => ∀ p, b = some p → p < 8) _ _ none (by simp) ?_ p h
  intro b a ha hb p hp
  have hlt : a < 8 := List.mem_range.mp (List.mem_filter.mp ha).1
  cases b with
  | none => cases hp; exact hlt
  | some q =>
    dsimp only at hp
    split at hp
    · cases hp; exact hlt
    · exact hb p hp

/-- The choice does not go by what a store has left to do. -/
theorem Dev.choosePair_setCal (d : Dev) {f : Cal → Cal} (hf : (f d.cal).store = d.cal.store) (but : Option Nat) :
    (d.setCal f).choosePair but = d.choosePair but := by
  have hretired : (d.setCal f).pairRetired = d.pairRetired := funext fun p => by
    simp only [Dev.pairRetired, Dev.setCal_cal, hf]; rfl
  unfold Dev.choosePair
  rw [hretired]
  rfl

section

variable (d : Dev)

theorem Dev.storeNext_eq : ∃ n m, d.storeNext = (d.wf CAL_STORESTAT_NEXT 0 n).wf CAL_STORESTAT_RETIRED 0 m := ⟨_, _, rfl⟩

theorem Dev.sparesScheduler_storeNext : d.sparesScheduler d.storeNext [(.CAL_STORESTAT, 0)] := by
  obtain ⟨n, m, heq⟩ := d.storeNext_eq
  rw [heq]
  exact ((d.sparesScheduler_refl _).wf CAL_STORESTAT_NEXT _ (by decide) (by simp [CAL_STORESTAT_NEXT])).wf
    CAL_STORESTAT_RETIRED _ (by decide) (by simp [CAL_STORESTAT_RETIRED])

theorem Dev.storeNext_cal : d.storeNext.cal = d.cal := by
  obtain ⟨n, m, heq⟩ := d.storeNext_eq
  rw [heq, Dev.wf_cal, Dev.wf_cal]

theorem Dev.storeNext_cfg : d.storeNext.cfg = d.cfg := by
  obtain ⟨n, m, heq⟩ := d.storeNext_eq
  rw [heq, Dev.wf_cfg, Dev.wf_cfg]

theorem Dev.storeNext_flash (a : Nat) : d.storeNext.flashWord a = d.flashWord a := by
  rw [Dev.flashWord, Dev.storeNext_cfg, Dev.flashWord]

/-- A field apart from NEXT and RETIRED keeps its value. -/
theorem Dev.storeNext_rf {f : Fld} (hnext : Fld.apart CAL_STORESTAT_NEXT f = true)
    (hretired : Fld.apart CAL_STORESTAT_RETIRED f = true) : d.storeNext.rf f 0 = d.rf f 0 := by
  obtain ⟨n, m, heq⟩ := d.storeNext_eq
  rw [heq, Dev.rf_wf_apart _ (by decide) (by decide) _ _ _ hretired, Dev.rf_wf_apart _ (by decide) (by decide) _ _ _ hnext]

end

/-! A store that is verified (R168) -/

/-- The boot flash takes these words. -/
def Dev.setFlash (d : Dev) (f : Tab Nat) : Dev := { d with cfg := { d.cfg with flash := f } }

/-- A verified store: its set stands in the flash, and its pair is the one in force. -/
def Dev.storePut (d : Dev) (r : StoreRun) : Dev :=
  ((((d.setFlash (writePair d.cfg.flash d.fuses.serial r.base r.pair r.snap)).setCal fun c =>
    { c with store := none, hint := some r.pair, base := r.base, lastStore := d.now }).wf CAL_STORESTAT_PAIR 0 r.pair).wbit
      CAL_STORESTAT_VALID 0 r.pair true).wf CAL_STORESEQ_SEQ 0 r.snap.seq

/-- The registers of the store. -/
def storeRegs : List (RegKind × Nat) := [(.CAL_STORESTAT, 0), (.CAL_STORESEQ, 0)]

theorem Dev.sparesScheduler_setFlash (d : Dev) (f : Tab Nat) (l : List (RegKind × Nat)) :
    d.sparesScheduler (d.setFlash f) l := Dev.sparesScheduler_of_regs rfl rfl rfl

theorem Dev.rf_wbit_apart (d : Dev) (f g : Fld) {i j : Nat} (b : Nat) (v : Bool) (hi : i < 65536) (hj : j < 65536)
    (h : f.apart g = true) : (d.wbit f i b v).rf g j = d.rf g j :=
  d.rf_wf_apart hi hj f g (setBit (d.rf f i) b v) h

section

variable {d : Dev} {r : StoreRun}

theorem Dev.storeDone_good (h : d.cal.store = some r) : (d.storePut r).storeNext.tells (d.storeDone true) := by
  rw [Dev.storeDone, h]
  exact Dev.tells_finishEach _ _ _ _

theorem Dev.sparesScheduler_storePut (d : Dev) (r : StoreRun) : d.sparesScheduler (d.storePut r) storeRegs := by
  have hset := (d.sparesScheduler_setFlash (writePair d.cfg.flash d.fuses.serial r.base r.pair r.snap) storeRegs).setCal
    (fun c => { c with store := none, hint := some r.pair, base := r.base, lastStore := d.now }) fun _ => rfl
  exact ((hset.wf CAL_STORESTAT_PAIR _ (by decide) (by simp [CAL_STORESTAT_PAIR, storeRegs])).wbit CAL_STORESTAT_VALID _ _
    (by decide) (by simp [CAL_STORESTAT_VALID, storeRegs])).wf CAL_STORESEQ_SEQ _ (by decide)
    (by simp [CAL_STORESEQ_SEQ, storeRegs])

theorem Dev.sparesScheduler_storeDone (h : d.cal.store = some r) : d.sparesScheduler (d.storeDone true) storeRegs :=
  ((d.sparesScheduler_storePut r).trans ((Dev.sparesScheduler_storeNext _).mono (by simp [storeRegs]))).trans
    ((Dev.storeDone_good h).spares _)

theorem Dev.storePut_store (d : Dev) (r : StoreRun) : (d.storePut r).cal.store = none := by
  simp [Dev.storePut]

theorem Dev.storePut_flash (d : Dev) (r : StoreRun) (a : Nat) :
    (d.storePut r).flashWord a = tget (writePair d.cfg.flash d.fuses.serial r.base r.pair r.snap) erasedWord a := rfl

theorem Dev.storePut_shows (d : Dev) (hp : r.pair < 8) : (d.storePut r).rf CAL_STORESTAT_PAIR 0 = r.pair ∧
    tbit ((d.storePut r).rf CAL_STORESTAT_VALID 0) r.pair = true ∧
    (d.storePut r).rf CAL_STORESEQ_SEQ 0 = r.snap.seq % 2 ^ 32 := by
  unfold Dev.storePut
  refine ⟨?_, ?_, Dev.rf_wf_self _ _ _ _ (by decide)⟩
  · rw [Dev.rf_wf_apart _ (by decide) (by decide) _ _ _ (by decide), Dev.rf_wbit_apart _ _ _ _ _ (by decide) (by decide)
      (by decide), Dev.rf_wf_self _ _ _ _ (by decide)]
    exact Nat.mod_eq_of_lt (hp.trans (by decide))
  · rw [Dev.rf_wf_apart _ (by decide) (by decide) _ _ _ (by decide)]
    exact Dev.tbit_wbit_self _ _ _ _ (by decide) hp

end

/-! A store that fails (R172) -/

/-- A store given up, and the failure shown. -/
def Dev.storeLost (d : Dev) : Dev :=
  (d.setCal fun c => { c with store := none, lastStore := d.now }).wf CAL_STAT_STOREFAIL 0 1

section

variable {d : Dev} {r : StoreRun}

theorem Dev.storeFails_tells (d : Dev) (handles : List Nat) : d.storeLost.tells (d.storeFails handles) :=
  Dev.tells_finishEach _ _ _ _

theorem Dev.sparesScheduler_storeLost (d : Dev) : d.sparesScheduler d.storeLost [(.CAL_STAT, 0)] := by
  have hset := (d.sparesScheduler_refl [(.CAL_STAT, 0)]).setCal (fun c => { c with store := none, lastStore := d.now })
    fun _ => rfl
  exact hset.wf CAL_STAT_STOREFAIL _ (by decide) (by simp [CAL_STAT_STOREFAIL])

theorem Dev.storeLost_shows (d : Dev) : d.storeLost.on CAL_STAT_STOREFAIL 0 = true :=
  Dev.on_wf_one _ _ _ (by decide) (by decide)

/-- A store whose retry fails. -/
theorem Dev.storeDone_bad (h : d.cal.store = some r) (hretry : r.retry = true) :
    ∃ e v, (d.post .fault 0x0E3 v).storeLost.tells e ∧ d.storeDone false = e.storeNext := by
  refine ⟨_, r.pair, Dev.storeFails_tells _ r.handles, ?_⟩
  rw [Dev.storeDone, h]
  exact if_pos hretry

end

/-! A store that begins (R168, R169, R170) -/

/-- A pair is erased for a store and is no longer valid. -/
def Dev.storeErased (d : Dev) (run : StoreRun) : Dev :=
  ((d.setFlash (erasePair d.cfg.flash run.base run.pair)).setCal fun c => { c with store := some run }).wbit
    CAL_STORESTAT_VALID 0 run.pair false

section

variable {d : Dev} {p : Nat}

theorem Dev.sparesScheduler_storeErased (d : Dev) (run : StoreRun) :
    d.sparesScheduler (d.storeErased run) [(.CAL_STORESTAT, 0)] := by
  have hset := (d.sparesScheduler_setFlash (erasePair d.cfg.flash run.base run.pair) [(.CAL_STORESTAT, 0)]).setCal
    (fun c => { c with store := some run }) fun _ => rfl
  exact hset.wbit CAL_STORESTAT_VALID _ _ (by decide) (by simp [CAL_STORESTAT_VALID])

theorem Dev.storeErased_flash (d : Dev) (run : StoreRun) (a : Nat) :
    (d.storeErased run).flashWord a = tget (erasePair d.cfg.flash run.base run.pair) erasedWord a := rfl

theorem Dev.storeErased_valid (d : Dev) {run : StoreRun} (hp : run.pair < 8) :
    tbit ((d.storeErased run).rf CAL_STORESTAT_VALID 0) run.pair = false :=
  Dev.tbit_wbit_self _ _ _ _ (by decide) hp

/-- The store of a pair with the set in force. -/
def Dev.storesSet (d : Dev) (p : Nat) (run : StoreRun) : Prop :=
  run.pair = p ∧ run.base = d.storeBase ∧ run.retry = false ∧ run.snap.pctT = d.pcu.tables.pctT ∧
    run.snap.pttT = d.pcu.tables.pttT

theorem Dev.storeBegin_eq (d : Dev) (p : Nat) (handles : List Nat) :
    ∃ run e, d.storesSet p run ∧ (d.storeErased run).tells e ∧ d.storeBegin p handles false = e.storeNext := by
  refine ⟨⟨d.storeBase, p, d.storeSnap ((highestOf d.cfg.flash d.storeBase 2 + 1) % 2 ^ 32)
    ((erasesOf d.cfg.flash d.storeBase p + 1) % 2 ^ 32), handles, false⟩, _, ⟨rfl, rfl, rfl, rfl, rfl⟩, ?_, rfl⟩
  split
  · exact Dev.tells_post _ _ _ _
  · exact Dev.tells_refl _

/-- No request is held any more, and no change waits for a store. -/
def Dev.storeTaken (d : Dev) : Dev := d.setCal fun c => { c with heldStore := false, heldHandles := [], changed := false }

theorem Dev.storeStart_eq (h : d.choosePair none = some p) (handles : List Nat) :
    d.storeStart handles = d.storeTaken.storeBegin p handles false := by
  have hsame : d.storeTaken.choosePair none = some p := (d.choosePair_setCal rfl none).trans h
  unfold Dev.storeStart
  dsimp only
  split
  · next hnone => exact absurd (hsame.symm.trans hnone) (by simp)
  · next q hsome =>
    obtain rfl : p = q := Option.some.inj (hsame.symm.trans hsome)
    rfl

theorem Dev.sparesScheduler_storeTaken (h : d.calIdle) (l : List (RegKind × Nat)) : d.sparesScheduler d.storeTaken l := by
  obtain ⟨-, -, -, hstore, hheld, -⟩ := h
  refine Dev.sparesScheduler_of_regs rfl rfl ?_
  rw [Cal.asked, Cal.asked, hstore, hheld]
  rfl

end

end Sys2Proof.Machine
end

section
/-! The calibration polls and the store: what their rows do, and the obligation they settle. -/

namespace Sys2Proof.Machine

section

variable {s : State} (hidle : s.dev.calIdle)
include hidle

/-! The polls -/

/-- A step of a running AFE item with steps left, in a gap that has none yet. -/
theorem exec_afeCalStep_takes {h : Nat} {x : CalItem} (hgroup : s.dev.groupOn (groupOf h) = true)
    (hitem : s.dev.itemAt 2 h = some x) (hsteps : x.steps < 64) (hladder : s.dev.ladderFree (groupOf h) = true)
    (hgap : s.dev.trigStopped h = true ∧ (s.dev.getHcp h).gapFrom ≤ s.dev.t ∨
      s.dev.inGap h = true ∧ x.gap ≠ some (s.dev.getHcp h).gapFrom) :
    ∃ t, exec (.afeCalStep h) s = .next t ∧ s.onlyRegs t [] ∧
      t.dev.itemAt 2 h = some { x with steps := x.steps + 1, gap := some (s.dev.getHcp h).gapFrom } := by
  have hstep := Dev.afeStep_takes hitem hsteps hladder hgap
  have hspares : s.dev.sparesScheduler (s.dev.afeStep h) [] := hstep ▸ Dev.sparesScheduler_of_regs rfl rfl rfl
  refine ⟨_, State.calGroupRow_idle hidle hgroup hspares (by simp), State.onlyRegs_onDev hspares.regs, ?_⟩
  rw [State.onDev_dev, hstep, Dev.itemAt_stepItem hitem]

/-- A gap that has its step gets no other. -/
theorem exec_afeCalStep_waits {h : Nat} {x : CalItem} (hgroup : s.dev.groupOn (groupOf h) = true)
    (hitem : s.dev.itemAt 2 h = some x) (hrun : s.dev.trigStopped h = false) (hgap : x.gap = some (s.dev.getHcp h).gapFrom) :
    ∃ t, exec (.afeCalStep h) s = .next t ∧ s.onlyRegs t [] ∧ t.dev.itemAt 2 h = some x := by
  have hstep := Dev.afeStep_waits hitem hrun hgap
  have hspares : s.dev.sparesScheduler (s.dev.afeStep h) [] := hstep.symm ▸ s.dev.sparesScheduler_refl []
  refine ⟨_, State.calGroupRow_idle hidle hgroup hspares (by simp), State.onlyRegs_onDev hspares.regs, ?_⟩
  rw [State.onDev_dev, hstep, hitem]

/-- The poll marks the items that are to be marked. -/
theorem exec_calTempPoll (hdom : s.dev.domOn 3 = true) (htrig : s.dev.on CAL_CTRL_TRIG 0 = true) :
    ∃ t, exec .calTempPoll s = .next t ∧ s.onlyRegs t [] ∧ ∀ k i, (k, i) ∈ tempItems → (t.dev.isDue k i = true ↔
      s.dev.isDue k i = true ∨ s.dev.calMoved k i = true ∨ s.dev.partStale (partOf k i) = true) := by
  have hpoll : s.dev.calPoll.startSettle = tempItems.foldl Dev.markItem s.dev := Dev.calPoll_idle hidle hdom htrig
  have hspares := s.dev.sparesScheduler_markItems tempItems []
  refine ⟨s.onDev fun d => d.calPoll.startSettle, ?_, State.onlyRegs_onDev (hpoll ▸ hspares.regs), fun k i hki => ?_⟩
  · exact congrArg Host.Outcome.next (if_pos hidle.1)
  · rw [State.onDev_dev, hpoll, Dev.isDue_markItems, and_iff_right hki, Dev.toMark]

theorem exec_calContextCheck (hdom : s.dev.domOn 3 = true) :
    ∃ t, exec .calContextCheck s = .next t ∧ s.onlyRegs t activityRegs ∧
      ∀ n ∈ partList, (s.dev.getPart n).state ≠ 0 → (t.dev.getPart n).dist = s.dev.activity.distance n ∧
        (t.dev.getPart n).state = checkedState (s.dev.activity.distance n) (s.dev.getPart n).state := by
  have hboot : s.dev.pwr.booted = true := (Bool.and_eq_true_iff.mp hidle.1).1
  have hsecond := Dev.secondPasses_on hboot hidle.2.1 hdom
  have hspares : s.dev.sparesScheduler s.dev.secondPasses activityRegs :=
    hsecond ▸ s.dev.sparesScheduler_activity.trans (Dev.sparesScheduler_checkParts _ _ _)
  refine ⟨_, State.calRow_idle hidle hspares (by simp [activityRegs]), State.onlyRegs_onDev hspares.regs, fun n hn hused => ?_⟩
  have hpart : (s.dev.secondPasses).getPart n = s.dev.activity.checkedPart n := by
    rw [hsecond, Dev.checkParts_getPart _ partList_nodup hn (by rwa [Dev.activity_getPart])]
  rw [State.onDev_dev, hpart, Dev.checkedPart, Dev.activity_getPart]
  exact ⟨rfl, rfl⟩

/-! The store -/

/-- A verified set stands in both slots of its pair, and the pair is the one in force. -/
theorem exec_calStoreDone_good {r : StoreRun} (hstore : s.dev.cal.store = some r) (hp : r.pair < 8)
    (hrecords : (partRecords r.snap).length ≤ 4079) :
    ∃ t, exec (.calStoreDone true) s = .next t ∧ s.onlyRegs t storeRegs ∧ t.dev.cal.store = none ∧
      (∀ a, ¬ inPair r.base r.pair a → t.dev.flashWord a = s.dev.flashWord a) ∧
      (∀ slot, slot < 2 → t.dev.flashWord (slotAt r.base r.pair slot) = storeMagic ∧
        t.dev.flashWord (slotAt r.base r.pair slot + 1) = 1 + slot * 2 ^ 16 + r.pair * 2 ^ 24 ∧
        t.dev.flashWord (slotAt r.base r.pair slot + 2) = r.snap.seq ∧
        t.dev.flashWord (slotAt r.base r.pair slot + 3) = r.snap.erases ∧
        t.dev.flashWord (slotAt r.base r.pair slot + commitAt) = commitWord r.snap.seq) ∧
      (∀ i, i < 61440 → t.dev.flashWord (slotAt r.base r.pair 0 + bodyAt + i) = tget r.snap.pctT neutralPct i) ∧
      t.dev.rf CAL_STORESTAT_PAIR 0 = r.pair ∧ tbit (t.dev.rf CAL_STORESTAT_VALID 0) r.pair = true ∧
      t.dev.rf CAL_STORESEQ_SEQ 0 = r.snap.seq % 2 ^ 32 := by
  have hfit := bodiesFit_of_records hrecords
  have htells := Dev.storeDone_good hstore
  have hspares := Dev.sparesScheduler_storeDone hstore
  have hflash (a : Nat) : (s.dev.storeDone true).flashWord a =
      tget (writePair s.dev.cfg.flash s.dev.fuses.serial r.base r.pair r.snap) erasedWord a := by
    rw [htells.flashWord, Dev.storeNext_flash, Dev.storePut_flash]
  obtain ⟨hpair, hvalid, hseq⟩ := s.dev.storePut_shows hp
  refine ⟨_, State.calRow_idle hidle hspares (by simp [storeRegs]), State.onlyRegs_onDev hspares.regs, ?_, fun a ha => ?_,
    fun slot hslot => ?_, fun i hi => ?_, ?_, ?_, ?_⟩
  · rw [State.onDev_dev, htells.cal, Dev.storeNext_cal, Dev.storePut_store]
  · rw [State.onDev_dev, hflash, writePair_out _ _ _ _ hfit ha, Dev.flashWord]
  · obtain ⟨hmagic, hplace, hnumber, herases⟩ := writePair_header s.dev.cfg.flash s.dev.fuses.serial r.base r.pair hfit hslot
    simp only [State.onDev_dev, hflash]
    exact ⟨hmagic, hplace, hnumber, herases, writePair_commit _ _ _ _ hfit hslot⟩
  · rw [State.onDev_dev, hflash, writePair_pct _ _ _ _ hfit hi]
  · rw [State.onDev_dev, htells.rf, Dev.storeNext_rf _ (by decide) (by decide), hpair]
  · rw [State.onDev_dev, htells.rf, Dev.storeNext_rf _ (by decide) (by decide), hvalid]
  · rw [State.onDev_dev, htells.rf, Dev.storeNext_rf _ (by decide) (by decide), hseq]

/-- A store whose retry fails shows it and writes nothing. -/
theorem exec_calStoreDone_bad {r : StoreRun} (hstore : s.dev.cal.store = some r) (hretry : r.retry = true) :
    ∃ t, exec (.calStoreDone false) s = .next t ∧ s.onlyRegs t [(.CAL_STORESTAT, 0), (.CAL_STAT, 0)] ∧
      t.dev.cal.store = none ∧ t.dev.on CAL_STAT_STOREFAIL 0 = true ∧ t.dev.cfg.flash = s.dev.cfg.flash := by
  obtain ⟨e, v, htells, hdone⟩ := Dev.storeDone_bad hstore hretry
  have hlost : s.dev.sparesScheduler e [(.CAL_STAT, 0)] :=
    (((s.dev.sparesScheduler_refl _).post .fault 0x0E3 v).trans (Dev.sparesScheduler_storeLost _)).trans (htells.spares _)
  have hspares : s.dev.sparesScheduler (s.dev.storeDone false) [(.CAL_STORESTAT, 0), (.CAL_STAT, 0)] :=
    hdone ▸ (hlost.mono (by simp)).trans (e.sparesScheduler_storeNext.mono (by simp))
  refine ⟨_, State.calRow_idle hidle hspares (by simp), State.onlyRegs_onDev hspares.regs, ?_, ?_, ?_⟩
  · rw [State.onDev_dev, hdone, Dev.storeNext_cal, htells.cal, Dev.storeLost, Dev.wf_cal, Dev.setCal_cal]
  · rw [State.onDev_dev, hdone, e.sparesScheduler_storeNext.regs.on (by decide) (by simp [CAL_STAT_STOREFAIL]),
      (htells.spares []).regs.on (by decide) (by simp), Dev.storeLost_shows]
  · rw [State.onDev_dev, hdone, Dev.storeNext_cfg, htells.cfg, Dev.storeLost, Dev.wf_cfg, Dev.setCal_cfg, Dev.post_cfg]

/-- A store begins in the pair that the choice rule gives, with the set in force. -/
theorem exec_calStoreInterval {p : Nat} (hauto : s.dev.on CAL_STORECFG_AUTO 0 = true) (hchanged : s.dev.cal.changed = true)
    (hnone : s.dev.cal.store = none) (hboot : s.dev.pwr.booted = true)
    (htime : s.dev.cal.lastStore + 60000000000 * s.dev.rf CAL_STORECFG_MININT 0 ≤ s.dev.now)
    (hpair : s.dev.choosePair none = some p) :
    ∃ t, exec .calStoreInterval s = .next t ∧ s.onlyRegs t [(.CAL_STORESTAT, 0)] ∧
      (∃ r, t.dev.cal.store = some r ∧ s.dev.storesSet p r) ∧
      (∀ a, inPair s.dev.storeBase p a → t.dev.flashWord a = erasedWord) ∧
      (∀ a, ¬ inPair s.dev.storeBase p a → t.dev.flashWord a = s.dev.flashWord a) ∧
      tbit (t.dev.rf CAL_STORESTAT_VALID 0) p = false ∧ t.dev.cal.changed = false := by
  have hstart : s.dev.storeInterval = s.dev.storeStart s.dev.cal.heldHandles :=
    if_pos ⟨hauto, hchanged, by rw [hnone]; rfl, hboot, htime⟩
  obtain ⟨r, e, hset, htells, hbegin⟩ := s.dev.storeTaken.storeBegin_eq p s.dev.cal.heldHandles
  have hall : s.dev.storeInterval = e.storeNext := hstart.trans ((Dev.storeStart_eq hpair _).trans hbegin)
  have hspares : s.dev.sparesScheduler s.dev.storeInterval [(.CAL_STORESTAT, 0)] :=
    hall ▸ (((Dev.sparesScheduler_storeTaken hidle _).trans (Dev.sparesScheduler_storeErased _ r)).trans
      (htells.spares _)).trans e.sparesScheduler_storeNext
  obtain ⟨hrp, hrb, hrest⟩ := hset
  have hflash (a : Nat) : s.dev.storeInterval.flashWord a = tget (erasePair s.dev.cfg.flash s.dev.storeBase p) erasedWord a := by
    rw [hall, Dev.storeNext_flash, htells.flashWord, Dev.storeErased_flash, hrp, hrb]
    rfl
  have hcal : s.dev.storeInterval.cal = (s.dev.storeTaken.storeErased r).cal := by rw [hall, Dev.storeNext_cal, htells.cal]
  refine ⟨_, State.calRow_idle hidle hspares (by simp), State.onlyRegs_onDev hspares.regs, ⟨r, ?_, hrp, hrb, hrest⟩,
    fun a ha => ?_, fun a ha => ?_, ?_, ?_⟩
  · rw [State.onDev_dev, hcal]; rfl
  · rw [State.onDev_dev, hflash, erasePair_in _ _ _ ha]
  · rw [State.onDev_dev, hflash, erasePair_out _ _ _ ha, Dev.flashWord]
  · rw [State.onDev_dev, hall, Dev.storeNext_rf _ (by decide) (by decide), htells.rf, ← hrp,
      Dev.storeErased_valid _ (hrp ▸ Dev.choosePair_lt hpair)]
  · rw [State.onDev_dev, hcal]; rfl

end

/-- Settles O24: every row is its own happening alone, as the scheduler has nothing to start before it and after it. -/
theorem calibrationPolls : Obligations.CalibrationPolls := by
  unfold Obligations.CalibrationPolls
  refine ⟨fun s hidle hdom => ⟨fun h x _ hgroup hitem hsteps hladder => ⟨fun hgap => ?_, fun hrun hgap => ?_⟩, fun htrig => ?_, ?_⟩,
    fun s hidle => ⟨fun r hstore hp => ⟨fun hrecords => ?_, fun hretry => ?_⟩,
      fun p hauto hchanged hnone hboot htime hpair => ?_⟩⟩
  · exact exec_afeCalStep_takes hidle hgroup hitem hsteps hladder hgap
  · exact exec_afeCalStep_waits hidle hgroup hitem hrun hgap
  · exact exec_calTempPoll hidle hdom htrig
  · exact exec_calContextCheck hidle hdom
  · exact exec_calStoreDone_good hidle hstore hp hrecords
  · exact exec_calStoreDone_bad hidle hstore hretry
  · obtain ⟨t, hexec, hregs, ⟨r, hr, hset⟩, hrest⟩ := exec_calStoreInterval hidle hauto hchanged hnone hboot htime hpair
    exact ⟨t, hexec, hregs, ⟨r, hr, hset⟩, hrest⟩

end Sys2Proof.Machine
end

section
/-! SUPPORT. A write of a pin's bus selector at an instant at which the state notes a count in the written field. -/

namespace Sys2Proof.Machine

/-- The configured device in RUN, with a count of 1 noted at this instant in `ASW.AX[0].BUS`. -/
def notedSelector : State :=
  { State.reset with dev := { Dev.reset.wf CFG_STATUS_STATE 0 csDONE with
      sets := [(regKey .ASW_AX 0, 1)], pwr := { Pwr.reset with st := .run, booted := true } } }

/-- Pin 0 as a source of bus 5. -/
def busWord : Word := 5#32

theorem notedSelector_accepts : notedSelector.accepts .kweave .ASW_AX 0 busWord :=
  ⟨⟨show notedSelector.dev.managementOn = true by decide +kernel, by decide +kernel, by decide +kernel, nofun⟩,
    by decide +kernel, by decide +kernel⟩

/-- The write carries bus 5, the noted count is added to it, and the pin stands on bus 6. -/
theorem regWrite_notedSelector : (notedSelector.regWrite .kweave .ASW_AX 0 busWord).dev.rf ASW_AX_BUS 0 = 6 := by
  decide +kernel

/-- Refutes O27: its clauses on the selectors leave out the premise `setNow = 0` of `State.written`. Where the state notes a
count of 1 in BUS at this instant, a write that carries bus 5 leaves BUS 6 (R428), as in `notedSelector`. `ASW.AX` has no
counter, so that no run from reset should note one there; the statement speaks of every state. -/
theorem not_analogueBusAndCells : ¬ Obligations.AnalogueBusAndCells := by
  rintro ⟨hbus, -⟩
  obtain ⟨hpin, -⟩ := hbus notedSelector .kweave 0 busWord
  obtain ⟨t, ht, -, hsel, -⟩ := hpin (by decide) notedSelector_accepts
  have hrun : exec (.aswSelectorWrite .kweave .ax 0 busWord) notedSelector =
      .next (notedSelector.regWrite .kweave .ASW_AX 0 busWord) := rfl
  obtain rfl : notedSelector.regWrite .kweave .ASW_AX 0 busWord = t := Host.Outcome.next.inj (hrun.symm.trans ht)
  exact absurd (regWrite_notedSelector.symm.trans hsel) (by decide)

end Sys2Proof.Machine
end

section
/-! SUPPORT. A write of a converter's read index at an instant at which the state notes a count in the written field. -/

namespace Sys2Proof.Machine

/-- The configured device in RUN, its buffers of 1,024 entries, with a count of 1 noted at this instant in `MCV.RIDX[0]`. -/
def notedReadIndex : State :=
  { State.reset with dev := { Dev.reset.wf CFG_STATUS_STATE 0 csDONE with
      sets := [(regKey .MCV_RIDX 0, 1)], pwr := { Pwr.reset with st := .run, booted := true } } }

/-- Read index 5, within the buffer. -/
def readIndexWord : Word := 5#32

theorem notedReadIndex_accepts : notedReadIndex.accepts .kweave .MCV_RIDX 0 readIndexWord :=
  ⟨⟨show notedReadIndex.dev.managementOn = true by decide +kernel, by decide +kernel, by decide +kernel, nofun⟩,
    by decide +kernel, by decide +kernel⟩

/-- The write carries index 5, the noted count is added to it, and the read index stands at 6. -/
theorem regWrite_notedReadIndex :
    (notedReadIndex.regWrite .kweave .MCV_RIDX 0 readIndexWord).dev.rf MCV_RIDX_RIDX 0 = 6 := by
  decide +kernel

/-- Refutes O30: its clause on `MCV.RIDX` leaves out the premise `setNow = 0` of `State.written`. Where the state notes a
count of 1 in RIDX at this instant, a write that carries index 5 leaves RIDX 6 (R428), as in `notedReadIndex`. `MCV.RIDX` is
no counter, so that no run from reset should note one there; the statement speaks of every state. -/
theorem not_converterEvents : ¬ Obligations.ConverterEvents := by
  intro h
  obtain ⟨-, -, -, -, -, hridx, -⟩ := h notedReadIndex 0 (by decide) (by decide +kernel)
  obtain ⟨t, ht, -, hindex, -⟩ := hridx .kweave readIndexWord notedReadIndex_accepts
  have hrun : exec (.mcvRidxWrite .kweave 0 readIndexWord) notedReadIndex =
      .next (notedReadIndex.regWrite .kweave .MCV_RIDX 0 readIndexWord) := rfl
  obtain rfl : notedReadIndex.regWrite .kweave .MCV_RIDX 0 readIndexWord = t := Host.Outcome.next.inj (hrun.symm.trans ht)
  exact absurd (regWrite_notedReadIndex.symm.trans hindex) (by decide)

end Sys2Proof.Machine
end

section
/-! SUPPORT. Word-cell arithmetic: 24-bit words and the values they stand for, shifts and products (R219 to R223). -/

namespace Sys2Proof.Machine

/-! Words and values -/

/-- The ends of the range of a 24-bit word (R220). -/
def lo24 (sgn : Bool) : Int := if sgn then -8388608 else 0
def hi24 (sgn : Bool) : Int := if sgn then 8388607 else 16777215

theorem word24_lt (z : Int) : word24 z < 2 ^ 24 := by
  unfold word24 ux
  omega

/-- A value in range is the value of its word. -/
theorem val24_word24 {sgn : Bool} {z : Int} (hlo : lo24 sgn ≤ z) (hhi : z ≤ hi24 sgn) : val24 sgn (word24 z) = z := by
  cases sgn
  · simp only [lo24, hi24, Bool.false_eq_true, if_false] at hlo hhi
    simp only [val24, word24, ux, m24, Bool.false_eq_true, if_false]
    omega
  · simp only [lo24, hi24, if_true] at hlo hhi
    simp only [val24, word24, ux, sx, if_true]
    split_ifs <;> omega

theorem val24_bounds (sgn : Bool) (a : Nat) : lo24 sgn ≤ val24 sgn a ∧ val24 sgn a ≤ hi24 sgn := by
  cases sgn
  · simp only [lo24, hi24, val24, m24, Bool.false_eq_true, if_false]
    omega
  · simp only [lo24, hi24, val24, sx, if_true]
    split <;> omega

theorem clampI_bounds {lo hi : Int} (h : lo ≤ hi) (x : Int) : lo ≤ clampI lo hi x ∧ clampI lo hi x ≤ hi := by
  unfold clampI
  split
  · omega
  · split <;> omega

/-! Saturation (R220) -/

/-- A saturated word has the limited value, and its flag tells whether the limit has moved it. -/
theorem sat24_spec (sgn : Bool) (z : Int) : (sat24 sgn z).1 < 2 ^ 24 ∧
    val24 sgn (sat24 sgn z).1 = clampI (lo24 sgn) (hi24 sgn) z ∧
    ((sat24 sgn z).2 = true ↔ val24 sgn (sat24 sgn z).1 ≠ z) := by
  obtain ⟨hlo, hhi⟩ := clampI_bounds (lo := lo24 sgn) (hi := hi24 sgn) (by cases sgn <;> decide) z
  have hval : val24 sgn (sat24 sgn z).1 = clampI (lo24 sgn) (hi24 sgn) z := val24_word24 hlo hhi
  exact ⟨word24_lt _, hval, hval.symm ▸ decide_eq_true_iff⟩

/-! Shifts and products (R220, R223) -/

theorem asr_bounds {lo hi z : Int} (n : Nat) (hlo : lo ≤ z) (hhi : z ≤ hi) (hneg : lo ≤ 0) (hpos : 0 ≤ hi) :
    lo ≤ asr z n ∧ asr z n ≤ hi := by
  have hp : (1 : Int) ≤ (2 ^ n : Nat) := by exact_mod_cast Nat.one_le_two_pow
  unfold asr
  generalize ((2 ^ n : Nat) : Int) = p at hp
  exact ⟨(Int.le_ediv_iff_mul_le (by omega)).mpr (by nlinarith), (Int.ediv_le_iff_le_mul (by omega)).mpr (by nlinarith)⟩

theorem lo24_le_zero (sgn : Bool) : lo24 sgn ≤ 0 := by cases sgn <;> decide
theorem zero_le_hi24 (sgn : Bool) : 0 ≤ hi24 sgn := by cases sgn <;> decide

/-- An arithmetic shift to the right stays in range. -/
theorem val24_shr24 (sgn : Bool) (a n : Nat) : val24 sgn (shr24 sgn a n) = asr (val24 sgn a) n := by
  obtain ⟨hlo, hhi⟩ := val24_bounds sgn a
  obtain ⟨hlo', hhi'⟩ := asr_bounds n hlo hhi (lo24_le_zero sgn) (zero_le_hi24 sgn)
  exact val24_word24 hlo' hhi'

/-- The value of an operand of a multiplication: its low 18 bits (R220). -/
def val18 (sgn : Bool) (a : Nat) : Int := if sgn then sx 18 a else (a % 2 ^ 18 : Nat)

/-- A product of two 18-bit values takes 36 bits. -/
theorem val18_mul_bounds (sgn : Bool) (a b : Nat) :
    2 ^ 12 * lo24 sgn ≤ val18 sgn a * val18 sgn b ∧ val18 sgn a * val18 sgn b < 2 ^ 12 * (hi24 sgn + 1) := by
  cases sgn
  · have ha : val18 false a = (a % 2 ^ 18 : Nat) := rfl
    have hb : val18 false b = (b % 2 ^ 18 : Nat) := rfl
    have ha' : 0 ≤ val18 false a ∧ val18 false a < 2 ^ 18 := by omega
    have hb' : 0 ≤ val18 false b ∧ val18 false b < 2 ^ 18 := by omega
    simp only [lo24, hi24, Bool.false_eq_true, if_false]
    exact ⟨by nlinarith, by nlinarith⟩
  · have hs (x : Nat) : -2 ^ 17 ≤ val18 true x ∧ val18 true x < 2 ^ 17 := by
      simp only [val18, sx, if_true]
      split <;> omega
    obtain ⟨ha, ha'⟩ := hs a
    obtain ⟨hb, hb'⟩ := hs b
    simp only [lo24, hi24, if_true]
    exact ⟨by nlinarith, by nlinarith⟩

/-- From a shift by 12 on, the shifted product fits. -/
theorem val24_mul24 (sgn : Bool) (a b : Nat) {sh : Nat} (h : 12 ≤ sh) :
    val24 sgn (mul24 sgn a b sh) = asr (val18 sgn a * val18 sgn b) sh := by
  obtain ⟨hlo, hhi⟩ := val18_mul_bounds sgn a b
  have hsplit : asr (val18 sgn a * val18 sgn b) sh = asr (val18 sgn a * val18 sgn b / 2 ^ 12) (sh - 12) := by
    have hpow : ((2 ^ sh : Nat) : Int) = 2 ^ 12 * ((2 ^ (sh - 12) : Nat) : Int) := by
      rw [← Nat.add_sub_cancel' h, Nat.pow_add, Nat.add_sub_cancel_left, Nat.cast_mul]
      norm_num
    rw [asr, asr, hpow, Int.ediv_ediv_of_nonneg (by norm_num)]
  obtain ⟨hlo', hhi'⟩ := asr_bounds (lo := lo24 sgn) (hi := hi24 sgn) (z := val18 sgn a * val18 sgn b / 2 ^ 12) (sh - 12)
    (by omega) (by omega) (lo24_le_zero sgn) (zero_le_hi24 sgn)
  exact val24_word24 (by rwa [hsplit.symm] at hlo') (by rwa [hsplit.symm] at hhi')

/-- Settles O37: SUB is the sum with the complement, and the other results are the words of values in range. -/
theorem cellArithmetic : Obligations.CellArithmetic := by
  unfold Obligations.CellArithmetic
  intro a b c sh ha hb _
  refine ⟨?_, fun sgn => ?_, fun sgn => ?_, fun sgn => ?_, fun sgn hsh _ => ?_⟩
  · have hres : (a + (m24 - 1 - b) + 1) % m24 = (a + 2 ^ 24 - b) % 2 ^ 24 := by unfold m24; omega
    have hflag : (m24 ≤ a + (m24 - 1 - b) + 1) ↔ b ≤ a := by unfold m24; omega
    simp only [alu, hres, hflag]
  · obtain ⟨hlt, hval, hflag⟩ := sat24_spec sgn (val24 sgn a + val24 sgn b)
    exact ⟨_, _, rfl, hlt, hval, hflag⟩
  · obtain ⟨hlt, hval, -⟩ := sat24_spec sgn (val24 sgn a - val24 sgn b)
    exact ⟨_, _, rfl, hlt, hval⟩
  · exact ⟨_, _, rfl, word24_lt _, val24_shr24 sgn a (b % 32)⟩
  · exact ⟨_, _, rfl, word24_lt _, val24_mul24 sgn a b hsh⟩

end Sys2Proof.Machine
end

section
/-! SUPPORT. Fabric outputs: the queue of an output port, and the events of a region (R238, R240). -/

namespace Sys2Proof.Machine

/-! Maps of the ports -/

section

variable (d : Dev) (n p : Nat)

@[simp] theorem Dev.soPort_setSo (x : SoPort) : (d.setSo n p x).soPort n p = x := by
  simp [Dev.soPort, Dev.setSo]

theorem Dev.so_setSo_ne (x : SoPort) {k : Nat} (h : k ≠ 4 * n + p) :
    tget (d.setSo n p x).fab.so .reset k = tget d.fab.so .reset k := tget_tset_ne _ _ _ _ h

theorem Dev.onlyRegs_setSo (x : SoPort) (l : List (RegKind × Nat)) : d.onlyRegs (d.setSo n p x) l :=
  Dev.onlyRegs_of_regs rfl

theorem Dev.onlyRegs_setFab (f : Fab → Fab) (l : List (RegKind × Nat)) : d.onlyRegs (d.setFab f) l :=
  Dev.onlyRegs_of_regs rfl

end

/-! The queue (R238) -/

section

variable {d : Dev} {n p : Nat} {w : FabWord} {rest : List FabWord} (hpend : (d.soPort n p).pend = w :: rest)
include hpend

/-- With room in the queue the word enters it, and only the port changes. -/
theorem Dev.soEnqueue_enters (hroom : (d.soPort n p).queue.length < 8) : ∃ x, d.soEnqueue n p = d.setSo n p x ∧
    x.pend = rest ∧ x.words = (d.soPort n p).words ∧
    x.queue = (d.soPort n p).queue ++
      [{ w with val := if w.kind = .eol then setBit w.val 2 (d.soPort n p).ovf else w.val }] ∧
    x.ovf = ((d.soPort n p).ovf && decide (w.kind ≠ .eol)) := by
  rw [Dev.soEnqueue]
  simp only [hpend, if_neg (Nat.not_le.mpr hroom)]
  refine ⟨_, rfl, rfl, rfl, rfl, ?_⟩
  by_cases heol : w.kind = .eol <;> simp [heol]

/-- A full queue loses the word, and the loss is counted. -/
theorem Dev.soEnqueue_loses (hfull : 8 ≤ (d.soPort n p).queue.length) : d.soEnqueue n p =
    (d.setSo n p { d.soPort n p with pend := rest, ovf := true }).inc FAB_SOOVF_WORDS n 1 := by
  rw [Dev.soEnqueue]
  simp only [hpend, if_pos hfull]

end

/-! Events (R240) -/

section

variable {d : Dev} {n v tb : Nat} {rest : List (Nat × Nat)}

/-- The oldest event of a region has left its list. -/
def Dev.eventTaken (d : Dev) (n : Nat) (rest : List (Nat × Nat)) : Dev :=
  d.setFab (fun f => { f with evPend := tset f.evPend [] n rest })

variable (hpend : tget d.fab.evPend [] n = (v, tb) :: rest)
include hpend

/-- Within 1 us of the record before it of its output, an event is withheld. -/
theorem Dev.eventOutput_withheld (hlast : tget d.fab.evLast 0 (4 * n + v % 4) ≠ 0)
    (htime : tb < tget d.fab.evLast 0 (4 * n + v % 4) - 1 + 1000) :
    d.eventOutput n = (d.eventTaken n rest).inc FAB_EVCFG_SUPP n 1 := by
  rw [Dev.eventOutput]
  simp only [hpend]
  exact if_pos ⟨hlast, htime⟩

theorem Dev.eventOutput_posts (htime : tget d.fab.evLast 0 (4 * n + v % 4) = 0 ∨
      tget d.fab.evLast 0 (4 * n + v % 4) - 1 + 1000 ≤ tb) :
    d.eventOutput n = ((d.eventTaken n rest).setFab (fun f => { f with
      evLast := tset f.evLast 0 (4 * n + v % 4) (tb + 1) })).postAt .edge (0x100 + n) v tb := by
  rw [Dev.eventOutput]
  simp only [hpend]
  exact if_neg fun h => htime.elim h.1 fun hle => by omega

end

theorem Dev.postAt_inFlight {d : Dev} (h : d.pwr.booted = true) (k : RecKind) (src value tb : Nat) :
    (d.postAt k src value tb).evq.inFlight = d.evq.inFlight ++ [⟨k, src, false, false, value, tb⟩] :=
  d.postRec_evq _ h

/-! The rows -/

section

variable {s : State} {n : Nat} (hn : n < 16) (hlive : s.dev.live (34 + n) = true)
include hlive

theorem exec_fabOutputWord_enters {p : Nat} {w : FabWord} {rest : List FabWord}
    (hpend : (s.dev.soPort n p).pend = w :: rest) (hroom : (s.dev.soPort n p).queue.length < 8) :
    ∃ t, exec (.fabOutputWord n p) s = .next t ∧ s.onlyRegs t [] ∧
      (t.dev.soPort n p).pend = rest ∧ (t.dev.soPort n p).words = (s.dev.soPort n p).words ∧
      (t.dev.soPort n p).queue = (s.dev.soPort n p).queue ++
        [{ w with val := if w.kind = .eol then setBit w.val 2 (s.dev.soPort n p).ovf else w.val }] ∧
      (t.dev.soPort n p).ovf = ((s.dev.soPort n p).ovf && decide (w.kind ≠ .eol)) ∧
      ∀ k, k ≠ 4 * n + p → tget t.dev.fab.so .reset k = tget s.dev.fab.so .reset k := by
  obtain ⟨x, heq, hrest, hwords, hqueue, hovf⟩ := Dev.soEnqueue_enters hpend hroom
  refine ⟨_, State.devWithin_live hlive, State.onlyRegs_onDev (heq ▸ s.dev.onlyRegs_setSo n p x []), ?_⟩
  rw [State.onDev_dev, heq, Dev.soPort_setSo]
  exact ⟨hrest, hwords, hqueue, hovf, fun k hk => s.dev.so_setSo_ne n p x hk⟩

include hn

theorem exec_fabOutputWord_loses {p : Nat} {w : FabWord} {rest : List FabWord}
    (hpend : (s.dev.soPort n p).pend = w :: rest) (hfull : 8 ≤ (s.dev.soPort n p).queue.length) :
    ∃ t, exec (.fabOutputWord n p) s = .next t ∧ s.onlyRegs t [(.FAB_SOOVF, n)] ∧
      t.dev.soPort n p = { s.dev.soPort n p with pend := rest, ovf := true } ∧ s.dev.counts t.dev FAB_SOOVF_WORDS n 1 ∧
      ∀ k, k ≠ 4 * n + p → tget t.dev.fab.so .reset k = tget s.dev.fab.so .reset k := by
  have heq := Dev.soEnqueue_loses hpend hfull
  generalize hx : ({ s.dev.soPort n p with pend := rest, ovf := true } : SoPort) = x at heq ⊢
  refine ⟨_, State.devWithin_live hlive, State.onlyRegs_onDev ?_, ?_⟩
  · rw [heq]
    exact (s.dev.onlyRegs_setSo n p x _).trans (Dev.onlyRegs_inc _ _ _ (by omega) (by simp [FAB_SOOVF_WORDS]))
  · rw [State.onDev_dev, heq, Dev.counts, Dev.rf_inc_self _ _ _ _ (by decide)]
    exact ⟨Dev.soPort_setSo .., rfl, fun k hk => s.dev.so_setSo_ne n p x hk⟩

omit hn in
theorem exec_fabEventOutput_posts {v tb : Nat} {rest : List (Nat × Nat)} (hpend : tget s.dev.fab.evPend [] n = (v, tb) :: rest)
    (htime : tget s.dev.fab.evLast 0 (4 * n + v % 4) = 0 ∨ tget s.dev.fab.evLast 0 (4 * n + v % 4) - 1 + 1000 ≤ tb)
    (hboot : s.dev.pwr.booted = true) :
    ∃ t, exec (.fabEventOutput n) s = .next t ∧ s.onlyRegs t [] ∧ tget t.dev.fab.evPend [] n = rest ∧
      tget t.dev.fab.evLast 0 (4 * n + v % 4) = tb + 1 ∧
      t.dev.evq.inFlight = s.dev.evq.inFlight ++ [⟨.edge, 0x100 + n, false, false, v, tb⟩] := by
  have heq := Dev.eventOutput_posts hpend htime
  refine ⟨_, State.devWithin_live hlive, State.onlyRegs_onDev (heq ▸ Dev.onlyRegs_of_regs (Dev.postAt_regs ..)), ?_⟩
  rw [State.onDev_dev, heq, Dev.postAt_fab]
  exact ⟨tget_tset_self .., by rw [Dev.setFab_fab, tget_tset_self], Dev.postAt_inFlight (by exact hboot) ..⟩

theorem exec_fabEventOutput_withheld {v tb : Nat} {rest : List (Nat × Nat)}
    (hpend : tget s.dev.fab.evPend [] n = (v, tb) :: rest) (hlast : tget s.dev.fab.evLast 0 (4 * n + v % 4) ≠ 0)
    (htime : tb < tget s.dev.fab.evLast 0 (4 * n + v % 4) - 1 + 1000) :
    ∃ t, exec (.fabEventOutput n) s = .next t ∧ s.onlyRegs t [(.FAB_EVCFG, n)] ∧ tget t.dev.fab.evPend [] n = rest ∧
      t.dev.fab.evLast = s.dev.fab.evLast ∧ t.dev.evq = s.dev.evq ∧ s.dev.counts t.dev FAB_EVCFG_SUPP n 1 ∧
      t.dev.rf FAB_EVCFG_EN n = s.dev.rf FAB_EVCFG_EN n := by
  have heq := Dev.eventOutput_withheld hpend hlast htime
  refine ⟨_, State.devWithin_live hlive, State.onlyRegs_onDev ?_, ?_⟩
  · rw [heq]
    exact (s.dev.onlyRegs_setFab _ _).trans (Dev.onlyRegs_inc _ _ _ (by omega) (by simp [FAB_EVCFG_SUPP]))
  · rw [State.onDev_dev, heq, Dev.counts, Dev.rf_inc_self _ _ _ _ (by decide),
      Dev.rf_inc_apart _ (by omega) (by omega) _ _ _ (by decide), Dev.inc_fab, Dev.inc_evq]
    exact ⟨tget_tset_self .., rfl, rfl, rfl, rfl⟩

end

/-- Settles O36: a word enters the queue or is lost as the queue has room, and an event is posted or withheld as the time since
the record before it says. -/
theorem fabricOutputs : Obligations.FabricOutputs := by
  unfold Obligations.FabricOutputs
  exact ⟨fun s n p w rest hn _ hlive hpend => ⟨exec_fabOutputWord_enters hlive hpend, exec_fabOutputWord_loses hn hlive hpend⟩,
    fun s n v tb rest hn hlive hpend => ⟨exec_fabEventOutput_posts hlive hpend, exec_fabEventOutput_withheld hn hlive hpend⟩⟩

end Sys2Proof.Machine
end

section
/-! SUPPORT. A region whose write enable has come before the release of its cells from reset. -/

namespace Sys2Proof.Machine

/-- The configured device in RUN. Region 0 has a clock and its write enable, as after LOCK and WEN of the start-up order
0x0054_1230, and GSRREL has not come; cell 0 of its first tile holds 5. -/
def wenBeforeGsr : State :=
  { State.reset with dev := { ((Dev.reset.wf CFG_STATUS_STATE 0 csDONE).wf FAB_RCLK_FSEL 0 1) with
      pwr := { Pwr.reset with st := .run, booted := true }
      fab := { Fab.reset with wen := 1, cells := [(0, (5, false))] } } }

/-- The cells are in reset, so that an edge of the region's clock moves nothing (R243). -/
theorem wordCellCycle_wenBeforeGsr : wenBeforeGsr.wordCellCycle 0 0 [] [] = wenBeforeGsr := by
  decide +kernel

/-- The next R of the cell, by its cleared instruction, is 0. -/
theorem cellEdge_wenBeforeGsr :
    (wenBeforeGsr.dev.cellEdge (tileOf 0 0) (wenBeforeGsr.dev.ctx (tileOf 0 0)) 0).1 = (0, false) ∧
      wenBeforeGsr.dev.cell (tileOf 0 0) 0 = (5, false) := by
  decide +kernel

theorem exec_wordCellCycle {s : State} {n : Nat} (pads : Nat) (raw : List (Nat × Nat)) (errs : List (Nat × MemEcc))
    (hlive : s.dev.live (34 + n) = true) :
    exec (.wordCellCycle n pads raw errs) s = .next (s.wordCellCycle n pads raw errs) :=
  State.within_live (f := fun s => s.wordCellCycle n pads raw errs) hlive

/-- Refutes O38: its premise that the cells run is the write enable alone, and the cells of a region that is still in reset
do not move (R243). A STARTUP_ORDER packet may place WEN before GSRREL (R313); between the two steps the device is as in
`wenBeforeGsr`, whose cell keeps its 5 where its instruction would give 0. -/
theorem not_regionClockEdge : ¬ Obligations.RegionClockEdge := by
  intro h
  obtain ⟨t, ht, -, -, hcells, -⟩ := h wenBeforeGsr 0 0 [] (by decide) (by decide +kernel) (by decide +kernel)
    (by decide +kernel) (by decide +kernel) (fun _ _ _ _ => rfl)
  have hlive : wenBeforeGsr.dev.live (34 + 0) = true := by decide +kernel
  have hrun := exec_wordCellCycle 0 [] [] hlive
  rw [wordCellCycle_wenBeforeGsr] at hrun
  obtain rfl : wenBeforeGsr = t := Host.Outcome.next.inj (hrun.symm.trans ht)
  obtain ⟨hnext, hnow⟩ := cellEdge_wenBeforeGsr
  have hmoved := hcells 0 0 (by decide) (by decide)
  dsimp only at hmoved
  rw [hnow, hnext] at hmoved
  exact absurd hmoved (by decide)

end Sys2Proof.Machine
end

section
/-! SUPPORT. A write that arms a snapshot at an instant at which the state notes a count in the written field. -/

namespace Sys2Proof.Machine

/-- The configured device in RUN with a clock in region 0, and a count of 1 noted at this instant in `FAB.SNAPCTRL.REGIONS`. -/
def notedRegions : State :=
  { State.reset with dev := { ((Dev.reset.wf CFG_STATUS_STATE 0 csDONE).wf FAB_RCLK_FSEL 0 1) with
      sets := [(regKey .FAB_SNAPCTRL 0, 1)], pwr := { Pwr.reset with st := .run, booted := true } } }

/-- ARM, with region 0 selected. -/
def snapArmWord : Word := 0x20000001#32

theorem notedRegions_accepts : notedRegions.accepts .kweave .FAB_SNAPCTRL 0 snapArmWord :=
  ⟨⟨show notedRegions.dev.managementOn = true by decide +kernel, by decide +kernel, by decide +kernel, nofun⟩,
    by decide +kernel, by decide +kernel⟩

/-- The noted count is added to the regions that the write carries, and region 0 is not awaited. -/
theorem regWrite_notedRegions :
    tbit (notedRegions.regWrite .kweave .FAB_SNAPCTRL 0 snapArmWord).dev.fab.snapLeft 0 = false := by
  decide +kernel

/-- Refutes O43: its clause on arming leaves out the premise `setNow = 0` of `State.written`. Where the state notes a count
of 1 in REGIONS at this instant, a write that selects region 0 leaves REGIONS 2 (R428), and region 1 is selected in its
place, as in `notedRegions`. `FAB.SNAPCTRL` has no counter, so that no run from reset should note one there; the statement
speaks of every state. -/
theorem not_snapshotsAndIsolation : ¬ Obligations.SnapshotsAndIsolation := by
  intro h
  obtain ⟨hctrl, -⟩ := h notedRegions .kweave snapArmWord
  obtain ⟨harm, -⟩ := hctrl notedRegions_accepts
  obtain ⟨t, ht, -, -, -, -, hleft⟩ := harm (by decide +kernel) (by decide +kernel) (by decide +kernel)
    ⟨0, by decide, by decide +kernel, by decide +kernel⟩
  have hrun : exec (.snapshotArm .kweave snapArmWord) notedRegions =
      .next (notedRegions.regWrite .kweave .FAB_SNAPCTRL 0 snapArmWord) := rfl
  obtain rfl : notedRegions.regWrite .kweave .FAB_SNAPCTRL 0 snapArmWord = t := Host.Outcome.next.inj (hrun.symm.trans ht)
  have hselected : (tbit (carried snapArmWord FAB_SNAPCTRL_REGIONS) 0 && !notedRegions.dev.snapSkips 0) = true := by decide +kernel
  exact absurd (regWrite_notedRegions.symm.trans ((hleft 0 (by decide)).trans hselected)) (by decide)

end Sys2Proof.Machine
end

section
/-! SUPPORT. A finished line at its stream port: it joins the port, is dropped or is discarded (R234, R236, R255). -/

namespace Sys2Proof.Machine

/-! A counter of several elements -/

/-- A counter field of each of these elements goes up by 1. -/
def Dev.incEach (d : Dev) (f : Fld) (ms : List Nat) : Dev := ms.foldl (fun d m => d.inc f m 1) d

section

variable (d : Dev) (f : Fld) {ms : List Nat}

/-- Only the register map changes, with the notes of R428. -/
theorem Dev.incEach_keeps (ms : List Nat) : (d.incEach f ms).fab = d.fab ∧ (d.incEach f ms).pwr = d.pwr :=
  foldl_keeps (fun e => e.fab = d.fab ∧ e.pwr = d.pwr) (fun e m => e.inc f m 1) ms d ⟨rfl, rfl⟩ fun _ _ _ he => he

theorem Dev.onlyRegs_incEach (hms : ∀ m ∈ ms, m < 65536) : d.onlyRegs (d.incEach f ms) (ms.map fun m => (f.kind, m)) :=
  d.onlyRegs_foldl _ _ fun e m hm => e.onlyRegs_inc f 1 (hms m hm) (List.mem_map.mpr ⟨m, hm, rfl⟩)

theorem Dev.incEach_rf_apart (g : Fld) (h : f.apart g = true) (hms : ∀ m ∈ ms, m < 65536) {i : Nat} (hi : i < 65536) :
    (d.incEach f ms).rf g i = d.rf g i :=
  foldl_keeps (fun e => e.rf g i = d.rf g i) _ ms d rfl fun e m hm he =>
    (e.rf_inc_apart (hms m hm) hi f g 1 h).trans he

theorem Dev.incEach_counts (hfit : f.lsb + f.width ≤ 32) (hnd : ms.Nodup) {m : Nat} (hm : m ∈ ms) :
    d.counts (d.incEach f ms) f m 1 := by
  obtain ⟨before, after, heq, hb, ha, -, -⟩ := foldl_turn (fun (e : Dev) m => e.inc f m 1) d hnd hm
  have hone (e : Dev) {x : Nat} (hx : m ≠ x) : (e.inc f x 1).rf f m = e.rf f m := e.rf_wf_idx f f _ rfl hx
  have hout (e : Dev) (xs : List Nat) (hx : m ∉ xs) : (xs.foldl (fun e m => e.inc f m 1) e).rf f m = e.rf f m :=
    foldl_keeps (fun e' => e'.rf f m = e.rf f m) (fun e m => e.inc f m 1) xs e rfl fun e' _ hx' he =>
      (hone e' fun h => hx (by rwa [h])).trans he
  rw [Dev.counts, Dev.incEach, heq, hout _ _ ha, Dev.rf_inc_self _ _ _ _ hfit, hout _ _ hb]

end

/-! Ports -/

section

variable (d : Dev) (n p : Nat)

@[simp] theorem Dev.siPort_setSi (x : SiPort) : (d.setSi n p x).siPort n p = x := by
  rw [Dev.siPort, Dev.setSi, Dev.setFab_fab]
  exact tget_tset_self ..

theorem Dev.si_setSi_ne (x : SiPort) {k : Nat} (h : k ≠ 4 * d.inRgn n + p) :
    tget (d.setSi n p x).fab.si .reset k = tget d.fab.si .reset k := tget_tset_ne _ _ _ _ h

/-- A port stays where the fabric's ports and the mode do. -/
theorem Dev.siPort_congr {d e : Dev} {l : List (RegKind × Nat)} (hregs : d.onlyRegs e l) (hmode : (.SYS_STATUS, 0) ∉ l)
    (hsi : e.fab.si = d.fab.si) : e.siPort n p = d.siPort n p := by
  have hpaired : e.paired = d.paired := hregs.on (f := SYS_STATUS_PAIRED) (by decide) hmode
  rw [Dev.siPort, Dev.inRgn, hpaired, hsi, Dev.siPort, Dev.inRgn]

end

/-! The line meets its port -/

/-- The regions that a line for region `n` reaches. -/
def Dev.lineHalves (d : Dev) (n : Nat) : List Nat := if d.paired then [n, n + 8] else [n]

theorem Dev.lineHalves_lt {d : Dev} {n : Nat} (hn : n < 16) : ∀ m ∈ d.lineHalves n, m < 65536 := by
  unfold Dev.lineHalves
  split <;> simp <;> omega

theorem Dev.lineHalves_nodup (d : Dev) (n : Nat) : (d.lineHalves n).Nodup := by
  unfold Dev.lineHalves
  split <;> simp

/-- A line that does not enter its port is counted by the field `f`, and the next line tells it. -/
def Dev.lineLost (d : Dev) (f : Fld) (n p : Nat) (o : LineOut) : Dev :=
  ((d.incEach f (d.lineHalves n)).setSi n p { d.siPort n p with pdrop := true }).inc PCU_DROPCNT_STREAM (groupOf o.head) 1

/-- The marker of a discarded line on output port `q` (R255). -/
def discardLine (n : Nat) (o : LineOut) (q : Nat) : FabLine :=
  { region := n, port := q, tag := some ⟨o.head, o.num, o.s, o.pos, o.gap, o.stale⟩, tb := o.s, words := [], eol := 0
    ovf := false, trunc := false, discard := true, mismatch := false, cyc := .none, sig := 0, pol := 0, verdict := true }

/-- These lines join those that wait for their lanes. -/
def Dev.addLines (d : Dev) (ls : List FabLine) : Dev := d.setFab (fun f => { f with lines := f.lines ++ ls })

section

variable (d : Dev) (ls : List FabLine)

@[simp] theorem Dev.addLines_regs : (d.addLines ls).regs = d.regs := Dev.setFab_regs ..
@[simp] theorem Dev.addLines_rf (f : Fld) (i : Nat) : (d.addLines ls).rf f i = d.rf f i := Dev.setFab_rf ..
@[simp] theorem Dev.addLines_evq : (d.addLines ls).evq = d.evq := Dev.setFab_evq ..
@[simp] theorem Dev.addLines_lines : (d.addLines ls).fab.lines = d.fab.lines ++ ls := rfl

theorem Dev.onlyRegs_addLines (l : List (RegKind × Nat)) : d.onlyRegs (d.addLines ls) l :=
  Dev.onlyRegs_of_regs (d.addLines_regs ls)

end

theorem Dev.addLines_addLines (d : Dev) (ls ms : List FabLine) : (d.addLines ls).addLines ms = d.addLines (ls ++ ms) := by
  simp [Dev.addLines, Dev.setFab]

theorem Dev.discardMarkers_eq (d : Dev) (n p : Nat) (o : LineOut) : d.discardMarkers n p o =
    d.addLines (((List.range 4).filter fun q => d.soMsrc n q = p).map (discardLine n o)) := by
  have hwalk (qs : List Nat) (ls : List FabLine) : qs.foldl (fun e q => if e.soMsrc n q = p then
      e.addLines [discardLine n o q] else e) (d.addLines ls) =
        d.addLines (ls ++ (qs.filter fun q => d.soMsrc n q = p).map (discardLine n o)) := by
    induction qs generalizing ls with
    | nil => rw [List.foldl_nil, List.filter_nil, List.map_nil, List.append_nil]
    | cons q qs ih =>
      rw [List.foldl_cons, show (d.addLines ls).soMsrc n q = d.soMsrc n q from rfl]
      by_cases hq : d.soMsrc n q = p
      · rw [if_pos hq, Dev.addLines_addLines, ih, List.filter_cons_of_pos (by simpa using hq), List.map_cons,
          List.append_assoc, List.singleton_append]
      · rw [if_neg hq, ih, List.filter_cons_of_neg (by simpa using hq)]
  have hzero : d = d.addLines [] := by simp [Dev.addLines, Dev.setFab]
  have hall := hwalk (List.range 4) []
  rw [← hzero, List.nil_append] at hall
  exact hall

section

variable {d : Dev} {n p : Nat} {o : LineOut}

theorem Dev.lineArrives_joins (hconf : d.reconfig n = false) (hrun : d.cellsRun n = true) (hroom : (d.siPort n p).full = false) :
    d.lineArrives n p o = d.setSi n p { d.siPort n p with
      words := (d.siPort n p).words ++ lineWords o (d.siPort n p).pdrop, pdrop := false } := by
  rw [Dev.lineArrives]
  simp [hconf, hrun, hroom]

theorem Dev.lineArrives_drops (hconf : d.reconfig n = false) (hshut : d.cellsRun n = false ∨ (d.siPort n p).full = true) :
    d.lineArrives n p o = d.lineLost FAB_SIDROP_DROP n p o := by
  have hnot : ¬ (d.cellsRun n && !(d.siPort n p).full) = true := by
    obtain h | h := hshut <;> simp [h]
  simp only [Dev.lineArrives, hconf, Bool.false_eq_true, if_false, if_neg hnot]
  rfl

theorem Dev.lineArrives_discards (hconf : d.reconfig n = true) :
    d.lineArrives n p o = (d.lineLost FAB_SIDROP_DISCARD n p o).discardMarkers n p o := by
  simp only [Dev.lineArrives, hconf, if_true]
  rfl

/-- The registers that tell a lost line. -/
def Dev.lossRegs (d : Dev) (n h : Nat) : List (RegKind × Nat) :=
  (.PCU_DROPCNT, groupOf h) :: (d.lineHalves n).map fun m => (RegKind.FAB_SIDROP, m)

variable (hn : n < 16) (hh : o.head < 24)
include hn hh

theorem Dev.onlyRegs_lineLost {f : Fld} (hf : f.kind = .FAB_SIDROP) : d.onlyRegs (d.lineLost f n p o) (d.lossRegs n o.head) := by
  have hcount := (d.onlyRegs_incEach f (Dev.lineHalves_lt (d := d) hn)).mono (m := d.lossRegs n o.head)
    (hf ▸ List.subset_cons_self ..)
  have hset (e : Dev) (x : SiPort) : e.onlyRegs (e.setSi n p x) (d.lossRegs n o.head) := Dev.onlyRegs_of_regs rfl
  exact (hcount.trans (hset _ _)).trans
    (Dev.onlyRegs_inc _ _ _ (by unfold groupOf; omega) (by simp [PCU_DROPCNT_STREAM, Dev.lossRegs]))

theorem Dev.lineLost_counts {f g : Fld} (hf : f.kind = .FAB_SIDROP) (hfit : f.lsb + f.width ≤ 32) (hg : g.kind = .FAB_SIDROP)
    (hfg : f.apart g = true) {m : Nat} (hm : m ∈ d.lineHalves n) :
    d.counts (d.lineLost f n p o) f m 1 ∧ (d.lineLost f n p o).rf g m = d.rf g m := by
  have hm' := Dev.lineHalves_lt hn m hm
  have hgroup : groupOf o.head < 65536 := by unfold groupOf; omega
  have hlast (e : Dev) (x : Fld) (hx : x.kind = .FAB_SIDROP) :
      ((e.setSi n p { d.siPort n p with pdrop := true }).inc PCU_DROPCNT_STREAM (groupOf o.head) 1).rf x m = e.rf x m :=
    Dev.rf_inc_kind _ _ _ _ (by rw [hx]; decide) hgroup hm'
  rw [Dev.counts, Dev.lineLost, hlast _ f hf, hlast _ g hg]
  exact ⟨d.incEach_counts f hfit (d.lineHalves_nodup n) hm, d.incEach_rf_apart f g hfg (Dev.lineHalves_lt hn) hm'⟩

theorem Dev.lineLost_stream {f : Fld} (hf : f.kind = .FAB_SIDROP) :
    d.counts (d.lineLost f n p o) PCU_DROPCNT_STREAM (groupOf o.head) 1 ∧
      (d.lineLost f n p o).rf PCU_DROPCNT_WRITER (groupOf o.head) = d.rf PCU_DROPCNT_WRITER (groupOf o.head) := by
  have hgroup : groupOf o.head < 65536 := by unfold groupOf; omega
  have hfirst (x : Fld) (hx : x.kind = .PCU_DROPCNT) :
      ((d.incEach f (d.lineHalves n)).setSi n p { d.siPort n p with pdrop := true }).rf x (groupOf o.head) =
        d.rf x (groupOf o.head) :=
    d.incEach_rf_apart f x (by simp [Fld.apart, hf, hx]) (Dev.lineHalves_lt hn) hgroup
  rw [Dev.counts, Dev.lineLost, Dev.rf_inc_self _ _ _ _ (by decide),
    Dev.rf_inc_apart _ hgroup hgroup _ _ _ (by decide), hfirst _ rfl, hfirst _ rfl]
  exact ⟨rfl, rfl⟩

omit hn hh in
theorem Dev.lineLost_lines (f : Fld) : (d.lineLost f n p o).fab.lines = d.fab.lines := by
  have hfab := (d.incEach_keeps f (d.lineHalves n)).1
  simp only [Dev.lineLost, Dev.inc_fab, Dev.setSi, Dev.setFab_fab, hfab]

omit hn hh in
theorem Dev.lineLost_soMsrc (f : Fld) (q : Nat) : (d.lineLost f n p o).soMsrc n q = d.soMsrc n q := by
  have hfab := (d.incEach_keeps f (d.lineHalves n)).1
  simp only [Dev.soMsrc, Dev.ifBits, Dev.frame, Dev.lineLost, Dev.inc_fab, Dev.setSi, Dev.setFab_fab, hfab]

omit hn in
theorem Dev.lineLost_siPort (f : Fld) :
    (d.lineLost f n p o).siPort n p = { d.siPort n p with pdrop := true } := by
  have hlast (e : Dev) : (e.inc PCU_DROPCNT_STREAM (groupOf o.head) 1).siPort n p = e.siPort n p :=
    Dev.siPort_congr (l := [(.PCU_DROPCNT, groupOf o.head)]) n p
      (Dev.onlyRegs_inc _ _ _ (by unfold groupOf; omega) (by simp [PCU_DROPCNT_STREAM])) (by simp) rfl
  rw [Dev.lineLost, hlast, Dev.siPort_setSi]

end

section

variable {d : Dev} {h n p : Nat} {o : LineOut}

/-- The line that a head has for a region meets its port once it is taken from its place. -/
theorem Dev.streamArrival_eq (hfind : d.pcu.outs.find? (fun o => decide (o.head = h) && o.region.isSome) = some o)
    (hn : o.region = some n) (hp : o.port = some p) : d.streamArrival h = (d.takeStream o).lineArrives n p o := by
  simp only [Dev.streamArrival, hfind, hn, hp]

theorem Dev.head_of_find (hfind : d.pcu.outs.find? (fun o => decide (o.head = h) && o.region.isSome) = some o) : o.head = h := by
  have hsome := List.find?_some hfind
  simp only [Bool.and_eq_true, decide_eq_true_eq] at hsome
  exact hsome.1

theorem Dev.onlyRegs_takeStream (l : List (RegKind × Nat)) : d.onlyRegs (d.takeStream o) l := Dev.onlyRegs_of_regs rfl

/-- The markers of a discarded line: one for each output port that follows the input. -/
theorem Dev.discardMarkers_mem {q : Nat} (hq : q < 4) (hsrc : d.soMsrc n q = p) :
    discardLine n o q ∈ (d.discardMarkers n p o).fab.lines := by
  have hmark : discardLine n o q ∈ ((List.range 4).filter fun q => d.soMsrc n q = p).map (discardLine n o) :=
    List.mem_map_of_mem (List.mem_filter.mpr ⟨List.mem_range.mpr hq, decide_eq_true hsrc⟩)
  rw [Dev.discardMarkers_eq]
  exact List.mem_append_right _ hmark

end

/-! The row of the line that meets its port -/

section

variable {s : State} {h n p : Nat} {o : LineOut} (hlive : s.dev.live 4 = true)
  (hfind : s.dev.pcu.outs.find? (fun o => decide (o.head = h) && o.region.isSome) = some o)
  (hreg : o.region = some n) (hport : o.port = some p)
include hlive hfind hreg hport

theorem exec_streamLineArrival_joins (hconf : s.dev.reconfig n = false) (hrun : s.dev.cellsRun n = true)
    (hroom : (s.dev.siPort n p).full = false) :
    ∃ t, exec (.streamLineArrival h) s = .next t ∧ s.onlyRegs t [] ∧
      (t.dev.siPort n p).words = (s.dev.siPort n p).words ++ lineWords o (s.dev.siPort n p).pdrop ∧
      (t.dev.siPort n p).pdrop = false ∧ t.dev.fab.lines = s.dev.fab.lines ∧
      ∀ k, k ≠ 4 * s.dev.inRgn n + p → tget t.dev.fab.si .reset k = tget s.dev.fab.si .reset k := by
  have heq := (Dev.streamArrival_eq hfind hreg hport).trans
    (Dev.lineArrives_joins (d := s.dev.takeStream o) hconf hrun hroom)
  refine ⟨_, State.devWithin_live hlive, State.onlyRegs_onDev ?_, ?_⟩
  · rw [heq]
    exact Dev.onlyRegs_of_regs rfl
  · rw [State.onDev_dev, heq, Dev.siPort_setSi]
    exact ⟨rfl, rfl, rfl, fun k hk => (s.dev.takeStream o).si_setSi_ne n p _ hk⟩

variable (hh : h < 24) (hn : n < 16)
include hh hn

theorem exec_streamLineArrival_drops (hconf : s.dev.reconfig n = false)
    (hshut : s.dev.cellsRun n = false ∨ (s.dev.siPort n p).full = true) :
    ∃ t, exec (.streamLineArrival h) s = .next t ∧ s.onlyRegs t (s.dev.lossRegs n h) ∧
      (∀ m, m ∈ s.dev.lineHalves n → s.dev.counts t.dev FAB_SIDROP_DROP m 1 ∧
        t.dev.rf FAB_SIDROP_DISCARD m = s.dev.rf FAB_SIDROP_DISCARD m) ∧
      s.dev.counts t.dev PCU_DROPCNT_STREAM (groupOf h) 1 ∧
      t.dev.rf PCU_DROPCNT_WRITER (groupOf h) = s.dev.rf PCU_DROPCNT_WRITER (groupOf h) ∧
      (t.dev.siPort n p).words = (s.dev.siPort n p).words ∧ (t.dev.siPort n p).pdrop = true ∧
      t.dev.fab.lines = s.dev.fab.lines := by
  obtain rfl := Dev.head_of_find hfind
  have heq := (Dev.streamArrival_eq hfind hreg hport).trans (Dev.lineArrives_drops (d := s.dev.takeStream o) hconf hshut)
  refine ⟨_, State.devWithin_live hlive, State.onlyRegs_onDev ?_, ?_⟩
  · rw [heq]
    exact Dev.onlyRegs_lineLost (d := s.dev.takeStream o) hn hh rfl
  · rw [State.onDev_dev, heq, Dev.lineLost_siPort hh, Dev.lineLost_lines]
    obtain ⟨hstream, hwriter⟩ := Dev.lineLost_stream (d := s.dev.takeStream o) (p := p) hn hh (f := FAB_SIDROP_DROP) rfl
    exact ⟨fun m hm => Dev.lineLost_counts (d := s.dev.takeStream o) hn hh rfl (by decide) rfl (by decide) hm, hstream, hwriter,
      rfl, rfl, rfl⟩

theorem exec_streamLineArrival_discards (hconf : s.dev.reconfig n = true) :
    ∃ t, exec (.streamLineArrival h) s = .next t ∧ s.onlyRegs t (s.dev.lossRegs n h) ∧
      (∀ m, m ∈ s.dev.lineHalves n → s.dev.counts t.dev FAB_SIDROP_DISCARD m 1 ∧
        t.dev.rf FAB_SIDROP_DROP m = s.dev.rf FAB_SIDROP_DROP m) ∧
      s.dev.counts t.dev PCU_DROPCNT_STREAM (groupOf h) 1 ∧
      (t.dev.siPort n p).words = (s.dev.siPort n p).words ∧ (t.dev.siPort n p).pdrop = true ∧
      ∀ q, q < 4 → s.dev.soMsrc n q = p → ∃ l ∈ t.dev.fab.lines, l.region = n ∧ l.port = q ∧ l.discard = true ∧
        l.words = [] ∧ l.tb = o.s := by
  obtain rfl := Dev.head_of_find hfind
  have heq := (Dev.streamArrival_eq hfind hreg hport).trans (Dev.lineArrives_discards (d := s.dev.takeStream o) hconf)
  generalize hlost : (s.dev.takeStream o).lineLost FAB_SIDROP_DISCARD n p o = e at heq
  have hmarks := e.discardMarkers_eq n p o
  have hsi : (e.discardMarkers n p o).siPort n p = e.siPort n p := by rw [hmarks]; rfl
  have hrf (f : Fld) (i : Nat) : (e.discardMarkers n p o).rf f i = e.rf f i := by rw [hmarks]; rfl
  refine ⟨_, State.devWithin_live hlive, State.onlyRegs_onDev ?_, ?_⟩
  · rw [heq, hmarks, ← hlost]
    exact (Dev.onlyRegs_lineLost (d := s.dev.takeStream o) hn hh rfl).trans (Dev.onlyRegs_of_regs rfl)
  · simp only [State.onDev_dev, heq, Dev.counts, hrf, hsi]
    subst hlost
    rw [Dev.lineLost_siPort hh]
    exact ⟨fun m hm => Dev.lineLost_counts (d := s.dev.takeStream o) hn hh rfl (by decide) rfl (by decide) hm,
      (Dev.lineLost_stream (d := s.dev.takeStream o) hn hh rfl).1, rfl, rfl, fun q hq hsrc =>
        ⟨discardLine n o q, Dev.discardMarkers_mem hq ((Dev.lineLost_soMsrc ..).trans hsrc), rfl, rfl, rfl, rfl, rfl⟩⟩

end
end Sys2Proof.Machine
end

section
/-! SUPPORT. The verdict on a line of a pair: signature, record, marker (R264, R265, R267). -/

namespace Sys2Proof.Machine

/-! One bit of a field beside another -/

theorem tbit_setBit_ne (n : Nat) {b m : Nat} (v : Bool) (h : m ≠ b) : tbit (setBit n b v) m = tbit n m := by
  rw [tbit_eq_testBit, setBit, testBit_setBits, if_neg (by omega), ← tbit_eq_testBit]

theorem Dev.tbit_wbit_ne (d : Dev) (f : Fld) (i : Nat) {b m : Nat} (v : Bool) (hfit : f.lsb + f.width ≤ 32) (hm : m < f.width)
    (h : m ≠ b) : tbit ((d.wbit f i b v).rf f i) m = tbit (d.rf f i) m := by
  rw [show (d.wbit f i b v).rf f i = (d.putF f i (setBit (d.rf f i) b v)).rf f i from rfl, Dev.rf_putF_self _ _ _ _ hfit,
    tbit_eq_testBit, Nat.testBit_mod_two_pow, decide_eq_true hm, Bool.true_and, ← tbit_eq_testBit, tbit_setBit_ne _ _ h]

/-! The parts of a verdict -/

/-- The halves differ in a cycle of this line (R263). -/
abbrev FabLine.cyclesDiffer (a b : FabLine) : Prop := a.cyc ≠ .none ∨ b.cyc ≠ .none

/-- The port that a MISMATCH record names: 15 where another output differs (R263, R267). -/
def FabLine.verdictPort (p : Nat) (a b : FabLine) : Nat := if a.cyclesDiffer b ∧ a.cyc ≠ .port ∧ b.cyc ≠ .port then 15 else p

/-- The cause of a MISMATCH record: 3 where no half drives, 1 for cycles, 2 for signatures (R267). -/
def Dev.verdictCause (d : Dev) (n : Nat) (a b : FabLine) : Nat :=
  if d.drivingBy n a.pol = none then 3 else if a.cyclesDiffer b then 1 else 2

/-- The line of the half that drives under the policy of the line. -/
def Dev.drivenLine (d : Dev) (n : Nat) (a b : FabLine) : FabLine := if d.drivingBy n a.pol = some 1 then b else a

/-- What leaves after a mismatch: an empty marker under FAILSILENT or where no half drives, else the driving half's line. -/
def Dev.mismatchLine (d : Dev) (n : Nat) (a b : FabLine) : FabLine :=
  if d.drivingBy n a.pol = none ∨ a.pol = 0 then { a with region := n, words := [], eol := 0, mismatch := true, verdict := true }
  else { d.drivenLine n a b with region := n, mismatch := true, verdict := true }

/-- The two lines are taken, and the signature of half A is written. -/
def Dev.signed (d : Dev) (n p : Nat) (a b : FabLine) : Dev :=
  (d.setFab (fun f => { f with lines := (d.fab.lines.erase a).erase b })).wf RGN_SIG_SIG (4 * n + p) a.sig

/-- CMPFAULT and a FAULT record follow signatures that differ where no cycle did. -/
def Dev.sigJudged (d : Dev) (n : Nat) (a b : FabLine) : Dev :=
  if a.sig ≠ b.sig ∧ ¬ a.cyclesDiffer b then (d.wbit RGN_PSTAT_CMPFAULT 0 n true).post .fault (0x110 + n) 15 else d

/-- Both halves have a line of the port. -/
structure Dev.linesMeet (d : Dev) (n p : Nat) (a b : FabLine) : Prop where
  half : d.fab.lines.find? (fun l => decide (l.region = n) && decide (l.port = p) && !l.verdict) = some a
  other : d.fab.lines.find? (fun l => decide (l.region = n + 8) && decide (l.port = p) && !l.verdict) = some b

theorem Dev.drivingBy_cases (d : Dev) (n pol : Nat) :
    d.drivingBy n pol = none ∨ d.drivingBy n pol = some 0 ∨ d.drivingBy n pol = some 1 := by
  unfold Dev.drivingBy
  split
  · exact .inl rfl
  · exact .inr (.inr rfl)
  · exact .inr (.inl rfl)
  · split
    · exact .inr (.inr rfl)
    · exact .inr (.inl rfl)

theorem Dev.drivingBy_congr {d e : Dev} {l : List (RegKind × Nat)} (h : d.onlyRegs e l) {n : Nat} (hn : n < 8)
    (hstat : ∀ m, (RegKind.RGN_STAT, m) ∉ l) (pol : Nat) : e.drivingBy n pol = d.drivingBy n pol := by
  have hon (m : Nat) (hm : m < 65536) : e.on RGN_STAT_SUSPECT m = d.on RGN_STAT_SUSPECT m := h.on hm (hstat m)
  rw [Dev.drivingBy, Dev.drivingBy, hon n (by omega), hon (n + 8) (by omega)]

section

variable {d : Dev} {n p : Nat} {a b : FabLine}

theorem Dev.onlyRegs_signed (hn : n < 8) (hp : p < 4) : d.onlyRegs (d.signed n p a b) [(.RGN_SIG, 4 * n + p)] :=
  (Dev.onlyRegs_of_regs (d' := d.setFab _) rfl).trans (Dev.onlyRegs_wf _ _ _ (by omega) (by simp [RGN_SIG_SIG]))

theorem Dev.rf_signed : (d.signed n p a b).rf RGN_SIG_SIG (4 * n + p) = a.sig % 2 ^ 32 := Dev.rf_wf_self _ _ _ _ (by decide)

/-- Besides the register only the lines change. -/
theorem Dev.signed_keeps : (d.signed n p a b).fab = { d.fab with lines := (d.fab.lines.erase a).erase b } ∧
    (d.signed n p a b).now = d.now ∧ (d.signed n p a b).t = d.t ∧ (d.signed n p a b).pwr = d.pwr ∧
    (d.signed n p a b).evq = d.evq := by
  simp only [Dev.signed, Dev.wf_fab, Dev.wf_now, Dev.wf_t, Dev.wf_pwr, Dev.wf_evq, Dev.setFab_fab, Dev.setFab_now, Dev.setFab_t,
    Dev.setFab_pwr, Dev.setFab_evq, and_self]

theorem Dev.onlyRegs_sigJudged : d.onlyRegs (d.sigJudged n a b) [(.RGN_PSTAT, 0)] := by
  rw [Dev.sigJudged]
  split
  · exact (d.onlyRegs_wbit RGN_PSTAT_CMPFAULT n true (by decide)).trans (Dev.onlyRegs_of_regs (Dev.post_regs ..))
  · exact Dev.onlyRegs_of_regs rfl

/-- What a verdict reads of the device besides its registers stays. -/
theorem Dev.sigJudged_keeps : (d.sigJudged n a b).fab = d.fab ∧ (d.sigJudged n a b).now = d.now ∧
    (d.sigJudged n a b).t = d.t ∧ (d.sigJudged n a b).pwr = d.pwr := by
  rw [Dev.sigJudged]
  split
  · simp only [Dev.post_fab, Dev.post_now, Dev.post_t, Dev.post_pwr, Dev.wbit_fab, Dev.wbit_now, Dev.wbit_t, Dev.wbit_pwr,
      and_self]
  · simp only [and_self]

theorem Dev.tbit_sigJudged {m : Nat} (hm : m < 8) : tbit ((d.sigJudged n a b).rf RGN_PSTAT_CMPFAULT 0) m =
    (tbit (d.rf RGN_PSTAT_CMPFAULT 0) m || (decide (m = n) && decide (a.sig ≠ b.sig) && decide (¬ a.cyclesDiffer b))) := by
  rw [Dev.sigJudged]
  split
  next hbad =>
    rw [Dev.post_rf, decide_eq_true hbad.1, decide_eq_true hbad.2, Bool.and_true, Bool.and_true]
    by_cases hmn : m = n
    · subst hmn
      rw [Dev.tbit_wbit_self _ _ _ _ (by decide) hm, decide_eq_true rfl, Bool.or_true]
    · rw [Dev.tbit_wbit_ne _ _ _ _ (by decide) hm hmn, decide_eq_false hmn, Bool.or_false]
  next hgood =>
    rw [Bool.and_assoc, ← Bool.decide_and, decide_eq_false hgood, Bool.and_false, Bool.or_false]

theorem Dev.sigJudged_posts (hboot : d.pwr.booted = true) (hsig : a.sig ≠ b.sig) (hcyc : ¬ a.cyclesDiffer b) :
    (⟨.fault, 0x110 + n, false, false, 15, d.t⟩ : EvRec) ∈ (d.sigJudged n a b).evq.inFlight := by
  rw [Dev.sigJudged, if_pos ⟨hsig, hcyc⟩, Dev.post, Dev.postRec_evq _ _ (by rwa [Dev.wbit_pwr]), Dev.wbit_t]
  exact List.mem_append_right _ (List.mem_singleton.mpr rfl)

/-- The model's test of the signatures, with its Boolean conditions. -/
theorem Dev.sigJudged_bool : (if decide (a.sig ≠ b.sig) = true ∧ (decide (a.cyc ≠ .none) || decide (b.cyc ≠ .none)) = false then
    (d.wbit RGN_PSTAT_CMPFAULT 0 n true).post .fault (0x110 + n) 15 else d) = d.sigJudged n a b := by
  simp [Dev.sigJudged, FabLine.cyclesDiffer]

theorem FabLine.verdictPort_bool : (if (decide (a.cyc ≠ .none) || decide (b.cyc ≠ .none)) = true ∧ a.cyc ≠ .port ∧ b.cyc ≠ .port
    then 15 else p) = FabLine.verdictPort p a b := by
  simp [FabLine.verdictPort, FabLine.cyclesDiffer]

variable (hmeet : d.linesMeet n p a b) {e : Dev} (he : (d.signed n p a b).sigJudged n a b = e)
include hmeet he

/-- Where a half drives and neither signatures nor cycles differ, the driving half's line leaves. -/
theorem Dev.verdict_agrees {half : Nat} (hsig : a.sig = b.sig) (hcyc : ¬ a.cyclesDiffer b)
    (hdrv : e.drivingBy n a.pol = some half) :
    d.verdict n p = e.addLines [{ (if half = 0 then a else b) with region := n, verdict := true }] := by
  obtain ⟨ha, hb⟩ := hmeet
  have hfalse : (decide (a.cyc ≠ .none) || decide (b.cyc ≠ .none)) = false := by
    simpa [FabLine.cyclesDiffer] using hcyc
  have heq : decide (a.sig ≠ b.sig) = false := decide_eq_false (not_not.mpr hsig)
  unfold Dev.signed at he
  rw [Dev.verdict]
  simp only [ha, hb, Dev.sigJudged_bool, he, hdrv]
  exact if_pos ⟨hfalse, heq⟩

theorem Dev.verdict_undriven (hdrv : e.drivingBy n a.pol = none) :
    d.verdict n p = (e.mismatch n (a.verdictPort p b) 3 ((a.tag.map LineTag.num).getD 0)).addLines
      [{ a with region := n, words := [], eol := 0, mismatch := true, verdict := true }] := by
  obtain ⟨ha, hb⟩ := hmeet
  unfold Dev.signed at he
  rw [Dev.verdict]
  cases htag : a.tag <;> simp only [ha, hb, Dev.sigJudged_bool, he, hdrv, FabLine.verdictPort_bool, htag] <;> rfl

theorem Dev.verdict_differs {half : Nat} (hdiff : a.sig ≠ b.sig ∨ a.cyclesDiffer b) (hdrv : e.drivingBy n a.pol = some half) :
    d.verdict n p = (e.mismatch n (a.verdictPort p b) (if a.cyclesDiffer b then 1 else 2)
      ((a.tag.map LineTag.num).getD 0)).addLines [if a.pol = 0 then
        { a with region := n, words := [], eol := 0, mismatch := true, verdict := true }
        else { (if half = 0 then a else b) with region := n, mismatch := true, verdict := true }] := by
  obtain ⟨ha, hb⟩ := hmeet
  have hnot : ¬ ((decide (a.cyc ≠ .none) || decide (b.cyc ≠ .none)) = false ∧ decide (a.sig ≠ b.sig) = false) := by
    rintro ⟨hcyc, hsig⟩
    simp only [Bool.or_eq_false_iff, decide_eq_false_iff_not] at hcyc hsig
    exact hdiff.elim hsig fun h => h.elim hcyc.1 hcyc.2
  have hcause : (if (decide (a.cyc ≠ .none) || decide (b.cyc ≠ .none)) = true then 1 else 2) =
      if a.cyclesDiffer b then 1 else 2 := by simp [FabLine.cyclesDiffer]
  unfold Dev.signed at he
  rw [Dev.verdict]
  cases htag : a.tag <;>
    simp only [ha, hb, Dev.sigJudged_bool, he, hdrv, FabLine.verdictPort_bool, if_neg hnot, hcause, htag] <;>
    split_ifs <;> rfl

end

/-! A counted mismatch and its record (R267) -/

section

variable {d : Dev} {n q cause num : Nat}

/-- Within MMGAP of the record before it, a mismatch is counted in SUPP too. -/
theorem Dev.mismatch_withheld (hlast : tget d.fab.mmLast 0 n ≠ 0)
    (htime : d.now < tget d.fab.mmLast 0 n - 1 + 1000 * d.rf RGN_GAUNTLET_MMGAP 0) (hn : n < 8) :
    d.mismatch n q cause num = (d.inc RGN_MMCNT_LINES n 1).inc RGN_MMCNT_SUPP n 1 := by
  have hgap : (d.inc RGN_MMCNT_LINES n 1).rf RGN_GAUNTLET_MMGAP 0 = d.rf RGN_GAUNTLET_MMGAP 0 :=
    d.rf_inc_kind _ _ _ (by decide) (by omega) (by decide)
  rw [Dev.mismatch, if_pos ⟨hlast, hgap ▸ htime⟩]

theorem Dev.mismatch_posts (htime : tget d.fab.mmLast 0 n = 0 ∨
      tget d.fab.mmLast 0 n - 1 + 1000 * d.rf RGN_GAUNTLET_MMGAP 0 ≤ d.now) (hn : n < 8) :
    d.mismatch n q cause num = ((d.inc RGN_MMCNT_LINES n 1).setFab (fun f => { f with
      mmLast := tset f.mmLast 0 n (d.now + 1) })).post .mismatch (0x110 + n) (q + cause * 16 + num % 2 ^ 24 * 256) := by
  have hgap : (d.inc RGN_MMCNT_LINES n 1).rf RGN_GAUNTLET_MMGAP 0 = d.rf RGN_GAUNTLET_MMGAP 0 :=
    d.rf_inc_kind _ _ _ (by decide) (by omega) (by decide)
  rw [Dev.mismatch]
  refine if_neg fun h => ?_
  rw [hgap, Dev.inc_fab, Dev.inc_now] at h
  exact htime.elim h.1 fun hle => Nat.not_lt.mpr hle h.2

theorem Dev.mismatch_time (d : Dev) (n : Nat) :
    (tget d.fab.mmLast 0 n = 0 ∨ tget d.fab.mmLast 0 n - 1 + 1000 * d.rf RGN_GAUNTLET_MMGAP 0 ≤ d.now) ∨
      tget d.fab.mmLast 0 n ≠ 0 ∧ d.now < tget d.fab.mmLast 0 n - 1 + 1000 * d.rf RGN_GAUNTLET_MMGAP 0 := by
  by_cases h0 : tget d.fab.mmLast 0 n = 0
  · exact .inl (.inl h0)
  · exact (Nat.lt_or_ge d.now _).elim (fun h => .inr ⟨h0, h⟩) fun h => .inl (.inr h)

variable (hn : n < 8)
include hn

/-- A mismatch is counted, and leaves other registers and the lines alone. -/
theorem Dev.mismatch_frame : d.onlyRegs (d.mismatch n q cause num) [(.RGN_MMCNT, n)] ∧
    d.counts (d.mismatch n q cause num) RGN_MMCNT_LINES n 1 ∧ (d.mismatch n q cause num).fab.lines = d.fab.lines ∧
    d.evq.inFlight ⊆ (d.mismatch n q cause num).evq.inFlight := by
  have hone := d.onlyRegs_inc RGN_MMCNT_LINES (i := n) (l := [(.RGN_MMCNT, n)]) 1 (by omega) (by simp [RGN_MMCNT_LINES])
  have hcount : d.counts (d.inc RGN_MMCNT_LINES n 1) RGN_MMCNT_LINES n 1 := d.rf_inc_self _ _ _ (by decide)
  obtain htime | ⟨hlast, htime⟩ := d.mismatch_time n
  · rw [Dev.mismatch_posts htime hn]
    refine ⟨hone.trans (Dev.onlyRegs_of_regs (Dev.post_regs ..)), hcount.of_regs (by rw [Dev.post_regs, Dev.setFab_regs]), by rw [Dev.post_fab, Dev.setFab_fab, Dev.inc_fab], ?_⟩
    unfold Dev.post Dev.postRec
    split
    · exact List.subset_append_left _ _
    · exact List.Subset.refl _
  · rw [Dev.mismatch_withheld hlast htime hn]
    refine ⟨hone.trans (Dev.onlyRegs_inc _ _ _ (by omega) (by simp [RGN_MMCNT_SUPP])), ?_, by rw [Dev.inc_fab, Dev.inc_fab],
      by rw [Dev.inc_evq, Dev.inc_evq]; exact List.Subset.refl _⟩
    rw [Dev.counts, Dev.rf_inc_apart _ (by omega) (by omega) _ _ _ (by decide)]
    exact hcount

theorem Dev.mismatch_record (hboot : d.pwr.booted = true) (htime : tget d.fab.mmLast 0 n = 0 ∨
      tget d.fab.mmLast 0 n - 1 + 1000 * d.rf RGN_GAUNTLET_MMGAP 0 ≤ d.now) :
    (d.mismatch n q cause num).evq.inFlight.getLast? =
      some ⟨.mismatch, 0x110 + n, false, false, q + cause * 16 + num % 2 ^ 24 * 256, d.t⟩ := by
  rw [Dev.mismatch_posts htime hn, Dev.post, Dev.postRec_evq _ _ (by exact hboot), Dev.setFab_t, Dev.inc_t]
  exact List.getLast?_concat

theorem Dev.mismatch_supp (hlast : tget d.fab.mmLast 0 n ≠ 0)
    (htime : d.now < tget d.fab.mmLast 0 n - 1 + 1000 * d.rf RGN_GAUNTLET_MMGAP 0) :
    d.counts (d.mismatch n q cause num) RGN_MMCNT_SUPP n 1 := by
  rw [Dev.mismatch_withheld hlast htime hn, Dev.counts, Dev.rf_inc_self _ _ _ _ (by decide),
    Dev.rf_inc_apart _ (by omega) (by omega) _ _ _ (by decide)]

end

/-! The row of the verdict -/

section

variable {d : Dev} {n p : Nat} {a b : FabLine}

/-- Signature written and judged: what the rest of the verdict starts from. -/
theorem Dev.onlyRegs_judged (hn : n < 8) (hp : p < 4) :
    d.onlyRegs ((d.signed n p a b).sigJudged n a b) [(.RGN_SIG, 4 * n + p), (.RGN_PSTAT, 0)] :=
  ((Dev.onlyRegs_signed hn hp).mono (by simp)).trans (Dev.onlyRegs_sigJudged.mono (by simp))

theorem Dev.drivingBy_judged (hn : n < 8) (hp : p < 4) (pol : Nat) :
    ((d.signed n p a b).sigJudged n a b).drivingBy n pol = d.drivingBy n pol :=
  Dev.drivingBy_congr (Dev.onlyRegs_judged hn hp) hn (by simp) pol

theorem Dev.lines_judged : ((d.signed n p a b).sigJudged n a b).fab.lines = (d.fab.lines.erase a).erase b := by
  rw [Dev.sigJudged_keeps.1, Dev.signed_keeps.1]

theorem Dev.rf_judged (hn : n < 8) (hp : p < 4) :
    ((d.signed n p a b).sigJudged n a b).rf RGN_SIG_SIG (4 * n + p) = a.sig % 2 ^ 32 :=
  (Dev.onlyRegs_sigJudged.rf (by omega) (by simp [RGN_SIG_SIG])).trans Dev.rf_signed

/-- A mismatch, whatever half drives: it is counted and told, and what the policy lets out leaves. -/
theorem Dev.verdict_mismatch (hmeet : d.linesMeet n p a b) (hn : n < 8) (hp : p < 4)
    (hbad : a.sig ≠ b.sig ∨ a.cyclesDiffer b ∨ d.drivingBy n a.pol = none) :
    d.verdict n p = (((d.signed n p a b).sigJudged n a b).mismatch n (a.verdictPort p b) (d.verdictCause n a b)
      ((a.tag.map LineTag.num).getD 0)).addLines [d.mismatchLine n a b] := by
  have hdrv := Dev.drivingBy_judged (d := d) (a := a) (b := b) hn hp a.pol
  obtain hnone | hsome := d.drivingBy_cases n a.pol
  · rw [Dev.verdict_undriven hmeet rfl (hdrv.trans hnone), Dev.verdictCause, Dev.mismatchLine, if_pos hnone,
      if_pos (.inl hnone)]
  · have hdiff : a.sig ≠ b.sig ∨ a.cyclesDiffer b := by
      obtain h | h | h := hbad
      · exact .inl h
      · exact .inr h
      · simp [h] at hsome
    obtain hhalf | hhalf := hsome <;>
      simp [Dev.verdict_differs hmeet rfl hdiff (hdrv.trans hhalf), Dev.verdictCause, Dev.mismatchLine, Dev.drivenLine, hhalf]

end

section

variable {s : State} {n p : Nat} {a b : FabLine} (hn : n < 8) (hp : p < 4) (hlive : s.dev.live (34 + n) = true)
  (hmeet : s.dev.linesMeet n p a b)
include hn hp hlive hmeet

theorem exec_pairedLineVerdict_agrees (hsig : a.sig = b.sig) (hcyc : ¬ a.cyclesDiffer b)
    (hdrv : s.dev.drivingBy n a.pol ≠ none) :
    ∃ t, exec (.pairedLineVerdict n p) s = .next t ∧ s.onlyRegs t [(.RGN_SIG, 4 * n + p)] ∧
      t.dev.rf RGN_SIG_SIG (4 * n + p) = a.sig % 2 ^ 32 ∧ t.dev.evq = s.dev.evq ∧
      t.dev.fab.lines = (s.dev.fab.lines.erase a).erase b ++ [{ s.dev.drivenLine n a b with region := n, verdict := true }] := by
  have hjudged : (s.dev.signed n p a b).sigJudged n a b = s.dev.signed n p a b := if_neg fun h => h.1 hsig
  have hsame := Dev.drivingBy_judged (d := s.dev) (a := a) (b := b) hn hp a.pol
  have heq : s.dev.verdict n p = (s.dev.signed n p a b).addLines [{ s.dev.drivenLine n a b with region := n, verdict := true }] := by
    obtain h | h := (s.dev.drivingBy_cases n a.pol).resolve_left hdrv <;>
      simp [Dev.verdict_agrees hmeet hjudged hsig hcyc (hjudged ▸ hsame.trans h), Dev.drivenLine, h]
  refine ⟨_, State.devWithin_live hlive, State.onlyRegs_onDev ?_, ?_⟩
  · rw [heq]
    exact (Dev.onlyRegs_signed hn hp).trans (Dev.onlyRegs_addLines _ _ _)
  · rw [State.onDev_dev, heq, Dev.addLines_rf, Dev.addLines_evq, Dev.addLines_lines]
    obtain ⟨hfab, -, -, -, hevq⟩ := s.dev.signed_keeps (n := n) (p := p) (a := a) (b := b)
    exact ⟨Dev.rf_signed, hevq, by rw [hfab]⟩

theorem exec_pairedLineVerdict_mismatch (hbad : a.sig ≠ b.sig ∨ a.cyclesDiffer b ∨ s.dev.drivingBy n a.pol = none)
    (hboot : s.dev.pwr.booted = true) :
    ∃ t, exec (.pairedLineVerdict n p) s = .next t ∧
      s.onlyRegs t [(.RGN_SIG, 4 * n + p), (.RGN_PSTAT, 0), (.RGN_MMCNT, n)] ∧
      t.dev.rf RGN_SIG_SIG (4 * n + p) = a.sig % 2 ^ 32 ∧ s.dev.counts t.dev RGN_MMCNT_LINES n 1 ∧
      (∀ m, m < 8 → tbit (t.dev.rf RGN_PSTAT_CMPFAULT 0) m = (tbit (s.dev.rf RGN_PSTAT_CMPFAULT 0) m ||
        (decide (m = n) && decide (a.sig ≠ b.sig) && decide (¬ a.cyclesDiffer b)))) ∧
      (a.sig ≠ b.sig → ¬ a.cyclesDiffer b → (⟨.fault, 0x110 + n, false, false, 15, s.dev.t⟩ : EvRec) ∈ t.dev.evq.inFlight) ∧
      (tget s.dev.fab.mmLast 0 n = 0 ∨ tget s.dev.fab.mmLast 0 n - 1 + 1000 * s.dev.rf RGN_GAUNTLET_MMGAP 0 ≤ s.dev.now →
        t.dev.evq.inFlight.getLast? = some ⟨.mismatch, 0x110 + n, false, false,
          a.verdictPort p b + s.dev.verdictCause n a b * 16 + (a.tag.map LineTag.num).getD 0 % 2 ^ 24 * 256, s.dev.t⟩) ∧
      (tget s.dev.fab.mmLast 0 n ≠ 0 → s.dev.now < tget s.dev.fab.mmLast 0 n - 1 + 1000 * s.dev.rf RGN_GAUNTLET_MMGAP 0 →
        s.dev.counts t.dev RGN_MMCNT_SUPP n 1) ∧
      t.dev.fab.lines = (s.dev.fab.lines.erase a).erase b ++ [s.dev.mismatchLine n a b] := by
  have heq := Dev.verdict_mismatch hmeet hn hp hbad
  obtain ⟨hfab0, hnow0, ht0, hpwr0, -⟩ := s.dev.signed_keeps (n := n) (p := p) (a := a) (b := b)
  obtain ⟨hfab, hnow, ht, hpwr⟩ := (s.dev.signed n p a b).sigJudged_keeps (n := n) (a := a) (b := b)
  have hjregs := Dev.onlyRegs_judged (d := s.dev) (a := a) (b := b) hn hp
  have hjlines := Dev.lines_judged (d := s.dev) (n := n) (p := p) (a := a) (b := b)
  have hjsig := Dev.rf_judged (d := s.dev) (a := a) (b := b) hn hp
  have hjbits (m : Nat) (hm : m < 8) := (s.dev.signed n p a b).tbit_sigJudged (n := n) (a := a) (b := b) hm
  have hjposts := Dev.sigJudged_posts (d := s.dev.signed n p a b) (n := n) (a := a) (b := b) (by rw [hpwr0]; exact hboot)
  rw [hfab0] at hfab
  rw [hnow0] at hnow
  rw [ht0] at ht hjposts
  rw [hpwr0] at hpwr
  generalize (s.dev.signed n p a b).sigJudged n a b = e at *
  have hlast : tget e.fab.mmLast 0 n = tget s.dev.fab.mmLast 0 n := by rw [hfab]
  have hgap : e.rf RGN_GAUNTLET_MMGAP 0 = s.dev.rf RGN_GAUNTLET_MMGAP 0 := hjregs.rf (by decide) (by simp [RGN_GAUNTLET_MMGAP])
  have hcnt (f : Fld) (hf : f.kind = .RGN_MMCNT) : e.rf f n = s.dev.rf f n := hjregs.rf (by omega) (by simp [hf])
  obtain ⟨hregs, hlines, hkeep, hmore⟩ := Dev.mismatch_frame (d := e) (q := a.verdictPort p b)
    (cause := s.dev.verdictCause n a b) (num := (a.tag.map LineTag.num).getD 0) hn
  refine ⟨_, State.devWithin_live hlive, State.onlyRegs_onDev ?_, ?_⟩
  · rw [heq]
    exact ((hjregs.mono (by simp)).trans (hregs.mono (by simp))).trans (Dev.onlyRegs_addLines _ _ _)
  · simp only [State.onDev_dev, heq, Dev.counts, Dev.addLines_rf, Dev.addLines_evq, Dev.addLines_lines]
    refine ⟨?_, ?_, fun m hm => ?_, fun hsig hcyc => ?_, fun htime => ?_, fun hl htime => ?_, ?_⟩
    · exact (hregs.rf (f := RGN_SIG_SIG) (by omega) (by simp [RGN_SIG_SIG])).trans hjsig
    · rw [← hcnt _ rfl]
      exact hlines
    · exact (congrArg (tbit · m) (hregs.rf (f := RGN_PSTAT_CMPFAULT) (by decide) (by simp [RGN_PSTAT_CMPFAULT]))).trans
        ((hjbits m hm).trans (by rw [Dev.onlyRegs.rf (Dev.onlyRegs_signed hn hp) (by decide) (by simp [RGN_PSTAT_CMPFAULT])]))
    · exact hmore (hjposts hsig hcyc)
    · have hrec := Dev.mismatch_record (d := e) (q := a.verdictPort p b) (cause := s.dev.verdictCause n a b)
        (num := (a.tag.map LineTag.num).getD 0) hn (by rw [hpwr]; exact hboot) (by rw [hlast, hgap, hnow]; exact htime)
      rw [ht] at hrec
      exact hrec
    · rw [← hcnt _ rfl]
      exact Dev.mismatch_supp hn (hlast ▸ hl) (by rw [hlast, hgap, hnow]; exact htime)
    · exact congrArg (· ++ [s.dev.mismatchLine n a b]) (hkeep.trans hjlines)

end

/-- Settles O35: the line joins, is dropped or is discarded as its region stands, and the verdict follows signatures, cycles and
policy. -/
theorem streamAndVerdicts : Obligations.StreamAndVerdicts := by
  unfold Obligations.StreamAndVerdicts
  refine ⟨fun s h n p o hh hn _ hlive hfind hreg hport => ⟨?_, ?_, ?_⟩, fun s n p a b hn hp hlive ha hb => ⟨?_, ?_⟩⟩
  · exact exec_streamLineArrival_joins hlive hfind hreg hport
  · exact exec_streamLineArrival_drops hlive hfind hreg hport hh hn
  · exact exec_streamLineArrival_discards hlive hfind hreg hport hh hn
  · exact exec_pairedLineVerdict_agrees hn hp hlive ⟨ha, hb⟩
  · exact exec_pairedLineVerdict_mismatch hn hp hlive ⟨ha, hb⟩

end Sys2Proof.Machine
end

section
/-! SUPPORT. Operations on a region: what the reset of its cells, its brim and its start leave alone (R243, R251, R252, R254). -/

namespace Sys2Proof.Machine

/-! Changes inside the fabric -/

/-- Only the fabric, the requests to the banks and the listed registers change; frames stay. -/
structure Dev.inFabric (d e : Dev) (l : List (RegKind × Nat)) : Prop where
  regs : d.onlyRegs e l
  cfg : e.cfg = d.cfg
  pwr : e.pwr = d.pwr
  evq : e.evq = d.evq
  gpio : e.gpio = d.gpio
  anx : e.anx = d.anx
  now : e.now = d.now
  frames : e.fab.frames = d.fab.frames
  upset : e.fab.upset = d.fab.upset
  snapLeft : e.fab.snapLeft = d.fab.snapLeft

section

variable {d e e' : Dev} {l m : List (RegKind × Nat)}

theorem Dev.inFabric_refl (d : Dev) (l : List (RegKind × Nat)) : d.inFabric d l :=
  ⟨Dev.onlyRegs_of_regs rfl, rfl, rfl, rfl, rfl, rfl, rfl, rfl, rfl, rfl⟩

theorem Dev.inFabric.trans (h : d.inFabric e l) (h' : e.inFabric e' l) : d.inFabric e' l :=
  ⟨h.regs.trans h'.regs, h'.cfg.trans h.cfg, h'.pwr.trans h.pwr, h'.evq.trans h.evq, h'.gpio.trans h.gpio, h'.anx.trans h.anx,
    h'.now.trans h.now, h'.frames.trans h.frames, h'.upset.trans h.upset, h'.snapLeft.trans h.snapLeft⟩

theorem Dev.inFabric.mono (h : d.inFabric e l) (hs : l ⊆ m) : d.inFabric e m := { h with regs := h.regs.mono hs }

theorem Dev.inFabric_foldl {α : Type} (d : Dev) (f : Dev → α → Dev) (xs : List α)
    (h : ∀ (e : Dev) x, x ∈ xs → e.inFabric (f e x) l) : d.inFabric (xs.foldl f d) l :=
  foldl_keeps (fun e => d.inFabric e l) f xs d (d.inFabric_refl l) fun e x hx he => he.trans (h e x hx)

theorem Dev.inFabric_wf (d : Dev) (f : Fld) {i : Nat} (n : Nat) (hi : i < 65536) (hm : (f.kind, i) ∈ l) : d.inFabric (d.wf f i n) l :=
  ⟨d.onlyRegs_wf f n hi hm, rfl, rfl, rfl, rfl, rfl, rfl, rfl, rfl, rfl⟩

theorem Dev.inFabric_inc (d : Dev) (f : Fld) {i : Nat} (n : Nat) (hi : i < 65536) (hm : (f.kind, i) ∈ l) : d.inFabric (d.inc f i n) l :=
  ⟨d.onlyRegs_inc f n hi hm, rfl, rfl, rfl, rfl, rfl, rfl, rfl, rfl, rfl⟩

theorem Dev.inFabric_wbit (d : Dev) (f : Fld) {i : Nat} (b : Nat) (v : Bool) (hi : i < 65536) (hm : (f.kind, i) ∈ l) :
    d.inFabric (d.wbit f i b v) l :=
  ⟨(d.onlyRegs_wbit f b v hi).mono (by simpa using hm), rfl, rfl, rfl, rfl, rfl, rfl, rfl, rfl, rfl⟩

theorem Dev.inFabric_setFab (d : Dev) {f : Fab → Fab} (hframes : (f d.fab).frames = d.fab.frames)
    (hupset : (f d.fab).upset = d.fab.upset) (hleft : (f d.fab).snapLeft = d.fab.snapLeft) : d.inFabric (d.setFab f) l :=
  ⟨Dev.onlyRegs_of_regs rfl, rfl, rfl, rfl, rfl, rfl, rfl, hframes, hupset, hleft⟩

theorem Dev.inFabric_setBank (d : Dev) (f : Mem → Mem) : d.inFabric (d.setBank f) l :=
  ⟨Dev.onlyRegs_of_regs rfl, rfl, rfl, rfl, rfl, rfl, rfl, rfl, rfl, rfl⟩

theorem Dev.inFabric.tf (h : d.inFabric e l) (t f lsb w : Nat) : e.tf t f lsb w = d.tf t f lsb w := by
  rw [Dev.tf, Dev.frame, h.frames, h.upset, Dev.tf, Dev.frame]

end

/-! The ports of a region -/

/-- Cells, their starts and enables stay too. -/
structure Dev.inPorts (d e : Dev) (l : List (RegKind × Nat)) : Prop where
  fabric : d.inFabric e l
  cells : e.fab.cells = d.fab.cells
  gsr : e.fab.gsr = d.fab.gsr
  wen : e.fab.wen = d.fab.wen

section

variable {d e e' : Dev} {l m : List (RegKind × Nat)}

theorem Dev.inPorts_refl (d : Dev) (l : List (RegKind × Nat)) : d.inPorts d l := ⟨d.inFabric_refl l, rfl, rfl, rfl⟩

theorem Dev.inPorts.trans (h : d.inPorts e l) (h' : e.inPorts e' l) : d.inPorts e' l :=
  ⟨h.fabric.trans h'.fabric, h'.cells.trans h.cells, h'.gsr.trans h.gsr, h'.wen.trans h.wen⟩

theorem Dev.inPorts_foldl {α : Type} (d : Dev) (f : Dev → α → Dev) (xs : List α)
    (h : ∀ (e : Dev) x, x ∈ xs → e.inPorts (f e x) l) : d.inPorts (xs.foldl f d) l :=
  foldl_keeps (fun e => d.inPorts e l) f xs d (d.inPorts_refl l) fun e x hx he => he.trans (h e x hx)

section

variable (h : d.inPorts e l) (n p : Nat)
include h

theorem Dev.inPorts.setFab {f : Fab → Fab} (hframes : (f e.fab).frames = e.fab.frames) (hupset : (f e.fab).upset = e.fab.upset)
    (hleft : (f e.fab).snapLeft = e.fab.snapLeft) (hcells : (f e.fab).cells = e.fab.cells) (hgsr : (f e.fab).gsr = e.fab.gsr)
    (hwen : (f e.fab).wen = e.fab.wen) : d.inPorts (e.setFab f) l :=
  h.trans ⟨e.inFabric_setFab hframes hupset hleft, hcells, hgsr, hwen⟩

theorem Dev.inPorts.setSo (x : SoPort) : d.inPorts (e.setSo n p x) l := h.setFab rfl rfl rfl rfl rfl rfl

theorem Dev.inPorts.setSi (x : SiPort) : d.inPorts (e.setSi n p x) l := h.setFab rfl rfl rfl rfl rfl rfl

theorem Dev.inPorts.closeLine (eol : Nat) (trunc : Bool) : d.inPorts (e.closeLine n p eol trunc) l :=
  (h.setFab (f := fun f => { f with lines := f.lines ++ [_] }) rfl rfl rfl rfl rfl rfl).setSo n p _

theorem Dev.inPorts.soDrain : d.inPorts (e.soDrain n p) l := by
  unfold Dev.soDrain
  dsimp only
  split
  · exact h
  next w rest _ =>
    have hset := h.setSo n p { e.soPort n p with queue := rest }
    generalize e.setSo n p { e.soPort n p with queue := rest } = e1 at hset ⊢
    split
    · split_ifs
      · exact (hset.closeLine n p 4 false).setSo n p _
      · exact hset.setSo n p _
      · exact hset
    · split
      · split
        · exact (hset.setSo n p _).closeLine n p 0 false
        · exact hset.setSo n p _
      · split
        · exact hset.setSo n p _
        · exact hset
    · split_ifs
      · exact hset.closeLine n p _ false
      · exact hset
    · exact hset

variable {n}

theorem Dev.inPorts.soEnqueue (hn : n < 16) (hl : (.FAB_SOOVF, n) ∈ l) : d.inPorts (e.soEnqueue n p) l := by
  cases hpend : (e.soPort n p).pend with
  | nil =>
    have heq : e.soEnqueue n p = e := by simp only [Dev.soEnqueue, hpend]
    rwa [heq]
  | cons w rest =>
    obtain hroom | hfull := Nat.lt_or_ge (e.soPort n p).queue.length 8
    · obtain ⟨x, heq, -⟩ := Dev.soEnqueue_enters hpend hroom
      exact heq ▸ h.setSo n p x
    · rw [Dev.soEnqueue_loses hpend hfull]
      exact (h.setSo n p _).trans ⟨Dev.inFabric_inc _ _ _ (by omega) hl, rfl, rfl, rfl⟩

end

theorem Dev.inPorts.soFlush {n : Nat} (hn : n < 16) (hl : (.FAB_SOOVF, n) ∈ l) (p k : Nat) (h : d.inPorts e l) :
    d.inPorts (e.soFlush n p k) l := by
  induction k generalizing e with
  | zero => exact h
  | succ k ih => exact ih ((h.soEnqueue p hn hl).soDrain n p)

theorem Dev.inPorts.soClose {n : Nat} (hn : n < 16) (hl : (.FAB_SOOVF, n) ∈ l) (p : Nat) (h : d.inPorts e l) :
    d.inPorts (e.soClose n p) l := by
  unfold Dev.soClose
  dsimp only
  have hset (x : SoPort) : d.inPorts ((e.soFlush n p ((e.soPort n p).pend.length + (e.soPort n p).queue.length)).setSo n p x) l :=
    (h.soFlush hn hl p _).setSo n p x
  split
  · split
    · exact (hset _).closeLine n p _ _
    · exact (hset _).closeLine n p _ _
  · exact hset _

end

end Sys2Proof.Machine
end

section
/-! SUPPORT. The reset of a region's cells and their start, cell by cell (R243, R254). -/

namespace Sys2Proof.Machine

/-! Tiles and the cells of a region -/

theorem tileRegion_tileOf {n k : Nat} (hk : k < 16) : tileRegion (tileOf n k) = n := by
  unfold tileRegion tileOf
  omega

theorem ofRegion_cell (n t : Nat) {i : Nat} (hi : i < 16) : ofRegion n 16 (16 * t + i) = decide (tileRegion t = n) := by
  rw [ofRegion, show (16 * t + i) / 16 = t by omega]

theorem tbit_setBit (v : Nat) (b m : Nat) (x : Bool) : tbit (setBit v b x) m = if m = b then x else tbit v m := by
  split
  next h => rw [h, tbit_setBit_self]
  next h => rw [tbit_eq_testBit, setBit, testBit_setBits, if_neg (by omega), ← tbit_eq_testBit]

/-- The fabric when the cells of a region are in reset (R243, R254). -/
def Fab.cellsReset (n : Nat) (f : Fab) : Fab := { f with
  cells := f.cells.filter (fun e => !(ofRegion n 16 e.1)), pipe := f.pipe.filter (fun e => !(ofRegion n 16 e.1))
  seq := f.seq.filter (fun e => !(ofRegion n 1 e.1)), tc := f.tc.filter (fun e => !(ofRegion n 4 e.1))
  spa := f.spa.filter (fun e => !(ofRegion n 1 e.1)), spb := f.spb.filter (fun e => !(ofRegion n 1 e.1))
  route := f.route.filter (fun e => !(ofRegion n 160 e.1)), pairs := tset f.pairs [] (n % 8) []
  mpNow := tset (tset f.mpNow none (portKey 0 n) none) none (portKey 1 n) none
  gsr := setBit f.gsr n false, wen := setBit f.wen n false, lb := f.lb.filter (fun e => decide (e.1 ≠ n)) }

theorem Fab.cell_cellsReset (f : Fab) (n t : Nat) {i : Nat} (hi : i < 16) :
    tget (f.cellsReset n).cells (0, false) (16 * t + i) =
      if tileRegion t = n then (0, false) else tget f.cells (0, false) (16 * t + i) := by
  rw [tget, Fab.cellsReset, tfind_filter f.cells (fun k => !(ofRegion n 16 k)), ofRegion_cell n t hi]
  by_cases h : tileRegion t = n <;> simp [h, tget]

section

variable {d e : Dev} {l : List (RegKind × Nat)} {n : Nat}

theorem Dev.inPorts.soForget (h : d.inPorts e l) (n p : Nat) : d.inPorts (e.soForget n p) l := h.setSo n p _

theorem Dev.inPorts.cuffsReset (h : d.inPorts e l) (n : Nat) : d.inPorts (e.cuffsReset n) l := by
  have hwalk := foldl_keeps (fun f : Fab => (f.frames = e.fab.frames ∧ f.upset = e.fab.upset ∧ f.snapLeft = e.fab.snapLeft) ∧
      f.cells = e.fab.cells ∧ f.gsr = e.fab.gsr ∧ f.wen = e.fab.wen)
    (fun f q => if e.pinOwned n q then
      let c := e.cuff q
      { f with cuffs := tset f.cuffs .reset q { c with ser := [], out := if e.brim n then c.out else 0 } }
    else f) (List.range 64) e.fab ⟨⟨rfl, rfl, rfl⟩, rfl, rfl, rfl⟩ (fun f q _ hf => by dsimp only; split <;> exact hf)
  obtain ⟨⟨hframes, hupset, hleft⟩, hcells, hgsr, hwen⟩ := hwalk
  exact h.setFab hframes hupset hleft hcells hgsr hwen

/-- The cells of a region go into reset after its ports have let go of their lines, and its freeze ends. -/
theorem Dev.regionReset_eq (d : Dev) (hn : n < 16) : ∃ e, d.inPorts e [(.FAB_SOOVF, n)] ∧
    d.regionReset n = (e.setFab (Fab.cellsReset n)).wbit FAB_SNAPSTAT_FROZEN 0 n false := by
  have hclosed : d.inPorts (((List.range 4).foldl (fun d p => (d.soClose n p).soForget n p) d).cuffsReset n) [(.FAB_SOOVF, n)] :=
    (foldl_keeps (fun e => d.inPorts e [(.FAB_SOOVF, n)]) _ _ d (d.inPorts_refl _) fun e p _ he =>
      (he.soClose hn (by simp) p).soForget n p).cuffsReset n
  unfold Dev.regionReset
  generalize ((List.range 4).foldl (fun d p => (d.soClose n p).soForget n p) d).cuffsReset n = e1 at hclosed
  have hemptied : d.inPorts (if e1.inRgn n = n then (List.range 4).foldl (fun d p =>
      let x := d.siPort n p
      d.setSi n p { x with words := [], now := none }) e1 else e1) [(.FAB_SOOVF, n)] := by
    split
    · exact foldl_keeps (fun e => d.inPorts e [(.FAB_SOOVF, n)]) _ _ e1 hclosed fun e p _ he => he.setSi n p _
    · exact hclosed
  exact ⟨_, hemptied.trans ⟨Dev.inFabric_setBank _ _, rfl, rfl, rfl⟩, rfl⟩

/-- The registers of a region's reset. -/
def resetRegs (n : Nat) : List (RegKind × Nat) := [(.FAB_SNAPSTAT, 0), (.FAB_SOOVF, n)]

section

variable (d) (hn : n < 16)
include hn

theorem Dev.inFabric_regionReset : d.inFabric (d.regionReset n) (resetRegs n) := by
  obtain ⟨e, he, heq⟩ := d.regionReset_eq hn
  rw [heq]
  exact ((he.fabric.mono (by simp [resetRegs])).trans (e.inFabric_setFab rfl rfl rfl)).trans
    (Dev.inFabric_wbit _ FAB_SNAPSTAT_FROZEN n false (by decide) (by simp [FAB_SNAPSTAT_FROZEN, resetRegs]))

theorem Dev.cell_regionReset (t : Nat) {i : Nat} (hi : i < 16) :
    (d.regionReset n).cell t i = if tileRegion t = n then (0, false) else d.cell t i := by
  obtain ⟨e, he, heq⟩ := d.regionReset_eq hn
  rw [heq, Dev.cell, Dev.wbit_fab, Dev.setFab_fab, Fab.cell_cellsReset _ _ _ hi, he.cells, Dev.cell]

theorem Dev.wen_regionReset (m : Nat) :
    tbit (d.regionReset n).fab.wen m = if m = n then false else tbit d.fab.wen m := by
  obtain ⟨e, he, heq⟩ := d.regionReset_eq hn
  rw [heq, Dev.wbit_fab, Dev.setFab_fab, Fab.cellsReset, tbit_setBit, he.wen]

end

end

/-! The start of the cells (R243) -/

/-- What INIT and INITF of a cell hold. -/
def Dev.cellInit (d : Dev) (t i : Nat) : Nat × Bool := (d.tf t 3 (25 * i) 24, decide (d.tf t 3 (25 * i + 24) 1 = 1))

/-- The cells of a tile take their initial values. -/
def Fab.tileInit (d : Dev) (f : Fab) (t : Nat) : Fab :=
  (List.range 16).foldl (fun f i => { f with cells := tset f.cells (0, false) (16 * t + i) (d.cellInit t i) }) f

theorem Dev.gsrRelease_eq (d : Dev) (n : Nat) : d.gsrRelease n = d.setFab (fun f =>
    let g := ((List.range 16).map (fun i => tileOf n i)).foldl (Fab.tileInit d) f
    { g with seq := g.seq.filter (fun e => !(ofRegion n 1 e.1)), gsr := setBit g.gsr n true }) := rfl

/-- Two states of the fabric differ in cells alone. -/
def Fab.cellsOnly (f g : Fab) : Prop := g = { f with cells := g.cells }

theorem Fab.cellsOnly_tileInit (d : Dev) (f : Fab) (t : Nat) : f.cellsOnly (Fab.tileInit d f t) :=
  foldl_keeps (fun g => f.cellsOnly g) _ _ f rfl fun g i _ hg => by
    rw [Fab.cellsOnly] at hg ⊢
    rw [hg]

theorem Fab.cellsOnly_tilesInit (d : Dev) (f : Fab) (ts : List Nat) : f.cellsOnly (ts.foldl (Fab.tileInit d) f) :=
  foldl_keeps (fun g => f.cellsOnly g) _ _ f rfl fun g t _ hg => by
    have hone := Fab.cellsOnly_tileInit d g t
    rw [Fab.cellsOnly] at hg hone ⊢
    rw [hone, hg]

theorem Fab.cell_tileInit (d : Dev) (f : Fab) (t x : Nat) {i : Nat} (hi : i < 16) :
    tget (Fab.tileInit d f t).cells (0, false) (16 * x + i) =
      if x = t then d.cellInit x i else tget f.cells (0, false) (16 * x + i) := by
  have hwalk (is : List Nat) (his : ∀ j ∈ is, j < 16) (f : Fab) :
      tget (is.foldl (fun f i => { f with cells := tset f.cells (0, false) (16 * t + i) (d.cellInit t i) }) f).cells (0, false)
        (16 * x + i) = if x = t ∧ i ∈ is then d.cellInit x i else tget f.cells (0, false) (16 * x + i) := by
    induction is generalizing f with
    | nil => simp
    | cons j is ih =>
      rw [List.foldl_cons, ih fun k hk => his k (List.mem_cons_of_mem j hk)]
      have hj : j < 16 := his j List.mem_cons_self
      by_cases hx : x = t
      · subst hx
        by_cases hij : i = j
        · subst hij
          simp
        · simp [hij, tget_tset_ne f.cells (0, false) (0, false) (d.cellInit x j) (show 16 * x + i ≠ 16 * x + j by omega)]
      · simp [hx, tget_tset_ne f.cells (0, false) (0, false) (d.cellInit t j) (show 16 * x + i ≠ 16 * t + j by omega)]
  have hall := hwalk (List.range 16) (fun j hj => List.mem_range.mp hj) f
  rw [Fab.tileInit, hall]
  simp [hi]

theorem Fab.cell_tilesInit (d : Dev) (f : Fab) (ts : List Nat) (x : Nat) {i : Nat} (hi : i < 16) :
    tget (ts.foldl (Fab.tileInit d) f).cells (0, false) (16 * x + i) =
      if x ∈ ts then d.cellInit x i else tget f.cells (0, false) (16 * x + i) := by
  induction ts generalizing f with
  | nil => simp
  | cons t ts ih =>
    rw [List.foldl_cons, ih, Fab.cell_tileInit d f t x hi]
    by_cases hx : x ∈ ts <;> by_cases ht : x = t <;> simp [hx, ht]

section

variable (d : Dev) (n : Nat)

/-- The cells of a region start: its cells and its start change. -/
theorem Dev.inFabric_gsrRelease (l : List (RegKind × Nat)) : d.inFabric (d.gsrRelease n) l := by
  have honly := Fab.cellsOnly_tilesInit d d.fab ((List.range 16).map (fun i => tileOf n i))
  rw [Fab.cellsOnly] at honly
  rw [Dev.gsrRelease_eq]
  refine d.inFabric_setFab ?_ ?_ ?_ <;> (dsimp only; rw [honly])

theorem Dev.wen_gsrRelease : (d.gsrRelease n).fab.wen = d.fab.wen := by
  have honly := Fab.cellsOnly_tilesInit d d.fab ((List.range 16).map (fun i => tileOf n i))
  rw [Fab.cellsOnly] at honly
  rw [Dev.gsrRelease_eq, Dev.setFab_fab]
  dsimp only
  rw [honly]

theorem Dev.gsr_gsrRelease (m : Nat) : tbit (d.gsrRelease n).fab.gsr m = if m = n then true else tbit d.fab.gsr m := by
  have honly := Fab.cellsOnly_tilesInit d d.fab ((List.range 16).map (fun i => tileOf n i))
  rw [Fab.cellsOnly] at honly
  rw [Dev.gsrRelease_eq, Dev.setFab_fab]
  dsimp only
  rw [tbit_setBit, honly]

theorem Dev.cell_gsrRelease (t : Nat) {i : Nat} (hi : i < 16) : (d.gsrRelease n).cell t i =
    if t ∈ (List.range 16).map (fun k => tileOf n k) then d.cellInit t i else d.cell t i := by
  rw [Dev.gsrRelease_eq, Dev.cell, Dev.setFab_fab, Fab.cell_tilesInit d d.fab _ t hi, Dev.cell]

theorem Dev.inFabric_wenRelease (l : List (RegKind × Nat)) : d.inFabric (d.wenRelease n) l := d.inFabric_setFab rfl rfl rfl

theorem Dev.cell_wenRelease (t i : Nat) : (d.wenRelease n).cell t i = d.cell t i := by
  rw [Dev.cell, Dev.wenRelease, Dev.setFab_fab, Dev.cell]

theorem Dev.wen_wenRelease (m : Nat) : tbit (d.wenRelease n).fab.wen m = if m = n then true else tbit d.fab.wen m := by
  rw [Dev.wenRelease, Dev.setFab_fab, tbit_setBit]

end

end Sys2Proof.Machine
end

section
/-! SUPPORT. A region runs or stays isolated, and reaches the end of its start (R252, R254, R260, R268). -/

namespace Sys2Proof.Machine

/-! Running regions (R252, R260) -/

section

variable {d e : Dev} {l : List (RegKind × Nat)}

theorem Dev.inFabric.wf (h : d.inFabric e l) (f : Fld) {i : Nat} (n : Nat) (hi : i < 65536) (hm : (f.kind, i) ∈ l) :
    d.inFabric (e.wf f i n) l := h.trans (e.inFabric_wf f n hi hm)

theorem Dev.inFabric.cellInit (h : d.inFabric e l) (t i : Nat) : e.cellInit t i = d.cellInit t i := by
  rw [Dev.cellInit, h.tf, h.tf, Dev.cellInit]

theorem Dev.inFabric.wbit (h : d.inFabric e l) (f : Fld) {i : Nat} (b : Nat) (v : Bool) (hi : i < 65536) (hm : (f.kind, i) ∈ l) :
    d.inFabric (e.wbit f i b v) l := h.trans (e.inFabric_wbit f b v hi hm)

end

/-- The registers that tell how a region stands. -/
def regionRegs (n : Nat) : List (RegKind × Nat) :=
  [(.SCB_RELOADREQ, 0), (.RGN_PSTAT, 0), (.FAB_SNAPSTAT, 0), (.RGN_STAT, n), (.FAB_SOOVF, n)]

section

variable (d : Dev)

theorem Dev.onlyRegs_pstat (n : Nat) : d.onlyRegs (d.pstat n) [(.RGN_PSTAT, 0)] :=
  ((d.onlyRegs_wbit RGN_PSTAT_SUSPA _ _ (by decide)).trans (Dev.onlyRegs_wbit _ RGN_PSTAT_SUSPB _ _ (by decide))).trans
    (Dev.onlyRegs_wbit _ RGN_PSTAT_SILENT _ _ (by decide))

theorem Dev.inFabric_setSuspect {n : Nat} (v : Bool) (hn : n < 16) : d.inFabric (d.setSuspect n v) (regionRegs n) :=
  (((d.inFabric_wf RGN_STAT_SUSPECT _ (by omega) (by simp [regionRegs, RGN_STAT_SUSPECT])).wbit RGN_PSTAT_SUSPA _ _ (by decide)
    (by simp [regionRegs, RGN_PSTAT_SUSPA])).wbit RGN_PSTAT_SUSPB _ _ (by decide) (by simp [regionRegs, RGN_PSTAT_SUSPB])).wbit
    RGN_PSTAT_SILENT _ _ (by decide) (by simp [regionRegs, RGN_PSTAT_SILENT])

/-- State and brim do not follow suspicion. -/
theorem Dev.rf_setSuspect {n : Nat} (v : Bool) (hn : n < 16) (f : Fld) (hf : f.kind = .RGN_STAT)
    (hap : RGN_STAT_SUSPECT.apart f = true) : (d.setSuspect n v).rf f n = d.rf f n :=
  ((Dev.onlyRegs_pstat _ (n % 8)).rf (by omega) (by simp [hf])).trans (d.rf_wf_apart (by omega) (by omega) _ _ _ hap)

theorem Dev.fab_setSuspect (n : Nat) (v : Bool) : (d.setSuspect n v).fab = d.fab := by
  simp only [Dev.setSuspect, Dev.pstat, Dev.wbit_fab, Dev.wf_fab]

theorem Dev.fab_setRgn (n st : Nat) : (d.setRgn n st).fab = d.fab := d.wf_fab ..

variable {n : Nat} (hn : n < 16)
include hn

theorem Dev.inFabric_releaseBrim : d.inFabric (d.releaseBrim n) (regionRegs n) := by
  have hbrim := d.inFabric_wf RGN_STAT_BRIM (l := regionRegs n) (i := n) 0 (by omega) (by simp [regionRegs, RGN_STAT_BRIM])
  unfold Dev.releaseBrim
  dsimp only
  split
  · exact hbrim
  · exact (hbrim.wbit SCB_RELOADREQ_REGION n false (by decide) (by simp [regionRegs, SCB_RELOADREQ_REGION])).trans
      (Dev.inFabric_setSuspect _ false hn)

omit hn in
theorem Dev.fab_releaseBrim : (d.releaseBrim n).fab = d.fab := by
  unfold Dev.releaseBrim
  dsimp only
  split
  · exact d.wf_fab ..
  · rw [Dev.fab_setSuspect, Dev.wbit_fab, Dev.wf_fab]

theorem Dev.rf_releaseBrim (f : Fld) (hf : f.kind = .RGN_STAT) (hap : RGN_STAT_SUSPECT.apart f = true) :
    (d.releaseBrim n).rf f n = (d.wf RGN_STAT_BRIM n 0).rf f n := by
  unfold Dev.releaseBrim
  dsimp only
  split
  · rfl
  · rw [Dev.rf_setSuspect _ _ hn f hf hap]
    exact (Dev.onlyRegs_wbit _ SCB_RELOADREQ_REGION _ _ (by decide)).rf (by omega) (by simp [hf, SCB_RELOADREQ_REGION])

theorem Dev.brim_releaseBrim : (d.releaseBrim n).brim n = false := by
  rw [Dev.brim, Dev.on, d.rf_releaseBrim hn RGN_STAT_BRIM rfl (by decide)]
  exact d.on_wf_zero RGN_STAT_BRIM n (by decide)

theorem Dev.rgnState_releaseBrim : (d.releaseBrim n).rgnState n = d.rgnState n :=
  (d.rf_releaseBrim hn RGN_STAT_STATE rfl (by decide)).trans (d.rf_wf_apart (by omega) (by omega) _ _ _ (by decide))

omit hn in
theorem Dev.rgnState_setRgn (st : Nat) : (d.setRgn n st).rgnState n = st % 8 := d.rf_wf_self RGN_STAT_STATE n st (by decide)

theorem Dev.inFabric_setRgn (st : Nat) : d.inFabric (d.setRgn n st) (regionRegs n) :=
  d.inFabric_wf RGN_STAT_STATE st (by omega) (by simp [regionRegs, RGN_STAT_STATE])

theorem Dev.inFabric_regionRuns : d.inFabric (d.regionRuns n) (regionRegs n) := by
  unfold Dev.regionRuns
  split
  · exact ((d.inFabric_regionReset hn).mono (by simp [resetRegs, regionRegs])).trans (Dev.inFabric_setRgn _ hn _)
  · exact (d.inFabric_setRgn hn _).trans (Dev.inFabric_releaseBrim _ hn)

theorem Dev.regionRuns_runs (hiso : tbit (d.rf RGN_ISOLATE_REGION 0) n = false) : (d.regionRuns n).rgnState n = rsRUNNING ∧
    (d.regionRuns n).brim n = false ∧ (d.regionRuns n).fab = d.fab := by
  have heq : d.regionRuns n = (d.setRgn n rsRUNNING).releaseBrim n := by
    rw [Dev.regionRuns, hiso]
    rfl
  rw [heq, Dev.rgnState_releaseBrim _ hn, Dev.rgnState_setRgn, Dev.brim_releaseBrim _ hn]
  exact ⟨rfl, rfl, (Dev.fab_releaseBrim _).trans (d.fab_setRgn n _)⟩

theorem Dev.regionRuns_stays (hiso : tbit (d.rf RGN_ISOLATE_REGION 0) n = true) : (d.regionRuns n).rgnState n = rsISOLATED ∧
    ∀ t i, i < 16 → tileRegion t = n → (d.regionRuns n).cell t i = (0, false) := by
  have heq : d.regionRuns n = (d.regionReset n).setRgn n rsISOLATED := if_pos hiso
  rw [heq, Dev.rgnState_setRgn]
  refine ⟨rfl, fun t i hi ht => ?_⟩
  rw [Dev.cell, Dev.fab_setRgn]
  exact (d.cell_regionReset hn t hi).trans (if_pos ht)

/-- Cells and enables of other regions stay. -/
theorem Dev.regionRuns_others : (∀ t i, i < 16 → tileRegion t ≠ n → (d.regionRuns n).cell t i = d.cell t i) ∧
    ∀ m, m ≠ n → tbit (d.regionRuns n).fab.wen m = tbit d.fab.wen m := by
  cases hiso : tbit (d.rf RGN_ISOLATE_REGION 0) n with
  | false =>
    obtain ⟨-, -, hfab⟩ := d.regionRuns_runs hn hiso
    exact ⟨fun t i _ _ => by rw [Dev.cell, hfab, Dev.cell], fun m _ => by rw [hfab]⟩
  | true =>
    have heq : d.regionRuns n = (d.regionReset n).setRgn n rsISOLATED := if_pos hiso
    simp only [heq, Dev.cell, Dev.fab_setRgn]
    exact ⟨fun t i hi ht => (d.cell_regionReset hn t hi).trans (if_neg ht), fun m hm => (d.wen_regionReset hn m).trans (if_neg hm)⟩

end

/-! The end of a region's start (R254) -/

/-- What stands of region `m` stays. -/
structure Dev.sparesRegion (d e : Dev) (m : Nat) : Prop where
  state : e.rgnState m = d.rgnState m
  brim : e.brim m = d.brim m
  wen : tbit e.fab.wen m = tbit d.fab.wen m
  cells : ∀ t i, i < 16 → tileRegion t = m → e.cell t i = d.cell t i

/-- Region `n` has come to the end of its start: it runs, or stays isolated. -/
structure Dev.regionUp (d e : Dev) (n : Nat) : Prop where
  runs : tbit (d.rf RGN_ISOLATE_REGION 0) n = false → e.rgnState n = rsRUNNING ∧ e.brim n = false ∧
    tbit e.fab.wen n = true ∧ ∀ t i, i < 16 → t ∈ (List.range 16).map (fun k => tileOf n k) → e.cell t i = d.cellInit t i
  stays : tbit (d.rf RGN_ISOLATE_REGION 0) n = true → e.rgnState n = rsISOLATED ∧
    ∀ t i, i < 16 → tileRegion t = n → e.cell t i = (0, false)

theorem Dev.sparesRegion.trans {d e e' : Dev} {m : Nat} (h : d.sparesRegion e m) (h' : e.sparesRegion e' m) : d.sparesRegion e' m :=
  ⟨h'.state.trans h.state, h'.brim.trans h.brim, h'.wen.trans h.wen,
    fun t i hi ht => (h'.cells t i hi ht).trans (h.cells t i hi ht)⟩

/-- The tiles of a region are those that its numbers name. -/
theorem tileRegion_of_mem {n t : Nat} (h : t ∈ (List.range 16).map (fun k => tileOf n k)) : tileRegion t = n := by
  obtain ⟨k, hk, rfl⟩ := List.mem_map.mp h
  exact tileRegion_tileOf (List.mem_range.mp hk)

theorem Dev.regionUp.spared {d e e' : Dev} {n : Nat} (h : d.regionUp e n) (h' : e.sparesRegion e' n) : d.regionUp e' n where
  runs hiso := by
    obtain ⟨hstate, hbrim, hwen, hcells⟩ := h.runs hiso
    exact ⟨h'.state.trans hstate, h'.brim.trans hbrim, h'.wen.trans hwen,
      fun t i hi ht => (h'.cells t i hi (tileRegion_of_mem ht)).trans (hcells t i hi ht)⟩
  stays hiso := by
    obtain ⟨hstate, hcells⟩ := h.stays hiso
    exact ⟨h'.state.trans hstate, fun t i hi ht => (h'.cells t i hi ht).trans (hcells t i hi ht)⟩

section

variable (d : Dev) {n : Nat} (hn : n < 16)

/-- Before it is told whether the region runs: its time is over, and its cells are started and enabled. -/
def Dev.regionBegun (d : Dev) (n : Nat) : Dev :=
  ((d.setFab (fun f => { f with starts := tset f.starts (0, false) n (0, false) })).gsrRelease n).wenRelease n

theorem Dev.regionStarted_eq (d : Dev) (n : Nat) : d.regionStarted n =
    if (tget d.fab.starts (0, false) n).2 then ((d.regionBegun n).regionRuns n).inc RGN_STAT_LOADS n 1
    else (d.regionBegun n).regionRuns n := by
  simp only [Dev.regionStarted, Dev.regionBegun]

theorem Dev.inFabric_regionBegun (n : Nat) (l : List (RegKind × Nat)) : d.inFabric (d.regionBegun n) l :=
  ((d.inFabric_setFab rfl rfl rfl).trans (Dev.inFabric_gsrRelease _ n l)).trans (Dev.inFabric_wenRelease _ n l)

theorem Dev.cell_regionBegun (n t : Nat) {i : Nat} (hi : i < 16) : (d.regionBegun n).cell t i =
    if t ∈ (List.range 16).map (fun k => tileOf n k) then d.cellInit t i else d.cell t i := by
  have hstarts : d.inFabric (d.setFab (fun f => { f with starts := tset f.starts (0, false) n (0, false) })) [] :=
    d.inFabric_setFab rfl rfl rfl
  have hcell : (d.setFab (fun f => { f with starts := tset f.starts (0, false) n (0, false) })).cell t i = d.cell t i := by
    rw [Dev.cell, Dev.setFab_fab, Dev.cell]
  rw [Dev.regionBegun, Dev.cell_wenRelease, Dev.cell_gsrRelease _ n t hi, hstarts.cellInit, hcell]

theorem Dev.wen_regionBegun (n m : Nat) : tbit (d.regionBegun n).fab.wen m = if m = n then true else tbit d.fab.wen m := by
  rw [Dev.regionBegun, Dev.wen_wenRelease, Dev.wen_gsrRelease]
  rfl

/-- The loads are counted beside state and brim. -/
theorem Dev.regionStarted_stat (n : Nat) : ∃ e, e = (d.regionBegun n).regionRuns n ∧
    (d.regionStarted n = e ∨ d.regionStarted n = e.inc RGN_STAT_LOADS n 1) := by
  refine ⟨_, rfl, ?_⟩
  rw [Dev.regionStarted_eq]
  split
  · exact .inr rfl
  · exact .inl rfl

include hn

theorem Dev.inFabric_regionStarted : d.inFabric (d.regionStarted n) (regionRegs n) := by
  have hruns := (d.inFabric_regionBegun n (regionRegs n)).trans (Dev.inFabric_regionRuns _ hn)
  rw [Dev.regionStarted_eq]
  split
  · exact hruns.trans (Dev.inFabric_inc _ RGN_STAT_LOADS 1 (by omega) (by simp [regionRegs, RGN_STAT_LOADS]))
  · exact hruns

theorem Dev.sparesRegion_inc_loads (e : Dev) : e.sparesRegion (e.inc RGN_STAT_LOADS n 1) n where
  state := e.rf_inc_apart (by omega) (by omega) _ _ _ (by decide)
  brim := e.on_inc_apart (by omega) (by omega) _ _ _ (by decide)
  wen := by rw [Dev.inc_fab]
  cells _ _ _ _ := by rw [Dev.cell, Dev.inc_fab, Dev.cell]

theorem Dev.regionUp_regionStarted : d.regionUp (d.regionStarted n) n := by
  have hiso : (d.regionBegun n).rf RGN_ISOLATE_REGION 0 = d.rf RGN_ISOLATE_REGION 0 :=
    (d.inFabric_regionBegun n []).regs.rf (by decide) (by simp)
  have hup : d.regionUp ((d.regionBegun n).regionRuns n) n := by
    refine ⟨fun h => ?_, fun h => ?_⟩
    · obtain ⟨hstate, hbrim, hfab⟩ := (d.regionBegun n).regionRuns_runs hn (by rw [hiso]; exact h)
      refine ⟨hstate, hbrim, by rw [hfab, Dev.wen_regionBegun, if_pos rfl], fun t i hi ht => ?_⟩
      rw [Dev.cell, hfab]
      exact (d.cell_regionBegun n t hi).trans (if_pos ht)
    · exact (d.regionBegun n).regionRuns_stays hn (by rw [hiso]; exact h)
  obtain ⟨e, rfl, heq | heq⟩ := d.regionStarted_stat n <;> rw [heq]
  · exact hup
  · exact hup.spared (Dev.sparesRegion_inc_loads hn _)

theorem Dev.sparesRegion_regionStarted {m : Nat} (hm : m < 16) (hne : m ≠ n) : d.sparesRegion (d.regionStarted n) m := by
  obtain ⟨hcells, hwen⟩ := (d.regionBegun n).regionRuns_others hn
  have hregs := (d.inFabric_regionStarted hn).regs
  have hstat : (RegKind.RGN_STAT, m) ∉ regionRegs n := by simp [regionRegs, hne]
  have hruns : (d.regionStarted n).fab = ((d.regionBegun n).regionRuns n).fab := by
    obtain ⟨e, rfl, heq | heq⟩ := d.regionStarted_stat n <;> rw [heq]
    rw [Dev.inc_fab]
  refine ⟨hregs.rf (by omega) hstat, hregs.on (by omega) hstat, ?_, fun t i hi ht => ?_⟩
  · rw [hruns, hwen m hne, Dev.wen_regionBegun, if_neg hne]
  · rw [Dev.cell, hruns]
    refine (hcells t i hi (by rw [ht]; exact hne)).trans ((d.cell_regionBegun n t hi).trans (if_neg fun h => hne ?_))
    rw [← ht, tileRegion_of_mem h]

end

end Sys2Proof.Machine
end

section
/-! SUPPORT. The end of a region's start (R254, R258), and the power-up pause of a load (R254). -/

namespace Sys2Proof.Machine

/-! Halves -/

theorem Dev.halves_lt {d : Dev} {n : Nat} (hn : n < 16) : ∀ m ∈ d.halves n, m < 16 := by
  unfold Dev.halves
  split <;> simp <;> omega

theorem Dev.halves_nodup (d : Dev) (n : Nat) : (d.halves n).Nodup := by
  unfold Dev.halves
  split <;> simp

/-! The halves come up in turn -/

theorem Dev.regionUp.from {d e e' : Dev} {l : List (RegKind × Nat)} {n : Nat} (h : d.inFabric e l) (hiso : (.RGN_ISOLATE, 0) ∉ l)
    (hup : e.regionUp e' n) : d.regionUp e' n := by
  have hsame : e.rf RGN_ISOLATE_REGION 0 = d.rf RGN_ISOLATE_REGION 0 := h.regs.rf (by decide) hiso
  refine ⟨fun hn => ?_, fun hn => hup.stays (by rw [hsame]; exact hn)⟩
  obtain ⟨hstate, hbrim, hwen, hcells⟩ := hup.runs (by rw [hsame]; exact hn)
  exact ⟨hstate, hbrim, hwen, fun t i hi ht => (hcells t i hi ht).trans (h.cellInit t i)⟩

theorem Dev.sparesRegion_refl (d : Dev) (m : Nat) : d.sparesRegion d m := ⟨rfl, rfl, rfl, fun _ _ _ _ => rfl⟩

/-- The registers of the starts of some regions. -/
def startRegs (ms : List Nat) : List (RegKind × Nat) :=
  [(.SCB_RELOADREQ, 0), (.RGN_PSTAT, 0), (.FAB_SNAPSTAT, 0)] ++ ms.flatMap (fun m => [(RegKind.RGN_STAT, m), (RegKind.FAB_SOOVF, m)])

theorem regionRegs_subset {ms : List Nat} {m : Nat} (hm : m ∈ ms) : regionRegs m ⊆ startRegs ms := by
  simp [regionRegs, startRegs, hm]

section

variable (d : Dev) {ms : List Nat} (hms : ∀ m ∈ ms, m < 16)
include hms

theorem Dev.inFabric_regionsStarted : d.inFabric (ms.foldl (fun d m => d.regionStarted m) d) (startRegs ms) :=
  d.inFabric_foldl _ ms fun e m hm => (e.inFabric_regionStarted (hms m hm)).mono (regionRegs_subset hm)

theorem Dev.regionUp_regionsStarted (hnd : ms.Nodup) {m : Nat} (hm : m ∈ ms) :
    d.regionUp (ms.foldl (fun d m => d.regionStarted m) d) m := by
  obtain ⟨before, after, heq, -, ha, hbsub, hasub⟩ := foldl_turn (fun (d : Dev) m => d.regionStarted m) d hnd hm
  have hbefore := d.inFabric_regionsStarted fun k hk => hms k (hbsub hk)
  rw [heq]
  refine (Dev.regionUp.from hbefore (by simp [startRegs]) (Dev.regionUp_regionStarted _ (hms m hm))).spared ?_
  exact foldl_keeps (fun e => Dev.sparesRegion _ e m) (fun d m => d.regionStarted m) after _ (Dev.sparesRegion_refl _ m)
    fun e k hk he => he.trans (e.sparesRegion_regionStarted (hms k (hasub hk)) (hms m hm) fun h => ha (h ▸ hk))

end

/-! A partial load that is complete (R254) -/

theorem Dev.tells_finishOpt (d : Dev) (h : Option Nat) (status detail : Nat) : d.tells (d.finishOpt h status detail) := by
  cases h with
  | none => exact d.tells_refl
  | some n => exact d.tells_finish n status detail

theorem Dev.finish_fab (d : Dev) (h status detail : Nat) : (d.finish h status detail).fab = d.fab := by
  unfold Dev.finish
  split
  · rfl
  · exact d.post_fab ..

theorem Dev.finishOpt_fab (d : Dev) (h : Option Nat) (status detail : Nat) : (d.finishOpt h status detail).fab = d.fab := by
  cases h with
  | none => rfl
  | some n => exact d.finish_fab n status detail

theorem Dev.onlyRegs_loadOver (d : Dev) : d.onlyRegs d.loadOver [(.CFG_FIFOSTAT, 0)] :=
  (Dev.onlyRegs_of_regs (d' := d.setCfg _) rfl).trans (Dev.onlyRegs_wf _ CFG_FIFOSTAT_FREE _ (by decide) (by simp [CFG_FIFOSTAT_FREE]))

theorem Dev.loadOver_fab (d : Dev) : d.loadOver.fab = d.fab := by
  unfold Dev.loadOver
  dsimp only
  rw [Dev.wf_fab]
  rfl

/-- Every region that the partial load opened has reached the end of its start. -/
def Dev.partialOver (d : Dev) : Bool :=
  (setBitsOf 16 d.cfg.load.opened).all (fun n => decide (d.rgnState n ≠ rsSTARTING))

/-- The partial load is over, with OK. -/
def Dev.partialDone (d : Dev) : Dev :=
  ((d.wf CFG_STATUS_PREASON 0 0).finishOpt d.cfg.load.handle stOK 0).loadOver.wf CFG_STATUS_PLOAD 0 0

theorem Dev.partialSettle_eq (d : Dev) : d.partialSettle =
    if d.cfg.load.partialLoad = true ∧ d.cfg.load.verified = true ∧ d.partialOver = true then d.partialDone else d := rfl

section

variable (d : Dev)

theorem Dev.onlyRegs_partialDone : d.onlyRegs d.partialDone [(.CFG_STATUS, 0), (.CFG_FIFOSTAT, 0)] := by
  have hreason := d.onlyRegs_wf CFG_STATUS_PREASON (i := 0) (l := [(.CFG_STATUS, 0), (.CFG_FIFOSTAT, 0)]) 0 (by decide)
    (by simp [CFG_STATUS_PREASON])
  have htold := Dev.onlyRegs_of_regs (l := [(.CFG_STATUS, 0), (.CFG_FIFOSTAT, 0)])
    ((d.wf CFG_STATUS_PREASON 0 0).tells_finishOpt d.cfg.load.handle stOK 0).regs
  exact ((hreason.trans htold).trans ((Dev.onlyRegs_loadOver _).mono (by simp))).trans
    (Dev.onlyRegs_wf _ CFG_STATUS_PLOAD _ (by decide) (by simp [CFG_STATUS_PLOAD]))

theorem Dev.partialDone_fab : d.partialDone.fab = d.fab := by
  rw [Dev.partialDone, Dev.wf_fab, Dev.loadOver_fab, Dev.finishOpt_fab, Dev.wf_fab]

theorem Dev.partialDone_status : d.partialDone.on CFG_STATUS_PLOAD 0 = false ∧ d.partialDone.rf CFG_STATUS_PREASON 0 = 0 := by
  refine ⟨Dev.on_wf_zero _ _ _ (by decide), ?_⟩
  rw [Dev.partialDone, Dev.rf_wf_apart _ (by decide) (by decide) _ _ _ (by decide),
    (Dev.onlyRegs_loadOver _).rf (by decide) (by simp [CFG_STATUS_PREASON]), (Dev.tells_finishOpt _ _ _ _).rf]
  exact d.rf_wf_self _ _ _ (by decide)

theorem Dev.onlyRegs_partialSettle : d.onlyRegs d.partialSettle [(.CFG_STATUS, 0), (.CFG_FIFOSTAT, 0)] := by
  rw [Dev.partialSettle_eq]
  split
  · exact d.onlyRegs_partialDone
  · exact Dev.onlyRegs_of_regs rfl

theorem Dev.partialSettle_fab : d.partialSettle.fab = d.fab := by
  rw [Dev.partialSettle_eq]
  split
  · exact d.partialDone_fab
  · rfl

theorem Dev.sparesRegion_partialSettle {m : Nat} (hm : m < 16) : d.sparesRegion d.partialSettle m where
  state := d.onlyRegs_partialSettle.rf (by omega) (by simp [RGN_STAT_STATE])
  brim := d.onlyRegs_partialSettle.on (by omega) (by simp [RGN_STAT_BRIM])
  wen := by rw [Dev.partialSettle_fab]
  cells _ _ _ _ := by rw [Dev.cell, Dev.partialSettle_fab, Dev.cell]

end

/-! The row -/

theorem Dev.startupDone_eq {d : Dev} {n : Nat} (hst : d.rgnState n = rsSTARTING)
    (htime : (tget d.fab.starts (0, false) n).1 ≤ d.now) :
    d.startupDone n = (d.halves n).foldl (fun d m => d.regionStarted m) d := if_pos ⟨hst, htime⟩

/-- A region that is not starting any more. -/
theorem Dev.regionUp.notStarting {d e : Dev} {m : Nat} (h : d.regionUp e m) : e.rgnState m ≠ rsSTARTING := by
  cases hiso : tbit (d.rf RGN_ISOLATE_REGION 0) m with
  | false => rw [(h.runs hiso).1]; decide
  | true => rw [(h.stays hiso).1]; decide

/-- When no other region of the load is still starting, it is complete. -/
theorem Dev.startupDone_partial {d : Dev} {n : Nat} (hn : n < 16) (hst : d.rgnState n = rsSTARTING)
    (htime : (tget d.fab.starts (0, false) n).1 ≤ d.now) (hpart : d.cfg.load.partialLoad = true) (hver : d.cfg.load.verified = true)
    (hothers : ∀ m ∈ setBitsOf 16 d.cfg.load.opened, m ∉ d.halves n → d.rgnState m ≠ rsSTARTING) :
    (d.startupDone n).partialSettle = (d.startupDone n).partialDone := by
  rw [Dev.startupDone_eq hst htime, Dev.partialSettle_eq]
  have hfab := d.inFabric_regionsStarted (Dev.halves_lt (d := d) hn)
  have hup (m : Nat) (hm : m ∈ d.halves n) := d.regionUp_regionsStarted (Dev.halves_lt hn) (d.halves_nodup n) hm
  refine if_pos ⟨by rw [hfab.cfg]; exact hpart, by rw [hfab.cfg]; exact hver, ?_⟩
  rw [Dev.partialOver, hfab.cfg, List.all_eq_true]
  intro m hm
  have hm16 : m < 16 := List.mem_range.mp (List.mem_filter.mp hm).1
  refine decide_eq_true ?_
  by_cases hin : m ∈ d.halves n
  · exact (hup m hin).notStarting
  · have hsame := hfab.regs.rf (f := RGN_STAT_STATE) (i := m) (by omega) (by simp [RGN_STAT_STATE, startRegs, hin])
    rw [Dev.rgnState, hsame]
    exact hothers m hm hin

theorem exec_regionStartupDone {s : State} {n : Nat} (hlive : s.dev.live 3 = true) (hn : n < 16)
    (hst : s.dev.rgnState n = rsSTARTING) (htime : (tget s.dev.fab.starts (0, false) n).1 ≤ s.dev.now) :
    ∃ t, exec (.regionStartupDone n) s = .next t ∧
      s.onlyRegs t ([(.SCB_RELOADREQ, 0), (.RGN_PSTAT, 0), (.FAB_SNAPSTAT, 0), (.CFG_STATUS, 0), (.CFG_FIFOSTAT, 0)] ++
        (s.dev.halves n).flatMap (fun m => [(RegKind.RGN_STAT, m), (RegKind.FAB_SOOVF, m)])) ∧
      (s.dev.cfg.load.partialLoad = false → t.dev.rreg .CFG_STATUS 0 = s.dev.rreg .CFG_STATUS 0 ∧
        t.dev.rreg .CFG_FIFOSTAT 0 = s.dev.rreg .CFG_FIFOSTAT 0) ∧
      (s.dev.cfg.load.partialLoad = true → s.dev.cfg.load.verified = true →
        (∀ m ∈ setBitsOf 16 s.dev.cfg.load.opened, m ∉ s.dev.halves n → s.dev.rgnState m ≠ rsSTARTING) →
        t.dev.on CFG_STATUS_PLOAD 0 = false ∧ t.dev.rf CFG_STATUS_PREASON 0 = 0) ∧
      ∀ m, m ∈ s.dev.halves n → s.dev.regionUp t.dev m := by
  have heq := Dev.startupDone_eq hst htime
  have hlt := Dev.halves_lt (d := s.dev) hn
  have hfab := s.dev.inFabric_regionsStarted hlt
  rw [← heq] at hfab
  refine ⟨_, State.devWithin_live hlive, State.onlyRegs_onDev ?_, fun hpart => ?_, fun hpart hver hothers => ?_, fun m hm => ?_⟩
  · refine (hfab.regs.mono ?_).trans ((Dev.onlyRegs_partialSettle _).mono (by simp))
    intro x hx
    simp only [startRegs, List.mem_append, List.mem_cons, List.not_mem_nil, or_false] at hx ⊢
    tauto
  · have hkept : (s.dev.startupDone n).partialSettle = s.dev.startupDone n := by
      rw [Dev.partialSettle_eq, hfab.cfg]
      exact if_neg fun h => by simp [hpart] at h
    rw [State.onDev_dev, hkept]
    exact ⟨hfab.regs _ _ (by decide) (by simp [startRegs]), hfab.regs _ _ (by decide) (by simp [startRegs])⟩
  · rw [State.onDev_dev, Dev.startupDone_partial hn hst htime hpart hver hothers]
    exact Dev.partialDone_status _
  · rw [State.onDev_dev]
    exact (heq ▸ s.dev.regionUp_regionsStarted hlt (s.dev.halves_nodup n) hm).spared
      (Dev.sparesRegion_partialSettle _ (hlt m hm))

/-! The power-up pause (R254) -/

/-- The pause of a load ends; nothing waits, and the engine finds nothing wrong. -/
def Dev.pauseEnds (d : Dev) : Dev := d.setLoad (fun l => { l with pauseTo := 0 })

/-- The FIFO is empty. -/
def Dev.drained (d : Dev) : Dev :=
  ((d.setLoad (fun l => { l with words := l.words ++ d.cfg.fifo })).setCfg (fun c => { c with fifo := [] })).wf
    CFG_FIFOSTAT_FREE 0 1024

theorem State.drain_eq {s : State} (hpause : s.dev.cfg.load.pauseTo = 0) (hchain : s.dev.cfg.chainLeft = 0) :
    s.drain = State.packetScan { s with dev := s.dev.drained } := by
  rw [State.drain]
  exact if_neg fun h => h.elim (fun h => h hpause) (fun h => h hchain)

theorem State.packetScan_sound {s : State} (h : s.dev.packetFault = none) : s.packetScan = s := by
  rw [State.packetScan, h]
  split <;> rfl

/-- What is wrong with the packet at the head does not go by the pause or the FIFO. -/
theorem Dev.packetFault_congr {d e : Dev}
    (h : e.cfg = { d.cfg with fifo := [], load := { d.cfg.load with pauseTo := 0 } }) : e.packetFault = d.packetFault := by
  have hword (i : Nat) : e.imageWord i = d.imageWord i := by
    simp only [Dev.imageWord, Dev.imageKey, Load.iv, h]
  have hpacket : e.packet = d.packet := by
    simp only [Dev.packet, hword, h]
  have hend : e.bodyEnd = d.bodyEnd := by
    simp only [Dev.bodyEnd, h]
  simp only [Dev.packetFault, hend, hpacket, hword, h]

theorem Dev.drained_cfg {d : Dev} (hfifo : d.cfg.fifo = []) :
    d.pauseEnds.drained.cfg = { d.cfg with fifo := [], load := { d.cfg.load with pauseTo := 0 } } := by
  simp only [Dev.drained, Dev.wf_cfg, Dev.setCfg, Dev.setLoad, Dev.pauseEnds, hfifo, List.append_nil]

theorem exec_regionPowerUpDone {s : State} (hlive : s.dev.live 3 = true) (hpause : s.dev.cfg.load.pauseTo ≠ 0)
    (htime : s.dev.cfg.load.pauseTo ≤ s.dev.now) (hfifo : s.dev.cfg.fifo = []) (hwait : s.dev.cfg.waiting = [])
    (hchain : s.dev.cfg.chainLeft = 0) (hsound : s.dev.packetFault = none) :
    ∃ t, exec .regionPowerUpDone s = .next t ∧ s.onlyRegs t [(.CFG_FIFOSTAT, 0)] ∧
      t.dev.cfg.load = { s.dev.cfg.load with pauseTo := 0 } := by
  have hcfg := Dev.drained_cfg hfifo
  have hscan : State.packetScan { s with dev := s.dev.pauseEnds.drained } = { s with dev := s.dev.pauseEnds.drained } :=
    State.packetScan_sound ((Dev.packetFault_congr hcfg).trans hsound)
  have hrow : s.regionPowerUp = { s with dev := s.dev.pauseEnds.drained } := by
    rw [State.regionPowerUp, if_pos ⟨hpause, htime⟩]
    have hdrain : (State.drain { s with dev := s.dev.pauseEnds }) = { s with dev := s.dev.pauseEnds.drained } := by
      have hover : s.dev.pauseEnds.cfg.load.pauseTo = 0 := by
        simp only [Dev.pauseEnds, Dev.setLoad, Dev.setCfg]
      have hfree : s.dev.pauseEnds.cfg.chainLeft = 0 := by
        simpa only [Dev.pauseEnds, Dev.setLoad, Dev.setCfg] using hchain
      rw [State.drain_eq (s := { s with dev := s.dev.pauseEnds }) hover hfree]
      exact hscan
    rw [show s.onDev (fun d => d.setLoad fun l => { l with pauseTo := 0 }) = { s with dev := s.dev.pauseEnds } from rfl, hdrain,
      State.waitingWords]
    simp only [hcfg, hwait]
  refine ⟨_, (State.within_live hlive).trans (congrArg _ hrow), ⟨⟨rfl, rfl⟩, ?_⟩, by rw [hcfg]⟩
  exact (Dev.onlyRegs_of_regs (d' := (s.dev.pauseEnds.setLoad _).setCfg _) rfl).trans
    (Dev.onlyRegs_wf _ CFG_FIFOSTAT_FREE _ (by decide) (by simp [CFG_FIFOSTAT_FREE]))

end Sys2Proof.Machine
end

section
/-! SUPPORT. The steps of the start-up order: SYNC's end, LOCK, GSRREL, WEN (R313, R314, R326). -/

namespace Sys2Proof.Machine

/-! The step is done -/

section

variable {d : Dev}

theorem Dev.onlyRegs_stepDone (d : Dev) : d.onlyRegs d.stepDone [(.CFG_STARTUP, 0)] :=
  (d.onlyRegs_wf CFG_STARTUP_NEXT _ (by decide) (by simp [CFG_STARTUP_NEXT])).trans
    (Dev.onlyRegs_of_regs (d' := (d.wf CFG_STARTUP_NEXT 0 _).setCfg _) rfl)

theorem Dev.stepDue_next {code : Nat} (h : d.stepDue code = true) : d.rf CFG_STARTUP_NEXT 0 < 6 := by
  simp only [Dev.stepDue, Bool.and_eq_true, decide_eq_true_eq] at h
  exact h.1.1.2

theorem Dev.stepDone_next (h : d.rf CFG_STARTUP_NEXT 0 < 6) : d.stepDone.rf CFG_STARTUP_NEXT 0 = d.rf CFG_STARTUP_NEXT 0 + 1 := by
  rw [Dev.stepDone, Dev.setCfg_rf, Dev.rf_wf_self _ _ _ _ (by decide), show CFG_STARTUP_NEXT.width = 4 from rfl]
  omega

/-- `NEXT` goes up by 1 after what a step does, which leaves it alone. -/
theorem Dev.stepDone_next_of {e : Dev} {l : List (RegKind × Nat)} (h : d.onlyRegs e l) (hl : (.CFG_STARTUP, 0) ∉ l) {code : Nat}
    (hdue : d.stepDue code = true) : e.stepDone.rf CFG_STARTUP_NEXT 0 = d.rf CFG_STARTUP_NEXT 0 + 1 := by
  have hsame : e.rf CFG_STARTUP_NEXT 0 = d.rf CFG_STARTUP_NEXT 0 := h.rf (by decide) hl
  rw [Dev.stepDone_next (by rw [hsame]; exact Dev.stepDue_next hdue), hsame]

theorem Dev.stepDone_fab (d : Dev) : d.stepDone.fab = d.fab := by
  rw [Dev.stepDone, Dev.setCfg_fab, Dev.wf_fab]

end

/-! Regions start together -/

/-- The cells of some regions start. -/
def Dev.gsrReleaseAll (d : Dev) (ns : List Nat) : Dev := ns.foldl (fun d n => d.gsrRelease n) d

/-- The cells of some regions execute. -/
def Dev.wenReleaseAll (d : Dev) (ns : List Nat) : Dev := ns.foldl (fun d n => d.wenRelease n) d

section

variable (d : Dev) (ns : List Nat)

theorem Dev.inFabric_gsrReleaseAll : d.inFabric (d.gsrReleaseAll ns) [] := d.inFabric_foldl _ ns fun e n _ => e.inFabric_gsrRelease n []

theorem Dev.inFabric_wenReleaseAll : d.inFabric (d.wenReleaseAll ns) [] := d.inFabric_foldl _ ns fun e n _ => e.inFabric_wenRelease n []

theorem Dev.wen_gsrReleaseAll : (d.gsrReleaseAll ns).fab.wen = d.fab.wen :=
  foldl_keeps (fun e => e.fab.wen = d.fab.wen) (fun (d : Dev) n => d.gsrRelease n) ns d rfl fun e n _ he => (e.wen_gsrRelease n).trans he

theorem Dev.gsr_gsrReleaseAll (m : Nat) : tbit (d.gsrReleaseAll ns).fab.gsr m = (decide (m ∈ ns) || tbit d.fab.gsr m) := by
  induction ns generalizing d with
  | nil => simp [Dev.gsrReleaseAll]
  | cons n ns ih =>
    rw [show d.gsrReleaseAll (n :: ns) = (d.gsrRelease n).gsrReleaseAll ns from List.foldl_cons .., ih, Dev.gsr_gsrRelease]
    by_cases hm : m = n <;> simp [hm]

theorem Dev.wen_wenReleaseAll (m : Nat) : tbit (d.wenReleaseAll ns).fab.wen m = (decide (m ∈ ns) || tbit d.fab.wen m) := by
  induction ns generalizing d with
  | nil => simp [Dev.wenReleaseAll]
  | cons n ns ih =>
    rw [show d.wenReleaseAll (n :: ns) = (d.wenRelease n).wenReleaseAll ns from List.foldl_cons .., ih, Dev.wen_wenRelease]
    by_cases hm : m = n <;> simp [hm]

end

/-! GSRREL and WEN -/

section

variable (d : Dev) (code : Nat)

theorem Dev.fabricStep_eq : d.fabricStep code =
    if code = 2 then d.gsrReleaseAll d.clockedRegions else d.wenReleaseAll d.clockedRegions := rfl

theorem Dev.inFabric_fabricStep : d.inFabric (d.fabricStep code) [] := by
  rw [Dev.fabricStep_eq]
  split
  · exact d.inFabric_gsrReleaseAll _
  · exact d.inFabric_wenReleaseAll _

variable {d} in
theorem Dev.inFabric.clockedRegions {e : Dev} (h : d.inFabric e []) : e.clockedRegions = d.clockedRegions := by
  unfold Dev.clockedRegions
  refine List.filter_congr fun n hn => ?_
  have hn16 : n < 16 := List.mem_range.mp hn
  have hfsel : e.fsel n = d.fsel n := h.regs.rf (by omega) (by simp)
  have hstate : e.rgnState n = d.rgnState n := h.regs.rf (by omega) (by simp)
  rw [hfsel, hstate]

/-- An enable that has come stays through the steps. -/
theorem Dev.wen_fabricStep (m : Nat) : tbit (d.fabricStep code).fab.wen m =
    ((decide (code ≠ 2) && decide (m ∈ d.clockedRegions)) || tbit d.fab.wen m) := by
  rw [Dev.fabricStep_eq]
  split
  next h => rw [Dev.wen_gsrReleaseAll, h]; rfl
  next h => rw [Dev.wen_wenReleaseAll, decide_eq_true h, Bool.true_and]

end

/-- The steps that waited for LOCK act. -/
def Dev.recordedAct (d : Dev) : Dev := d.cfg.recorded.foldl (fun d c => d.fabricStep c) d

theorem Dev.inFabric_fabricSteps (d : Dev) (cs : List Nat) : d.inFabric (cs.foldl (fun d c => d.fabricStep c) d) [] :=
  d.inFabric_foldl _ cs fun e c _ => e.inFabric_fabricStep c

theorem Dev.wen_fabricSteps (d : Dev) (cs : List Nat) {m : Nat} (h : tbit d.fab.wen m = true) :
    tbit (cs.foldl (fun d c => d.fabricStep c) d).fab.wen m = true :=
  foldl_keeps (fun e => tbit e.fab.wen m = true) (fun (d : Dev) c => d.fabricStep c) cs d h fun e c _ he => by
    rw [Dev.wen_fabricStep, he, Bool.or_true]

theorem Dev.wen_recordedAct {d : Dev} (h : 3 ∈ d.cfg.recorded) {n : Nat} (hn : n ∈ d.clockedRegions) :
    tbit d.recordedAct.fab.wen n = true := by
  obtain ⟨before, after, heq⟩ := List.append_of_mem h
  rw [Dev.recordedAct, heq, List.foldl_append, List.foldl_cons]
  refine Dev.wen_fabricSteps _ after ?_
  rw [Dev.wen_fabricStep, (d.inFabric_fabricSteps before).clockedRegions]
  simp [hn]

section

variable {s : State} (hlive : s.dev.live 3 = true)
include hlive

theorem exec_startupLock (hdue : s.dev.stepDue 0 = true) (hlocked : s.dev.pllsLocked = true) :
    ∃ t, exec .startupLock s = .next t ∧ s.onlyRegs t [(.CFG_STARTUP, 0)] ∧
      t.dev.rf CFG_STARTUP_NEXT 0 = s.dev.rf CFG_STARTUP_NEXT 0 + 1 ∧ t.dev.cfg.recorded = [] ∧
      (3 ∈ s.dev.cfg.recorded → ∀ n ∈ s.dev.clockedRegions, tbit t.dev.fab.wen n = true) := by
  have heq : s.dev.stepLock = s.dev.recordedAct.stepDone.setCfg (fun c => { c with recorded := [] }) := if_pos ⟨hdue, hlocked⟩
  have hfab := s.dev.inFabric_fabricSteps s.dev.cfg.recorded
  refine ⟨_, State.devWithin_live hlive, State.onlyRegs_onDev ?_, ?_⟩
  · rw [heq]
    exact ((hfab.regs.mono (by simp)).trans (Dev.onlyRegs_stepDone _)).trans (Dev.onlyRegs_of_regs rfl)
  · rw [State.onDev_dev, heq]
    rw [Dev.setCfg_rf, Dev.setCfg_fab, Dev.stepDone_fab]
    exact ⟨Dev.stepDone_next_of hfab.regs (by simp) hdue, rfl, fun hrec n hn => Dev.wen_recordedAct hrec hn⟩

omit hlive in
/-- A step that acts on the fabric, after LOCK. -/
theorem Dev.fabricStepRow_acts {d : Dev} {code : Nat} (hdue : d.stepDue code = true) (hlock : d.lockDone = true) :
    d.fabricStepRow code = (d.fabricStep code).stepDone := by
  simp only [Dev.fabricStepRow, hdue, hlock, if_true]

omit hlive in
theorem Dev.fabricStepRow_waits {d : Dev} {code : Nat} (hdue : d.stepDue code = true) (hlock : d.lockDone = false) :
    d.fabricStepRow code = (d.setCfg (fun c => { c with recorded := c.recorded ++ [code] })).stepDone := by
  simp only [Dev.fabricStepRow, hdue, hlock, if_true, Bool.false_eq_true, if_false]

omit hlive in
/-- A step that acts on the fabric changes no register but NEXT, and acts or waits. -/
theorem Dev.fabricStepRow_frame {d : Dev} {code : Nat} (hdue : d.stepDue code = true) :
    d.onlyRegs (d.fabricStepRow code) [(.CFG_STARTUP, 0)] ∧
    (d.fabricStepRow code).rf CFG_STARTUP_NEXT 0 = d.rf CFG_STARTUP_NEXT 0 + 1 ∧
    (d.lockDone = true → (d.fabricStepRow code).fab = (d.fabricStep code).fab) ∧
    (d.lockDone = false → (d.fabricStepRow code).cfg.recorded = d.cfg.recorded ++ [code] ∧ (d.fabricStepRow code).fab = d.fab) := by
  have hact := d.inFabric_fabricStep code
  cases hlock : d.lockDone with
  | true =>
    rw [Dev.fabricStepRow_acts hdue hlock]
    exact ⟨(hact.regs.mono (by simp)).trans (Dev.onlyRegs_stepDone _), Dev.stepDone_next_of hact.regs (by simp) hdue,
      fun _ => Dev.stepDone_fab _, fun h => by simp at h⟩
  | false =>
    rw [Dev.fabricStepRow_waits hdue hlock]
    have hnote : d.onlyRegs (d.setCfg (fun c => { c with recorded := c.recorded ++ [code] })) [] := Dev.onlyRegs_of_regs rfl
    exact ⟨(hnote.mono (by simp)).trans (Dev.onlyRegs_stepDone _), Dev.stepDone_next_of hnote (by simp) hdue,
      fun h => by simp at h, fun _ => ⟨rfl, Dev.stepDone_fab _⟩⟩

theorem exec_startupGsrrel (hdue : s.dev.stepDue 2 = true) :
    ∃ t, exec .startupGsrrel s = .next t ∧ s.onlyRegs t [(.CFG_STARTUP, 0)] ∧
      t.dev.rf CFG_STARTUP_NEXT 0 = s.dev.rf CFG_STARTUP_NEXT 0 + 1 ∧
      (s.dev.lockDone = true → ∀ n ∈ s.dev.clockedRegions, tbit t.dev.fab.gsr n = true) ∧
      (s.dev.lockDone = false → t.dev.cfg.recorded = s.dev.cfg.recorded ++ [2] ∧ t.dev.fab = s.dev.fab) := by
  obtain ⟨hregs, hnext, hacts, hwaits⟩ := Dev.fabricStepRow_frame hdue
  refine ⟨_, State.devWithin_live hlive, State.onlyRegs_onDev hregs, ?_⟩
  rw [State.onDev_dev]
  refine ⟨hnext, fun hlock n hn => ?_, hwaits⟩
  rw [hacts hlock, Dev.fabricStep_eq, if_pos rfl, Dev.gsr_gsrReleaseAll, decide_eq_true hn, Bool.true_or]

theorem exec_startupWen (hdue : s.dev.stepDue 3 = true) :
    ∃ t, exec .startupWen s = .next t ∧ s.onlyRegs t [(.CFG_STARTUP, 0)] ∧
      t.dev.rf CFG_STARTUP_NEXT 0 = s.dev.rf CFG_STARTUP_NEXT 0 + 1 ∧
      (s.dev.lockDone = true → ∀ n ∈ s.dev.clockedRegions, tbit t.dev.fab.wen n = true) ∧
      (s.dev.lockDone = false → t.dev.cfg.recorded = s.dev.cfg.recorded ++ [3] ∧ t.dev.fab = s.dev.fab) := by
  obtain ⟨hregs, hnext, hacts, hwaits⟩ := Dev.fabricStepRow_frame hdue
  refine ⟨_, State.devWithin_live hlive, State.onlyRegs_onDev hregs, ?_⟩
  rw [State.onDev_dev]
  refine ⟨hnext, fun hlock n hn => ?_, hwaits⟩
  rw [hacts hlock, Dev.wen_fabricStep, decide_eq_true hn]
  rfl

theorem exec_cfgdoneRise (hsync : s.dev.cfgState = csSYNC) :
    ∃ t, exec .cfgdoneRise s = .next t ∧ s.onlyRegs t [(.CFG_STATUS, 0), (.CFG_STARTUP, 0)] ∧ t.dev.cfgState = csSTARTUP ∧
      t.dev.rf CFG_STARTUP_NEXT 0 = 0 := by
  have heq : s.dev.cfgdoneRise = s.dev.startupBegins := if_pos hsync
  have hstate : s.dev.onlyRegs (s.dev.setCfgState csSTARTUP) [(.CFG_STATUS, 0), (.CFG_STARTUP, 0)] :=
    (s.dev.onlyRegs_wf CFG_STATUS_STATE _ (by decide) (by simp [CFG_STATUS_STATE])).trans (Dev.onlyRegs_of_regs rfl)
  refine ⟨_, State.devWithin_live hlive, State.onlyRegs_onDev ?_, ?_⟩
  · rw [heq]
    exact (hstate.trans (Dev.onlyRegs_wf _ CFG_STARTUP_NEXT _ (by decide) (by simp [CFG_STARTUP_NEXT]))).trans
      (Dev.onlyRegs_of_regs rfl)
  · rw [State.onDev_dev, heq]
    refine ⟨?_, (s.dev.setCfgState csSTARTUP).rf_wf_self CFG_STARTUP_NEXT 0 0 (by decide)⟩
    exact ((s.dev.setCfgState csSTARTUP).rf_wf_apart (by decide) (by decide) _ _ _ (by decide)).trans
      (s.dev.rf_wf_self CFG_STATUS_STATE 0 csSTARTUP (by decide))

end

end Sys2Proof.Machine
end

section
/-! SUPPORT. The step OUTREL: pins, heads and lanes leave the pre-release state (R313, R398, R399). -/

namespace Sys2Proof.Machine

/-! Pins, heads and lanes -/

/-- FAULT records on their way to the queue stay on it. -/
def Dev.keepsFaults (d e : Dev) : Prop := ∀ r ∈ d.evq.inFlight, r.kind = .fault → r ∈ e.evq.inFlight

/-- Only lanes, heads, comparators and the listed registers change; FAULT records stay on their way. -/
structure Dev.besides (d e : Dev) (l : List (RegKind × Nat)) : Prop where
  regs : d.onlyRegs e l
  cfg : e.cfg = d.cfg
  pwr : e.pwr = d.pwr
  faults : d.keepsFaults e
  gpio : e.gpio = d.gpio
  released : e.anx.released = d.anx.released
  fab : e.fab = d.fab

section

variable {d e e' : Dev} {l m : List (RegKind × Nat)}

theorem Dev.besides_refl (d : Dev) (l : List (RegKind × Nat)) : d.besides d l :=
  ⟨Dev.onlyRegs_of_regs rfl, rfl, rfl, fun _ hr _ => hr, rfl, rfl, rfl⟩

theorem Dev.besides.trans (h : d.besides e l) (h' : e.besides e' l) : d.besides e' l :=
  ⟨h.regs.trans h'.regs, h'.cfg.trans h.cfg, h'.pwr.trans h.pwr,
    fun r hr hk => h'.faults r (h.faults r hr hk) hk, h'.gpio.trans h.gpio, h'.released.trans h.released, h'.fab.trans h.fab⟩

theorem Dev.besides.mono (h : d.besides e l) (hs : l ⊆ m) : d.besides e m := { h with regs := h.regs.mono hs }

theorem Dev.besides_foldl {α : Type} (d : Dev) (f : Dev → α → Dev) (xs : List α)
    (h : ∀ (e : Dev) x, x ∈ xs → e.besides (f e x) l) : d.besides (xs.foldl f d) l :=
  foldl_keeps (fun e => d.besides e l) f xs d (d.besides_refl l) fun e x hx he => he.trans (h e x hx)

section

variable (h : d.besides e l)
include h

theorem Dev.besides.wf (f : Fld) {i : Nat} (n : Nat) (hi : i < 65536) (hm : (f.kind, i) ∈ l) : d.besides (e.wf f i n) l :=
  h.trans ⟨e.onlyRegs_wf f n hi hm, rfl, rfl, fun _ hr _ => hr, rfl, rfl, rfl⟩

theorem Dev.besides.inc (f : Fld) {i : Nat} (n : Nat) (hi : i < 65536) (hm : (f.kind, i) ∈ l) : d.besides (e.inc f i n) l :=
  h.trans ⟨e.onlyRegs_inc f n hi hm, rfl, rfl, fun _ hr _ => hr, rfl, rfl, rfl⟩

theorem Dev.besides.setLane (n : Nat) (x : Lane) : d.besides (e.setLane n x) l :=
  h.trans ⟨Dev.onlyRegs_of_regs rfl, rfl, rfl, fun _ hr _ => hr, rfl, rfl, rfl⟩

theorem Dev.besides.setHcp (n : Nat) (x : Hcp) : d.besides (e.setHcp n x) l :=
  h.trans ⟨Dev.onlyRegs_of_regs rfl, rfl, rfl, fun _ hr _ => hr, rfl, rfl, rfl⟩

theorem Dev.besides.laneSettle {n : Nat} (hn : n < 65536) (hl : (.LAN_STAT, n) ∈ l) : d.besides (e.laneSettle n) l := by
  unfold Dev.laneSettle
  dsimp only
  split_ifs
  · exact h.wf LAN_STAT_STATE _ hn hl
  · exact h
  · exact h.wf LAN_STAT_STATE _ hn hl
  · exact h
  · exact (h.setLane n _).wf LAN_STAT_STATE _ hn hl

end

/-- The registers that tell how the lanes stand. -/
def laneStats : List (RegKind × Nat) := (List.range 12).map (fun l => (RegKind.LAN_STAT, l))

theorem Dev.besides.lanesSettle (h : d.besides e l) (hl : laneStats ⊆ l) : d.besides e.lanesSettle l :=
  foldl_keeps (fun e => d.besides e l) _ _ e h fun e n hn he => by
    have hn12 : n < 12 := List.mem_range.mp hn
    exact he.laneSettle (by omega) (hl (List.mem_map.mpr ⟨n, hn, rfl⟩))

theorem Dev.laneSettle_hcp (d : Dev) (n : Nat) : (d.laneSettle n).hcp = d.hcp := by
  unfold Dev.laneSettle
  dsimp only
  split_ifs
  · exact d.wf_hcp ..
  · rfl
  · exact d.wf_hcp ..
  · rfl
  · rw [Dev.wf_hcp]
    rfl

theorem Dev.lanesSettle_hcp (d : Dev) : d.lanesSettle.hcp = d.hcp :=
  foldl_keeps (fun e => e.hcp = d.hcp) (fun (d : Dev) n => d.laneSettle n) _ d rfl fun e n _ he => (e.laneSettle_hcp n).trans he

end

/-! Pins take their functions (R398, R399) -/

theorem Dev.rf_of_regs {d e : Dev} (h : e.regs = d.regs) (f : Fld) (i : Nat) : e.rf f i = d.rf f i :=
  Dev.rf_of_rreg (by rw [Dev.rreg, h, Dev.rreg])

theorem Dev.on_of_regs {d e : Dev} (h : e.regs = d.regs) (f : Fld) (i : Nat) : e.on f i = d.on f i := by
  rw [Dev.on, Dev.rf_of_regs h, Dev.on]

/-- The function of a pin goes by the registers. -/
theorem Dev.padWanted_congr {d e : Dev} (h : e.regs = d.regs) (p : Nat) : e.padWanted p = d.padWanted p := by
  have hclaim (code : Nat) : e.padClaim p code = d.padClaim p code := by
    simp only [Dev.padClaim, Dev.moe, Dev.rgnState, Dev.brim, Dev.rf_of_regs h, Dev.on_of_regs h]
    rfl
  simp only [Dev.padWanted, Dev.rf_of_regs h, hclaim]

/-- A pin takes its function. -/
def Dev.padTakes (d : Dev) (p : Nat) : Dev := d.setPad p ⟨d.padWanted p, none, none, false⟩

/-- What the release of the pins leaves: the registers, the heads and the flag. -/
theorem Dev.padsTake_keeps (d : Dev) (ps : List Nat) : (ps.foldl Dev.padTakes d).regs = d.regs ∧
    (ps.foldl Dev.padTakes d).hcp = d.hcp ∧ (ps.foldl Dev.padTakes d).gpio.released = d.gpio.released :=
  foldl_keeps (fun e : Dev => e.regs = d.regs ∧ e.hcp = d.hcp ∧ e.gpio.released = d.gpio.released) Dev.padTakes ps d
    ⟨rfl, rfl, rfl⟩ fun _ _ _ he => he

theorem Dev.pad_padsTake (d : Dev) {ps : List Nat} (hnd : ps.Nodup) {p : Nat} (hp : p ∈ ps) :
    (ps.foldl Dev.padTakes d).pad p = ⟨d.padWanted p, none, none, false⟩ := by
  obtain ⟨before, after, heq, -, ha, -, -⟩ := foldl_turn Dev.padTakes d hnd hp
  have hturn : (Dev.padTakes (before.foldl Dev.padTakes d) p).pad p = ⟨d.padWanted p, none, none, false⟩ := by
    rw [← Dev.padWanted_congr (d.padsTake_keeps before).1 p]
    exact tget_tset_self ..
  rw [heq]
  refine foldl_keeps (fun e : Dev => e.pad p = ⟨d.padWanted p, none, none, false⟩) Dev.padTakes after _ hturn fun e q hq he => ?_
  have hne : p ≠ q := fun h => ha (h ▸ hq)
  have hsame : (e.padTakes q).pad p = e.pad p := tget_tset_ne _ _ _ _ hne
  exact hsame.trans he

theorem Dev.padsRelease_eq (d : Dev) :
    d.padsRelease = (List.range 64).foldl Dev.padTakes (d.setGpio (fun g => { g with released := true })) := rfl

theorem Dev.padsRelease_keeps (d : Dev) : d.padsRelease.regs = d.regs ∧ d.padsRelease.hcp = d.hcp ∧ d.padsRelease.gpio.released = true := by
  obtain ⟨hregs, hhcp, hrel⟩ := (d.setGpio (fun g => { g with released := true })).padsTake_keeps (List.range 64)
  exact ⟨hregs, hhcp, hrel⟩

theorem Dev.pad_padsRelease (d : Dev) {p : Nat} (hp : p < 64) : d.padsRelease.pad p = ⟨d.padWanted p, none, none, false⟩ := by
  rw [Dev.padsRelease_eq, Dev.pad_padsTake _ List.nodup_range (List.mem_range.mpr hp),
    Dev.padWanted_congr (d := d) (d.setGpio_regs _)]

/-! Heads run free (R313) -/

theorem Dev.headsFree_keeps (d : Dev) : d.headsFree.regs = d.regs ∧ d.headsFree.gpio = d.gpio :=
  foldl_keeps (fun e : Dev => e.regs = d.regs ∧ e.gpio = d.gpio) (fun (d : Dev) h => d.hckFree h) _ d ⟨rfl, rfl⟩ fun _ _ _ he => he

theorem Dev.hck_headsFree (d : Dev) {h : Nat} (hh : h < 24) (hen : d.on HCP_CTRL_EN h = true) :
    (d.headsFree.getHcp h).hck.isSome = true := by
  have hin : h ∈ (List.range 24).filter (fun h => d.on HCP_CTRL_EN h) := List.mem_filter.mpr ⟨List.mem_range.mpr hh, hen⟩
  obtain ⟨before, after, heq, -⟩ := foldl_turn (fun (d : Dev) h => d.hckFree h) d (List.nodup_range.filter _) hin
  rw [Dev.headsFree, heq]
  refine foldl_keeps (fun e : Dev => (e.getHcp h).hck.isSome = true) (fun (d : Dev) h => d.hckFree h) after _ ?_ fun e g _ he => ?_
  · rw [Dev.hckFree, Dev.getHcp_setHcp]
    rfl
  · by_cases hg : h = g
    · subst hg
      rw [Dev.hckFree, Dev.getHcp_setHcp]
      rfl
    · have hsame : (e.hckFree g).getHcp h = e.getHcp h := tget_tset_ne _ _ _ _ hg
      rw [hsame]
      exact he

/-! OUTREL -/

theorem exec_startupOutrel {s : State} (hlive : s.dev.live 3 = true) (hdue : s.dev.stepDue 1 = true) :
    ∃ t, exec .startupOutrel s = .next t ∧
      s.onlyRegs t ((.CFG_STARTUP, 0) :: (List.range 12).map (fun l => (RegKind.LAN_STAT, l))) ∧ t.dev.gpio.released = true ∧
      (∀ p, p < 64 → t.dev.pad p = ⟨s.dev.padWanted p, none, none, false⟩) ∧
      (∀ h, h < 24 → s.dev.on HCP_CTRL_EN h = true → (t.dev.getHcp h).hck.isSome = true) ∧
      t.dev.rf CFG_STARTUP_NEXT 0 = s.dev.rf CFG_STARTUP_NEXT 0 + 1 := by
  have heq : s.dev.stepOutrel = s.dev.padsRelease.headsFree.lanesSettle.stepDone := if_pos hdue
  obtain ⟨hpregs, -, hprel⟩ := s.dev.padsRelease_keeps
  obtain ⟨hhregs, hhgpio⟩ := s.dev.padsRelease.headsFree_keeps
  have hlanes := (Dev.besides_refl s.dev.padsRelease.headsFree laneStats).lanesSettle (List.Subset.refl _)
  have hregs : s.dev.onlyRegs s.dev.padsRelease.headsFree.lanesSettle laneStats :=
    (Dev.onlyRegs_of_regs (hhregs.trans hpregs)).trans hlanes.regs
  have hgpio : s.dev.padsRelease.headsFree.lanesSettle.stepDone.gpio = s.dev.padsRelease.gpio := by
    rw [Dev.stepDone, Dev.setCfg_gpio, Dev.wf_gpio, hlanes.gpio, hhgpio]
  refine ⟨_, State.devWithin_live hlive, State.onlyRegs_onDev ?_, ?_⟩
  · rw [heq]
    exact (hregs.mono (List.subset_cons_self ..)).trans ((Dev.onlyRegs_stepDone _).mono (by simp))
  · rw [State.onDev_dev, heq]
    refine ⟨by rw [hgpio]; exact hprel, fun p hp => ?_, fun h hh hen => ?_, Dev.stepDone_next_of hregs (by simp [laneStats]) hdue⟩
    · rw [Dev.pad, hgpio]
      exact s.dev.pad_padsRelease hp
    · have hhcp : s.dev.padsRelease.headsFree.lanesSettle.stepDone.hcp = s.dev.padsRelease.headsFree.hcp := by
        rw [Dev.stepDone, Dev.setCfg_hcp, Dev.wf_hcp, Dev.lanesSettle_hcp]
      rw [Dev.getHcp, hhcp]
      exact Dev.hck_headsFree _ hh (by rw [Dev.on_of_regs hpregs]; exact hen)

end Sys2Proof.Machine
end

section
/-! SUPPORT. The step ANAREL: comparators start under their power-up rule (R189, R313). -/

namespace Sys2Proof.Machine

/-! Comparators start up (R189) -/

section

variable {d e : Dev} {l : List (RegKind × Nat)}

theorem Dev.besides.setCmp (h : d.besides e l) (n : Nat) (x : CmpUnit) : d.besides (e.setCmp n x) l :=
  h.trans ⟨Dev.onlyRegs_of_regs rfl, rfl, rfl, fun _ hr _ => hr, rfl, rfl, rfl⟩

/-- Only LEVEL records are written VOID. -/
theorem Dev.besides.levelFall (h : d.besides e l) (src : Nat) : d.besides (e.levelFall src) l := by
  refine h.trans ⟨Dev.onlyRegs_of_regs rfl, rfl, rfl, fun r hr hk => ?_, rfl, rfl, rfl⟩
  refine List.mem_map.mpr ⟨r, hr, if_neg fun h => ?_⟩
  rw [hk] at h
  exact absurd h.1 (by decide)

theorem Dev.besides.cmpStart (h : d.besides e l) {n : Nat} (hn : n < 48) (hl : (.CMP_STAT, n) ∈ l) : d.besides (e.cmpStart n) l := by
  have hunit (x : CmpUnit) := ((h.wf CMP_STAT_OUT (b2n (e.on CMP_CFG_STARTLVL n)) (by omega) hl).wf CMP_STAT_SETTLED 0 (by omega)
    hl).setCmp n x
  unfold Dev.cmpStart
  dsimp only
  split
  · exact hunit _
  · exact (hunit _).levelFall _

/-- The registers that tell how the comparators stand. -/
def cmpStats : List (RegKind × Nat) := (List.range 48).map (fun n => (RegKind.CMP_STAT, n))

theorem mem_cmpStats {n : Nat} (hn : n < 48) : (RegKind.CMP_STAT, n) ∈ cmpStats := List.mem_map.mpr ⟨n, List.mem_range.mpr hn, rfl⟩

theorem Dev.cmpStarts_all (d : Dev) : d.cmpStarts (fun _ => true) = (List.range 48).foldl (fun d n => d.cmpStart n) d := by
  rw [Dev.cmpStarts, List.filter_true]

theorem Dev.besides.cmpStarts (h : d.besides e l) (hl : cmpStats ⊆ l) : d.besides (e.cmpStarts (fun _ => true)) l := by
  rw [Dev.cmpStarts_all]
  exact foldl_keeps (fun e => d.besides e l) _ _ e h fun e n hn he =>
    he.cmpStart (List.mem_range.mp hn) (hl (mem_cmpStats (List.mem_range.mp hn)))

end

section

variable (d : Dev) {n : Nat} (hn : n < 48)
include hn

/-- A comparator that starts shows its start level and is not settled. -/
theorem Dev.cmpStart_stat : (d.cmpStart n).on CMP_STAT_OUT n = d.on CMP_CFG_STARTLVL n ∧
    (d.cmpStart n).on CMP_STAT_SETTLED n = false := by
  have hrf (f : Fld) : (d.cmpStart n).on f n =
      ((d.wf CMP_STAT_OUT n (b2n (d.on CMP_CFG_STARTLVL n))).wf CMP_STAT_SETTLED n 0).on f n := by
    unfold Dev.cmpStart
    dsimp only
    split <;> exact Dev.on_of_regs rfl f n
  rw [hrf, hrf, Dev.on_wf_zero _ _ _ (by decide), Dev.on_wf_apart _ (by omega) (by omega) _ _ _ (by decide),
    Dev.on_wf_b2n _ _ _ _ (by decide) (by decide)]
  exact ⟨rfl, rfl⟩

theorem Dev.cmpStarts_stat : (d.cmpStarts (fun _ => true)).on CMP_STAT_OUT n = d.on CMP_CFG_STARTLVL n ∧
    (d.cmpStarts (fun _ => true)).on CMP_STAT_SETTLED n = false := by
  obtain ⟨before, after, heq, -, ha, hbsub, hasub⟩ := foldl_turn (fun (d : Dev) n => d.cmpStart n) d List.nodup_range
    (List.mem_range.mpr hn)
  have hbefore : d.besides (before.foldl (fun (d : Dev) n => d.cmpStart n) d) cmpStats :=
    d.besides_foldl _ before fun e m hm => (Dev.besides_refl e cmpStats).cmpStart (List.mem_range.mp (hbsub hm))
      (mem_cmpStats (List.mem_range.mp (hbsub hm)))
  have hlevel : (before.foldl (fun (d : Dev) n => d.cmpStart n) d).on CMP_CFG_STARTLVL n = d.on CMP_CFG_STARTLVL n :=
    hbefore.regs.on (by omega) (by simp [cmpStats, CMP_CFG_STARTLVL])
  obtain ⟨hout, hset⟩ := (before.foldl (fun (d : Dev) n => d.cmpStart n) d).cmpStart_stat hn
  rw [Dev.cmpStarts_all, heq, ← hlevel]
  refine foldl_keeps (fun e : Dev => e.on CMP_STAT_OUT n = _ ∧ e.on CMP_STAT_SETTLED n = false) (fun (d : Dev) n => d.cmpStart n)
    after _ ⟨hout, hset⟩ fun e m hm he => ?_
  have hne : m ≠ n := fun h => ha (h ▸ hm)
  have hone := (Dev.besides_refl e [(.CMP_STAT, m)]).cmpStart (List.mem_range.mp (hasub hm)) (by simp)
  have hkept (f : Fld) (hf : f.kind = .CMP_STAT) : (e.cmpStart m).on f n = e.on f n :=
    hone.regs.on (by omega) (by simp [hf, Ne.symm hne])
  exact ⟨(hkept _ rfl).trans he.1, (hkept _ rfl).trans he.2⟩

end

/-! ANAREL -/

theorem exec_startupAnarel {s : State} (hlive : s.dev.live 3 = true) (hdue : s.dev.stepDue 4 = true) :
    ∃ t, exec .startupAnarel s = .next t ∧
      s.onlyRegs t ((.CFG_STARTUP, 0) :: (List.range 48).map (fun n => (RegKind.CMP_STAT, n))) ∧ t.dev.anx.released = true ∧
      (∀ n, n < 48 → t.dev.on CMP_STAT_OUT n = s.dev.on CMP_CFG_STARTLVL n ∧ t.dev.on CMP_STAT_SETTLED n = false) ∧
      t.dev.rf CFG_STARTUP_NEXT 0 = s.dev.rf CFG_STARTUP_NEXT 0 + 1 := by
  have heq : s.dev.stepAnarel = s.dev.anxRelease.stepDone := if_pos hdue
  have hstart := (Dev.besides_refl (s.dev.setAnx (fun a => { a with released := true })) cmpStats).cmpStarts (List.Subset.refl _)
  have hregs : s.dev.onlyRegs s.dev.anxRelease cmpStats := (Dev.onlyRegs_of_regs (s.dev.setAnx_regs _)).trans hstart.regs
  refine ⟨_, State.devWithin_live hlive, State.onlyRegs_onDev ?_, ?_⟩
  · rw [heq]
    exact (hregs.mono (List.subset_cons_self ..)).trans ((Dev.onlyRegs_stepDone _).mono (by simp))
  · rw [State.onDev_dev, heq]
    have hanx : s.dev.anxRelease.stepDone.anx = s.dev.anxRelease.anx := by
      rw [Dev.stepDone, Dev.setCfg_anx, Dev.wf_anx]
    refine ⟨by rw [hanx]; exact hstart.released, fun n hn => ?_, Dev.stepDone_next_of hregs (by simp [cmpStats]) hdue⟩
    have hstat (f : Fld) (hf : f.kind = .CMP_STAT) : s.dev.anxRelease.stepDone.on f n = s.dev.anxRelease.on f n :=
      (Dev.onlyRegs_stepDone _).on (by omega) (by simp [hf])
    rw [hstat _ rfl, hstat _ rfl]
    obtain ⟨hout, hset⟩ := (s.dev.setAnx (fun a => { a with released := true })).cmpStarts_stat hn
    exact ⟨hout.trans (Dev.on_of_regs (s.dev.setAnx_regs _) _ _), hset⟩

end Sys2Proof.Machine
end

section
/-! SUPPORT. The step DONE (R313, R314, R316 to R319, R338). -/

namespace Sys2Proof.Machine

/-! The device is configured -/

/-- The start-up is told as done: CFGDONE is released, the state is DONE, the device is configured. -/
def Dev.doneTold (d : Dev) : Dev := (d.stepDone.releaseDone.setCfgState csDONE).wf SYS_STATUS_CONFIGURED 0 1

/-- The image that was loaded is told, and its retries end. -/
def Dev.imageTold (d : Dev) (l : Load) : Dev :=
  let d := match l.hdr with
    | some h => d.wf CFG_IMAGEID_ID 0 h.id
    | none => d
  if l.hdr.isSome = true ∧ l.golden = false then d.wf CFG_RETRY_COUNT 0 0 else d

/-- All of DONE that comes before the regions. -/
def Dev.configured (d : Dev) : Dev := ((d.doneTold.imageTold d.cfg.load).finishOpt d.cfg.load.handle stOK 0).loadOver

theorem Dev.stepDoneRow_eq {d : Dev} (h : d.stepDue 5 = true) : d.stepDoneRow =
    let e := d.configured.regionsDone.sweepStart
    { e with scb := { e.scb with wdNow := none } } := by
  rw [Dev.stepDoneRow, if_pos h]
  cases hhdr : d.cfg.load.hdr <;> simp only [Dev.configured, Dev.imageTold, Dev.doneTold, hhdr]

/-- The registers of DONE before the regions. -/
def configuredRegs : List (RegKind × Nat) :=
  [(.CFG_STARTUP, 0), (.CFG_STATUS, 0), (.SYS_STATUS, 0), (.CFG_IMAGEID, 0), (.CFG_RETRY, 0), (.CFG_FIFOSTAT, 0)]

section

variable (d : Dev) (l : Load)

theorem Dev.onlyRegs_doneTold : d.onlyRegs d.doneTold configuredRegs := by
  have hstep := (d.onlyRegs_stepDone.mono (m := configuredRegs) (by simp [configuredRegs])).trans
    (Dev.onlyRegs_of_regs (d' := d.stepDone.releaseDone) rfl)
  have hstate := hstep.trans (Dev.onlyRegs_wf _ CFG_STATUS_STATE csDONE (i := 0) (by decide) (by simp [CFG_STATUS_STATE, configuredRegs]))
  exact (hstate.trans (Dev.onlyRegs_of_regs (d' := d.stepDone.releaseDone.setCfgState csDONE) rfl)).trans
    (Dev.onlyRegs_wf _ SYS_STATUS_CONFIGURED _ (by decide) (by simp [SYS_STATUS_CONFIGURED, configuredRegs]))

theorem Dev.doneTold_status : d.doneTold.cfgState = csDONE ∧ d.doneTold.on SYS_STATUS_CONFIGURED 0 = true ∧
    d.doneTold.cfg.cfgdonePull = false := by
  refine ⟨?_, Dev.on_wf_one _ _ _ (by decide) (by decide), ?_⟩
  · rw [Dev.cfgState, Dev.doneTold, Dev.rf_wf_apart _ (by decide) (by decide) _ _ _ (by decide), Dev.setCfgState, Dev.setCfg_rf]
    exact Dev.rf_wf_self _ _ _ _ (by decide)
  · rw [Dev.doneTold, Dev.wf_cfg, Dev.setCfgState, Dev.setCfg_cfg, Dev.wf_cfg, Dev.releaseDone, Dev.setCfg_cfg]

theorem Dev.doneTold_fab : d.doneTold.fab = d.fab := by
  rw [Dev.doneTold, Dev.wf_fab, Dev.setCfgState, Dev.setCfg_fab, Dev.wf_fab, Dev.releaseDone, Dev.setCfg_fab, Dev.stepDone_fab]

theorem Dev.onlyRegs_imageTold : d.onlyRegs (d.imageTold l) [(.CFG_IMAGEID, 0), (.CFG_RETRY, 0)] := by
  have hid (n : Nat) := d.onlyRegs_wf CFG_IMAGEID_ID (i := 0) (l := [(.CFG_IMAGEID, 0), (.CFG_RETRY, 0)]) n (by decide)
    (by simp [CFG_IMAGEID_ID])
  have hretry (e : Dev) := e.onlyRegs_wf CFG_RETRY_COUNT (i := 0) (l := [(.CFG_IMAGEID, 0), (.CFG_RETRY, 0)]) 0 (by decide)
    (by simp [CFG_RETRY_COUNT])
  unfold Dev.imageTold
  cases l.hdr with
  | none => exact Dev.onlyRegs_of_regs (by simp)
  | some h =>
    dsimp only
    split
    · exact (hid h.id).trans (hretry _)
    · exact hid h.id

theorem Dev.imageTold_keeps : (d.imageTold l).fab = d.fab ∧ (d.imageTold l).cfg = d.cfg := by
  unfold Dev.imageTold
  cases l.hdr with
  | none => simp
  | some h =>
    dsimp only
    split <;> simp only [Dev.wf_fab, Dev.wf_cfg, and_self]

variable {l} in
theorem Dev.imageTold_id {h : ImgHdr} (hhdr : l.hdr = some h) : (d.imageTold l).rf CFG_IMAGEID_ID 0 = h.id % 2 ^ 32 ∧
    (l.golden = false → (d.imageTold l).rf CFG_RETRY_COUNT 0 = 0) := by
  have hid : (d.wf CFG_IMAGEID_ID 0 h.id).rf CFG_IMAGEID_ID 0 = h.id % 2 ^ 32 := Dev.rf_wf_self _ _ _ _ (by decide)
  unfold Dev.imageTold
  simp only [hhdr, Option.isSome_some, true_and]
  refine ⟨?_, fun hgold => ?_⟩
  · split
    · exact (Dev.rf_wf_apart _ (by decide) (by decide) _ _ _ (by decide)).trans hid
    · exact hid
  · rw [if_pos hgold]
    exact Dev.rf_wf_self _ _ _ _ (by decide)

theorem Dev.configured_keeps : d.configured.fab = d.fab := by
  rw [Dev.configured, Dev.loadOver_fab, Dev.finishOpt_fab, (d.doneTold.imageTold_keeps d.cfg.load).1, Dev.doneTold_fab]

/-- After the image is told only the end of the load comes. -/
theorem Dev.rf_configured (f : Fld) (hf : f.kind ≠ .CFG_FIFOSTAT) :
    d.configured.rf f 0 = (d.doneTold.imageTold d.cfg.load).rf f 0 :=
  ((Dev.onlyRegs_loadOver _).rf (by decide) (by simp [hf])).trans ((Dev.tells_finishOpt _ _ _ _).rf f 0)

theorem Dev.onlyRegs_configured : d.onlyRegs d.configured configuredRegs :=
  ((d.onlyRegs_doneTold.trans ((Dev.onlyRegs_imageTold _ _).mono (by simp [configuredRegs]))).trans
    (Dev.onlyRegs_of_regs (Dev.tells_finishOpt _ _ _ _).regs)).trans ((Dev.onlyRegs_loadOver _).mono (by simp [configuredRegs]))

theorem Dev.configured_status : d.configured.cfgState = csDONE ∧ d.configured.on SYS_STATUS_CONFIGURED 0 = true ∧
    d.configured.cfg.cfgdonePull = false := by
  obtain ⟨hstate, hconf, hpull⟩ := d.doneTold_status
  have himage := d.doneTold.onlyRegs_imageTold d.cfg.load
  refine ⟨?_, ?_, ?_⟩
  · exact (d.rf_configured CFG_STATUS_STATE (by decide)).trans ((himage.rf (by decide) (by simp [CFG_STATUS_STATE])).trans hstate)
  · rw [Dev.on, d.rf_configured SYS_STATUS_CONFIGURED (by decide), himage.rf (by decide) (by simp [SYS_STATUS_CONFIGURED])]
    exact hconf
  · have htold := (Dev.tells_finishOpt (d.doneTold.imageTold d.cfg.load) d.cfg.load.handle stOK 0).cfg
    rw [Dev.configured, Dev.loadOver, Dev.wf_cfg, Dev.setCfg_cfg, htold, (d.doneTold.imageTold_keeps d.cfg.load).2]
    exact hpull

theorem Dev.configured_id {h : ImgHdr} (hhdr : d.cfg.load.hdr = some h) : d.configured.rf CFG_IMAGEID_ID 0 = h.id % 2 ^ 32 ∧
    (d.cfg.load.golden = false → d.configured.rf CFG_RETRY_COUNT 0 = 0) := by
  obtain ⟨hid, hretry⟩ := d.doneTold.imageTold_id hhdr
  exact ⟨(d.rf_configured _ (by decide)).trans hid, fun hgold => (d.rf_configured _ (by decide)).trans (hretry hgold)⟩

end

/-! The regions leave their start-up -/

/-- A region at DONE of the device. -/
def Dev.regionDone (d : Dev) (n : Nat) : Dev :=
  if d.rgnState n = rsEMPTY then d
  else if d.fsel n ≠ 0 then d.regionRuns n
  else ((d.setRgn n rsOFF).wbit SCB_RELOADREQ_REGION 0 n false).setSuspect n false

theorem Dev.regionsDone_eq (d : Dev) : d.regionsDone = (List.range 16).foldl Dev.regionDone d := rfl

section

variable (d : Dev) {n : Nat} (hn : n < 16)
include hn

theorem Dev.inFabric_regionDone : d.inFabric (d.regionDone n) (regionRegs n) := by
  unfold Dev.regionDone
  split
  · exact d.inFabric_refl _
  · split
    · exact d.inFabric_regionRuns hn
    · exact ((d.inFabric_setRgn hn _).wbit SCB_RELOADREQ_REGION n false (by decide)
        (by simp [regionRegs, SCB_RELOADREQ_REGION])).trans (Dev.inFabric_setSuspect _ false hn)

/-- What DONE leaves a region in. -/
theorem Dev.regionDone_state (hempty : d.rgnState n ≠ rsEMPTY) : (d.fsel n = 0 → (d.regionDone n).rgnState n = rsOFF) ∧
    (d.fsel n ≠ 0 → tbit (d.rf RGN_ISOLATE_REGION 0) n = false →
      (d.regionDone n).rgnState n = rsRUNNING ∧ (d.regionDone n).brim n = false) ∧
    (d.fsel n ≠ 0 → tbit (d.rf RGN_ISOLATE_REGION 0) n = true → (d.regionDone n).rgnState n = rsISOLATED) := by
  unfold Dev.regionDone
  rw [if_neg hempty]
  refine ⟨fun hoff => ?_, fun hclk hiso => ?_, fun hclk hiso => ?_⟩
  · rw [if_neg (not_not.mpr hoff), Dev.rgnState, Dev.rf_setSuspect _ _ hn _ rfl (by decide),
      (Dev.onlyRegs_wbit _ SCB_RELOADREQ_REGION _ _ (by decide)).rf (by omega) (by simp [SCB_RELOADREQ_REGION, RGN_STAT_STATE])]
    exact d.rgnState_setRgn rsOFF
  · rw [if_pos hclk]
    obtain ⟨hstate, hbrim, -⟩ := d.regionRuns_runs hn hiso
    exact ⟨hstate, hbrim⟩
  · rw [if_pos hclk]
    exact (d.regionRuns_stays hn hiso).1

end

/-- The registers of DONE. -/
def doneRegs : List (RegKind × Nat) := startRegs (List.range 16)

section

variable (d : Dev)

theorem Dev.inFabric_regionsDone : d.inFabric d.regionsDone doneRegs :=
  d.inFabric_foldl _ _ fun e _ hn => (e.inFabric_regionDone (List.mem_range.mp hn)).mono (regionRegs_subset hn)

/-- A region's turn, whatever came before and comes after. -/
theorem Dev.regionsDone_state {n : Nat} (hn : n < 16) (hempty : d.rgnState n ≠ rsEMPTY) :
    (d.fsel n = 0 → d.regionsDone.rgnState n = rsOFF) ∧
    (d.fsel n ≠ 0 → tbit (d.rf RGN_ISOLATE_REGION 0) n = false →
      d.regionsDone.rgnState n = rsRUNNING ∧ d.regionsDone.brim n = false) ∧
    (d.fsel n ≠ 0 → tbit (d.rf RGN_ISOLATE_REGION 0) n = true → d.regionsDone.rgnState n = rsISOLATED) := by
  obtain ⟨before, after, heq, hb, ha, hbsub, hasub⟩ := foldl_turn Dev.regionDone d List.nodup_range (List.mem_range.mpr hn)
  have hwalk (e : Dev) {ns : List Nat} (hsub : ns ⊆ List.range 16) (hout : n ∉ ns) :
      e.inFabric (ns.foldl Dev.regionDone e) (startRegs ns) ∧ (RegKind.RGN_STAT, n) ∉ startRegs ns :=
    ⟨e.inFabric_foldl _ _ fun e m hm => (e.inFabric_regionDone (List.mem_range.mp (hsub hm))).mono (regionRegs_subset hm),
      by simp [startRegs, hout]⟩
  obtain ⟨hbefore, hbout⟩ := hwalk d hbsub hb
  have hturn := (before.foldl Dev.regionDone d).regionDone_state hn
  obtain ⟨hafter, haout⟩ := hwalk ((before.foldl Dev.regionDone d).regionDone n) hasub ha
  rw [← heq, ← Dev.regionsDone_eq] at hafter
  have hstate0 : (before.foldl Dev.regionDone d).rgnState n = d.rgnState n := hbefore.regs.rf (by omega) hbout
  have hfsel0 : (before.foldl Dev.regionDone d).fsel n = d.fsel n := hbefore.regs.rf (by omega) (by simp [startRegs, FAB_RCLK_FSEL])
  have hiso0 : (before.foldl Dev.regionDone d).rf RGN_ISOLATE_REGION 0 = d.rf RGN_ISOLATE_REGION 0 :=
    hbefore.regs.rf (by decide) (by simp [startRegs, RGN_ISOLATE_REGION])
  have hstate : d.regionsDone.rgnState n = ((before.foldl Dev.regionDone d).regionDone n).rgnState n :=
    hafter.regs.rf (by omega) haout
  have hbrim : d.regionsDone.brim n = ((before.foldl Dev.regionDone d).regionDone n).brim n := hafter.regs.on (by omega) haout
  rw [hstate0, hfsel0, hiso0] at hturn
  rw [hstate, hbrim]
  exact hturn hempty

/-! The scrubber starts -/

theorem Dev.onlyRegs_sweepStart : d.onlyRegs d.sweepStart [(.SCB_POS, 0), (.SCB_STAT, 0)] :=
  ((d.onlyRegs_wf SCB_POS_FRAME _ (by decide) (by simp [SCB_POS_FRAME])).trans
    (Dev.onlyRegs_wf _ SCB_STAT_STATE _ (by decide) (by simp [SCB_STAT_STATE]))).trans (Dev.onlyRegs_of_regs (d' := d.sweepStart) rfl)

theorem Dev.sweepStart_pos : d.sweepStart.rf SCB_POS_FRAME 0 = 0 := by
  have hpos : (d.wf SCB_POS_FRAME 0 0).rf SCB_POS_FRAME 0 = 0 := d.rf_wf_self _ _ _ (by decide)
  exact ((d.wf SCB_POS_FRAME 0 0).rf_wf_apart (by decide) (by decide) SCB_STAT_STATE SCB_POS_FRAME _ (by decide)).trans hpos

end

end Sys2Proof.Machine
end

section
/-! SUPPORT. What the start of calibration leaves alone (R157 to R159, R168 to R170, R352): it works on the registers of
calibration, slices and monitor converters. -/

namespace Sys2Proof.Machine

/-- The blocks that calibration and the entry of RUN work on: power state, slices, calibration, monitor converters. -/
def calBlocks : List Nat := [0x01, 0x0D, 0x0F, 0x13]

/-- Registers of other blocks and CFGDONE stay. -/
structure Dev.calibrates (d e : Dev) : Prop where
  regs : ∀ k i, i < 65536 → blockOf k ∉ calBlocks → e.rreg k i = d.rreg k i
  pull : e.cfg.cfgdonePull = d.cfg.cfgdonePull

namespace Dev.calibrates

theorem refl (d : Dev) : d.calibrates d := ⟨fun _ _ _ _ => rfl, rfl⟩

section

variable {d e e' : Dev} (h : d.calibrates e)
include h

theorem trans (h' : e.calibrates e') : d.calibrates e' :=
  ⟨fun k i hi hk => (h'.regs k i hi hk).trans (h.regs k i hi hk), h'.pull.trans h.pull⟩

theorem rf {f : Fld} {i : Nat} (hi : i < 65536) (hf : blockOf f.kind ∉ calBlocks) : e.rf f i = d.rf f i :=
  Dev.rf_of_rreg (h.regs _ i hi hf)

theorem on {f : Fld} {i : Nat} (hi : i < 65536) (hf : blockOf f.kind ∉ calBlocks) : e.on f i = d.on f i :=
  Dev.on_of_rreg (h.regs _ i hi hf)

/-- A change outside the register map and the configuration engine. -/
theorem of_regs (hregs : e'.regs = e.regs) (hcfg : e'.cfg = e.cfg) : d.calibrates e' :=
  h.trans ⟨fun _ _ _ _ => by rw [Dev.rreg, hregs, Dev.rreg], by rw [hcfg]⟩

theorem wf (f : Fld) {i : Nat} (n : Nat) (hi : i < 65536) (hf : blockOf f.kind ∈ calBlocks) : d.calibrates (e.wf f i n) := by
  refine h.trans ⟨fun k j hj hk => e.rreg_wf_ne f n (fun heq => hk ?_) hi hj, rfl⟩
  obtain ⟨hkind, -⟩ := Prod.mk.inj heq
  rw [hkind]
  exact hf

theorem wbit (f : Fld) {i : Nat} (b : Nat) (v : Bool) (hi : i < 65536) (hf : blockOf f.kind ∈ calBlocks) :
    d.calibrates (e.wbit f i b v) := by
  refine h.trans ⟨fun k j hj hk => e.onlyRegs_wbit f b v hi k j hj fun hm => hk ?_, rfl⟩
  obtain ⟨hkind, -⟩ := Prod.mk.inj (List.mem_singleton.mp hm)
  rwa [← hkind] at hf

theorem setCal (f : Cal → Cal) : d.calibrates (e.setCal f) := h.of_regs rfl rfl

theorem setMcv (n : Nat) (x : Mcv) : d.calibrates (e.setMcv n x) := h.of_regs rfl rfl

theorem setMit (n : Nat) (x : Mitten) : d.calibrates (e.setMit n x) := h.of_regs rfl rfl

theorem tells (h' : e.tells e') : d.calibrates e' := h.of_regs h'.regs h'.cfg

theorem post (k : RecKind) (src v : Nat) : d.calibrates (e.post k src v) := h.tells (e.tells_post k src v)

theorem foldl {α : Type} (f : Dev → α → Dev) (xs : List α) (hf : ∀ (e : Dev) x, x ∈ xs → d.calibrates e → d.calibrates (f e x)) :
    d.calibrates (xs.foldl f e) := foldl_keeps (fun e => d.calibrates e) f xs e h hf

/-! Stores (R168 to R172) -/

theorem storeNext : d.calibrates e.storeNext := by
  obtain ⟨n, m, heq⟩ := e.storeNext_eq
  rw [heq]
  exact (h.wf CAL_STORESTAT_NEXT n (by decide) (by decide)).wf CAL_STORESTAT_RETIRED m (by decide) (by decide)

theorem storeBegin (p : Nat) (handles : List Nat) (retry : Bool) : d.calibrates (e.storeBegin p handles retry) := by
  unfold Dev.storeBegin
  dsimp only
  have hflash (c : List (Nat × Nat)) : d.calibrates { e with cfg := { e.cfg with flash := c } } :=
    h.trans ⟨fun _ _ _ _ => rfl, rfl⟩
  have hwritten := ((hflash (erasePair e.cfg.flash e.storeBase p)).setCal (fun c => { c with store := some ⟨e.storeBase, p,
    e.storeSnap ((highestOf e.cfg.flash e.storeBase 2 + 1) % 2 ^ 32) ((erasesOf e.cfg.flash e.storeBase p + 1) % 2 ^ 32),
    handles, retry⟩ })).wbit CAL_STORESTAT_VALID p false (i := 0) (by decide) (by decide)
  split
  · exact (hwritten.post _ _ _).storeNext
  · exact hwritten.storeNext

theorem storeFails (handles : List Nat) : d.calibrates (e.storeFails handles) :=
  ((h.setCal _).wf CAL_STAT_STOREFAIL 1 (by decide) (by decide)).tells (Dev.tells_finishEach _ handles _ _)

theorem storeStart (handles : List Nat) : d.calibrates (e.storeStart handles) := by
  unfold Dev.storeStart
  dsimp only
  split
  · exact (h.setCal _).storeFails handles
  · exact (h.setCal _).storeBegin _ handles false

theorem storePump : d.calibrates e.storePump := by
  unfold Dev.storePump
  split
  · exact h.storeStart _
  · exact h

/-! Items and commands (R154, R157, R158) -/

theorem setResult {kind : Nat} (hk : kind < 65536) (handle status item stat val : Nat) :
    d.calibrates (e.setResult kind handle status item stat val) :=
  ((((h.wf CAL_RSTAT_HANDLE handle hk (by decide)).wf CAL_RSTAT_STATUS status hk (by decide)).wf CAL_RSTAT_ITEM item hk
    (by decide)).wf CAL_RSTAT_STAT stat hk (by decide)).wf CAL_RVAL_VAL val hk (by decide)

theorem closeCmd {c : CalCmd} (hk : c.kind < 65536) : d.calibrates (e.closeCmd c) := by
  unfold Dev.closeCmd
  split
  · exact (h.setResult hk _ _ _ _ _).tells (Dev.tells_finish _ _ _ _)
  · exact (h.setResult hk _ _ _ _ _).tells (Dev.tells_finish _ _ _ _)

theorem cmdEnds {c : CalCmd} (hk : c.kind < 65536) (item status stat val skip : Nat) :
    d.calibrates (e.cmdEnds c item status stat val skip) := by
  unfold Dev.cmdEnds
  dsimp only
  split
  · exact (h.setCal _).closeCmd hk
  · exact h.setCal _

theorem itemDone (kind item : Nat) : d.calibrates (e.itemDone kind item) := (h.setCal _).setCal _

end

end Dev.calibrates

theorem Dev.kind_of_cmdOf {d : Dev} {kind item : Nat} {c : CalCmd} (h : d.cmdOf kind item = some c) : c.kind = kind := by
  have hsome := List.find?_some h
  simp only [Bool.and_eq_true, decide_eq_true_eq] at hsome
  exact hsome.1

namespace Dev.calibrates

section

variable {d e : Dev} (h : d.calibrates e)
include h

theorem itemEnds {kind : Nat} (hk : kind < 65536) (item status stat val : Nat) : d.calibrates (e.itemEnds kind item status stat val) := by
  unfold Dev.itemEnds
  dsimp only
  have hdone : d.calibrates (if status = stOK then ((e.setCal (fun c => { c with
      items := c.items.filter (fun x => decide (¬ (x.kind = kind ∧ x.item = item))) })).itemDone kind item).setCal
        (fun c => { c with changed := true }) else e.setCal (fun c => { c with
      items := c.items.filter (fun x => decide (¬ (x.kind = kind ∧ x.item = item))) })) := by
    split
    · exact ((h.setCal _).itemDone kind item).setCal _
    · exact h.setCal _
  generalize (if status = stOK then ((e.setCal (fun c => { c with
      items := c.items.filter (fun x => decide (¬ (x.kind = kind ∧ x.item = item))) })).itemDone kind item).setCal
        (fun c => { c with changed := true }) else e.setCal (fun c => { c with
      items := c.items.filter (fun x => decide (¬ (x.kind = kind ∧ x.item = item))) })) = e1 at hdone ⊢
  split
  next c hcmd =>
    have hck : c.kind < 65536 := by rw [Dev.kind_of_cmdOf hcmd]; exact hk
    split
    · exact (hdone.setCal _).cmdEnds hck _ _ _ _ _
    · exact hdone.cmdEnds hck _ _ _ _ _
  · split
    · exact hdone.setResult hk _ _ _ _ _
    · exact ((hdone.setResult hk _ _ _ _ _).setCal _).post _ _ _

theorem itemSkipped {kind : Nat} (hk : kind < 65536) (item : Nat) : d.calibrates (e.itemSkipped kind item) := by
  unfold Dev.itemSkipped
  dsimp only
  have hdone : d.calibrates (if kind = 1 then e.itemDone 1 item
      else (e.setDue kind item true).setCal (fun c => { c with skipSeen := setBit c.skipSeen item true })) := by
    split
    · exact h.itemDone 1 item
    · exact (h.setCal _).setCal _
  generalize (if kind = 1 then e.itemDone 1 item
      else (e.setDue kind item true).setCal (fun c => { c with skipSeen := setBit c.skipSeen item true })) = e1 at hdone ⊢
  split
  next c hcmd => exact hdone.cmdEnds (by rw [Dev.kind_of_cmdOf hcmd]; exact hk) _ _ _ _ _
  · exact hdone.setResult hk _ _ _ _ _

/-! Slices and AFE (R117, R145, R157) -/

theorem mitPhase {g : Nat} (hg : g < 65536) (st s : Nat) : d.calibrates (e.mitPhase g st s) :=
  ((((h.setMit g _).wf CNV_MIT_STATE st hg (by decide)).wf CNV_MIT_SLICE s hg (by decide)).wf CNV_MIT_LINES 0 hg (by decide)).wf
    CNV_MITCNT_PASS 0 hg (by decide)

theorem addItemAt (kind item phase : Nat) : d.calibrates (e.addItemAt kind item phase) := by
  unfold Dev.addItemAt
  exact h.setCal _

theorem sliceStart {i : Nat} (hi : i < 65536) : d.calibrates (e.sliceStart i) := by
  unfold Dev.sliceStart
  dsimp only
  split_ifs
  · exact h
  · exact h.itemSkipped (by decide) i
  · exact h.addItemAt _ _ _
  · exact h.itemEnds (by decide) _ _ _ _
  · exact h
  · exact h.addItemAt _ _ _
  · exact (h.mitPhase (by omega) _ _).addItemAt _ _ _

theorem afeStart (n : Nat) : d.calibrates (e.afeStart n) := by
  unfold Dev.afeStart
  dsimp only
  split_ifs
  · exact h
  · exact h.addItemAt _ _ _
  · exact h
  · exact h.addItemAt _ _ _

/-! Monitor converters (R202, R204, R209, R210) -/

section

variable {m : Nat} (hm : m < 65536)
include hm

theorem mcvPower : d.calibrates (e.mcvPower m) := by
  unfold Dev.mcvPower
  dsimp only
  split_ifs
  · exact h.wf MCV_STAT_PWR _ hm (by decide)
  · exact h.wf MCV_STAT_PWR _ hm (by decide)
  · exact h

theorem mcvConvert (ready : Nat) (k : ConvKind) (input slot : Nat) (rst : Bool) :
    d.calibrates (e.mcvConvert m ready k input slot rst) := (h.setMcv m _).wf MCV_STAT_PWR 1 hm (by decide)

theorem mcvPick (ready : Nat) : d.calibrates (e.mcvPick m ready) := by
  unfold Dev.mcvPick
  dsimp only
  split
  · exact h
  split
  · exact h.mcvConvert hm _ _ _ _ _
  split
  · exact h.mcvConvert hm _ _ _ _ _
  split
  · exact h.mcvConvert hm _ _ _ _ _
  · exact h.mcvPower hm

theorem mcvCalBegin : d.calibrates (e.mcvCalBegin m) := by
  unfold Dev.mcvCalBegin
  dsimp only
  exact ((((((h.setMcv m _).wf MCV_STAT_SCANBUSY 0 hm (by decide)).wf MCV_STAT_CALBUSY 1 hm (by decide)).mcvPower hm)).setMcv
    (1 - m) _).mcvPick (by omega) _

theorem mcvNext (ready : Nat) : d.calibrates (e.mcvNext m ready) := by
  unfold Dev.mcvNext
  dsimp only
  split
  · exact h.mcvCalBegin hm
  · exact h.mcvPick hm ready

theorem mcvCalAsk : d.calibrates (e.mcvCalAsk m) := by
  have hasked (b : Bool) (x : Mcv) : d.calibrates (if b = true then e.setMcv m x else (e.setMcv m x).wf MCV_STAT_SCANBUSY m 0) := by
    split
    · exact h.setMcv m x
    · exact (h.setMcv m x).wf MCV_STAT_SCANBUSY 0 hm (by decide)
  exact (hasked _ _).mcvNext hm _

end

/-! The scheduler (R157) -/

theorem unitStart {kind item : Nat} (hi : item < 65536) : d.calibrates (e.unitStart kind item) := by
  unfold Dev.unitStart
  split
  · split
    · exact h.itemSkipped (by decide) item
    · exact h
  split
  · exact h
  split
  · exact (h.addItemAt _ _ _).mcvCalAsk hi
  · split
    · exact (h.of_regs (e' := e.winHold (item / 2)) rfl rfl).addItemAt _ _ _
    · exact h.addItemAt _ _ _

/-- The wanted items of a kind are started in turn. -/
theorem starts (kind : Nat) {n : Nat} {f : Dev → Nat → Dev}
    (hf : ∀ (e : Dev) i, i < n → d.calibrates e → d.calibrates (f e i)) :
    d.calibrates ((List.range n).foldl (fun d i => if d.calWanted kind i then f d i else d) e) :=
  h.foldl _ _ fun e i hi he => by
    split
    · exact hf e i (List.mem_range.mp hi) he
    · exact he

theorem calStarts : d.calibrates e.calStarts := by
  unfold Dev.calStarts
  dsimp only
  split
  · exact h
  split
  · split
    · exact h.addItemAt _ _ _
    · exact h
  · exact ((((h.starts 1 (fun e i hi he => he.sliceStart (by omega))).starts 2 (fun e i _ he => he.afeStart i)).starts 5
      (fun e i hi he => he.unitStart (by omega))).starts 6
      (fun e i hi he => he.unitStart (by omega))).starts 7 (fun e i hi he => he.unitStart (by omega))

theorem calPump : d.calibrates e.calPump := h.storePump.calStarts

theorem calCommand (handle kind : Nat) (items : List Nat) : d.calibrates (e.calCommand handle kind items) := by
  unfold Dev.calCommand
  dsimp only
  split
  · exact ((h.setCal _).foldl _ _ fun e x _ he => he.setCal _).calPump
  · exact (h.setCal _).calPump

theorem startCal : d.calibrates e.startCal := by
  unfold Dev.startCal
  split
  · exact h.foldl _ _ fun e k _ he => by
      dsimp only
      split
      · exact he
      · exact he.calCommand _ _ _
  · exact h

theorem watchdogSettle : d.calibrates e.watchdogSettle := by
  unfold Dev.watchdogSettle
  split
  · exact h
  · exact h.of_regs rfl rfl

theorem enter (st : PState) : d.calibrates (e.enter st) :=
  ((h.of_regs (e' := e.setPwr _) rfl rfl).wf PWR_STATE_CUR _ (by decide) (by decide)).watchdogSettle

theorem afterDone : d.calibrates e.afterDone := by
  have hsettle : d.calibrates e.startCal.startSettle := by
    unfold Dev.startSettle
    split
    · exact h.startCal.enter .run
    · exact h.startCal
  exact hsettle.watchdogSettle

end

end Dev.calibrates

/-- Outside a start nothing is calibrated after a DONE. -/
theorem Dev.regs_afterDone {d : Dev} (h : d.pwr.st ≠ .starting) : d.afterDone.regs = d.regs := by
  have hcal : d.startCal = d := if_neg fun hc => h hc.1
  have hset : d.startSettle = d := if_neg fun hc => h hc.1
  rw [Dev.afterDone, hcal, hset]
  unfold Dev.watchdogSettle
  split <;> rfl

end Sys2Proof.Machine
end

section
/-! SUPPORT. The row of DONE (R313, R314, R316 to R319, R338, R352). -/

namespace Sys2Proof.Machine

section

variable (d : Dev)

theorem Dev.finishOpt_pwr (h : Option Nat) (status detail : Nat) : (d.finishOpt h status detail).pwr = d.pwr :=
  (Dev.tells_finishOpt d h status detail).pwr

theorem Dev.loadOver_pwr : d.loadOver.pwr = d.pwr := by
  unfold Dev.loadOver
  dsimp only
  rw [Dev.wf_pwr]
  rfl

theorem Dev.imageTold_pwr (l : Load) : (d.imageTold l).pwr = d.pwr := by
  unfold Dev.imageTold
  cases l.hdr with
  | none => simp
  | some h =>
    dsimp only
    split <;> simp only [Dev.wf_pwr]

theorem Dev.doneTold_pwr : d.doneTold.pwr = d.pwr := by
  rw [Dev.doneTold, Dev.wf_pwr, Dev.setCfgState, Dev.setCfg_pwr, Dev.wf_pwr, Dev.releaseDone, Dev.setCfg_pwr, Dev.stepDone,
    Dev.setCfg_pwr, Dev.wf_pwr]

theorem Dev.configured_pwr : d.configured.pwr = d.pwr := by
  rw [Dev.configured, Dev.loadOver_pwr, Dev.finishOpt_pwr, Dev.imageTold_pwr, Dev.doneTold_pwr]

/-- The watchdog of the scrubber has no time yet. -/
def Dev.watchOff : Dev := { d with scb := { d.scb with wdNow := none } }

theorem Dev.watchOff_keeps : d.watchOff.regs = d.regs ∧ d.watchOff.cfg = d.cfg ∧ d.watchOff.pwr = d.pwr := ⟨rfl, rfl, rfl⟩

theorem Dev.sweepStart_keeps : d.sweepStart.cfg = d.cfg ∧ d.sweepStart.pwr = d.pwr := by
  unfold Dev.sweepStart
  dsimp only
  exact ⟨by rw [Dev.wf_cfg, Dev.wf_cfg], by rw [Dev.wf_pwr, Dev.wf_pwr]⟩

/-- DONE before calibration starts. -/
def Dev.doneRow : Dev := d.configured.regionsDone.sweepStart.watchOff

/-- The registers of the row. -/
def doneRowRegs : List (RegKind × Nat) :=
  [(.CFG_STARTUP, 0), (.CFG_STATUS, 0), (.SYS_STATUS, 0), (.CFG_IMAGEID, 0), (.CFG_RETRY, 0), (.CFG_FIFOSTAT, 0), (.RGN_PSTAT, 0),
    (.SCB_RELOADREQ, 0), (.SCB_POS, 0), (.SCB_STAT, 0), (.FAB_SNAPSTAT, 0)] ++
    (List.range 16).flatMap (fun n => [(RegKind.RGN_STAT, n), (RegKind.FAB_SOOVF, n)])

theorem doneRegs_subset : doneRegs ⊆ doneRowRegs := by
  intro x hx
  simp only [doneRegs, startRegs, doneRowRegs, List.mem_append, List.mem_cons, List.not_mem_nil, or_false] at hx ⊢
  tauto

/-- After the device is configured only regions and scrubber move. -/
theorem Dev.onlyRegs_afterConfigured : d.configured.onlyRegs d.doneRow (doneRegs ++ [(.SCB_POS, 0), (.SCB_STAT, 0)]) :=
  (d.configured.inFabric_regionsDone.regs.mono (by simp)).trans
    (((Dev.onlyRegs_sweepStart _).trans (Dev.onlyRegs_of_regs (Dev.watchOff_keeps _).1)).mono (by simp))

theorem Dev.onlyRegs_doneRow : d.onlyRegs d.doneRow doneRowRegs :=
  (d.onlyRegs_configured.mono (by simp [configuredRegs, doneRowRegs])).trans
    (d.onlyRegs_afterConfigured.mono (List.append_subset.mpr ⟨doneRegs_subset, by simp [doneRowRegs]⟩))

theorem Dev.doneRow_pwr : d.doneRow.pwr = d.pwr :=
  (((Dev.watchOff_keeps _).2.2.trans (Dev.sweepStart_keeps _).2).trans d.configured.inFabric_regionsDone.pwr).trans d.configured_pwr

/-- What is told of the device stands after the regions and the scrubber have started. -/
theorem Dev.doneRow_status : d.doneRow.cfgState = csDONE ∧ d.doneRow.on SYS_STATUS_CONFIGURED 0 = true ∧
    d.doneRow.cfg.cfgdonePull = false ∧ d.doneRow.rf SCB_POS_FRAME 0 = 0 := by
  obtain ⟨hstate, hconf, hpull⟩ := d.configured_status
  have hafter := d.onlyRegs_afterConfigured
  refine ⟨?_, ?_, ?_, ?_⟩
  · exact (hafter.rf (by decide) (by simp [CFG_STATUS_STATE, doneRegs, startRegs])).trans hstate
  · exact (hafter.on (by decide) (by simp [SYS_STATUS_CONFIGURED, doneRegs, startRegs])).trans hconf
  · rw [← hpull, Dev.doneRow, (Dev.watchOff_keeps _).2.1, (Dev.sweepStart_keeps _).1, d.configured.inFabric_regionsDone.cfg]
  · exact (Dev.rf_of_regs (Dev.watchOff_keeps _).1 _ _).trans d.configured.regionsDone.sweepStart_pos

theorem Dev.doneRow_id {h : ImgHdr} (hhdr : d.cfg.load.hdr = some h) : d.doneRow.rf CFG_IMAGEID_ID 0 = h.id % 2 ^ 32 ∧
    (d.cfg.load.golden = false → d.doneRow.rf CFG_RETRY_COUNT 0 = 0) := by
  obtain ⟨hid, hretry⟩ := d.configured_id hhdr
  have hafter := d.onlyRegs_afterConfigured
  exact ⟨(hafter.rf (by decide) (by simp [CFG_IMAGEID_ID, doneRegs, startRegs])).trans hid,
    fun hgold => (hafter.rf (by decide) (by simp [CFG_RETRY_COUNT, doneRegs, startRegs])).trans (hretry hgold)⟩

/-- Each region that holds a configuration leaves its start-up. -/
theorem Dev.doneRow_region {n : Nat} (hn : n < 16) (hempty : d.rgnState n ≠ rsEMPTY) :
    (d.fsel n = 0 → d.doneRow.rgnState n = rsOFF) ∧
    (d.fsel n ≠ 0 → tbit (d.rf RGN_ISOLATE_REGION 0) n = false → d.doneRow.rgnState n = rsRUNNING ∧ d.doneRow.brim n = false) ∧
    (d.fsel n ≠ 0 → tbit (d.rf RGN_ISOLATE_REGION 0) n = true → d.doneRow.rgnState n = rsISOLATED) := by
  have hbefore := d.onlyRegs_configured
  have hstate0 : d.configured.rgnState n = d.rgnState n := hbefore.rf (by omega) (by simp [RGN_STAT_STATE, configuredRegs])
  have hfsel0 : d.configured.fsel n = d.fsel n := hbefore.rf (by omega) (by simp [FAB_RCLK_FSEL, configuredRegs])
  have hiso0 : d.configured.rf RGN_ISOLATE_REGION 0 = d.rf RGN_ISOLATE_REGION 0 :=
    hbefore.rf (by decide) (by simp [RGN_ISOLATE_REGION, configuredRegs])
  have hscrub := d.configured.regionsDone.onlyRegs_sweepStart.trans (Dev.onlyRegs_of_regs (Dev.watchOff_keeps _).1)
  have hstate : d.doneRow.rgnState n = d.configured.regionsDone.rgnState n := hscrub.rf (by omega) (by simp [RGN_STAT_STATE])
  have hbrim : d.doneRow.brim n = d.configured.regionsDone.brim n := hscrub.on (by omega) (by simp [RGN_STAT_BRIM])
  have hdone := d.configured.regionsDone_state hn (by rw [hstate0]; exact hempty)
  rw [hfsel0, hiso0, ← hstate, ← hbrim] at hdone
  exact hdone

end

/-- The blocks that the row leaves alone. -/
theorem blockOf_doneRowRegs : ∀ x ∈ doneRowRegs, blockOf x.1 ∈ [0x00, 0x03, 0x04, 0x14, 0x15] := by
  intro x hx
  simp only [doneRowRegs, List.mem_append, List.mem_flatMap, List.mem_range, List.mem_cons, List.not_mem_nil, or_false] at hx
  have hregion : blockOf .RGN_STAT = 0x15 ∧ blockOf .FAB_SOOVF = 0x14 := by decide
  rcases hx with hone | ⟨n, -, rfl | rfl⟩
  · rcases hone with rfl | rfl | rfl | rfl | rfl | rfl | rfl | rfl | rfl | rfl | rfl <;> decide
  · simp [hregion.1]
  · simp [hregion.2]

theorem exec_startupDone {s : State} (hlive : s.dev.live 3 = true) (hdue : s.dev.stepDue 5 = true) :
    ∃ t, exec .startupDone s = .next t ∧ s.sameStore t ∧
      s.dev.keepsBlocks t.dev [0x02, 0x05, 0x06, 0x07, 0x08, 0x09, 0x0A, 0x0B, 0x16, 0x17] ∧ t.dev.cfgState = csDONE ∧
      t.dev.on SYS_STATUS_CONFIGURED 0 = true ∧ t.dev.cfg.cfgdonePull = false ∧ t.dev.rf SCB_POS_FRAME 0 = 0 ∧
      (∀ h, s.dev.cfg.load.hdr = some h → t.dev.rf CFG_IMAGEID_ID 0 = h.id % 2 ^ 32 ∧
        (s.dev.cfg.load.golden = false → t.dev.rf CFG_RETRY_COUNT 0 = 0)) ∧
      (∀ n, n < 16 → s.dev.rgnState n ≠ rsEMPTY →
        (s.dev.fsel n = 0 → t.dev.rgnState n = rsOFF) ∧
        (s.dev.fsel n ≠ 0 → tbit (s.dev.rf RGN_ISOLATE_REGION 0) n = false →
          t.dev.rgnState n = rsRUNNING ∧ t.dev.brim n = false) ∧
        (s.dev.fsel n ≠ 0 → tbit (s.dev.rf RGN_ISOLATE_REGION 0) n = true → t.dev.rgnState n = rsISOLATED)) ∧
      (s.dev.pwr.st ≠ .starting → s.onlyRegs t doneRowRegs) := by
  have heq : s.dev.stepDoneRow = s.dev.doneRow := Dev.stepDoneRow_eq hdue
  have hcal : s.dev.doneRow.calibrates s.dev.doneRow.afterDone := (Dev.calibrates.refl _).afterDone
  obtain ⟨hstate, hconf, hpull, hpos⟩ := s.dev.doneRow_status
  refine ⟨_, State.devWithin_live hlive, ⟨rfl, rfl⟩, ?_⟩
  rw [State.onDev_dev, heq]
  refine ⟨fun k i hi hk => ?_, ?_, ?_, hcal.pull.trans hpull, ?_, fun h hhdr => ?_, fun n hn hempty => ?_, fun hst => ?_⟩
  · have hout : blockOf k ∉ calBlocks := by
      simp only [List.mem_cons, List.not_mem_nil, or_false] at hk
      rcases hk with h | h | h | h | h | h | h | h | h | h <;> rw [h] <;> decide
    refine (hcal.regs k i hi hout).trans (s.dev.onlyRegs_doneRow k i hi fun hm => ?_)
    have hin := blockOf_doneRowRegs _ hm
    simp only [List.mem_cons, List.not_mem_nil, or_false] at hin hk
    omega
  · exact (hcal.rf (by decide) (by decide)).trans hstate
  · exact (hcal.on (by decide) (by decide)).trans hconf
  · exact (hcal.rf (by decide) (by decide)).trans hpos
  · obtain ⟨hid, hretry⟩ := s.dev.doneRow_id hhdr
    exact ⟨(hcal.rf (by decide) (by decide)).trans hid, fun hgold => (hcal.rf (by decide) (by decide)).trans (hretry hgold)⟩
  · have hsame : s.dev.doneRow.afterDone.rgnState n = s.dev.doneRow.rgnState n := hcal.rf (by omega) (by decide)
    have hbrim : s.dev.doneRow.afterDone.brim n = s.dev.doneRow.brim n := hcal.on (by omega) (by decide)
    rw [hsame, hbrim]
    exact s.dev.doneRow_region hn hempty
  · refine State.onlyRegs_onDev (s.dev.onlyRegs_doneRow.trans ?_)
    rw [heq]
    exact Dev.onlyRegs_of_regs (Dev.regs_afterDone (by rw [Dev.doneRow_pwr]; exact hst))

end Sys2Proof.Machine
end

section
/-! SUPPORT. The pre-release state and the clearing of configuration memory (R303, R308, R314, R315): what they leave alone and
what they end in. -/

namespace Sys2Proof.Machine

/-- The registers of the listed blocks, the configuration engine and FAULT records on their way stay, and pins and analogue cells
in their pre-release state stay in it. -/
structure Dev.unloads (d e : Dev) (l : List Nat) : Prop where
  regs : d.keepsBlocks e l
  cfg : e.cfg = d.cfg
  faults : d.keepsFaults e
  pins : d.gpio.released = false → e.gpio.released = false
  cells : d.anx.released = false → e.anx.released = false

theorem Dev.onlyRegs.keepsBlocks {d e : Dev} {m : List (RegKind × Nat)} {l : List Nat} (h : d.onlyRegs e m)
    (hm : ∀ x ∈ m, blockOf x.1 ∉ l) : d.keepsBlocks e l := fun k i hi hk => h k i hi fun hx => hm _ hx hk

theorem Dev.unloads_refl (d : Dev) (l : List Nat) : d.unloads d l := ⟨fun _ _ _ _ => rfl, rfl, fun _ hr _ => hr, id, id⟩

theorem Dev.besides.unloads {d e : Dev} {m : List (RegKind × Nat)} {l : List Nat} (h : d.besides e m)
    (hm : ∀ x ∈ m, blockOf x.1 ∉ l) : d.unloads e l :=
  ⟨h.regs.keepsBlocks hm, h.cfg, h.faults, fun hd => by rw [h.gpio]; exact hd, fun hd => by rw [h.released]; exact hd⟩

theorem Dev.inFabric.unloads {d e : Dev} {m : List (RegKind × Nat)} {l : List Nat} (h : d.inFabric e m)
    (hm : ∀ x ∈ m, blockOf x.1 ∉ l) : d.unloads e l :=
  ⟨h.regs.keepsBlocks hm, h.cfg, fun r hr _ => by rw [h.evq]; exact hr, fun hd => by rw [h.gpio]; exact hd,
    fun hd => by rw [h.anx]; exact hd⟩

namespace Dev.unloads

section

variable {d e e' : Dev} {l : List Nat} (h : d.unloads e l)
include h

theorem trans (h' : e.unloads e' l) : d.unloads e' l :=
  ⟨fun k i hi hk => (h'.regs k i hi hk).trans (h.regs k i hi hk), h'.cfg.trans h.cfg,
    fun r hr hk => h'.faults r (h.faults r hr hk) hk, fun hd => h'.pins (h.pins hd), fun hd => h'.cells (h.cells hd)⟩

theorem mono {m : List Nat} (hm : m ⊆ l) : d.unloads e m := { h with regs := fun k i hi hk => h.regs k i hi (hm hk) }

theorem rf {f : Fld} {i : Nat} (hi : i < 65536) (hf : blockOf f.kind ∈ l) : e.rf f i = d.rf f i :=
  Dev.rf_of_rreg (h.regs _ i hi hf)

theorem wf (f : Fld) {i : Nat} (n : Nat) (hi : i < 65536) (hf : blockOf f.kind ∉ l) : d.unloads (e.wf f i n) l :=
  h.trans (((Dev.besides_refl e [(f.kind, i)]).wf f n hi (by simp)).unloads (by simpa using hf))

theorem inc (f : Fld) {i : Nat} (n : Nat) (hi : i < 65536) (hf : blockOf f.kind ∉ l) : d.unloads (e.inc f i n) l :=
  h.trans (((Dev.besides_refl e [(f.kind, i)]).inc f n hi (by simp)).unloads (by simpa using hf))

theorem setLane (n : Nat) (x : Lane) : d.unloads (e.setLane n x) l :=
  h.trans (((Dev.besides_refl e []).setLane n x).unloads (by simp))

theorem setHcp (n : Nat) (x : Hcp) : d.unloads (e.setHcp n x) l :=
  h.trans (((Dev.besides_refl e []).setHcp n x).unloads (by simp))

theorem setCmp (n : Nat) (x : CmpUnit) : d.unloads (e.setCmp n x) l :=
  h.trans (((Dev.besides_refl e []).setCmp n x).unloads (by simp))

theorem setLan (f : Lan → Lan) : d.unloads (e.setLan f) l :=
  h.trans ⟨fun _ _ _ _ => rfl, rfl, fun _ hr _ => hr, id, id⟩

theorem setFab (f : Fab → Fab) : d.unloads (e.setFab f) l :=
  h.trans ⟨fun _ _ _ _ => rfl, rfl, fun _ hr _ => hr, id, id⟩

theorem foldl {α : Type} (f : Dev → α → Dev) (xs : List α) (hf : ∀ (e : Dev) x, x ∈ xs → d.unloads e l → d.unloads (f e x) l) :
    d.unloads (xs.foldl f e) l := foldl_keeps (fun e => d.unloads e l) f xs e h hf

end

end Dev.unloads

/-! The pre-release state (R315) -/

/-- The blocks that a failure leaves alone once it is told: also that of the configuration engine. -/
def failKeeps : List Nat := 0x03 :: loadKeeps

namespace Dev.unloads

section

variable {d e : Dev} (h : d.unloads e failKeeps)
include h

theorem laneTruncate {n : Nat} (hn : n < 65536) : d.unloads (e.laneTruncate n) failKeeps := by
  unfold Dev.laneTruncate
  dsimp only
  split
  · exact h
  · exact (h.setLane n _).inc LAN_TRUNC_TRUNC 1 hn (by decide)

theorem showFill {n : Nat} (hn : n < 65536) : d.unloads (e.showFill n) failKeeps := by
  have hfill (v : Nat) := h.wf LAN_FILL_BYTES v hn (by decide)
  unfold Dev.showFill
  dsimp only
  split
  · exact (hfill _).wf LAN_PEAK_BYTES _ hn (by decide)
  · exact hfill _

theorem laneEmpty {n : Nat} (hn : n < 65536) : d.unloads (e.laneEmpty n false) failKeeps :=
  ((h.foldl _ _ fun _ _ _ he => he).setLane n _).showFill hn

theorem lanesStop : d.unloads e.lanesStop failKeeps := by
  unfold Dev.lanesStop Dev.gapAll
  refine Dev.unloads.setLan (h.foldl _ _ fun e n hn he => ?_) _
  have hn12 : n < 12 := List.mem_range.mp hn
  exact (he.laneTruncate (by omega)).laneEmpty (by omega)

theorem padsPark : d.unloads e.padsPark failKeeps ∧ e.padsPark.gpio.released = false :=
  ⟨h.trans ⟨fun _ _ _ _ => rfl, rfl, fun _ hr _ => hr, fun _ => rfl, id⟩, rfl⟩

theorem headsPark : d.unloads e.headsPark failKeeps :=
  h.foldl _ _ fun _ n hn he =>
    have hn24 : n < 24 := List.mem_range.mp hn
    (he.setHcp n _).wf HCP_TSTAT_LEDON 0 (by omega) (by decide)

end

end Dev.unloads

theorem blockOf_cmpStats : ∀ x ∈ cmpStats, blockOf x.1 ∉ failKeeps := by
  intro x hx
  obtain ⟨n, -, rfl⟩ := List.mem_map.mp hx
  exact (by decide : blockOf .CMP_STAT ∉ failKeeps)

theorem blockOf_laneStats : ∀ x ∈ laneStats, blockOf x.1 ∉ failKeeps := by
  intro x hx
  obtain ⟨n, -, rfl⟩ := List.mem_map.mp hx
  exact (by decide : blockOf .LAN_STAT ∉ failKeeps)

/-- The analogue cells are cut off (R175). -/
def Dev.cellsPark (d : Dev) : Dev := d.setAnx (fun a => { a with released := false })

theorem Dev.unloads_cellsPark (d : Dev) (l : List Nat) : d.unloads d.cellsPark l ∧ d.cellsPark.anx.released = false :=
  ⟨⟨fun _ _ _ _ => rfl, rfl, fun _ hr _ => hr, id, fun _ => rfl⟩, rfl⟩

theorem Dev.preRelease_eq (d : Dev) :
    d.preRelease = (d.lanesStop.padsPark.headsPark.cellsPark.cmpStarts (fun _ => true)).lanesSettle := rfl

theorem Dev.preRelease_parks (d : Dev) : d.unloads d.preRelease failKeeps ∧ d.preRelease.gpio.released = false ∧
    d.preRelease.anx.released = false := by
  obtain ⟨hpins, hparked⟩ := (d.unloads_refl failKeeps).lanesStop.padsPark
  have hheads := (d.lanesStop.padsPark.unloads_refl failKeeps).headsPark
  obtain ⟨hcells, hcut⟩ := d.lanesStop.padsPark.headsPark.unloads_cellsPark failKeeps
  have hlast (e : Dev) : e.unloads (e.cmpStarts (fun _ => true)).lanesSettle failKeeps :=
    (((e.besides_refl cmpStats).cmpStarts (List.Subset.refl _)).unloads blockOf_cmpStats).trans
      (((Dev.besides_refl _ laneStats).lanesSettle (List.Subset.refl _)).unloads blockOf_laneStats)
  rw [Dev.preRelease_eq]
  exact ⟨((hpins.trans hheads).trans hcells).trans (hlast _), (hlast _).pins (hcells.pins (hheads.pins hparked)),
    (hlast _).cells hcut⟩

/-! A region goes OFF behind its brim (R216, R251) -/

/-- The registers that a region that goes OFF changes. -/
def offRegs (n : Nat) : List (RegKind × Nat) := [(.FAB_SNAPSTAT, 0), (.FAB_SOOVF, n), (.FAB_RCLK, n), (.RGN_STAT, n)]

section

variable (d : Dev) (n : Nat)

theorem Dev.inFabric_cuffsHold (l : List (RegKind × Nat)) : d.inFabric (d.cuffsHold n) l := by
  have hwalk := foldl_keeps (fun f : Fab => f.frames = d.fab.frames ∧ f.upset = d.fab.upset ∧ f.snapLeft = d.fab.snapLeft)
    (fun f q => if d.pinOwned n q = true ∧ d.cuffMode q ≠ 0 ∧ d.cuffMode q < 4 then
      { f with cuffs := tset f.cuffs .reset q { d.cuff q with
        ser := [], out := if d.cuffLevel n q then 2 ^ cuffBits (d.cuffMode q) - 1 else 0 } }
    else f) (List.range 64) d.fab ⟨rfl, rfl, rfl⟩ (fun f q _ hf => by dsimp only; split <;> exact hf)
  obtain ⟨hframes, hupset, hleft⟩ := hwalk
  exact d.inFabric_setFab hframes hupset hleft

variable {n} (hn : n < 16)
include hn

theorem Dev.inFabric_clampBrim : d.inFabric (d.clampBrim n) (offRegs n) := by
  unfold Dev.clampBrim
  split
  · exact d.inFabric_refl _
  · have hframes : d.inFabric ((List.range 11).foldl (fun d f =>
        d.setFab (fun b => { b with brimFrames := tset b.brimFrames 0 (ifFrameAddr n f) (d.frame (ifFrameAddr n f)) }))
        (d.cuffsHold n)) (offRegs n) :=
      (d.inFabric_cuffsHold n _).trans (Dev.inFabric_foldl _ _ _ fun e _ _ => e.inFabric_setFab rfl rfl rfl)
    exact hframes.wf RGN_STAT_BRIM 1 (by omega) (by simp [offRegs, RGN_STAT_BRIM])

/-- The device of a region that goes OFF, but for the check bits of its scratchpads. -/
theorem Dev.inFabric_offSet : d.inFabric (((d.regionReset n).wf FAB_RCLK_FSEL n 0).setRgn n rsOFF) (offRegs n) :=
  (((d.inFabric_regionReset hn).mono (by simp [resetRegs, offRegs])).wf FAB_RCLK_FSEL 0 (by omega)
    (by simp [offRegs, FAB_RCLK_FSEL])).wf RGN_STAT_STATE rsOFF (by omega) (by simp [offRegs, RGN_STAT_STATE])

end

/-! Scratchpads -/

theorem memByte_memZero (m : List Host.Cell) {a n x : Nat} (h : x < a ∨ a + n ≤ x) : memByte (memZero m a n) x = memByte m x := by
  rw [memByte, memZero, tget, tfind_filter m (fun k => decide (k < a ∨ a + n ≤ k)), if_pos (decide_eq_true h), memByte, tget]

theorem Dev.inFabric_errsClear (d : Dev) (a n : Nat) : d.inFabric (d.errsClear a n) [] := by
  unfold Dev.errsClear
  exact d.inFabric_setBank _

theorem State.keepsBanks_refl (s : State) : s.keepsBanks s := ⟨rfl, fun _ _ => rfl⟩

theorem State.keepsBanks.trans {s t u : State} (h : s.keepsBanks t) (h' : t.keepsBanks u) : s.keepsBanks u :=
  ⟨h'.1.trans h.1, fun x hx => (h'.2 x hx).trans (h.2 x hx)⟩

theorem State.keepsBanks_dev (s : State) (d : Dev) : s.keepsBanks { s with dev := d } := s.keepsBanks_refl

theorem State.keepsBanks_zeroed (s : State) {t : Nat} (ht : t < 256) : s.keepsBanks (s.zeroed (spAddr t 0) 0x1000) :=
  ⟨rfl, fun x hx => memByte_memZero _ (by unfold spAddr at hx ⊢; omega)⟩

theorem tileOf_lt {n k : Nat} (hn : n < 16) (hk : k < 16) : tileOf n k < 256 := by
  unfold tileOf
  omega

section

variable (s : State) {n : Nat} (hn : n < 16)
include hn

/-- The scratchpads of a region lose their contents: of the device, only check bits move. -/
theorem State.tilesZeroed_keeps :
    s.keepsBanks (((List.range 16).map (fun i => tileOf n i)).foldl (fun s t => s.zeroed (spAddr t 0) 0x1000) s) ∧
    s.dev.inFabric (((List.range 16).map (fun i => tileOf n i)).foldl (fun s t => s.zeroed (spAddr t 0) 0x1000) s).dev [] :=
  foldl_keeps (fun t : State => s.keepsBanks t ∧ s.dev.inFabric t.dev []) (fun s t => s.zeroed (spAddr t 0) 0x1000) _ s
    ⟨s.keepsBanks_refl, s.dev.inFabric_refl []⟩ fun t x hx ht => by
      obtain ⟨k, hk, rfl⟩ := List.mem_map.mp hx
      exact ⟨ht.1.trans (t.keepsBanks_zeroed (tileOf_lt hn (List.mem_range.mp hk))), ht.2.trans (t.dev.inFabric_errsClear _ _)⟩

/-- A region is cleared: its brim clamps, and it goes OFF. -/
def State.regionCleared (s : State) (n : Nat) : State := (s.onDev (fun d => d.clampBrim n)).regionOff n

theorem State.regionCleared_keeps : s.keepsBanks (s.regionCleared n) ∧ s.dev.inFabric (s.regionCleared n).dev (offRegs n) ∧
    (s.regionCleared n).dev.rgnState n = rsOFF := by
  have hclamp := s.dev.inFabric_clampBrim hn
  have hoff := (s.dev.clampBrim n).inFabric_offSet hn
  obtain ⟨hbanks, htiles⟩ := State.tilesZeroed_keeps
    { s with dev := (((s.dev.clampBrim n).regionReset n).wf FAB_RCLK_FSEL n 0).setRgn n rsOFF } hn
  refine ⟨(s.keepsBanks_dev _).trans hbanks, (hclamp.trans hoff).trans (htiles.mono (by simp)), ?_⟩
  exact (htiles.regs.rf (f := RGN_STAT_STATE) (by omega) (by simp)).trans (Dev.rgnState_setRgn _ rsOFF)

end

end Sys2Proof.Machine
end

section
/-! SUPPORT. Configuration memory is cleared, and a full load fails (R303, R308, R314, R317 to R319). -/

namespace Sys2Proof.Machine

/-! The regions, in turn -/

section

variable (s : State)

/-- The registers of the clearing of some regions. -/
def clearRegs (ns : List Nat) : List (RegKind × Nat) := ns.flatMap offRegs

theorem State.regionsCleared_keeps {ns : List Nat} (hns : ns ⊆ List.range 16) : s.keepsBanks (ns.foldl State.regionCleared s) ∧
    s.dev.inFabric (ns.foldl State.regionCleared s).dev (clearRegs ns) :=
  foldl_keeps (fun t : State => s.keepsBanks t ∧ s.dev.inFabric t.dev (clearRegs ns)) State.regionCleared ns s
    ⟨s.keepsBanks_refl, s.dev.inFabric_refl _⟩ fun t n hn ht => by
      obtain ⟨hbanks, hfab, -⟩ := t.regionCleared_keeps (List.mem_range.mp (hns hn))
      exact ⟨ht.1.trans hbanks, ht.2.trans (hfab.mono (fun x hx => List.mem_flatMap.mpr ⟨n, hn, hx⟩))⟩

theorem State.regionsCleared_off {n : Nat} (hn : n < 16) :
    ((List.range 16).foldl State.regionCleared s).dev.rgnState n = rsOFF := by
  obtain ⟨before, after, heq, -, ha, -, hasub⟩ := foldl_turn State.regionCleared s List.nodup_range (List.mem_range.mpr hn)
  obtain ⟨-, -, hoff⟩ := (before.foldl State.regionCleared s).regionCleared_keeps hn
  obtain ⟨-, hafter⟩ := ((before.foldl State.regionCleared s).regionCleared n).regionsCleared_keeps hasub
  rw [heq]
  exact (hafter.regs.rf (f := RGN_STAT_STATE) (by omega) (by simpa [clearRegs, offRegs, RGN_STAT_STATE] using ha)).trans hoff

end

theorem blockOf_clearRegs {ns : List Nat} : ∀ x ∈ clearRegs ns, blockOf x.1 ∉ failKeeps := by
  have hkinds : ∀ k ∈ [RegKind.FAB_SNAPSTAT, .FAB_SOOVF, .FAB_RCLK, .RGN_STAT], blockOf k ∉ failKeeps := by decide
  intro x hx
  obtain ⟨n, -, hx⟩ := List.mem_flatMap.mp hx
  refine hkinds x.1 ?_
  simp only [offRegs, List.mem_cons, List.not_mem_nil, or_false] at hx ⊢
  rcases hx with rfl | rfl | rfl | rfl <;> simp

/-! The rest of the configuration -/

/-- The blocks that the clearing leaves alone beside the regions' own steps: also the states of regions. -/
def clearKeeps : List Nat := 0x15 :: failKeeps

theorem rregOf_tset_ne (t : Tab Word) {k k' : RegKind} {i j : Nat} (v : Word) (hk : k' ≠ k) (hi : i < 65536) (hj : j < 65536) :
    rregOf (tset t (regReset k i) (regKey k i) v) k' j = rregOf t k' j :=
  tget_tset_ne _ _ _ _ fun heq => hk (regKey_inj hj hi heq).1

/-- Only registers that device frames hold return to reset. -/
theorem rregOf_heldReset (t : Tab Word) {k : RegKind} (hk : k ∉ heldKinds) {j : Nat} (hj : j < 65536) :
    rregOf (heldReset t) k j = rregOf t k j :=
  foldl_keeps (fun u => rregOf u k j = rregOf t k j) _ heldKinds t rfl fun u k' hk' hu =>
    foldl_keeps (fun u => rregOf u k j = rregOf t k j) _ (List.range (regCount k')) u hu fun u i hi hu =>
      foldl_keeps (fun u => rregOf u k j = rregOf t k j) _ (heldFields k') u hu fun u f _ hu =>
        (rregOf_tset_ne u _ (fun heq => hk (by rw [heq]; exact hk'))
          (lt_of_lt_of_le (List.mem_range.mp hi) (regCount_le k')) hj).trans hu

theorem blockOf_heldKinds : ∀ k ∈ heldKinds, blockOf k ∉ clearKeeps := by decide

/-- The device with another register map. -/
def Dev.setRegs (d : Dev) (t : Tab Word) : Dev := { d with regs := t }

theorem Dev.unloads_setRegs (d : Dev) {t : Tab Word} {l : List Nat}
    (h : ∀ k i, i < 65536 → blockOf k ∈ l → rregOf t k i = rregOf d.regs k i) : d.unloads (d.setRegs t) l :=
  ⟨h, rfl, fun _ hr _ => hr, id, id⟩

/-- The registers as cleared device frames give them. -/
def Dev.heldCleared (d : Dev) : Dev := d.setRegs (heldReset d.regs)

theorem Dev.unloads_heldCleared (d : Dev) : d.unloads d.heldCleared clearKeeps :=
  d.unloads_setRegs fun _ _ hi hk => rregOf_heldReset d.regs (fun hm => blockOf_heldKinds _ hm hk) hi

theorem Dev.unloads.rstReg {d e : Dev} {l : List Nat} (h : d.unloads e l) (k : RegKind) {i : Nat} (hi : i < 65536)
    (hk : blockOf k ∉ l) : d.unloads (e.rstReg k i) l :=
  h.trans ⟨fun _ _ hj hk' => e.rreg_wreg_kind _ (fun heq => hk (by rw [← heq]; exact hk')) hi hj, rfl, fun _ hr _ => hr, id, id⟩

theorem Dev.unloads.anxTake {d e : Dev} {l : List Nat} (h : d.unloads e l) : d.unloads e.anxTake l :=
  h.foldl _ _ fun _ n _ he => he.setCmp n _

theorem Dev.unloads.snapSettle {d e : Dev} (h : d.unloads e clearKeeps) : d.unloads e.snapSettle clearKeeps := by
  unfold Dev.snapSettle
  split
  · dsimp only
    split
    · exact ((h.setFab _).wf FAB_SNAPSTAT_ARMED 0 (by decide) (by decide)).wf FAB_SNAPSTAT_DONE 1 (by decide) (by decide)
    · exact h.setFab _
  · exact h

/-- No frame is held, and no mark of one. -/
def Dev.framesCleared (d : Dev) : Dev :=
  d.setFab (fun f => { f with frames := [], upset := [], cwUpset := [], knownBad := [], starts := [] })

/-- The stream outputs take no source. -/
def Dev.mapsReset (d : Dev) : Dev := (List.range 16).foldl (fun d n => d.rstReg .FAB_SOMAP n) d

/-- What is cleared beside the regions. -/
def Dev.memoryCleared (d : Dev) : Dev :=
  ((d.framesCleared.heldCleared.mapsReset.anxTake.wf SCB_STAT_DEVDBE 0 0).wf SCB_STAT_SELFERR 0 0).snapSettle

theorem State.clearConfig_eq (s : State) :
    s.clearConfig = ((List.range 16).foldl State.regionCleared s).onDev Dev.memoryCleared := rfl

section

variable (d : Dev)

theorem Dev.rstReg_fab (k : RegKind) (i : Nat) : (d.rstReg k i).fab = d.fab := rfl

theorem Dev.mapsReset_fab : d.mapsReset.fab = d.fab :=
  foldl_keeps (fun e : Dev => e.fab = d.fab) (fun (d : Dev) n => d.rstReg .FAB_SOMAP n) _ d rfl fun e n _ he =>
    (e.rstReg_fab .FAB_SOMAP n).trans he

theorem Dev.setCmp_fab (d : Dev) (n : Nat) (x : CmpUnit) : (d.setCmp n x).fab = d.fab := rfl

theorem Dev.anxTake_fab : d.anxTake.fab = d.fab :=
  foldl_keeps (fun e : Dev => e.fab = d.fab)
    (fun (d : Dev) n => d.setCmp n { d.getCmp n with th := d.rf CMP_THR_TH n, hys := d.rf CMP_THR_HYS n, thNew := [] }) _ d rfl
    fun e n _ he => (e.setCmp_fab n _).trans he

theorem Dev.setLeft_frames (v : Nat) : (d.setFab (fun f => { f with snapLeft := v })).fab.frames = d.fab.frames := rfl

theorem Dev.snapSettle_frames : d.snapSettle.fab.frames = d.fab.frames := by
  unfold Dev.snapSettle
  split
  · dsimp only
    split
    · rw [Dev.wf_fab, Dev.wf_fab, Dev.setLeft_frames]
    · exact d.setLeft_frames _
  · rfl

theorem Dev.unloads_memoryCleared : d.unloads d.memoryCleared clearKeeps := by
  have hheld := ((d.unloads_refl clearKeeps).setFab
    (fun f => { f with frames := [], upset := [], cwUpset := [], knownBad := [], starts := [] })).trans
    (Dev.unloads_heldCleared d.framesCleared)
  have hmaps : d.unloads d.framesCleared.heldCleared.mapsReset clearKeeps := hheld.foldl _ _ fun e n hn he =>
    have hn16 : n < 16 := List.mem_range.mp hn
    he.rstReg .FAB_SOMAP (by omega) (by decide)
  exact ((hmaps.anxTake.wf SCB_STAT_DEVDBE 0 (by decide) (by decide)).wf SCB_STAT_SELFERR 0 (by decide) (by decide)).snapSettle

theorem Dev.memoryCleared_frames : d.memoryCleared.fab.frames = [] := by
  rw [Dev.memoryCleared, Dev.snapSettle_frames, Dev.wf_fab, Dev.wf_fab, Dev.anxTake_fab, Dev.mapsReset_fab]
  rfl

end

theorem State.clearConfig_clears (s : State) : s.keepsBanks s.clearConfig ∧ s.dev.unloads s.clearConfig.dev failKeeps ∧
    s.clearConfig.dev.fab.frames = [] ∧ ∀ n, n < 16 → s.clearConfig.dev.rgnState n = rsOFF := by
  obtain ⟨hbanks, hfab⟩ := s.regionsCleared_keeps (List.Subset.refl (List.range 16))
  rw [State.clearConfig_eq]
  generalize hcleared : (List.range 16).foldl State.regionCleared s = t at hbanks hfab
  have hrest := t.dev.unloads_memoryCleared
  refine ⟨hbanks.trans (t.keepsBanks_dev _), (hfab.unloads blockOf_clearRegs).trans (hrest.mono (by simp [clearKeeps])),
    t.dev.memoryCleared_frames, fun n hn => ?_⟩
  have hoff := s.regionsCleared_off hn
  rw [hcleared] at hoff
  exact (hrest.rf (by omega) (by decide)).trans hoff

/-! A failure is told (R314, R316 to R319) -/

/-- Where and why the load failed, and the record of it. -/
def Dev.failTold (d : Dev) (reason : Nat) (frame : Option Nat) : Dev :=
  ((d.failAt frame).wf CFG_STATUS_REASON 0 reason).post .fault 0x140 reason

/-- The retries count a failure of an image of the host's. -/
def Dev.failCounted (d : Dev) (l : Load) : Dev :=
  if l.golden || (decide (d.cfgState = csSTARTUP) && l.hdr.isNone) then d
  else d.wf CFG_RETRY_COUNT 0 (min 3 (d.rf CFG_RETRY_COUNT 0 + 1))

/-- The load is over. -/
def Dev.failEnded (d : Dev) (l : Load) (reason : Nat) : Dev := (d.finishOpt l.handle (reasonStatus reason) reason).loadOver

/-- The engine is FAILED, and both nets are held low. -/
def Dev.failHeld (d : Dev) (after : Nat) : Dev := (d.setCfgState csFAILED).setCfg (fun c => { c with
  cfgerrnPull := true, cfgdonePull := true, after := after, recorded := [] })

/-- A failure, up to the pre-release state. -/
def Dev.failed (d : Dev) (reason : Nat) (frame : Option Nat) (after : Nat) : Dev :=
  (((d.failTold reason frame).failCounted d.cfg.load).failEnded d.cfg.load reason).failHeld after

theorem State.fullFails_eq (s : State) (reason : Nat) (frame : Option Nat) : ∃ after, s.fullFails reason frame =
    State.clearConfig { s with dev := (s.dev.failed reason frame after).preRelease.wf SYS_STATUS_PAIRED 0 0 } := ⟨_, rfl⟩

/-- The registers that tell a failure. -/
def failRegs : List (RegKind × Nat) :=
  [(.CFG_FAILPOS, 0), (.CFG_FAILINFO, 0), (.CFG_STATUS, 0), (.CFG_RETRY, 0), (.CFG_FIFOSTAT, 0)]

section

variable (d : Dev) (reason : Nat) (frame : Option Nat) (l : Load) (after : Nat)

theorem Dev.besides_failAt : d.besides (d.failAt frame) failRegs := by
  have hpos := (d.besides_refl failRegs).wf CFG_FAILPOS_POS (i := 0) d.cfg.load.pos (by decide) (by simp [CFG_FAILPOS_POS, failRegs])
  unfold Dev.failAt
  cases frame with
  | none => exact hpos.wf CFG_FAILINFO_VALID 0 (by decide) (by simp [CFG_FAILINFO_VALID, failRegs])
  | some a =>
    exact ((hpos.wf CFG_FAILINFO_FRAME a (by decide) (by simp [CFG_FAILINFO_FRAME, failRegs])).wf CFG_FAILINFO_REGION _ (by decide)
      (by simp [CFG_FAILINFO_REGION, failRegs])).wf CFG_FAILINFO_VALID 1 (by decide) (by simp [CFG_FAILINFO_VALID, failRegs])

theorem Dev.failAt_t : (d.failAt frame).t = d.t := by
  unfold Dev.failAt
  cases frame <;> simp

theorem Dev.keepsFaults.trans {d e e' : Dev} (h : d.keepsFaults e) (h' : e.keepsFaults e') : d.keepsFaults e' :=
  fun r hr hk => h' r (h r hr hk) hk

theorem Dev.keepsFaults_of_evq {d e : Dev} (h : e.evq = d.evq) : d.keepsFaults e := fun r hr _ => by rw [h]; exact hr

/-- A record that is posted joins those on their way. -/
theorem Dev.keepsFaults_post (k : RecKind) (src value : Nat) : d.keepsFaults (d.post k src value) := by
  intro r hr _
  unfold Dev.post Dev.postRec
  split
  · exact List.mem_append_left _ hr
  · exact hr

theorem Dev.keepsFaults_finishOpt (h : Option Nat) (status detail : Nat) : d.keepsFaults (d.finishOpt h status detail) := by
  unfold Dev.finishOpt
  split
  · exact Dev.keepsFaults_of_evq rfl
  · unfold Dev.finish
    split
    · exact Dev.keepsFaults_of_evq rfl
    · exact (d.keepsFaults_post _ _ _).trans (Dev.keepsFaults_of_evq rfl)

theorem Dev.loadOver_evq : d.loadOver.evq = d.evq := by
  unfold Dev.loadOver
  dsimp only
  rw [Dev.wf_evq, Dev.setCfg_evq]

theorem Dev.failHeld_evq : (d.failHeld after).evq = d.evq := by
  rw [Dev.failHeld, Dev.setCfg_evq, Dev.setCfgState, Dev.setCfg_evq, Dev.wf_evq]

/-! What is told -/

theorem Dev.onlyRegs_failTold : d.onlyRegs (d.failTold reason frame) failRegs :=
  ((d.besides_failAt frame).wf CFG_STATUS_REASON reason (by decide) (by simp [CFG_STATUS_REASON, failRegs])).regs.trans
    (Dev.onlyRegs_of_regs (Dev.tells_post _ _ _ _).regs)

theorem Dev.failTold_reason : (d.failTold reason frame).rf CFG_STATUS_REASON 0 = reason % 256 := by
  rw [Dev.failTold, Dev.post_rf]
  exact Dev.rf_wf_self _ _ _ _ (by decide)

theorem Dev.failTold_record (h : d.pwr.booted = true) :
    (⟨.fault, 0x140, false, false, reason, d.t⟩ : EvRec) ∈ (d.failTold reason frame).evq.inFlight := by
  have hbooted : ((d.failAt frame).wf CFG_STATUS_REASON 0 reason).pwr.booted = true := by
    rw [Dev.wf_pwr, (d.besides_failAt frame).pwr]
    exact h
  rw [Dev.failTold, Dev.post, Dev.postRec_evq _ _ hbooted, Dev.wf_t, Dev.failAt_t]
  exact List.mem_append_right _ (List.mem_singleton.mpr rfl)

theorem Dev.besides_failCounted : d.besides (d.failCounted l) [(.CFG_RETRY, 0)] := by
  unfold Dev.failCounted
  split
  · exact d.besides_refl _
  · exact (d.besides_refl _).wf CFG_RETRY_COUNT _ (by decide) (by simp [CFG_RETRY_COUNT])

theorem Dev.onlyRegs_failEnded : d.onlyRegs (d.failEnded l reason) [(.CFG_FIFOSTAT, 0)] :=
  (Dev.onlyRegs_of_regs (Dev.tells_finishOpt _ _ _ _).regs).trans (Dev.onlyRegs_loadOver _)

theorem Dev.onlyRegs_failHeld : d.onlyRegs (d.failHeld after) [(.CFG_STATUS, 0)] :=
  ((d.onlyRegs_wf CFG_STATUS_STATE _ (by decide) (by simp [CFG_STATUS_STATE])).trans
    (Dev.onlyRegs_of_regs (Dev.setCfg_regs _ _))).trans (Dev.onlyRegs_of_regs (Dev.setCfg_regs _ _))

/-- Up to the pre-release state only the engine's registers move; the record is on its way. -/
theorem Dev.failed_tells : d.onlyRegs (d.failed reason frame after) failRegs ∧
    (d.failTold reason frame).keepsFaults (d.failed reason frame after) := by
  have hcount := (d.failTold reason frame).besides_failCounted d.cfg.load
  refine ⟨?_, ?_⟩
  · exact (((d.onlyRegs_failTold reason frame).trans (hcount.regs.mono (by simp [failRegs]))).trans
      ((Dev.onlyRegs_failEnded _ _ _).mono (by simp [failRegs]))).trans ((Dev.onlyRegs_failHeld _ _).mono (by simp [failRegs]))
  · exact ((hcount.faults.trans (Dev.keepsFaults_finishOpt _ _ _ _)).trans (Dev.keepsFaults_of_evq (Dev.loadOver_evq _))).trans
      (Dev.keepsFaults_of_evq (Dev.failHeld_evq _ _))

theorem Dev.failed_status : (d.failed reason frame after).cfgState = csFAILED ∧
    (d.failed reason frame after).rf CFG_STATUS_REASON 0 = reason % 256 := by
  refine ⟨?_, ?_⟩
  · rw [Dev.cfgState, Dev.failed, Dev.failHeld, Dev.setCfg_rf, Dev.setCfgState, Dev.setCfg_rf]
    exact Dev.rf_wf_self _ _ _ _ (by decide)
  · rw [Dev.failed, Dev.failHeld, Dev.setCfg_rf, Dev.setCfgState, Dev.setCfg_rf,
      Dev.rf_wf_apart _ (by decide) (by decide) _ _ _ (by decide),
      (Dev.onlyRegs_failEnded _ _ _).rf (by decide) (by simp [CFG_STATUS_REASON]),
      ((d.failTold reason frame).besides_failCounted _).regs.rf (by decide) (by simp [CFG_STATUS_REASON])]
    exact d.failTold_reason reason frame

theorem Dev.failed_engine : (d.failed reason frame after).cfg.cfgerrnPull = true ∧
    (d.failed reason frame after).cfg.cfgdonePull = true ∧ (d.failed reason frame after).cfg.load.isOpen = false := by
  rw [Dev.failed, Dev.failHeld, Dev.setCfg_cfg, Dev.setCfgState, Dev.setCfg_cfg, Dev.wf_cfg, Dev.failEnded, Dev.loadOver, Dev.wf_cfg,
    Dev.setCfg_cfg]
  exact ⟨rfl, rfl, rfl⟩

end

theorem blockOf_failRegs : ∀ x ∈ failRegs, blockOf x.1 ∉ loadKeeps := by
  intro x hx
  simp only [failRegs, List.mem_cons, List.not_mem_nil, or_false] at hx
  rcases hx with rfl | rfl | rfl | rfl | rfl <;> decide

theorem State.loadFailed_fullFails (s : State) (reason : Nat) (frame : Option Nat) :
    s.loadFailed (s.fullFails reason frame) reason := by
  obtain ⟨after, heq⟩ := s.fullFails_eq reason frame
  obtain ⟨htold, hfault⟩ := s.dev.failed_tells reason frame after
  obtain ⟨hstate, hreason⟩ := s.dev.failed_status reason frame after
  obtain ⟨herr, hdone, hopen⟩ := s.dev.failed_engine reason frame after
  have hrecord := s.dev.failTold_record reason frame
  generalize s.dev.failed reason frame after = e at *
  obtain ⟨hpark, hpins, hcells⟩ := e.preRelease_parks
  have hpaired := (e.preRelease.unloads_refl failKeeps).wf SYS_STATUS_PAIRED (i := 0) 0 (by decide) (by decide)
  obtain ⟨hbanks, hclear, hframes, hoff⟩ :=
    State.clearConfig_clears { s with dev := e.preRelease.wf SYS_STATUS_PAIRED 0 0 }
  rw [← heq] at hbanks hclear hframes hoff
  generalize s.fullFails reason frame = t at *
  have hafter : e.unloads t.dev failKeeps := (hpark.trans hpaired).trans hclear
  have hkept := htold.keepsBlocks blockOf_failRegs
  refine ⟨(s.keepsBanks_dev _).trans hbanks, fun k i hi hk => ?_, fun hbooted => ?_, ?_, ?_, ?_, ?_, ?_, ?_, ?_, hframes, hoff⟩
  · exact (hafter.regs k i hi (List.mem_cons_of_mem _ hk)).trans (hkept k i hi hk)
  · exact hafter.faults _ (hfault _ (hrecord hbooted) rfl) rfl
  · exact hclear.pins (hpaired.pins hpins)
  · exact hclear.cells (hpaired.cells hcells)
  · exact (hafter.rf (by decide) (by decide)).trans hstate
  · exact (hafter.rf (by decide) (by decide)).trans hreason
  · rw [hafter.cfg]; exact herr
  · rw [hafter.cfg]; exact hdone
  · rw [hafter.cfg]; exact hopen

/-! The rows -/

section

variable {s : State} (hlive : s.dev.live 3 = true)
include hlive

theorem exec_cfgSyncTimeout (hsync : s.dev.cfgState = csSYNC)
    (htime : s.dev.cfg.stateNow + 1000000 * s.dev.rf CFG_TIMEOUT_MS 0 ≤ s.dev.now) :
    ∃ t, exec .cfgSyncTimeout s = .next t ∧ s.loadFailed t 20 := by
  have heq : s.syncTimeout = s.fullFails rnCHAIN_WAIT none := if_pos ⟨hsync, htime⟩
  exact ⟨_, (State.within_live hlive).trans (congrArg _ heq), s.loadFailed_fullFails rnCHAIN_WAIT none⟩

theorem exec_pllLockTimeout (hdue : s.dev.stepDue 0 = true) (hlocked : s.dev.pllsLocked = false)
    (htime : s.dev.cfg.starting + 1000000 < s.dev.now) : ∃ t, exec .pllLockTimeout s = .next t ∧ s.loadFailed t 15 := by
  have heq : s.pllTimeout = s.fullFails rnPLL_LOCK none := if_pos ⟨hdue, hlocked, htime⟩
  exact ⟨_, (State.within_live hlive).trans (congrArg _ heq), s.loadFailed_fullFails rnPLL_LOCK none⟩

end

end Sys2Proof.Machine
end

section
/-! SUPPORT. Start-up (R243, R254, R258, R260, R313, R314, R326). -/

namespace Sys2Proof.Machine

/-- A region that is up, told of its tiles. -/
theorem Dev.regionUp.tiles {d e : Dev} {m : Nat} (h : d.regionUp e m) :
    (tbit (d.rf RGN_ISOLATE_REGION 0) m = false → e.rgnState m = rsRUNNING ∧ e.brim m = false ∧ tbit e.fab.wen m = true ∧
      ∀ k i, k < 16 → i < 16 → e.cell (tileOf m k) i =
        (d.tf (tileOf m k) 3 (25 * i) 24, decide (d.tf (tileOf m k) 3 (25 * i + 24) 1 = 1))) ∧
    (tbit (d.rf RGN_ISOLATE_REGION 0) m = true → e.rgnState m = rsISOLATED ∧
      ∀ k i, k < 16 → i < 16 → e.cell (tileOf m k) i = (0, false)) := by
  refine ⟨fun hiso => ?_, fun hiso => ?_⟩
  · obtain ⟨hstate, hbrim, hwen, hcells⟩ := h.runs hiso
    exact ⟨hstate, hbrim, hwen, fun k i hk hi => hcells _ i hi (List.mem_map.mpr ⟨k, List.mem_range.mpr hk, rfl⟩)⟩
  · obtain ⟨hstate, hcells⟩ := h.stays hiso
    exact ⟨hstate, fun k i hk hi => hcells _ i hi (tileRegion_tileOf hk)⟩

/-- Settles O48: the regions by the walk over the halves, the steps one by one, DONE by what calibration leaves alone, and the
two timeouts by what the failure of a full load ends in. -/
theorem startupSteps : Obligations.StartupSteps := by
  unfold Obligations.StartupSteps
  refine ⟨fun s hlive => ⟨?_, fun n hn hst htime => ?_⟩, fun s hlive => ⟨?_, ?_, ?_, ?_, ?_, ?_, ?_, ?_, ?_⟩⟩
  · exact exec_regionPowerUpDone hlive
  · obtain ⟨t, hexec, hregs, hfull, hpart, hup⟩ := exec_regionStartupDone hlive hn hst htime
    exact ⟨t, hexec, hregs, hfull, hpart, fun m hm => (hup m hm).tiles⟩
  · exact exec_cfgdoneRise hlive
  · exact exec_cfgSyncTimeout hlive
  · exact exec_pllLockTimeout hlive
  · exact exec_startupLock hlive
  · exact exec_startupOutrel hlive
  · exact exec_startupGsrrel hlive
  · exact exec_startupWen hlive
  · exact exec_startupAnarel hlive
  · exact exec_startupDone hlive

end Sys2Proof.Machine
end

section
/-! SUPPORT. The registers of paired mode in standard mode: they read 0, and every write of them is refused (R271). -/

namespace Sys2Proof.Machine

/-! The refusal that decides -/

theorem worst_eq_none {l : List Refused} (h : worst l = none) : l = [] := by
  cases l with
  | nil => rfl
  | cons r l =>
    rw [worst] at h
    split at h
    · exact absurd h (by simp)
    · split at h <;> exact absurd h (by simp)

theorem worst_mem {l : List Refused} {r : Refused} (h : worst l = some r) : r ∈ l := by
  induction l generalizing r with
  | nil => exact absurd h (by simp [worst])
  | cons x l ih =>
    rw [worst] at h
    split at h
    · exact List.mem_cons.mpr (.inl (Option.some.inj h).symm)
    · next y hy =>
      split at h
      · exact List.mem_cons_of_mem _ (ih (hy.trans h))
      · exact List.mem_cons.mpr (.inl (Option.some.inj h).symm)

/-- A value outside the range of a field is refused for the value (R459). -/
theorem cause_of_mem_rangeChecks {k : RegKind} {v : Nat} {r : Refused} (h : r ∈ rangeChecks k v) : r.cause = .value := by
  obtain ⟨f, -, rfl⟩ := List.mem_map.mp h
  rfl

/-! What standard mode makes of them -/

/-- The registers of paired mode. -/
def pairedKinds : List RegKind := [.RGN_GAUNTLET, .RGN_PSTAT, .RGN_MMCNT, .RGN_SIG]

/-- What holds of each register of paired mode holds of all. -/
theorem pairedKinds_forall {P : RegKind → Prop} (hgauntlet : P .RGN_GAUNTLET) (hpstat : P .RGN_PSTAT) (hmmcnt : P .RGN_MMCNT)
    (hsig : P .RGN_SIG) : ∀ k ∈ pairedKinds, P k := by
  intro k hk
  simp only [pairedKinds, List.mem_cons, List.not_mem_nil, or_false] at hk
  obtain rfl | rfl | rfl | rfl := hk <;> assumption

section

variable {d : Dev} {k : RegKind} (hk : k ∈ pairedKinds)
include hk

theorem Dev.readEffect_pairedKinds (pth : Path) (i : Nat) : d.readEffect pth k i = d :=
  pairedKinds_forall (P := fun k => d.readEffect pth k i = d) rfl rfl rfl rfl k hk

theorem Dev.conflictOf_pairedKinds (i v : Nat) : d.conflictOf k i v = none :=
  pairedKinds_forall (P := fun k => d.conflictOf k i v = none) rfl rfl rfl rfl k hk

theorem pairedKinds_ne : k ≠ .RGN_ISOLATE ∧ k ≠ .FAB_SNAPDATA :=
  pairedKinds_forall (P := fun k => k ≠ .RGN_ISOLATE ∧ k ≠ .FAB_SNAPDATA) (by decide) (by decide) (by decide) (by decide) k hk

/-- None of their fields is locked while the device is configured. -/
theorem Dev.lockChecks_pairedKinds (i v : Nat) : d.lockChecks k i v = [] := by
  have hnone : ∀ k ∈ pairedKinds, ∀ f ∈ k.fields, f.acc ≠ .RWL := by decide
  unfold Dev.lockChecks
  split
  · rw [List.map_eq_nil_iff, List.filter_eq_nil_iff]
    intro f hf
    simp [hnone k hk f hf]
  · rfl

/-- No device frame holds them. -/
theorem Dev.loadChecks_pairedKinds : d.loadChecks k = [] := by
  have hnone : ∀ k ∈ pairedKinds, heldKinds.contains k = false := by decide
  exact if_neg fun h => absurd h.2 (by rw [hnone k hk]; decide)

variable (hstd : d.paired = false)
include hstd

theorem Dev.peek_standard (pth : Path) (i : Nat) : d.peek pth k i = 0 :=
  have hoff (v : Nat) : (if d.paired then v else 0) = 0 := if_neg (by simp [hstd])
  pairedKinds_forall (P := fun k => d.peek pth k i = 0) (hoff _) (hoff _) (hoff _) (hoff _) k hk

/-- `RGN.SIG` has nothing to write, and is refused all the same. -/
theorem Dev.inert_standard : d.inert k = false := by
  have hwrites : ∀ k ∈ pairedKinds, k.writable = true ∨ k = .RGN_SIG := by decide
  obtain h | rfl := hwrites k hk
  · exact d.inert_of_writable k h
  · simp [Dev.inert, hstd]

theorem chapterChecks_standard (pth : Path) (i v : Nat) (t : Tab Word) : chapterChecks ⟨d, pth, i, v, t⟩ k = [stateAt 0] :=
  have hoff (l : List Refused) : (if d.paired then l else [stateAt 0]) = [stateAt 0] := if_neg (by simp [hstd])
  pairedKinds_forall (P := fun k => chapterChecks ⟨d, pth, i, v, t⟩ k = [stateAt 0]) (hoff _) (hoff _) (hoff _) (hoff _) k hk

/-- A write is refused for its value where that is out of range, and else for the mode (R271, R365). -/
theorem Dev.writeRefusal_standard (pth : Path) (i v : Nat) :
    d.writeRefusal pth k i v = worst (rangeChecks k v ++ [stateAt 0]) := by
  rw [Dev.writeRefusal, Dev.lockChecks_pairedKinds hk, Dev.loadChecks_pairedKinds hk, chapterChecks_standard hk hstd,
    List.append_nil, List.append_nil]

/-- Whatever is written, the refusal counts in the access-error counter. -/
theorem Dev.writeRefusal_standard_counts (pth : Path) (i v : Nat) :
    ∃ r, d.writeRefusal pth k i v = some r ∧ r.cause.code ≠ 0 := by
  rw [Dev.writeRefusal_standard hk hstd]
  cases h : worst (rangeChecks k v ++ [stateAt 0]) with
  | none => exact absurd (worst_eq_none h) (by simp)
  | some r =>
    refine ⟨r, rfl, ?_⟩
    obtain hr | hr := List.mem_append.mp (worst_mem h)
    · rw [cause_of_mem_rangeChecks hr]
      decide
    · rw [List.mem_singleton.mp hr]
      decide

end

/-! A refused write of a register that is not inert -/

section

variable {s : State} {k : RegKind} {i : Nat} {r : Refused}

theorem State.directWrite_refused_active {v : Nat} {e : MemEcc} (hi : i < regCount k) (hreach : s.dev.reachable k i = true)
    (hactive : s.dev.inert k = false) (hr : s.dev.writeRefusal .direct k i v = some r) (hc : s.dev.conflictOf k i v = none) :
    s.directWrite (regAddr k i) v e = s.onDev (fun d => d.counted r.cause .direct (regAddr k i)) := by
  obtain ⟨ht, ha⟩ := target_regAddr hi
  simp [State.directWrite, ha, ht, hreach, State.directRegWrite, hactive, hr, hc, State.onDev, Dev.conflictNote]

theorem Dev.pktWriteFault_active {v : Nat} (hi : i < regCount k) (hreach : s.dev.reachable k i = true)
    (hactive : s.dev.inert k = false) (hr : s.dev.writeRefusal .kweave k i v = some r) :
    s.dev.pktWriteFault (regAddr k i) v = some ⟨r.cause, r.status, false, r.lsb⟩ := by
  obtain ⟨ht, ha⟩ := target_regAddr hi
  simp [Dev.pktWriteFault, Dev.addressFault, ha, ht, hreach, hactive, hr]

end

/-! Packets of one register -/

section

variable {s : State} {l : List Nat} {e : List MemEcc} {k : RegKind} {i : Nat}

/-- A REG_WRITE of one register that is at fault for its value is counted, and answered at the value's word (R379). -/
theorem State.opRegWrite_fault {v : Word} {c : Cause} {st b : Nat} (hi : i < regCount k) (hk : k ≠ .RGN_ISOLATE)
    (hf : s.dev.pktWriteFault (regAddr k i) v.toNat = some ⟨c, st, false, b⟩) (hc : s.dev.conflictOf k i v.toNat = none)
    (hcause : c.code ≠ 0) (hasks : s.asks 0x401 l 0 3) (h0 : param l 0 = 1) (h1 : param l 1 = regAddr k i)
    (h2 : param l 2 = v.toNat) :
    s.onlyRegs (s.opRegWrite e) [(.SYS_ACCERR, 0), (.SYS_ACCADDR, 0)] ∧ s.repliesNo (s.opRegWrite e) l st (some (5, b)) := by
  have hdry : dry l = false := by rw [dry, hasks.2.2]; rfl
  have hvalue : s.maskedValue ⟨4, 5, regAddr k i, 2 ^ 32 - 1, v.toNat, e.getD 0 .clean⟩ = v.toNat :=
    maskedValue_all s (regAddr k i) v.toNat (e.getD 0 .clean) v.isLt
  have hrun := State.groupRun_refused (target_regAddr hi).1 hk hvalue hf rfl hc
  have heq : s.opRegWrite e = (s.onDev (fun d => d.counted c .kweave (regAddr k i))).answered l (refuseAt st 5 b) := by
    rw [State.opRegWrite_one hasks h0, h1, h2, State.groupWrite, hrun]
    simp [hdry, State.groupRefused_counted]
  obtain ⟨hregs, hkw, -⟩ := s.dev.counted_keeps .kweave hcause (regAddr_lt hi)
  have hquiet : (s.onDev (fun d => d.counted c .kweave (regAddr k i))).dev.quiet 0 := by
    unfold Dev.quiet; rw [State.onDev_dev, hkw]; exact State.interprets_quiet hasks.1
  rw [heq, State.answered_quiet _ l (refuseAt st 5 b) hquiet]
  refine ⟨⟨⟨rfl, rfl⟩, fun k i hi hne => hregs k i hi hne⟩, rfl, ?_, rfl⟩
  simp only [State.onDev, Dev.setKw, Kw.answer, hkw]
  rw [refuseAt, sentResults_nil]

/-- A packet may read a register that it reaches. -/
theorem Dev.readFault_served (hserves : s.serves .kweave k i) (hk : k ≠ .FAB_SNAPDATA) : s.dev.readFault (regAddr k i) = none := by
  obtain ⟨-, hi, hreach, -⟩ := hserves
  obtain ⟨ht, ha⟩ := target_regAddr hi
  simp [Dev.readFault, Dev.addressFault, ha, ht, hreach, hk]

theorem State.pktRead_regAddr (x : MemEcc) (hi : i < regCount k) :
    s.pktRead (regAddr k i) x = (s.dev.peek .kweave k i, s.onDev (fun d => d.readEffect .kweave k i)) := by
  simp only [State.pktRead, (target_regAddr hi).1, Dev.readReg, State.onDev]

/-- A REG_READ of one register returns what it shows (R381). -/
theorem State.opRegRead_one (hserves : s.serves .kweave k i) (hk : k ≠ .FAB_SNAPDATA) (hasks : s.asks 0x400 l 1 2)
    (h0 : param l 0 = 1) (h1 : param l 1 = regAddr k i) :
    s.opRegRead e = (s.onDev (fun d => d.readEffect .kweave k i)).answered l (okWith [s.dev.peek .kweave k i]) := by
  obtain ⟨hint, hlen, hword⟩ := hasks
  have hcount : countFault l 1 1024 = none := by simp [countFault, firstFault, lenFault, paramFault, hlen, h0]
  have hw2 : wordTwoFault l false = none := by rw [wordTwoFault, hword]; rfl
  unfold State.opRegRead
  simp only [State.interprets_packetFor hint, hw2, hcount, firstFault, h0, List.range_one, List.map_cons, List.map_nil, Nat.add_zero,
    h1, State.readAll, List.findSome?, Dev.readFault_served hserves hk, Option.map_none, List.foldl_cons, List.foldl_nil,
    State.pktRead_regAddr _ hserves.2.1, List.reverse_cons, List.reverse_nil, List.nil_append]

end

/-! The statement -/

section

variable {s : State} {k : RegKind} {i : Nat} (hstd : s.dev.paired = false) (hk : k ∈ pairedKinds)
include hstd hk

theorem exec_read_standard {a : Access} (v : Word) (hserves : s.serves .direct k i) (ha : s.dev.hostOp a true = .read (regAddr k i)) :
    ∃ t, exec (.registerWrite a v) s = .next t ∧ s.onlyRegs t [] ∧ t.dev.rdata = 0 := by
  have heq : exec (.registerWrite a v) s = .next (s.regRead .direct k i) := by
    show Host.Outcome.next (s.hostAccess a true v.toNat .clean) = _
    simp only [State.hostAccess, ha]
    rfl
  have hread : s.regRead .direct k i = s.onDev (fun d => d.setRdata 0) := by
    rw [State.regRead_served s .direct k i hserves]
    simp only [State.onDev, Dev.peek_standard hk hstd, Dev.readEffect_pairedKinds hk]
  exact ⟨_, heq.trans (congrArg _ hread), State.onlyRegs_onDev (Dev.onlyRegs_of_regs rfl), rfl⟩

theorem exec_write_standard {a : Access} (v : Word) (hserves : s.serves .direct k i) (hdom : s.dev.domOn 2 = true)
    (ha : s.dev.hostOp a true = .write (regAddr k i)) :
    ∃ t, exec (.registerWrite a v) s = .next t ∧ s.onlyRegs t [(.SYS_ACCERR, 0), (.SYS_ACCADDR, 0)] ∧
      s.dev.counts t.dev SYS_ACCERR_COUNT 0 1 := by
  obtain ⟨htakes, hi, hreach, -⟩ := hserves
  obtain ⟨r, hr, hcause⟩ := Dev.writeRefusal_standard_counts hk hstd .direct i v.toNat
  obtain ⟨hregs, hcount, -⟩ := s.dev.countRefusal_counts .direct hcause (regAddr_lt hi)
  refine ⟨_, exec_registerWrite_write v htakes ha, ?_⟩
  rw [State.directWrite_refused_active hi hreach (Dev.inert_standard hk hstd) hr (Dev.conflictOf_pairedKinds hk i _)]
  simp only [State.onDev, Dev.counted, hdom, if_true]
  exact ⟨⟨⟨rfl, rfl⟩, hregs⟩, hcount⟩

theorem exec_regRead_standard {l : List Nat} (e : List MemEcc) (hserves : s.serves .kweave k i) (hasks : s.asks 0x400 l 1 2)
    (h0 : param l 0 = 1) (h1 : param l 1 = regAddr k i) :
    ∃ t, exec (.regRead e) s = .next t ∧ s.onlyRegs t [] ∧ s.repliesOk t l [0] := by
  have heq : s.opRegRead e = s.answered l (okWith [0]) := by
    rw [State.opRegRead_one hserves (pairedKinds_ne hk).2 hasks h0 h1, Dev.peek_standard hk hstd]
    simp only [State.onDev, Dev.readEffect_pairedKinds hk]
  refine ⟨_, congrArg Host.Outcome.next heq, ?_⟩
  rw [State.answered_quiet s l (okWith [0]) (State.interprets_quiet hasks.1)]
  exact ⟨State.onlyRegs_onDev (Dev.onlyRegs_of_regs rfl), rfl, rfl, rfl⟩

theorem exec_regWrite_standard {l : List Nat} (e : List MemEcc) (hserves : s.serves .kweave k i) (hasks : s.asks 0x401 l 0 3)
    (h0 : param l 0 = 1) (h1 : param l 1 = regAddr k i) (h2 : param l 2 < 2 ^ 32) (hrange : rangeChecks k (param l 2) = []) :
    ∃ t, exec (.regWrite e) s = .next t ∧ s.onlyRegs t [(.SYS_ACCERR, 0), (.SYS_ACCADDR, 0)] ∧
      ∃ loc, s.repliesNo t l stBAD_STATE loc := by
  obtain ⟨-, hi, hreach, -⟩ := hserves
  have hword : param l 2 = (BitVec.ofNat 32 (param l 2)).toNat := by rw [BitVec.toNat_ofNat, Nat.mod_eq_of_lt h2]
  generalize BitVec.ofNat 32 (param l 2) = v at hword
  have hr : s.dev.writeRefusal .kweave k i v.toNat = some (stateAt 0) := by
    rw [Dev.writeRefusal_standard hk hstd, ← hword, hrange]
    rfl
  have hf := Dev.pktWriteFault_active hi hreach (Dev.inert_standard hk hstd) hr
  obtain ⟨hregs, hreply⟩ := State.opRegWrite_fault (e := e) hi (pairedKinds_ne hk).1 hf (Dev.conflictOf_pairedKinds hk i _) (by decide)
    hasks h0 h1 hword
  exact ⟨_, rfl, hregs, _, hreply⟩

end

/-- Settles O7: what the registers show follows the mode, and the mode refuses every write of them. -/
theorem standardModeRegisters : Obligations.StandardModeRegisters := by
  intro s k i hstd hk _
  exact ⟨fun _ v hserves ha => exec_read_standard hstd hk v hserves ha,
    fun _ v hserves hdom ha => exec_write_standard hstd hk v hserves hdom ha,
    fun _ e hserves hasks h0 h1 => exec_regRead_standard hstd hk e hserves hasks h0 h1,
    fun _ e hserves hasks h0 h1 h2 hrange => exec_regWrite_standard hstd hk e hserves hasks h0 h1 h2 hrange⟩

end Sys2Proof.Machine
end

section
/-! SUPPORT. Packets of an image that are taken whole, and headers (R266, R300, R302, R313). -/

namespace Sys2Proof.Machine

/-! A failed load, told of an earlier state -/

/-- A load that has failed has failed since any state from which only registers that a failure may change differ. -/
theorem State.loadFailed_from {s x t : State} {r : Nat} (hstore : s.sameStore x) (hkept : s.dev.keepsBlocks x.dev loadKeeps)
    (hpwr : x.dev.pwr = s.dev.pwr) (htb : x.dev.tb = s.dev.tb) (h : x.loadFailed t r) : s.loadFailed t r := by
  obtain ⟨⟨hpend, hbytes⟩, hblocks, hrecord, hrest⟩ := h
  obtain ⟨hmem, hqueue⟩ := hstore
  refine ⟨⟨hpend.trans hqueue, fun a ha => ?_⟩, fun k i hi hk => (hblocks k i hi hk).trans (hkept k i hi hk), fun hb => ?_, hrest⟩
  · rw [hbytes a ha, hmem]
  · rw [Dev.t, ← htb]
    exact hrecord (by rw [hpwr]; exact hb)

theorem State.loadFailed_loadFails {s : State} (hfull : s.dev.cfg.load.partialLoad = false) (r : Nat) (a : Option Nat) :
    s.loadFailed (s.loadFails r a) r := by
  have heq : s.loadFails r a = s.fullFails r a := if_neg (by simp [hfull])
  rw [heq]
  exact s.loadFailed_fullFails r a

/-! A packet that is all the load holds -/

/-- Between packets, before the end of the body, there is nothing to find wrong. -/
theorem Dev.packetFault_between {d : Dev} (hwords : d.cfg.load.words = []) (hpos : d.cfg.load.pos < d.bodyEnd) :
    d.packetFault = none := by
  have hpacket : d.packet = none := by simp [Dev.packet, Dev.imageWord, hwords]
  have hin : ¬ d.bodyEnd ≤ d.cfg.load.pos := by omega
  unfold Dev.packetFault
  dsimp only
  split
  · rfl
  · rw [if_neg hin, hpacket]
    split <;> rfl

/-- What a load holds of its image, and where it stands in it. -/
def Load.image (l : Load) : List Nat × Nat × List Nat × Option ImgHdr := (l.words, l.pos, l.body, l.hdr)

section

variable {d e : Dev} {n : Nat} (he : e.cfg.load.image = d.cfg.load.image)
include he

theorem Dev.bodyEnd_of_image : e.bodyEnd = d.bodyEnd := by
  simp only [Load.image, Prod.mk.injEq] at he
  obtain ⟨-, -, -, hhdr⟩ := he
  rw [Dev.bodyEnd, Dev.bodyEnd, hhdr]

theorem Dev.lonePacket_of_image (h : d.lonePacket n) : e.lonePacket n := by
  have hend := Dev.bodyEnd_of_image he
  simp only [Load.image, Prod.mk.injEq] at he
  obtain ⟨hwords, hpos, -, -⟩ := he
  rw [Dev.lonePacket, hwords, hpos, hend]
  exact h

theorem Dev.pastPacket_of_image {t : Dev} (h : e.pastPacket t n) : d.pastPacket t n := by
  simp only [Load.image, Prod.mk.injEq] at he
  obtain ⟨hwords, hpos, hbody, -⟩ := he
  rw [Dev.pastPacket, hwords, hpos, hbody] at h
  exact h

end

/-- The load has taken a packet of LEN `len`. -/
def Dev.taken (d : Dev) (len : Nat) : Dev := d.setLoad (fun l => { l with
  body := l.body ++ l.words.take (1 + len), words := l.words.drop (1 + len), pos := l.pos + 4 * (1 + len) })

/-- After a packet that is all the load holds, the load waits for the next one. -/
theorem State.packetTaken_lone (s : State) {d : Dev} {len : Nat} (h : d.lonePacket (1 + len)) :
    State.packetTaken { s with dev := d } len = { s with dev := d.taken len } ∧ d.pastPacket (d.taken len) (1 + len) := by
  obtain ⟨hlen, hend⟩ := h
  have hempty : (d.taken len).cfg.load.words = [] := List.drop_eq_nil_of_le (le_of_eq hlen)
  refine ⟨State.packetScan_sound (s := { s with dev := d.taken len }) (Dev.packetFault_between hempty hend), hempty, rfl, ?_⟩
  show d.cfg.load.body ++ d.cfg.load.words.take (1 + len) = _
  rw [List.take_of_length_le (le_of_eq hlen)]

section

variable (e : Dev) (f : Load → Load) (len : Nat)

/-- A change of the load, and a packet taken, leave the registers. -/
theorem Dev.taken_setLoad_regs : ((e.setLoad f).taken len).regs = e.regs := rfl

theorem Dev.taken_setLoad_rf (g : Fld) (i : Nat) : ((e.setLoad f).taken len).rf g i = e.rf g i := rfl

variable {e f len}

/-- A packet that is all the load holds, where what it does leaves the image as it is. -/
theorem State.packetTaken_setLoad (s : State) {d : Dev} (h : d.lonePacket (1 + len)) (he : e.cfg.load.image = d.cfg.load.image)
    (hf : ∀ l, (f l).image = l.image) :
    State.packetTaken { s with dev := e.setLoad f } len = { s with dev := (e.setLoad f).taken len } ∧
      d.pastPacket ((e.setLoad f).taken len) (1 + len) := by
  have himage : (e.setLoad f).cfg.load.image = d.cfg.load.image := (hf e.cfg.load).trans he
  obtain ⟨htaken, hpast⟩ := s.packetTaken_lone (Dev.lonePacket_of_image himage h)
  exact ⟨htaken, Dev.pastPacket_of_image himage hpast⟩

end

/-! STARTUP_ORDER and REGION_END -/

theorem orderGood_lt {w : Nat} (h : orderGood w = true) : w < 2 ^ 24 := by
  simp only [orderGood, Bool.and_eq_true, decide_eq_true_eq] at h
  exact h.1.1

section

variable {s : State} (hlive : s.dev.live 3 = true)
include hlive

theorem exec_startupOrder_good {ws : List Nat} (hpacket : s.dev.packetOf 6 = some ws) (hfull : s.dev.cfg.load.partialLoad = false)
    (hgood : orderGood (ws.headD 0) = true) (hlone : s.dev.lonePacket 2) : ∃ t, exec .startupOrder s = .next t ∧
      s.onlyRegs t [(.CFG_STARTUP, 0)] ∧ t.dev.rf CFG_STARTUP_ORDER 0 = ws.headD 0 ∧ s.dev.pastPacket t.dev 2 := by
  have heq : s.startupOrder = State.packetTaken { s with
      dev := (s.dev.wf CFG_STARTUP_ORDER 0 (ws.headD 0)).setLoad (fun l => { l with order := 1 }) } 1 := by
    rw [State.startupOrder, hpacket]
    dsimp only
    rw [if_neg (by simp only [hgood]; decide), if_neg (by simp only [hfull]; decide)]
  obtain ⟨htaken, hpast⟩ := s.packetTaken_setLoad (len := 1) (e := s.dev.wf CFG_STARTUP_ORDER 0 (ws.headD 0))
    (f := fun l => { l with order := 1 }) hlone (by rw [Dev.wf_cfg]) fun _ => rfl
  refine ⟨_, (State.within_live hlive).trans (congrArg _ (heq.trans htaken)), ⟨⟨rfl, rfl⟩, ?_⟩, ?_, hpast⟩
  · exact (s.dev.onlyRegs_wf CFG_STARTUP_ORDER _ (by decide) (by simp [CFG_STARTUP_ORDER])).trans
      (Dev.onlyRegs_of_regs (Dev.taken_setLoad_regs _ _ _))
  · rw [Dev.taken_setLoad_rf, Dev.rf_wf_self _ _ _ _ (by decide)]
    exact Nat.mod_eq_of_lt (orderGood_lt hgood)

theorem exec_startupOrder_bad {ws : List Nat} (hpacket : s.dev.packetOf 6 = some ws) (hfull : s.dev.cfg.load.partialLoad = false)
    (hbad : orderGood (ws.headD 0) = false) : ∃ t, exec .startupOrder s = .next t ∧ s.loadFailed t 19 := by
  have heq : s.startupOrder = s.loadFails rnORDER none := by
    rw [State.startupOrder, hpacket]
    exact if_pos hbad
  exact ⟨_, (State.within_live hlive).trans (congrArg _ heq), State.loadFailed_loadFails hfull rnORDER none⟩

theorem exec_regionEnd_closes (hpacket : s.dev.packetOf 4 ≠ none) (hlone : s.dev.lonePacket 1) :
    ∃ t, exec .regionEnd s = .next t ∧ s.onlyRegs t [] ∧ t.dev.cfg.load.region = none ∧ t.dev.cfg.load.order = 4 ∧
      s.dev.pastPacket t.dev 1 := by
  obtain ⟨ws, hws⟩ := Option.ne_none_iff_exists'.mp hpacket
  have heq : s.regionEnd =
      State.packetTaken { s with dev := s.dev.setLoad (fun l => { l with region := none, order := 4 }) } 0 := by
    simp [State.regionEnd, hws, State.onDev]
  obtain ⟨htaken, hpast⟩ := s.packetTaken_setLoad (len := 0) (f := fun l => { l with region := none, order := 4 }) hlone rfl
    fun _ => rfl
  exact ⟨_, (State.within_live hlive).trans (congrArg _ (heq.trans htaken)), ⟨⟨rfl, rfl⟩, Dev.onlyRegs_of_regs rfl⟩,
    rfl, rfl, hpast⟩

end

/-! The header (R300) -/

section

variable (d : Dev) (w : List Nat)

theorem Dev.showsKey_keeps : d.onlyRegs (d.showsKey w) [(.CFG_STATUS, 0)] ∧ (d.showsKey w).pwr = d.pwr ∧
    (d.showsKey w).tb = d.tb ∧ (d.showsKey w).cfg = d.cfg ∧ (d.showsKey w).fuses = d.fuses := by
  unfold Dev.showsKey
  split
  · exact ⟨Dev.onlyRegs_of_regs rfl, rfl, rfl, rfl, rfl⟩
  · exact ⟨(d.onlyRegs_wf CFG_STATUS_ENC _ (by decide) (by simp [CFG_STATUS_ENC])).trans
      (Dev.onlyRegs_wf _ CFG_STATUS_KEYSEL _ (by decide) (by simp [CFG_STATUS_KEYSEL])), rfl, rfl, rfl, rfl⟩

/-- Whether a header is refused does not go by what `CFG.STATUS` shows of it. -/
theorem Dev.headerRefused_showsKey : (d.showsKey w).headerRefused w = d.headerRefused w := by
  obtain ⟨hregs, -, -, hcfg, hfuses⟩ := d.showsKey_keeps w
  have hstep : (d.showsKey w).rf SYS_DEVID_STEP 0 = d.rf SYS_DEVID_STEP 0 := hregs.rf (by decide) (by simp [SYS_DEVID_STEP])
  have hmode : (d.showsKey w).paired = d.paired := hregs.on (by decide) (by simp [SYS_STATUS_PAIRED])
  have hkey : (d.showsKey w).imageKey (parseHeader w) = d.imageKey (parseHeader w) := by rw [Dev.imageKey, hcfg, Dev.imageKey]
  rw [Dev.headerRefused, Dev.headerRefused]
  rw [hstep, hmode, hcfg, hfuses, hkey]

variable {d w}

theorem Dev.headerFault_of_accepted (h : d.headerRefused w = none) :
    headerFault w (d.rf SYS_DEVID_STEP 0) d.cfg.load.golden = none := by
  unfold Dev.headerRefused at h
  dsimp only at h
  split at h
  · exact absurd h (by simp)
  · assumption

theorem Dev.showsKey_enc (hfull : d.cfg.load.partialLoad = false) (h : d.headerRefused w = none) :
    (d.showsKey w).on CFG_STATUS_ENC 0 = (parseHeader w).enc := by
  have hshows : ¬ (d.cfg.load.partialLoad = true ∨
      (headerFault w (d.rf SYS_DEVID_STEP 0) d.cfg.load.golden).isSome = true) := by
    simp [hfull, Dev.headerFault_of_accepted h]
  rw [Dev.showsKey, if_neg hshows, Dev.on_wf_bits _ CFG_STATUS_KEYSEL CFG_STATUS_ENC _ _ rfl (by decide) (by decide)]
  exact Dev.on_wf_b2n _ _ _ _ (by decide) (by decide)

end

/-- What a full image sets: mode, policy, and in paired mode no calibration trigger. -/
theorem Dev.headerSets_sets (d : Dev) {h : ImgHdr} (hpolicy : h.policy < 4) :
    d.onlyRegs (d.headerSets h) [(.SYS_STATUS, 0), (.RGN_GAUNTLET, 0), (.CAL_CTRL, 0)] ∧ (d.headerSets h).paired = h.paired ∧
      (d.headerSets h).rf RGN_GAUNTLET_POLICY 0 = (if h.paired then h.policy else 0) ∧
      (h.paired = false → (d.headerSets h).rreg .CAL_CTRL 0 = d.rreg .CAL_CTRL 0) ∧ (d.headerSets h).cfg = d.cfg := by
  have hregs (l : List (RegKind × Nat)) (hl : [(RegKind.SYS_STATUS, 0), (.RGN_GAUNTLET, 0)] ⊆ l) (n m : Nat) :
      d.onlyRegs ((d.wf SYS_STATUS_PAIRED 0 n).wf RGN_GAUNTLET_POLICY 0 m) l :=
    (d.onlyRegs_wf SYS_STATUS_PAIRED n (by decide) (hl (by simp [SYS_STATUS_PAIRED]))).trans
      (Dev.onlyRegs_wf _ RGN_GAUNTLET_POLICY m (by decide) (hl (by simp [RGN_GAUNTLET_POLICY])))
  unfold Dev.headerSets
  cases h.paired with
  | false =>
    refine ⟨hregs _ (by simp) _ _, ?_, ?_, fun _ => hregs _ (List.Subset.refl _) _ _ _ _ (by decide) (by simp), rfl⟩
    · exact (Dev.on_wf_kind _ _ SYS_STATUS_PAIRED _ (by decide) (by decide) (by decide)).trans
        (Dev.on_wf_b2n d _ _ false (by decide) (by decide))
    · exact Dev.rf_wf_self _ _ _ _ (by decide)
  | true =>
    refine ⟨(hregs _ (by simp) _ _).trans (Dev.onlyRegs_wf _ CAL_CTRL_TRIG _ (by decide) (by simp [CAL_CTRL_TRIG])), ?_, ?_,
      fun hno => absurd hno (by simp), rfl⟩
    · exact (Dev.on_wf_kind _ _ SYS_STATUS_PAIRED _ (by decide) (by decide) (by decide)).trans
        ((Dev.on_wf_kind _ _ SYS_STATUS_PAIRED _ (by decide) (by decide) (by decide)).trans
          (Dev.on_wf_b2n d _ _ true (by decide) (by decide)))
    · exact (Dev.rf_wf_kind _ _ RGN_GAUNTLET_POLICY _ (by decide) (by decide) (by decide)).trans
        ((Dev.rf_wf_self _ _ _ _ (by decide)).trans (Nat.mod_eq_of_lt hpolicy))

/-- The header governs the load, its words alone having come. -/
def Dev.headed (d : Dev) (w : List Nat) : Dev :=
  (((d.showsKey w).headerSets (parseHeader w)).inc CFG_FIFOSTAT_DISC 0 0).setLoad (fun l => { l with
    hdr := some (parseHeader w), head := w, pos := 64, words := [], count := min l.count (16 + (parseHeader w).bodyWords) })

section

variable {s : State} (hopen : s.dev.cfg.load.isOpen = true) (hhdr : s.dev.cfg.load.hdr = none)
  (hlen : s.dev.cfg.load.words.length = 16)
include hopen hhdr hlen

theorem State.imageHeader_refused {r : Nat} (h : s.dev.headerRefused s.dev.cfg.load.words = some r) :
    s.imageHeader = State.loadFails { s with dev := s.dev.showsKey s.dev.cfg.load.words } r none := by
  have hwhole : s.dev.cfg.load.words.take 16 = s.dev.cfg.load.words := List.take_of_length_le (le_of_eq hlen)
  simp [State.imageHeader, hopen, hhdr, hlen, hwhole, Dev.headerRefused_showsKey, h]

theorem State.imageHeader_accepted (hfull : s.dev.cfg.load.partialLoad = false) (hhost : s.dev.cfg.load.golden = false)
    (h : s.dev.headerRefused s.dev.cfg.load.words = none) :
    s.imageHeader = State.packetScan { s with dev := s.dev.headed s.dev.cfg.load.words } := by
  have hwhole : s.dev.cfg.load.words.take 16 = s.dev.cfg.load.words := List.take_of_length_le (le_of_eq hlen)
  have hrest : s.dev.cfg.load.words.drop 16 = [] := List.drop_eq_nil_of_le (le_of_eq hlen)
  simp [State.imageHeader, hopen, hhdr, hlen, hwhole, hrest, Dev.headerRefused_showsKey, h, hfull, hhost, Dev.headed]

variable (hlive : s.dev.live 3 = true) (hfull : s.dev.cfg.load.partialLoad = false)
include hlive hfull

theorem exec_imageHeader_refused {r : Nat} (h : s.dev.headerRefused s.dev.cfg.load.words = some r) :
    ∃ t, exec .imageHeader s = .next t ∧ s.loadFailed t r := by
  obtain ⟨hregs, hpwr, htb, hcfg, -⟩ := s.dev.showsKey_keeps s.dev.cfg.load.words
  refine ⟨_, (State.within_live hlive).trans (congrArg _ (State.imageHeader_refused hopen hhdr hlen h)), ?_⟩
  exact State.loadFailed_from (x := { s with dev := s.dev.showsKey s.dev.cfg.load.words }) ⟨rfl, rfl⟩
    (hregs.keepsBlocks (by decide)) hpwr htb (State.loadFailed_loadFails (by rw [hcfg]; exact hfull) r none)

theorem exec_imageHeader_accepted (hhost : s.dev.cfg.load.golden = false)
    (h : s.dev.headerRefused s.dev.cfg.load.words = none) (hbody : s.dev.cfg.load.words.getD 4 0 ≠ 0) :
    let w := s.dev.cfg.load.words
    ∃ t, exec .imageHeader s = .next t ∧
      s.onlyRegs t [(.CFG_STATUS, 0), (.SYS_STATUS, 0), (.RGN_GAUNTLET, 0), (.CAL_CTRL, 0), (.CFG_FIFOSTAT, 0)] ∧
      t.dev.cfg.load.hdr = some (parseHeader w) ∧ t.dev.cfg.load.pos = 64 ∧ t.dev.cfg.load.words = [] ∧
      t.dev.paired = (parseHeader w).paired ∧
      t.dev.rf RGN_GAUNTLET_POLICY 0 = (if (parseHeader w).paired then (parseHeader w).policy else 0) ∧
      ((parseHeader w).paired = false → t.dev.rreg .CAL_CTRL 0 = s.dev.rreg .CAL_CTRL 0) ∧
      t.dev.on CFG_STATUS_ENC 0 = (parseHeader w).enc := by
  intro w
  have hbodyEnd : (s.dev.headed w).bodyEnd = 64 + w.getD 4 0 := rfl
  have hsound : State.packetScan { s with dev := s.dev.headed w } = { s with dev := s.dev.headed w } :=
    State.packetScan_sound (Dev.packetFault_between rfl
      (by rw [hbodyEnd]; exact Nat.lt_add_of_pos_right (Nat.pos_of_ne_zero hbody)))
  have heq := (State.imageHeader_accepted hopen hhdr hlen hfull hhost h).trans hsound
  obtain ⟨hshows, -⟩ := s.dev.showsKey_keeps w
  obtain ⟨hsets, hmode, hpolicy, hcal, -⟩ := (s.dev.showsKey w).headerSets_sets (h := parseHeader w) (bitsOf_lt _ 3 2)
  have hcount : ((s.dev.showsKey w).headerSets (parseHeader w)).onlyRegs (s.dev.headed w) [(.CFG_FIFOSTAT, 0)] :=
    (Dev.onlyRegs_inc _ CFG_FIFOSTAT_DISC 0 (by decide) (by simp [CFG_FIFOSTAT_DISC])).trans (Dev.onlyRegs_of_regs rfl)
  refine ⟨_, (State.within_live hlive).trans (congrArg _ heq), ⟨⟨rfl, rfl⟩, ?_⟩, rfl, rfl, rfl, ?_, ?_, fun hstd => ?_, ?_⟩
  · exact ((hshows.mono (by simp)).trans (hsets.mono (by simp))).trans (hcount.mono (by simp))
  · exact (hcount.on (f := SYS_STATUS_PAIRED) (by decide) (by simp [SYS_STATUS_PAIRED])).trans hmode
  · exact (hcount.rf (by decide) (by simp [RGN_GAUNTLET_POLICY])).trans hpolicy
  · exact ((hcount _ _ (by decide) (by simp)).trans (hcal hstd)).trans (hshows _ _ (by decide) (by simp))
  · exact ((hcount.on (by decide) (by simp [CFG_STATUS_ENC])).trans (hsets.on (by decide) (by simp [CFG_STATUS_ENC]))).trans
      (Dev.showsKey_enc hfull h)

end

end Sys2Proof.Machine
end

section
/-! SUPPORT. The set of device frames is checked and written (R308, R310). -/

namespace Sys2Proof.Machine

/-! What device frames write -/

theorem heldFields_nil {k : RegKind} (hk : k ∉ heldKinds) : heldFields k = [] := by
  unfold heldFields
  split
  · exact absurd (by decide) hk
  · exact absurd (by decide) hk
  · simp [hk]

/-- An address names an element that the register has. -/
theorem decodeAddr_lt {a : Nat} {k : RegKind} {i : Nat} (h : decodeAddr a = some (k, i)) : i < regCount k := by
  obtain ⟨k', -, hk'⟩ := List.exists_of_findSome?_eq_some h
  obtain ⟨j, hj, heq⟩ := Option.map_eq_some_iff.mp hk'
  obtain ⟨rfl, rfl⟩ := Prod.mk.inj heq
  simp only [regIndexAt, Option.ite_none_right_eq_some] at hj
  obtain ⟨⟨-, hrow, hcol, -⟩, hidx⟩ := hj
  rw [← Option.some.inj hidx, regCount]
  exact lt_of_lt_of_le (Nat.add_lt_add_left hcol _) (by rw [← Nat.succ_mul]; exact Nat.mul_le_mul_right _ hrow)

section

variable {k : RegKind} (hk : k ∉ heldKinds) {j : Nat} (hj : j < 65536)
include hk hj

theorem rregOf_frameWordTo (t : Tab Word) (a w v : Nat) : rregOf (frameWordTo t a w v) k j = rregOf t k j := by
  unfold frameWordTo
  split
  · rfl
  · next k' i hreg =>
    by_cases hheld : k' ∈ heldKinds
    · obtain ⟨b, -, hdecode⟩ := Option.bind_eq_some_iff.mp hreg
      have hi := lt_of_lt_of_le (decodeAddr_lt hdecode) (regCount_le k')
      exact foldl_keeps (fun u => rregOf u k j = rregOf t k j) _ _ t rfl fun u f _ hu =>
        (rregOf_tset_ne u _ (fun heq => hk (by rw [heq]; exact hheld)) hi hj).trans hu
    · rw [heldFields_nil hheld]
      rfl

/-- A set of device frames writes only registers that device frames hold. -/
theorem rregOf_withFrames (t : Tab Word) (l : List (Nat × Nat)) : rregOf (withFrames t l) k j = rregOf t k j := by
  refine foldl_keeps (fun u => rregOf u k j = rregOf t k j) frameTo l _ (rregOf_heldReset t hk hj) fun u x _ hu => ?_
  refine foldl_keeps (fun u => rregOf u k j = rregOf t k j) _ (List.range 32) u hu fun u w _ hu => ?_
  dsimp only
  split
  · exact hu
  · exact (rregOf_frameWordTo hk hj u _ _ _).trans hu

end

/-! What stays while they are written -/

/-- Only registers that device frames hold, the fabric and the analogue section differ. -/
structure Dev.takesFrames (d e : Dev) : Prop where
  regs : ∀ k i, i < 65536 → k ∉ heldKinds → e.rreg k i = d.rreg k i
  cfg : e.cfg = d.cfg
  pwr : e.pwr = d.pwr
  tb : e.tb = d.tb
  now : e.now = d.now

theorem Dev.takesFrames.trans {d e e' : Dev} (h : d.takesFrames e) (h' : e.takesFrames e') : d.takesFrames e' :=
  ⟨fun k i hi hk => (h'.regs k i hi hk).trans (h.regs k i hi hk), h'.cfg.trans h.cfg, h'.pwr.trans h.pwr, h'.tb.trans h.tb,
    h'.now.trans h.now⟩

section

variable (d : Dev)

theorem Dev.takesFrames_setRegs (l : List (Nat × Nat)) : d.takesFrames (d.setRegs (withFrames d.regs l)) :=
  ⟨fun _ _ hi hk => rregOf_withFrames hk hi d.regs l, rfl, rfl, rfl, rfl⟩

theorem Dev.takesFrames_putFrame (a v : Nat) : d.takesFrames (d.putFrame a v) := ⟨fun _ _ _ _ => rfl, rfl, rfl, rfl, rfl⟩

theorem Dev.takesFrames_setCmp (n : Nat) (x : CmpUnit) : d.takesFrames (d.setCmp n x) :=
  ⟨fun _ _ _ _ => rfl, rfl, rfl, rfl, rfl⟩

theorem Dev.takesFrames_foldl {α : Type} (f : Dev → α → Dev) (xs : List α) (h : ∀ (e : Dev) x, e.takesFrames (f e x)) :
    d.takesFrames (xs.foldl f d) :=
  foldl_keeps (fun e => d.takesFrames e) f xs d ⟨fun _ _ _ _ => rfl, rfl, rfl, rfl, rfl⟩ fun e x _ he => he.trans (h e x)

theorem Dev.takesFrames_putFrames (l : List (Nat × Nat)) : d.takesFrames (l.foldl (fun d e => d.putFrame e.1 e.2) d) :=
  d.takesFrames_foldl _ l fun e x => e.takesFrames_putFrame x.1 x.2

theorem Dev.takesFrames_anxTake : d.takesFrames d.anxTake := by
  unfold Dev.anxTake
  exact d.takesFrames_foldl _ _ fun e n => e.takesFrames_setCmp n _

/-- The device with a set of frames written. -/
def Dev.setWritten (l : List (Nat × Nat)) : Dev :=
  (l.foldl (fun d e => d.putFrame e.1 e.2) (d.setRegs (withFrames d.regs l))).anxTake

theorem Dev.takesFrames_setWritten (l : List (Nat × Nat)) : d.takesFrames (d.setWritten l) :=
  ((d.takesFrames_setRegs l).trans (Dev.takesFrames_putFrames _ l)).trans (Dev.takesFrames_anxTake _)

end

/-! The check of the set -/

/-- A set that has passed its check, in a full load: what of the state it leaves alone. -/
structure State.setPassed (s x : State) : Prop where
  store : s.sameStore x
  regs : ∀ k i, i < 65536 → k ∉ heldKinds → x.dev.rreg k i = s.dev.rreg k i
  pwr : x.dev.pwr = s.dev.pwr
  tb : x.dev.tb = s.dev.tb
  now : x.dev.now = s.dev.now
  cfg : ∃ held, x.dev.cfg = { s.dev.cfg with load := { s.dev.cfg.load with setDone := true, held := held } }
  once : s.dev.cfg.load.setDone = true → x = s

theorem State.setPassed_refl {s : State} (h : s.dev.cfg.load.setDone = true) : s.setPassed s := by
  refine ⟨⟨rfl, rfl⟩, fun _ _ _ _ => rfl, rfl, rfl, rfl, ⟨s.dev.cfg.load.held, ?_⟩, fun _ => rfl⟩
  rw [← h]

theorem State.setPassed_of_takesFrames {s : State} {e : Dev} (hdone : s.dev.cfg.load.setDone = false) (h : s.dev.takesFrames e) :
    s.setPassed { s with dev := e.setLoad (fun l => { l with setDone := true, held := [] }) } := by
  refine ⟨⟨rfl, rfl⟩, h.regs, h.pwr, h.tb, h.now, ⟨[], ?_⟩, fun hyes => ?_⟩
  · rw [← h.cfg]
    rfl
  · exact absurd (hdone.symm.trans hyes) (by simp)

section

variable {s : State} (hfull : s.dev.cfg.load.partialLoad = false)
include hfull

theorem State.setCheck_passed (h : s.setCheck.2 = true) : s.setPassed s.setCheck.1 := by
  cases hdone : s.dev.cfg.load.setDone with
  | true =>
    have heq : s.setCheck = (s, true) := if_pos (.inl hdone)
    rw [heq]
    exact State.setPassed_refl hdone
  | false =>
    have hcheck : ¬ (s.dev.cfg.load.setDone = true ∨ s.dev.cfg.load.partialLoad = true) := by simp [hdone, hfull]
    rw [State.setCheck] at h ⊢
    dsimp only at h ⊢
    rw [if_neg hcheck] at h ⊢
    split at h
    · exact absurd h (by simp)
    · exact State.setPassed_of_takesFrames hdone (s.dev.takesFrames_setWritten _)

theorem State.setCheck_failed {r : Nat} (hdone : s.dev.cfg.load.setDone = false)
    (h : s.dev.setFault s.dev.cfg.load.held = some r) : s.setCheck = (s.loadFails r none, false) := by
  have hcheck : ¬ (s.dev.cfg.load.setDone = true ∨ s.dev.cfg.load.partialLoad = true) := by simp [hdone, hfull]
  rw [State.setCheck]
  dsimp only
  rw [if_neg hcheck, h]

end

namespace State.setPassed

section

variable {s x : State} (h : s.setPassed x)
include h

theorem partialLoad : x.dev.cfg.load.partialLoad = s.dev.cfg.load.partialLoad := by
  obtain ⟨held, hcfg⟩ := h.cfg
  rw [hcfg]

theorem setDone : x.dev.cfg.load.setDone = true := by
  obtain ⟨held, hcfg⟩ := h.cfg
  rw [hcfg]

theorem image : x.dev.cfg.load.image = s.dev.cfg.load.image := by
  obtain ⟨held, hcfg⟩ := h.cfg
  rw [hcfg]
  rfl

theorem paired : x.dev.paired = s.dev.paired := Dev.on_of_rreg (h.regs _ _ (by decide) (by decide))

theorem fsel {m : Nat} (hm : m < 65536) : x.dev.fsel m = s.dev.fsel m := Dev.rf_of_rreg (h.regs _ _ hm (by decide))

/-- A load that fails later fails for the state before the check, too. -/
theorem loadFailed {t : State} {r : Nat} (ht : x.loadFailed t r) : s.loadFailed t r :=
  State.loadFailed_from h.store (fun k i hi hk => h.regs k i hi fun hheld => blockOf_heldKinds k hheld
    (List.mem_cons_of_mem _ (List.mem_cons_of_mem _ hk))) h.pwr h.tb ht

end

end State.setPassed

end Sys2Proof.Machine
end

section
/-! SUPPORT. A region is opened by a full load: its declarations are written (R253, R254, R301, R307). -/

namespace Sys2Proof.Machine

/-! Frames -/

theorem Dev.frame_putFrame_self (d : Dev) (a v : Nat) : (d.putFrame a v).frame a = v := by
  show Nat.xor (tget (tset d.fab.frames 0 a v) 0 a) (tget (tset d.fab.upset 0 a 0) 0 a) = v
  rw [tget_tset_self, tget_tset_self]
  exact Nat.xor_zero v

theorem Dev.frame_putFrame_ne (d : Dev) {a b : Nat} (v : Nat) (h : b ≠ a) : (d.putFrame a v).frame b = d.frame b := by
  show Nat.xor (tget (tset d.fab.frames 0 a v) 0 b) (tget (tset d.fab.upset 0 a 0) 0 b) = _
  rw [tget_tset_ne _ _ _ _ h, tget_tset_ne _ _ _ _ h]
  rfl

/-- The interface frames of a region are written. -/
def Dev.declFrames (d : Dev) (n : Nat) (l : List Nat) : Dev :=
  ((List.range 16).zip l).foldl (fun d x => d.putFrame (ifFrameAddr n x.1) x.2) d

/-- Frames at rising addresses: each takes its value, and every other frame stays. -/
theorem Dev.frame_putFrames (d : Dev) (n start : Nat) (l : List Nat) (a : Nat) :
    (((List.range' start l.length).zip l).foldl (fun d x => d.putFrame (ifFrameAddr n x.1) x.2) d).frame a =
      if ifFrameAddr n start ≤ a ∧ a < ifFrameAddr n start + l.length then l.getD (a - ifFrameAddr n start) 0 else d.frame a := by
  induction l generalizing d start with
  | nil => simp
  | cons v l ih =>
    have hnext : ifFrameAddr n (start + 1) = ifFrameAddr n start + 1 := by unfold ifFrameAddr; omega
    rw [List.length_cons, List.range'_succ, List.zip_cons_cons, List.foldl_cons, ih, hnext]
    generalize ifFrameAddr n start = b
    dsimp only
    by_cases hlater : b + 1 ≤ a ∧ a < b + 1 + l.length
    · obtain ⟨j, rfl⟩ := Nat.exists_eq_add_of_le hlater.1
      have hidx : b + 1 + j - b = j + 1 := by omega
      rw [if_pos hlater, if_pos (by omega), hidx, Nat.add_sub_cancel_left, List.getD_cons_succ]
    · rw [if_neg hlater]
      by_cases hhere : a = b
      · subst hhere
        rw [Dev.frame_putFrame_self, if_pos (by omega), Nat.sub_self, List.getD_cons_zero]
      · rw [Dev.frame_putFrame_ne _ _ hhere, if_neg (by omega)]

section

variable (d : Dev) {n : Nat} {l : List Nat} (hl : l.length = 16)
include hl

theorem Dev.frame_declFrames {k : Nat} (hk : k < 16) : (d.declFrames n l).frame (ifFrameAddr n k) = l.getD k 0 := by
  have hframe := d.frame_putFrames n 0 l (ifFrameAddr n k)
  rw [hl, ← List.range_eq_range', if_pos (by unfold ifFrameAddr; omega)] at hframe
  refine hframe.trans (congrArg (l.getD · 0) ?_)
  unfold ifFrameAddr
  omega

theorem Dev.frame_declFrames_ne {m k : Nat} (hk : k < 16) (hm : m ≠ n) :
    (d.declFrames n l).frame (ifFrameAddr m k) = d.frame (ifFrameAddr m k) := by
  have hframe := d.frame_putFrames n 0 l (ifFrameAddr m k)
  rwa [hl, ← List.range_eq_range', if_neg (by unfold ifFrameAddr; omega)] at hframe

end

theorem Dev.besides_declFrames (d : Dev) (n : Nat) (l : List Nat) :
    (d.declFrames n l).regs = d.regs ∧ (d.declFrames n l).cfg = d.cfg ∧ (d.declFrames n l).now = d.now :=
  foldl_keeps (fun e : Dev => e.regs = d.regs ∧ e.cfg = d.cfg ∧ e.now = d.now)
    (fun d (x : Nat × Nat) => d.putFrame (ifFrameAddr n x.1) x.2) _ d ⟨rfl, rfl, rfl⟩ fun _ _ _ he => he

end Sys2Proof.Machine
end

section
/-! SUPPORT. The declarations of a region that a full load opens (R253, R254, R307). -/

namespace Sys2Proof.Machine

/-! What the declarations of some regions leave alone -/

/-- The registers that hold the declarations of some regions. -/
def declRegs (ms : List Nat) : List (RegKind × Nat) := ms.flatMap (fun m => [(RegKind.FAB_SOMAP, m), (RegKind.FAB_RCLK, m)])

/-- Of the registers only those of the regions change, of the load the pause and the clocks that moved, and the interface frames
of other regions stay. -/
structure Dev.declares (d e : Dev) (ms : List Nat) : Prop where
  regs : d.onlyRegs e (declRegs ms)
  now : e.now = d.now
  cfg : ∃ c p, e.cfg = { d.cfg with load := { d.cfg.load with clocked := c, pauseTo := p } }
  pause : e.cfg.load.pauseTo = d.cfg.load.pauseTo ∨ e.cfg.load.pauseTo = d.now + 20000
  frames : ∀ m k, m ∉ ms → k < 16 → e.frame (ifFrameAddr m k) = d.frame (ifFrameAddr m k)

section

variable {d e e' : Dev} {ms ns : List Nat}

theorem Dev.declares_of_regs (hregs : d.onlyRegs e (declRegs ms)) (hnow : e.now = d.now) (hcfg : e.cfg = d.cfg)
    (hframes : ∀ m k, m ∉ ms → k < 16 → e.frame (ifFrameAddr m k) = d.frame (ifFrameAddr m k)) : d.declares e ms :=
  ⟨hregs, hnow, ⟨_, _, hcfg⟩, .inl (by rw [hcfg]), hframes⟩

theorem Dev.declares_refl (d : Dev) (ms : List Nat) : d.declares d ms :=
  Dev.declares_of_regs (Dev.onlyRegs_of_regs rfl) rfl rfl fun _ _ _ _ => rfl

theorem Dev.declares.trans (h : d.declares e ms) (h' : e.declares e' ms) : d.declares e' ms := by
  obtain ⟨c, p, hcfg⟩ := h.cfg
  obtain ⟨c', p', hcfg'⟩ := h'.cfg
  refine ⟨h.regs.trans h'.regs, h'.now.trans h.now, ⟨c', p', by rw [hcfg', hcfg]⟩, ?_,
    fun m k hm hk => (h'.frames m k hm hk).trans (h.frames m k hm hk)⟩
  rw [← h.now]
  exact h'.pause.elim (fun hkept => by rw [hkept, h.now]; exact h.pause) .inr

theorem Dev.declares.mono (h : d.declares e ms) (hsub : ms ⊆ ns) : d.declares e ns :=
  { h with
    regs := h.regs.mono fun x hx => by
      obtain ⟨m, hm, hx⟩ := List.mem_flatMap.mp hx
      exact List.mem_flatMap.mpr ⟨m, hsub hm, hx⟩
    frames := fun m k hm hk => h.frames m k (fun hx => hm (hsub hx)) hk }

theorem Dev.declares.image (h : d.declares e ms) : e.cfg.load.image = d.cfg.load.image := by
  obtain ⟨c, p, hcfg⟩ := h.cfg
  rw [hcfg]
  rfl

theorem Dev.declares.setDone (h : d.declares e ms) : e.cfg.load.setDone = d.cfg.load.setDone := by
  obtain ⟨c, p, hcfg⟩ := h.cfg
  rw [hcfg]

theorem Dev.declares.rf (h : d.declares e ms) {m : Nat} (hm : m ∉ ms) (hlt : m < 65536) (f : Fld) : e.rf f m = d.rf f m :=
  h.regs.rf hlt fun hx => by
    obtain ⟨n, hn, hx⟩ := List.mem_flatMap.mp hx
    simp only [List.mem_cons, Prod.mk.injEq, List.not_mem_nil, or_false] at hx
    obtain ⟨-, rfl⟩ | ⟨-, rfl⟩ := hx <;> exact hm hn

end

/-! The clock of a region -/

/-- The load notes that the clock of a region moves. -/
def Dev.clockNoted (d : Dev) (n new : Nat) : Dev :=
  if new = d.fsel n then d else d.setLoad (fun l => { l with clocked := setBit l.clocked n true })

/-- The clock of a region is declared: from OFF it powers the region, and the load waits. -/
def Dev.declClock (d : Dev) (n new : Nat) : Dev :=
  if new = 0 then d.clockNoted n new
  else if d.fsel n = 0 then
    ((d.clockNoted n new).wf FAB_RCLK_FSEL n new).setLoad (fun l => { l with
      pauseTo := ((d.clockNoted n new).wf FAB_RCLK_FSEL n new).now + 20000 })
  else (d.clockNoted n new).wf FAB_RCLK_FSEL n new

section

variable {d e : Dev} {n : Nat}

theorem Dev.declares_clockNoted (d : Dev) (n new : Nat) (ms : List Nat) : d.declares (d.clockNoted n new) ms := by
  unfold Dev.clockNoted
  split
  · exact d.declares_refl ms
  · exact ⟨Dev.onlyRegs_of_regs rfl, rfl, ⟨setBit d.cfg.load.clocked n true, d.cfg.load.pauseTo, rfl⟩, .inl rfl, fun _ _ _ _ => rfl⟩

theorem Dev.clockNoted_keeps (d : Dev) (n new : Nat) : (d.clockNoted n new).regs = d.regs ∧ (d.clockNoted n new).fab = d.fab := by
  unfold Dev.clockNoted
  split <;> exact ⟨rfl, rfl⟩

theorem Dev.declares_wf (d : Dev) (hn : n < 16) {f : Fld} (hf : f.kind = .FAB_SOMAP ∨ f.kind = .FAB_RCLK) (v : Nat) :
    d.declares (d.wf f n v) [n] :=
  Dev.declares_of_regs (d.onlyRegs_wf f v (by omega) (by obtain h | h := hf <;> simp [declRegs, h])) rfl rfl fun _ _ _ _ => rfl

theorem Dev.declares.pauses {ms : List Nat} (h : d.declares e ms) :
    d.declares (e.setLoad (fun l => { l with pauseTo := e.now + 20000 })) ms := by
  obtain ⟨c, p, hcfg⟩ := h.cfg
  refine ⟨h.regs.trans (Dev.onlyRegs_of_regs rfl), h.now, ⟨c, e.now + 20000, ?_⟩, .inr ?_, h.frames⟩
  · show { e.cfg with load := { e.cfg.load with pauseTo := e.now + 20000 } } = _
    rw [hcfg]
  · show e.now + 20000 = _
    rw [h.now]

theorem Dev.declares_declClock (d : Dev) (hn : n < 16) (new : Nat) : d.declares (d.declClock n new) [n] := by
  have hnoted := d.declares_clockNoted n new [n]
  have hclock := hnoted.trans (Dev.declares_wf _ hn (f := FAB_RCLK_FSEL) (.inr rfl) new)
  unfold Dev.declClock
  split
  · exact hnoted
  · split
    · exact hclock.pauses
    · exact hclock

theorem Dev.setLoad_fsel (d : Dev) (f : Load → Load) (m : Nat) : (d.setLoad f).fsel m = d.fsel m := rfl

theorem Dev.setLoad_keeps (d : Dev) (f : Load → Load) : (d.setLoad f).regs = d.regs ∧ (d.setLoad f).fab = d.fab := ⟨rfl, rfl⟩

/-- The declaration of a clock leaves the other registers, and the frames. -/
theorem Dev.declClock_keeps (d : Dev) (n new : Nat) (hn : n < 16) :
    d.onlyRegs (d.declClock n new) [(.FAB_RCLK, n)] ∧ (d.declClock n new).fab = d.fab := by
  obtain ⟨hregs, hfab⟩ := d.clockNoted_keeps n new
  have hclock := (Dev.onlyRegs_of_regs hregs).trans
    ((d.clockNoted n new).onlyRegs_wf FAB_RCLK_FSEL new (i := n) (l := [(.FAB_RCLK, n)]) (by omega) (by simp [FAB_RCLK_FSEL]))
  have hframes := (Dev.wf_fab (d.clockNoted n new) FAB_RCLK_FSEL n new).trans hfab
  unfold Dev.declClock
  split
  · exact ⟨Dev.onlyRegs_of_regs hregs, hfab⟩
  · split
    · obtain ⟨hregs', hfab'⟩ := ((d.clockNoted n new).wf FAB_RCLK_FSEL n new).setLoad_keeps (fun l => { l with
        pauseTo := ((d.clockNoted n new).wf FAB_RCLK_FSEL n new).now + 20000 })
      exact ⟨hclock.trans (Dev.onlyRegs_of_regs hregs'), hfab'.trans hframes⟩
    · exact ⟨hclock, hframes⟩

/-- The clock after its declaration: OFF in the frame leaves it. -/
theorem Dev.declClock_fsel (d : Dev) (n : Nat) {new : Nat} (hnew : new < 8) :
    (d.declClock n new).fsel n = if new = 0 then d.fsel n else new := by
  have hset : ((d.clockNoted n new).wf FAB_RCLK_FSEL n new).fsel n = new :=
    (Dev.rf_wf_self _ FAB_RCLK_FSEL n new (by decide)).trans (Nat.mod_eq_of_lt hnew)
  unfold Dev.declClock
  split
  · rw [Dev.fsel, Dev.rf, (d.clockNoted_keeps n new).1]
    rfl
  · split
    · rw [Dev.setLoad_fsel, hset]
    · exact hset

/-- A region that its clock powers holds the frames up for 20 us (R254). -/
theorem Dev.declClock_pause {d : Dev} {n new : Nat} (hoff : d.fsel n = 0) (hon : new ≠ 0) :
    (d.declClock n new).cfg.load.pauseTo = d.now + 20000 := by
  have hnow : ((d.clockNoted n new).wf FAB_RCLK_FSEL n new).now = d.now := (d.declares_clockNoted n new []).now
  rw [Dev.declClock, if_neg hon, if_pos hoff, Dev.setLoad, Dev.setCfg_cfg, hnow]

end

/-! The output port sources and the delay -/

/-- The sources of the output ports of a region and its delay are declared. -/
def Dev.declMap (d : Dev) (n f0 : Nat) : Dev :=
  ((List.range 4).foldl (fun d p => d.wf (FAB_SOMAP_MSRC p) n (bitsOf f0 (56 + 32 * p) 4)) d).wf FAB_SOMAP_EDLY n (bitsOf f0 3 6)

section

variable (d : Dev) {n : Nat} (f0 : Nat)

theorem Dev.declares_declMap (hn : n < 16) : d.declares (d.declMap n f0) [n] :=
  (foldl_keeps (fun e => d.declares e [n]) _ _ d (d.declares_refl [n]) fun e p _ he =>
    he.trans (e.declares_wf hn (f := FAB_SOMAP_MSRC p) (.inl rfl) _)).trans
    (Dev.declares_wf _ hn (f := FAB_SOMAP_EDLY) (.inl rfl) _)

theorem Dev.declMap_fab : (d.declMap n f0).fab = d.fab :=
  (Dev.wf_fab _ _ _ _).trans (foldl_keeps (fun e : Dev => e.fab = d.fab) _ _ d rfl fun e _ _ he => (e.wf_fab _ _ _).trans he)

theorem Dev.declMap_fsel (hn : n < 16) : (d.declMap n f0).fsel n = d.fsel n :=
  (Dev.rf_wf_kind _ FAB_SOMAP_EDLY FAB_RCLK_FSEL _ (by decide) (by omega) (by omega)).trans
    (foldl_keeps (fun e : Dev => e.rf FAB_RCLK_FSEL n = d.rf FAB_RCLK_FSEL n) _ _ d rfl fun e p _ he =>
      (e.rf_wf_kind (FAB_SOMAP_MSRC p) FAB_RCLK_FSEL _ (by simp [FAB_SOMAP_MSRC, FAB_RCLK_FSEL]) (by omega) (by omega)).trans he)

theorem Dev.declMap_delay : (d.declMap n f0).rf FAB_SOMAP_EDLY n = bitsOf f0 3 6 :=
  (Dev.rf_wf_self _ _ _ _ (by decide)).trans (Nat.mod_eq_of_lt (bitsOf_lt f0 3 6))

theorem Dev.declMap_source {p : Nat} (hp : p < 4) : (d.declMap n f0).rf (FAB_SOMAP_MSRC p) n = bitsOf f0 (56 + 32 * p) 4 := by
  obtain ⟨before, after, heq, -, hlater, -, hafter⟩ := foldl_turn
    (fun d p => d.wf (FAB_SOMAP_MSRC p) n (bitsOf f0 (56 + 32 * p) 4)) d List.nodup_range (List.mem_range.mpr hp)
  rw [Dev.declMap, heq, Dev.rf_wf_bits _ FAB_SOMAP_EDLY (FAB_SOMAP_MSRC p) _ _ rfl (by decide)
    (by simp only [FAB_SOMAP_MSRC, FAB_SOMAP_EDLY]; omega)]
  refine foldl_keeps (fun e : Dev => e.rf (FAB_SOMAP_MSRC p) n = bitsOf f0 (56 + 32 * p) 4) _ after _ ?_ fun e q hq he => ?_
  · exact (Dev.rf_wf_self _ _ _ _ (by simp only [FAB_SOMAP_MSRC]; omega)).trans (Nat.mod_eq_of_lt (bitsOf_lt f0 _ 4))
  · have hq4 : q < 4 := List.mem_range.mp (hafter hq)
    have hne : q ≠ p := fun h => hlater (h ▸ hq)
    exact (e.rf_wf_bits (FAB_SOMAP_MSRC q) (FAB_SOMAP_MSRC p) n _ rfl (by simp only [FAB_SOMAP_MSRC]; omega)
      (by simp only [FAB_SOMAP_MSRC]; omega)).trans he

end

/-! A region, and the halves of a pair -/

/-- The declarations `l` of region `m` have been written. -/
structure Dev.declared (d e : Dev) (m : Nat) (l : List Nat) : Prop where
  frames : ∀ k, k < 16 → e.frame (ifFrameAddr m k) = l.getD k 0
  delay : e.rf FAB_SOMAP_EDLY m = bitsOf (l.getD 0 0) 3 6
  sources : ∀ p, p < 4 → e.rf (FAB_SOMAP_MSRC p) m = bitsOf (l.getD 0 0) (56 + 32 * p) 4
  clock : e.fsel m = if bitsOf (l.getD 0 0) 0 3 = 0 then d.fsel m else bitsOf (l.getD 0 0) 0 3
  pause : d.fsel m = 0 → bitsOf (l.getD 0 0) 0 3 ≠ 0 → e.cfg.load.pauseTo = d.now + 20000
  now : e.now = d.now

theorem Dev.regionDeclare_eq (d : Dev) (n : Nat) (l : List Nat) : d.regionDeclare n l =
    ((d.declFrames n l).declMap n (l.getD 0 0)).declClock n (bitsOf (l.getD 0 0) 0 3) := rfl

section

variable {d e e' : Dev} {n m : Nat} {l ms ns : List Nat}

theorem Dev.declares_declFrames (d : Dev) (hl : l.length = 16) : d.declares (d.declFrames n l) [n] := by
  obtain ⟨hregs, hcfg, hnow⟩ := d.besides_declFrames n l
  exact Dev.declares_of_regs (Dev.onlyRegs_of_regs hregs) hnow hcfg fun m k hm hk =>
    d.frame_declFrames_ne hl hk (by simpa using hm)

theorem Dev.declares_regionDeclare (d : Dev) (hn : n < 16) (hl : l.length = 16) : d.declares (d.regionDeclare n l) [n] := by
  rw [Dev.regionDeclare_eq]
  exact ((d.declares_declFrames hl).trans (Dev.declares_declMap _ _ hn)).trans (Dev.declares_declClock _ hn _)

theorem Dev.frame_of_fab (h : e.fab = d.fab) (a : Nat) : e.frame a = d.frame a := by rw [Dev.frame, h, Dev.frame]

/-- What a declaration writes. -/
theorem Dev.declared_regionDeclare (d : Dev) (hn : n < 16) (hl : l.length = 16) : d.declared (d.regionDeclare n l) n l := by
  rw [Dev.regionDeclare_eq]
  have hframes := d.declares_declFrames (n := n) hl
  have hfsel : (d.declFrames n l).fsel n = d.fsel n := by rw [Dev.fsel, Dev.rf, (d.besides_declFrames n l).1]; rfl
  have hmapped (k : Nat) (hk : k < 16) := d.frame_declFrames (n := n) hl hk
  generalize d.declFrames n l = e at hframes hfsel hmapped ⊢
  obtain ⟨hregs, hfab⟩ := (e.declMap n (l.getD 0 0)).declClock_keeps n (bitsOf (l.getD 0 0) 0 3) hn
  have hmap := e.declMap_fsel (l.getD 0 0) hn
  have hnow := (e.declares_declMap (l.getD 0 0) hn).now
  refine ⟨fun k hk => ?_, ?_, fun p hp => ?_, ?_, fun hoff hon => ?_, ?_⟩
  · rw [Dev.frame_of_fab hfab, Dev.frame_of_fab (e.declMap_fab _), hmapped k hk]
  · exact (hregs.rf (by omega) (by simp [FAB_SOMAP_EDLY])).trans (e.declMap_delay _)
  · exact (hregs.rf (by omega) (by simp [FAB_SOMAP_MSRC])).trans (e.declMap_source _ hp)
  · rw [Dev.declClock_fsel _ n (bitsOf_lt _ 0 3), hmap, hfsel]
  · rw [Dev.declClock_pause (by rw [hmap, hfsel, hoff]) hon, hnow, hframes.now]
  · rw [(Dev.declares_declClock _ hn _).now, hnow, hframes.now]

/-- What is declared of a region stays while others are declared before and after it. -/
theorem Dev.declared.between {d' : Dev} (h : d'.declared e m l) (hm : m < 65536) (hbefore : d.declares d' ms) (hms : m ∉ ms)
    (hafter : e.declares e' ns) (hns : m ∉ ns) : d.declared e' m l := by
  have hold : d'.fsel m = d.fsel m := hbefore.rf hms hm FAB_RCLK_FSEL
  refine ⟨fun k hk => (hafter.frames m k hns hk).trans (h.frames k hk), (hafter.rf hns hm _).trans h.delay,
    fun p hp => (hafter.rf hns hm _).trans (h.sources p hp), ?_, fun hoff hon => ?_,
    hafter.now.trans (h.now.trans hbefore.now)⟩
  · rw [← hold]
    exact (hafter.rf hns hm FAB_RCLK_FSEL).trans h.clock
  · have hpause := h.pause (hold.trans hoff) hon
    have hnow : e.now = d'.now := h.now
    rw [← hbefore.now]
    exact hafter.pause.elim (fun hkept => hkept.trans hpause) fun hlater => by rw [hlater, hnow]

/-- The declarations of some regions. -/
theorem Dev.declares_regions (d : Dev) (hms : ∀ m ∈ ms, m < 16) (hl : l.length = 16) :
    d.declares (ms.foldl (fun d m => d.regionDeclare m l) d) ms :=
  foldl_keeps (fun e => d.declares e ms) (fun d m => d.regionDeclare m l) ms d (d.declares_refl ms) fun e m hm he =>
    he.trans ((e.declares_regionDeclare (hms m hm) hl).mono (by simpa using hm))

theorem Dev.declared_regions (d : Dev) (hms : ∀ m ∈ ms, m < 16) (hnd : ms.Nodup) (hl : l.length = 16) (hm : m ∈ ms) :
    d.declared (ms.foldl (fun d m => d.regionDeclare m l) d) m l := by
  obtain ⟨before, after, heq, hbefore, hafter, hbsub, hasub⟩ := foldl_turn (fun d m => d.regionDeclare m l) d hnd hm
  have hm16 := hms m hm
  rw [heq]
  exact (Dev.declared_regionDeclare _ hm16 hl).between (by omega) (d.declares_regions (fun x hx => hms x (hbsub hx)) hl) hbefore
    (Dev.declares_regions _ (fun x hx => hms x (hasub hx)) hl) hafter

end

end Sys2Proof.Machine
end

section
/-! SUPPORT. The row of REGION_BEGIN (R253, R254, R301, R310). -/

namespace Sys2Proof.Machine

/-- A load that fails after the check of the set fails for the state before it. -/
theorem State.setPassed.loadFailed_loadFails {s x : State} (h : s.setPassed x) (hfull : s.dev.cfg.load.partialLoad = false)
    {f : Cfg → Cfg} (hf : ∀ c, (f c).load.partialLoad = c.load.partialLoad) (r : Nat) (a : Option Nat) :
    s.loadFailed (State.loadFails { x with dev := x.dev.setCfg f } r a) r := by
  have hpart : (x.dev.setCfg f).cfg.load.partialLoad = false := (hf x.dev.cfg).trans (h.partialLoad.trans hfull)
  exact h.loadFailed (State.loadFailed_from (x := { x with dev := x.dev.setCfg f }) ⟨rfl, rfl⟩ (fun _ _ _ _ => rfl) rfl rfl
    (State.loadFailed_loadFails hpart r a))

/-! The words of a section's begin -/

/-- The interface frames that a REGION_BEGIN packet carries, with their check words. -/
def beginFrames (ws : List Nat) : List (Nat × Nat) := (List.range 16).map (fun k => frameAt (ws.drop 1) k)

/-- Their payloads. -/
def beginPayloads (ws : List Nat) : List Nat := (beginFrames ws).map (fun f => f.1)

theorem beginPayloads_length (ws : List Nat) : (beginPayloads ws).length = 16 := by simp [beginPayloads, beginFrames]

theorem beginPayloads_getD (ws : List Nat) {k : Nat} (hk : k < 16) : (beginPayloads ws).getD k 0 = (frameAt (ws.drop 1) k).1 := by
  simp [beginPayloads, beginFrames, hk]

/-! The section is open -/

/-- The load has its region, and its sections go on. -/
def Load.opens (n : Nat) (l : Load) : Load := { l with region := some n, seen := setBit l.seen n true, order := 3 }

theorem Load.opens_image (n : Nat) (l : Load) : (l.opens n).image = l.image := rfl

/-- What the packet leaves of the load, and what it does not touch. -/
theorem Dev.opened_load (e : Dev) (n len : Nat) : ((e.setLoad (Load.opens n)).taken len).cfg.load.setDone = e.cfg.load.setDone ∧
    ((e.setLoad (Load.opens n)).taken len).cfg.load.region = some n ∧
    ((e.setLoad (Load.opens n)).taken len).cfg.load.seen = setBit e.cfg.load.seen n true := ⟨rfl, rfl, rfl⟩

theorem Dev.declared.opened {d e : Dev} {m : Nat} {l : List Nat} (h : d.declared e m l) (n len : Nat) :
    d.declared ((e.setLoad (Load.opens n)).taken len) m l :=
  ⟨h.frames, h.delay, h.sources, h.clock, h.pause, h.now⟩

/-- What is declared after the check of the set is declared to the state before it. -/
theorem Dev.declared.from {s x : State} {e : Dev} {m : Nat} {l : List Nat} (h : x.dev.declared e m l) (hx : s.setPassed x)
    (hm : m < 65536) : s.dev.declared e m l := by
  have hfsel := hx.fsel hm
  refine ⟨h.frames, h.delay, h.sources, ?_, fun hoff hon => ?_, h.now.trans hx.now⟩
  · rw [← hfsel]
    exact h.clock
  · rw [← hx.now]
    exact h.pause (hfsel.trans hoff) hon

section

variable {s : State} {ws : List Nat} (hpacket : s.dev.packetOf 3 = some ws)
include hpacket

/-- Where the set does not pass its check, its failure is all there is. -/
theorem State.regionBegin_unset (hcheck : s.setCheck.2 = false) : s.regionBegin = s.setCheck.1 := by
  rw [State.regionBegin, hpacket]
  dsimp only
  rw [if_pos hcheck]

variable (hcheck : s.setCheck.2 = true) (hpart : s.setCheck.1.dev.cfg.load.partialLoad = false)
include hcheck hpart

theorem State.regionBegin_sound
    (hsound : s.setCheck.1.dev.beginFault (ws.headD 0 % 16) (beginFrames ws) = none) :
    s.regionBegin = State.packetTaken { s.setCheck.1 with
      dev := ((s.setCheck.1.dev.halves (ws.headD 0 % 16)).foldl (fun d m => d.regionDeclare m (beginPayloads ws))
        s.setCheck.1.dev).setLoad (Load.opens (ws.headD 0 % 16)) } 529 := by
  have hsound' : s.setCheck.1.dev.beginFault (ws.headD 0 % 16) ((List.range 16).map (fun k => frameAt (ws.drop 1) k)) = none := hsound
  rw [State.regionBegin, hpacket]
  dsimp only
  rw [if_neg (by simp [hcheck]), if_neg (by simp [hpart]), hsound']
  dsimp only
  rw [if_neg (by simp [hpart])]
  rfl

theorem State.regionBegin_faulty {r : Nat} {a : Option Nat}
    (hfault : s.setCheck.1.dev.beginFault (ws.headD 0 % 16) (beginFrames ws) = some (r, a)) :
    s.regionBegin = State.loadFails { s.setCheck.1 with
      dev := s.setCheck.1.dev.setLoad (fun l => { l with region := some (ws.headD 0 % 16) }) } r a := by
  have hfault' : s.setCheck.1.dev.beginFault (ws.headD 0 % 16) ((List.range 16).map (fun k => frameAt (ws.drop 1) k)) =
    some (r, a) := hfault
  rw [State.regionBegin, hpacket]
  dsimp only
  rw [if_neg (by simp [hcheck]), if_neg (by simp [hpart]), hfault']

end

/-! The row -/

section

variable {s : State} (hlive : s.dev.live 3 = true) {ws : List Nat} (hpacket : s.dev.packetOf 3 = some ws)
  (hfull : s.dev.cfg.load.partialLoad = false)
include hlive hpacket hfull

theorem exec_regionBegin_unset {r : Nat} (hdone : s.dev.cfg.load.setDone = false)
    (hset : s.dev.setFault s.dev.cfg.load.held = some r) : ∃ t, exec .regionBegin s = .next t ∧ s.loadFailed t r := by
  have hcheck := State.setCheck_failed hfull hdone hset
  have heq : s.regionBegin = s.loadFails r none := by
    rw [State.regionBegin_unset hpacket (by rw [hcheck]), hcheck]
  exact ⟨_, (State.within_live hlive).trans (congrArg _ heq), State.loadFailed_loadFails hfull r none⟩

variable (hcheck : s.setCheck.2 = true)
include hcheck

theorem exec_regionBegin_faulty {r : Nat} {a : Option Nat}
    (hfault : s.setCheck.1.dev.beginFault (ws.headD 0 % 16) (beginFrames ws) = some (r, a)) :
    ∃ t, exec .regionBegin s = .next t ∧ s.loadFailed t r := by
  have hpassed := State.setCheck_passed hfull hcheck
  refine ⟨_, (State.within_live hlive).trans (congrArg _
    (State.regionBegin_faulty hpacket hcheck (hpassed.partialLoad.trans hfull) hfault)), ?_⟩
  exact hpassed.loadFailed_loadFails hfull
    (f := fun c => { c with load := { c.load with region := some (ws.headD 0 % 16) } }) (fun _ => rfl) r a

theorem exec_regionBegin_opens (hlone : s.dev.lonePacket 530)
    (hsound : s.setCheck.1.dev.beginFault (ws.headD 0 % 16) (beginFrames ws) = none) :
    ∃ t, exec .regionBegin s = .next t ∧ s.setCheck.1.onlyRegs t (declRegs (s.dev.halves (ws.headD 0 % 16))) ∧
      (s.dev.cfg.load.setDone = true → s.setCheck.1 = s) ∧ t.dev.cfg.load.setDone = true ∧
      t.dev.cfg.load.region = some (ws.headD 0 % 16) ∧ tbit t.dev.cfg.load.seen (ws.headD 0 % 16) = true ∧
      s.dev.pastPacket t.dev 530 ∧ ∀ m, m ∈ s.dev.halves (ws.headD 0 % 16) → s.dev.declared t.dev m (beginPayloads ws) := by
  have hpassed := State.setCheck_passed hfull hcheck
  have heq := State.regionBegin_sound hpacket hcheck (hpassed.partialLoad.trans hfull) hsound
  have hhalves : s.setCheck.1.dev.halves (ws.headD 0 % 16) = s.dev.halves (ws.headD 0 % 16) := by
    rw [Dev.halves, hpassed.paired, Dev.halves]
  rw [hhalves] at heq
  have hlt := Dev.halves_lt (d := s.dev) (n := ws.headD 0 % 16) (Nat.mod_lt _ (by decide))
  have hnd := s.dev.halves_nodup (ws.headD 0 % 16)
  generalize s.dev.halves (ws.headD 0 % 16) = ms at heq hlt hnd ⊢
  generalize ws.headD 0 % 16 = n at heq
  have hlen := beginPayloads_length ws
  have hdecl := s.setCheck.1.dev.declares_regions hlt hlen
  have hmine (m : Nat) (hm : m ∈ ms) := s.setCheck.1.dev.declared_regions hlt hnd hlen hm
  generalize ms.foldl (fun d m => d.regionDeclare m (beginPayloads ws)) s.setCheck.1.dev = e at heq hdecl hmine
  obtain ⟨htaken, hpast⟩ := s.setCheck.1.packetTaken_setLoad (len := 529) (f := Load.opens n) hlone
    (hdecl.image.trans hpassed.image) (Load.opens_image n)
  obtain ⟨hdone, hregion, hseen⟩ := e.opened_load n 529
  refine ⟨_, (State.within_live hlive).trans (congrArg _ (heq.trans htaken)), ⟨⟨rfl, rfl⟩, ?_⟩, hpassed.once, ?_, hregion, ?_, hpast,
    fun m hm => ?_⟩
  · exact hdecl.regs.trans (Dev.onlyRegs_of_regs (Dev.taken_setLoad_regs _ _ _))
  · exact hdone.trans (hdecl.setDone.trans hpassed.setDone)
  · rw [hseen]
    exact tbit_setBit_self _ _ _
  · exact ((hmine m hm).opened n 529).from hpassed (by have := hlt m hm; omega)

end

end Sys2Proof.Machine
end

section
/-! SUPPORT. The end of an image: CHECK and TAG (R302, R312, R314). -/

namespace Sys2Proof.Machine

/-! A verified image -/

/-- The load is over: its image has verified. -/
def Dev.imageOver (d : Dev) (h : ImgHdr) (len : Nat) : Dev :=
  ((d.setCfg (fun c => { c with chainWait := h.chained })).setLoad (fun l => { l with
    body := l.body ++ l.words.take (1 + len), words := [], pos := l.pos + 4 * (1 + len) })).setLoad (fun l => { l with
      isOpen := false, verified := true })

/-- The start-up follows, or the wait for CFGDONE. -/
def Dev.goesOn (d : Dev) (donewait : Bool) : Dev := if donewait then d.releaseDone.setCfgState csSYNC else d.startupBegins

section

variable (d : Dev)

theorem Dev.imageOver_keeps (h : ImgHdr) (len : Nat) : (d.imageOver h len).regs = d.regs ∧
    (d.imageOver h len).cfg.load.setDone = d.cfg.load.setDone ∧ (d.imageOver h len).cfg.load.verified = true ∧
    (d.imageOver h len).cfg.load.isOpen = false ∧ (d.imageOver h len).cfg.chainWait = h.chained := ⟨rfl, rfl, rfl, rfl, rfl⟩

theorem Dev.setCfgState_keeps (st : Nat) (hst : st < 16) : d.onlyRegs (d.setCfgState st) [(.CFG_STATUS, 0)] ∧
    (d.setCfgState st).cfg.load = d.cfg.load ∧ (d.setCfgState st).cfg.chainWait = d.cfg.chainWait ∧
    (d.setCfgState st).cfg.cfgdonePull = d.cfg.cfgdonePull ∧ (d.setCfgState st).cfgState = st := by
  have hcfg := d.wf_cfg CFG_STATUS_STATE 0 st
  refine ⟨?_, ?_, ?_, ?_, ?_⟩
  · exact (d.onlyRegs_wf CFG_STATUS_STATE st (by decide) (by simp [CFG_STATUS_STATE])).trans
      (Dev.onlyRegs_of_regs (Dev.setCfg_regs _ _))
  · rw [Dev.setCfgState, Dev.setCfg_cfg, hcfg]
  · rw [Dev.setCfgState, Dev.setCfg_cfg, hcfg]
  · rw [Dev.setCfgState, Dev.setCfg_cfg, hcfg]
  · rw [Dev.setCfgState, Dev.cfgState, Dev.setCfg_rf, Dev.rf_wf_self _ _ _ _ (by decide)]
    exact Nat.mod_eq_of_lt hst

/-- CFGDONE is released, and the engine waits for it. -/
theorem Dev.goesOn_sync : d.onlyRegs (d.goesOn true) [(.CFG_STATUS, 0), (.CFG_STARTUP, 0)] ∧
    (d.goesOn true).cfg.load = d.cfg.load ∧ (d.goesOn true).cfg.chainWait = d.cfg.chainWait ∧
    (d.goesOn true).cfgState = csSYNC ∧ (d.goesOn true).cfg.cfgdonePull = false := by
  obtain ⟨hregs, hload, hchain, hpull, hstate⟩ := d.releaseDone.setCfgState_keeps csSYNC (by decide)
  exact ⟨((Dev.onlyRegs_of_regs rfl).trans hregs).mono (by simp), hload, hchain, hstate, hpull⟩

/-- The start-up order begins at its first step. -/
theorem Dev.goesOn_startup : d.onlyRegs (d.goesOn false) [(.CFG_STATUS, 0), (.CFG_STARTUP, 0)] ∧
    (d.goesOn false).cfg.load = d.cfg.load ∧ (d.goesOn false).cfg.chainWait = d.cfg.chainWait ∧
    (d.goesOn false).cfgState = csSTARTUP ∧ (d.goesOn false).rf CFG_STARTUP_NEXT 0 = 0 := by
  obtain ⟨hregs, hload, hchain, -, hstate⟩ := d.setCfgState_keeps csSTARTUP (by decide)
  have heq : d.goesOn false = ((d.setCfgState csSTARTUP).wf CFG_STARTUP_NEXT 0 0).setCfg
    (fun c => { c with starting := d.now, recorded := [] }) := rfl
  have hnext := (d.setCfgState csSTARTUP).onlyRegs_wf CFG_STARTUP_NEXT 0 (i := 0) (l := [(.CFG_STARTUP, 0)]) (by decide)
    (by simp [CFG_STARTUP_NEXT])
  rw [heq]
  refine ⟨?_, ?_, ?_, ?_, ?_⟩
  · exact ((hregs.mono (by simp)).trans (hnext.mono (by simp))).trans (Dev.onlyRegs_of_regs (Dev.setCfg_regs _ _))
  · rw [Dev.setCfg_cfg, Dev.wf_cfg]
    exact hload
  · rw [Dev.setCfg_cfg, Dev.wf_cfg]
    exact hchain
  · rw [Dev.cfgState, Dev.setCfg_rf]
    exact (hnext.rf (by decide) (by simp [CFG_STATUS_STATE])).trans hstate
  · rw [Dev.setCfg_rf]
    exact Dev.rf_wf_self _ _ _ _ (by decide)

end

/-- What a verified image leaves, `x` being the state with the set of device frames written. -/
structure State.imageVerified (s x t : State) (h : ImgHdr) : Prop where
  regs : x.onlyRegs t [(.CFG_STATUS, 0), (.CFG_STARTUP, 0)]
  once : s.dev.cfg.load.setDone = true → x = s
  setDone : t.dev.cfg.load.setDone = true
  verified : t.dev.cfg.load.verified = true
  isOpen : t.dev.cfg.load.isOpen = false
  chain : t.dev.cfg.chainWait = h.chained
  sync : h.donewait = true → t.dev.cfgState = csSYNC ∧ t.dev.cfg.cfgdonePull = false
  startup : h.donewait = false → t.dev.cfgState = csSTARTUP ∧ t.dev.rf CFG_STARTUP_NEXT 0 = 0

section

variable {s x : State} {d e : Dev} {h : ImgHdr} (hx : s.setPassed x)
include hx

theorem State.imageVerified_of (hregs : x.dev.onlyRegs e [(.CFG_STATUS, 0), (.CFG_STARTUP, 0)]) (hload : e.cfg.load = d.cfg.load)
    (hwaits : e.cfg.chainWait = d.cfg.chainWait) (hdone : d.cfg.load.setDone = true) (hver : d.cfg.load.verified = true)
    (hopen : d.cfg.load.isOpen = false) (hchain : d.cfg.chainWait = h.chained)
    (hsync : h.donewait = true → e.cfgState = csSYNC ∧ e.cfg.cfgdonePull = false)
    (hstart : h.donewait = false → e.cfgState = csSTARTUP ∧ e.rf CFG_STARTUP_NEXT 0 = 0) :
    s.imageVerified x { x with dev := e } h :=
  ⟨⟨⟨rfl, rfl⟩, hregs⟩, hx.once, (congrArg Load.setDone hload).trans hdone, (congrArg Load.verified hload).trans hver,
    (congrArg Load.isOpen hload).trans hopen, hwaits.trans hchain, hsync, hstart⟩

theorem State.imageVerified_goesOn (hregs : d.regs = x.dev.regs) (hdone : d.cfg.load.setDone = true)
    (hver : d.cfg.load.verified = true) (hopen : d.cfg.load.isOpen = false) (hchain : d.cfg.chainWait = h.chained) :
    s.imageVerified x { x with dev := d.goesOn h.donewait } h := by
  cases hwait : h.donewait with
  | true =>
    obtain ⟨hsync, hload, hwaits, hends⟩ := d.goesOn_sync
    exact State.imageVerified_of hx ((Dev.onlyRegs_of_regs hregs).trans hsync) hload hwaits hdone hver hopen hchain (fun _ => hends)
      fun hno => absurd (hwait.symm.trans hno) (by simp)
  | false =>
    obtain ⟨hstart, hload, hwaits, hends⟩ := d.goesOn_startup
    exact State.imageVerified_of hx ((Dev.onlyRegs_of_regs hregs).trans hstart) hload hwaits hdone hver hopen hchain
      (fun hyes => absurd (hwait.symm.trans hyes) (by simp)) fun _ => hends

end

/-! The end packet -/

section

variable {s : State} {h : ImgHdr} (hfull : s.dev.cfg.load.partialLoad = false) (hhdr : s.dev.cfg.load.hdr = some h)
include hfull

theorem State.imageEnds_unset {r : Nat} (hdone : s.dev.cfg.load.setDone = false)
    (hset : s.dev.setFault s.dev.cfg.load.held = some r) (good : Bool) (reason len : Nat) :
    s.loadFailed (s.imageEnds good reason len) r := by
  have heq : s.imageEnds good reason len = s.loadFails r none := by
    rw [State.imageEnds, State.setCheck_failed hfull hdone hset]
    exact if_pos rfl
  rw [heq]
  exact State.loadFailed_loadFails hfull r none

variable {x : State} (hcheck : s.setCheck = (x, true)) (hx : s.setPassed x)
include hhdr hcheck hx

omit hfull hcheck in
theorem State.setPassed_hdr : x.dev.cfg.load.hdr = some h := by
  have himage := hx.image
  simp only [Load.image, Prod.mk.injEq] at himage
  obtain ⟨-, -, -, hsame⟩ := himage
  exact hsame.trans hhdr

/-- An image that verifies. -/
theorem State.imageEnds_good (reason len : Nat) : s.imageVerified x (s.imageEnds true reason len) h := by
  have hpart : (x.dev.imageOver h len).cfg.load.partialLoad = false := hx.partialLoad.trans hfull
  have heq : s.imageEnds true reason len = { x with dev := (x.dev.imageOver h len).goesOn h.donewait } := by
    rw [State.imageEnds, hcheck]
    dsimp only
    rw [if_neg (by simp), State.setPassed_hdr hhdr hx]
    dsimp only
    rw [if_neg (by simp), State.verified]
    exact if_neg (by rw [Bool.not_eq_true]; exact hpart)
  obtain ⟨hregs, hdone, hver, hopen, hchain⟩ := x.dev.imageOver_keeps h len
  rw [heq]
  exact State.imageVerified_goesOn hx hregs (hdone.trans hx.setDone) hver hopen hchain

/-- An image that does not. -/
theorem State.imageEnds_bad (reason len : Nat) : s.loadFailed (s.imageEnds false reason len) reason := by
  have heq : s.imageEnds false reason len =
      State.loadFails { x with dev := x.dev.setCfg (fun c => { c with chainWait := h.chained }) } reason none := by
    rw [State.imageEnds, hcheck]
    dsimp only
    rw [if_neg (by simp), State.setPassed_hdr hhdr hx]
    exact if_pos rfl
  rw [heq]
  exact hx.loadFailed_loadFails hfull (f := fun c => { c with chainWait := h.chained }) (fun _ => rfl) reason none

end

/-! CHECK and TAG -/

section

variable {s : State} {ws : List Nat}

theorem State.check_eq (hpacket : s.dev.packetOf 7 = some ws) :
    s.check = s.imageEnds (decide (ws.headD 0 = crcWords s.dev.cfg.load.body)) rnCHECK_FAIL 1 := by
  rw [State.check, hpacket]

theorem State.tag_eq {h : ImgHdr} (hpacket : s.dev.packetOf 9 = some ws) (hhdr : s.dev.cfg.load.hdr = some h) :
    s.tag = s.imageEnds (decide (wordBytes ws = gcmTag (s.dev.imageKey h) s.dev.cfg.load.iv (wordBytes s.dev.cfg.load.head)
      (wordBytes s.dev.cfg.load.body))) rnTAG_FAIL 4 := by
  rw [State.tag, hpacket, hhdr]

end

section

variable {s : State} {ws : List Nat} {h : ImgHdr} (hlive : s.dev.live 3 = true) (hfull : s.dev.cfg.load.partialLoad = false)
include hlive hfull

theorem exec_check_unset {r : Nat} (hpacket : s.dev.packetOf 7 = some ws) (hdone : s.dev.cfg.load.setDone = false)
    (hset : s.dev.setFault s.dev.cfg.load.held = some r) : ∃ t, exec .check s = .next t ∧ s.loadFailed t r :=
  ⟨_, (State.within_live hlive).trans (congrArg _ (State.check_eq hpacket)), State.imageEnds_unset hfull hdone hset _ _ _⟩

variable (hhdr : s.dev.cfg.load.hdr = some h) (hcheck : s.setCheck.2 = true)
include hhdr hcheck

omit hlive in
theorem State.imageEnds_judged (reason len : Nat) : s.imageVerified s.setCheck.1 (s.imageEnds true reason len) h ∧
    s.loadFailed (s.imageEnds false reason len) reason :=
  have hpassed := State.setCheck_passed hfull hcheck
  have hpair : s.setCheck = (s.setCheck.1, true) := Prod.ext rfl hcheck
  ⟨State.imageEnds_good hfull hhdr hpair hpassed reason len, State.imageEnds_bad hfull hhdr hpair hpassed reason len⟩

theorem exec_check_good (hpacket : s.dev.packetOf 7 = some ws) (hgood : ws.headD 0 = crcWords s.dev.cfg.load.body) :
    ∃ t, exec .check s = .next t ∧ s.imageVerified s.setCheck.1 t h := by
  have heq := State.check_eq hpacket
  rw [decide_eq_true hgood] at heq
  exact ⟨_, (State.within_live hlive).trans (congrArg _ heq), (State.imageEnds_judged hfull hhdr hcheck _ _).1⟩

theorem exec_check_bad (hpacket : s.dev.packetOf 7 = some ws) (hbad : ws.headD 0 ≠ crcWords s.dev.cfg.load.body) :
    ∃ t, exec .check s = .next t ∧ s.loadFailed t 11 := by
  have heq := State.check_eq hpacket
  rw [decide_eq_false hbad] at heq
  exact ⟨_, (State.within_live hlive).trans (congrArg _ heq), (State.imageEnds_judged hfull hhdr hcheck rnCHECK_FAIL 1).2⟩

theorem exec_tag_good (hpacket : s.dev.packetOf 9 = some ws)
    (hgood : wordBytes ws = gcmTag (s.dev.imageKey h) s.dev.cfg.load.iv (wordBytes s.dev.cfg.load.head)
      (wordBytes s.dev.cfg.load.body)) : ∃ t, exec .tag s = .next t ∧ s.imageVerified s.setCheck.1 t h := by
  have heq := State.tag_eq hpacket hhdr
  rw [decide_eq_true hgood] at heq
  exact ⟨_, (State.within_live hlive).trans (congrArg _ heq), (State.imageEnds_judged hfull hhdr hcheck _ _).1⟩

theorem exec_tag_bad (hpacket : s.dev.packetOf 9 = some ws)
    (hbad : ¬ wordBytes ws = gcmTag (s.dev.imageKey h) s.dev.cfg.load.iv (wordBytes s.dev.cfg.load.head)
      (wordBytes s.dev.cfg.load.body)) : ∃ t, exec .tag s = .next t ∧ s.loadFailed t 12 := by
  have heq := State.tag_eq hpacket hhdr
  rw [decide_eq_false hbad] at heq
  exact ⟨_, (State.within_live hlive).trans (congrArg _ heq), (State.imageEnds_judged hfull hhdr hcheck rnTAG_FAIL 4).2⟩

end

end Sys2Proof.Machine
end

section
/-! SUPPORT. The packets of an image (R253, R266, R300, R302, R310 to R314). -/

namespace Sys2Proof.Machine

/-- What is declared of a region, told of the words of its packet. -/
theorem Dev.declared.words {d e : Dev} {m : Nat} {ws : List Nat} (h : d.declared e m (beginPayloads ws)) :
    (∀ k, k < 16 → e.frame (ifFrameAddr m k) = (frameAt (ws.drop 1) k).1) ∧
    e.rf FAB_SOMAP_EDLY m = bitsOf (frameAt (ws.drop 1) 0).1 3 6 ∧
    (∀ p, p < 4 → e.rf (FAB_SOMAP_MSRC p) m = bitsOf (frameAt (ws.drop 1) 0).1 (56 + 32 * p) 4) ∧
    e.fsel m = (if bitsOf (frameAt (ws.drop 1) 0).1 0 3 = 0 then d.fsel m else bitsOf (frameAt (ws.drop 1) 0).1 0 3) ∧
    (d.fsel m = 0 → bitsOf (frameAt (ws.drop 1) 0).1 0 3 ≠ 0 → e.cfg.load.pauseTo = d.now + 20000) := by
  have hfirst : (beginPayloads ws).getD 0 0 = (frameAt (ws.drop 1) 0).1 := beginPayloads_getD ws (by decide)
  obtain ⟨hframes, hdelay, hsources, hclock, hpause, -⟩ := h
  rw [hfirst] at hdelay hsources hclock hpause
  exact ⟨fun k hk => (hframes k hk).trans (beginPayloads_getD ws hk), hdelay, hsources, hclock, hpause⟩

/-- Settles O46: the header by what it sets, the packets by what they leave once they are taken, REGION_BEGIN by the check of the set
and the walk over the halves, CHECK and TAG by the end of the image, and every failure by what that of a full load ends in. -/
theorem imagePackets : Obligations.ImagePackets := by
  unfold Obligations.ImagePackets
  refine ⟨fun s hlive => ⟨fun hopen hhdr hlen hhost hfull => ⟨?_, ?_⟩, fun ws hpacket hfull => ⟨?_, ?_⟩, ?_,
    fun ws n hpacket hn hfull hlone => ?_⟩, fun s ws h hlive hfull hhdr => ⟨fun hpacket => ⟨?_, ?_, ?_⟩, fun hpacket hcheck => ⟨?_, ?_⟩⟩⟩
  · exact exec_imageHeader_accepted hopen hhdr hlen hlive hfull hhost
  · exact fun r => exec_imageHeader_refused hopen hhdr hlen hlive hfull
  · exact exec_startupOrder_good hlive hpacket hfull
  · exact exec_startupOrder_bad hlive hpacket hfull
  · exact exec_regionEnd_closes hlive
  · subst hn
    refine ⟨fun r => exec_regionBegin_unset hlive hpacket hfull, fun hcheck hsound => ?_,
      fun r a hcheck => exec_regionBegin_faulty hlive hpacket hfull hcheck⟩
    obtain ⟨t, hexec, hregs, honce, hdone, hregion, hseen, hpast, hdecl⟩ :=
      exec_regionBegin_opens hlive hpacket hfull hcheck hlone hsound
    exact ⟨t, hexec, hregs, honce, hdone, hregion, hseen, hpast, fun m hm => (hdecl m hm).words⟩
  · intro hcheck hgood
    obtain ⟨t, hexec, hends⟩ := exec_check_good hlive hfull hhdr hcheck hpacket hgood
    exact ⟨t, hexec, hends.regs, hends.once, hends.setDone, hends.verified, hends.isOpen, hends.chain, hends.sync, hends.startup⟩
  · exact fun hcheck => exec_check_bad hlive hfull hhdr hcheck hpacket
  · exact fun r => exec_check_unset hlive hfull hpacket
  · intro hgood
    obtain ⟨t, hexec, hends⟩ := exec_tag_good hlive hfull hhdr hcheck hpacket hgood
    exact ⟨t, hexec, hends.regs, hends.once, hends.setDone, hends.verified, hends.isOpen, hends.chain, hends.sync, hends.startup⟩
  · exact exec_tag_bad hlive hfull hhdr hcheck hpacket

end Sys2Proof.Machine
end
